-- ==== Sys2Proof/Word.lean ====
section
/-! DEFINITION. The word types of the TZ-6480 and the place of a register field (R6, R8). -/

namespace Sys2Proof

/-- A byte of a memory (R6). -/
abbrev Byte := BitVec 8

/-- A 32-bit register or instruction word (R8, R97). -/
abbrev Word := BitVec 32

/-- A 64-bit engine register, bank word or count. -/
abbrev DWord := BitVec 64

/-- A time in fine counts since timebase start (R5). Times wrap modulo 2^64 (R42). -/
abbrev Time := BitVec 64

/-- The place of a register field: the BAR0 offset of its register, its lowest bit and its width (R8).
A field that reaches past bit 31 runs on into the register at the next offset. -/
structure Fld where
  off : Nat
  lo  : Nat
  w   : Nat
  deriving DecidableEq, Repr

end Sys2Proof
end

