-- ==== Sys2Proof/Syntax.lean ====
section
/-! DEFINITION. The commands that the TZ-6480 takes, one constructor for each row of the opcode table, with their operands.
A requester `req` is 0 the host, 1 the management controller, 2 an engine, 3 Halyard (R383). -/

namespace Sys2Proof

/-- The configuration registers that the spec describes (R373 to R375, R381, R382): identification, Command, class and
revision, the six BARs, subsystem IDs, the halves of the Device Serial Number, Device Control, MSI-X Message Control,
Power Management Control and Capabilities, Interrupt Line and Pin, Device Capabilities, Link Capabilities, Link Control and
Status, the MSI-X Table and PBA Offset registers, and the first seven registers of Advanced Error Reporting: its header,
Uncorrectable Error Status, Mask and Severity, Correctable Error Status and Mask, and Capabilities and Control. -/
inductive CfgReg where
  | id | command | classRev | bar (n : Fin 6) | subsystem | serialLo | serialHi | deviceControl | msixControl | pmControl
  | interrupt | deviceCaps | linkCaps | linkControl | msixTable | msixPba | pmCaps | aer (n : Fin 7)
  deriving DecidableEq, Repr

/-- The attributes of a host request, which its completion carries back: Requester ID, Traffic Class, Relaxed Ordering and No
Snoop (R376). -/
structure ReqAttr where
  rid : Fin (2 ^ 16) := 0
  tc  : Fin 8 := 0
  ro  : Bool := false
  ns  : Bool := false
  deriving DecidableEq, Repr

/-- What a host request brings to be told from others and answered: its Tag and its attributes (R376). -/
structure ReqDesc where
  tag  : Fin 256
  attr : ReqAttr := {}
  deriving DecidableEq, Repr

/-- Where a configuration request goes: the ID by which it is routed and the register (R376). -/
structure CfgAddr where
  routing : Fin (2 ^ 16)
  reg     : CfgReg
  deriving DecidableEq, Repr

/-- How an operation of the Lanyard port begins: an I²C write transaction with its 7-bit address, or an SPI operation with its
first byte (R386, R387). -/
inductive LanStart where
  | i2c (addr : BitVec 7)
  | spi (op : Byte)
  deriving DecidableEq, Repr

/-- A write operation on the Lanyard port: how it begins, and the bytes of the frame that follow (R386, R387). -/
structure LanWrite where
  start : LanStart
  bytes : List Byte
  deriving DecidableEq, Repr

/-- An I²C read transaction: its 7-bit address and the bytes that the initiator takes (R386). -/
structure LanRead where
  addr : BitVec 7
  n    : Nat
  deriving DecidableEq, Repr

/-- What a Forestay frame that arrives carries beside its payload: the symbol of its comma, 0xBC for K28.5 and 0x3C for K28.1,
the DEPTH of its sender and its CRC (R454). -/
structure FrsHead where
  comma : Byte
  depth : Fin 32
  crc   : BitVec 16
  deriving DecidableEq, Repr

/-- The events that reset the endpoint (R381). -/
inductive HostEvent where
  | perst | hotReset | functionLevelReset | linkDown
  deriving DecidableEq, Repr

/-- The code of an event in the fault log (R399). -/
def HostEvent.code : HostEvent → Nat
  | .perst => 1 | .hotReset => 2 | .functionLevelReset => 3 | .linkDown => 4

/-- A command. -/
inductive Instr where
  /-- REGISTER_WRITE (R10). -/
  | registerWrite (req : Fin 4) (off : Fin (2 ^ 24)) (val : Word)
  /-- WIDE_READ_LATCH (R52). -/
  | wideReadLatch (req : Fin 2) (off : Fin (2 ^ 24))
  /-- WIDE_WRITE_PART (R53). -/
  | wideWritePart (req : Fin 2) (off : Fin (2 ^ 24)) (val : Word)
  /-- RDMODE_WRITE (R55). -/
  | rdmodeWrite (req : Fin 4) (val : Word)
  /-- COMMIT (R12). -/
  | commit (req : Fin 4) (off : Fin (2 ^ 24))
  /-- COMMIT_APPLY_NO_TICK (R14). -/
  | commitApplyNoTick (off : Fin (2 ^ 24))
  /-- PORTOWN_WRITE (R27). -/
  | portownWrite (req : Fin 4) (p : Fin 96) (val : Word)
  /-- OWNERR_CLR (R30). -/
  | ownerrClr (req : Fin 4)
  /-- WERR_CLR (R383). -/
  | werrClr (req : Fin 4)
  /-- MAST_CYCLE (R40). -/
  | mastCycle
  /-- TIMEBASE_START (R41). -/
  | timebaseStart (req : Fin 4)
  /-- TIMEBASE_STOP (R41). -/
  | timebaseStop (req : Fin 4)
  /-- MAST_PLL_LOCK (R39). -/
  | mastPllLock
  /-- REFERENCE_LOST (R38). -/
  | referenceLost
  /-- PPS_EDGE (R43). -/
  | ppsEdge (rising : Bool) (fine : Fin 256)
  /-- FIELD_REALIGN (R44). -/
  | fieldRealign (resid : Int)
  /-- TICKS_START (R59). -/
  | ticksStart (req : Fin 4)
  /-- TICKS_STOP (R60). -/
  | ticksStop (req : Fin 4)
  /-- TICKING_END (R60). -/
  | tickingEnd
  /-- KILN_HOLD (R70). -/
  | kilnHold (req : Fin 4) (on : Bool)
  /-- TICK_BOUNDARY (R61). -/
  | tickBoundary
  /-- VIRTUAL_BOUNDARY (R538). -/
  | virtualBoundary
  /-- SLOT_TABLE_WRITE (R75). -/
  | slotTableWrite (req : Fin 4) (k : Fin 2) (n : Fin 1024) (val : Word)
  /-- SLOT_START (R71). -/
  | slotStart
  /-- TICK_PROGRAM_START (R142). -/
  | tickProgramStart
  /-- OVERRUN (R64). -/
  | overrun (e : Fin 17)
  /-- WATCHDOG (R149). -/
  | watchdog (e : Fin 17)
  /-- ENGINE_RESET (R147). -/
  | engineReset (e : Fin 17)
  /-- TAKEOVER (R154). -/
  | takeover (e : Fin 16)
  /-- RECOVERY_RUN (R155). -/
  | recoveryRun
  /-- CATCH_UP_RUN (R156). -/
  | catchUpRun
  /-- ADD (R100). -/
  | add (e : Fin 17) (rd ra rb : Fin 16)
  /-- SUB (R100). -/
  | sub (e : Fin 17) (rd ra rb : Fin 16)
  /-- AND (R100). -/
  | and (e : Fin 17) (rd ra rb : Fin 16)
  /-- OR (R100). -/
  | or (e : Fin 17) (rd ra rb : Fin 16)
  /-- XOR (R100). -/
  | xor (e : Fin 17) (rd ra rb : Fin 16)
  /-- ANDN (R100). -/
  | andn (e : Fin 17) (rd ra rb : Fin 16)
  /-- SHL (R100). -/
  | shl (e : Fin 17) (rd ra rb : Fin 16)
  /-- SHR (R100). -/
  | shr (e : Fin 17) (rd ra rb : Fin 16)
  /-- SAR (R100). -/
  | sar (e : Fin 17) (rd ra rb : Fin 16)
  /-- ROR (R100). -/
  | ror (e : Fin 17) (rd ra rb : Fin 16)
  /-- SHLI (R100). -/
  | shli (e : Fin 17) (rd ra : Fin 16) (sh : Fin 64)
  /-- SHRI (R100). -/
  | shri (e : Fin 17) (rd ra : Fin 16) (sh : Fin 64)
  /-- SARI (R100). -/
  | sari (e : Fin 17) (rd ra : Fin 16) (sh : Fin 64)
  /-- RORI (R100). -/
  | rori (e : Fin 17) (rd ra : Fin 16) (sh : Fin 64)
  /-- SLT (R100). -/
  | slt (e : Fin 17) (rd ra rb : Fin 16)
  /-- SLTU (R100). -/
  | sltu (e : Fin 17) (rd ra rb : Fin 16)
  /-- MINU (R100). -/
  | minu (e : Fin 17) (rd ra rb : Fin 16)
  /-- MAXU (R100). -/
  | maxu (e : Fin 17) (rd ra rb : Fin 16)
  /-- MINS (R100). -/
  | mins (e : Fin 17) (rd ra rb : Fin 16)
  /-- MAXS (R100). -/
  | maxs (e : Fin 17) (rd ra rb : Fin 16)
  /-- MUL (R100). -/
  | mul (e : Fin 17) (rd ra rb : Fin 16)
  /-- MULHU (R100). -/
  | mulhu (e : Fin 17) (rd ra rb : Fin 16)
  /-- MULHS (R100). -/
  | mulhs (e : Fin 17) (rd ra rb : Fin 16)
  /-- DIVU (R101). -/
  | divu (e : Fin 17) (rd ra rb : Fin 16)
  /-- REMU (R101). -/
  | remu (e : Fin 17) (rd ra rb : Fin 16)
  /-- CLZ (R100). -/
  | clz (e : Fin 17) (rd ra : Fin 16)
  /-- CTZ (R100). -/
  | ctz (e : Fin 17) (rd ra : Fin 16)
  /-- POPC (R100). -/
  | popc (e : Fin 17) (rd ra : Fin 16)
  /-- ADDI (R102). -/
  | addi (e : Fin 17) (rd ra : Fin 16) (imm18 : Fin (2 ^ 18))
  /-- ANDI (R102). -/
  | andi (e : Fin 17) (rd ra : Fin 16) (imm18 : Fin (2 ^ 18))
  /-- ORI (R102). -/
  | ori (e : Fin 17) (rd ra : Fin 16) (imm18 : Fin (2 ^ 18))
  /-- XORI (R102). -/
  | xori (e : Fin 17) (rd ra : Fin 16) (imm18 : Fin (2 ^ 18))
  /-- SLTI (R102). -/
  | slti (e : Fin 17) (rd ra : Fin 16) (imm18 : Fin (2 ^ 18))
  /-- SLTIU (R102). -/
  | sltiu (e : Fin 17) (rd ra : Fin 16) (imm18 : Fin (2 ^ 18))
  /-- CONL (R103). -/
  | conl (e : Fin 17) (rd : Fin 16) (imm22 : Fin (2 ^ 22))
  /-- CONS (R103). -/
  | cons (e : Fin 17) (rd : Fin 16) (imm22 : Fin (2 ^ 22))
  /-- LD (R104). -/
  | ld (e : Fin 17) (rd ra : Fin 16) (size : Fin 4) (sgn pair rot : Bool) (off13 : Fin (2 ^ 13))
  /-- ST (R104). -/
  | st (e : Fin 17) (rs ra : Fin 16) (size : Fin 4) (pair rot : Bool) (off13 : Fin (2 ^ 13))
  /-- LDF (R108). -/
  | ldf (e : Fin 17) (rd ra : Fin 16) (size : Fin 4) (sgn pair : Bool) (lim : Fin 64) (off8 : Fin 256)
  /-- STF (R108). -/
  | stf (e : Fin 17) (rs ra : Fin 16) (size : Fin 4) (pair : Bool) (lim : Fin 64) (off8 : Fin 256)
  /-- FAR_ACCESS_GRANT (R109). -/
  | farAccessGrant (e : Fin 17) (g : Fin 252) (n : Fin 25)
  /-- FAR_ACCESS_WITHDRAW (R109). -/
  | farAccessWithdraw (e : Fin 17)
  /-- BEQ (R111). -/
  | beq (e : Fin 17) (ra rb : Fin 16) (off18 : Fin (2 ^ 18))
  /-- BNE (R111). -/
  | bne (e : Fin 17) (ra rb : Fin 16) (off18 : Fin (2 ^ 18))
  /-- BLT (R111). -/
  | blt (e : Fin 17) (ra rb : Fin 16) (off18 : Fin (2 ^ 18))
  /-- BGE (R111). -/
  | bge (e : Fin 17) (ra rb : Fin 16) (off18 : Fin (2 ^ 18))
  /-- BLTU (R111). -/
  | bltu (e : Fin 17) (ra rb : Fin 16) (off18 : Fin (2 ^ 18))
  /-- BGEU (R111). -/
  | bgeu (e : Fin 17) (ra rb : Fin 16) (off18 : Fin (2 ^ 18))
  /-- JMP (R111). -/
  | jmp (e : Fin 17) (imm26 : Fin (2 ^ 26))
  /-- CALL (R112). -/
  | call (e : Fin 17) (imm26 : Fin (2 ^ 26))
  /-- RET (R112). -/
  | ret (e : Fin 17)
  /-- LOOP (R113). -/
  | loop (e : Fin 17) (ra : Fin 16) (max12 : Fin (2 ^ 12)) (len10 : Fin (2 ^ 10))
  /-- ACT (R116). -/
  | act (e : Fin 17) (rt rh : Fin 16)
  /-- ACTP (R116). -/
  | actp (e : Fin 17) (rt rh : Fin 16) (port : Fin 128) (code : Fin 32)
  /-- SEAL (R143). -/
  | seal (e : Fin 17)
  /-- TRYL (R119). -/
  | tryl (e : Fin 17) (rd ra : Fin 16) (lock : Fin 64)
  /-- UNL (R120). -/
  | unl (e : Fin 17) (ra : Fin 16) (lock : Fin 64)
  /-- EVO (R121). -/
  | evo (e : Fin 17) (mask : Fin 256)
  /-- EVC (R121). -/
  | evc (e : Fin 17) (mask : Fin 256)
  /-- MFS (R122). -/
  | mfs (e : Fin 17) (rd : Fin 16) (sreg : Fin 256)
  /-- MTS (R122). -/
  | mts (e : Fin 17) (ra : Fin 16) (sreg : Fin 256)
  /-- LOAD (R135). -/
  | load (req : Fin 4) (e : Fin 17)
  /-- PROGRAM_CHECK_END (R136). -/
  | programCheckEnd (e : Fin 17)
  /-- COIL_HOLD (R162). -/
  | coilHold (req : Fin 4) (e : Fin 17) (on : Bool)
  /-- STEP (R162). -/
  | step (req : Fin 4) (e : Fin 17)
  /-- CHECKPOINT_WRITE (R162). -/
  | checkpointWrite (req : Fin 4) (e : Fin 17) (n : Fin 16) (val : DWord)
  /-- LOCK_FORCE (R148). -/
  | lockForce (req : Fin 4) (n : Fin 64)
  /-- COIL_CLR (R171). -/
  | coilClr (req : Fin 4) (e : Fin 17) (val : Word)
  /-- ACTION_ARRIVAL (R175). -/
  | actionArrival (p : Fin 96)
  /-- RETIME (R179). -/
  | retime (p : Fin 96)
  /-- CANCEL (R179). -/
  | cancel (p : Fin 96)
  /-- NOP (R174). -/
  | nop (p : Fin 96)
  /-- SET (R174). -/
  | set (p : Fin 96)
  /-- CLR (R174). -/
  | clr (p : Fin 96)
  /-- TOG (R174). -/
  | tog (p : Fin 96)
  /-- PULSE (R178). -/
  | pulse (p : Fin 96)
  /-- HIZ (R174). -/
  | hiz (p : Fin 96)
  /-- DRIVE (R174). -/
  | drive (p : Fin 96)
  /-- CLOAD (R193). -/
  | cload (p : Fin 96)
  /-- CRLD (R193). -/
  | crld (p : Fin 96)
  /-- CCMP (R194). -/
  | ccmp (p : Fin 96)
  /-- CSTART (R174). -/
  | cstart (p : Fin 96)
  /-- CSTOP (R174). -/
  | cstop (p : Fin 96)
  /-- CSNAP (R183). -/
  | csnap (p : Fin 96)
  /-- CUPPER (R191). -/
  | cupper (p : Fin 96)
  /-- CAPON (R185). -/
  | capon (p : Fin 96)
  /-- CAPOFF (R185). -/
  | capoff (p : Fin 96)
  /-- PULSE_END (R178). -/
  | pulseEnd (p : Fin 96)
  /-- SPACING_HELD_EDGE (R177). -/
  | spacingHeldEdge (p : Fin 96)
  /-- INPUT_EDGE (R182). -/
  | inputEdge (p : Fin 96) (level : Bool) (fine : Fin 256)
  /-- EDGE_QUALIFY (R186). -/
  | edgeQualify (p : Fin 96)
  /-- COUNTER_STEP (R191). -/
  | counterStep (p : Fin 96)
  /-- ARM_PULSE (R197). -/
  | armPulse (p : Fin 96)
  /-- PORT_ENABLE (R188). -/
  | portEnable (req : Fin 4) (p : Fin 96)
  /-- PORT_DISABLE (R188). -/
  | portDisable (req : Fin 4) (p : Fin 96)
  /-- CLRQ (R199). -/
  | clrq (req : Fin 4) (p : Fin 96)
  /-- PRT_CLR (R206). -/
  | prtClr (req : Fin 4) (p : Fin 96) (val : Word)
  /-- COUNTER_LOAD (R193). -/
  | counterLoad (req : Fin 4) (p : Fin 96) (val : DWord)
  /-- RELOAD_WRITE (R193). -/
  | reloadWrite (req : Fin 4) (p : Fin 96) (val : DWord)
  /-- COMPARE_WRITE (R194). -/
  | compareWrite (req : Fin 4) (p : Fin 96) (val : DWord)
  /-- COUNTER_RUN (R207). -/
  | counterRun (req : Fin 4) (p : Fin 96) (on : Bool)
  /-- OVERCURRENT_OFF (R189). -/
  | overcurrentOff (p : Fin 64)
  /-- OCP_CLEAR (R189). -/
  | ocpClear (req : Fin 4) (p : Fin 64)
  /-- LOAD_SHED (R516). -/
  | loadShed (hot : List (Fin 64)) (more : Fin 65)
  /-- CALIBRATION (R433). -/
  | calibration (p : Fin 96)
  /-- VR_ZERO_CROSSING (R215). -/
  | vrZeroCrossing (p : Fin 8) (fine : Fin 256)
  /-- TOOTH_RECORD_ARRIVAL (R213). -/
  | toothRecordArrival (w : Fin 4)
  /-- TOOTH_PROCESS (R214). -/
  | toothProcess (w : Fin 4)
  /-- STALL (R228). -/
  | stall (w : Fin 4)
  /-- SLOT_COMMIT (R232). -/
  | slotCommit (w : Fin 4) (k : Fin 64)
  /-- OCCURRENCE_BEGIN (R235). -/
  | occurrenceBegin (w : Fin 4) (k : Fin 64)
  /-- OCCURRENCE_END (R235). -/
  | occurrenceEnd (w : Fin 4) (k : Fin 64)
  /-- TRACKER_ENABLE (R247). -/
  | trackerEnable (req : Fin 4) (w : Fin 4)
  /-- TRACKER_DISABLE (R247). -/
  | trackerDisable (req : Fin 4) (w : Fin 4)
  /-- RESYNC (R224). -/
  | resync (req : Fin 4) (w : Fin 4)
  /-- TOOTH_TABLE_WRITE (R219). -/
  | toothTableWrite (req : Fin 4) (n : Fin 8192) (val : Word)
  /-- WHL_CLR (R253). -/
  | whlClr (req : Fin 4) (w : Fin 4) (val : Word)
  /-- SHEAVE_ENABLE (R257). -/
  | sheaveEnable (req : Fin 4) (u : Fin 8)
  /-- SHEAVE_STOP (R258). -/
  | sheaveStop (req : Fin 4) (u : Fin 8)
  /-- QUAD_SAMPLE (R261). -/
  | quadSample (u : Fin 8)
  /-- SINCOS_PAIR (R266). -/
  | sincosPair (u : Fin 8) (sn cs : BitVec 14)
  /-- COMPARATOR_SAMPLE (R269). -/
  | comparatorSample (u : Fin 8) (sneg clow : Bool)
  /-- SSI_FRAME_START (R272). -/
  | ssiFrameStart (u : Fin 8)
  /-- SSI_FRAME_END (R274). -/
  | ssiFrameEnd (u : Fin 8) (bits : DWord)
  /-- POSITION_LOAD (R275). -/
  | positionLoad (req : Fin 4) (u : Fin 8) (val : DWord)
  /-- SPEED_WINDOW (R276). -/
  | speedWindow (u : Fin 8)
  /-- STANDSTILL (R278). -/
  | standstill (u : Fin 8)
  /-- COMPARE_VALUE_WRITE (R281). -/
  | compareValueWrite (req : Fin 4) (u : Fin 8) (c : Fin 16) (val : DWord)
  /-- SHV_CLR (R289). -/
  | shvClr (req : Fin 4) (u : Fin 8) (val : Word)
  /-- ROUTE_DELIVERY (R294). -/
  | routeDelivery (n : Fin 1024)
  /-- FIELD_ROUTE_APPLY (R297). -/
  | fieldRouteApply
  /-- HOLDOFF_END (R307). -/
  | holdoffEnd (v : Fin 64)
  /-- MSIX_UNMASK (R307). -/
  | msixUnmask (v : Fin 64)
  /-- SOFTWARE_PULSE (R311). -/
  | softwarePulse (req : Fin 4) (val : Word)
  /-- RIG_CLR (R311). -/
  | rigClr (req : Fin 4) (val : Word)
  /-- TAP_CLEAR (R313). -/
  | tapClear (req : Fin 4) (v : Fin 64)
  /-- CWRD_WRITE (R303). -/
  | cwrdWrite (req : Fin 4) (val : Word)
  /-- CAPTURE_WRITER_ENABLE (R305). -/
  | captureWriterEnable (req : Fin 4)
  /-- DMA_GO (R322). -/
  | dmaGo (req : Fin 4) (c : Fin 32)
  /-- CHANNEL_ENABLE (R336). -/
  | channelEnable (req : Fin 4) (c : Fin 32)
  /-- CHANNEL_DISABLE (R335). -/
  | channelDisable (req : Fin 4) (c : Fin 32)
  /-- DISABLE_DRAINED (R335). -/
  | disableDrained (c : Fin 32)
  /-- TRIGCLR (R324). -/
  | trigclr (req : Fin 4) (c : Fin 32)
  /-- DESCRIPTOR_FETCH (R320). -/
  | descriptorFetch (c : Fin 32)
  /-- TRANSFER_START (R324). -/
  | transferStart (c : Fin 32)
  /-- TRANSACTION_ISSUE (R326). -/
  | transactionIssue
  /-- READ_RETURN (R325). -/
  | readReturn (id : Nat) (status : Fin 4) (data : List Byte)
  /-- WRITE_PERFORMED (R326). -/
  | writePerformed (id : Nat)
  /-- FLUSH_RETURN (R330). -/
  | flushReturn (id : Nat)
  /-- DESCRIPTOR_COMPLETE (R329). -/
  | descriptorComplete (c : Fin 32)
  /-- BUSERR_CLEAR (R334). -/
  | buserrClear (req : Fin 4)
  /-- BUSCNT_CLR (R340). -/
  | buscntClr (req : Fin 4)
  /-- CDESC_WRITE (R343). -/
  | cdescWrite (req : Fin 4) (c : Fin 32) (val : DWord)
  /-- CCNT_WRITE (R343). -/
  | ccntWrite (req : Fin 4) (c : Fin 32) (val : Word)
  /-- BANK_DECISION (R360). -/
  | bankDecision (b : Fin 9) (q : Fin 4)
  /-- SCRUB (R351). -/
  | scrub (b : Fin 9)
  /-- BANK_CLEAR_END (R352). -/
  | bankClearEnd (b : Fin 9)
  /-- ECC_INJECT (R354). -/
  | eccInject (req : Fin 4) (val : Word)
  /-- SCRUB_INTERVAL_WRITE (R368). -/
  | scrubIntervalWrite (req : Fin 4) (val : Word)
  /-- SAG_CLR (R368). -/
  | sagClr (req : Fin 4) (val : Word)
  /-- ARB_CLR (R371). -/
  | arbClr (req : Fin 4) (val : Word)
  /-- HOST_MEM_READ (R346). -/
  | hostMemRead (req : ReqDesc) (a : Fin (2 ^ 25)) (len : Fin 4097)
  /-- HOST_MEM_WRITE (R346). -/
  | hostMemWrite (a : Fin (2 ^ 25)) (data : List (Option Byte))
  /-- HOST_ALIAS_ACCESS (R356). -/
  | hostAliasAccess (req : ReqDesc) (write : Bool) (a : Fin (2 ^ 25)) (data : List (Option Byte))
  /-- HOST_READ_TIMEOUT (R380). -/
  | hostReadTimeout (tag : Fin 256)
  /-- BAR0_READ_REQUEST (R377). -/
  | bar0ReadRequest (req : ReqDesc) (off : Fin (2 ^ 24)) (n : Fin 1025)
  /-- BAR0_WRITE_REQUEST (R377). -/
  | bar0WriteRequest (off : Fin (2 ^ 24)) (vals : List Word) (full : Bool)
  /-- FIELD_PROXY_ACCESS (R379). -/
  | fieldProxyAccess
  /-- CONFIG_REQUEST (R422). -/
  | configRequest (req : ReqDesc) (at_ : CfgAddr) (val : Option Word)
  /-- HOST_LINK_RESET (R381). -/
  | hostLinkReset (k : HostEvent)
  /-- D3HOT_ENTRY (R382). -/
  | d3hotEntry
  /-- REQUEST_FRAME (R391). -/
  | requestFrame (frame : LanWrite)
  /-- I2C_READ (R388). -/
  | i2cRead (read : LanRead)
  /-- SPI_READ_RESPONSE (R387). -/
  | spiReadResponse (n : Nat)
  /-- SPI_READ_STATUS (R387). -/
  | spiReadStatus (n : Nat)
  /-- RESPONSE_READY (R391). -/
  | responseReady
  /-- GET_INFO (R394). -/
  | getInfo
  /-- READ_REG (R395). -/
  | readReg
  /-- WRITE_REG (R395). -/
  | writeReg
  /-- READ_MEM (R396). -/
  | readMem
  /-- WRITE_MEM (R396). -/
  | writeMem
  /-- GET_STATUS (R394). -/
  | getStatus
  /-- READ_LOG (R399). -/
  | readLog
  /-- CLEAR_LOG (R399). -/
  | clearLog
  /-- REC_INFO (R429). -/
  | recInfo
  /-- REC_WRITE (R427). -/
  | recWrite
  /-- REC_FINISH (R428). -/
  | recFinish
  /-- SECTOR_ERASE_END (R427). -/
  | sectorEraseEnd (ok : Bool)
  /-- PAGE_PROGRAM_END (R427). -/
  | pageProgramEnd (ok : Bool)
  /-- DOMAIN_SET (R397). -/
  | domainSet
  /-- BLOCK_RESET (R501). -/
  | blockReset
  /-- GET_CERT (R436). -/
  | getCert
  /-- ATTEST (R449). -/
  | attest
  /-- MBOX_GET (R401). -/
  | mboxGet
  /-- MBOX_PUT (R401). -/
  | mboxPut
  /-- H2M_SEND (R401). -/
  | h2mSend (req : Fin 4)
  /-- M2H_ACK (R401). -/
  | m2hAck (req : Fin 4)
  /-- FAULT_LOG_ENTRY (R399). -/
  | faultLogEntry
  /-- LEGACY_TIMER_ENABLE (R403). -/
  | legacyTimerEnable (req : Fin 4) (n : Fin 16)
  /-- LEGACY_TIMER_DISABLE (R406). -/
  | legacyTimerDisable (req : Fin 4) (n : Fin 16)
  /-- FLUSH (R406). -/
  | flush (req : Fin 4) (n : Fin 16)
  /-- LEGACY_BANK_DISABLE (R406). -/
  | legacyBankDisable (req : Fin 4) (b : Fin 4)
  /-- LEGACY_ISSUE (R404). -/
  | legacyIssue
  /-- MGMT_START (R421). -/
  | mgmtStart (spi : Bool) (addr : Fin 8)
  /-- RECORD_HEADERS_READ (R416). -/
  | recordHeadersRead
  /-- PASS1_COMPLETE (R416). -/
  | pass1Complete
  /-- RECORD_APPLY (R417). -/
  | recordApply (misread : List (Fin (2 ^ 20) × Byte))
  /-- BOOT_DONE (R417). -/
  | bootDone
  /-- REPLAY (R425). -/
  | replay (misread : List (Fin (2 ^ 20) × Byte))
  /-- LIFECYCLE_GO (R445). -/
  | lifecycleGo (req : Fin 4) (target : Fin 8)
  /-- LIFECYCLE_COMPLETE (R445). -/
  | lifecycleComplete (digestFail stateFail begun : Bool)
  /-- TAMPER_TRIP (R440). -/
  | tamperTrip (mask : Fin 32)
  /-- TAMPEN_WRITE (R452). -/
  | tampenWrite (req : Fin 4) (mask : Fin 32)
  /-- FRAME_SLOT (R456). -/
  | frameSlot (x : Fin 3) (fine : Fin 256)
  /-- LINK_UP (R453). -/
  | linkUp (x : Fin 3) (own : Bool)
  /-- LINK_DOWN (R453). -/
  | linkDown (x : Fin 3)
  /-- CALT (R455). -/
  | calt (x : Fin 3) (head : FrsHead) (pay : Word) (fine : Fin 256)
  /-- CALR (R455). -/
  | calr (x : Fin 3) (head : FrsHead) (pay : Word)
  /-- CALH (R455). -/
  | calh (x : Fin 3) (head : FrsHead) (pay : Word)
  /-- EVENT (R464). -/
  | event (x : Fin 3) (head : FrsHead) (pay : Word)
  /-- EVENT_DELIVERY (R464). -/
  | eventDelivery (k : Fin 8)
  /-- OPSTART (R467). -/
  | opstart (x : Fin 3) (head : FrsHead) (pay : Word)
  /-- OPCONT (R467). -/
  | opcont (x : Fin 3) (head : FrsHead) (pay : Word)
  /-- TREE (R463). -/
  | tree (x : Fin 3) (head : FrsHead) (pay : Word)
  /-- IDLE (R455). -/
  | idle (x : Fin 3) (head : FrsHead)
  /-- OPERATION_GO (R466). -/
  | operationGo (req : Fin 4) (kind : Fin 8)
  /-- TICKSTART (R469). -/
  | tickstart
  /-- ACTION (R470). -/
  | action
  /-- SNAPSHOT (R471). -/
  | snapshot
  /-- RESET (R472). -/
  | reset
  /-- FORESTAY_DISABLE (R474). -/
  | forestayDisable (req : Fin 4)
  /-- SUPPLY_CHANGE (R481). -/
  | supplyChange (k : Fin 6) (ev : Fin 5)
  /-- SHUTDOWN_NOTICE (R491). -/
  | shutdownNotice
  /-- POWER_ON_RESET (R483). -/
  | powerOnReset
  /-- SYS_RESET (R500). -/
  | sysReset
  /-- WAKE (R498). -/
  | wake
  /-- DOMAIN_SWITCH_ON (R486). -/
  | domainSwitchOn
  /-- DOMAIN_DECLARED_ON (R485). -/
  | domainDeclaredOn
  /-- DOMAIN_SWITCH_OFF (R488). -/
  | domainSwitchOff
  /-- DOMAIN_DECLARED_OFF (R486). -/
  | domainDeclaredOff
  /-- DOMAIN_FAIL (R486). -/
  | domainFail
  /-- PWRCTL_WRITE (R507). -/
  | pwrctlWrite (req : Fin 4) (val : Word)
  /-- BLKRST_WRITE (R507). -/
  | blkrstWrite (req : Fin 4) (val : Word)
  /-- STAY_RECORD_RECEIVE (R494). -/
  | stayRecordReceive (ret : Bool) (seq : Fin 4096) (ack : Bool)
  /-- SEQUENCE_WAIT_EXPIRY (R494). -/
  | sequenceWaitExpiry (ret : Bool)
  /-- LANE_FAIL (R495). -/
  | laneFail (ret : Bool) (k : Fin 4)
  /-- THREE_LANE_START (R495). -/
  | threeLaneStart
  /-- STAY_LINK_LOSS (R492). -/
  | stayLinkLoss
  /-- LOSS_TIMEOUT (R492). -/
  | lossTimeout
  /-- RETRAIN_END (R502). -/
  | retrainEnd (tx rx : Fin 16)
  /-- RETRAIN_TIMEOUT (R502). -/
  | retrainTimeout
  /-- REFERENCE_VALID (R38). -/
  | referenceValid
  /-- PCIE_LINK_UP (R381). -/
  | pcieLinkUp
  /-- COMPLETION_TIMEOUT (R331). -/
  | completionTimeout (id : Nat)
  /-- SGS_WIPE_END (R353). -/
  | sgsWipeEnd
  /-- VR_ARM (R215). -/
  | vrArm (p : Fin 8) (peak : Fin 4096) (fine : Fin 256)
  /-- TAMPER_SENSOR_RELEASE (R440). -/
  | tamperSensorRelease (mask : Fin 32)
  /-- VFIELD_MEASURE (R508). -/
  | vfieldMeasure (val : Fin 256)
  deriving DecidableEq, Repr

end Sys2Proof
end

