-- ==== Sys2Proof/Decode.lean ====
section
/-! DEFINITION. Words to commands. No row of the opcode table gives its command bits: the block takes commands, and no
word spells one. (The words of Coil instructions, which the engines fetch, are decoded in Machine/Coil.lean.) -/

namespace Sys2Proof

/-- The command that a word of nbits bits spells by the opcode table: none. -/
def decodeTableWord (_nbits _w : Nat) : Option Instr := none

end Sys2Proof
end

