-- ==== Sys2Proof/Config.lean ====
section
/-! DEFINITION. What an implementation fixes and what the spec leaves open: constants without a body, so that no
proof can see their values. -/

namespace Sys2Proof.Config

/-- The calibrated driver delay of port p in fc, removed from stamps in output modes (R182). -/
opaque driverDelay (p : Nat) : Nat

/-- θ of a sine/cosine pair whose corrected components are both 0, for which the spec states no angle (R266). -/
opaque angleAtOrigin (u : Nat) : Nat

/-- SHV_SCAMP for a magnitude r that does not fit its 14 bits (R266, R289). -/
opaque amplitudeOver (r : Nat) : Nat

/-- The quotient of R271 whose divisor is 0, by its dividend. -/
opaque adaptQuotient (n : Int) : Int

/-- A value the spec leaves undefined, fresh for each number n that the State counts. -/
opaque freeValue (n : Nat) : BitVec 64

/-! ### Fuses and ROM (R2, R9, R374, R434, R436, R444, R449) -/

/-- The module has the MI grade (R2). -/
opaque gradeMI : Bool
/-- The Device Serial Number (R374). -/
opaque serial : BitVec 64
/-- The mark certificate chain: the lengths of its parts that no rule gives, and their bytes (R436). -/
opaque certGap (n : Nat) : Nat
opaque certByte (n : Nat) : Byte
/-- The private half of the mark key, of which a scalar is made, and the wrap key of the key register (R434). -/
opaque markSecret : BitVec 256
opaque wrapKey : BitVec 256
/-- The Silkoken service key and firmware key in ROM, as the 64 bytes x then y (R430, R444). -/
opaque serviceKey : List Byte
opaque firmwareKey : List Byte
/-- The version of the ROM firmware (R430, R449). -/
opaque romVersion : Nat

end Sys2Proof.Config
end

