-- ==== Sys2Proof/Machine/Sha256.lean ====
section
/-! DEFINITION. SHA-256 as FIPS 180-4 defines it, over lists of bytes (R411, R412, R444, R449). -/

namespace Sys2Proof.Machine

open Sys2Proof

/-! ### Constants -/

/-- The largest number below r + 2 ^ n whose kth power does not exceed v, where r is built from its top bits. -/
def rootBits (k v : Nat) : Nat → Nat → Nat
  | 0, r => r
  | n + 1, r => rootBits k v n (if (r + 2 ^ n) ^ k ≤ v then r + 2 ^ n else r)

/-- The first 32 bits of the fraction of the kth root of v, a number below 16 ^ k. -/
def rootFraction (k v : Nat) : Word := BitVec.ofNat 32 (rootBits k (v * 2 ^ (32 * k)) 36 0)

/-- The primes below a bound. -/
def primesBelow (n : Nat) : List Nat := (List.range n).filter fun p => 2 ≤ p && (List.range p).all fun d => d < 2 || p % d != 0

/-- The 64 round constants: the cube roots of the first 64 primes (FIPS 180-4, 4.2.2). -/
def shaK : List Word := (primesBelow 312).map (rootFraction 3)

/-! ### Rounds -/

/-- The eight working words. -/
structure Sha where
  a : Word
  b : Word
  c : Word
  d : Word
  e : Word
  f : Word
  g : Word
  h : Word

/-- The initial hash value: the square roots of the first eight primes (FIPS 180-4, 5.3.3). -/
def shaInit : Sha :=
  let r := rootFraction 2
  ⟨r 2, r 3, r 5, r 7, r 11, r 13, r 17, r 19⟩

/-- The next word of the message schedule; w holds the last 16 words, newest first. -/
def shaNext (w : List Word) : Word :=
  let x := w.getD 1 0
  let y := w.getD 14 0
  let s1 := x.rotateRight 17 ^^^ x.rotateRight 19 ^^^ (x >>> 10)
  let s0 := y.rotateRight 7 ^^^ y.rotateRight 18 ^^^ (y >>> 3)
  s1 + w.getD 6 0 + s0 + w.getD 15 0

/-- One round with its constant and schedule word. -/
def shaRound (s : Sha) (k w : Word) : Sha :=
  let s1 := s.e.rotateRight 6 ^^^ s.e.rotateRight 11 ^^^ s.e.rotateRight 25
  let ch := (s.e &&& s.f) ^^^ (~~~s.e &&& s.g)
  let t1 := s.h + s1 + ch + k + w
  let s0 := s.a.rotateRight 2 ^^^ s.a.rotateRight 13 ^^^ s.a.rotateRight 22
  let maj := (s.a &&& s.b) ^^^ (s.a &&& s.c) ^^^ (s.b &&& s.c)
  ⟨t1 + (s0 + maj), s.a, s.b, s.c, s.d + t1, s.e, s.f, s.g⟩

/-- The rounds for the constants that are left; ws are the words of the block still to come, w the last 16 used. -/
def shaRounds : List Word → List Word → List Word → Sha → Sha
  | [], _, _, s => s
  | k :: ks, x :: ws, w, s => shaRounds ks ws (x :: w) (shaRound s k x)
  | k :: ks, [], w, s => let x := shaNext w; shaRounds ks [] (x :: w.take 15) (shaRound s k x)

/-- The number of bytes read most significant first. -/
def beNat (l : List Byte) : Nat := l.foldl (fun n b => 256 * n + b.toNat) 0

/-- The n bytes of a number, most significant first. -/
def beBytes (n v : Nat) : List Byte := (List.range n).map fun i => BitVec.ofNat 8 (v >>> (8 * (n - 1 - i)))

/-- The 32-bit words of a block. -/
def shaWords (l : List Byte) : List Word := (List.range 16).map fun i => BitVec.ofNat 32 (beNat ((l.drop (4 * i)).take 4))

/-- One block of 64 bytes. -/
def shaBlock (h : Sha) (l : List Byte) : Sha :=
  let s := shaRounds shaK (shaWords l) [] h
  ⟨h.a + s.a, h.b + s.b, h.c + s.c, h.d + s.d, h.e + s.e, h.f + s.f, h.g + s.g, h.h + s.h⟩

/-- The message with its padding. -/
def shaPad (l : List Byte) : List Byte :=
  l ++ [0x80] ++ List.replicate ((119 - l.length % 64) % 64) 0 ++ beBytes 8 (8 * l.length)

/-- The blocks of a padded message, n of them. -/
def shaBlocks : Nat → List Byte → Sha → Sha
  | 0, _, h => h
  | n + 1, l, h => shaBlocks n (l.drop 64) (shaBlock h (l.take 64))

/-- The SHA-256 digest of 32 bytes. -/
def sha256 (l : List Byte) : List Byte :=
  let p := shaPad l
  let h := shaBlocks (p.length / 64) p shaInit
  [h.a, h.b, h.c, h.d, h.e, h.f, h.g, h.h].flatMap fun (w : Word) => beBytes 4 w.toNat

end Sys2Proof.Machine
end

