-- ==== Sys2Proof/Machine/P256.lean ====
section
/-! DEFINITION. ECDSA over the curve P-256, as FIPS 186 and SEC 1 define it (R411 to R413, R430, R434, R444, R449). -/

namespace Sys2Proof.Machine

open Sys2Proof

/-! ### Arithmetic modulo a prime -/

/-- The field prime, the group order and the coefficient b of P-256; its coefficient a is -3. -/
def p256P : Nat := 2 ^ 256 - 2 ^ 224 + 2 ^ 192 + 2 ^ 96 - 1
def p256N : Nat := 0xffffffff00000000ffffffffffffffffbce6faada7179e84f3b9cac2fc632551
def p256B : Nat := 0x5ac635d8aa3a93e7b3ebbd55769886bc651d06b0cc53b0f63bce3c3e27d2604b

/-- x - y for residues modulo p. -/
def subMod (p x y : Nat) : Nat := (x + (p - y % p)) % p

/-- x to the power e, a number of 256 bits, modulo p: the bits from n - 1 down are still to come. -/
def powMod (p x e : Nat) : Nat → Nat → Nat
  | 0, r => r
  | n + 1, r => powMod p x e n (if e.testBit n then r * r % p * x % p else r * r % p)

/-- The inverse of x modulo the prime p. -/
def invMod (p x : Nat) : Nat := powMod p x (p - 2) 256 1

/-! ### The group -/

/-- A point as (x / z², y / z³); z = 0 is the point at infinity. -/
structure JPoint where
  x : Nat
  y : Nat
  z : Nat
  deriving DecidableEq, Repr

def JPoint.inf : JPoint := ⟨1, 1, 0⟩

/-- The base point. -/
def p256G : JPoint :=
  ⟨0x6b17d1f2e12c4247f8bce6e563a440f277037d812deb33a0f4a13945d898c296,
   0x4fe342e2fe1a7f9b8ee7eb4a7c0f9e162bce33576b315ececbb6406837bf51f5, 1⟩

/-- Twice a point. -/
def JPoint.dbl (a : JPoint) : JPoint :=
  let zz := a.z * a.z % p256P
  let yy := a.y * a.y % p256P
  let q := 4 * a.x * yy % p256P
  let m := 3 * subMod p256P a.x zz * (a.x + zz) % p256P
  let x := subMod p256P (m * m) (2 * q)
  if a.z = 0 || a.y = 0 then .inf else ⟨x, subMod p256P (m * subMod p256P q x) (8 * yy * yy), 2 * a.y * a.z % p256P⟩

/-- The sum of two points. -/
def JPoint.add (a b : JPoint) : JPoint :=
  let az := a.z * a.z % p256P
  let bz := b.z * b.z % p256P
  let u := a.x * bz % p256P
  let w := a.y * bz * b.z % p256P
  let h := subMod p256P (b.x * az) u
  let r := subMod p256P (b.y * az * a.z) w
  let hh := h * h % p256P
  let v := u * hh % p256P
  let x := subMod p256P (r * r) (hh * h + 2 * v)
  if a.z = 0 then b
  else if b.z = 0 then a
  else if h = 0 then (if r = 0 then a.dbl else .inf)
  else ⟨x, subMod p256P (r * subMod p256P v x) (w * hh % p256P * h), h * a.z % p256P * b.z % p256P⟩

/-- A multiple of a point: the bits of the factor from n - 1 down are still to come. -/
def JPoint.mulBits (a : JPoint) (k : Nat) : Nat → JPoint → JPoint
  | 0, r => r
  | n + 1, r => mulBits a k n (if k.testBit n then r.dbl.add a else r.dbl)

/-- k times a point, for k of 256 bits. -/
def JPoint.mul (k : Nat) (a : JPoint) : JPoint := a.mulBits k 256 .inf

/-- The affine coordinates of a point that is not at infinity. -/
def JPoint.affine (a : JPoint) : Nat × Nat :=
  let i := invMod p256P a.z
  (a.x * (i * i % p256P) % p256P, a.y * (i * i % p256P * i % p256P) % p256P)

/-- A pair of coordinates names a point of the curve. -/
def onCurve (x y : Nat) : Bool :=
  decide (x < p256P) && decide (y < p256P) && y * y % p256P == subMod p256P (x * x * x + p256B) (3 * x)

/-! ### Signatures -/

/-- A signature of 64 bytes, r then s, over a digest of 32 bytes verifies under a public key of 64 bytes, x then y; every
number stands most significant byte first (R412). -/
def ecdsaVerify (key digest sig : List Byte) : Bool :=
  let x := beNat (key.take 32)
  let y := beNat (key.drop 32)
  let r := beNat (sig.take 32)
  let s := beNat (sig.drop 32)
  let i := invMod p256N s
  let q := (p256G.mul (beNat digest * i % p256N)).add ((JPoint.mk x y 1).mul (r * i % p256N))
  decide (0 < r) && decide (r < p256N) && decide (0 < s) && decide (s < p256N) && onCurve x y &&
    q.z != 0 && q.affine.1 % p256N == r

/-- The public key of a private scalar. -/
def ecdsaPublic (d : Nat) : List Byte :=
  let q := (p256G.mul d).affine
  beBytes 32 q.1 ++ beBytes 32 q.2

/-- The signature of a digest with the private scalar d and the per-signature number k. -/
def ecdsaSign (d k : Nat) (digest : List Byte) : List Byte :=
  let r := (p256G.mul k).affine.1 % p256N
  beBytes 32 r ++ beBytes 32 (invMod p256N k * (beNat digest + r * d) % p256N)

end Sys2Proof.Machine
end

