-- ==== Sys2Proof/Machine/Aes.lean ====
section
/-! DEFINITION. AES-256 as FIPS 197 defines it, and the key wrap with padding of RFC 5649 over it (R434, R435). -/

namespace Sys2Proof.Machine

open Sys2Proof

/-! ### Substitution and the field of 256 elements, over bytes as numbers -/

/-- The substitution table and its inverse: row r holds the values for 16 r to 16 r + 15, the first one lowest. -/
def subRows : List Nat := [
  0x76abd7fe2b670130c56f6bf27b777c63, 0xc072a49cafa2d4adf04759fa7dc982ca,
  0x1531d871f1e5a534ccf73f362693fdb7, 0x75b227ebe28012079a059618c323c704,
  0x842fe329b3d63b52a05a6e1b1a2c8309, 0xcf584c4a39becb6a5bb1fc20ed00d153,
  0xa89f3c507f02f94585334d43fbaaefd0, 0xd2f3ff1021dab6bcf5389d928f40a351,
  0x73195d643d7ea7c41744975fec130ccd, 0xdb0b5ede14b8ee4688902a22dc4f8160,
  0x79e4959162acd3c25c2406490a3a32e0, 0x08ae7a65eaf4566ca94ed58d6d37c8e7,
  0x8a8bbd4b1f74dde8c6b4a61c2e2578ba, 0x9e1dc186b95735610ef6034866b53e70,
  0xdf2855cee9871e9b948ed9691198f8e1, 0x16bb54b00f2d99416842e6bf0d89a18c]
def unsubRows : List Nat := [
  0xfbd7f3819ea340bf38a53630d56a0952, 0xcbe9dec444438e3487ff2f9b8239e37c,
  0x4ec3fa420b954cee3d23c2a632947b54, 0x25d18b6d49a25b76b224d92866a12e08,
  0x92b6655dcc5ca4d41698688664f6f872, 0x849d8da75746155edab9edfd5048706c,
  0x0645b3b80558e4f70ad3bc8c00abd890, 0x6b8a130103bdafc1020f3fca8f1e2cd0,
  0x73e6b4f0cecff297eadc674f4111913a, 0x6edf751ce837f9e28535ade72274ac96,
  0x1bbe18aa0e62b76f89c5291d711af147, 0xf45acd78fec0db9a2079d2c64b3e56fc,
  0x5fec8027591012b131c7078833a8dd1f, 0xef9cc9939f7ae52d0d4ab519a97f5160,
  0x619953833cbbebc8b0f52aae4d3be0a0, 0x7d0c2155631469e126d677ba7e042b17]

/-- A byte's value in such a table. -/
def inRows (rows : List Nat) (a : Nat) : Nat := rows.getD (a / 16) 0 >>> (8 * (a % 16)) % 256

/-- Twice an element, modulo x⁸ + x⁴ + x³ + x + 1. -/
def gfTwice (a : Nat) : Nat := if 128 ≤ a then (2 * a) ^^^ 0x11b else 2 * a

/-- m times an element, for m below 16. -/
def gfTimes (m a : Nat) : Nat :=
  let b := gfTwice a
  let c := gfTwice b
  (m % 2 * a) ^^^ (m / 2 % 2 * b) ^^^ (m / 4 % 2 * c) ^^^ (m / 8 * gfTwice c)

/-! ### The cipher -/

/-- Bytes combined one by one. -/
def xorAll (a b : List Nat) : List Nat := List.zipWith (· ^^^ ·) a b

/-- The next word of the key schedule, of index i, from the words before it, newest first. -/
def keyWord (i : Nat) (w : List (List Nat)) : List Nat :=
  let t := w.getD 0 []
  let t := if i % 8 = 0 then xorAll ((t.drop 1 ++ t.take 1).map (inRows subRows)) [2 ^ (i / 8 - 1), 0, 0, 0]
    else if i % 8 = 4 then t.map (inRows subRows) else t
  xorAll (w.getD 7 []) t

/-- The 15 round keys of a key of 32 bytes. -/
def roundKeys (key : List Byte) : List (List Nat) :=
  let k := key.map (·.toNat)
  let start := ((List.range 8).map fun i => (k.drop (4 * i)).take 4).reverse
  let all := ((List.range 52).foldl (fun w i => keyWord (i + 8) w :: w) start).reverse
  (List.range 15).map fun r => ((all.drop (4 * r)).take 4).flatten

/-- The column mix with the four coefficients of its first row; byte 4 c + r of a block is row r of column c. -/
def mixWith (m l : List Nat) : List Nat :=
  (List.range 16).map fun i =>
    (List.range 4).foldl (fun v k => v ^^^ gfTimes (m.getD ((k + 4 - i % 4) % 4) 0) (l.getD (i / 4 * 4 + k) 0)) 0

/-- The shift of the rows by k columns times their number. -/
def shiftWith (k : Nat) (l : List Nat) : List Nat :=
  (List.range 16).map fun i => l.getD (4 * ((i / 4 + k * (i % 4)) % 4) + i % 4) 0

/-- A block of 16 bytes enciphered, and deciphered, under the round keys of a key. -/
def aesEncrypt (ks : List (List Nat)) (l : List Byte) : List Byte :=
  let sub := fun l => shiftWith 1 (l.map (inRows subRows))
  let x := (List.range 13).foldl (fun l r => xorAll (mixWith [2, 3, 1, 1] (sub l)) (ks.getD (r + 1) []))
    (xorAll (l.map (·.toNat)) (ks.getD 0 []))
  (xorAll (sub x) (ks.getD 14 [])).map (BitVec.ofNat 8)
def aesDecrypt (ks : List (List Nat)) (l : List Byte) : List Byte :=
  let back := fun k l => xorAll ((shiftWith 3 l).map (inRows unsubRows)) (ks.getD k [])
  let x := (List.range 13).foldl (fun l r => mixWith [14, 11, 13, 9] (back (13 - r) l))
    (xorAll (l.map (·.toNat)) (ks.getD 14 []))
  (back 0 x).map (BitVec.ofNat 8)

/-! ### Key wrap (RFC 5649) -/

/-- Bytes combined one by one. -/
def xorBytes (a b : List Byte) : List Byte := List.zipWith (· ^^^ ·) a b

/-- The initial value for a length: the constant A65959A6 and the length. -/
def wrapIv (n : Nat) : List Byte := beBytes 4 0xa65959a6 ++ beBytes 4 n

/-- The 8-byte part i of a byte string. -/
def part8 (l : List Byte) (i : Nat) : List Byte := (l.drop (8 * i)).take 8

/-- Step t of a wrap, on its 40 bytes: six passes over the four parts, each step with its number. -/
def wrapStep (ks : List (List Nat)) (s : List Byte) (t : Nat) : List Byte :=
  let i := t % 4 + 1
  let b := aesEncrypt ks (part8 s 0 ++ part8 s i)
  xorBytes (b.take 8) (beBytes 8 (t + 1)) ++ (s.drop 8).take (8 * (i - 1)) ++ b.drop 8 ++ s.drop (8 * (i + 1))

/-- The step of an unwrap that takes back step t of a wrap. -/
def unwrapStep (ks : List (List Nat)) (t : Nat) (s : List Byte) : List Byte :=
  let i := t % 4 + 1
  let b := aesDecrypt ks (xorBytes (part8 s 0) (beBytes 8 (t + 1)) ++ part8 s i)
  b.take 8 ++ (s.drop 8).take (8 * (i - 1)) ++ b.drop 8 ++ s.drop (8 * (i + 1))

/-- 32 bytes wrapped. -/
def keyWrap (key l : List Byte) : List Byte := (List.range 24).foldl (wrapStep (roundKeys key)) (wrapIv 32 ++ l)

/-- What an unwrap that has come to its end gives: none where the integrity check fails. -/
def unwrapped (s : List Byte) : Option (List Byte) :=
  let n := beNat ((s.drop 4).take 4)
  if s.take 8 = wrapIv n && decide (24 < n) && decide (n ≤ 32) && (s.drop (8 + n)).all (· == 0) then some ((s.drop 8).take n)
  else none

/-- 40 wrapped bytes unwrapped. -/
def keyUnwrap (key l : List Byte) : Option (List Byte) := unwrapped ((List.range 24).foldr (unwrapStep (roundKeys key)) l)

/-! ### The mark key as the module leaves final test (R434) -/

/-- A scalar of the group from 256 bits: 1 to n - 1. -/
def scalarOf (v : Nat) : Nat := v % (p256N - 1) + 1

/-- The private half, its public half in the fuse array, and its wrapped form in the fuse array. -/
def markPrivate : List Byte := beBytes 32 (scalarOf Config.markSecret.toNat)
def markPublic : List Byte := ecdsaPublic (beNat markPrivate)
def markWrapped : List Byte := keyWrap (beBytes 32 Config.wrapKey.toNat) markPrivate

end Sys2Proof.Machine
end

