-- ==== Sys2Proof/Machine/Map.lean ====
section
/-! DEFINITION. Sparse maps as plain data: a list of keys and values in one canonical form.
Keys rise strictly and no listed value equals what an unlisted key reads as, so equal maps are equal lists. -/

namespace Sys2Proof.Machine

/-- A sparse map from numbers; the reader names what an unlisted key reads as. -/
abbrev SMap (α : Type) := List (Nat × α)

/-- The value at key k, or d where the map lists none. -/
def mget {α : Type} : SMap α → Nat → α → α
  | [], _, d => d
  | (k', v) :: m, k, d => if k' = k then v else mget m k d

/-- Remove key k. -/
def merase {α : Type} (m : SMap α) (k : Nat) : SMap α := m.filter fun p => p.1 != k

/-- Put v at key k, in key order. -/
def mput {α : Type} : SMap α → Nat → α → SMap α
  | [], k, v => [(k, v)]
  | (k', v') :: m, k, v =>
    if k' = k then (k, v) :: m else if k < k' then (k, v) :: (k', v') :: m else (k', v') :: mput m k v

/-- Set key k to v in a map whose unlisted keys read as d. -/
def mset {α : Type} [DecidableEq α] (m : SMap α) (k : Nat) (v d : α) : SMap α :=
  if v = d then merase m k else mput m k v

/-- Change the value at key k by f. -/
def mmod {α : Type} [DecidableEq α] (m : SMap α) (k : Nat) (d : α) (f : α → α) : SMap α :=
  mset m k (f (mget m k d)) d

/-- Drop every key from lo up to, not including, hi. -/
def mclear {α : Type} (m : SMap α) (lo hi : Nat) : SMap α :=
  m.filter fun p => ! (decide (lo ≤ p.1) && decide (p.1 < hi))

/-- The keys rise strictly from above b. -/
def mrising {α : Type} : Nat → SMap α → Bool
  | _, [] => true
  | b, (k, _) :: m => decide (b ≤ k) && mrising (k + 1) m

/-- No listed value equals what an unlisted key reads as. -/
def mnodefault {α : Type} [DecidableEq α] (d : α) (m : SMap α) : Bool :=
  m.all fun p => decide (p.2 ≠ d)

/-- The canonical form: keys rise strictly, and no value is the default. -/
def mwf {α : Type} [DecidableEq α] (d : α) (m : SMap α) : Bool :=
  mrising 0 m && mnodefault d m

end Sys2Proof.Machine
end

