-- ==== Sys2Proof/Machine/Registers.lean ====
section
/-! DEFINITION. The register map: one name per register and per field of the spec's register tables (R3 to R508),
and the table of access masks and reset values that the generic write and the reset read.
Offsets are BAR0 offsets (R18). A "record" or "fused" reset value stands here as 0 (R9): a fused field is read
through the view of Machine/Ops.lean. -/

namespace Sys2Proof.Machine.Reg

open Sys2Proof

/-- GLB_ID, R3. -/
def GLB_ID : Nat := 0x0
def GLB_ID_PART : Fld := ⟨GLB_ID, 16, 16⟩
def GLB_ID_GRADE : Fld := ⟨GLB_ID, 8, 8⟩
def GLB_ID_STEPPING : Fld := ⟨GLB_ID, 0, 8⟩
/-- GLB_COMMIT, R25. -/
def GLB_COMMIT : Nat := 0x40
def GLB_COMMIT_COMMIT : Fld := ⟨GLB_COMMIT, 0, 1⟩
/-- GLB_RDMODE, R56. -/
def GLB_RDMODE : Nat := 0x44
def GLB_RDMODE_MODE : Fld := ⟨GLB_RDMODE, 0, 16⟩
/-- GLB_WERR, R383. -/
def GLB_WERR : Nat := 0x48
def GLB_WERR_COUNT : Fld := ⟨GLB_WERR, 16, 16⟩
def GLB_WERR_REQ : Fld := ⟨GLB_WERR, 8, 3⟩
def GLB_WERR_CLR : Fld := ⟨GLB_WERR, 1, 1⟩
def GLB_WERR_WERR : Fld := ⟨GLB_WERR, 0, 1⟩
/-- GLB_WERRADDR, R384. -/
def GLB_WERRADDR : Nat := 0x4c
def GLB_WERRADDR_ADDR : Fld := ⟨GLB_WERRADDR, 0, 32⟩
/-- GLB_BOOT, R420. -/
def GLB_BOOT : Nat := 0x50
def GLB_BOOT_REFUSED : Fld := ⟨GLB_BOOT, 24, 8⟩
def GLB_BOOT_RESULT : Fld := ⟨GLB_BOOT, 12, 4⟩
def GLB_BOOT_REPLAYFAIL : Fld := ⟨GLB_BOOT, 6, 1⟩
def GLB_BOOT_FWREJ : Fld := ⟨GLB_BOOT, 5, 1⟩
def GLB_BOOT_FWREC : Fld := ⟨GLB_BOOT, 4, 1⟩
def GLB_BOOT_CHECKFAIL : Fld := ⟨GLB_BOOT, 3, 1⟩
def GLB_BOOT_ACTIVE : Fld := ⟨GLB_BOOT, 1, 1⟩
def GLB_BOOT_DONE : Fld := ⟨GLB_BOOT, 0, 1⟩
/-- GLB_BOOTSEQ, R420. -/
def GLB_BOOTSEQ : Nat := 0x54
def GLB_BOOTSEQ_SEQ : Fld := ⟨GLB_BOOTSEQ, 0, 32⟩
/-- GLB_PWRSTAT, R507. -/
def GLB_PWRSTAT : Nat := 0x58
def GLB_PWRSTAT_BUSY : Fld := ⟨GLB_PWRSTAT, 31, 1⟩
def GLB_PWRSTAT_FAIL : Fld := ⟨GLB_PWRSTAT, 30, 1⟩
def GLB_PWRSTAT_FLDSUP : Fld := ⟨GLB_PWRSTAT, 16, 1⟩
def GLB_PWRSTAT_ON : Fld := ⟨GLB_PWRSTAT, 0, 15⟩
/-- GLB_PWRCTL, R507. -/
def GLB_PWRCTL : Nat := 0x5c
def GLB_PWRCTL_MASK : Fld := ⟨GLB_PWRCTL, 16, 15⟩
def GLB_PWRCTL_VALUE : Fld := ⟨GLB_PWRCTL, 0, 15⟩
/-- GLB_RSTCAUSE, R507. -/
def GLB_RSTCAUSE : Nat := 0x60
def GLB_RSTCAUSE_VAONLOST : Fld := ⟨GLB_RSTCAUSE, 8, 1⟩
def GLB_RSTCAUSE_CAUSE : Fld := ⟨GLB_RSTCAUSE, 0, 3⟩
/-- GLB_BLKRST, R507. -/
def GLB_BLKRST : Nat := 0x64
def GLB_BLKRST_CODE : Fld := ⟨GLB_BLKRST, 0, 4⟩
/-- GLB_OWNERR, R29. -/
def GLB_OWNERR : Nat := 0x80
def GLB_OWNERR_COUNT : Fld := ⟨GLB_OWNERR, 16, 16⟩
def GLB_OWNERR_SRC_TYPE : Fld := ⟨GLB_OWNERR, 13, 2⟩
def GLB_OWNERR_SRC_INDEX : Fld := ⟨GLB_OWNERR, 8, 5⟩
def GLB_OWNERR_CLR : Fld := ⟨GLB_OWNERR, 7, 1⟩
def GLB_OWNERR_PORT : Fld := ⟨GLB_OWNERR, 0, 7⟩
/-- GLB_PORTOWNn, R26. -/
def GLB_PORTOWN (n : Nat) : Nat := 0x400 + 0x4 * n
def GLB_PORTOWN_STANDIN (n : Nat) : Fld := ⟨GLB_PORTOWN n, 24, 1⟩
def GLB_PORTOWN_TYPE (n : Nat) : Fld := ⟨GLB_PORTOWN n, 8, 2⟩
def GLB_PORTOWN_INDEX (n : Nat) : Fld := ⟨GLB_PORTOWN n, 0, 5⟩
/-- MST_CTRL, R45. -/
def MST_CTRL : Nat := 0x10000
def MST_CTRL_PPS_EDGE : Fld := ⟨MST_CTRL, 2, 1⟩
def MST_CTRL_PPS_EN : Fld := ⟨MST_CTRL, 1, 1⟩
def MST_CTRL_RUN : Fld := ⟨MST_CTRL, 0, 1⟩
/-- MST_STATUS, R46. -/
def MST_STATUS : Nat := 0x10004
def MST_STATUS_REF_ACTIVE : Fld := ⟨MST_STATUS, 8, 3⟩
def MST_STATUS_PPS_SEEN : Fld := ⟨MST_STATUS, 5, 1⟩
def MST_STATUS_FLD_ALIGNLOSS : Fld := ⟨MST_STATUS, 4, 1⟩
def MST_STATUS_FLD_ALIGNED : Fld := ⟨MST_STATUS, 3, 1⟩
def MST_STATUS_REFLOST : Fld := ⟨MST_STATUS, 2, 1⟩
def MST_STATUS_HOLDOVER : Fld := ⟨MST_STATUS, 1, 1⟩
def MST_STATUS_LOCKED : Fld := ⟨MST_STATUS, 0, 1⟩
/-- MST_REFSEL, R47. -/
def MST_REFSEL : Nat := 0x10008
def MST_REFSEL_SRC : Fld := ⟨MST_REFSEL, 0, 3⟩
/-- MST_TRIM, R48. -/
def MST_TRIM : Nat := 0x1000c
def MST_TRIM_TRIM : Fld := ⟨MST_TRIM, 0, 32⟩
/-- MST_NOW, R49. -/
def MST_NOW : Nat := 0x10010
def MST_NOW_NOW : Fld := ⟨MST_NOW, 0, 64⟩
/-- MST_SET, R49. -/
def MST_SET : Nat := 0x10018
def MST_SET_SET : Fld := ⟨MST_SET, 0, 64⟩
/-- MST_PPS, R49. -/
def MST_PPS : Nat := 0x10020
def MST_PPS_PPS : Fld := ⟨MST_PPS, 0, 64⟩
/-- MST_FLDSKEW, R50. -/
def MST_FLDSKEW : Nat := 0x10028
def MST_FLDSKEW_RESID : Fld := ⟨MST_FLDSKEW, 0, 16⟩
/-- KLN_COMMIT, R67. -/
def KLN_COMMIT : Nat := 0x10040
def KLN_COMMIT_COMMIT : Fld := ⟨KLN_COMMIT, 0, 1⟩
/-- KLN_CTRL, R81. -/
def KLN_CTRL : Nat := 0x10080
def KLN_CTRL_HOLD : Fld := ⟨KLN_CTRL, 1, 1⟩
def KLN_CTRL_RUN : Fld := ⟨KLN_CTRL, 0, 1⟩
/-- KLN_STATUS, R82. -/
def KLN_STATUS : Nat := 0x10084
def KLN_STATUS_SLOTWR : Fld := ⟨KLN_STATUS, 4, 1⟩
def KLN_STATUS_COMMIT_REJ : Fld := ⟨KLN_STATUS, 3, 1⟩
def KLN_STATUS_START_LATE : Fld := ⟨KLN_STATUS, 2, 1⟩
def KLN_STATUS_ARMED : Fld := ⟨KLN_STATUS, 1, 1⟩
def KLN_STATUS_TICKING : Fld := ⟨KLN_STATUS, 0, 1⟩
/-- KLN_PERIOD, R83. -/
def KLN_PERIOD : Nat := 0x10088
def KLN_PERIOD_PERIOD : Fld := ⟨KLN_PERIOD, 0, 32⟩
/-- KLN_SLOTSEL, R84. -/
def KLN_SLOTSEL : Nat := 0x1008c
def KLN_SLOTSEL_ACTIVE : Fld := ⟨KLN_SLOTSEL, 0, 1⟩
/-- KLN_FIRST, R49. -/
def KLN_FIRST : Nat := 0x10090
def KLN_FIRST_FIRST : Fld := ⟨KLN_FIRST, 0, 64⟩
/-- KLN_TICKCNT, R85. -/
def KLN_TICKCNT : Nat := 0x10098
def KLN_TICKCNT_COUNT : Fld := ⟨KLN_TICKCNT, 0, 64⟩
/-- KLN_TICKTIME, R85. -/
def KLN_TICKTIME : Nat := 0x100a0
def KLN_TICKTIME_TIME : Fld := ⟨KLN_TICKTIME, 0, 64⟩
/-- KLN_OVR, R86. -/
def KLN_OVR : Nat := 0x100a8
def KLN_OVR_OVR : Fld := ⟨KLN_OVR, 0, 17⟩
/-- KLN_SLOT, R73. -/
def KLN_SLOT (k : Nat) (n : Nat) : Nat := 0x14000 + 0x1000 * k + 0x4 * n
def KLN_SLOT_CAP_OWNER (k : Nat) (n : Nat) : Fld := ⟨KLN_SLOT k n, 8, 5⟩
def KLN_SLOT_CMD_OWNER (k : Nat) (n : Nat) : Fld := ⟨KLN_SLOT k n, 0, 5⟩
/-- RIG_STATUS, R311. -/
def RIG_STATUS : Nat := 0x20000
def RIG_STATUS_CFGERR : Fld := ⟨RIG_STATUS, 2, 1⟩
def RIG_STATUS_CWDROP : Fld := ⟨RIG_STATUS, 1, 1⟩
def RIG_STATUS_DLYOVF : Fld := ⟨RIG_STATUS, 0, 1⟩
/-- RIG_SWPULSE, R311. -/
def RIG_SWPULSE : Nat := 0x20004
def RIG_SWPULSE_PULSE : Fld := ⟨RIG_SWPULSE, 0, 8⟩
/-- RIG_DLYINFO, R311. -/
def RIG_DLYINFO : Nat := 0x20008
def RIG_DLYINFO_COUNT : Fld := ⟨RIG_DLYINFO, 16, 16⟩
def RIG_DLYINFO_ENTRY : Fld := ⟨RIG_DLYINFO, 0, 10⟩
/-- RIG_CLR, R311. -/
def RIG_CLR : Nat := 0x2000c
def RIG_CLR_LANECNT : Fld := ⟨RIG_CLR, 2, 1⟩
def RIG_CLR_CWDROP : Fld := ⟨RIG_CLR, 1, 1⟩
def RIG_CLR_DLYINFO : Fld := ⟨RIG_CLR, 0, 1⟩
/-- RIG_COMMIT, R67. -/
def RIG_COMMIT : Nat := 0x20040
def RIG_COMMIT_COMMIT : Fld := ⟨RIG_COMMIT, 0, 1⟩
/-- RIG_CWCFG, R312. -/
def RIG_CWCFG : Nat := 0x20080
def RIG_CWCFG_EN : Fld := ⟨RIG_CWCFG, 0, 1⟩
/-- RIG_CWBASE, R312. -/
def RIG_CWBASE : Nat := 0x20084
def RIG_CWBASE_BASE : Fld := ⟨RIG_CWBASE, 0, 18⟩
/-- RIG_CWLEN, R312. -/
def RIG_CWLEN : Nat := 0x20088
def RIG_CWLEN_LEN : Fld := ⟨RIG_CWLEN, 0, 19⟩
/-- RIG_CWNOTIFY, R312. -/
def RIG_CWNOTIFY : Nat := 0x2008c
def RIG_CWNOTIFY_TICK : Fld := ⟨RIG_CWNOTIFY, 31, 1⟩
def RIG_CWNOTIFY_COUNT : Fld := ⟨RIG_CWNOTIFY, 0, 16⟩
/-- RIG_CWWR, R312. -/
def RIG_CWWR : Nat := 0x20090
def RIG_CWWR_WR : Fld := ⟨RIG_CWWR, 0, 32⟩
/-- RIG_CWRD, R312. -/
def RIG_CWRD : Nat := 0x20094
def RIG_CWRD_RD : Fld := ⟨RIG_CWRD, 0, 32⟩
/-- RIG_CWDROP, R312. -/
def RIG_CWDROP : Nat := 0x20098
def RIG_CWDROP_COUNT : Fld := ⟨RIG_CWDROP, 0, 32⟩
/-- RIG_LANECNTk, R312. -/
def RIG_LANECNT (k : Nat) : Nat := 0x200a0 + 0x4 * k
def RIG_LANECNT_COUNT (k : Nat) : Fld := ⟨RIG_LANECNT k, 0, 32⟩
/-- RIG_TAPv, R313. -/
def RIG_TAP (v : Nat) : Nat := 0x20400 + 0x4 * v
def RIG_TAP_COUNT (v : Nat) : Fld := ⟨RIG_TAP v, 16, 16⟩
def RIG_TAP_HOLDOFF (v : Nat) : Fld := ⟨RIG_TAP v, 0, 16⟩
/-- RIG_TAPCLR, R313. -/
def RIG_TAPCLR : Nat := 0x20500
def RIG_TAPCLR_CLR : Fld := ⟨RIG_TAPCLR, 8, 1⟩
def RIG_TAPCLR_VECTOR : Fld := ⟨RIG_TAPCLR, 0, 6⟩
/-- RIG_ROUTEe, R314. -/
def RIG_ROUTE (e : Nat) : Nat := 0x21000 + 0x8 * e
def RIG_ROUTE_DELAY (e : Nat) : Fld := ⟨RIG_ROUTE e, 32, 24⟩
def RIG_ROUTE_EN (e : Nat) : Fld := ⟨RIG_ROUTE e, 31, 1⟩
def RIG_ROUTE_DST (e : Nat) : Fld := ⟨RIG_ROUTE e, 16, 9⟩
def RIG_ROUTE_SRC (e : Nat) : Fld := ⟨RIG_ROUTE e, 0, 10⟩
/-- HLY_STATUS, R338. -/
def HLY_STATUS : Nat := 0x30000
def HLY_STATUS_INFLIGHT : Fld := ⟨HLY_STATUS, 16, 9⟩
def HLY_STATUS_REJ : Fld := ⟨HLY_STATUS, 2, 1⟩
def HLY_STATUS_MULTI : Fld := ⟨HLY_STATUS, 1, 1⟩
def HLY_STATUS_BUSERR : Fld := ⟨HLY_STATUS, 0, 1⟩
/-- HLY_ERRINFO, R339. -/
def HLY_ERRINFO : Nat := 0x30004
def HLY_ERRINFO_AFTERZERO : Fld := ⟨HLY_ERRINFO, 13, 1⟩
def HLY_ERRINFO_PHASE : Fld := ⟨HLY_ERRINFO, 11, 2⟩
def HLY_ERRINFO_KIND : Fld := ⟨HLY_ERRINFO, 8, 3⟩
def HLY_ERRINFO_CH : Fld := ⟨HLY_ERRINFO, 0, 5⟩
/-- HLY_ERRADDR, R339. -/
def HLY_ERRADDR : Nat := 0x30008
def HLY_ERRADDR_ADDR : Fld := ⟨HLY_ERRADDR, 0, 64⟩
/-- HLY_REJ, R340. -/
def HLY_REJ : Nat := 0x30010
def HLY_REJ_CH : Fld := ⟨HLY_REJ, 0, 32⟩
/-- HLY_BUSCNT, R340. -/
def HLY_BUSCNT : Nat := 0x30014
def HLY_BUSCNT_CLR : Fld := ⟨HLY_BUSCNT, 31, 1⟩
def HLY_BUSCNT_COUNT : Fld := ⟨HLY_BUSCNT, 0, 16⟩
/-- HLY_CCTRL, R341. -/
def HLY_CCTRL (c : Nat) : Nat := 0x31000 + 0x40 * c
def HLY_CCTRL_TRIGCLR (c : Nat) : Fld := ⟨HLY_CCTRL c, 2, 1⟩
def HLY_CCTRL_GO (c : Nat) : Fld := ⟨HLY_CCTRL c, 1, 1⟩
def HLY_CCTRL_EN (c : Nat) : Fld := ⟨HLY_CCTRL c, 0, 1⟩
/-- HLY_CSTAT, R342. -/
def HLY_CSTAT (c : Nat) : Nat := 0x31004 + 0x40 * c
def HLY_CSTAT_TRIGOVF (c : Nat) : Fld := ⟨HLY_CSTAT c, 8, 1⟩
def HLY_CSTAT_TRIGPEND (c : Nat) : Fld := ⟨HLY_CSTAT c, 4, 1⟩
def HLY_CSTAT_STATE (c : Nat) : Fld := ⟨HLY_CSTAT c, 0, 3⟩
/-- HLY_CERR, R343. -/
def HLY_CERR (c : Nat) : Nat := 0x31008 + 0x40 * c
def HLY_CERR_CODE (c : Nat) : Fld := ⟨HLY_CERR c, 0, 4⟩
/-- HLY_CQUOTA, R343. -/
def HLY_CQUOTA (c : Nat) : Nat := 0x3100c + 0x40 * c
def HLY_CQUOTA_QUOTA (c : Nat) : Fld := ⟨HLY_CQUOTA c, 0, 9⟩
/-- HLY_CDESC, R343. -/
def HLY_CDESC (c : Nat) : Nat := 0x31010 + 0x40 * c
def HLY_CDESC_ADDR (c : Nat) : Fld := ⟨HLY_CDESC c, 0, 64⟩
/-- HLY_CLAST, R343. -/
def HLY_CLAST (c : Nat) : Nat := 0x31018 + 0x40 * c
def HLY_CLAST_ADDR (c : Nat) : Fld := ⟨HLY_CLAST c, 0, 64⟩
/-- HLY_CREM, R343. -/
def HLY_CREM (c : Nat) : Nat := 0x31020 + 0x40 * c
def HLY_CREM_BYTES (c : Nat) : Fld := ⟨HLY_CREM c, 0, 32⟩
/-- HLY_CCNT, R343. -/
def HLY_CCNT (c : Nat) : Nat := 0x31024 + 0x40 * c
def HLY_CCNT_COUNT (c : Nat) : Fld := ⟨HLY_CCNT c, 0, 32⟩
/-- HLY_CINFL, R343. -/
def HLY_CINFL (c : Nat) : Nat := 0x31028 + 0x40 * c
def HLY_CINFL_COUNT (c : Nat) : Fld := ⟨HLY_CINFL c, 0, 9⟩
/-- SAG_STATUS, R368. -/
def SAG_STATUS : Nat := 0x40000
def SAG_STATUS_UNC : Fld := ⟨SAG_STATUS, 16, 9⟩
def SAG_STATUS_CORR : Fld := ⟨SAG_STATUS, 0, 9⟩
/-- SAG_ECCINJ, R368. -/
def SAG_ECCINJ : Nat := 0x40004
def SAG_ECCINJ_BANK : Fld := ⟨SAG_ECCINJ, 8, 4⟩
def SAG_ECCINJ_DOUBLE : Fld := ⟨SAG_ECCINJ, 1, 1⟩
def SAG_ECCINJ_ARM : Fld := ⟨SAG_ECCINJ, 0, 1⟩
/-- SAG_SCRUB, R368. -/
def SAG_SCRUB : Nat := 0x40008
def SAG_SCRUB_INTERVAL : Fld := ⟨SAG_SCRUB, 0, 16⟩
/-- SAG_CLR, R368. -/
def SAG_CLR : Nat := 0x4000c
def SAG_CLR_ECC : Fld := ⟨SAG_CLR, 0, 9⟩
/-- SAG_BUSY, R368. -/
def SAG_BUSY : Nat := 0x40010
def SAG_BUSY_CLEARING : Fld := ⟨SAG_BUSY, 0, 9⟩
/-- ARB_COMMIT, R67. -/
def ARB_COMMIT : Nat := 0x40040
def ARB_COMMIT_COMMIT : Fld := ⟨ARB_COMMIT, 0, 1⟩
/-- SAG_ECCb, R369. -/
def SAG_ECC (b : Nat) : Nat := 0x40080 + 0x8 * b
def SAG_ECC_UNC (b : Nat) : Fld := ⟨SAG_ECC b, 20, 12⟩
def SAG_ECC_REQ (b : Nat) : Fld := ⟨SAG_ECC b, 16, 4⟩
def SAG_ECC_CORR (b : Nat) : Fld := ⟨SAG_ECC b, 0, 16⟩
/-- SAG_ECCADDRb, R369. -/
def SAG_ECCADDR (b : Nat) : Nat := 0x40084 + 0x8 * b
def SAG_ECCADDR_ADDR (b : Nat) : Fld := ⟨SAG_ECCADDR b, 0, 32⟩
/-- ARB_CLASSb, R370. -/
def ARB_CLASS (b : Nat) : Nat := 0x40100 + 0x4 * b
def ARB_CLASS_SCRUB (b : Nat) : Fld := ⟨ARB_CLASS b, 20, 2⟩
def ARB_CLASS_TRACE (b : Nat) : Fld := ⟨ARB_CLASS b, 18, 2⟩
def ARB_CLASS_CHECK (b : Nat) : Fld := ⟨ARB_CLASS b, 16, 2⟩
def ARB_CLASS_MGMT (b : Nat) : Fld := ⟨ARB_CLASS b, 14, 2⟩
def ARB_CLASS_HOST (b : Nat) : Fld := ⟨ARB_CLASS b, 12, 2⟩
def ARB_CLASS_HALYARD (b : Nat) : Fld := ⟨ARB_CLASS b, 10, 2⟩
def ARB_CLASS_FARCL3 (b : Nat) : Fld := ⟨ARB_CLASS b, 8, 2⟩
def ARB_CLASS_FARCL2 (b : Nat) : Fld := ⟨ARB_CLASS b, 6, 2⟩
def ARB_CLASS_FARCL1 (b : Nat) : Fld := ⟨ARB_CLASS b, 4, 2⟩
def ARB_CLASS_FARCL0 (b : Nat) : Fld := ⟨ARB_CLASS b, 2, 2⟩
def ARB_CLASS_OWNER (b : Nat) : Fld := ⟨ARB_CLASS b, 0, 2⟩
/-- ARB_BURST, R371. -/
def ARB_BURST : Nat := 0x40120
def ARB_BURST_SGHB : Fld := ⟨ARB_BURST, 8, 5⟩
def ARB_BURST_SGCB : Fld := ⟨ARB_BURST, 0, 4⟩
/-- ARB_CLR, R371. -/
def ARB_CLR : Nat := 0x40124
def ARB_CLR_WAIT : Fld := ⟨ARB_CLR, 0, 7⟩
/-- ARB_WAITb, R372. -/
def ARB_WAIT (b : Nat) : Nat := 0x40140 + 0x4 * b
def ARB_WAIT_DEAD (b : Nat) : Fld := ⟨ARB_WAIT b, 20, 12⟩
def ARB_WAIT_REQ (b : Nat) : Fld := ⟨ARB_WAIT b, 16, 4⟩
def ARB_WAIT_MAXWAIT (b : Nat) : Fld := ⟨ARB_WAIT b, 0, 16⟩
/-- WHL_CTRL, R249. -/
def WHL_CTRL (w : Nat) : Nat := 0x50000 + 0x1000 * w
def WHL_CTRL_RESYNC (w : Nat) : Fld := ⟨WHL_CTRL w, 1, 1⟩
def WHL_CTRL_EN (w : Nat) : Fld := ⟨WHL_CTRL w, 0, 1⟩
/-- WHL_STATUS, R250. -/
def WHL_STATUS (w : Nat) : Nat := 0x50004 + 0x1000 * w
def WHL_STATUS_CAUSE (w : Nat) : Fld := ⟨WHL_STATUS w, 8, 4⟩
def WHL_STATUS_LEARNING (w : Nat) : Fld := ⟨WHL_STATUS w, 6, 1⟩
def WHL_STATUS_ESTVALID (w : Nat) : Fld := ⟨WHL_STATUS w, 5, 1⟩
def WHL_STATUS_REVERSE (w : Nat) : Fld := ⟨WHL_STATUS w, 4, 1⟩
def WHL_STATUS_STATE (w : Nat) : Fld := ⟨WHL_STATUS w, 0, 3⟩
/-- WHL_FLAGS, R250. -/
def WHL_FLAGS (w : Nat) : Nat := 0x50008 + 0x1000 * w
def WHL_FLAGS_SLOTRANGE (w : Nat) : Fld := ⟨WHL_FLAGS w, 11, 1⟩
def WHL_FLAGS_CFGERR (w : Nat) : Fld := ⟨WHL_FLAGS w, 10, 1⟩
def WHL_FLAGS_TTECC (w : Nat) : Fld := ⟨WHL_FLAGS w, 9, 1⟩
def WHL_FLAGS_DROP (w : Nat) : Fld := ⟨WHL_FLAGS w, 8, 1⟩
def WHL_FLAGS_SKIP (w : Nat) : Fld := ⟨WHL_FLAGS w, 7, 1⟩
def WHL_FLAGS_OVERSPEED (w : Nat) : Fld := ⟨WHL_FLAGS w, 6, 1⟩
def WHL_FLAGS_REJECT (w : Nat) : Fld := ⟨WHL_FLAGS w, 5, 1⟩
def WHL_FLAGS_ACCEL_LIMIT (w : Nat) : Fld := ⟨WHL_FLAGS w, 4, 1⟩
def WHL_FLAGS_REVERSE (w : Nat) : Fld := ⟨WHL_FLAGS w, 3, 1⟩
def WHL_FLAGS_STALL (w : Nat) : Fld := ⟨WHL_FLAGS w, 2, 1⟩
def WHL_FLAGS_SYNCLOSS (w : Nat) : Fld := ⟨WHL_FLAGS w, 1, 1⟩
def WHL_FLAGS_SYNCGAIN (w : Nat) : Fld := ⟨WHL_FLAGS w, 0, 1⟩
/-- WHL_CFG, R251. -/
def WHL_CFG (w : Nat) : Nat := 0x5000c + 0x1000 * w
def WHL_CFG_DIRINV (w : Nat) : Fld := ⟨WHL_CFG w, 8, 1⟩
def WHL_CFG_SEDGE (w : Nat) : Fld := ⟨WHL_CFG w, 7, 1⟩
def WHL_CFG_PEDGE (w : Nat) : Fld := ⟨WHL_CFG w, 6, 1⟩
def WHL_CFG_STALLKEEP (w : Nat) : Fld := ⟨WHL_CFG w, 5, 1⟩
def WHL_CFG_SECMODE (w : Nat) : Fld := ⟨WHL_CFG w, 2, 3⟩
def WHL_CFG_CYCLE2 (w : Nat) : Fld := ⟨WHL_CFG w, 1, 1⟩
def WHL_CFG_ACC_EN (w : Nat) : Fld := ⟨WHL_CFG w, 0, 1⟩
/-- WHL_SYNCCFG, R251. -/
def WHL_SYNCCFG (w : Nat) : Nat := 0x50010 + 0x1000 * w
def WHL_SYNCCFG_SYNCSRC (w : Nat) : Fld := ⟨WHL_SYNCCFG w, 30, 1⟩
def WHL_SYNCCFG_REFPOS (w : Nat) : Fld := ⟨WHL_SYNCCFG w, 20, 10⟩
def WHL_SYNCCFG_GAPR (w : Nat) : Fld := ⟨WHL_SYNCCFG w, 14, 6⟩
def WHL_SYNCCFG_CONFIRM (w : Nat) : Fld := ⟨WHL_SYNCCFG w, 10, 4⟩
def WHL_SYNCCFG_NM1 (w : Nat) : Fld := ⟨WHL_SYNCCFG w, 0, 10⟩
/-- WHL_INPUT, R251. -/
def WHL_INPUT (w : Nat) : Nat := 0x50014 + 0x1000 * w
def WHL_INPUT_SPORT (w : Nat) : Fld := ⟨WHL_INPUT w, 8, 7⟩
def WHL_INPUT_PPORT (w : Nat) : Fld := ⟨WHL_INPUT w, 0, 7⟩
/-- WHL_TTCFG, R251. -/
def WHL_TTCFG (w : Nat) : Nat := 0x50018 + 0x1000 * w
def WHL_TTCFG_SBASE (w : Nat) : Fld := ⟨WHL_TTCFG w, 16, 13⟩
def WHL_TTCFG_PBASE (w : Nat) : Fld := ⟨WHL_TTCFG w, 0, 13⟩
/-- WHL_SECN, R251. -/
def WHL_SECN (w : Nat) : Nat := 0x5001c + 0x1000 * w
def WHL_SECN_N2M1 (w : Nat) : Fld := ⟨WHL_SECN w, 0, 10⟩
/-- WHL_FILT, R252. -/
def WHL_FILT (w : Nat) : Nat := 0x50020 + 0x1000 * w
def WHL_FILT_MINFRAC (w : Nat) : Fld := ⟨WHL_FILT w, 0, 8⟩
/-- WHL_STALL, R252. -/
def WHL_STALL (w : Nat) : Nat := 0x50024 + 0x1000 * w
def WHL_STALL_ABS (w : Nat) : Fld := ⟨WHL_STALL w, 8, 24⟩
def WHL_STALL_MULT (w : Nat) : Fld := ⟨WHL_STALL w, 0, 8⟩
/-- WHL_LEARN, R252. -/
def WHL_LEARN (w : Nat) : Nat := 0x50028 + 0x1000 * w
def WHL_LEARN_LTOL (w : Nat) : Fld := ⟨WHL_LEARN w, 8, 8⟩
def WHL_LEARN_LRATE (w : Nat) : Fld := ⟨WHL_LEARN w, 1, 3⟩
def WHL_LEARN_EN (w : Nat) : Fld := ⟨WHL_LEARN w, 0, 1⟩
/-- WHL_ISSUE, R252. -/
def WHL_ISSUE (w : Nat) : Nat := 0x5002c + 0x1000 * w
def WHL_ISSUE_RETOL (w : Nat) : Fld := ⟨WHL_ISSUE w, 8, 24⟩
def WHL_ISSUE_LOOKAHEAD (w : Nat) : Fld := ⟨WHL_ISSUE w, 0, 7⟩
/-- WHL_RECCFG, R252. -/
def WHL_RECCFG (w : Nat) : Nat := 0x50030 + 0x1000 * w
def WHL_RECCFG_STATE (w : Nat) : Fld := ⟨WHL_RECCFG w, 3, 1⟩
def WHL_RECCFG_EVT (w : Nat) : Fld := ⟨WHL_RECCFG w, 2, 1⟩
def WHL_RECCFG_SEC (w : Nat) : Fld := ⟨WHL_RECCFG w, 1, 1⟩
def WHL_RECCFG_TOOTH (w : Nat) : Fld := ⟨WHL_RECCFG w, 0, 1⟩
/-- WHL_VRCFG, R251. -/
def WHL_VRCFG (w : Nat) : Nat := 0x50034 + 0x1000 * w
def WHL_VRCFG_VRFRAC (w : Nat) : Fld := ⟨WHL_VRCFG w, 8, 4⟩
def WHL_VRCFG_VRMIN (w : Nat) : Fld := ⟨WHL_VRCFG w, 0, 8⟩
/-- WHL_ERRCNT, R253. -/
def WHL_ERRCNT (w : Nat) : Nat := 0x50038 + 0x1000 * w
def WHL_ERRCNT_DROP (w : Nat) : Fld := ⟨WHL_ERRCNT w, 24, 8⟩
def WHL_ERRCNT_LOSS (w : Nat) : Fld := ⟨WHL_ERRCNT w, 12, 12⟩
def WHL_ERRCNT_REJ (w : Nat) : Fld := ⟨WHL_ERRCNT w, 0, 12⟩
/-- WHL_CLR, R253. -/
def WHL_CLR (w : Nat) : Nat := 0x5003c + 0x1000 * w
def WHL_CLR_SEQ (w : Nat) : Fld := ⟨WHL_CLR w, 1, 1⟩
def WHL_CLR_ERR (w : Nat) : Fld := ⟨WHL_CLR w, 0, 1⟩
/-- WHL_COMMIT, R67. -/
def WHL_COMMIT (w : Nat) : Nat := 0x50040 + 0x1000 * w
def WHL_COMMIT_COMMIT (w : Nat) : Fld := ⟨WHL_COMMIT w, 0, 1⟩
/-- WHL_SEQ, R253. -/
def WHL_SEQ (w : Nat) : Nat := 0x50044 + 0x1000 * w
def WHL_SEQ_SEQ (w : Nat) : Fld := ⟨WHL_SEQ w, 0, 16⟩
/-- WHL_LASTT, R253. -/
def WHL_LASTT (w : Nat) : Nat := 0x50048 + 0x1000 * w
def WHL_LASTT_TIME (w : Nat) : Fld := ⟨WHL_LASTT w, 0, 64⟩
/-- WHL_ANGLE, R253. -/
def WHL_ANGLE (w : Nat) : Nat := 0x50050 + 0x1000 * w
def WHL_ANGLE_ANGLE (w : Nat) : Fld := ⟨WHL_ANGLE w, 0, 32⟩
/-- WHL_NOWANG, R253. -/
def WHL_NOWANG (w : Nat) : Nat := 0x50054 + 0x1000 * w
def WHL_NOWANG_ANGLE (w : Nat) : Fld := ⟨WHL_NOWANG w, 0, 32⟩
/-- WHL_TPT, R253. -/
def WHL_TPT (w : Nat) : Nat := 0x50058 + 0x1000 * w
def WHL_TPT_N2 (w : Nat) : Fld := ⟨WHL_TPT w, 0, 64⟩
/-- WHL_SLOPE, R253. -/
def WHL_SLOPE (w : Nat) : Nat := 0x50060 + 0x1000 * w
def WHL_SLOPE_S (w : Nat) : Fld := ⟨WHL_SLOPE w, 0, 64⟩
/-- WHL_PHASE, R253. -/
def WHL_PHASE (w : Nat) : Nat := 0x50068 + 0x1000 * w
def WHL_PHASE_PHASE (w : Nat) : Fld := ⟨WHL_PHASE w, 0, 32⟩
/-- WHL_PHDIFF, R253. -/
def WHL_PHDIFF (w : Nat) : Nat := 0x5006c + 0x1000 * w
def WHL_PHDIFF_DIFF (w : Nat) : Fld := ⟨WHL_PHDIFF w, 0, 32⟩
/-- WHL_PHIDX, R253. -/
def WHL_PHIDX (w : Nat) : Nat := 0x50070 + 0x1000 * w
def WHL_PHIDX_J (w : Nat) : Fld := ⟨WHL_PHIDX w, 0, 10⟩
/-- WHL_VRPEAK, R253. -/
def WHL_VRPEAK (w : Nat) : Nat := 0x50074 + 0x1000 * w
def WHL_VRPEAK_PEAK (w : Nat) : Fld := ⟨WHL_VRPEAK w, 0, 12⟩
/-- WHL_CYCCNT, R253. -/
def WHL_CYCCNT (w : Nat) : Nat := 0x50078 + 0x1000 * w
def WHL_CYCCNT_COUNT (w : Nat) : Fld := ⟨WHL_CYCCNT w, 0, 32⟩
/-- WHL_CYCT, R253. -/
def WHL_CYCT (w : Nat) : Nat := 0x50080 + 0x1000 * w
def WHL_CYCT_TIME (w : Nat) : Fld := ⟨WHL_CYCT w, 0, 64⟩
/-- WHL_EVCFGs, R254. -/
def WHL_EVCFG (w : Nat) (s : Nat) : Nat := 0x50400 + 0x1000 * w + 0x10 * s
def WHL_EVCFG_LATEWIN (w : Nat) (s : Nat) : Fld := ⟨WHL_EVCFG w s, 16, 16⟩
def WHL_EVCFG_PORT (w : Nat) (s : Nat) : Fld := ⟨WHL_EVCFG w s, 8, 7⟩
def WHL_EVCFG_EVT (w : Nat) (s : Nat) : Fld := ⟨WHL_EVCFG w s, 6, 1⟩
def WHL_EVCFG_MARK (w : Nat) (s : Nat) : Fld := ⟨WHL_EVCFG w s, 5, 1⟩
def WHL_EVCFG_ONCE (w : Nat) (s : Nat) : Fld := ⟨WHL_EVCFG w s, 3, 1⟩
def WHL_EVCFG_LATEPOL (w : Nat) (s : Nat) : Fld := ⟨WHL_EVCFG w s, 2, 1⟩
def WHL_EVCFG_ENDMODE (w : Nat) (s : Nat) : Fld := ⟨WHL_EVCFG w s, 1, 1⟩
def WHL_EVCFG_EN (w : Nat) (s : Nat) : Fld := ⟨WHL_EVCFG w s, 0, 1⟩
/-- WHL_EVBEGs, R254. -/
def WHL_EVBEG (w : Nat) (s : Nat) : Nat := 0x50404 + 0x1000 * w + 0x10 * s
def WHL_EVBEG_BEGIN (w : Nat) (s : Nat) : Fld := ⟨WHL_EVBEG w s, 0, 32⟩
/-- WHL_EVENDs, R254. -/
def WHL_EVEND (w : Nat) (s : Nat) : Nat := 0x50408 + 0x1000 * w + 0x10 * s
def WHL_EVEND_END (w : Nat) (s : Nat) : Fld := ⟨WHL_EVEND w s, 0, 32⟩
/-- WHL_EVMAXs, R254. -/
def WHL_EVMAX (w : Nat) (s : Nat) : Nat := 0x5040c + 0x1000 * w + 0x10 * s
def WHL_EVMAX_MAXDUR (w : Nat) (s : Nat) : Fld := ⟨WHL_EVMAX w s, 0, 32⟩
/-- WHL_EVSTATs, R254. -/
def WHL_EVSTAT (w : Nat) (s : Nat) : Nat := 0x50800 + 0x1000 * w + 0x4 * s
def WHL_EVSTAT_ENDLATE (w : Nat) (s : Nat) : Fld := ⟨WHL_EVSTAT w s, 12, 1⟩
def WHL_EVSTAT_REVEND (w : Nat) (s : Nat) : Fld := ⟨WHL_EVSTAT w s, 11, 1⟩
def WHL_EVSTAT_GUARD (w : Nat) (s : Nat) : Fld := ⟨WHL_EVSTAT w s, 10, 1⟩
def WHL_EVSTAT_FIRELATE (w : Nat) (s : Nat) : Fld := ⟨WHL_EVSTAT w s, 9, 1⟩
def WHL_EVSTAT_SKIPPED (w : Nat) (s : Nat) : Fld := ⟨WHL_EVSTAT w s, 8, 1⟩
def WHL_EVSTAT_PARITY (w : Nat) (s : Nat) : Fld := ⟨WHL_EVSTAT w s, 3, 1⟩
def WHL_EVSTAT_STATE (w : Nat) (s : Nat) : Fld := ⟨WHL_EVSTAT w s, 0, 3⟩
/-- SHV_CTRL, R286. -/
def SHV_CTRL (u : Nat) : Nat := 0x60000 + 0x800 * u
def SHV_CTRL_EN (u : Nat) : Fld := ⟨SHV_CTRL u, 0, 1⟩
/-- SHV_STATUS, R286. -/
def SHV_STATUS (u : Nat) : Nat := 0x60004 + 0x800 * u
def SHV_STATUS_FRAMEBUSY (u : Nat) : Fld := ⟨SHV_STATUS u, 8, 1⟩
def SHV_STATUS_DRIFTVALID (u : Nat) : Fld := ⟨SHV_STATUS u, 7, 1⟩
def SHV_STATUS_POSVALID (u : Nat) : Fld := ⟨SHV_STATUS u, 6, 1⟩
def SHV_STATUS_COUNTONLY (u : Nat) : Fld := ⟨SHV_STATUS u, 5, 1⟩
def SHV_STATUS_STILL (u : Nat) : Fld := ⟨SHV_STATUS u, 4, 1⟩
def SHV_STATUS_DIR (u : Nat) : Fld := ⟨SHV_STATUS u, 3, 1⟩
def SHV_STATUS_RUNNING (u : Nat) : Fld := ⟨SHV_STATUS u, 0, 1⟩
/-- SHV_FLAGS, R286. -/
def SHV_FLAGS (u : Nat) : Nat := 0x60008 + 0x800 * u
def SHV_FLAGS_OWNLOST (u : Nat) : Fld := ⟨SHV_FLAGS u, 10, 1⟩
def SHV_FLAGS_CFGERR (u : Nat) : Fld := ⟨SHV_FLAGS u, 9, 1⟩
def SHV_FLAGS_DROP (u : Nat) : Fld := ⟨SHV_FLAGS u, 8, 1⟩
def SHV_FLAGS_DRIFT (u : Nat) : Fld := ⟨SHV_FLAGS u, 7, 1⟩
def SHV_FLAGS_FRAMESKIP (u : Nat) : Fld := ⟨SHV_FLAGS u, 6, 1⟩
def SHV_FLAGS_NOTREADY (u : Nat) : Fld := ⟨SHV_FLAGS u, 5, 1⟩
def SHV_FLAGS_CRCERR (u : Nat) : Fld := ⟨SHV_FLAGS u, 4, 1⟩
def SHV_FLAGS_SIGLOSS (u : Nat) : Fld := ⟨SHV_FLAGS u, 3, 1⟩
def SHV_FLAGS_ILLEGAL (u : Nat) : Fld := ⟨SHV_FLAGS u, 2, 1⟩
def SHV_FLAGS_DIRCHG (u : Nat) : Fld := ⟨SHV_FLAGS u, 1, 1⟩
def SHV_FLAGS_INDEX (u : Nat) : Fld := ⟨SHV_FLAGS u, 0, 1⟩
/-- SHV_CFG, R287. -/
def SHV_CFG (u : Nat) : Nat := 0x6000c + 0x800 * u
def SHV_CFG_IDXSTATE (u : Nat) : Fld := ⟨SHV_CFG u, 12, 2⟩
def SHV_CFG_IDXGATE (u : Nat) : Fld := ⟨SHV_CFG u, 11, 1⟩
def SHV_CFG_ZEDGE (u : Nat) : Fld := ⟨SHV_CFG u, 10, 1⟩
def SHV_CFG_IDXEN (u : Nat) : Fld := ⟨SHV_CFG u, 9, 1⟩
def SHV_CFG_DIRINV (u : Nat) : Fld := ⟨SHV_CFG u, 8, 1⟩
def SHV_CFG_DECODE (u : Nat) : Fld := ⟨SHV_CFG u, 4, 2⟩
def SHV_CFG_MODE (u : Nat) : Fld := ⟨SHV_CFG u, 0, 2⟩
/-- SHV_INPUT, R287. -/
def SHV_INPUT (u : Nat) : Nat := 0x60010 + 0x800 * u
def SHV_INPUT_ZPORT (u : Nat) : Fld := ⟨SHV_INPUT u, 16, 6⟩
def SHV_INPUT_BPORT (u : Nat) : Fld := ⟨SHV_INPUT u, 8, 6⟩
def SHV_INPUT_APORT (u : Nat) : Fld := ⟨SHV_INPUT u, 0, 6⟩
/-- SHV_SSICFG, R287. -/
def SHV_SSICFG (u : Nat) : Nat := 0x60014 + 0x800 * u
def SHV_SSICFG_DELAY (u : Nat) : Fld := ⟨SHV_SSICFG u, 24, 8⟩
def SHV_SSICFG_CRCINV (u : Nat) : Fld := ⟨SHV_SSICFG u, 23, 1⟩
def SHV_SSICFG_GRAY (u : Nat) : Fld := ⟨SHV_SSICFG u, 22, 1⟩
def SHV_SSICFG_SKIP (u : Nat) : Fld := ⟨SHV_SSICFG u, 19, 3⟩
def SHV_SSICFG_CRCBITS (u : Nat) : Fld := ⟨SHV_SSICFG u, 14, 5⟩
def SHV_SSICFG_DBITS (u : Nat) : Fld := ⟨SHV_SSICFG u, 8, 6⟩
/-- SHV_SSITIM, R287. -/
def SHV_SSITIM (u : Nat) : Nat := 0x60018 + 0x800 * u
def SHV_SSITIM_OFS (u : Nat) : Fld := ⟨SHV_SSITIM u, 16, 16⟩
def SHV_SSITIM_HALF (u : Nat) : Fld := ⟨SHV_SSITIM u, 0, 10⟩
/-- SHV_SSICRC, R287. -/
def SHV_SSICRC (u : Nat) : Nat := 0x6001c + 0x800 * u
def SHV_SSICRC_POLY (u : Nat) : Fld := ⟨SHV_SSICRC u, 0, 16⟩
/-- SHV_SCLIM, R287. -/
def SHV_SCLIM (u : Nat) : Nat := 0x60020 + 0x800 * u
def SHV_SCLIM_AMAX (u : Nat) : Fld := ⟨SHV_SCLIM u, 16, 14⟩
def SHV_SCLIM_AMIN (u : Nat) : Fld := ⟨SHV_SCLIM u, 0, 14⟩
/-- SHV_SCADAPT, R288. -/
def SHV_SCADAPT (u : Nat) : Nat := 0x60024 + 0x800 * u
def SHV_SCADAPT_ADAPTK (u : Nat) : Fld := ⟨SHV_SCADAPT u, 1, 3⟩
def SHV_SCADAPT_AUTO (u : Nat) : Fld := ⟨SHV_SCADAPT u, 0, 1⟩
/-- SHV_SCOFS, R288. -/
def SHV_SCOFS (u : Nat) : Nat := 0x60028 + 0x800 * u
def SHV_SCOFS_COFS (u : Nat) : Fld := ⟨SHV_SCOFS u, 16, 16⟩
def SHV_SCOFS_SOFS (u : Nat) : Fld := ⟨SHV_SCOFS u, 0, 16⟩
/-- SHV_SCCORR, R288. -/
def SHV_SCCORR (u : Nat) : Nat := 0x6002c + 0x800 * u
def SHV_SCCORR_PHI (u : Nat) : Fld := ⟨SHV_SCCORR u, 16, 16⟩
def SHV_SCCORR_GAIN (u : Nat) : Fld := ⟨SHV_SCCORR u, 0, 16⟩
/-- SHV_SPDCFG, R288. -/
def SHV_SPDCFG (u : Nat) : Nat := 0x60030 + 0x800 * u
def SHV_SPDCFG_STILL (u : Nat) : Fld := ⟨SHV_SPDCFG u, 16, 16⟩
def SHV_SPDCFG_SPDWIN (u : Nat) : Fld := ⟨SHV_SPDCFG u, 0, 16⟩
/-- SHV_RECCFG, R288. -/
def SHV_RECCFG (u : Nat) : Nat := 0x60034 + 0x800 * u
def SHV_RECCFG_ERR (u : Nat) : Fld := ⟨SHV_RECCFG u, 4, 1⟩
def SHV_RECCFG_SSI (u : Nat) : Fld := ⟨SHV_RECCFG u, 3, 1⟩
def SHV_RECCFG_IDX (u : Nat) : Fld := ⟨SHV_RECCFG u, 2, 1⟩
def SHV_RECCFG_TSPD (u : Nat) : Fld := ⟨SHV_RECCFG u, 1, 1⟩
def SHV_RECCFG_TPOS (u : Nat) : Fld := ⟨SHV_RECCFG u, 0, 1⟩
/-- SHV_ERRCNT, R289. -/
def SHV_ERRCNT (u : Nat) : Nat := 0x60038 + 0x800 * u
def SHV_ERRCNT_ILLEGAL (u : Nat) : Fld := ⟨SHV_ERRCNT u, 16, 16⟩
def SHV_ERRCNT_CRC (u : Nat) : Fld := ⟨SHV_ERRCNT u, 8, 8⟩
def SHV_ERRCNT_FRAME (u : Nat) : Fld := ⟨SHV_ERRCNT u, 0, 8⟩
/-- SHV_CLR, R289. -/
def SHV_CLR (u : Nat) : Nat := 0x6003c + 0x800 * u
def SHV_CLR_SEQ (u : Nat) : Fld := ⟨SHV_CLR u, 1, 1⟩
def SHV_CLR_ERR (u : Nat) : Fld := ⟨SHV_CLR u, 0, 1⟩
/-- SHV_COMMIT, R67. -/
def SHV_COMMIT (u : Nat) : Nat := 0x60040 + 0x800 * u
def SHV_COMMIT_COMMIT (u : Nat) : Fld := ⟨SHV_COMMIT u, 0, 1⟩
/-- SHV_SEQ, R289. -/
def SHV_SEQ (u : Nat) : Nat := 0x60044 + 0x800 * u
def SHV_SEQ_SEQ (u : Nat) : Fld := ⟨SHV_SEQ u, 0, 16⟩
/-- SHV_SCAMP, R289. -/
def SHV_SCAMP (u : Nat) : Nat := 0x60048 + 0x800 * u
def SHV_SCAMP_AMP (u : Nat) : Fld := ⟨SHV_SCAMP u, 0, 14⟩
/-- SHV_DRIFTTOL, R288. -/
def SHV_DRIFTTOL (u : Nat) : Nat := 0x6004c + 0x800 * u
def SHV_DRIFTTOL_TOL (u : Nat) : Fld := ⟨SHV_DRIFTTOL u, 0, 16⟩
/-- SHV_POS, R289. -/
def SHV_POS (u : Nat) : Nat := 0x60050 + 0x800 * u
def SHV_POS_POS (u : Nat) : Fld := ⟨SHV_POS u, 0, 48⟩
/-- SHV_POSTIME, R289. -/
def SHV_POSTIME (u : Nat) : Nat := 0x60058 + 0x800 * u
def SHV_POSTIME_TIME (u : Nat) : Fld := ⟨SHV_POSTIME u, 0, 64⟩
/-- SHV_SPEED, R289. -/
def SHV_SPEED (u : Nat) : Nat := 0x60060 + 0x800 * u
def SHV_SPEED_SPEED (u : Nat) : Fld := ⟨SHV_SPEED u, 0, 64⟩
/-- SHV_IDXPOS, R289. -/
def SHV_IDXPOS (u : Nat) : Nat := 0x60068 + 0x800 * u
def SHV_IDXPOS_POS (u : Nat) : Fld := ⟨SHV_IDXPOS u, 0, 48⟩
/-- SHV_IDXTIME, R289. -/
def SHV_IDXTIME (u : Nat) : Nat := 0x60070 + 0x800 * u
def SHV_IDXTIME_TIME (u : Nat) : Fld := ⟨SHV_IDXTIME u, 0, 64⟩
/-- SHV_CPR, R288. -/
def SHV_CPR (u : Nat) : Nat := 0x60078 + 0x800 * u
def SHV_CPR_CPR (u : Nat) : Fld := ⟨SHV_CPR u, 0, 48⟩
/-- SHV_DRIFT, R289. -/
def SHV_DRIFT (u : Nat) : Nat := 0x60080 + 0x800 * u
def SHV_DRIFT_DRIFT (u : Nat) : Fld := ⟨SHV_DRIFT u, 0, 32⟩
/-- SHV_CMPFLAGS, R289. -/
def SHV_CMPFLAGS (u : Nat) : Nat := 0x60084 + 0x800 * u
def SHV_CMPFLAGS_HIT (u : Nat) : Fld := ⟨SHV_CMPFLAGS u, 0, 16⟩
/-- SHV_SSIRAW, R289. -/
def SHV_SSIRAW (u : Nat) : Nat := 0x60088 + 0x800 * u
def SHV_SSIRAW_BITS (u : Nat) : Fld := ⟨SHV_SSIRAW u, 0, 63⟩
/-- SHV_CMPVALc, R290. -/
def SHV_CMPVAL (u : Nat) (c : Nat) : Nat := 0x60100 + 0x800 * u + 0x10 * c
def SHV_CMPVAL_C (u : Nat) (c : Nat) : Fld := ⟨SHV_CMPVAL u c, 0, 48⟩
/-- SHV_CMPCFGc, R290. -/
def SHV_CMPCFG (u : Nat) (c : Nat) : Nat := 0x60108 + 0x800 * u + 0x10 * c
def SHV_CMPCFG_HYST (u : Nat) (c : Nat) : Fld := ⟨SHV_CMPCFG u c, 16, 16⟩
def SHV_CMPCFG_SRC (u : Nat) (c : Nat) : Fld := ⟨SHV_CMPCFG u c, 5, 1⟩
def SHV_CMPCFG_REC (u : Nat) (c : Nat) : Fld := ⟨SHV_CMPCFG u c, 4, 1⟩
def SHV_CMPCFG_ONCE (u : Nat) (c : Nat) : Fld := ⟨SHV_CMPCFG u c, 3, 1⟩
def SHV_CMPCFG_DIR (u : Nat) (c : Nat) : Fld := ⟨SHV_CMPCFG u c, 1, 2⟩
def SHV_CMPCFG_EN (u : Nat) (c : Nat) : Fld := ⟨SHV_CMPCFG u c, 0, 1⟩
/-- STY_STATUS, R508. -/
def STY_STATUS : Nat := 0x70000
def STY_STATUS_FLDLOST : Fld := ⟨STY_STATUS, 20, 1⟩
def STY_STATUS_LANEFAIL : Fld := ⟨STY_STATUS, 17, 1⟩
def STY_STATUS_LINK : Fld := ⟨STY_STATUS, 16, 1⟩
def STY_STATUS_RXUSE : Fld := ⟨STY_STATUS, 8, 4⟩
def STY_STATUS_TXUSE : Fld := ⟨STY_STATUS, 0, 4⟩
/-- STY_ERRCNT, R508. -/
def STY_ERRCNT : Nat := 0x70004
def STY_ERRCNT_RESEND : Fld := ⟨STY_ERRCNT, 16, 16⟩
def STY_ERRCNT_FAILS : Fld := ⟨STY_ERRCNT, 8, 8⟩
/-- STY_CLR, R508. -/
def STY_CLR : Nat := 0x70008
def STY_CLR_ERR : Fld := ⟨STY_CLR, 0, 1⟩
/-- FLD_CFG, R508. -/
def FLD_CFG : Nat := 0x70100
def FLD_CFG_LOSSACT : Fld := ⟨FLD_CFG, 16, 1⟩
def FLD_CFG_LOSSTO : Fld := ⟨FLD_CFG, 0, 12⟩
/-- FLD_STATUS, R508. -/
def FLD_STATUS : Nat := 0x70104
def FLD_STATUS_VFLD : Fld := ⟨FLD_STATUS, 8, 8⟩
def FLD_STATUS_OVLO : Fld := ⟨FLD_STATUS, 2, 1⟩
def FLD_STATUS_UVWARN : Fld := ⟨FLD_STATUS, 1, 1⟩
def FLD_STATUS_LOSSHIT : Fld := ⟨FLD_STATUS, 0, 1⟩
/-- PRT_CTRL, R199. -/
def PRT_CTRL (p : Nat) : Nat := 0x80000 + 0x100 * p
def PRT_CTRL_CLRQ (p : Nat) : Fld := ⟨PRT_CTRL p, 1, 1⟩
def PRT_CTRL_EN (p : Nat) : Fld := ⟨PRT_CTRL p, 0, 1⟩
/-- PRT_STATUS, R200. -/
def PRT_STATUS (p : Nat) : Nat := 0x80004 + 0x100 * p
def PRT_STATUS_CAPMISS (p : Nat) : Fld := ⟨PRT_STATUS p, 23, 1⟩
def PRT_STATUS_CAPDROP (p : Nat) : Fld := ⟨PRT_STATUS p, 22, 1⟩
def PRT_STATUS_OCP (p : Nat) : Fld := ⟨PRT_STATUS p, 21, 1⟩
def PRT_STATUS_SPACING (p : Nat) : Fld := ⟨PRT_STATUS p, 20, 1⟩
def PRT_STATUS_RETMISS (p : Nat) : Fld := ⟨PRT_STATUS p, 19, 1⟩
def PRT_STATUS_BADCODE (p : Nat) : Fld := ⟨PRT_STATUS p, 18, 1⟩
def PRT_STATUS_QFULL (p : Nat) : Fld := ⟨PRT_STATUS p, 17, 1⟩
def PRT_STATUS_LATE (p : Nat) : Fld := ⟨PRT_STATUS p, 16, 1⟩
def PRT_STATUS_IN (p : Nat) : Fld := ⟨PRT_STATUS p, 10, 1⟩
def PRT_STATUS_DRV (p : Nat) : Fld := ⟨PRT_STATUS p, 9, 1⟩
def PRT_STATUS_OUT (p : Nat) : Fld := ⟨PRT_STATUS p, 8, 1⟩
def PRT_STATUS_PEND (p : Nat) : Fld := ⟨PRT_STATUS p, 7, 1⟩
def PRT_STATUS_QLEN (p : Nat) : Fld := ⟨PRT_STATUS p, 0, 6⟩
/-- PRT_IOCFG, R201. -/
def PRT_IOCFG (p : Nat) : Nat := 0x80008 + 0x100 * p
def PRT_IOCFG_TERM (p : Nat) : Fld := ⟨PRT_IOCFG p, 6, 1⟩
def PRT_IOCFG_REST (p : Nat) : Fld := ⟨PRT_IOCFG p, 4, 2⟩
def PRT_IOCFG_INV (p : Nat) : Fld := ⟨PRT_IOCFG p, 3, 1⟩
def PRT_IOCFG_MODE (p : Nat) : Fld := ⟨PRT_IOCFG p, 0, 3⟩
/-- PRT_INCFG, R202. -/
def PRT_INCFG (p : Nat) : Nat := 0x8000c + 0x100 * p
def PRT_INCFG_FILT (p : Nat) : Fld := ⟨PRT_INCFG p, 16, 12⟩
def PRT_INCFG_HYST (p : Nat) : Fld := ⟨PRT_INCFG p, 10, 2⟩
def PRT_INCFG_THRESH (p : Nat) : Fld := ⟨PRT_INCFG p, 0, 10⟩
/-- PRT_POLICY, R203. -/
def PRT_POLICY (p : Nat) : Nat := 0x80010 + 0x100 * p
def PRT_POLICY_LATE (p : Nat) : Fld := ⟨PRT_POLICY p, 0, 1⟩
/-- PRT_CAPCFG, R204. -/
def PRT_CAPCFG (p : Nat) : Nat := 0x80014 + 0x100 * p
def PRT_CAPCFG_ZEROREC (p : Nat) : Fld := ⟨PRT_CAPCFG p, 4, 1⟩
def PRT_CAPCFG_MATCHREC (p : Nat) : Fld := ⟨PRT_CAPCFG p, 3, 1⟩
def PRT_CAPCFG_GATED (p : Nat) : Fld := ⟨PRT_CAPCFG p, 2, 1⟩
def PRT_CAPCFG_EDGE (p : Nat) : Fld := ⟨PRT_CAPCFG p, 0, 2⟩
/-- PRT_ARMCFG, R205. -/
def PRT_ARMCFG (p : Nat) : Nat := 0x80018 + 0x100 * p
def PRT_ARMCFG_ARMFN (p : Nat) : Fld := ⟨PRT_ARMCFG p, 0, 3⟩
/-- PRT_ARMW, R205. -/
def PRT_ARMW (p : Nat) : Nat := 0x8001c + 0x100 * p
def PRT_ARMW_WIDTH (p : Nat) : Fld := ⟨PRT_ARMW p, 0, 32⟩
/-- PRT_QHEAD, R206. -/
def PRT_QHEAD (p : Nat) : Nat := 0x80020 + 0x100 * p
def PRT_QHEAD_TIME (p : Nat) : Fld := ⟨PRT_QHEAD p, 0, 64⟩
/-- PRT_ERRCNT1, R206. -/
def PRT_ERRCNT1 (p : Nat) : Nat := 0x80028 + 0x100 * p
def PRT_ERRCNT1_QDROP (p : Nat) : Fld := ⟨PRT_ERRCNT1 p, 16, 16⟩
def PRT_ERRCNT1_LATE (p : Nat) : Fld := ⟨PRT_ERRCNT1 p, 0, 16⟩
/-- PRT_ERRCNT2, R206. -/
def PRT_ERRCNT2 (p : Nat) : Nat := 0x8002c + 0x100 * p
def PRT_ERRCNT2_RETMISS (p : Nat) : Fld := ⟨PRT_ERRCNT2 p, 16, 16⟩
def PRT_ERRCNT2_BAD (p : Nat) : Fld := ⟨PRT_ERRCNT2 p, 0, 16⟩
/-- PRT_ERRCNT3, R206. -/
def PRT_ERRCNT3 (p : Nat) : Nat := 0x80030 + 0x100 * p
def PRT_ERRCNT3_CAPMISS (p : Nat) : Fld := ⟨PRT_ERRCNT3 p, 16, 16⟩
def PRT_ERRCNT3_CAPDROP (p : Nat) : Fld := ⟨PRT_ERRCNT3 p, 0, 16⟩
/-- PRT_CLR, R206. -/
def PRT_CLR (p : Nat) : Nat := 0x80034 + 0x100 * p
def PRT_CLR_SEQ (p : Nat) : Fld := ⟨PRT_CLR p, 3, 1⟩
def PRT_CLR_CNT (p : Nat) : Fld := ⟨PRT_CLR p, 0, 3⟩
/-- PRT_SEQ, R206. -/
def PRT_SEQ (p : Nat) : Nat := 0x80038 + 0x100 * p
def PRT_SEQ_SEQ (p : Nat) : Fld := ⟨PRT_SEQ p, 0, 16⟩
/-- PRT_COMMIT, R67. -/
def PRT_COMMIT (p : Nat) : Nat := 0x80040 + 0x100 * p
def PRT_COMMIT_COMMIT (p : Nat) : Fld := ⟨PRT_COMMIT p, 0, 1⟩
/-- PRT_CCTRL, R207. -/
def PRT_CCTRL (p : Nat) : Nat := 0x80080 + 0x100 * p
def PRT_CCTRL_ZEROOUT (p : Nat) : Fld := ⟨PRT_CCTRL p, 14, 2⟩
def PRT_CCTRL_CMPOUT (p : Nat) : Fld := ⟨PRT_CCTRL p, 12, 2⟩
def PRT_CCTRL_LSRC (p : Nat) : Fld := ⟨PRT_CCTRL p, 8, 3⟩
def PRT_CCTRL_CSRC (p : Nat) : Fld := ⟨PRT_CCTRL p, 4, 3⟩
def PRT_CCTRL_IMMEDIATE_EQ (p : Nat) : Fld := ⟨PRT_CCTRL p, 2, 1⟩
def PRT_CCTRL_ONESHOT (p : Nat) : Fld := ⟨PRT_CCTRL p, 1, 1⟩
def PRT_CCTRL_RUN (p : Nat) : Fld := ⟨PRT_CCTRL p, 0, 1⟩
/-- PRT_CPRESC, R208. -/
def PRT_CPRESC (p : Nat) : Nat := 0x80084 + 0x100 * p
def PRT_CPRESC_PRESC (p : Nat) : Fld := ⟨PRT_CPRESC p, 0, 16⟩
/-- PRT_CNT, R209. -/
def PRT_CNT (p : Nat) : Nat := 0x80088 + 0x100 * p
def PRT_CNT_COUNT (p : Nat) : Fld := ⟨PRT_CNT p, 0, 48⟩
/-- PRT_RLD, R209. -/
def PRT_RLD (p : Nat) : Nat := 0x80090 + 0x100 * p
def PRT_RLD_RLD (p : Nat) : Fld := ⟨PRT_RLD p, 0, 48⟩
/-- PRT_CMP, R209. -/
def PRT_CMP (p : Nat) : Nat := 0x80098 + 0x100 * p
def PRT_CMP_CMP (p : Nat) : Fld := ⟨PRT_CMP p, 0, 48⟩
/-- PRT_RLDACT, R209. -/
def PRT_RLDACT (p : Nat) : Nat := 0x800a0 + 0x100 * p
def PRT_RLDACT_ACT (p : Nat) : Fld := ⟨PRT_RLDACT p, 0, 48⟩
/-- PRT_CSTAT, R210. -/
def PRT_CSTAT (p : Nat) : Nat := 0x800a8 + 0x100 * p
def PRT_CSTAT_MATCH (p : Nat) : Fld := ⟨PRT_CSTAT p, 1, 1⟩
def PRT_CSTAT_ZERO (p : Nat) : Fld := ⟨PRT_CSTAT p, 0, 1⟩
/-- COIL_CTRL, R167. -/
def COIL_CTRL (e : Nat) : Nat := 0x90000 + 0x400 * e
def COIL_CTRL_TRACE (e : Nat) : Fld := ⟨COIL_CTRL e, 17, 1⟩
def COIL_CTRL_DRY (e : Nat) : Fld := ⟨COIL_CTRL e, 16, 1⟩
def COIL_CTRL_STEP (e : Nat) : Fld := ⟨COIL_CTRL e, 9, 1⟩
def COIL_CTRL_HOLD (e : Nat) : Fld := ⟨COIL_CTRL e, 8, 1⟩
def COIL_CTRL_TAKEOVER (e : Nat) : Fld := ⟨COIL_CTRL e, 4, 1⟩
def COIL_CTRL_LOAD (e : Nat) : Fld := ⟨COIL_CTRL e, 2, 1⟩
def COIL_CTRL_CMD (e : Nat) : Fld := ⟨COIL_CTRL e, 0, 2⟩
/-- COIL_STATUS, R168. -/
def COIL_STATUS (e : Nat) : Nat := 0x90004 + 0x400 * e
def COIL_STATUS_SIDX (e : Nat) : Fld := ⟨COIL_STATUS e, 8, 5⟩
def COIL_STATUS_CHECKING (e : Nat) : Fld := ⟨COIL_STATUS e, 4, 1⟩
def COIL_STATUS_PENDING (e : Nat) : Fld := ⟨COIL_STATUS e, 3, 1⟩
def COIL_STATUS_STATE (e : Nat) : Fld := ⟨COIL_STATUS e, 0, 3⟩
/-- COIL_FLAGS, R169. -/
def COIL_FLAGS (e : Nat) : Nat := 0x90008 + 0x400 * e
def COIL_FLAGS_TRDROP (e : Nat) : Fld := ⟨COIL_FLAGS e, 4, 1⟩
def COIL_FLAGS_DROP (e : Nat) : Fld := ⟨COIL_FLAGS e, 3, 1⟩
def COIL_FLAGS_FAULT (e : Nat) : Fld := ⟨COIL_FLAGS e, 2, 1⟩
def COIL_FLAGS_LOADFAIL (e : Nat) : Fld := ⟨COIL_FLAGS e, 1, 1⟩
def COIL_FLAGS_START_REJ (e : Nat) : Fld := ⟨COIL_FLAGS e, 0, 1⟩
/-- COIL_FAULT, R170. -/
def COIL_FAULT (e : Nat) : Nat := 0x9000c + 0x400 * e
def COIL_FAULT_PCW (e : Nat) : Fld := ⟨COIL_FAULT e, 8, 16⟩
def COIL_FAULT_CODE (e : Nat) : Fld := ⟨COIL_FAULT e, 0, 4⟩
/-- COIL_LDBASE, R171. -/
def COIL_LDBASE (e : Nat) : Nat := 0x90010 + 0x400 * e
def COIL_LDBASE_BASE (e : Nat) : Fld := ⟨COIL_LDBASE e, 0, 32⟩
/-- COIL_LDSTAT, R171. -/
def COIL_LDSTAT (e : Nat) : Nat := 0x90014 + 0x400 * e
def COIL_LDSTAT_CODE (e : Nat) : Fld := ⟨COIL_LDSTAT e, 0, 4⟩
/-- COIL_PBASE, R171. -/
def COIL_PBASE (e : Nat) : Nat := 0x90018 + 0x400 * e
def COIL_PBASE_PBASE (e : Nat) : Fld := ⟨COIL_PBASE e, 0, 32⟩
/-- COIL_DECL, R171. -/
def COIL_DECL (e : Nat) : Nat := 0x9001c + 0x400 * e
def COIL_DECL_D (e : Nat) : Fld := ⟨COIL_DECL e, 0, 32⟩
/-- COIL_SEALTICK, R171. -/
def COIL_SEALTICK (e : Nat) : Nat := 0x90020 + 0x400 * e
def COIL_SEALTICK_TICK (e : Nat) : Fld := ⟨COIL_SEALTICK e, 0, 64⟩
/-- COIL_SEALEC, R171. -/
def COIL_SEALEC (e : Nat) : Nat := 0x90028 + 0x400 * e
def COIL_SEALEC_EC (e : Nat) : Fld := ⟨COIL_SEALEC e, 0, 32⟩
/-- COIL_MAXEC, R171. -/
def COIL_MAXEC (e : Nat) : Nat := 0x9002c + 0x400 * e
def COIL_MAXEC_EC (e : Nat) : Fld := ⟨COIL_MAXEC e, 0, 32⟩
/-- COIL_DROPCNT, R171. -/
def COIL_DROPCNT (e : Nat) : Nat := 0x90030 + 0x400 * e
def COIL_DROPCNT_TRC (e : Nat) : Fld := ⟨COIL_DROPCNT e, 16, 16⟩
def COIL_DROPCNT_REC (e : Nat) : Fld := ⟨COIL_DROPCNT e, 0, 16⟩
/-- COIL_CLR, R171. -/
def COIL_CLR (e : Nat) : Nat := 0x90034 + 0x400 * e
def COIL_CLR_TRC (e : Nat) : Fld := ⟨COIL_CLR e, 2, 1⟩
def COIL_CLR_REC (e : Nat) : Fld := ⟨COIL_CLR e, 1, 1⟩
def COIL_CLR_MAXEC (e : Nat) : Fld := ⟨COIL_CLR e, 0, 1⟩
/-- COIL_COMMIT, R67. -/
def COIL_COMMIT (e : Nat) : Nat := 0x90040 + 0x400 * e
def COIL_COMMIT_COMMIT (e : Nat) : Fld := ⟨COIL_COMMIT e, 0, 1⟩
/-- COIL_GREGn, R171. -/
def COIL_GREG (e : Nat) (n : Nat) : Nat := 0x90080 + 0x400 * e + 0x8 * n
def COIL_GREG_VALUE (e : Nat) (n : Nat) : Fld := ⟨COIL_GREG e n, 0, 64⟩
/-- COIL_CKESTAT, R171. -/
def COIL_CKESTAT (e : Nat) : Nat := 0x90100 + 0x400 * e
def COIL_CKESTAT_ESTAT (e : Nat) : Fld := ⟨COIL_CKESTAT e, 0, 5⟩
/-- COIL_TRBASE, R171. -/
def COIL_TRBASE (e : Nat) : Nat := 0x90108 + 0x400 * e
def COIL_TRBASE_BASE (e : Nat) : Fld := ⟨COIL_TRBASE e, 0, 32⟩
/-- COIL_TRLEN, R171. -/
def COIL_TRLEN (e : Nat) : Nat := 0x9010c + 0x400 * e
def COIL_TRLEN_LOG2 (e : Nat) : Fld := ⟨COIL_TRLEN e, 0, 5⟩
/-- COIL_TRPTR, R171. -/
def COIL_TRPTR (e : Nat) : Nat := 0x90110 + 0x400 * e
def COIL_TRPTR_PTR (e : Nat) : Fld := ⟨COIL_TRPTR e, 0, 16⟩
/-- COIL_DRYBASE, R171. -/
def COIL_DRYBASE (e : Nat) : Nat := 0x90114 + 0x400 * e
def COIL_DRYBASE_BASE (e : Nat) : Fld := ⟨COIL_DRYBASE e, 0, 32⟩
/-- COIL_LOCKn, R148. -/
def COIL_LOCK (n : Nat) : Nat := 0x96000 + 0x4 * n
def COIL_LOCK_FORCE (n : Nat) : Fld := ⟨COIL_LOCK n, 16, 1⟩
def COIL_LOCK_ABANDONED (n : Nat) : Fld := ⟨COIL_LOCK n, 9, 1⟩
def COIL_LOCK_HELD (n : Nat) : Fld := ⟨COIL_LOCK n, 8, 1⟩
def COIL_LOCK_OWNER (n : Nat) : Fld := ⟨COIL_LOCK n, 0, 4⟩
/-- FRS_CTRL, R474. -/
def FRS_CTRL : Nat := 0xa0000
def FRS_CTRL_EN : Fld := ⟨FRS_CTRL, 0, 1⟩
/-- FRS_STATUS, R474. -/
def FRS_STATUS : Nat := 0xa0004
def FRS_STATUS_DEPTH : Fld := ⟨FRS_STATUS, 24, 5⟩
def FRS_STATUS_TREEERR : Fld := ⟨FRS_STATUS, 15, 1⟩
def FRS_STATUS_OPBUSY : Fld := ⟨FRS_STATUS, 14, 1⟩
def FRS_STATUS_EVDROP : Fld := ⟨FRS_STATUS, 13, 1⟩
def FRS_STATUS_EVLATE : Fld := ⟨FRS_STATUS, 12, 1⟩
def FRS_STATUS_OPSKIP : Fld := ⟨FRS_STATUS, 11, 1⟩
def FRS_STATUS_OPREJ : Fld := ⟨FRS_STATUS, 10, 1⟩
def FRS_STATUS_LINKERR : Fld := ⟨FRS_STATUS, 9, 1⟩
def FRS_STATUS_JOINERR : Fld := ⟨FRS_STATUS, 8, 1⟩
def FRS_STATUS_ALIGNED : Fld := ⟨FRS_STATUS, 5, 1⟩
def FRS_STATUS_FOLLOWING : Fld := ⟨FRS_STATUS, 4, 1⟩
def FRS_STATUS_LINKUP : Fld := ⟨FRS_STATUS, 0, 3⟩
/-- FRS_CFG, R474. -/
def FRS_CFG : Nat := 0xa0008
def FRS_CFG_NODE : Fld := ⟨FRS_CFG, 8, 5⟩
def FRS_CFG_FCEN : Fld := ⟨FRS_CFG, 3, 1⟩
def FRS_CFG_FBEN : Fld := ⟨FRS_CFG, 2, 1⟩
def FRS_CFG_FOLLOW : Fld := ⟨FRS_CFG, 1, 1⟩
def FRS_CFG_ROOT : Fld := ⟨FRS_CFG, 0, 1⟩
/-- FRS_ASYM, R475. -/
def FRS_ASYM : Nat := 0xa000c
def FRS_ASYM_A : Fld := ⟨FRS_ASYM, 0, 32⟩
/-- FRS_OFFSET, R475. -/
def FRS_OFFSET : Nat := 0xa0010
def FRS_OFFSET_OFS : Fld := ⟨FRS_OFFSET, 0, 32⟩
/-- FRS_DELAYx, R475. -/
def FRS_DELAY (x : Nat) : Nat := 0xa0014 + 0x4 * x
def FRS_DELAY_DELAY (x : Nat) : Fld := ⟨FRS_DELAY x, 0, 32⟩
/-- FRS_TREE, R476. -/
def FRS_TREE : Nat := 0xa0020
def FRS_TREE_DEPTHMAX : Fld := ⟨FRS_TREE, 16, 5⟩
def FRS_TREE_ALIGNED : Fld := ⟨FRS_TREE, 8, 6⟩
def FRS_TREE_COUNT : Fld := ⟨FRS_TREE, 0, 6⟩
/-- FRS_OPSTAT, R476. -/
def FRS_OPSTAT : Nat := 0xa0024
def FRS_OPSTAT_PENDING : Fld := ⟨FRS_OPSTAT, 24, 4⟩
def FRS_OPSTAT_SKIPCNT : Fld := ⟨FRS_OPSTAT, 16, 8⟩
def FRS_OPSTAT_LAST : Fld := ⟨FRS_OPSTAT, 8, 8⟩
def FRS_OPSTAT_SEQ : Fld := ⟨FRS_OPSTAT, 0, 8⟩
/-- FRS_COMMIT, R67. -/
def FRS_COMMIT : Nat := 0xa0040
def FRS_COMMIT_COMMIT : Fld := ⟨FRS_COMMIT, 0, 1⟩
/-- FRS_EVLEAD, R475. -/
def FRS_EVLEAD : Nat := 0xa0044
def FRS_EVLEAD_L : Fld := ⟨FRS_EVLEAD, 0, 16⟩
/-- FRS_OPTIME, R477. -/
def FRS_OPTIME : Nat := 0xa0080
def FRS_OPTIME_T : Fld := ⟨FRS_OPTIME, 0, 64⟩
/-- FRS_OPARG, R477. -/
def FRS_OPARG : Nat := 0xa0088
def FRS_OPARG_ARG : Fld := ⟨FRS_OPARG, 0, 64⟩
/-- FRS_OPMASK, R477. -/
def FRS_OPMASK : Nat := 0xa0090
def FRS_OPMASK_MASK : Fld := ⟨FRS_OPMASK, 0, 32⟩
/-- FRS_OPCMD, R477. -/
def FRS_OPCMD : Nat := 0xa0094
def FRS_OPCMD_GO : Fld := ⟨FRS_OPCMD, 8, 1⟩
def FRS_OPCMD_KIND : Fld := ⟨FRS_OPCMD, 0, 3⟩
/-- FRS_SNAPTIME, R478. -/
def FRS_SNAPTIME : Nat := 0xa00a0
def FRS_SNAPTIME_T : Fld := ⟨FRS_SNAPTIME, 0, 64⟩
/-- FRS_SNAPTICK, R478. -/
def FRS_SNAPTICK : Nat := 0xa00a8
def FRS_SNAPTICK_TICK : Fld := ⟨FRS_SNAPTICK, 0, 64⟩
/-- FRS_SNAPTTIME, R478. -/
def FRS_SNAPTTIME : Nat := 0xa00b0
def FRS_SNAPTTIME_TTIME : Fld := ⟨FRS_SNAPTTIME, 0, 64⟩
/-- FRS_SNAPCW, R478. -/
def FRS_SNAPCW : Nat := 0xa00b8
def FRS_SNAPCW_WR : Fld := ⟨FRS_SNAPCW, 0, 32⟩
/-- FRS_SNAPSEQ, R478. -/
def FRS_SNAPSEQ : Nat := 0xa00bc
def FRS_SNAPSEQ_SEQ : Fld := ⟨FRS_SNAPSEQ, 0, 8⟩
/-- VLT_STATUS, R452. -/
def VLT_STATUS : Nat := 0xb0000
def VLT_STATUS_AUTHLOCK : Fld := ⟨VLT_STATUS, 9, 1⟩
def VLT_STATUS_BUSY : Fld := ⟨VLT_STATUS, 8, 1⟩
def VLT_STATUS_OWNERSET : Fld := ⟨VLT_STATUS, 5, 1⟩
def VLT_STATUS_TAMPERED : Fld := ⟨VLT_STATUS, 4, 1⟩
def VLT_STATUS_KEYLOST : Fld := ⟨VLT_STATUS, 3, 1⟩
def VLT_STATUS_LC : Fld := ⟨VLT_STATUS, 0, 3⟩
/-- VLT_LCCMD, R452. -/
def VLT_LCCMD : Nat := 0xb0004
def VLT_LCCMD_GO : Fld := ⟨VLT_LCCMD, 8, 1⟩
def VLT_LCCMD_TARGET : Fld := ⟨VLT_LCCMD, 0, 3⟩
/-- VLT_LCSTAT, R452. -/
def VLT_LCSTAT : Nat := 0xb0008
def VLT_LCSTAT_AUTHFAIL : Fld := ⟨VLT_LCSTAT, 8, 5⟩
def VLT_LCSTAT_RESULT : Fld := ⟨VLT_LCSTAT, 0, 4⟩
/-- VLT_TAMPEN, R452. -/
def VLT_TAMPEN : Nat := 0xb000c
def VLT_TAMPEN_EN : Fld := ⟨VLT_TAMPEN, 0, 5⟩
/-- VLT_TAMPSTAT, R452. -/
def VLT_TAMPSTAT : Nat := 0xb0010
def VLT_TAMPSTAT_LIVE : Fld := ⟨VLT_TAMPSTAT, 8, 5⟩
def VLT_TAMPSTAT_STICKY : Fld := ⟨VLT_TAMPSTAT, 0, 5⟩
/-- VLT_CERTLEN, R452. -/
def VLT_CERTLEN : Nat := 0xb0014
def VLT_CERTLEN_LEN : Fld := ⟨VLT_CERTLEN, 0, 16⟩
/-- VLT_SERIAL, R452. -/
def VLT_SERIAL : Nat := 0xb0018
def VLT_SERIAL_DSN : Fld := ⟨VLT_SERIAL, 0, 64⟩
/-- VLT_CHALk, R452. -/
def VLT_CHAL (k : Nat) : Nat := 0xb0080 + 0x4 * k
def VLT_CHAL_CHAL (k : Nat) : Fld := ⟨VLT_CHAL k, 0, 32⟩
/-- VLT_DIGk, R452. -/
def VLT_DIG (k : Nat) : Nat := 0xb00a0 + 0x4 * k
def VLT_DIG_DIG (k : Nat) : Fld := ⟨VLT_DIG k, 0, 32⟩
/-- VLT_OWNDIGk, R452. -/
def VLT_OWNDIG (k : Nat) : Nat := 0xb00c0 + 0x4 * k
def VLT_OWNDIG_DIG (k : Nat) : Fld := ⟨VLT_OWNDIG k, 0, 32⟩
/-- VLT_AUTHk, R452. -/
def VLT_AUTH (k : Nat) : Nat := 0xb0100 + 0x4 * k
def VLT_AUTH_SIG (k : Nat) : Fld := ⟨VLT_AUTH k, 0, 32⟩
/-- VLT_OKEYk, R452. -/
def VLT_OKEY (k : Nat) : Nat := 0xb0140 + 0x4 * k
def VLT_OKEY_KEY (k : Nat) : Fld := ⟨VLT_OKEY k, 0, 32⟩
/-- LGC_ID, R408. -/
def LGC_ID : Nat := 0xc0000
def LGC_ID_LEGACY : Fld := ⟨LGC_ID, 16, 16⟩
def LGC_ID_NATIVE : Fld := ⟨LGC_ID, 0, 16⟩
/-- LGC_TIME, R408. -/
def LGC_TIME : Nat := 0xc0004
def LGC_TIME_TIME : Fld := ⟨LGC_TIME, 0, 32⟩
/-- LGC_BCTRL, R408. -/
def LGC_BCTRL (b : Nat) : Nat := 0xc0100 + 0x100 * b
def LGC_BCTRL_EN (b : Nat) : Fld := ⟨LGC_BCTRL b, 0, 1⟩
/-- LGC_BSTAT, R408. -/
def LGC_BSTAT (b : Nat) : Nat := 0xc0104 + 0x100 * b
def LGC_BSTAT_RUN (b : Nat) : Fld := ⟨LGC_BSTAT b, 4, 4⟩
def LGC_BSTAT_PWR (b : Nat) : Fld := ⟨LGC_BSTAT b, 0, 1⟩
/-- LGC_TCTRL, R408. -/
def LGC_TCTRL (b : Nat) (t : Nat) : Nat := 0xc0120 + 0x100 * b + 0x20 * t
def LGC_TCTRL_FLUSH (b : Nat) (t : Nat) : Fld := ⟨LGC_TCTRL b t, 1, 1⟩
def LGC_TCTRL_EN (b : Nat) (t : Nat) : Fld := ⟨LGC_TCTRL b t, 0, 1⟩
/-- LGC_TPERIOD, R408. -/
def LGC_TPERIOD (b : Nat) (t : Nat) : Nat := 0xc0124 + 0x100 * b + 0x20 * t
def LGC_TPERIOD_PERIOD (b : Nat) (t : Nat) : Fld := ⟨LGC_TPERIOD b t, 0, 32⟩
/-- LGC_TSTAT, R408. -/
def LGC_TSTAT (b : Nat) (t : Nat) : Nat := 0xc0128 + 0x100 * b + 0x20 * t
def LGC_TSTAT_PWRLOSS (b : Nat) (t : Nat) : Fld := ⟨LGC_TSTAT b t, 2, 1⟩
def LGC_TSTAT_REJ (b : Nat) (t : Nat) : Fld := ⟨LGC_TSTAT b t, 1, 1⟩
def LGC_TSTAT_STARTED (b : Nat) (t : Nat) : Fld := ⟨LGC_TSTAT b t, 0, 1⟩
/-- LGC_TSTART, R408. -/
def LGC_TSTART (b : Nat) (t : Nat) : Nat := 0xc012c + 0x100 * b + 0x20 * t
def LGC_TSTART_START (b : Nat) (t : Nat) : Fld := ⟨LGC_TSTART b t, 0, 32⟩
/-- LGC_CCFG, R408. -/
def LGC_CCFG (c : Nat) : Nat := 0xc0800 + 0x20 * c
def LGC_CCFG_TIMER (c : Nat) : Fld := ⟨LGC_CCFG c, 8, 4⟩
def LGC_CCFG_MODE (c : Nat) : Fld := ⟨LGC_CCFG c, 0, 3⟩
/-- LGC_CDELAY, R408. -/
def LGC_CDELAY (c : Nat) : Nat := 0xc0804 + 0x20 * c
def LGC_CDELAY_DELAY (c : Nat) : Fld := ⟨LGC_CDELAY c, 0, 32⟩
/-- LGC_CWIDTH, R408. -/
def LGC_CWIDTH (c : Nat) : Nat := 0xc0808 + 0x20 * c
def LGC_CWIDTH_WIDTH (c : Nat) : Fld := ⟨LGC_CWIDTH c, 0, 32⟩
/-- LGC_CCAP, R408. -/
def LGC_CCAP (c : Nat) : Nat := 0xc080c + 0x20 * c
def LGC_CCAP_TIME (c : Nat) : Fld := ⟨LGC_CCAP c, 0, 32⟩
/-- LGC_CSTAT, R408. -/
def LGC_CSTAT (c : Nat) : Nat := 0xc0810 + 0x20 * c
def LGC_CSTAT_OWN (c : Nat) : Fld := ⟨LGC_CSTAT c, 4, 1⟩
def LGC_CSTAT_CAPOVF (c : Nat) : Fld := ⟨LGC_CSTAT c, 2, 1⟩
def LGC_CSTAT_CAP (c : Nat) : Fld := ⟨LGC_CSTAT c, 1, 1⟩
def LGC_CSTAT_MISS (c : Nat) : Fld := ⟨LGC_CSTAT c, 0, 1⟩
/-- MSIX_ADDRLO, R375. -/
def MSIX_ADDRLO (v : Nat) : Nat := 0xe0000 + 0x10 * v
def MSIX_ADDRLO_ADDR (v : Nat) : Fld := ⟨MSIX_ADDRLO v, 0, 32⟩
/-- MSIX_ADDRHI, R375. -/
def MSIX_ADDRHI (v : Nat) : Nat := 0xe0004 + 0x10 * v
def MSIX_ADDRHI_ADDR (v : Nat) : Fld := ⟨MSIX_ADDRHI v, 0, 32⟩
/-- MSIX_DATA, R375. -/
def MSIX_DATA (v : Nat) : Nat := 0xe0008 + 0x10 * v
def MSIX_DATA_DATA (v : Nat) : Fld := ⟨MSIX_DATA v, 0, 32⟩
/-- MSIX_CTRL, R375. -/
def MSIX_CTRL (v : Nat) : Nat := 0xe000c + 0x10 * v
def MSIX_CTRL_MASK (v : Nat) : Fld := ⟨MSIX_CTRL v, 0, 1⟩
/-- MSIX_PBA, R375. -/
def MSIX_PBA : Nat := 0xe0800
def MSIX_PBA_PENDING : Fld := ⟨MSIX_PBA, 0, 64⟩
/-- LAN_MBSTAT, R401. -/
def LAN_MBSTAT : Nat := 0xf0000
def LAN_MBSTAT_M2H_FULL : Fld := ⟨LAN_MBSTAT, 1, 1⟩
def LAN_MBSTAT_H2M_FULL : Fld := ⟨LAN_MBSTAT, 0, 1⟩
/-- LAN_MBCTL, R401. -/
def LAN_MBCTL : Nat := 0xf0004
def LAN_MBCTL_M2H_ACK : Fld := ⟨LAN_MBCTL, 1, 1⟩
def LAN_MBCTL_H2M_SEND : Fld := ⟨LAN_MBCTL, 0, 1⟩
/-- LAN_H2MLEN, R401. -/
def LAN_H2MLEN : Nat := 0xf0008
def LAN_H2MLEN_LEN : Fld := ⟨LAN_H2MLEN, 0, 7⟩
/-- LAN_M2HLEN, R401. -/
def LAN_M2HLEN : Nat := 0xf000c
def LAN_M2HLEN_LEN : Fld := ⟨LAN_M2HLEN, 0, 7⟩
/-- LAN_H2Mk, R401. -/
def LAN_H2M (k : Nat) : Nat := 0xf0100 + 0x4 * k
def LAN_H2M_DATA (k : Nat) : Fld := ⟨LAN_H2M k, 0, 32⟩
/-- LAN_M2Hk, R401. -/
def LAN_M2H (k : Nat) : Nat := 0xf0200 + 0x4 * k
def LAN_M2H_DATA (k : Nat) : Fld := ⟨LAN_M2H k, 0, 32⟩

/-- One row of the register map: where it lies (base, two strides with their counts), whether it is 64 bits wide,
and the masks of its RW, RWS, RWL and W1C fields with its reset value. Bits in no mask are RO, WO or reserved (R7, R10). -/
structure Row where
  base   : Nat
  s1     : Nat
  n1     : Nat
  s2     : Nat
  n2     : Nat
  wide   : Bool
  rw     : Nat
  rws    : Nat
  rwl    : Nat
  w1c    : Nat
  reset  : Nat
  deriving DecidableEq, Repr

/-- The registers of the GLB block (R18). -/
def glbRows : List Row :=
  [ ⟨0x0, 0x1, 1, 0x1, 1, false, 0x0, 0x0, 0x0, 0x0, 0x648000b0⟩,
    ⟨0x40, 0x1, 1, 0x1, 1, false, 0x0, 0x0, 0x0, 0x0, 0x0⟩,
    ⟨0x44, 0x1, 1, 0x1, 1, false, 0xffff, 0x0, 0x0, 0x0, 0x0⟩,
    ⟨0x48, 0x1, 1, 0x1, 1, false, 0x0, 0x0, 0x0, 0x1, 0x0⟩,
    ⟨0x4c, 0x1, 1, 0x1, 1, false, 0x0, 0x0, 0x0, 0x0, 0x0⟩,
    ⟨0x50, 0x1, 1, 0x1, 1, false, 0x0, 0x0, 0x0, 0x40, 0x0⟩,
    ⟨0x54, 0x1, 1, 0x1, 1, false, 0x0, 0x0, 0x0, 0x0, 0x0⟩,
    ⟨0x58, 0x1, 1, 0x1, 1, false, 0x0, 0x0, 0x0, 0x40000000, 0x3⟩,
    ⟨0x5c, 0x1, 1, 0x1, 1, false, 0x0, 0x0, 0x0, 0x0, 0x0⟩,
    ⟨0x60, 0x1, 1, 0x1, 1, false, 0x0, 0x0, 0x0, 0x100, 0x1⟩,
    ⟨0x64, 0x1, 1, 0x1, 1, false, 0x0, 0x0, 0x0, 0x0, 0x0⟩,
    ⟨0x80, 0x1, 1, 0x1, 1, false, 0x0, 0x0, 0x0, 0x0, 0x0⟩,
    ⟨0x400, 0x4, 96, 0x1, 1, false, 0x0, 0x31f, 0x0, 0x0, 0x0⟩ ]

/-- The registers of the MST block (R18). -/
def mstRows : List Row :=
  [ ⟨0x10000, 0x1, 1, 0x1, 1, false, 0x1, 0x6, 0x0, 0x0, 0x0⟩,
    ⟨0x10004, 0x1, 1, 0x1, 1, false, 0x0, 0x0, 0x0, 0x34, 0x0⟩,
    ⟨0x10008, 0x1, 1, 0x1, 1, false, 0x0, 0x7, 0x0, 0x0, 0x0⟩,
    ⟨0x1000c, 0x1, 1, 0x1, 1, false, 0x0, 0xffffffff, 0x0, 0x0, 0x0⟩,
    ⟨0x10010, 0x1, 1, 0x1, 1, true, 0x0, 0x0, 0x0, 0x0, 0x0⟩,
    ⟨0x10018, 0x1, 1, 0x1, 1, true, 0x0, 0x0, 0xffffffffffffffff, 0x0, 0x0⟩,
    ⟨0x10020, 0x1, 1, 0x1, 1, true, 0x0, 0x0, 0x0, 0x0, 0x0⟩,
    ⟨0x10028, 0x1, 1, 0x1, 1, false, 0x0, 0x0, 0x0, 0x0, 0x0⟩,
    ⟨0x10040, 0x1, 1, 0x1, 1, false, 0x0, 0x0, 0x0, 0x0, 0x0⟩,
    ⟨0x10080, 0x1, 1, 0x1, 1, false, 0x3, 0x0, 0x0, 0x0, 0x0⟩,
    ⟨0x10084, 0x1, 1, 0x1, 1, false, 0x0, 0x0, 0x0, 0x1c, 0x0⟩,
    ⟨0x10088, 0x1, 1, 0x1, 1, false, 0x0, 0xffffffff, 0x0, 0x0, 0x7d0⟩,
    ⟨0x1008c, 0x1, 1, 0x1, 1, false, 0x0, 0x1, 0x0, 0x0, 0x0⟩,
    ⟨0x10090, 0x1, 1, 0x1, 1, true, 0xffffffffffffffff, 0x0, 0x0, 0x0, 0x0⟩,
    ⟨0x10098, 0x1, 1, 0x1, 1, true, 0x0, 0x0, 0x0, 0x0, 0x0⟩,
    ⟨0x100a0, 0x1, 1, 0x1, 1, true, 0x0, 0x0, 0x0, 0x0, 0x0⟩,
    ⟨0x100a8, 0x1, 1, 0x1, 1, false, 0x0, 0x0, 0x0, 0x1ffff, 0x0⟩,
    ⟨0x14000, 0x1000, 2, 0x4, 1024, false, 0x1f1f, 0x0, 0x0, 0x0, 0x1e1e⟩ ]

/-- The registers of the RIG block (R18). -/
def rigRows : List Row :=
  [ ⟨0x20000, 0x1, 1, 0x1, 1, false, 0x0, 0x0, 0x0, 0x7, 0x0⟩,
    ⟨0x20004, 0x1, 1, 0x1, 1, false, 0x0, 0x0, 0x0, 0x0, 0x0⟩,
    ⟨0x20008, 0x1, 1, 0x1, 1, false, 0x0, 0x0, 0x0, 0x0, 0x0⟩,
    ⟨0x2000c, 0x1, 1, 0x1, 1, false, 0x0, 0x0, 0x0, 0x0, 0x0⟩,
    ⟨0x20040, 0x1, 1, 0x1, 1, false, 0x0, 0x0, 0x0, 0x0, 0x0⟩,
    ⟨0x20080, 0x1, 1, 0x1, 1, false, 0x1, 0x0, 0x0, 0x0, 0x0⟩,
    ⟨0x20084, 0x1, 1, 0x1, 1, false, 0x0, 0x0, 0x3ffff, 0x0, 0x0⟩,
    ⟨0x20088, 0x1, 1, 0x1, 1, false, 0x0, 0x0, 0x7ffff, 0x0, 0x40000⟩,
    ⟨0x2008c, 0x1, 1, 0x1, 1, false, 0x8000ffff, 0x0, 0x0, 0x0, 0x0⟩,
    ⟨0x20090, 0x1, 1, 0x1, 1, false, 0x0, 0x0, 0x0, 0x0, 0x0⟩,
    ⟨0x20094, 0x1, 1, 0x1, 1, false, 0xffffffff, 0x0, 0x0, 0x0, 0x0⟩,
    ⟨0x20098, 0x1, 1, 0x1, 1, false, 0x0, 0x0, 0x0, 0x0, 0x0⟩,
    ⟨0x200a0, 0x4, 4, 0x1, 1, false, 0x0, 0x0, 0x0, 0x0, 0x0⟩,
    ⟨0x20400, 0x4, 64, 0x1, 1, false, 0xffff, 0x0, 0x0, 0x0, 0x0⟩,
    ⟨0x20500, 0x1, 1, 0x1, 1, false, 0x0, 0x0, 0x0, 0x0, 0x0⟩,
    ⟨0x21000, 0x8, 1024, 0x1, 1, true, 0x0, 0xffffff81ff03ff, 0x0, 0x0, 0x0⟩ ]

/-- The registers of the HLY block (R18). -/
def hlyRows : List Row :=
  [ ⟨0x30000, 0x1, 1, 0x1, 1, false, 0x0, 0x0, 0x0, 0x3, 0x0⟩,
    ⟨0x30004, 0x1, 1, 0x1, 1, false, 0x0, 0x0, 0x0, 0x0, 0x0⟩,
    ⟨0x30008, 0x1, 1, 0x1, 1, true, 0x0, 0x0, 0x0, 0x0, 0x0⟩,
    ⟨0x30010, 0x1, 1, 0x1, 1, false, 0x0, 0x0, 0x0, 0xffffffff, 0x0⟩,
    ⟨0x30014, 0x1, 1, 0x1, 1, false, 0x0, 0x0, 0x0, 0x0, 0x0⟩,
    ⟨0x31000, 0x40, 32, 0x1, 1, false, 0x1, 0x0, 0x0, 0x0, 0x0⟩,
    ⟨0x31004, 0x40, 32, 0x1, 1, false, 0x0, 0x0, 0x0, 0x100, 0x0⟩,
    ⟨0x31008, 0x40, 32, 0x1, 1, false, 0x0, 0x0, 0x0, 0x0, 0x0⟩,
    ⟨0x3100c, 0x40, 32, 0x1, 1, false, 0x1ff, 0x0, 0x0, 0x0, 0x40⟩,
    ⟨0x31010, 0x40, 32, 0x1, 1, true, 0xffffffffffffffff, 0x0, 0x0, 0x0, 0x0⟩,
    ⟨0x31018, 0x40, 32, 0x1, 1, true, 0x0, 0x0, 0x0, 0x0, 0x0⟩,
    ⟨0x31020, 0x40, 32, 0x1, 1, false, 0x0, 0x0, 0x0, 0x0, 0x0⟩,
    ⟨0x31024, 0x40, 32, 0x1, 1, false, 0xffffffff, 0x0, 0x0, 0x0, 0x0⟩,
    ⟨0x31028, 0x40, 32, 0x1, 1, false, 0x0, 0x0, 0x0, 0x0, 0x0⟩ ]

/-- The registers of the SAG block (R18). -/
def sagRows : List Row :=
  [ ⟨0x40000, 0x1, 1, 0x1, 1, false, 0x0, 0x0, 0x0, 0x1ff01ff, 0x0⟩,
    ⟨0x40004, 0x1, 1, 0x1, 1, false, 0xf03, 0x0, 0x0, 0x0, 0x0⟩,
    ⟨0x40008, 0x1, 1, 0x1, 1, false, 0xffff, 0x0, 0x0, 0x0, 0x100⟩,
    ⟨0x4000c, 0x1, 1, 0x1, 1, false, 0x0, 0x0, 0x0, 0x0, 0x0⟩,
    ⟨0x40010, 0x1, 1, 0x1, 1, false, 0x0, 0x0, 0x0, 0x0, 0x0⟩,
    ⟨0x40040, 0x1, 1, 0x1, 1, false, 0x0, 0x0, 0x0, 0x0, 0x0⟩,
    ⟨0x40080, 0x8, 9, 0x1, 1, false, 0x0, 0x0, 0x0, 0x0, 0x0⟩,
    ⟨0x40084, 0x8, 9, 0x1, 1, false, 0x0, 0x0, 0x0, 0x0, 0x0⟩,
    ⟨0x40100, 0x4, 4, 0x1, 1, false, 0x0, 0x3fffc, 0x0, 0x0, 0x56ab⟩,
    ⟨0x40110, 0x1, 1, 0x1, 1, false, 0x0, 0xccffc, 0x0, 0x0, 0x46ab⟩,
    ⟨0x40114, 0x4, 2, 0x1, 1, false, 0x0, 0xfffc, 0x0, 0x0, 0x56ab⟩,
    ⟨0x40120, 0x1, 1, 0x1, 1, false, 0x0, 0x1f0f, 0x0, 0x0, 0x1004⟩,
    ⟨0x40124, 0x1, 1, 0x1, 1, false, 0x0, 0x0, 0x0, 0x0, 0x0⟩,
    ⟨0x40140, 0x4, 7, 0x1, 1, false, 0x0, 0x0, 0x0, 0x0, 0x0⟩ ]

/-- The registers of the WHL block (R18). -/
def whlRows : List Row :=
  [ ⟨0x50000, 0x1000, 4, 0x1, 1, false, 0x1, 0x0, 0x0, 0x0, 0x0⟩,
    ⟨0x50004, 0x1000, 4, 0x1, 1, false, 0x0, 0x0, 0x0, 0x0, 0x0⟩,
    ⟨0x50008, 0x1000, 4, 0x1, 1, false, 0x0, 0x0, 0x0, 0xfff, 0x0⟩,
    ⟨0x5000c, 0x1000, 4, 0x1, 1, false, 0x0, 0x0, 0x1ff, 0x0, 0x0⟩,
    ⟨0x50010, 0x1000, 4, 0x1, 1, false, 0x0, 0x0, 0x7fffffff, 0x0, 0x0⟩,
    ⟨0x50014, 0x1000, 4, 0x1, 1, false, 0x0, 0x0, 0x7f7f, 0x0, 0x0⟩,
    ⟨0x50018, 0x1000, 4, 0x1, 1, false, 0x0, 0x0, 0x1fff1fff, 0x0, 0x0⟩,
    ⟨0x5001c, 0x1000, 4, 0x1, 1, false, 0x0, 0x0, 0x3ff, 0x0, 0x0⟩,
    ⟨0x50020, 0x1000, 4, 0x1, 1, false, 0x0, 0xff, 0x0, 0x0, 0x0⟩,
    ⟨0x50024, 0x1000, 4, 0x1, 1, false, 0x0, 0xffffffff, 0x0, 0x0, 0x0⟩,
    ⟨0x50028, 0x1000, 4, 0x1, 1, false, 0x0, 0xff0f, 0x0, 0x0, 0x6⟩,
    ⟨0x5002c, 0x1000, 4, 0x1, 1, false, 0x0, 0xffffff7f, 0x0, 0x0, 0x4⟩,
    ⟨0x50030, 0x1000, 4, 0x1, 1, false, 0x0, 0xf, 0x0, 0x0, 0x0⟩,
    ⟨0x50034, 0x1000, 4, 0x1, 1, false, 0x0, 0x0, 0xfff, 0x0, 0x0⟩,
    ⟨0x50038, 0x1000, 4, 0x1, 1, false, 0x0, 0x0, 0x0, 0x0, 0x0⟩,
    ⟨0x5003c, 0x1000, 4, 0x1, 1, false, 0x0, 0x0, 0x0, 0x0, 0x0⟩,
    ⟨0x50040, 0x1000, 4, 0x1, 1, false, 0x0, 0x0, 0x0, 0x0, 0x0⟩,
    ⟨0x50044, 0x1000, 4, 0x1, 1, false, 0x0, 0x0, 0x0, 0x0, 0x0⟩,
    ⟨0x50048, 0x1000, 4, 0x1, 1, true, 0x0, 0x0, 0x0, 0x0, 0x0⟩,
    ⟨0x50050, 0x1000, 4, 0x1, 1, false, 0x0, 0x0, 0x0, 0x0, 0x0⟩ ] ++
  [ ⟨0x50054, 0x1000, 4, 0x1, 1, false, 0x0, 0x0, 0x0, 0x0, 0x0⟩,
    ⟨0x50058, 0x1000, 4, 0x1, 1, true, 0x0, 0x0, 0x0, 0x0, 0x0⟩,
    ⟨0x50060, 0x1000, 4, 0x1, 1, true, 0x0, 0x0, 0x0, 0x0, 0x0⟩,
    ⟨0x50068, 0x1000, 4, 0x1, 1, false, 0x0, 0x0, 0x0, 0x0, 0x0⟩,
    ⟨0x5006c, 0x1000, 4, 0x1, 1, false, 0x0, 0x0, 0x0, 0x0, 0x0⟩,
    ⟨0x50070, 0x1000, 4, 0x1, 1, false, 0x0, 0x0, 0x0, 0x0, 0x0⟩,
    ⟨0x50074, 0x1000, 4, 0x1, 1, false, 0x0, 0x0, 0x0, 0x0, 0x0⟩,
    ⟨0x50078, 0x1000, 4, 0x1, 1, false, 0x0, 0x0, 0x0, 0x0, 0x0⟩,
    ⟨0x50080, 0x1000, 4, 0x1, 1, true, 0x0, 0x0, 0x0, 0x0, 0x0⟩,
    ⟨0x50400, 0x1000, 4, 0x10, 64, false, 0x0, 0xffff7f6f, 0x0, 0x0, 0x0⟩,
    ⟨0x50404, 0x1000, 4, 0x10, 64, false, 0x0, 0xffffffff, 0x0, 0x0, 0x0⟩,
    ⟨0x50408, 0x1000, 4, 0x10, 64, false, 0x0, 0xffffffff, 0x0, 0x0, 0x0⟩,
    ⟨0x5040c, 0x1000, 4, 0x10, 64, false, 0x0, 0xffffffff, 0x0, 0x0, 0x0⟩,
    ⟨0x50800, 0x1000, 4, 0x4, 64, false, 0x0, 0x0, 0x0, 0x1f00, 0x0⟩ ]

/-- The registers of the SHV block (R18). -/
def shvRows : List Row :=
  [ ⟨0x60000, 0x800, 8, 0x1, 1, false, 0x1, 0x0, 0x0, 0x0, 0x0⟩,
    ⟨0x60004, 0x800, 8, 0x1, 1, false, 0x0, 0x0, 0x0, 0x0, 0x0⟩,
    ⟨0x60008, 0x800, 8, 0x1, 1, false, 0x0, 0x0, 0x0, 0x7ff, 0x0⟩,
    ⟨0x6000c, 0x800, 8, 0x1, 1, false, 0x0, 0x0, 0x3f33, 0x0, 0x0⟩,
    ⟨0x60010, 0x800, 8, 0x1, 1, false, 0x0, 0x0, 0x3f3f3f, 0x0, 0x0⟩,
    ⟨0x60014, 0x800, 8, 0x1, 1, false, 0x0, 0x0, 0xffffff00, 0x0, 0x0⟩,
    ⟨0x60018, 0x800, 8, 0x1, 1, false, 0x0, 0x0, 0xffff03ff, 0x0, 0x0⟩,
    ⟨0x6001c, 0x800, 8, 0x1, 1, false, 0x0, 0x0, 0xffff, 0x0, 0x0⟩,
    ⟨0x60020, 0x800, 8, 0x1, 1, false, 0x0, 0x0, 0x3fff3fff, 0x0, 0x0⟩,
    ⟨0x60024, 0x800, 8, 0x1, 1, false, 0x0, 0xf, 0x0, 0x0, 0x8⟩,
    ⟨0x60028, 0x800, 8, 0x1, 1, false, 0xffffffff, 0x0, 0x0, 0x0, 0x0⟩,
    ⟨0x6002c, 0x800, 8, 0x1, 1, false, 0xffffffff, 0x0, 0x0, 0x0, 0x0⟩,
    ⟨0x60030, 0x800, 8, 0x1, 1, false, 0x0, 0xffffffff, 0x0, 0x0, 0x0⟩,
    ⟨0x60034, 0x800, 8, 0x1, 1, false, 0x0, 0x1f, 0x0, 0x0, 0x0⟩,
    ⟨0x60038, 0x800, 8, 0x1, 1, false, 0x0, 0x0, 0x0, 0x0, 0x0⟩,
    ⟨0x6003c, 0x800, 8, 0x1, 1, false, 0x0, 0x0, 0x0, 0x0, 0x0⟩,
    ⟨0x60040, 0x800, 8, 0x1, 1, false, 0x0, 0x0, 0x0, 0x0, 0x0⟩,
    ⟨0x60044, 0x800, 8, 0x1, 1, false, 0x0, 0x0, 0x0, 0x0, 0x0⟩,
    ⟨0x60048, 0x800, 8, 0x1, 1, false, 0x0, 0x0, 0x0, 0x0, 0x0⟩,
    ⟨0x6004c, 0x800, 8, 0x1, 1, false, 0x0, 0xffff, 0x0, 0x0, 0x4⟩ ] ++
  [ ⟨0x60050, 0x800, 8, 0x1, 1, true, 0xffffffffffff, 0x0, 0x0, 0x0, 0x0⟩,
    ⟨0x60058, 0x800, 8, 0x1, 1, true, 0x0, 0x0, 0x0, 0x0, 0x0⟩,
    ⟨0x60060, 0x800, 8, 0x1, 1, true, 0x0, 0x0, 0x0, 0x0, 0x0⟩,
    ⟨0x60068, 0x800, 8, 0x1, 1, true, 0x0, 0x0, 0x0, 0x0, 0x0⟩,
    ⟨0x60070, 0x800, 8, 0x1, 1, true, 0x0, 0x0, 0x0, 0x0, 0x0⟩,
    ⟨0x60078, 0x800, 8, 0x1, 1, true, 0x0, 0xffffffffffff, 0x0, 0x0, 0x0⟩,
    ⟨0x60080, 0x800, 8, 0x1, 1, false, 0x0, 0x0, 0x0, 0x0, 0x0⟩,
    ⟨0x60084, 0x800, 8, 0x1, 1, false, 0x0, 0x0, 0x0, 0xffff, 0x0⟩,
    ⟨0x60088, 0x800, 8, 0x1, 1, true, 0x0, 0x0, 0x0, 0x0, 0x0⟩,
    ⟨0x60100, 0x800, 8, 0x10, 16, true, 0xffffffffffff, 0x0, 0x0, 0x0, 0x0⟩,
    ⟨0x60108, 0x800, 8, 0x10, 16, false, 0x0, 0xffff003f, 0x0, 0x0, 0x6⟩ ]

/-- The registers of the STY block (R18). -/
def styRows : List Row :=
  [ ⟨0x70000, 0x1, 1, 0x1, 1, false, 0x0, 0x0, 0x0, 0x120000, 0x0⟩,
    ⟨0x70004, 0x1, 1, 0x1, 1, false, 0x0, 0x0, 0x0, 0x0, 0x0⟩,
    ⟨0x70008, 0x1, 1, 0x1, 1, false, 0x0, 0x0, 0x0, 0x0, 0x0⟩,
    ⟨0x70100, 0x1, 1, 0x1, 1, false, 0x10fff, 0x0, 0x0, 0x0, 0x64⟩,
    ⟨0x70104, 0x1, 1, 0x1, 1, false, 0x0, 0x0, 0x0, 0x7, 0x0⟩ ]

/-- The registers of the PRT block (R18). -/
def prtRows : List Row :=
  [ ⟨0x80000, 0x100, 96, 0x1, 1, false, 0x1, 0x0, 0x0, 0x0, 0x0⟩,
    ⟨0x80004, 0x100, 96, 0x1, 1, false, 0x0, 0x0, 0x0, 0xff0000, 0x0⟩,
    ⟨0x80008, 0x100, 64, 0x1, 1, false, 0x0, 0x0, 0x3f, 0x0, 0x0⟩,
    ⟨0x84008, 0x100, 32, 0x1, 1, false, 0x0, 0x0, 0x7f, 0x0, 0x0⟩,
    ⟨0x8000c, 0x100, 64, 0x1, 1, false, 0x0, 0xfff0fff, 0x0, 0x0, 0x0⟩,
    ⟨0x8400c, 0x100, 32, 0x1, 1, false, 0x0, 0xfff0c00, 0x0, 0x0, 0x0⟩,
    ⟨0x80010, 0x100, 96, 0x1, 1, false, 0x0, 0x1, 0x0, 0x0, 0x0⟩,
    ⟨0x80014, 0x100, 96, 0x1, 1, false, 0x0, 0x1f, 0x0, 0x0, 0x0⟩,
    ⟨0x80018, 0x100, 96, 0x1, 1, false, 0x0, 0x7, 0x0, 0x0, 0x0⟩,
    ⟨0x8001c, 0x100, 96, 0x1, 1, false, 0x0, 0xffffffff, 0x0, 0x0, 0x1⟩,
    ⟨0x80020, 0x100, 96, 0x1, 1, true, 0x0, 0x0, 0x0, 0x0, 0x0⟩,
    ⟨0x80028, 0x100, 96, 0x1, 1, false, 0x0, 0x0, 0x0, 0x0, 0x0⟩,
    ⟨0x8002c, 0x100, 96, 0x1, 1, false, 0x0, 0x0, 0x0, 0x0, 0x0⟩,
    ⟨0x80030, 0x100, 96, 0x1, 1, false, 0x0, 0x0, 0x0, 0x0, 0x0⟩,
    ⟨0x80034, 0x100, 96, 0x1, 1, false, 0x0, 0x0, 0x0, 0x0, 0x0⟩,
    ⟨0x80038, 0x100, 96, 0x1, 1, false, 0x0, 0x0, 0x0, 0x0, 0x0⟩,
    ⟨0x80040, 0x100, 96, 0x1, 1, false, 0x0, 0x0, 0x0, 0x0, 0x0⟩,
    ⟨0x80080, 0x100, 96, 0x1, 1, false, 0x1, 0xf776, 0x0, 0x0, 0x0⟩,
    ⟨0x80084, 0x100, 96, 0x1, 1, false, 0x0, 0xffff, 0x0, 0x0, 0x0⟩,
    ⟨0x80088, 0x100, 96, 0x1, 1, true, 0xffffffffffff, 0x0, 0x0, 0x0, 0x0⟩ ] ++
  [ ⟨0x80090, 0x100, 96, 0x1, 1, true, 0xffffffffffff, 0x0, 0x0, 0x0, 0x0⟩,
    ⟨0x80098, 0x100, 96, 0x1, 1, true, 0xffffffffffff, 0x0, 0x0, 0x0, 0xffffffffffff⟩,
    ⟨0x800a0, 0x100, 96, 0x1, 1, true, 0x0, 0x0, 0x0, 0x0, 0x0⟩,
    ⟨0x800a8, 0x100, 96, 0x1, 1, false, 0x0, 0x0, 0x0, 0x3, 0x0⟩ ]

/-- The registers of the COIL block (R18). -/
def coilRows : List Row :=
  [ ⟨0x90000, 0x400, 17, 0x1, 1, false, 0x30100, 0x13, 0x0, 0x0, 0x10⟩,
    ⟨0x90004, 0x400, 17, 0x1, 1, false, 0x0, 0x0, 0x0, 0x0, 0x1⟩,
    ⟨0x90008, 0x400, 17, 0x1, 1, false, 0x0, 0x0, 0x0, 0x1f, 0x0⟩,
    ⟨0x9000c, 0x400, 17, 0x1, 1, false, 0x0, 0x0, 0x0, 0x0, 0x0⟩,
    ⟨0x90010, 0x400, 17, 0x1, 1, false, 0xffffffff, 0x0, 0x0, 0x0, 0x0⟩,
    ⟨0x90014, 0x400, 17, 0x1, 1, false, 0x0, 0x0, 0x0, 0x0, 0xf⟩,
    ⟨0x90018, 0x400, 17, 0x1, 1, false, 0x0, 0x0, 0x0, 0x0, 0x0⟩,
    ⟨0x9001c, 0x400, 17, 0x1, 1, false, 0x0, 0x0, 0x0, 0x0, 0x0⟩,
    ⟨0x90020, 0x400, 17, 0x1, 1, true, 0x0, 0x0, 0x0, 0x0, 0x0⟩,
    ⟨0x90028, 0x400, 17, 0x1, 1, false, 0x0, 0x0, 0x0, 0x0, 0x0⟩,
    ⟨0x9002c, 0x400, 17, 0x1, 1, false, 0x0, 0x0, 0x0, 0x0, 0x0⟩,
    ⟨0x90030, 0x400, 17, 0x1, 1, false, 0x0, 0x0, 0x0, 0x0, 0x0⟩,
    ⟨0x90034, 0x400, 17, 0x1, 1, false, 0x0, 0x0, 0x0, 0x0, 0x0⟩,
    ⟨0x90040, 0x400, 17, 0x1, 1, false, 0x0, 0x0, 0x0, 0x0, 0x0⟩,
    ⟨0x90088, 0x400, 17, 0x8, 15, true, 0x0, 0x0, 0xffffffffffffffff, 0x0, 0x0⟩,
    ⟨0x90100, 0x400, 17, 0x1, 1, false, 0x0, 0x0, 0x1f, 0x0, 0x0⟩,
    ⟨0x90108, 0x400, 17, 0x1, 1, false, 0x0, 0x0, 0xffffffff, 0x0, 0x100000⟩,
    ⟨0x9010c, 0x400, 17, 0x1, 1, false, 0x0, 0x0, 0x1f, 0x0, 0x8⟩,
    ⟨0x90110, 0x400, 17, 0x1, 1, false, 0x0, 0x0, 0x0, 0x0, 0x0⟩,
    ⟨0x90114, 0x400, 17, 0x1, 1, false, 0x0, 0x0, 0xffffffff, 0x0, 0x100000⟩ ] ++
  [ ⟨0x96000, 0x4, 64, 0x1, 1, false, 0x0, 0x0, 0x0, 0x0, 0x0⟩ ]

/-- The registers of the FRS block (R18). -/
def frsRows : List Row :=
  [ ⟨0xa0000, 0x1, 1, 0x1, 1, false, 0x1, 0x0, 0x0, 0x0, 0x0⟩,
    ⟨0xa0004, 0x1, 1, 0x1, 1, false, 0x0, 0x0, 0x0, 0x3f00, 0x0⟩,
    ⟨0xa0008, 0x1, 1, 0x1, 1, false, 0x0, 0x0, 0x1f0f, 0x0, 0x0⟩,
    ⟨0xa000c, 0x1, 1, 0x1, 1, false, 0x0, 0xffffffff, 0x0, 0x0, 0x0⟩,
    ⟨0xa0010, 0x1, 1, 0x1, 1, false, 0x0, 0x0, 0x0, 0x0, 0x0⟩,
    ⟨0xa0014, 0x4, 3, 0x1, 1, false, 0x0, 0x0, 0x0, 0x0, 0x0⟩,
    ⟨0xa0020, 0x1, 1, 0x1, 1, false, 0x0, 0x0, 0x0, 0x0, 0x0⟩,
    ⟨0xa0024, 0x1, 1, 0x1, 1, false, 0x0, 0x0, 0x0, 0x0, 0x0⟩,
    ⟨0xa0040, 0x1, 1, 0x1, 1, false, 0x0, 0x0, 0x0, 0x0, 0x0⟩,
    ⟨0xa0044, 0x1, 1, 0x1, 1, false, 0x0, 0xffff, 0x0, 0x0, 0x0⟩,
    ⟨0xa0080, 0x1, 1, 0x1, 1, true, 0xffffffffffffffff, 0x0, 0x0, 0x0, 0x0⟩,
    ⟨0xa0088, 0x1, 1, 0x1, 1, true, 0xffffffffffffffff, 0x0, 0x0, 0x0, 0x0⟩,
    ⟨0xa0090, 0x1, 1, 0x1, 1, false, 0xffffffff, 0x0, 0x0, 0x0, 0x0⟩,
    ⟨0xa0094, 0x1, 1, 0x1, 1, false, 0x7, 0x0, 0x0, 0x0, 0x0⟩,
    ⟨0xa00a0, 0x1, 1, 0x1, 1, true, 0x0, 0x0, 0x0, 0x0, 0x0⟩,
    ⟨0xa00a8, 0x1, 1, 0x1, 1, true, 0x0, 0x0, 0x0, 0x0, 0x0⟩,
    ⟨0xa00b0, 0x1, 1, 0x1, 1, true, 0x0, 0x0, 0x0, 0x0, 0x0⟩,
    ⟨0xa00b8, 0x1, 1, 0x1, 1, false, 0x0, 0x0, 0x0, 0x0, 0x0⟩,
    ⟨0xa00bc, 0x1, 1, 0x1, 1, false, 0x0, 0x0, 0x0, 0x0, 0x0⟩ ]

/-- The registers of the VLT block (R18). -/
def vltRows : List Row :=
  [ ⟨0xb0000, 0x1, 1, 0x1, 1, false, 0x0, 0x0, 0x0, 0x0, 0x0⟩,
    ⟨0xb0004, 0x1, 1, 0x1, 1, false, 0x0, 0x0, 0x0, 0x0, 0x0⟩,
    ⟨0xb0008, 0x1, 1, 0x1, 1, false, 0x0, 0x0, 0x0, 0x0, 0x0⟩,
    ⟨0xb000c, 0x1, 1, 0x1, 1, false, 0x1f, 0x0, 0x0, 0x0, 0x1f⟩,
    ⟨0xb0010, 0x1, 1, 0x1, 1, false, 0x0, 0x0, 0x0, 0x1f, 0x0⟩,
    ⟨0xb0014, 0x1, 1, 0x1, 1, false, 0x0, 0x0, 0x0, 0x0, 0x0⟩,
    ⟨0xb0018, 0x1, 1, 0x1, 1, true, 0x0, 0x0, 0x0, 0x0, 0x0⟩,
    ⟨0xb0080, 0x4, 8, 0x1, 1, false, 0x0, 0x0, 0x0, 0x0, 0x0⟩,
    ⟨0xb00a0, 0x4, 8, 0x1, 1, false, 0x0, 0x0, 0x0, 0x0, 0x0⟩,
    ⟨0xb00c0, 0x4, 8, 0x1, 1, false, 0x0, 0x0, 0x0, 0x0, 0x0⟩,
    ⟨0xb0100, 0x4, 16, 0x1, 1, false, 0x0, 0x0, 0x0, 0x0, 0x0⟩,
    ⟨0xb0140, 0x4, 16, 0x1, 1, false, 0x0, 0x0, 0x0, 0x0, 0x0⟩ ]

/-- The registers of the LGC block (R18). -/
def lgcRows : List Row :=
  [ ⟨0xc0000, 0x1, 1, 0x1, 1, false, 0x0, 0x0, 0x0, 0x0, 0x16206480⟩,
    ⟨0xc0004, 0x1, 1, 0x1, 1, false, 0x0, 0x0, 0x0, 0x0, 0x0⟩,
    ⟨0xc0100, 0x100, 4, 0x1, 1, false, 0x1, 0x0, 0x0, 0x0, 0x0⟩,
    ⟨0xc0104, 0x100, 4, 0x1, 1, false, 0x0, 0x0, 0x0, 0x0, 0x0⟩,
    ⟨0xc0120, 0x100, 4, 0x20, 4, false, 0x1, 0x0, 0x0, 0x0, 0x0⟩,
    ⟨0xc0124, 0x100, 4, 0x20, 4, false, 0x0, 0x0, 0xffffffff, 0x0, 0xc8⟩,
    ⟨0xc0128, 0x100, 4, 0x20, 4, false, 0x0, 0x0, 0x0, 0x6, 0x0⟩,
    ⟨0xc012c, 0x100, 4, 0x20, 4, false, 0x0, 0x0, 0x0, 0x0, 0x0⟩,
    ⟨0xc0800, 0x20, 16, 0x1, 1, false, 0x0, 0x0, 0xf07, 0x0, 0x0⟩,
    ⟨0xc0804, 0x20, 16, 0x1, 1, false, 0xffffffff, 0x0, 0x0, 0x0, 0x0⟩,
    ⟨0xc0808, 0x20, 16, 0x1, 1, false, 0xffffffff, 0x0, 0x0, 0x0, 0x1⟩,
    ⟨0xc080c, 0x20, 16, 0x1, 1, false, 0x0, 0x0, 0x0, 0x0, 0x0⟩,
    ⟨0xc0810, 0x20, 16, 0x1, 1, false, 0x0, 0x0, 0x0, 0x7, 0x0⟩ ]

/-- The registers of the MSIX block (R18). -/
def msixRows : List Row :=
  [ ⟨0xe0000, 0x10, 64, 0x1, 1, false, 0xffffffff, 0x0, 0x0, 0x0, 0x0⟩,
    ⟨0xe0004, 0x10, 64, 0x1, 1, false, 0xffffffff, 0x0, 0x0, 0x0, 0x0⟩,
    ⟨0xe0008, 0x10, 64, 0x1, 1, false, 0xffffffff, 0x0, 0x0, 0x0, 0x0⟩,
    ⟨0xe000c, 0x10, 64, 0x1, 1, false, 0x1, 0x0, 0x0, 0x0, 0x1⟩,
    ⟨0xe0800, 0x1, 1, 0x1, 1, true, 0x0, 0x0, 0x0, 0x0, 0x0⟩ ]

/-- The registers of the LAN block (R18). -/
def lanRows : List Row :=
  [ ⟨0xf0000, 0x1, 1, 0x1, 1, false, 0x0, 0x0, 0x0, 0x0, 0x0⟩,
    ⟨0xf0004, 0x1, 1, 0x1, 1, false, 0x0, 0x0, 0x0, 0x0, 0x0⟩,
    ⟨0xf0008, 0x1, 1, 0x1, 1, false, 0x7f, 0x0, 0x0, 0x0, 0x0⟩,
    ⟨0xf000c, 0x1, 1, 0x1, 1, false, 0x0, 0x0, 0x0, 0x0, 0x0⟩,
    ⟨0xf0100, 0x4, 16, 0x1, 1, false, 0xffffffff, 0x0, 0x0, 0x0, 0x0⟩,
    ⟨0xf0200, 0x4, 16, 0x1, 1, false, 0x0, 0x0, 0x0, 0x0, 0x0⟩ ]

/-- The rows of the block at BAR0 offset b × 0x001_0000 (R18). -/
def rowsOf : Nat → List Row
  | 0 => glbRows
  | 1 => mstRows
  | 2 => rigRows
  | 3 => hlyRows
  | 4 => sagRows
  | 5 => whlRows
  | 6 => shvRows
  | 7 => styRows
  | 8 => prtRows
  | 9 => coilRows
  | 10 => frsRows
  | 11 => vltRows
  | 12 => lgcRows
  | 14 => msixRows
  | 15 => lanRows
  | _ => []

end Sys2Proof.Machine.Reg
end

