-- ==== Sys2Proof/Machine/State.lean ====
section
/-! DEFINITION. The state of the TZ-6480 as plain data, and the state at reset.
Registers are held by BAR0 offset in one sparse map whose unlisted keys read as the reset value of the register
table (R9); what the registers do not show stands in the structures below. -/

namespace Sys2Proof.Machine

/-- No command of this model ends in a fault: every command the spec lists has an effect, and the errors the spec
names are flags, counts and completions held in State. The one constructor is raised by nothing; it would be safe. -/
inductive Fault where
  | none
  deriving DecidableEq, Repr

/-- Why a command has no meaning. -/
inductive Refusal where
  /-- The command is not modelled yet; raised by an arm of exec alone. Safe: nothing is claimed of it. -/
  | notModelled (mnemonic : String)
  deriving DecidableEq, Repr

/-! ### Records -/

/-- An action record (R116, R173): its fields, its flags and the owner code (R74) of the unit that issued it. -/
structure Action where
  time  : Time := 0
  port  : Nat := 0
  code  : Nat := 0
  tag   : Nat := 0
  param : Nat := 0
  mark  : Bool := false
  evt   : Bool := false
  trk   : Bool := false
  late  : Bool := false
  owner : Nat := 0
  deriving DecidableEq, Repr

/-- Where a capture record was formed (R183). -/
inductive Origin where
  | port (p : Nat)
  | tracker (w : Nat)
  | sheave (u : Nat)
  deriving DecidableEq, Repr

/-- A capture record (R183): timestamp, bits [70:64], edge bit, source type, sequence, auxiliary word, the lane
it was given when it was formed (R22) and where it was formed. -/
structure CapRec where
  time : Time := 0
  idx  : Nat := 0
  edge : Bool := false
  ty   : Nat := 0
  seq  : Nat := 0
  aux  : Nat := 0
  lane : Nat := 0
  org  : Origin := .port 0
  deriving DecidableEq, Repr

/-! ### Ports (R172 to R210) -/

/-- A queued action: the record, whether it is late at the port (R181) and the time at which it executes. -/
structure QEntry where
  act  : Action
  late : Bool
  at_  : Time
  deriving DecidableEq, Repr

/-- A raw edge that the input filter holds (R186): the new logical level, the stamp of the raw edge, the count in
its Mast cycle, the Mast cycle and whether the timebase ran. -/
structure RawEdge where
  level : Bool
  stamp : Time
  count : Nat
  mc    : Nat
  ran   : Bool
  deriving DecidableEq, Repr

/-- One change of a counter (R192). -/
inductive CtrChg where
  | load (v : Nat)
  | loadAct
  | cload (param : Nat)
  | rld (v : Nat)
  | crld (param : Nat)
  | cmp (v : Nat)
  | ccmp (param : Nat)
  | run (on : Bool)
  | upper (v : Nat)
  deriving DecidableEq, Repr

/-- The counter of a port (R191): count, reload buffer, active reload value, compare, upper latch, RUN, the Mast
boundary that prescaling counts from with the divisor in use (R190, R208), and whether a LOAD or a compare write
of the cycle can make an immediate match (R194). -/
structure Counter where
  cnt   : Nat := 0
  rld   : Nat := 0
  act   : Nat := 0
  cmp   : Nat := 0xFFFFFFFFFFFF
  upper : Nat := 0
  run   : Bool := false
  base  : Nat := 0
  presc : Nat := 0
  imm   : Bool := false
  deriving DecidableEq, Repr

/-- What makes a counter step beside the prescaler (R190, R195): an edge with its level, an event of another port of the
group (4 zero, 5 match) with that port's position, and a pulse at the arm input. -/
inductive StepCause where
  | edge (rising : Bool)
  | link (csrc j : Nat)
  | arm
  deriving DecidableEq, Repr

/-- An output change that comes with a Mast boundary (R188, R196, R197): an output code with its width, or the return to
REST. -/
inductive LateOut where
  | code (c width : Nat)
  | rest
  deriving DecidableEq, Repr

/-- A port unit. -/
structure Port where
  queue    : List QEntry := []
  out      : Bool := false
  drv      : Bool := false
  pulseEnd : Option Time := none
  /-- The held result of R177: the time it is held to, the net level and driver state. -/
  held     : Option (Time × Bool × Bool) := none
  /-- The net result so far of output actions of one time, while more of that time are to come (R176). -/
  acc      : Option (Time × Bool × Bool) := none
  /-- Output changes of a Mast boundary, with its time, in order (R188, R196, R197). -/
  later    : List (Time × LateOut) := []
  /-- The last output edge (R177). -/
  edge     : Option Time := none
  /-- Openings and closings of the capture gate, newest first (R185). -/
  gate     : List (Time × Bool) := []
  pin      : Bool := false
  level    : Bool := false
  raw      : Option RawEdge := none
  /-- Levels that have qualified, each with the Mast cycle at which it reaches the owning unit, oldest first (R186). -/
  told     : List (Nat × Bool) := []
  stamped  : Option Time := none
  recs     : List CapRec := []
  ctr      : Counter := {}
  /-- The counter as it stood at the start of cycle snapMc, and the changes of that cycle with their rank (R192). -/
  snap     : Counter := {}
  snapMc   : Option Nat := none
  chgs     : List (Nat × CtrChg) := []
  /-- Step causes other than the prescaler, with the Mast boundary at which each falls (R190, R195). -/
  steps    : List (Nat × StepCause) := []
  /-- The Mast boundary of the last evaluation of the counter. -/
  closed   : Nat := 0
  /-- A pulse at the arm input that has not acted yet, by its arrival cycle (R197). -/
  arm      : List Nat := []
  deriving DecidableEq, Repr

/-! ### Timebase and Kiln (R36 to R86) -/

/-- A wide-read shadow (R52, R53): the quantity it holds by the offset of its low register, the latched value of a
read, and the 16-bit parts held for a write with their mask. -/
structure Shadow where
  qty   : Option Nat := none
  read  : Option DWord := none
  wval  : DWord := 0
  wmask : DWord := 0
  deriving DecidableEq, Repr

/-- The Mast timebase, the Kiln scheduler and the slot clock, beyond their registers. -/
structure Kiln where
  /-- Mast cycles since reset; the clock that runs whether or not the count does (R537). -/
  mc         : Nat := 0
  /-- The timebase count at the start of the present Mast cycle (R40). -/
  count      : Time := 0
  /-- The count of the field copy, and whether it advances, while it runs on without the link (R492). -/
  copy       : Option (Time × Bool) := none
  /-- A start has been written and loads MST_SET at the next Mast cycle (R41). -/
  loadSet    : Bool := false
  /-- The scheduled first boundary (R59). -/
  first      : Option Time := none
  /-- The next boundary while ticks are issued (R57). -/
  next       : Time := 0
  /-- The Mast cycle that begins at the last boundary issued. -/
  bmc        : Nat := 0
  /-- A boundary has been issued since the last block reset (R59). -/
  issued     : Bool := false
  /-- The boundary, real or virtual, that the slot walk counts from, and the next slot (R71, R538). -/
  slotBase   : Time := 0
  slotK      : Nat := 0
  /-- The next virtual boundary while no ticks are issued (R538). -/
  virt       : Time := 0
  /-- A block's COMMIT offset to 1 when armed, or to 2 + the Mast cycle at which it applies without ticks (R12, R14). -/
  armed      : SMap Nat := []
  /-- MST_REFSEL has been written since the block's last apply (R38). -/
  refWritten : Bool := false
  /-- The reference sources, as SRC codes, that are known to be valid (R38). -/
  refGood    : List Nat := []
  /-- Wide-read shadows, at 2 × block for the host and 2 × block + 1 for the management controller (R52). -/
  shadows    : SMap Shadow := []
  deriving DecidableEq, Repr

/-! ### Rigging (R291 to R314) -/

/-- The state of an interrupt tap (R307): the Mast cycle at which its holdoff ends, and a deferred request. -/
structure Tap where
  holdEnd  : Option Nat := none
  deferred : Bool := false
  deriving DecidableEq, Repr

/-- The Rigging matrix beyond its registers. -/
structure Rigging where
  /-- Pulses in flight of each logic-die route entry, by delivery cycle, oldest first (R294). -/
  flight   : SMap (List Nat) := []
  /-- The route entries that the field section has in force, and their pulses in flight (R294, R297). -/
  field    : SMap DWord := []
  fflight  : SMap (List Nat) := []
  /-- Committed entries that the field section has still to take, each set with the Mast cycle at which it does (R297). -/
  fapply   : List (Nat × SMap DWord) := []
  /-- Pulses that a unit has formed for a later Mast cycle: source and cycle (R186, R196, R306, R311). -/
  sched    : List (Nat × Nat) := []
  /-- The cycle of the last pulse of each source, plus 1: pulses of one cycle merge (R292). -/
  pulsed   : SMap Nat := []
  /-- The delivery cycle of the last pulse at each destination, plus 1 (R295). -/
  reached  : SMap Nat := []
  taps     : SMap Tap := []
  /-- The value of RIG_CWWR at the last "capture notify" (R306). -/
  notified : Nat := 0
  /-- Records buffered at the logic end of each Stay return lane, oldest first (R300). -/
  lanes    : SMap (List CapRec) := []
  deriving DecidableEq, Repr

/-! ### Saggar banks (R344 to R372) -/

/-- What a request at a bank is for. -/
inductive BankUse where
  | far (e : Nat)
  | dma (id : Nat)
  | hostRead (tag addr len since : Nat) (alias_ : Bool)
  | hostWrite (addr : Nat) (data : List (Option Byte)) (alias_ : Bool)
  | trace (e : Nat)
  /-- The lines of a dry seal that wait in the engine, one to a beat (R163). -/
  | dry (e : Nat)
  /-- A write to the tooth table by requester req of a register access, kept until the table's clear has ended (R352). -/
  | table (req addr : Nat) (data : List Byte)
  | scrub
  /-- A READ_MEM or WRITE_MEM, 0, or a part of a MEM section, 1, which the management controller performs once it is granted
  (R357, R396, R417). -/
  | mgmt (k : Nat)
  /-- An access that takes its beats alone: its data has moved in the command that made it (R363). -/
  | occupy
  deriving DecidableEq, Repr

/-- A request at a bank (R357, R359): requester number, engine number for ordering, age stamp in engine cycles,
issue order, beats left and done, the last permitted grant cycle of a far request (R364), the cycle of its first
grant, its use, and the data of a host read so far with its poison bit. -/
structure BankReq where
  r     : Nat
  src   : Nat := 0
  stamp : Nat := 0
  order : Nat := 0
  beats : Nat := 1
  done  : Nat := 0
  last  : Option Nat := none
  first : Option Nat := none
  fin   : Nat := 0
  use   : BankUse
  acc   : List Byte := []
  bad   : Bool := false
  /-- One burst takes all its beats, whatever the burst length (R323). -/
  whole : Bool := false
  deriving DecidableEq, Repr

/-- A bank's arbiter: pending requests, the far and Halyard requests whose beats have all been granted and whose data
has not been taken, and the first engine cycle at which the bank is free. -/
structure Bank where
  pend   : List BankReq := []
  served : List BankReq := []
  order  : Nat := 0
  freeAt : Nat := 0
  /-- What the last burst granted belongs to; its beats are performed from `start` until `freeAt`. -/
  cur    : Option BankReq := none
  start  : Nat := 0
  /-- The bank cycle of the arbiter's last decision. -/
  seen   : Nat := 0
  /-- The next line of the scrubber, and the Mast cycle of its next request (R351). -/
  line   : Nat := 0
  scrubAt : Option Nat := none
  /-- The engine cycle at which a clear or wipe in progress ends (R352, R353). -/
  clearTo : Nat := 0
  deriving DecidableEq, Repr
/-! ### Wheel trackers (R211 to R254, R540) -/

/-- A tooth record (R212, R213): port, edge time, the other input's level, its tracker and its lane. -/
structure Tooth where
  port  : Nat
  time  : Time
  other : Bool
  wheel : Nat
  lane  : Nat
  /-- The Mast cycle from which the link or the path takes it (R186). -/
  ready : Nat := 0
  deriving DecidableEq, Repr

/-- An angle event slot beyond its registers (R231 to R242): the records queued for the present occurrence with
their times and whether they are committed, and the values the occurrence runs with. -/
structure WSlot where
  /-- A begin, an end is queued; it is committed. -/
  bq    : Bool := false
  eq    : Bool := false
  bc    : Bool := false
  ec    : Bool := false
  tb    : Time := 0
  te    : Time := 0
  /-- The slot's active EVCFG, BEGIN, END and MAXDUR when the occurrence was issued or last re-predicted. -/
  cfg   : Nat := 0
  beg   : Nat := 0
  fin   : Nat := 0
  maxd  : Nat := 0
  /-- FIRELATE, and GUARD or REVEND, of the occurrence, for its records. -/
  late  : Bool := false
  guard : Bool := false
  /-- The wheel has passed the begin angle, the end angle. -/
  bpass : Bool := false
  epass : Bool := false
  /-- The slot does not issue before a tooth whose interval spans this angle has been processed (R234). -/
  wait  : Option Nat := none
  /-- The begin angle of an occurrence that ended before the wheel passed it; the tooth that spans it lets the slot issue. -/
  past  : Option Nat := none
  deriving DecidableEq, Repr

/-- A wheel tracker beyond its registers. -/
structure Tracker where
  /-- Tooth records that have arrived, with the Mast cycle of arrival (R214). -/
  fifo  : List (Tooth × Nat) := []
  /-- The Mast cycle of the last t_p. -/
  lastP : Option Nat := none
  /-- The last three accepted teeth with a position, newest first: time and position (R225). -/
  hist  : List (Time × Nat) := []
  /-- The spans of the estimate and whether its tooth is ACCEL_LIMIT (R225). -/
  a1    : Nat := 0
  a2    : Nat := 0
  accl  : Bool := false
  /-- The last accepted primary tooth, and the interval before it (R221, R226). -/
  lastT : Option Time := none
  prevE : Option Nat := none
  /-- The tooth that the stall time counts from; a loss of sync other than a stall leaves it (R228). -/
  stallT : Option Time := none
  pos   : Option Nat := none
  conf  : Nat := 0
  /-- The state before STALLED (R228). -/
  saved : Nat := 1
  /-- Stamps of primary records that arrived after the last accepted tooth (R228). -/
  seen  : List Time := []
  /-- Reference edges that no tooth follows yet, the accepted teeth that a late record may refer to with their
  positions, newest first, and a tooth at REFPOS whose reference has not come (R223). -/
  refs  : List Time := []
  recent : List (Time × Option Nat) := []
  miss  : Option Time := none
  /-- The last tooth accepted before the last sync loss: an edge before it belongs to the time before the loss (R223). -/
  lostT : Option Time := none
  /-- The last tooth at the lowest physical position, and the last two cycle times (R230). -/
  lowT  : Option Time := none
  cyc   : List Nat := []
  /-- The last tooth at the lowest physical position in either direction, from which the edges are numbered (R244). -/
  numT  : Option Time := none
  /-- Secondary edges whose interval is not closed, each with whether STATE was SYNC, and the number of the next one, and
  of the next one of the cycle before (R243, R244). -/
  secs  : List (Time × Bool) := []
  secJ  : Nat := 0
  secPrev : Nat := 0
  recs  : List CapRec := []
  slots : SMap WSlot := []
  deriving DecidableEq, Repr

/-- A variable-reluctance front end (R215): armed, and the last positive peak in units of 20 mV. -/
structure VrFront where
  armed : Bool := false
  peak  : Nat := 0
  deriving DecidableEq, Repr

/-! ### Sheave units (R255 to R290) -/

/-- A qualified edge on its way to a sheave unit (R261, R263): the line (0 A, 1 B, 2 Z), the new level, the stamp that
the dead time has not withheld, the sample boundary in Mast cycles and FILT of its port. -/
structure ShvEdge where
  line  : Nat
  level : Bool
  stamp : Option Time
  bound : Nat
  filt  : Nat
  deriving DecidableEq, Repr

/-- The tracking of one line for adaptation (R271): its direction, pairs, extremes, and the cosine code of the pair
with the largest s. -/
structure ShvLine where
  rev   : Bool
  pairs : Nat := 0
  smax  : Int := -32768
  smin  : Int := 32767
  cmax  : Int := -32768
  cmin  : Int := 32767
  cpk   : Int := 0
  deriving DecidableEq, Repr

/-- A sheave unit beyond its registers. -/
structure Sheave where
  /-- The decoder's state of A and B, and the comparators' quadrant with whether it is to be taken afresh (R269). -/
  a     : Bool := false
  b     : Bool := false
  quad  : Nat := 0
  fresh : Bool := true
  edges : List ShvEdge := []
  /-- A load and compare writes that wait for the sample boundary (R275, R281). -/
  load  : Option Nat := none
  cmpw  : SMap DWord := []
  /-- The speed reference and the last step since enable: time and position (R276, R277). -/
  ref   : Option (Time × Nat) := none
  last  : Option (Time × Nat) := none
  /-- The Mast cycle of the last step's boundary (R278), and the next speed window end (R276). -/
  lastB : Option Nat := none
  winAt : Option Nat := none
  idxPrev : Nat := 0
  /-- Compares that are blocked (R280). -/
  block : List Nat := []
  /-- Consecutive pairs outside, inside the limits; the signal is lost (R268); consecutive large steps (R270). -/
  badN  : Nat := 0
  goodN : Nat := 0
  lost  : Bool := false
  fastN : Nat := 0
  line  : Option ShvLine := none
  /-- Frame starts to come and the start of the frame in progress, in Mast cycles, and the data bits sampled so far (R272). -/
  starts : List Nat := []
  frame : Option Nat := none
  bits  : List Bool := []
  /-- The tick boundary whose records and window end the unit has made (R276, R283). -/
  tickT : Option Time := none
  /-- No frame and no load since enable (R274, R275). -/
  first : Bool := false
  recs  : List CapRec := []
  deriving DecidableEq, Repr


/-! ### Coil engines (R87 to R171, R539) -/

/-- A checked image (R132, R135): base, length, entry offset and declared budget. -/
structure Image where
  base  : Nat := 0
  len   : Nat := 0
  entry : Nat := 0
  decl  : Nat := 0
  deriving DecidableEq, Repr

/-- A checkpoint (R152): g1 to g15, ESTAT, PBASE, D and the seal's tick and engine cycle. -/
structure Checkpoint where
  g     : SMap DWord := []
  estat : Nat := 0
  pbase : Nat := 0
  decl  : Nat := 0
  tick  : Nat := 0
  ec    : Nat := 0
  /-- What the checkpoint store's ECC finds when it is read: 0 no error, 1 a single-bit one, 2 a double-bit one (R142, R154). -/
  err   : Nat := 0
  deriving DecidableEq, Repr

/-- An entry of the loop stack (R113). -/
structure Loop where
  start : Nat
  stop  : Nat
  count : Nat
  index : Nat
  depth : Nat
  deriving DecidableEq, Repr

/-- A far access that waits for its grant (R108, R109): store or load, register, size code, sign extension, pair,
address, issue cycle and window in engine cycles. -/
structure Far where
  store : Bool
  reg   : Nat
  size  : Nat
  sgn   : Bool
  pair  : Bool
  addr  : Nat
  c0    : Nat
  win   : Nat
  deriving DecidableEq, Repr

/-- The states of R131 that the model stores; OFF and HELD follow from the power domain and COIL_CTRL.HOLD. -/
inductive EngState where
  | idle | running | faulted | spare | standin
  deriving DecidableEq, Repr

/-- An engine's run of its tick program (R142, R155). -/
structure Run where
  /-- The run belongs to this tick, with its boundary and its period (R155). -/
  tick    : Nat
  ttime   : Time
  period  : Nat
  /-- The absolute engine cycle and the time of the run's engine cycle 0. -/
  ec0     : Nat
  time0   : Time
  /-- A detached run (R155). -/
  det     : Bool
  /-- The engine cycle in which the next instruction issues, and whether one has issued. -/
  ec      : Nat := 8
  issued  : Bool := false
  pc      : Nat
  calls   : List Nat := []
  loops   : List Loop := []
  batch   : List Action := []
  far     : Option Far := none
  deriving DecidableEq, Repr

/-- A Coil engine. -/
structure Engine where
  st      : EngState := .idle
  g       : SMap DWord := []
  estat   : Nat := 0
  evin    : Nat := 0
  image   : Image := {}
  ck      : Checkpoint := {}
  pendImg : Option Image := none
  /-- A check in progress: the image base and the Mast cycle of the LOAD (R135). -/
  check   : Option (Nat × Nat) := none
  run     : Option Run := none
  /-- A tick program is due at ec 8 of the tick whose boundary has fallen (R142). -/
  toRun   : Bool := false
  /-- A STEP has been written (R162), and a step is in progress under HOLD (R131). -/
  step    : Bool := false
  /-- HOLD as it applied at the last boundary or start (R162). -/
  held    : Bool := false
  stepping : Bool := false
  /-- The fault instant t0 as an absolute engine cycle, until the reset of R147. -/
  resetAt : Option Nat := none
  /-- Unwritten trace entries, oldest first (R165). -/
  trace   : List DWord := []
  /-- Unwritten lines of dry seals with their addresses, oldest first (R163). -/
  dry     : List (Nat × List Byte) := []
  deriving DecidableEq, Repr

/-- CE16 beyond its engine: the engine it stands in for, a takeover in progress with its t0, its step and the
interrupted run, and the next detached run (R153 to R156). -/
structure Spare where
  standFor : Option Nat := none
  /-- The engine of a stand-in that a fault has ended, until the reset of t0 + 1 mc (R539). -/
  ended    : Option Nat := none
  taking   : Option (Nat × Nat) := none
  taken    : Option Run := none
  /-- The next detached run: its absolute engine cycle 0, tick, boundary and period. -/
  nextRun  : Option (Nat × Nat × Time × Nat) := none
  recovery : Bool := false
  deriving DecidableEq, Repr

/-- A cleat lock (R146): its holder and its ABANDONED flag. -/
structure Lock where
  held : Option Nat := none
  aband : Bool := false
  deriving DecidableEq, Repr

/-- A lock request in the present Mast cycle: its engine cycle, lock, engine number and instance, the register that TRYL writes,
none for a release, whether the release is that of a reset or by force, and the lock as it stood before the first request of the
Mast cycle (R119, R120, R147, R148). -/
structure LockReq where
  cyc   : Nat
  lock  : Nat
  num   : Nat
  inst  : Nat := 0
  rd    : Option Nat := none
  aband : Bool := false
  was   : Lock := {}
  deriving DecidableEq, Repr

/-- Boundaries issued while CE16 has ticks to catch up: tick, boundary and period, newest first (R155, R156). -/
abbrev TickHist := List (Nat × Time × Nat)

/-- A record on its way to its port: field records from the field end of the Stay link, LVDS records on the internal
path (R77, R79), with the earliest Mast cycle of arrival. -/
structure Transit where
  act   : Action
  ready : Nat
  deriving DecidableEq, Repr

/-! ### Stay link (R16, R77, R492 to R497, R502) -/

/-- What crosses the Stay link in a record slot. -/
inductive StayLoad where
  | act (a : Action)
  | cap (r : CapRec)
  | tooth (t : Tooth)
  deriving DecidableEq, Repr

/-- A record on the Stay link: its link sequence number, its lane, its content (R494) and the Mast cycle of its slot. -/
structure StayRec where
  seq  : Nat
  lane : Nat
  load : StayLoad
  sent : Nat := 0
  deriving DecidableEq, Repr

/-- One direction of the Stay link (R494, R495): the next number to send, the records sent and not yet acknowledged, the
records to be sent again first, the next number to pass on, the records that wait for a missing number with the Mast
cycle of their arrival, and the numbers given up by a wait that expired. -/
structure StayDir where
  next   : Nat := 0
  flight : List StayRec := []
  again  : List StayRec := []
  expect : Nat := 0
  wait   : List (StayRec × Nat) := []
  gaps   : List Nat := []
  deriving DecidableEq, Repr

/-- The Stay link beyond its registers. -/
structure Stay where
  cmd     : StayDir := {}
  ret     : StayDir := {}
  /-- The healthy lane that carries the next record of a failed capture lane (R497). -/
  rot     : Nat := 0
  /-- Lanes declared failed and not yet taken out of use: true the return direction, and lane (R495). -/
  failing : List (Bool × Nat) := []
  /-- Lanes out of use until the Stay link is reset or STAY is switched off and on (R497). -/
  outs    : List (Bool × Nat) := []
  /-- The Mast cycle from which the field die counts LOSSTO (R492, R502). -/
  lostAt  : Option Nat := none
  /-- The Mast cycle at which a retraining began (R502). -/
  trainAt : Option Nat := none
  /-- Register writes that wait in the field-die proxy during a retraining: requester, offset and value (R502). -/
  proxy   : List (Nat × Nat × Word) := []
  deriving DecidableEq, Repr
/-- A fault for the log of R399: class, unit, code and detail. -/
structure FaultRec where
  cls    : Nat
  unit   : Nat
  code   : Nat := 0
  detail : Nat := 0
  deriving DecidableEq, Repr

/-! ### Power (R481 to R500) -/

/-- Power beyond the registers. -/
structure Power where
  /-- The field domains 12 to 14 that are in fact powered, whatever the logic end sees (R541), as bits. -/
  phys    : Nat := 0
  /-- Supplies valid as bits: 0 VCORE, 1 VIO, 2 VLVDS, 3 VPCIE, 4 VAON, 5 VFIELD (R481); VFIELD is above its lockout. -/
  sup     : Nat := 63
  lockout : Bool := false
  /-- SYS_RESET_N is low, and has been for 1 µs (R500). -/
  sysLow  : Bool := false
  /-- The Mast cycle from which the conditions of the main power-on reset have held (R483). -/
  okAt    : Option Nat := none
  /-- Standby (R498), and a reset by SYS_RESET_N (R500) or a loss of VAON before the next power-on (R499). -/
  standby : Bool := false
  sysRst  : Bool := false
  vaonOff : Bool := false
  /-- The domains of the switch sequence in progress with their new state, and the Mast cycle at which the switching of
  the first of them began (R486). -/
  seq     : List (Nat × Bool) := []
  began   : Option Nat := none
  /-- A shutdown notice is on its way to the logic end (R491), and an over-voltage lockout to be reported (R508). -/
  notice  : Bool := false
  ovlo    : Bool := false
  deriving DecidableEq, Repr

/-! ### Flash, boot and vault (R409 to R452) -/

/-- Where the load of a firing record stands (R416, R417). -/
inductive BootPhase where
  | start | headers | pass1 | pass2 | commits | run | ended
  deriving DecidableEq, Repr

/-- The loader: phase, slots still to try, the slot being applied, the offset of the next byte of pass 2, the engine
whose check it waits for, the subsystem IDs and whether retry status has ended (R416 to R422). -/
structure Boot where
  phase   : BootPhase := .start
  order   : List Nat := []
  slot    : Nat := 0
  at_     : Nat := 0
  waitFor : Option Nat := none
  /-- The switch sequence of the record's domains has been requested. -/
  asked   : Bool := false
  subvid  : Nat := 0
  subid   : Nat := 0
  answers : Bool := false
  /-- Slots marked BAD and slots that passed pass 1 or REC_FINISH, as bits (R429). -/
  badS    : Nat := 0
  goodS   : Nat := 0
  /-- The slot with the highest SEQ among those whose MAGIC was correct (R419). -/
  best    : Option Nat := none
  /-- An MGMTFW image has been accepted and runs from DONE on; its VERSION (R430). -/
  fw      : Option Nat := none
  /-- The header of the applied record as read at its load (R449). -/
  header  : List Byte := []
  /-- Replays to do: block codes of R398 and domains (R425). -/
  replays : List (List Nat × List Nat) := []
  /-- The replay in progress: its offset in the record. -/
  replayAt : Option Nat := none
  /-- Chunks that pass 2 has compared with their hashes of pass 1 (R416). -/
  chunk   : Nat := 0
  /-- A part of the MEM section in hand has been refused (R417). -/
  refusedMem : Bool := false
  /-- An erase or program of the target slot stands suspended (R431). -/
  suspended : Bool := false
  /-- The flash has been released from deep power-down since t_s (R409). -/
  awake   : Bool := false
  deriving DecidableEq, Repr

/-- A command that the controller sends to the flash: its code and, where it carries one, its address (R409). -/
structure FlashCmd where
  code : Nat
  addr : Option Nat := none
  deriving DecidableEq, Repr

/-- A session that writes a record (R427): the target slot, sectors erased, the offsets and lengths of the data in the staging
buffer, oldest first, the place of the oldest byte there, the offsets and lengths received, and a flash failure. -/
structure RecSession where
  slot   : Nat
  erased : Nat := 0
  buf    : List (Nat × Nat) := []
  head   : Nat := 0
  got    : List (Nat × Nat) := []
  failed : Bool := false
  deriving DecidableEq, Repr

/-- The vault beyond its registers (R434 to R447): fuse groups F0 to F3, the fused owner key digest as a number with
its first byte lowest, the wrapped private half in its fuses, the wrap key in the key register, the values held in the WO
registers by offset, a transition in progress as its target and the values held for it, its abort by a tamper response,
and a trip while the MGMT domain was off (R440). -/
structure Vault where
  f0     : Bool := false
  f1     : Bool := false
  f2     : Bool := false
  f3     : Bool := false
  digest : Nat := 0
  wrapped : List Byte := markWrapped
  key    : BitVec 256 := Config.wrapKey
  held   : SMap Word := []
  go     : Option (Nat × SMap Word) := none
  aborted : Bool := false
  tripOff : Bool := false
  deriving DecidableEq, Repr

/-- An entry of the fault log (R399). -/
structure LogEntry where
  time  : Time
  fault : FaultRec
  deriving DecidableEq, Repr

/-- The Lanyard port and the management controller's log (R385 to R399): the transport strap and the address straps, the
request being executed, its response when the command has run, the response to read with the bytes already clocked,
the last executed frame with its response, and what read transactions have returned, oldest first. -/
structure Lanyard where
  spi    : Bool := false
  addr   : Nat := 0
  /-- Whether the target acknowledged the address of the last I²C transaction (R386). -/
  ack    : Bool := false
  req    : Option (List Byte) := none
  done   : Option (List Byte) := none
  /-- The response that is not ready is that of a command that ran, no repetition and no frame error (R392). -/
  ran    : Bool := false
  resp   : Option (List Byte) := none
  last   : Option (List Byte × List Byte) := none
  log    : List LogEntry := []
  logNew : Bool := false
  session : Option RecSession := none
  /-- A DOMAIN_SET whose sequence has not ended (R400). -/
  switching : Bool := false
  outs   : List (List Byte) := []
  deriving DecidableEq, Repr
/-! ### Halyard DMA (R315 to R343) -/

/-- What a Halyard transaction is (R326). -/
inductive XKind where
  | fetch | read | write | flush
  deriving DecidableEq, Repr

/-- A transaction in flight (R326): its number, channel, kind, address and length, for a read the destination of its
bytes, the address of its descriptor, the bytes of a write, and whether its channel was disabled or stopped under it,
so that what it returns is discarded (R332, R335). -/
structure Xact where
  id   : Nat
  ch   : Nat
  kind : XKind
  addr : Nat
  len  : Nat
  dst  : Nat := 0
  desc : Nat := 0
  data : List Byte := []
  dead : Bool := false
  /-- Dropped by a disable of its channel: nothing follows from its return (R335). -/
  gone : Bool := false
  deriving DecidableEq, Repr

/-- A descriptor that has not completed (R318, R319, R329): its address and fields, the bytes of its reads that have
issued, and the bytes read whose writes have not issued, by destination address, oldest first. -/
structure Desc where
  /-- The number of this fetch: a chain may hold one address twice (R329). -/
  num   : Nat
  at_   : Nat
  src   : Nat
  dst   : Nat
  len   : Nat
  ctrl  : Nat
  next  : Nat
  read  : Nat := 0
  data  : List (Nat × List Byte) := []
  /-- The transfer has started, and its last host write address with a flush read wanted, made or returned (R330). -/
  going : Bool := false
  lastW : Option Nat := none
  flushed : Nat := 0
  /-- The fetch of the descriptor that follows it has begun (R323). -/
  chained : Bool := false
  deriving DecidableEq, Repr

/-- A channel beyond its registers: uncompleted descriptors oldest first, the address of a descriptor to fetch, and the
bytes of a fetched one with its address. -/
structure Chan where
  descs : List Desc := []
  want  : Option Nat := none
  got   : Option (Nat × List Byte) := none
  /-- The descriptors that a bus error has stopped (R333, R339). -/
  old   : List Desc := []
  /-- Destination ranges that a disable left undefined (R335). -/
  undef : List (Nat × Nat) := []
  deriving DecidableEq, Repr

/-- A completion of the present Mast cycle, which a bus error of the same cycle suppresses: channel, descriptor, and CLAST, CDESC,
STATE, CERR and the channel's bit of HLY_REJ as they were (R329, R333). -/
structure DmaComp where
  ch    : Nat
  desc  : Desc
  last  : Nat
  cdesc : Nat
  st    : Nat
  code  : Nat
  rej   : Nat
  deriving DecidableEq, Repr

/-- The Halyard DMA beyond its registers: transactions in flight, the next number, the last channel that issued and the
Mast cycle it did so, plus 1 (R326). -/
structure Halyard where
  xacts : List Xact := []
  next  : Nat := 0
  lastC : Nat := 31
  issued : Nat := 0
  chans : SMap Chan := []
  comps : List DmaComp := []
  deriving DecidableEq, Repr

/-! ### The compatibility translator (R403 to R408) -/

/-- A channel of a timer that a boundary finds enabled: channel, timer, the timer's start time, and the settings that apply
to what that boundary issues (R404, R408). -/
structure LegJob where
  ch    : Nat
  timer : Nat
  start : Time
  per   : Nat
  mode  : Nat
  delay : Nat
  width : Nat
  deriving DecidableEq, Repr

/-- The issue of one boundary: the boundary and its Mast cycle, the period of its tick, the channels of the timers enabled
at it in ascending order, and the timers with a FLUSH (R404, R406). -/
structure LegWin where
  at_    : Time
  mc     : Nat
  period : Nat
  jobs   : List LegJob
  flush  : List Nat
  deriving DecidableEq, Repr

/-- The translator: start boundaries S of the timers that have started, as timer and time, FLUSH requests, and the issue
that is due. -/
structure Legacy where
  starts : SMap Time := []
  flush  : List Nat := []
  win    : Option LegWin := none
  deriving DecidableEq, Repr

/-! ### Forestay (R453 to R478) -/

/-- One Forestay link beyond its registers: the slot counter of its direction out, waiting OP and EVENT frames as type
and payload, the times of calibration (R458), the latest TREE payload, and the OP frames received of an operation. -/
structure FLink where
  slot   : Nat := 0
  ops    : List (Nat × Nat) := []
  evs    : List Nat := []
  sentT  : Option Time := none
  gotLow : Option Nat := none
  gotT   : Option Time := none
  peerT2 : Option Nat := none
  /-- The t1 that the peer's last CALR answers. -/
  ansT1  : Option Time := none
  /-- t1 and t2 of the set whose t3 and t4 are those of the last CALT that has arrived (R458). -/
  pair   : Option (Time × Nat) := none
  tree   : Option Nat := none
  rx     : List Nat := []
  /-- Consecutive frames that have failed framing or CRC (R453). -/
  bad    : Nat := 0
  deriving DecidableEq, Repr

/-- A global operation that waits (R468): its SEQ, KIND, device set, time, argument, and for an ACTION the Mast cycle of its
issue. -/
structure FrsOp where
  seq  : Nat
  kind : Nat
  mask : Nat
  time : Time
  arg  : Nat
  due  : Nat
  deriving DecidableEq, Repr

/-- A frame sent on a link: the link and the frame's 8 symbols (R454). -/
abbrev FrsFrame := Nat × List Byte

/-- The Forestay unit beyond its registers: the links, events to deliver as channel and time, pending operations, the
device's depth, consecutive offsets, those within bounds and the last one in units of 1/64 fc, whether FA has gone down since the
device last joined (R461), and the frames sent, oldest first. -/
structure Forestay where
  links : SMap FLink := []
  evs   : List (Nat × Time) := []
  ops   : List FrsOp := []
  depth : Nat := 0
  offN  : Nat := 0
  goodN : Nat := 0
  ofs   : Int := 0
  again : Bool := false
  sent  : List FrsFrame := []
  deriving DecidableEq, Repr

/-! ### Host link (R373 to R384) -/

/-- The status of a completion: successful, Unsupported Request, Completer Abort, Configuration Request Retry. -/
inductive CplStatus where
  | sc | ur | ca | crs
  deriving DecidableEq, Repr

/-- A completion that the endpoint returned: the request's tag, status, data, and the poisoned bit. -/
structure Cpl where
  tag    : Nat
  status : CplStatus := .sc
  data   : List Byte := []
  bad    : Bool := false
  /-- Data bytes of its request that follow in later completions (R373). -/
  rest   : Nat := 0
  /-- The attributes of its request (R376). -/
  attr   : ReqAttr := {}
  deriving DecidableEq, Repr

/-- A request that the endpoint sent: a posted write of Halyard, a read of Halyard with its tag, or an MSI-X message. -/
inductive HostReq where
  | write (addr : Nat) (data : List Byte)
  | read (tag addr len : Nat)
  | msix (v : Nat)
  deriving DecidableEq, Repr

/-- A request as it left the endpoint, with its attributes (R376). -/
structure Issued where
  req  : HostReq
  attr : ReqAttr
  deriving DecidableEq, Repr

/-- A host memory request that waits its turn in the endpoint (R378): a BAR0 read of n registers with its tag, a BAR0
write, a BAR2 read with its tag, length and cycle of arrival, and a BAR2 write. -/
inductive HostOp where
  | regRead (tag off n : Nat)
  | regWrite (off : Nat) (vals : List Word)
  | memRead (tag addr len since : Nat) (alias_ : Bool)
  | memWrite (addr : Nat) (data : List (Option Byte)) (alias_ : Bool)
  deriving DecidableEq, Repr

/-- Advanced Error Reporting (R373): the status, mask and severity of uncorrectable errors, the status and mask of correctable
ones, and the First Error Pointer. PRESUMED: places and defaults are those of the PCI Express base specification. -/
structure Aer where
  unc      : Nat := 0
  uncMask  : Nat := 0
  uncSev   : Nat := 0x62030
  corr     : Nat := 0
  corrMask : Nat := 0x2000
  first    : Nat := 0
  deriving DecidableEq, Repr

/-- The PCI Express endpoint: what the configuration space controls, and what it has returned and sent, oldest first.
Max Payload Size and Max Read Request Size start at the 128 and 512 bytes of the PCI Express base specification. -/
structure Endpoint where
  linkUp   : Bool := false
  d3       : Bool := false
  memEn    : Bool := false
  busMaster : Bool := false
  mps      : Nat := 128
  mrrs     : Nat := 512
  msixEn   : Bool := false
  funcMask : Bool := false
  bars     : SMap Nat := []
  /-- The MSI-X table words by offset in the table, with vector control resetting to masked, and the PBA (R375). -/
  table    : SMap Word := []
  pba      : List Nat := []
  queue    : List HostOp := []
  /-- Requests that the link's flow control holds while the posted buffer is full (R380). -/
  held     : List HostOp := []
  cpls     : List Cpl := []
  sent     : List Issued := []
  /-- The Requester ID that the host has assigned, and the attributes of requests that wait for their completion, by tag
  (R376). -/
  rid      : Fin (2 ^ 16) := 0
  asked    : SMap ReqAttr := []
  /-- The link's trained rate and width as exponents (2.5, 5, 8 GT/s; x1, x2, x4), and L1 enabled (R373). -/
  rate     : Nat := 0
  lanes    : Nat := 0
  aspmL1   : Bool := false
  aer      : Aer := {}
  deriving DecidableEq, Repr


/-! ### The whole device -/

/-- The state of the device. -/
structure State where
  /-- Registers by BAR0 offset; an unlisted offset reads as the reset value of its register (R8, R9). -/
  regs    : SMap Word := []
  /-- Staged values of RWS fields by BAR0 offset, reset values where unlisted (R11). -/
  staged  : SMap Word := []
  /-- Events that hardware recorded in the present Mast cycle, by 32 × offset + bit of the field (R15, R30, R206). -/
  hwNow   : SMap Nat := []
  /-- The bytes of the banks; an unlisted byte reads 0, which the clear of R352 leaves. -/
  mem     : List Host.Cell := []
  /-- ECC words with inverted stored bits: word address and mask (R348, R354). -/
  upset   : SMap Nat := []
  banks   : SMap Bank := []
  kln     : Kiln := {}
  rig     : Rigging := {}
  ports   : SMap Port := []
  engines : SMap Engine := []
  spare   : Spare := {}
  locks   : SMap Lock := []
  lockNow : List LockReq := []
  ticks   : TickHist := []
  wheels  : SMap Tracker := []
  vr      : SMap VrFront := []
  /-- Tooth records that wait at the field end of the Stay link, and those on their way to their tracker (R213). -/
  teeth   : List Tooth := []
  toothPath : List Tooth := []
  sheaves : SMap Sheave := []
  hly     : Halyard := {}
  lgc     : Legacy := {}
  frs     : Forestay := {}
  /-- Faults that the management controller has not logged yet, oldest first (R399). -/
  faults  : List FaultRec := []
  /-- The Stay send queues of all owners, in the order of hand-over, with the Mast cycle from which a slot may take the
  record (R72, R143, R144). -/
  sendq   : List Transit := []
  transit : List Transit := []
  ep      : Endpoint := {}
  stay    : Stay := {}
  pwr     : Power := {}
  /-- The flash of the firing records; an unlisted byte is erased (R409, R410). -/
  flash   : SMap Byte := []
  /-- The commands sent to the flash, oldest first (R409). -/
  flashOut : List FlashCmd := []
  boot    : Boot := {}
  vault   : Vault := {}
  lan     : Lanyard := {}
  /-- How many free values have been drawn: the model's own field, on whose value nothing rests. -/
  free    : Nat := 0
  pending : List Instr := []
  deriving DecidableEq, Repr

/-- The device at t_s of a main power-on reset (R352, R420, R483): the MGMT domain has just been declared on, every
register holds the reset value of the register map, and its banks SGM and SGS clear for 512 and 256 engine
cycles from the Mast cycle numbered 0. The challenge is random, and takes the
first eight free values (R445, R452). Every supply is valid and no fuse is burnt; no command waits. -/
def State.reset : State := {
  regs := (Reg.SAG_BUSY, 0x180) :: (List.range 8).map fun k => (Reg.VLT_CHAL k, (Config.freeValue k).setWidth 32)
  free := 8
  banks := [(7, { freeAt := 512, clearTo := 512 }), (8, { freeAt := 256, clearTo := 256 })] }

end Sys2Proof.Machine
end

