-- ==== Sys2Proof/Machine/Ops.lean ====
section
/-! DEFINITION. Named operations over registers, time, refusals and power domains. -/

namespace Sys2Proof.Machine

open Sys2Proof Reg

/-! ### The register map -/

/-- Which word of row r the offset names: 0 the low or only word, 1 the high word of a 64-bit register (R8). -/
def rowPart (r : Row) (off : Nat) : Option Nat :=
  if off < r.base then none else
  let d := off - r.base
  let i := if r.n1 = 1 then 0 else d / r.s1
  let d := d - i * r.s1
  let j := if r.n2 = 1 then 0 else d / r.s2
  let d := d - j * r.s2
  if r.n1 ≤ i || r.n2 ≤ j then none
  else if d = 0 then some 0
  else if d = 4 && r.wide then some 1 else none

/-- The row of the register map that holds the offset, with the part of it. -/
def findRow : List Row → Nat → Option (Row × Nat)
  | [], _ => none
  | r :: rs, off => match rowPart r off with
    | some p => some (r, p)
    | none => findRow rs off

/-- The register map's row of a BAR0 offset (R18). -/
def rowAt (off : Nat) : Option (Row × Nat) := findRow (rowsOf (off / 0x10000)) off

/-- The word of a 64-bit mask or value that part p names. -/
def partOf (v p : Nat) : Nat := (v >>> (32 * p)) % 2 ^ 32

/-- The reset value of the register at an offset; an offset that holds no register reads 0 (R7, R9). -/
def resetWord (off : Nat) : Word :=
  match rowAt off with
  | some (r, p) => BitVec.ofNat 32 (partOf r.reset p)
  | none => 0

/-- A register as it stands. -/
def State.reg (s : State) (off : Nat) : Word := mget s.regs off (resetWord off)

/-- Set a whole register. -/
def State.setReg (s : State) (off : Nat) (v : Word) : State :=
  { s with regs := mset s.regs off v (resetWord off) }

/-- Bits [lo + w − 1 : lo] of a number. -/
def bitsOf (v lo w : Nat) : Nat := (v >>> lo) % 2 ^ w

/-- A number with bits [lo + w − 1 : lo] replaced. -/
def setBits (v lo w x : Nat) : Nat := v - (bitsOf v lo w <<< lo) + ((x % 2 ^ w) <<< lo)

/-- The 64 bits at an offset, low word first (R8). -/
def State.reg64 (s : State) (off : Nat) : Nat := (s.reg off).toNat + (s.reg (off + 4)).toNat * 2 ^ 32

/-- Set the 64 bits at an offset. -/
def State.setReg64 (s : State) (off v : Nat) : State :=
  (s.setReg off (BitVec.ofNat 32 v)).setReg (off + 4) (BitVec.ofNat 32 (v >>> 32))

/-- A register field. -/
def State.f (s : State) (F : Fld) : Nat :=
  if F.lo + F.w ≤ 32 then bitsOf (s.reg F.off).toNat F.lo F.w else bitsOf (s.reg64 F.off) F.lo F.w

/-- Set a register field. -/
def State.setF (s : State) (F : Fld) (v : Nat) : State :=
  if F.lo + F.w ≤ 32 then s.setReg F.off (BitVec.ofNat 32 (setBits (s.reg F.off).toNat F.lo F.w v))
  else s.setReg64 F.off (setBits (s.reg64 F.off) F.lo F.w v)

/-- A one-bit field as a truth value. -/
def State.flag (s : State) (F : Fld) : Bool := s.f F != 0

/-- The staged value of a register (R11). -/
def State.stg (s : State) (off : Nat) : Word := mget s.staged off (resetWord off)

/-- Set the staged value of a register. -/
def State.setStg (s : State) (off : Nat) (v : Word) : State :=
  { s with staged := mset s.staged off v (resetWord off) }

/-! ### Events of the present Mast cycle -/

/-- The key under which the events of a field are noted. -/
def evKey (F : Fld) : Nat := 32 * F.off + F.lo

/-- Note one hardware event of a field in the present Mast cycle. -/
def State.note (s : State) (F : Fld) : State :=
  { s with hwNow := mset s.hwNow (evKey F) (mget s.hwNow (evKey F) 0 + 1) 0 }

/-- How many events of a field fell in the present Mast cycle. -/
def State.noted (s : State) (F : Fld) : Nat := mget s.hwNow (evKey F) 0

/-- Hardware sets a status bit; a clear in the same cycle leaves it set (R15). -/
def State.raise (s : State) (F : Fld) : State := (s.setF F 1).note F

/-- The greatest value of a field. -/
def fmax (F : Fld) : Nat := 2 ^ F.w - 1

/-- Count one event in a field that saturates at its greatest value. -/
def State.bump (s : State) (F : Fld) : State := (s.setF F (min (s.f F + 1) (fmax F))).note F

/-- Clear a count; the events of the same cycle are counted after the clear (R30, R206, R311). -/
def State.clearCnt (s : State) (F : Fld) : State := s.setF F (min (s.noted F) (fmax F))

/-! ### Refusals (R383, R384) -/

/-- A refusal: WERR is set, the count rises, and the requester and the address are recorded (R383, R384). -/
def werr (req addr : Nat) (s : State) : State :=
  (((s.raise GLB_WERR_WERR).bump GLB_WERR_COUNT).setF GLB_WERR_REQ req).setReg GLB_WERRADDR (BitVec.ofNat 32 addr)

/-- The code GLB_WERR.REQ gives a check made at a boundary or an enable (R383). -/
def reqCheck : Nat := 4

/-! ### Time -/

/-- The count at the start of the present Mast cycle (R40). -/
def State.now (s : State) : Time := s.kln.count

/-- The present Mast cycle. -/
def State.mc (s : State) : Nat := s.kln.mc

/-- The timebase runs: RUN is 1 and the start value has been loaded (R41). -/
def State.running (s : State) : Bool := s.flag MST_CTRL_RUN && !s.kln.loadSet

/-- Ticks are issued (R82). -/
def State.ticking (s : State) : Bool := s.flag KLN_STATUS_TICKING

/-- t lies in the future of n (R42). -/
def future (t n : Time) : Bool := t != n && decide ((t - n).toNat < 2 ^ 63)

/-- t is n or lies in its past (R42). -/
def reached (t n : Time) : Bool := !future t n

/-- t falls in the present Mast cycle or before it. -/
def State.dueFc (s : State) (t : Time) : Bool := future (s.now + 256) t

/-- A number of fine counts as a time. -/
def fc (n : Nat) : Time := BitVec.ofNat 64 n

/-- The boundary that ends the present Mast cycle. -/
def State.close (s : State) : Time := s.now + 256

/-- The time at port p in the present Mast cycle: a field port follows the field copy, which runs on in holdover when the
link to the logic die is lost (R492). -/
def State.pnow (s : State) (p : Nat) : Time := match s.kln.copy with
  | some c => if p < 64 then c.1 else s.now
  | none => s.now

/-- The timebase that port p follows runs. -/
def State.prunning (s : State) (p : Nat) : Bool := match s.kln.copy with
  | some c => if p < 64 then c.2 else s.running
  | none => s.running

/-- The boundary that ends the present Mast cycle, and whether a time falls in it or before it, at port p. -/
def State.pclose (s : State) (p : Nat) : Time := s.pnow p + 256
def State.pdue (s : State) (p : Nat) (t : Time) : Bool := future (s.pnow p + 256) t

/-- The tick number in force (R85). -/
def State.tick (s : State) : Nat := s.f KLN_TICKCNT_COUNT

/-- The boundary that is due at a time t of the present or the next Mast cycle (R57, R59). -/
def State.boundaryBy (s : State) (t : Time) : Option Time :=
  if !s.running || !s.flag KLN_CTRL_RUN then none
  else if s.ticking then (if reached s.kln.next t then some s.kln.next else none)
  else match s.kln.first with
    | some u => if reached u t then some u else none
    | none => none

/-- The number of the tick that the next boundary begins (R59, R61). -/
def State.tickAfter (s : State) : Nat := if s.kln.issued then (s.tick + 1) % 2 ^ 64 else 0

/-- The tick number in force in the present Mast cycle: a tick boundary that falls at its start has begun its tick, also where
its command is still to come (R22, R61). -/
def State.tickNow (s : State) : Nat := if (s.boundaryBy s.now).isSome then s.tickAfter else s.tick

/-- The tick number in force in the cycle that the closing Mast boundary begins (R22, R61). -/
def State.tickClose (s : State) : Nat := if (s.boundaryBy s.close).isSome then s.tickAfter else s.tick

/-! ### Free values -/

/-- A value that the spec leaves open; the next one is another. -/
def State.drawn (s : State) : DWord := Config.freeValue s.free
def State.draw (s : State) : State := { s with free := s.free + 1 }

/-! ### Power domains (R485) -/

/-- Domain d is on (R507). -/
def State.on (s : State) (d : Nat) : Bool := (s.f GLB_PWRSTAT_ON).testBit d

/-- The domains by number (R485). -/
def dHOST : Nat := 2
def dKILN : Nat := 3
def dCL (b : Nat) : Nat := 4 + b
def dDMA : Nat := 8
def dLVDS : Nat := 9
def dSTAY : Nat := 10
def dFRST : Nat := 11
def dFCORE : Nat := 12
def dFBANKA : Nat := 13
def dFBANKB : Nat := 14

/-- Domain d is powered in fact: after a loss of the Stay link the field die may still power a domain that the
logic end sees as off (R541). -/
def State.phys (s : State) (d : Nat) : Bool := if d < 12 then s.on d else s.pwr.phys.testBit d

/-- The link carries records and pulses (R16, R502). -/
def State.linked (s : State) : Bool := s.on dFCORE && s.flag STY_STATUS_LINK && s.stay.trainAt.isNone

/-- The domain of port p (R17). -/
def portDom (p : Nat) : Nat := if p < 32 then dFBANKA else if p < 64 then dFBANKB else dLVDS

/-! ### The fault log (R399) -/

/-- A fault that the management controller is to log; it logs nothing while its domain is off. -/
def logFault (cls unit code detail : Nat) (s : State) : State :=
  if s.on 1 then { s with faults := s.faults ++ [⟨cls, unit, code, detail % 2 ^ 32⟩] } else s

/-! ### Host requests (R376) -/

/-- The endpoint sends a request: it carries the Requester ID that the host has assigned, Traffic Class 0, and clear Relaxed
Ordering and No Snoop attributes (R376). -/
def hostSend (r : HostReq) (s : State) : State := { s with ep.sent := s.ep.sent ++ [⟨r, { rid := s.ep.rid }⟩] }

/-! ### Ownership (R26, R32) -/

/-- The owner code (R74) of port p, or 0x1F where the port has none. -/
def State.ownerOf (s : State) (p : Nat) : Nat :=
  let i := s.f (GLB_PORTOWN_INDEX p)
  match s.f (GLB_PORTOWN_TYPE p) with
  | 1 => i
  | 2 => 0x10 + i
  | 3 => 0x14 + i
  | _ => 0x1F

end Sys2Proof.Machine
end

