-- ==== Sys2Proof/Machine/Banks.lean ====
section
/-! DEFINITION. The Saggar banks: addresses, ECC words, reads and writes with their error effects (R344 to R354). -/

namespace Sys2Proof.Machine

open Sys2Proof Reg

/-- Where the model keeps SGM and SGS, which have no internal address (R19). -/
def sgmBase : Nat := 0x10000000
def sgsBase : Nat := 0x11000000

/-- The base, size and ECC word size in bytes of each bank (R344). -/
def bankBase : Nat → Nat
  | 4 => 0x100000 | 5 => 0x400000 | 6 => 0x200000 | 7 => sgmBase | 8 => sgsBase | b => b * 0x40000
def bankSize : Nat → Nat
  | 4 => 0x80000 | 5 => 0x400000 | 6 => 0x8000 | 7 => 0x20000 | 8 => 0x10000 | _ => 0x40000
def eccSize (b : Nat) : Nat := if b = 6 then 4 else 8

/-- The power domain of a bank (R344). -/
def bankDom : Nat → Nat
  | 4 => dHOST | 5 => dDMA | 6 => dKILN | 7 => 1 | 8 => 1 | b => dCL b

/-- The bank that holds a byte (R344). -/
def bankOf (a : Nat) : Option Nat :=
  (List.range 9).find? fun b => decide (bankBase b ≤ a) && decide (a < bankBase b + bankSize b)

/-- The time a bank's clear takes in engine cycles: 256 bytes per ec (R352). -/
def clearEc (b : Nat) : Nat := bankSize b / 256

/-- One byte as it is meant to be; an unlisted byte is 0, as the clear of R352 leaves it. -/
def State.byte (s : State) (a : Nat) : Byte := mget s.mem a 0

/-- Set one byte. -/
def State.setByte (s : State) (a : Nat) (v : Byte) : State := { s with mem := mset s.mem a v 0 }

/-- The number with the bytes of a list, first byte lowest (R6). -/
def leNat : List Byte → Nat
  | [] => 0
  | b :: l => b.toNat + 256 * leNat l

/-- The n bytes of a number, lowest first (R6). -/
def leBytes : Nat → Nat → List Byte
  | 0, _ => []
  | n + 1, v => BitVec.ofNat 8 v :: leBytes n (v / 256)

/-! ### The CRC of R390 -/

/-- One bit step of the CRC-16 of R390. -/
def crc16Step (c : Nat) : Nat := if c.testBit 15 then ((2 * c) % 2 ^ 16) ^^^ 0x1021 else (2 * c) % 2 ^ 16

/-- One byte into the CRC-16 of R390. -/
def crc16Byte (c : Nat) (b : Byte) : Nat := (List.range 8).foldl (fun c _ => crc16Step c) (c ^^^ (b.toNat * 2 ^ 8))

/-- CRC-16 with polynomial 0x1021 and initial value 0xFFFF (R390). -/
def crc16 (l : List Byte) : Nat := l.foldl crc16Byte 0xFFFF

/-- A frame with its CRC, low byte first (R390). -/
def withCrc (l : List Byte) : List Byte := l ++ leBytes 2 (crc16 l)

/-- n bytes at an address, as they are meant to be. -/
def State.bytes (s : State) (a n : Nat) : List Byte := (List.range n).map fun i => s.byte (a + i)

/-- n bytes at an address as a number (R6). -/
def State.memNat (s : State) (a n : Nat) : Nat := leNat (s.bytes a n)

/-- Write bytes at an address, without ECC effects. -/
def State.poke (s : State) (a : Nat) : List Byte → State
  | [] => s
  | b :: l => (s.setByte a b).poke (a + 1) l

/-- The bits of an ECC word that are inverted in the array. -/
def State.upsetOf (s : State) (w : Nat) : Nat := mget s.upset w 0

/-- How many bits are set in the low n bits. -/
def popBits (n v : Nat) : Nat := ((List.range n).filter v.testBit).length

/-- A word's error: 0 none, 1 correctable, 2 uncorrectable (R348, R349). -/
def State.wordErr (s : State) (w : Nat) : Nat := min 2 (popBits 64 (s.upsetOf w))

/-- Bit b of a field of one bit per bank. -/
def bitFld (F : Fld) (b : Nat) : Fld := ⟨F.off, F.lo + b, 1⟩

/-- Count and flag a corrected error of bank b (R348). -/
def countCorr (b : Nat) (s : State) : State := (s.bump (SAG_ECC_CORR b)).raise (bitFld SAG_STATUS_CORR b)

/-- The address that SAG_ECCADDR records: internal, or within the bank for SGM and SGS (R369). -/
def eccAddr (b w : Nat) : Nat := if 7 ≤ b then w - bankBase b else w

/-- Count, flag and record an uncorrectable error of bank b found by requester r (R349). -/
def countUnc (b r w : Nat) (s : State) : State :=
  let s := ((((s.bump (SAG_ECC_UNC b)).raise (bitFld SAG_STATUS_UNC b)).setF (SAG_ECC_REQ b) r)).setReg
    (SAG_ECCADDR b) (BitVec.ofNat 32 (eccAddr b w))
  logFault 5 b r (eccAddr b w) s

/-- The addresses of the ECC words of size z that hold the n bytes at a. -/
def wordsAt (z a n : Nat) : List Nat :=
  if n = 0 then [] else (List.range ((a % z + n + z - 1) / z)).map fun i => a / z * z + i * z

/-- What a read by requester r does to the error records of one word (R348, R349). -/
def readWordErr (b r : Nat) (s : State) (w : Nat) : State :=
  match s.wordErr w with
  | 0 => s
  | 1 => countCorr b s
  | _ => countUnc b r w s

/-- A byte as a read returns it: corrected, or as stored in a word with an uncorrectable error (R348, R349). -/
def State.readByte (s : State) (z a : Nat) : Byte :=
  let w := a / z * z
  if s.wordErr w < 2 then s.byte a
  else s.byte a ^^^ BitVec.ofNat 8 (s.upsetOf w >>> (8 * (a % z)))

/-- A read of n bytes at a in bank b by requester r: the bytes, whether an uncorrectable error was found, and the
state with the error records (R348, R349). -/
def bankRead (b r a n : Nat) (s : State) : List Byte × Bool × State :=
  let z := eccSize b
  let ws := wordsAt z a n
  ((List.range n).map fun i => s.readByte z (a + i), ws.any fun w => s.wordErr w == 2, ws.foldl (readWordErr b r) s)

/-- The injection of R354 strikes a whole-word write to bank b: one or two data bits are stored inverted. -/
def inject (b w : Nat) (s : State) : State :=
  if s.flag SAG_ECCINJ_ARM && s.f SAG_ECCINJ_BANK = b then
    let s := { s with upset := mset s.upset w (if s.flag SAG_ECCINJ_DOUBLE then 3 else 1) 0 }
    s.setF SAG_ECCINJ_ARM 0
  else s

/-- The enabled bytes of a write that fall in the word [w, w + z). -/
def bytesIn (w z a : Nat) (d : List (Option Byte)) : List (Nat × Byte) :=
  (d.zipIdx.filterMap fun p => p.1.map fun v => (a + p.2, v)).filter fun q => decide (w ≤ q.1) && decide (q.1 < w + z)

/-- A write to one ECC word (R350): whole, or merged after correction, or discarded on an uncorrectable error. -/
def writeWord (b r a : Nat) (d : List (Option Byte)) (s : State) (w : Nat) : State :=
  let z := eccSize b
  let bs := bytesIn w z a d
  let put := fun s : State => bs.foldl (fun (s : State) q => s.setByte q.1 q.2) s
  if bs.length = z then
    inject b w { put s with upset := mset (put s).upset w 0 0 }
  else if bs = [] then s
  else match s.wordErr w with
    | 0 => put s
    | 1 => countCorr b (put { s with upset := mset s.upset w 0 0 })
    | _ => countUnc b r w s

/-- A write of bytes, some of them not enabled, at a in bank b by requester r (R350). -/
def bankWrite (b r a : Nat) (d : List (Option Byte)) (s : State) : State :=
  (wordsAt (eccSize b) a d.length).foldl (writeWord b r a d) s

/-- Bank b as it stands. -/
def State.bank (s : State) (b : Nat) : Bank := mget s.banks b {}

/-- Change bank b. -/
def State.modBank (s : State) (b : Nat) (f : Bank → Bank) : State := { s with banks := mmod s.banks b {} f }

/-- The banks that BAR2 reaches. -/
def hostBank (a : Nat) : Option Nat := match bankOf a with
  | some b => if b < 7 then some b else none
  | none => none

/-- The HOST request number at bank b: it is the owner of SGH (R344, R357). -/
def hostReq (b : Nat) : Nat := if b = 4 then 0 else 6

/-- The BAR2 offset of an access, for a refusal (R384). -/
def bar2Ref (a : Nat) (al : Bool) : Nat := 0x80000000 + a + if al then 0x2000000 else 0

/-- The parts of an alias access of at most 8 bytes at a: what lies before the end of its bank or hole, and the rest (R356). -/
def aliasParts (a n : Nat) : List (Nat × Nat) :=
  let k := min n (0x8000 - a % 0x8000)
  [(a, k), (a + k, n - k)].filter fun p => p.2 != 0

/-- The bank that performs an alias access: the first of the access that is on and takes it (R346, R356). -/
def State.aliasBank (s : State) (write : Bool) (a n : Nat) : Option Nat :=
  ((aliasParts a n).filterMap fun p => hostBank p.1).find? fun b => s.on (bankDom b) && !(write && b == 5)

/-- A part of a host read: zero in a hole, 0xFF in a bank whose domain is off (R346). -/
def hostGet (a n : Nat) (s : State) : List Byte × Bool × State := match hostBank a with
  | none => (List.replicate n 0, false, s)
  | some b => if s.on (bankDom b) then bankRead b (hostReq b) a n s else (List.replicate n 0xFF, false, s)

/-- Every word of bank b is written with zero and valid check bits (R352). -/
def zeroBank (b : Nat) (s : State) : State :=
  let lo := bankBase b
  { s with mem := mclear s.mem lo (lo + bankSize b), upset := mclear s.upset lo (lo + bankSize b) }

/-- The clear of bank b begins when its domain turns on, or the wipe of SGS (R352, R353). -/
def startClear (b : Nat) (s : State) : State :=
  let s := (zeroBank b s).setF (bitFld SAG_BUSY_CLEARING b) 1
  s.modBank b fun x => { x with clearTo := 4 * s.mc + clearEc b, freeAt := 4 * s.mc + clearEc b }

/-- Bank b can grant: its domain is on and it neither clears nor wipes (R347, R352). -/
def State.bankUp (s : State) (b : Nat) : Bool := s.on (bankDom b) && !s.flag (bitFld SAG_BUSY_CLEARING b)

end Sys2Proof.Machine
end

