-- ==== Sys2Proof/Machine/Guard.lean ====
section
/-! DEFINITION. The bytes that no write reaches: protected images, and tooth table entries that a tracker learns
(R133, R134, R219). -/

namespace Sys2Proof.Machine

open Sys2Proof Reg

/-- Engine e; CE16 starts as SPARE (R131). -/
def engDefault (e : Nat) : Engine := if e = 16 then { st := .spare } else {}
def State.eng (s : State) (e : Nat) : Engine := mget s.engines e (engDefault e)
def State.setEng (s : State) (e : Nat) (x : Engine) : State := { s with engines := mset s.engines e x (engDefault e) }
def State.modEng (s : State) (e : Nat) (f : Engine → Engine) : State := s.setEng e (f (s.eng e))

/-- The protected ranges of engine e: first byte and length. A checked range covers bytes 0 to 31 at first, and the
whole image from the second Mast cycle of the check, in which LEN is read. DESIGN CHOICE: the image of a FAULTED engine with no
stand-in counts as running until STOP (R134, R151). -/
def State.imagesOf (s : State) (x : Engine) : List (Nat × Nat) :=
  (match x.check with
    | some (b, m) => [(b, if m + 2 ≤ s.mc then max 32 (s.memNat (b + 8) 4) else 32)]
    | none => []) ++
  (match x.pendImg with
    | some i => [(i.base, i.len)]
    | none => []) ++
  (if x.image.len = 0 then [] else [(x.image.base, x.image.len)])

/-- A byte lies in a protected image (R134). -/
def State.guarded (s : State) (a : Nat) : Bool :=
  s.engines.any fun p => (s.imagesOf p.2).any fun r => decide (r.1 ≤ a) && decide (a < r.1 + r.2)

/-- Some byte of a range lies in a protected image. -/
def State.guardedRange (s : State) (a n : Nat) : Bool := (List.range n).any fun i => s.guarded (a + i)

/-- Tracker w is enabled (R247). -/
def State.whlEn (s : State) (w : Nat) : Bool := s.flag (WHL_CTRL_EN w)

/-- The number of positions N of tracker w (R217). -/
def State.teethN (s : State) (w : Nat) : Nat := s.f (WHL_SYNCCFG_NM1 w) + 1

/-- The address of tooth table entry i (R217). -/
def ttAddr (i : Nat) : Nat := 0x200000 + 4 * i

/-- A write of n bytes at a touches the primary region of an enabled tracker that learns (R219). -/
def State.ttLocked (s : State) (a n : Nat) : Bool :=
  (List.range 4).any fun w =>
    s.whlEn w && s.flag (WHL_LEARN_EN w) &&
    decide (a < ttAddr (s.f (WHL_TTCFG_PBASE w) + s.teethN w)) && decide (ttAddr (s.f (WHL_TTCFG_PBASE w)) < a + n)

/-- The enabled bytes of a host write that reach the bank, and whether some were kept out (R134, R219). -/
def State.allowed (s : State) (a : Nat) (d : List (Option Byte)) : List (Option Byte) × Bool :=
  let bad := fun x : Nat => s.guarded x || s.ttLocked x 1
  (d.zipIdx.map fun p => if bad (a + p.2) then none else p.1, d.zipIdx.any fun p => p.1.isSome && bad (a + p.2))

end Sys2Proof.Machine
end

