-- ==== Sys2Proof/Machine/Arbiter.lean ====
section
/-! DEFINITION. The bank arbiters: requests, classes, grants, bursts, withdrawal and scrubbing (R351, R357 to R364). -/

namespace Sys2Proof.Machine

open Sys2Proof Reg

/-- The class of requester r at bank b (R358, R370). -/
def classAt (s : State) (b r : Nat) : Nat :=
  if r = 0 then 3 else if r = 10 then 0 else bitsOf (s.reg (ARB_CLASS b)).toNat (2 * r) 2

/-- The beats of one burst of request q at bank b (R323, R361). -/
def burstLen (s : State) (b : Nat) (q : BankReq) : Nat :=
  if q.r = 0 || q.whole then q.beats
  else if b = 4 then min q.beats (s.f ARB_BURST_SGHB)
  else if b = 5 then min q.beats (s.f ARB_BURST_SGCB)
  else min q.beats 1

/-- Request x is served before request y (R359). -/
def before (s : State) (b : Nat) (x y : BankReq) : Bool :=
  let cx := classAt s b x.r
  let cy := classAt s b y.r
  if cx ≠ cy then decide (cy < cx)
  else if x.stamp ≠ y.stamp then decide (x.stamp < y.stamp)
  else if x.r ≠ y.r then decide (x.r < y.r)
  else if x.src ≠ y.src then decide (x.src < y.src)
  else decide (x.order ≤ y.order)

/-- The request that the arbiter chooses (R359). -/
def choose (s : State) (b : Nat) : List BankReq → Option BankReq
  | [] => none
  | x :: l => match choose s b l with
    | none => some x
    | some y => if before s b x y then some x else some y

/-- The bytes of line k of an access at a of n bytes: first byte and length (R345). -/
def lineSpan (a n k : Nat) : Nat × Nat :=
  let lo := max a (16 * (a / 16 + k))
  let hi := min (a + n) (16 * (a / 16 + k + 1))
  (lo, hi - lo)

/-- The lines that n bytes at a touch. -/
def linesOf (a n : Nat) : Nat := if n = 0 then 1 else (a % 16 + n + 15) / 16

/-- A request arrives at bank b. On an idle bank the arbiter's decision in the cycle of its arrival grants it (R359, R360). -/
def postReq (b : Nat) (q : BankReq) (s : State) : State :=
  s.modBank b fun x => { x with order := x.order + 1, pend := x.pend ++ [{ q with order := x.order }] }

/-- The owner of bank b takes beats of its own bank for n bytes at a (R357). -/
def ownerBeats (b a n : Nat) (s : State) : State :=
  postReq b { r := 0, stamp := 4 * s.mc, beats := linesOf a n, use := .occupy } s

/-- A scrub beat (R351): a correctable word is stored corrected, an uncorrectable one is recorded. -/
def scrubLine (b a : Nat) (s : State) : State :=
  (wordsAt (eccSize b) a 16).foldl (init := s) fun s w =>
    match s.wordErr w with
    | 0 => s
    | 1 => countCorr b { s with upset := mset s.upset w 0 0 }
    | _ => countUnc b 10 w s

/-- The engine whose trace ring, TRACE, DRY and HOLD settings instance e follows (R161). -/
def State.rights (s : State) (e : Nat) : Nat := if e = 16 then s.spare.standFor.getD 16 else e

/-- Write the oldest trace entry of engine e to its ring (R165). DESIGN CHOICE: entries that CE16 still holds when its stand-in
ends go to the ring of the CE16 instance. -/
def traceWrite (e : Nat) (s : State) : State :=
  match (s.eng e).trace with
  | [] => s
  | w :: l =>
    let n := s.rights e
    let ptr := s.f (COIL_TRPTR_PTR n)
    let s := bankWrite 4 9 (s.f (COIL_TRBASE_BASE n) + 8 * ptr) ((leBytes 8 w.toNat).map some) s
    let s := s.setF (COIL_TRPTR_PTR n) ((ptr + 1) % 2 ^ s.f (COIL_TRLEN_LOG2 n))
    s.modEng e fun x => { x with trace := l }

/-- Write the oldest line of engine e's dry seals (R163). -/
def dryLine (e : Nat) (s : State) : State :=
  match (s.eng e).dry with
  | [] => s
  | (a, d) :: l => (bankWrite 4 9 a (d.map some) s).modEng e fun x => { x with dry := l }

/-- Uncorrectable error k is noted (R373): an error of non-fatal severity also as an advisory correctable one. PRESUMED from the
PCI Express base specification. -/
def Aer.note (k : Nat) (a : Aer) : Aer :=
  let first := if (List.range 32).any (fun i => a.unc.testBit i && !a.uncMask.testBit i) || a.uncMask.testBit k then a.first else k
  { a with unc := a.unc ||| 2 ^ k, first := first, corr := if a.uncSev.testBit k then a.corr else a.corr ||| 0x2000 }

/-- The error that the endpoint notes where it answers a request with this status: Unsupported Request, Completer Abort. -/
def Aer.answered (st : CplStatus) (a : Aer) : Aer := match st with
  | .ur => a.note 20
  | .ca => a.note 15
  | _ => a

/-- The endpoint notes uncorrectable error k. -/
def aerNote (k : Nat) (s : State) : State := { s with ep.aer := s.ep.aer.note k }

/-- Complete a host request: the completion carries the attributes of the request (R376). -/
def complete (c : Cpl) (s : State) : State :=
  { s with ep.cpls := s.ep.cpls ++ [{ c with attr := mget s.ep.asked c.tag {} }], ep.asked := merase s.ep.asked c.tag,
           ep.aer := s.ep.aer.answered c.status }

/-- The data of a read at address a in the parts that single completions bring, and how many bytes follow each: no part is
longer than mps, and each but the last ends at a Read Completion Boundary of 64 bytes (R373). DESIGN CHOICE: each part is as
long as that allows. The first argument bounds their number. -/
def readParts (mps : Nat) : Nat → Nat → List Byte → List (List Byte × Nat)
  | 0, _, d => [(d, 0)]
  | n + 1, a, d =>
    if d.length ≤ mps then [(d, 0)]
    else
      let k := (a + mps) / 64 * 64 - a
      (d.take k, d.length - k) :: readParts mps n (a + k) (d.drop k)

/-- Complete a host read of memory at address a, in as many completions as it takes (R373, R376). -/
def completeRead (a : Nat) (c : Cpl) (s : State) : State :=
  let l := (readParts s.ep.mps c.data.length a c.data).map fun p => { c with data := p.1, rest := p.2, attr := mget s.ep.asked c.tag {} }
  { s with ep.cpls := s.ep.cpls ++ l, ep.asked := merase s.ep.asked c.tag }

/-- Bytes of a host write reach bank b at address a, but for those that are kept out; the refusal is recorded once for the
request, with its BAR2 offset (R134, R219). -/
def hostPut (b a : Nat) (d : List (Option Byte)) (al : Bool) (x : BankReq × State) : BankReq × State :=
  let (d, kept) := x.2.allowed a d
  let s := if kept && !x.1.bad then werr 0 (bar2Ref a al) x.2 else x.2
  ({ x.1 with bad := x.1.bad || kept }, bankWrite b x.1.r a d s)

/-- A part of an alias write: ignored in a hole, and refused in SGC or in a bank whose domain is off (R346, R356). -/
def aliasPut (a : Nat) (d : List (Option Byte)) (x : BankReq × State) : BankReq × State := match hostBank a with
  | none => x
  | some b =>
    if b ≠ 5 && x.2.on (bankDom b) then hostPut b a d true x
    else ({ x.1 with bad := true }, if x.1.bad then x.2 else werr 0 (bar2Ref a true) x.2)

/-- What a burst of n beats of a request does in bank b: host lines, trace entries and scrub lines are performed
here; far and Halyard accesses are performed by their own commands once all their beats are granted. -/
def performBeats (b n : Nat) (q : BankReq) (s : State) : BankReq × State :=
  match q.use with
  | .hostRead _ a len _ al =>
    if al then
      (aliasParts a len).foldl (init := (q, s)) fun (q, s) p =>
        let (d, bad, s) := hostGet p.1 p.2 s
        ({ q with acc := q.acc ++ d, bad := q.bad || bad }, s)
    else
      (List.range n).foldl (init := (q, s)) fun (q, s) i =>
        let (lo, k) := lineSpan a len (q.done + i)
        let (d, bad, s) := bankRead b q.r lo k s
        ({ q with acc := q.acc ++ d, bad := q.bad || bad }, s)
  | .hostWrite a data al =>
    if al then (aliasParts a data.length).foldl (fun x p => aliasPut p.1 ((data.drop (p.1 - a)).take p.2) x) (q, s)
    else
      (List.range n).foldl (init := (q, s)) fun x i =>
        let (lo, k) := lineSpan a data.length (q.done + i)
        hostPut b lo ((data.drop (lo - a)).take k) al x
  | .trace e => (q, traceWrite e s)
  | .dry e => (q, (List.range n).foldl (fun s _ => dryLine e s) s)
  | .table _ a d => (q, bankWrite b q.r a (d.map some) s)
  | .scrub =>
    let x := s.bank b
    let s := scrubLine b (bankBase b + 16 * x.line) s
    (q, s.modBank b fun x => { x with line := (x.line + 1) % (bankSize b / 16) })
  | _ => (q, s)

/-- Engine e requests SGH, from bank cycle c, for what TRACE has to write for it, one request at a time: its oldest trace entry,
else the lines of a dry seal. DESIGN CHOICE: no rule orders an engine's trace entries and dry-seal lines that wait together; the
model writes the entries first. -/
def tracePost (e c : Nat) (s : State) : State :=
  let x := s.eng e
  if (s.bank 4).pend.any fun q => q.r == 9 && q.src == e then s
  else if x.trace ≠ [] then postReq 4 { r := 9, src := e, stamp := c, use := .trace e } s
  else if x.dry ≠ [] then postReq 4 { r := 9, src := e, stamp := c, beats := x.dry.length, use := .dry e } s
  else s

/-- What remains when all beats of a request are granted: a completion, a further request of TRACE, or a served request
for the far access or transaction to take. -/
def finishReq (b : Nat) (q : BankReq) (s : State) : State :=
  match q.use with
  | .hostRead tag a _ _ _ => completeRead a { tag := tag, data := q.acc, bad := q.bad } s
  | .trace e => tracePost e ((q.first.getD q.stamp) + 1) s
  | .dry e => tracePost e ((q.first.getD q.stamp) + 1) s
  | .far _ => s.modBank b fun x => { x with served := x.served ++ [q] }
  | .dma _ => s.modBank b fun x => { x with served := x.served ++ [q] }
  | .mgmt _ => s.modBank b fun x => { x with served := x.served ++ [q] }
  | _ => s

/-- Record the wait of a request from arrival to first grant (R372). -/
def noteWait (b r w : Nat) (s : State) : State :=
  if r = 0 || r = 10 || 7 ≤ b then s
  else
    let w := min w 0xFFFF
    let F := ARB_WAIT_MAXWAIT b
    let s := if s.noted F < w + 1 then
        { s with hwNow := mset (mset s.hwNow (evKey F) (w + 1) 0) (evKey (ARB_WAIT_REQ b)) (r + 1) 0 }
      else s
    if s.f F < w then (s.setF F w).setF (ARB_WAIT_REQ b) r else s

/-- Grant request q, taken out of the pending list, its burst from bank cycle c (R360, R361). -/
def grant (b c : Nat) (q : BankReq) (s : State) : State :=
  let s := match q.first with
    | some _ => s
    | none => noteWait b q.r (c - q.stamp) s
  let q := { q with first := some (q.first.getD c) }
  let n := burstLen s b q
  let s := s.modBank b fun x => { x with start := c, freeAt := c + n, cur := some q }
  let (q, s) := performBeats b n q s
  let q := { q with beats := q.beats - n, done := q.done + n, fin := c + n }
  if q.beats = 0 then finishReq b q s
  else s.modBank b fun x => { x with pend := x.pend ++ [q] }

/-- The arbiter of bank b decides in bank cycle now: at the last beat of the burst in progress, or on an idle bank
(R359, R360, R364). A far request past its last permitted cycle is passed over. -/
def bankDecide (b now : Nat) (s : State) : State :=
  let x := s.bank b
  let c := if now < x.freeAt then now + 1 else now
  if !s.bankUp b || decide (now + 1 < x.freeAt) then s else
  match choose s b (x.pend.filter fun q => decide (q.stamp ≤ now) && decide (c ≤ q.last.getD c)) with
  | some q => grant b c q (s.modBank b fun x => { x with seen := now, pend := x.pend.erase q })
  | none => s.modBank b fun x => { x with seen := now }

/-- The bank cycle of the next beat of bank b's burst that has not been performed, where requests that p picks hold that burst
(R362). The commands of a Mast cycle carry no engine cycle. DESIGN CHOICE: a withdrawal falls in the engine cycle of the
arbiter's last decision, or in the first of its Mast cycle where no decision of that cycle precedes it. -/
def State.nextBeat (s : State) (b : Nat) (p : BankReq → Bool) : Option Nat :=
  let x := s.bank b
  let beat := max x.start (max (4 * s.mc) x.seen + 1)
  if decide (beat < x.freeAt) && x.cur.any p then some beat else none

/-- A requester withdraws its requests; where one has been granted and its next beat has not been performed, that
beat's cycle is dead, and is counted (R362). -/
def withdraw (b : Nat) (p : BankReq → Bool) (s : State) : State :=
  let dead := s.nextBeat b p
  let s := s.modBank b fun x => { x with
    pend := x.pend.filter fun q => !p q
    freeAt := (dead.map (· + 1)).getD x.freeAt
    cur := if dead.isSome then none else x.cur }
  if dead.isSome && decide (b < 7) then s.bump (ARB_WAIT_DEAD b) else s

/-- The requests that engine e's cluster domain takes with it when it is switched off: its program check, its trace entries and
its dry-seal lines (R362). -/
def engWithdraw (e : Nat) (s : State) : State :=
  let s := withdraw (e / 4) (fun q => q.r == 8 && q.src == e) s
  withdraw 4 (fun q => q.r == 9 && q.src == e) s

/-- The scrubber requests a beat in bank b when its interval has passed and no beat of it is pending (R351). -/
def scrub (b : Nat) (s : State) : State :=
  let iv := s.f SAG_SCRUB_INTERVAL
  let x := s.bank b
  let due := x.scrubAt.getD iv
  if !s.on (bankDom b) || iv = 0 || decide (s.mc < due) || x.pend.any (fun q => q.use == .scrub) then s
  else postReq b { r := 10, stamp := 4 * s.mc, use := .scrub } (s.modBank b fun x => { x with scrubAt := some (s.mc + iv) })

/-- The clear or wipe of bank b ends and it starts to grant (R352, R353). -/
def clearEnd (b : Nat) (s : State) : State :=
  if s.flag (bitFld SAG_BUSY_CLEARING b) && decide ((s.bank b).clearTo ≤ 4 * s.mc + 3) then s.setF (bitFld SAG_BUSY_CLEARING b) 0
  else s

end Sys2Proof.Machine
end

