-- ==== Sys2Proof/Machine/Coil.lean ====
section
/-! DEFINITION. The Coil instruction set: instructions, their encoding and its decoding, costs and arithmetic
(R87 to R130). -/

namespace Sys2Proof.Machine

open Sys2Proof

/-- The register-register operations of the ALU group (R100). -/
inductive AluOp where
  | add | sub | and | or | xor | andn | shl | shr | sar | ror | slt | sltu | minu | maxu | mins | maxs
  | mul | mulhu | mulhs | divu | remu
  deriving DecidableEq, Repr

/-- The shifts by an immediate (R100). -/
inductive ShOp where
  | shli | shri | sari | rori
  deriving DecidableEq, Repr

/-- The operations of one operand (R100). -/
inductive UnOp where
  | clz | ctz | popc
  deriving DecidableEq, Repr

/-- The immediate operations (R102). -/
inductive ImmOp where
  | addi | andi | ori | xori | slti | sltiu
  deriving DecidableEq, Repr

/-- The branches (R111). -/
inductive BrOp where
  | beq | bne | blt | bge | bltu | bgeu
  deriving DecidableEq, Repr

/-- A Coil instruction with its fields (R98, R99). -/
inductive Coil where
  | alu (op : AluOp) (rd ra rb : Fin 16)
  | shi (op : ShOp) (rd ra : Fin 16) (sh : Fin 64)
  | un (op : UnOp) (rd ra : Fin 16)
  | imm (op : ImmOp) (rd ra : Fin 16) (imm18 : Fin (2 ^ 18))
  | conl (rd : Fin 16) (imm22 : Fin (2 ^ 22))
  | cons (rd : Fin 16) (imm22 : Fin (2 ^ 22))
  | ld (rd ra : Fin 16) (size : Fin 4) (sgn pair rot : Bool) (off13 : Fin (2 ^ 13))
  | st (rs ra : Fin 16) (size : Fin 4) (pair rot : Bool) (off13 : Fin (2 ^ 13))
  | ldf (rd ra : Fin 16) (size : Fin 4) (sgn pair : Bool) (lim : Fin 64) (off8 : Fin 256)
  | stf (rs ra : Fin 16) (size : Fin 4) (pair : Bool) (lim : Fin 64) (off8 : Fin 256)
  | br (op : BrOp) (ra rb : Fin 16) (off18 : Fin (2 ^ 18))
  | jmp (imm26 : Fin (2 ^ 26))
  | call (imm26 : Fin (2 ^ 26))
  | ret
  | loop (ra : Fin 16) (max12 : Fin (2 ^ 12)) (len10 : Fin (2 ^ 10))
  | act (rt rh : Fin 16)
  | actp (rt rh : Fin 16) (port : Fin 128) (code : Fin 32)
  | seal
  | tryl (rd ra : Fin 16) (lock : Fin 64)
  | unl (ra : Fin 16) (lock : Fin 64)
  | evo (mask : Fin 256)
  | evc (mask : Fin 256)
  | mfs (rd : Fin 16) (sreg : Fin 256)
  | mts (ra : Fin 16) (sreg : Fin 256)
  deriving DecidableEq, Repr

/-! ### Encoding (R97 to R100) -/

/-- The func code of an ALU operation (R100). -/
def aluFunc : AluOp → Nat
  | .add => 0x01 | .sub => 0x02 | .and => 0x03 | .or => 0x04 | .xor => 0x05 | .andn => 0x06 | .shl => 0x08
  | .shr => 0x09 | .sar => 0x0A | .ror => 0x0B | .slt => 0x10 | .sltu => 0x11 | .minu => 0x12 | .maxu => 0x13
  | .mins => 0x14 | .maxs => 0x15 | .mul => 0x18 | .mulhu => 0x19 | .mulhs => 0x1A | .divu => 0x1C | .remu => 0x1D
def shFunc : ShOp → Nat
  | .shli => 0x0C | .shri => 0x0D | .sari => 0x0E | .rori => 0x0F
def unFunc : UnOp → Nat
  | .clz => 0x20 | .ctz => 0x21 | .popc => 0x22
def immCode : ImmOp → Nat
  | .addi => 0x01 | .andi => 0x02 | .ori => 0x03 | .xori => 0x04 | .slti => 0x05 | .sltiu => 0x06
def brCode : BrOp → Nat
  | .beq => 0x18 | .bne => 0x19 | .blt => 0x1A | .bge => 0x1B | .bltu => 0x1C | .bgeu => 0x1D

/-- A word from op and the three register fields at [25:22], [21:18] and [17:14], with the low 14 bits. -/
def word4 (op a b c low : Nat) : Nat := op * 2 ^ 26 + a * 2 ^ 22 + b * 2 ^ 18 + c * 2 ^ 14 + low

/-- The size, SGN and PAIR bits of formats M and F, as the field [17:14]. -/
def sizeBits (size : Nat) (sgn pair : Bool) : Nat := size * 4 + sgn.toNat * 2 + pair.toNat

/-- The word of an instruction (R98, R99, R100). -/
def coilEncode : Coil → Nat
  | .alu op rd ra rb => word4 0 rd ra rb (aluFunc op)
  | .shi op rd ra sh => word4 0 rd ra 0 (sh.val * 2 ^ 8 + shFunc op)
  | .un op rd ra => word4 0 rd ra 0 (unFunc op)
  | .imm op rd ra i => word4 (immCode op) rd ra 0 i
  | .conl rd i => word4 0x08 rd 0 0 i
  | .cons rd i => word4 0x09 rd 0 0 i
  | .ld rd ra size sgn pair rot off => word4 0x10 rd ra (sizeBits size sgn pair) (rot.toNat * 2 ^ 13 + off.val)
  | .st rs ra size pair rot off => word4 0x11 rs ra (sizeBits size false pair) (rot.toNat * 2 ^ 13 + off.val)
  | .ldf rd ra size sgn pair lim off => word4 0x12 rd ra (sizeBits size sgn pair) (lim.val * 2 ^ 8 + off.val)
  | .stf rs ra size pair lim off => word4 0x13 rs ra (sizeBits size false pair) (lim.val * 2 ^ 8 + off.val)
  | .br op ra rb off => word4 (brCode op) ra rb 0 off
  | .jmp i => word4 0x1E 0 0 0 i
  | .call i => word4 0x1F 0 0 0 i
  | .ret => word4 0x20 0 0 0 0
  | .loop ra mx len => word4 0x21 ra 0 0 (mx.val * 2 ^ 10 + len.val)
  | .act rt rh => word4 0x28 rt rh 0 0
  | .actp rt rh port code => word4 0x29 rt rh 0 (port.val * 2 ^ 11 + code.val * 2 ^ 6)
  | .seal => word4 0x2A 0 0 0 0
  | .tryl rd ra lock => word4 0x30 rd ra 0 lock
  | .unl ra lock => word4 0x31 0 ra 0 lock
  | .evo mask => word4 0x32 0 0 0 mask
  | .evc mask => word4 0x33 0 0 0 mask
  | .mfs rd sreg => word4 0x38 rd 0 0 sreg
  | .mts ra sreg => word4 0x39 0 ra 0 sreg

/-- Field values that the descriptions declare invalid (R104, R108, R113, R116, R122). -/
def coilValid : Coil → Bool
  | .ld rd _ size sgn pair rot _ => (!pair || (size == 3 && !sgn && !rot && rd.val % 2 == 0)) && !(sgn && size == 3)
  | .st rs _ size pair rot _ => !pair || (size == 3 && !rot && rs.val % 2 == 0)
  | .ldf rd _ size sgn pair lim _ => (!pair || (size == 3 && !sgn && rd.val % 2 == 0)) && !(sgn && size == 3) && lim != 0
  | .stf rs _ size pair lim _ => (!pair || (size == 3 && rs.val % 2 == 0)) && lim != 0
  | .loop _ mx len => mx != 0 && len != 0
  | .actp _ _ port _ => decide (port.val < 96)
  | .mfs _ sreg => decide (sreg.val ≤ 0x0D)
  | .mts _ sreg => sreg.val == 0x09
  | _ => true

/-- A field of a word as a bounded number. -/
def fld (w lo n : Nat) (h : 0 < n) : Fin n := ⟨(w / 2 ^ lo) % n, Nat.mod_lt _ h⟩

/-- The fields rd, ra and rb of a word. -/
def wRd (w : Nat) : Fin 16 := fld w 22 16 (by decide)
def wRa (w : Nat) : Fin 16 := fld w 18 16 (by decide)
def wRb (w : Nat) : Fin 16 := fld w 14 16 (by decide)
def wBit (w i : Nat) : Bool := (w / 2 ^ i) % 2 == 1

/-- The ALU operation of a func code. -/
def aluOf : Nat → Option AluOp
  | 0x01 => some .add | 0x02 => some .sub | 0x03 => some .and | 0x04 => some .or | 0x05 => some .xor
  | 0x06 => some .andn | 0x08 => some .shl | 0x09 => some .shr | 0x0A => some .sar | 0x0B => some .ror
  | 0x10 => some .slt | 0x11 => some .sltu | 0x12 => some .minu | 0x13 => some .maxu | 0x14 => some .mins
  | 0x15 => some .maxs | 0x18 => some .mul | 0x19 => some .mulhu | 0x1A => some .mulhs | 0x1C => some .divu
  | 0x1D => some .remu | _ => none

/-- The ALU group by func code (R100). -/
def decodeAlu (w : Nat) : Option Coil :=
  match w % 2 ^ 6 with
  | 0x0C => some (.shi .shli (wRd w) (wRa w) (fld w 8 64 (by decide)))
  | 0x0D => some (.shi .shri (wRd w) (wRa w) (fld w 8 64 (by decide)))
  | 0x0E => some (.shi .sari (wRd w) (wRa w) (fld w 8 64 (by decide)))
  | 0x0F => some (.shi .rori (wRd w) (wRa w) (fld w 8 64 (by decide)))
  | 0x20 => some (.un .clz (wRd w) (wRa w))
  | 0x21 => some (.un .ctz (wRd w) (wRa w))
  | 0x22 => some (.un .popc (wRd w) (wRa w))
  | f => (aluOf f).map fun op => .alu op (wRd w) (wRa w) (wRb w)

def wImm18 (w : Nat) : Fin (2 ^ 18) := fld w 0 (2 ^ 18) (by decide)
def wImm22 (w : Nat) : Fin (2 ^ 22) := fld w 0 (2 ^ 22) (by decide)
def wImm26 (w : Nat) : Fin (2 ^ 26) := fld w 0 (2 ^ 26) (by decide)
def wOff13 (w : Nat) : Fin (2 ^ 13) := fld w 0 (2 ^ 13) (by decide)
def wSize (w : Nat) : Fin 4 := fld w 16 4 (by decide)
def wLim (w : Nat) : Fin 64 := fld w 8 64 (by decide)
def wLow8 (w : Nat) : Fin 256 := fld w 0 256 (by decide)
def wLow6 (w : Nat) : Fin 64 := fld w 0 64 (by decide)

/-- The instruction that a word's op names, with its fields (R99). -/
def candidate (w : Nat) : Option Coil :=
  match w / 2 ^ 26 with
  | 0x00 => decodeAlu w
  | 0x01 => some (.imm .addi (wRd w) (wRa w) (wImm18 w))
  | 0x02 => some (.imm .andi (wRd w) (wRa w) (wImm18 w))
  | 0x03 => some (.imm .ori (wRd w) (wRa w) (wImm18 w))
  | 0x04 => some (.imm .xori (wRd w) (wRa w) (wImm18 w))
  | 0x05 => some (.imm .slti (wRd w) (wRa w) (wImm18 w))
  | 0x06 => some (.imm .sltiu (wRd w) (wRa w) (wImm18 w))
  | 0x08 => some (.conl (wRd w) (wImm22 w))
  | 0x09 => some (.cons (wRd w) (wImm22 w))
  | 0x10 => some (.ld (wRd w) (wRa w) (wSize w) (wBit w 15) (wBit w 14) (wBit w 13) (wOff13 w))
  | 0x11 => some (.st (wRd w) (wRa w) (wSize w) (wBit w 14) (wBit w 13) (wOff13 w))
  | 0x12 => some (.ldf (wRd w) (wRa w) (wSize w) (wBit w 15) (wBit w 14) (wLim w) (wLow8 w))
  | 0x13 => some (.stf (wRd w) (wRa w) (wSize w) (wBit w 14) (wLim w) (wLow8 w))
  | 0x18 => some (.br .beq (wRd w) (wRa w) (wImm18 w))
  | 0x19 => some (.br .bne (wRd w) (wRa w) (wImm18 w))
  | 0x1A => some (.br .blt (wRd w) (wRa w) (wImm18 w))
  | 0x1B => some (.br .bge (wRd w) (wRa w) (wImm18 w))
  | 0x1C => some (.br .bltu (wRd w) (wRa w) (wImm18 w))
  | 0x1D => some (.br .bgeu (wRd w) (wRa w) (wImm18 w))
  | 0x1E => some (.jmp (wImm26 w))
  | 0x1F => some (.call (wImm26 w))
  | 0x20 => some .ret
  | 0x21 => some (.loop (wRd w) (fld w 10 (2 ^ 12) (by decide)) (fld w 0 (2 ^ 10) (by decide)))
  | 0x28 => some (.act (wRd w) (wRa w))
  | 0x29 => some (.actp (wRd w) (wRa w) (fld w 11 128 (by decide)) (fld w 6 32 (by decide)))
  | 0x2A => some .seal
  | 0x30 => some (.tryl (wRd w) (wRa w) (wLow6 w))
  | 0x31 => some (.unl (wRa w) (wLow6 w))
  | 0x32 => some (.evo (wLow8 w))
  | 0x33 => some (.evc (wLow8 w))
  | 0x38 => some (.mfs (wRd w) (wLow8 w))
  | 0x39 => some (.mts (wRa w) (wLow8 w))
  | _ => none

/-- A word as its format reads it: the shifts by an immediate have an rb field that they do not use and that no rule marks as
zero (R98, R100). -/
def formatWord (w : Nat) : Nat :=
  if w / 2 ^ 26 = 0 && decide (0x0C ≤ w % 2 ^ 6) && decide (w % 2 ^ 6 ≤ 0x0F) then setBits w 14 4 0 else w

/-- The instruction of a word, or none where the word is ILLEGAL: a word is the instruction whose encoding it is,
so a set bit that the format marks as zero makes it ILLEGAL (R97). -/
def coilDecode (w : Nat) : Option Coil :=
  match candidate w with
  | some c => if coilEncode c = formatWord w && coilValid c then some c else none
  | none => none

/-! ### Cycle counts (R126) -/

/-- The exact time of an instruction in engine cycles; for LDF and STF the largest possible time (R91, R126). -/
def coilCost : Coil → Nat
  | .alu .mul .. => 3
  | .alu .mulhu .. => 4
  | .alu .mulhs .. => 4
  | .alu .divu .. => 36
  | .alu .remu .. => 36
  | .alu .. => 1
  | .shi .. => 1
  | .un .. => 1
  | .imm .. => 1
  | .conl .. => 1
  | .cons .. => 1
  | .ld _ _ _ _ pair rot _ => if rot then 12 else if pair then 7 else 6
  | .st _ _ _ pair rot _ => if rot then 12 else if pair then 7 else 6
  | .ldf _ _ _ _ _ lim _ => 4 * lim.val + 24
  | .stf _ _ _ _ lim _ => 4 * lim.val + 24
  | .br .. => 2
  | .jmp _ => 2
  | .call _ => 3
  | .ret => 3
  | .loop .. => 2
  | .act .. => 2
  | .actp .. => 2
  | .seal => 0
  | .tryl .. => 4
  | .unl .. => 2
  | .evo _ => 1
  | .evc _ => 1
  | .mfs .. => 1
  | .mts .. => 1

/-! ### Arithmetic (R100 to R103) -/

/-- Leading zeros of the low n bits (R100). -/
def clzN : Nat → DWord → Nat
  | 0, _ => 0
  | n + 1, v => if v.getLsbD n then 0 else 1 + clzN n v

/-- Trailing zeros from bit i over n bits (R100). -/
def ctzN : Nat → Nat → DWord → Nat
  | 0, _, _ => 0
  | n + 1, i, v => if v.getLsbD i then 0 else 1 + ctzN n (i + 1) v

/-- Set bits among the low n bits (R100). -/
def popN : Nat → DWord → Nat
  | 0, _ => 0
  | n + 1, v => (v.getLsbD n).toNat + popN n v

/-- A truth value as a register value. -/
def b2w (b : Bool) : DWord := if b then 1 else 0

/-- The result of an ALU operation (R100, R101). -/
def aluVal (op : AluOp) (a b : DWord) : DWord :=
  match op with
  | .add => a + b
  | .sub => a - b
  | .and => a &&& b
  | .or => a ||| b
  | .xor => a ^^^ b
  | .andn => a &&& ~~~b
  | .shl => a <<< (b.toNat % 64)
  | .shr => a >>> (b.toNat % 64)
  | .sar => a.sshiftRight (b.toNat % 64)
  | .ror => a.rotateRight (b.toNat % 64)
  | .slt => b2w (a.slt b)
  | .sltu => b2w (a.ult b)
  | .minu => if a.ult b then a else b
  | .maxu => if a.ult b then b else a
  | .mins => if a.slt b then a else b
  | .maxs => if a.slt b then b else a
  | .mul => a * b
  | .mulhu => BitVec.ofNat 64 (a.toNat * b.toNat / 2 ^ 64)
  | .mulhs => BitVec.ofInt 64 (a.toInt * b.toInt / 2 ^ 64)
  | .divu => if b = 0 then BitVec.allOnes 64 else a / b
  | .remu => if b = 0 then a else a % b

/-- The operation divides by zero (R101). -/
def divZero (op : AluOp) (b : DWord) : Bool := (op == .divu || op == .remu) && b == 0

def shVal (op : ShOp) (a : DWord) (sh : Nat) : DWord :=
  match op with
  | .shli => a <<< sh
  | .shri => a >>> sh
  | .sari => a.sshiftRight sh
  | .rori => a.rotateRight sh

def unVal (op : UnOp) (a : DWord) : DWord :=
  match op with
  | .clz => BitVec.ofNat 64 (clzN 64 a)
  | .ctz => BitVec.ofNat 64 (ctzN 64 0 a)
  | .popc => BitVec.ofNat 64 (popN 64 a)

/-- An n-bit field sign-extended to 64 bits. -/
def sext (n v : Nat) : DWord := (BitVec.ofNat n v).signExtend 64

def immVal (op : ImmOp) (a : DWord) (i : Nat) : DWord :=
  match op with
  | .addi => a + sext 18 i
  | .andi => a &&& BitVec.ofNat 64 i
  | .ori => a ||| BitVec.ofNat 64 i
  | .xori => a ^^^ BitVec.ofNat 64 i
  | .slti => b2w (a.slt (sext 18 i))
  | .sltiu => b2w (a.ult (sext 18 i))

/-- A branch is taken (R111). -/
def brTaken (op : BrOp) (a b : DWord) : Bool :=
  match op with
  | .beq => a == b
  | .bne => a != b
  | .blt => a.slt b
  | .bge => !a.slt b
  | .bltu => a.ult b
  | .bgeu => !a.ult b

end Sys2Proof.Machine
end

