-- ==== Sys2Proof/Machine/Pulse.lean ====
section
/-! DEFINITION. Pulses of Rigging sources and their flight through the route entries (R291 to R297). -/

namespace Sys2Proof.Machine

open Sys2Proof Reg

/-- A route entry as 64 bits: its source, destination, enable and delay (R314). -/
def rtSrc (v : Nat) : Nat := bitsOf v 0 10
def rtDst (v : Nat) : Nat := bitsOf v 16 9
def rtEn (v : Nat) : Bool := v.testBit 31
def rtDelay (v : Nat) : Nat := bitsOf v 32 24

/-- The field-die sources (R294). -/
def fieldSrc (n : Nat) : Bool :=
  n < 0x40 || (0x60 ≤ n && n < 0xA0) || (0xC0 ≤ n && n < 0x100) || (0x120 ≤ n && n < 0x128) ||
  (0x12C ≤ n && n < 0x134) || (0x1E0 ≤ n && n < 0x210)

/-- The sources that the spec assigns (R291). -/
def srcAssigned (n : Nat) : Bool := n < 0x138 || (0x140 ≤ n && n < 0x243) || (0x248 ≤ n && n < 0x250)

/-- Destinations that lie on the field die: the arm inputs of field ports (R294). -/
def fieldDst (d : Nat) : Bool := 0xA0 ≤ d && d < 0xE0

/-- The field section carries a route from a field-die source to a field-port arm input (R294). -/
def fieldCarried (v : Nat) : Bool := fieldSrc (rtSrc v) && fieldDst (rtDst v)

/-- The latency of a route from the source cycle to delivery (R294). -/
def rtLatency (v : Nat) : Nat :=
  if fieldCarried v || (!fieldSrc (rtSrc v) && !fieldDst (rtDst v)) then 1 + rtDelay v else 33 + rtDelay v

/-- A route that crosses the isolation barrier (R294). -/
def crossesLink (v : Nat) : Bool := !fieldCarried v && (fieldSrc (rtSrc v) || fieldDst (rtDst v))

/-- The cycle in which a pulse of source cycle m arrives in the matrix: after 32 mc on the Stay link where it crosses
(R294). -/
def arrivalOf (v m : Nat) : Nat := if crossesLink v then m + 32 else m

/-- The pulse that is due at d meets 8 pulses in flight when it arrives in an entry with a delay (R296). -/
def crowded (v d : Nat) (fl : List Nat) : Bool :=
  rtDelay v != 0 && decide (8 ≤ (fl.filter fun x => decide (d - (1 + rtDelay v) < x) && decide (x < d)).length)

/-- Put a pulse of source cycle m into the flight of an entry: merged with a pulse of the same cycle, or dropped where it
arrives at once and finds the entry full (R295, R296). -/
def launch (v m : Nat) (fl : List Nat) : List Nat × Bool :=
  let due := m + rtLatency v
  if fl.contains due then (fl, false)
  else if !crossesLink v && crowded v due fl then (fl, true)
  else (fl ++ [due], false)

/-- Record a dropped pulse (R296, R311). -/
def dropPulse (e : Nat) (s : State) : State :=
  if s.on dKILN then ((s.raise RIG_STATUS_DLYOVF).bump RIG_DLYINFO_COUNT).setF RIG_DLYINFO_ENTRY e else s

/-- The route entries in force on the logic die whose low word is listed: number and value. -/
def State.routes (s : State) : List (Nat × Nat) :=
  (s.regs.filter fun p => decide (RIG_ROUTE 0 ≤ p.1) && decide (p.1 < RIG_ROUTE 1024) && p.1 % 8 == 0).map
    fun p => ((p.1 - RIG_ROUTE 0) / 8, s.reg64 p.1)

/-- The enabled entries that the field section carries (R294). -/
def State.fieldRoutes (s : State) : SMap DWord :=
  (s.routes.filter fun p => rtEn p.2 && fieldCarried p.2).map fun p => (p.1, BitVec.ofNat 64 p.2)

/-- Entry e of the logic die takes a pulse of the present cycle; one that crosses the barrier needs the link (R16). -/
def enterRoute (e v : Nat) (s : State) : State :=
  if crossesLink v && !s.linked then s
  else
    let (fl, drop) := launch v s.mc (mget s.rig.flight e [])
    let s := { s with rig.flight := mset s.rig.flight e fl [] }
    if drop then dropPulse e s else s

/-- Entry e of the field section takes a pulse of the present cycle. -/
def enterField (e v : Nat) (s : State) : State :=
  let (fl, drop) := launch v s.mc (mget s.rig.fflight e [])
  let s := { s with rig.fflight := mset s.rig.fflight e fl [] }
  if drop then dropPulse e s else s

/-- A source pulses in the present Mast cycle: every enabled entry that names it takes the pulse (R294), those of the field
section on the field die whatever the logic die does. A second pulse of one source in one cycle is the same pulse
(R292). -/
def pulse (src : Nat) (s : State) : State :=
  if mget s.rig.pulsed src 0 = s.mc + 1 || !srcAssigned src then s else
  let s := { s with rig.pulsed := mset s.rig.pulsed src (s.mc + 1) 0 }
  let s := if s.on dKILN then
      s.routes.foldl (init := s) fun s r => if rtEn r.2 && rtSrc r.2 = src && !fieldCarried r.2 then enterRoute r.1 r.2 s else s
    else s
  if !s.phys dFCORE then s else
  s.rig.field.foldl (init := s) fun s r => if rtSrc r.2.toNat = src then enterField r.1 r.2.toNat s else s

/-- A source pulses in Mast cycle m, at once where the cycle has come; a later pulse meets the entries in force in its
own cycle (R294, R297). -/
def pulseAt (src m : Nat) (s : State) : State :=
  if m ≤ s.mc then pulse src s
  else if s.rig.sched.contains (src, m) then s else { s with rig.sched := s.rig.sched ++ [(src, m)] }

/-- The pulses that units have formed for the Mast cycle that begins; "capture notify" notes WR (R306). -/
def pulsesDue (s : State) : State :=
  let l := s.rig.sched.filter fun p => decide (p.2 ≤ s.mc)
  let s := { s with rig.sched := s.rig.sched.filter fun p => decide (s.mc < p.2) }
  l.foldl (init := s) fun s p => pulse p.1 (if p.1 = 0x23F then { s with rig.notified := s.f RIG_CWWR_WR } else s)

/-- A pulse of an entry that has crossed the barrier arrives in the matrix; one that finds its entry full is dropped (R294,
R296). -/
def pulseArrives (s : State) (r : Nat × List Nat) : State :=
  let v := s.reg64 (RIG_ROUTE r.1)
  let d := s.mc + 1 + rtDelay v
  if crossesLink v && r.2.contains d && crowded v d r.2 then
    dropPulse r.1 { s with rig.flight := mset s.rig.flight r.1 (r.2.erase d) [] }
  else s

/-- The pulses that have crossed the barrier arrive. -/
def pulsesArrive (s : State) : State := s.rig.flight.foldl pulseArrives s

/-- The pulses on their way across the barrier are lost with the link (R16). -/
def cutPulses (s : State) : State :=
  let left := fun (r : Nat × List Nat) =>
    let v := s.reg64 (RIG_ROUTE r.1)
    if crossesLink v then r.2.filter fun d => decide (d ≤ s.mc + 1 + rtDelay v) else r.2
  { s with rig.flight := s.rig.flight.foldl (fun m r => mset m r.1 (left r) []) [] }

end Sys2Proof.Machine
end

