-- ==== Sys2Proof/Machine/Ports.lean ====
section
/-! DEFINITION. Port units: the action queue, the output, capture, the input filter and the counter (R172 to R210). -/

namespace Sys2Proof.Machine

open Sys2Proof Reg

/-! ### A port and its registers -/

/-- Port p as nothing has driven it yet: the pull of R503 holds a field pin low, and the failsafe of R519 has an undriven LVDS
input read 1. -/
def portDefault (p : Nat) : Port := { pin := decide (64 ≤ p), level := decide (64 ≤ p) }

/-- Port p. -/
def State.port (s : State) (p : Nat) : Port := mget s.ports p (portDefault p)

/-- Set port p. -/
def State.setPort (s : State) (p : Nat) (x : Port) : State := { s with ports := mset s.ports p x (portDefault p) }

/-- Change port p. -/
def State.modPort (s : State) (p : Nat) (f : Port → Port) : State := s.setPort p (f (s.port p))

/-- Port p is a field port (R172). -/
def isField (p : Nat) : Bool := decide (p < 64)

/-- The least output edge spacing in fc: 10 ns on field ports, 2 ns on LVDS ports (R172). An edge is too close when
it comes less than this many fc after the previous one; 2 ns is 102.4 fc, so 103 fc is the first allowed distance. -/
def spacing (p : Nat) : Nat := if isField p then 512 else 103

/-- The late horizon in fc (R21, R172): 600 ns on field ports, 100 ns on LVDS ports. -/
def horizon (p : Nat) : Nat := if isField p then 30720 else 5120

/-- MODE is an output mode (R187). -/
def outputMode (p mode : Nat) : Bool := if isField p then decide (2 ≤ mode) && decide (mode ≤ 4) else mode == 1

/-- MODE is listed for the port (R187). -/
def modeOk (p mode : Nat) : Bool :=
  if isField p then mode ≤ 4 || (mode == 5 && decide (p < 8)) || (mode == 6 && decide (48 ≤ p))
  else mode ≤ 1

/-- Port p drives outputs in its mode. -/
def State.outMode (s : State) (p : Nat) : Bool := outputMode p (s.f (PRT_IOCFG_MODE p))

/-- Port p is enabled (R188). -/
def State.portEn (s : State) (p : Nat) : Bool := s.flag (PRT_CTRL_EN p)

/-- "Port error" of the port's group (R291). -/
def portError (p : Nat) (s : State) : State := pulse (0x12C + p / 8) s

/-- Hardware sets a W1C bit of PRT_STATUS: it pulses "port error" (R200). -/
def portFlag (p : Nat) (F : Fld) (s : State) : State := portError p (s.raise F)

/-! ### Capture records (R183, R184) -/

/-- The capture lane of a record formed in the present cycle (R22). -/
def State.lane (s : State) (p : Nat) : Nat := (p + s.tickNow) % 4

/-- The capture lane of a record that a counter forms at the Mast boundary that closes the present cycle: a tick boundary that
falls there has begun its tick (R22, R61). -/
def State.laneClose (s : State) (p : Nat) : Nat := (p + s.tickClose) % 4

/-- A capture record of port p is dropped: CAPDROP is counted and set (R184). -/
def capDrop (p : Nat) (s : State) : State :=
  portFlag p (PRT_STATUS_CAPDROP p) (s.bump (PRT_ERRCNT3_CAPDROP p))

/-- Port p forms a capture record: it takes the next sequence value, and it is dropped when the 8 places are full
(R184). No record is formed while the timebase is stopped (R538). -/
def captureOn (lane p ty : Nat) (t : Time) (edge : Bool) (aux : Nat) (s : State) : State :=
  if !s.prunning p then s else
  let seq := s.f (PRT_SEQ_SEQ p)
  let r : CapRec := { time := t, idx := p, edge := edge, ty := ty, seq := seq, aux := aux % 2 ^ 32, lane := lane, org := .port p }
  let s := s.setF (PRT_SEQ_SEQ p) (seq + 1)
  if (s.port p).recs.length < 8 then s.modPort p fun x => { x with recs := x.recs ++ [r] }
  else capDrop p s

/-- Port p forms a capture record in the present Mast cycle. -/
def capture (p ty : Nat) (t : Time) (edge : Bool) (aux : Nat) (s : State) : State := captureOn (s.lane p) p ty t edge aux s

/-! ### The output (R177, R178, R188) -/

/-- The level at the pin of a logical output: none while nothing drives (R187, R201). -/
def pinLevel (p mode : Nat) (inv out drv : Bool) : Option Bool :=
  if !drv then none
  else
    let l := out != inv
    if isField p && mode == 3 && !l then none else some l

/-- The driver of port p drives its pin, when its driver state is drv (R187, R189). -/
def State.drives (s : State) (p : Nat) (drv : Bool) : Bool := drv && s.outMode p && !s.flag (PRT_STATUS_OCP p)

/-- The pin level that port p would show with this output and driver state; none where its driver is off or its mode is
no output mode (R187). -/
def State.pinOf (s : State) (p : Nat) (out drv : Bool) : Option Bool :=
  pinLevel p (s.f (PRT_IOCFG_MODE p)) (s.flag (PRT_IOCFG_INV p)) out (s.drives p drv)

/-- The port with its counter snapshot taken for cycle k. -/
def Port.snapFor (x : Port) (k : Nat) : Port :=
  if x.snapMc = some k then x else { x with snapMc := some k, snap := { x.ctr with imm := false }, chgs := [], ctr := { x.ctr with imm := false } }

/-- The logical input of port p changes to l at the stamp, in the present Mast cycle: the filter starts, or a change back
to the filtered level discards the edge (R186); an edge that the filter holds already is no other one. The count is the one of
the cycle with its changes so far; `ctrApply` adds those that are still to come (R183). -/
def rawChange (p : Nat) (l : Bool) (stamp : Time) (s : State) : State :=
  let x := (s.port p).snapFor s.mc
  if l = x.level then s.setPort p { x with raw := none }
  else if x.raw.isSome then s
  else s.setPort p { x with raw := some ⟨l, stamp, x.ctr.cnt, s.mc, s.prunning p⟩ }

/-- The output of port p makes an edge when it becomes out with driver state drv: the logical output changes, and the
driver drives (R177). HIZ and DRIVE keep the logical output, so they make none (R174). -/
def State.makesEdge (s : State) (p : Nat) (out drv : Bool) : Bool := (s.port p).out != out && s.drives p drv

/-- The output takes its new state at time t. In an output mode the capture unit sees the pin's readback (R182). -/
def outEdge (p : Nat) (t : Time) (out drv : Bool) (s : State) : State :=
  let x := s.port p
  let shown := s.pinOf p x.out x.drv
  let new := s.pinOf p out drv
  let s' := s.setPort p { x with out := out, drv := drv, edge := if s.makesEdge p out drv then some t else x.edge }
  if new.getD x.pin ≠ shown.getD x.pin && s.outMode p then rawChange p ((new.getD x.pin) != s.flag (PRT_IOCFG_INV p)) t s' else s'

/-- An output change at time t: held to the previous edge plus the spacing where it would make an edge too close, else it
takes effect (R177). -/
def outChange (p : Nat) (t : Time) (out drv : Bool) (s : State) : State :=
  match (s.port p).edge with
  | some r =>
    if s.makesEdge p out drv && decide ((t - r).toNat < spacing p) then
      portFlag p (PRT_STATUS_SPACING p) (s.modPort p fun x => { x with held := some (r + fc (spacing p), out, drv) })
    else outEdge p t out drv s
  | none => outEdge p t out drv s

/-- The output and driver state that the next change starts from: the net of the actions of one time, or the held result
while one waits (R176, R177). -/
def Port.net (x : Port) : Bool × Bool := match x.acc, x.held with
  | some (_, o, d), _ => (o, d)
  | none, some (_, o, d) => (o, d)
  | none, none => (x.out, x.drv)

/-- Apply a new output and driver state at time t, to the held result while one waits (R177). -/
def outApply (p : Nat) (t : Time) (out drv : Bool) (s : State) : State :=
  match (s.port p).held with
  | some (h, _, _) => s.modPort p fun x => { x with held := some (h, out, drv) }
  | none => outChange p t out drv s

/-- The effect of an output code on output and driver state (R174). -/
def outEffect (code : Nat) (o d : Bool) : Bool × Bool :=
  match code with
  | 0x01 => (true, d)
  | 0x02 => (false, d)
  | 0x03 => (!o, d)
  | 0x04 => (true, d)
  | 0x06 => (o, false)
  | 0x07 => (o, true)
  | _ => (o, d)

/-- The output codes (R174). -/
def outCode (c : Nat) : Bool := c == 1 || c == 2 || c == 3 || c == 4 || c == 6 || c == 7

/-- A late record is kept: it came from a tracker, or the policy is EXECUTE-LATE (R181). -/
def State.keepLate (s : State) (p : Nat) (a : Action) : Bool := a.trk || !s.flag (PRT_POLICY_LATE p)

/-- A queued entry executes when it is due: a late one follows the policy in force then (R203). -/
def State.executes (s : State) (p : Nat) (e : QEntry) : Bool := !e.late || s.keepLate p e.act

/-- More output actions of time t are to come at port p: queued ones, then those of the Mast boundary at t (R176, R196). -/
def State.moreOut (s : State) (p : Nat) (t : Time) : Bool :=
  let x := s.port p
  (s.portEn p && x.queue.any fun e => e.at_ == t && outCode e.act.code && s.executes p e) || x.later.any fun l => l.1 == t

/-- The output actions of one time take effect together: the last of them applies the net result (R176). -/
def outGroup (p : Nat) (t : Time) (out drv : Bool) (s : State) : State :=
  if s.moreOut p t then s.modPort p fun x => { x with acc := some (t, out, drv) }
  else outApply p t out drv (s.modPort p fun x => { x with acc := none })

/-- An output action at time t: it cancels a pending pulse end, and a PULSE sets its own (R178). -/
def outAction (p code : Nat) (t : Time) (width : Nat) (s : State) : State :=
  let x := s.port p
  let (o, d) := outEffect code x.net.1 x.net.2
  let s := s.setPort p { x with pulseEnd := if code = 0x04 then some (t + fc width) else none }
  outGroup p t o d s

/-- Output and driver state from PRT_IOCFG.REST; a port drives only in an output mode (R188, R424). -/
def toRest (p : Nat) (t : Time) (s : State) : State :=
  let r := s.f (PRT_IOCFG_REST p)
  outEdge p t (r == 2) ((r == 1 || r == 2) && s.outMode p) (s.modPort p fun x => { x with held := none, acc := none })

/-! ### Output changes of a Mast boundary (R188, R196, R197) -/

/-- One output change of the Mast boundary at time t. -/
def lateOut (p : Nat) (t : Time) (o : LateOut) (s : State) : State :=
  match o with
  | .code c w => outAction p c t w s
  | .rest => toRest p t s

/-- The output changes of a Mast boundary that has come take effect, each after every queued output action of its time
(R196); n bounds how many. -/
def settleN (p : Nat) : Nat → State → State
  | 0, s => s
  | n + 1, s =>
    match (s.port p).later with
    | [] => s
    | (t, o) :: l =>
      if (future t (s.pnow p) && s.prunning p) || (s.portEn p && (s.port p).queue.any fun e => e.at_ == t && outCode e.act.code && s.executes p e) then s
      else settleN p n (lateOut p t o (s.modPort p fun x => { x with later := l }))

/-- What waits at port p for the rest of its time takes effect when nothing more of that time is to come. -/
def outSettle (p : Nat) (s : State) : State :=
  let s := settleN p (s.port p).later.length s
  match (s.port p).acc with
  | some (t, o, d) => if s.moreOut p t then s else outApply p t o d (s.modPort p fun x => { x with acc := none })
  | none => s

/-- An output change comes with the Mast boundary at time t, at once where that has come. -/
def outLater (p : Nat) (t : Time) (o : LateOut) (s : State) : State :=
  let s' := s.modPort p fun x => { x with later := x.later ++ [(t, o)] }
  if future t (s.pnow p) then s' else outSettle p s'

/-- The output changes of the Mast boundary that begins the present cycle. -/
def portsSettle (s : State) : State :=
  s.ports.foldl (init := s) fun s p => if p.2.later.isEmpty && p.2.acc.isNone then s else outSettle p.1 s

/-! ### The counter (R190 to R196) -/

/-- One change of a counter in Mast cycle k (R192 to R194). -/
def ctrChange (k presc : Nat) (c : Counter) : CtrChg → Counter
  | .load v => { c with cnt := v % 2 ^ 48, imm := true, base := k, presc := presc }
  | .loadAct => { c with cnt := c.act, imm := true, base := k, presc := presc }
  | .cload v => { c with cnt := c.upper * 2 ^ 32 + v % 2 ^ 32, upper := 0, imm := true, base := k, presc := presc }
  | .rld v => { c with rld := v % 2 ^ 48, act := if c.run then c.act else v % 2 ^ 48 }
  | .crld v =>
    let n := c.upper * 2 ^ 32 + v % 2 ^ 32
    { c with rld := n, act := if c.run then c.act else n, upper := 0 }
  | .cmp v => { c with cmp := v % 2 ^ 48, imm := true }
  | .ccmp v => { c with cmp := c.upper * 2 ^ 32 + v % 2 ^ 32, upper := 0, imm := true }
  | .run on => if on && !c.run then { c with run := true, base := k, presc := presc } else { c with run := on }
  | .upper v => { c with upper := v % 2 ^ 16 }

/-- The changes of a cycle in the order of R192: by rank, and in arrival order within a rank. -/
def rankInsert (r : Nat) (ch : CtrChg) : List (Nat × CtrChg) → List (Nat × CtrChg)
  | [] => [(r, ch)]
  | (r', c') :: l => if r < r' then (r, ch) :: (r', c') :: l else (r', c') :: rankInsert r ch l

/-- The counter after a list of changes. -/
def ctrFold (k presc : Nat) (c : Counter) (l : List (Nat × CtrChg)) : Counter :=
  l.foldl (fun c p => ctrChange k presc c p.2) c

/-- Apply a change of rank r (0 a queued action, 1 a register write, 2 an arm pulse) to the counter of port p in
the present cycle; whatever order the changes come in, they take effect in the order of R192. The count of an edge of the
cycle follows (R183). -/
def ctrApply (p r : Nat) (ch : CtrChg) (s : State) : State :=
  s.modPort p fun x =>
    let x := x.snapFor s.mc
    let l := rankInsert r ch x.chgs
    let c := ctrFold s.mc (s.f (PRT_CPRESC_PRESC p)) x.snap l
    { x with chgs := l, ctr := c, raw := x.raw.map fun e => if e.mc = s.mc then { e with count := c.cnt } else e }

/-- A step cause of port p falls at Mast boundary b (R190). -/
def stepAt (p b : Nat) (c : StepCause) (s : State) : State := s.modPort p fun x => { x with steps := x.steps ++ [(b, c)] }

/-- A cause is one that the step source CSRC, with LSRC and ARMFN, names (R190). -/
def causeCounts (csrc lsrc armfn : Nat) : StepCause → Bool
  | .edge r => (csrc == 1 && r) || (csrc == 2 && !r) || csrc == 3
  | .link k j => csrc == k && lsrc == j
  | .arm => csrc == 6 && armfn == 0

/-- A link carries an event of port j to the other ports of its group (R195): at the same boundary b to a higher index,
at the next to a lower one. -/
def ctrLink (j b csrc : Nat) (s : State) : State :=
  (List.range 8).foldl (init := s) fun s k =>
    let i := 8 * (j / 8) + k
    if i = j then s else stepAt i (if j < i then b else b + 1) (.link csrc (j % 8)) s

/-- An output change that a counter event makes at the boundary (R196); code 1 sets, 2 clears, 3 toggles. -/
def ctrOut (p code : Nat) (t : Time) (s : State) : State :=
  if code = 0 then s else outLater p t (.code code 0) s

/-- A match event at boundary b, time t (R196). -/
def matchEvent (p b : Nat) (t : Time) (s : State) : State :=
  let s := pulseAt (0xC0 + p) b (s.raise (PRT_CSTAT_MATCH p))
  let s := if s.flag (PRT_CAPCFG_MATCHREC p) then captureOn (s.laneClose p) p 0x04 t false (s.port p).ctr.cmp s else s
  ctrLink p b 5 s

/-- A zero event at boundary b, time t (R196). -/
def zeroEvent (p b : Nat) (t : Time) (s : State) : State :=
  let s := pulseAt (0x60 + p) b (s.raise (PRT_CSTAT_ZERO p))
  let s := if s.flag (PRT_CAPCFG_ZEROREC p) then captureOn (s.laneClose p) p 0x05 t false (s.port p).ctr.act s else s
  ctrLink p b 4 s

/-- The closing boundary b is one at which the counter steps (R190): a cause that the step source in force names fell
there, or the prescaler is due. -/
def ctrDue (csrc lsrc armfn b : Nat) (x : Port) : Bool :=
  x.steps.any (fun k => k.1 == b && causeCounts csrc lsrc armfn k.2) || (csrc == 0 && (b - x.ctr.base) % (x.ctr.presc + 1) == 0)

/-- One step of a counter (R191): the counter, whether it stepped into 0, whether it stepped into the compare. DESIGN CHOICE: a
periodic step from 0 with an active reload value of 0 is a match with a compare of 0 and no zero event (R191, R194). -/
def ctrStep (oneshot : Bool) (c : Counter) : Counter × Bool × Bool :=
  if c.cnt = 1 then ({ c with cnt := 0, act := c.rld }, true, c.cmp == 0)
  else if 0 < c.cnt then ({ c with cnt := c.cnt - 1 }, false, c.cmp == c.cnt - 1)
  else if oneshot then ({ c with run := false }, false, false)
  else ({ c with cnt := c.act }, false, c.cmp == c.act)

/-- The counter of port p at the boundary that closes the present Mast cycle (R190, R191, R194, R196). One boundary
is evaluated once. -/
def counterClose (p : Nat) (s : State) : State :=
  let b := s.mc + 1
  let x := (s.port p).snapFor s.mc
  if b ≤ x.closed then s else
  let en := s.portEn p
  let step := en && x.ctr.run && ctrDue (s.f (PRT_CCTRL_CSRC p)) (s.f (PRT_CCTRL_LSRC p)) (s.f (PRT_ARMCFG_ARMFN p)) b x
  let imm := en && s.flag (PRT_CCTRL_IMMEDIATE_EQ p) && x.ctr.imm && x.ctr.cnt == x.ctr.cmp
  let (c, zero, hit) := if step then ctrStep (s.flag (PRT_CCTRL_ONESHOT p)) x.ctr else (x.ctr, false, false)
  let isMatch := hit || imm
  let c := { c with imm := false }
  let s := s.setPort p { x with ctr := c, snap := c, chgs := [], closed := b, steps := x.steps.filter fun k => decide (b < k.1) }
  let t := s.pclose p
  let s := if isMatch then matchEvent p b t s else s
  let s := if zero then zeroEvent p b t s else s
  let s := if isMatch then ctrOut p (s.f (PRT_CCTRL_CMPOUT p)) t s else s
  if zero then ctrOut p (s.f (PRT_CCTRL_ZEROOUT p)) t s else s

/-- The port of a lower index that the counter of port p is linked to (R190, R195). -/
def State.linkedBelow (s : State) (p : Nat) : Option Nat :=
  let c := s.f (PRT_CCTRL_CSRC p)
  let j := s.f (PRT_CCTRL_LSRC p)
  if (c == 4 || c == 5) && decide (j < p % 8) then some (8 * (p / 8) + j) else none

/-- The counters that port p is linked to are evaluated before it, in ascending order (R195); n bounds how many. -/
def closeBelow : Nat → Nat → State → State
  | 0, _, s => s
  | n + 1, p, s => match s.linkedBelow p with
    | some j => counterClose j (closeBelow n j s)
    | none => s

/-- COUNTER_STEP: the counter of port p, after those below it that it follows at the same boundary (R190, R195). -/
def counterStep (p : Nat) (s : State) : State := counterClose p (closeBelow 7 p s)

/-! ### Arrival of action records (R174, R175, R179, R181) -/

/-- The codes of R174. -/
def codeListed (c : Nat) : Bool :=
  c ≤ 4 || (6 ≤ c && c ≤ 0x0E) || c == 0x10 || c == 0x11 || c == 0x18 || c == 0x19

/-- A record that the port takes: its code is listed, a PULSE has a width, and an output code finds an output mode
(R174). -/
def recordOk (s : State) (p : Nat) (a : Action) : Bool :=
  codeListed a.code && !(a.code == 4 && a.param % 2 ^ 32 == 0) && (!outCode a.code || s.outMode p)

/-- A record is late at the port (R181). -/
def State.lateAt (s : State) (a : Action) : Bool := a.late || !future a.time (s.pnow a.port)

/-- Count a late entry (R181). -/
def countLate (p : Nat) (s : State) : State := portFlag p (PRT_STATUS_LATE p) (s.bump (PRT_ERRCNT1_LATE p))

/-- Place an entry in time order, after entries of the same time (R176). -/
def qInsert (e : QEntry) : List QEntry → List QEntry
  | [] => [e]
  | x :: l => if future x.act.time e.act.time then e :: x :: l else x :: qInsert e l

/-- The entry that a record becomes: it executes at its time, or at the first Mast boundary at or after its arrival
where it arrives at or after its time (R181). -/
def State.entry (s : State) (a : Action) : QEntry :=
  { act := a, late := s.lateAt a, at_ := if future a.time (s.pnow a.port) then a.time else s.pclose a.port }

/-- Discard for a disabled port or a full queue (R175). -/
def qDrop (p : Nat) (s : State) : State := portFlag p (PRT_STATUS_QFULL p) (s.bump (PRT_ERRCNT1_QDROP p))

/-- Discard for an unlisted code or a wrong mode (R174). -/
def badCode (p : Nat) (s : State) : State := portFlag p (PRT_STATUS_BADCODE p) (s.bump (PRT_ERRCNT2_BAD p))

/-- A RETIME or CANCEL that found no entry (R179). -/
def retMiss (p : Nat) (s : State) : State := portFlag p (PRT_STATUS_RETMISS p) (s.bump (PRT_ERRCNT2_RETMISS p))

/-- A record that needs an entry arrives: the tests of R175 in their order. -/
def arrive (p : Nat) (a : Action) (s : State) : State :=
  if !s.portEn p then qDrop p s
  else if !recordOk s p a then badCode p s
  else
    let late := s.lateAt a
    if late && !s.keepLate p a then countLate p s
    else if 32 ≤ (s.port p).queue.length then qDrop p s
    else
      let e := s.entry a
      let s := s.modPort p fun x => { x with queue := qInsert e x.queue }
      if late then countLate p s else s

/-- An entry that RETIME and CANCEL see: tag and owner match, and it is not committed (R179). -/
def State.sees (s : State) (a : Action) (e : QEntry) : Bool :=
  e.act.tag == a.tag && e.act.owner == a.owner && !future (s.pnow a.port + 512) e.act.time

/-- RETIME on arrival (R179): the first matching entry moves to the record's time. DESIGN CHOICE: an entry that arrived late and
is made late again counts in LATE a second time (R181). -/
def retime (p : Nat) (a : Action) (s : State) : State :=
  if !s.portEn p then qDrop p s else
  match (s.port p).queue.find? (s.sees a) with
  | none => retMiss p s
  | some e =>
    let new : Action := { e.act with time := a.time, trk := a.trk, late := a.late }
    let s := s.modPort p fun x => { x with queue := x.queue.erase e }
    let late := s.lateAt new
    let s := if late then countLate p s else s
    if late && !s.keepLate p new then s
    else s.modPort p fun x => { x with queue := qInsert (s.entry new) x.queue }

/-- CANCEL on arrival (R179): every matching entry is removed. -/
def cancel (p : Nat) (a : Action) (s : State) : State :=
  if !s.portEn p then qDrop p s else
  let q := (s.port p).queue
  if q.any (s.sees a) then outSettle p (s.modPort p fun x => { x with queue := q.filter fun e => !s.sees a e })
  else retMiss p s

/-! ### Execution (R173, R174, R176) -/

/-- What an action does beside its MARK and EVT flags (R174). -/
def actEffect (p : Nat) (a : Action) (t : Time) (s : State) : State :=
  match a.code with
  | 0x08 => ctrApply p 0 (.cload a.param) s
  | 0x09 => ctrApply p 0 (.crld a.param) s
  | 0x0A => ctrApply p 0 (.ccmp a.param) s
  | 0x0B => ctrApply p 0 (.run true) s
  | 0x0C => ctrApply p 0 (.run false) s
  | 0x0D =>
    let x := (s.port p).snapFor s.mc
    let n := (ctrFold s.mc (s.f (PRT_CPRESC_PRESC p)) x.snap (x.chgs.filter fun q => q.1 == 0)).cnt
    capture p 0x03 a.time false (if a.param.testBit 0 then n >>> 32 else n) s
  | 0x0E => ctrApply p 0 (.upper a.param) s
  | 0x10 => s.modPort p fun x => { x with gate := (t, true) :: x.gate }
  | 0x11 => s.modPort p fun x => { x with gate := (t, false) :: x.gate }
  | c => if outCode c then outAction p c t (a.param % 2 ^ 32) s else s

/-- The auxiliary word of a MARK record (R183). -/
def markAux (a : Action) (late : Bool) : Nat :=
  a.tag % 2 ^ 12 + (a.code % 2 ^ 5) * 2 ^ 12 + (if late then 2 ^ 17 else 0)

/-- Execute a queue entry: its effect, then its MARK record, then its EVT pulse (R173). DESIGN CHOICE: the edge bit of the record
is the output that the action leaves, also where that is held by R177 or waits for other actions of its time (R183). -/
def runEntry (p : Nat) (e : QEntry) (s : State) : State :=
  let s := actEffect p e.act e.at_ s
  let s := if e.act.mark then capture p 0x02 e.at_ (s.port p).net.1 (markAux e.act e.late) s else s
  if e.act.evt then pulse (0x120 + p / 8) s else s

/-- The first entry of the queue of port p that is due in the present cycle, when the port is enabled and the timebase runs
(R20, R41, R176, R188). -/
def State.dueHead (s : State) (p : Nat) : Option QEntry :=
  if s.portEn p && s.prunning p then
    (s.port p).queue.find? fun e => s.pdue p e.at_
  else none

/-- The step of an action code: the head entry of the queue executes when it is due and carries the code; a late one that
the policy in force removes has no effect (R203). -/
def runAction (code p : Nat) (s : State) : State :=
  match s.dueHead p with
  | some e => if e.act.code = code then
      let t := s.modPort p fun x => { x with queue := x.queue.erase e }
      outSettle p (if s.executes p e then runEntry p e t else t)
    else s
  | none => s

/-- A pending pulse end comes due: the logical output becomes 0 (R178). -/
def pulseEnd (p : Nat) (s : State) : State :=
  match (s.port p).pulseEnd with
  | some t =>
    if s.portEn p && s.prunning p && s.pdue p t then
      let s := s.modPort p fun x => { x with pulseEnd := none }
      outGroup p t false (s.port p).net.2 s
    else s
  | none => s

/-- The held time of R177 comes: one edge, if the net level differs from the present output. -/
def heldEdge (p : Nat) (s : State) : State :=
  match (s.port p).held with
  | some (t, o, d) =>
    if s.pdue p t then outChange p t o d (s.modPort p fun x => { x with held := none }) else s
  | none => s

/-! ### The input path (R182, R185, R186) -/

/-- The gate is open for a stamp (R185): the newest opening or closing at or before it decides. -/
def gateOpen (t : Time) : List (Time × Bool) → Bool
  | [] => false
  | (u, o) :: l => if reached u t then o else gateOpen t l

/-- The pin of port p takes a level at fine position fine of the present cycle (R182, R186). In an output mode the
calibrated driver delay is removed from the stamp (R182). A port without power makes no edge of it, and finds the level when its
domain is declared on (R504). -/
def inputEdge (p : Nat) (lvl : Bool) (fine : Nat) (s : State) : State :=
  if !s.phys (portDom p) then s.modPort p fun x => { x with pin := lvl, level := lvl } else
  let s := s.modPort p fun x => { x with pin := lvl }
  let t := s.pnow p + fc fine
  rawChange p (lvl != s.flag (PRT_IOCFG_INV p)) (if s.outMode p then t - fc (Config.driverDelay p) else t) s

/-- The capture unit takes a qualified edge (R182, R184, R185). -/
def captureEdge (p : Nat) (e : RawEdge) (s : State) : State :=
  let sel := s.f (PRT_CAPCFG_EDGE p)
  if !(e.ran && s.portEn p && (if e.level then sel.testBit 0 else sel.testBit 1)) then s else
  let x := s.port p
  let near := match x.stamped with
    | some u => decide ((e.stamp - u).toNat < spacing p)
    | none => false
  if near then portFlag p (PRT_STATUS_CAPMISS p) (s.bump (PRT_ERRCNT3_CAPMISS p))
  else
    let s := s.setPort p { x with stamped := some e.stamp }
    if s.flag (PRT_CAPCFG_GATED p) && !gateOpen e.stamp x.gate then s
    else capture p 0x01 e.stamp e.level e.count s

end Sys2Proof.Machine
end

