-- ==== Sys2Proof/Machine/Records.lean ====
section
/-! DEFINITION. The hand-over of action records: ownership, lateness at the seal, the Stay send queues and the
LVDS path (R28, R30, R77, R79, R144, R180, R490). -/

namespace Sys2Proof.Machine

open Sys2Proof Reg

/-- A discard by the ownership check (R28, R29): ty is 1 for an engine and 2 for a tracker. -/
def ownErr (ty idx port : Nat) (s : State) : State :=
  (((s.bump GLB_OWNERR_COUNT).setF GLB_OWNERR_SRC_TYPE ty).setF GLB_OWNERR_SRC_INDEX idx).setF GLB_OWNERR_PORT port

/-- Put a checked record on its way: the Stay send queue of its owner code for a field port, the internal path for
an LVDS port, from a Mast cycle on (R77, R79, R143); dropped where the queue holds 128 records (R144) or the port's
domain is off (R490). The second component is true when the record was dropped. -/
def sendRecord (ready : Nat) (a : Action) (s : State) : State × Bool :=
  if !s.on (portDom a.port) then (s, true)
  else if isField a.port then
    if 128 ≤ (s.sendq.filter fun x => x.act.owner == a.owner).length then (s, true) else ({ s with sendq := s.sendq ++ [⟨a, ready⟩] }, false)
  else ({ s with transit := s.transit ++ [⟨a, ready⟩] }, false)

/-- LATE_SEAL of a record sealed at time t (R180, R42). -/
def lateSeal (t : Time) (a : Action) : Bool := !future a.time t || decide ((a.time - t).toNat < horizon a.port)

/-- A record that engine n drops at hand-over (R144, R490); e is the instance that issued it. -/
def recDrop (e : Nat) (s : State) : State := (s.bump (COIL_DROPCNT_REC e)).raise (COIL_FLAGS_DROP e)

/-- Hand on one record in the name of engine n, sealed at time t by instance e (R28, R143, R180); it is on its way from
Mast cycle `ready`. -/
def handOn (e n ready : Nat) (t : Time) (a : Action) (s : State) : State :=
  if s.ownerOf a.port ≠ n then ownErr 1 n a.port s
  else
    let (s, drop) := sendRecord ready { a with trk := false, late := lateSeal t a, owner := n } s
    if drop then recDrop e s else s

/-- Hand on a batch in order (R117). -/
def handBatch (e n ready : Nat) (t : Time) (batch : List Action) (s : State) : State :=
  batch.foldl (fun s a => handOn e n ready t a s) s

/-- The first record on its way to port p. -/
def State.nextFor (s : State) (p : Nat) : Option Transit := s.transit.find? fun t => t.act.port == p && decide (t.ready ≤ s.mc)

/-- Take the first record on its way to port p off the path. -/
def takeTransit (t : Transit) (s : State) : State := { s with transit := s.transit.erase t }

end Sys2Proof.Machine
end

