-- ==== Sys2Proof/Machine/Engines.lean ====
section
/-! DEFINITION. Running Coil engines: protection, faults, locks, trace, the run of a tick program and its
instructions (R87 to R171, R539). -/

namespace Sys2Proof.Machine

open Sys2Proof Reg

/-! ### Engines -/

/-- The last engine cycle of the present Mast cycle, counted from the first Mast cycle. -/
def State.ecNow (s : State) : Nat := 4 * s.mc + 3

/-- The domain of engine e (R131). -/
def engDom (e : Nat) : Nat := if e < 16 then dCL (e / 4) else dKILN

/-- The SGA bank that engine e reaches as near (R92). -/
def State.nearBank (s : State) (e : Nat) : Nat := s.rights e / 4 % 4

/-- Register x of an engine; g0 reads zero (R87). -/
def Engine.r (x : Engine) (i : Nat) : DWord := if i = 0 then 0 else mget x.g i 0

/-- Write register i; a write to g0 is discarded (R87). -/
def Engine.setR (x : Engine) (i : Nat) (v : DWord) : Engine := if i = 0 then x else { x with g := mset x.g i v 0 }

/-- COIL_STATUS.STATE of engine e (R131). HOLD counts from the boundary at which it applies (R162). -/
def State.engState (s : State) (e : Nat) : Nat :=
  if !s.on (engDom e) then 0 else
  match (s.eng e).st with
  | .idle => 1
  | .running => if (s.eng e).held && !(s.eng e).stepping then 3 else 2
  | .faulted => 4
  | .spare => 5
  | .standin => 6

/-! ### Trace (R164, R165) -/

/-- A trace entry (R164). -/
def traceWord (pcw ecyc data kind : Nat) : DWord :=
  BitVec.ofNat 64 (pcw % 2 ^ 16 + (ecyc % 2 ^ 32) * 2 ^ 16 + (data % 2 ^ 8) * 2 ^ 48 + kind * 2 ^ 60)

/-- Write a trace entry of engine e while TRACE is 1: dropped when 16 entries wait (R165). -/
def traceEntry (e pcw ecyc data kind : Nat) (s : State) : State :=
  if !s.flag (COIL_CTRL_TRACE (s.rights e)) then s
  else
    let x := s.eng e
    if 16 ≤ x.trace.length then (s.bump (COIL_DROPCNT_TRC e)).raise (COIL_FLAGS_TRDROP e)
    else
      tracePost e (4 * s.mc) (s.setEng e { x with trace := x.trace ++ [traceWord pcw ecyc data kind] })

/-- The PC offset of a run divided by 4 (R164, R170). -/
def pcOff (x : Engine) (r : Run) : Nat := (r.pc - x.image.base) / 4

/-! ### Locks (R119, R120, R146 to R148) -/

/-- The result of TRYL by engine n (R119). -/
def tryLock (n : Nat) (l : Lock) : Nat × Lock :=
  match l.held with
  | some m => (if m = n then 3 else 2, l)
  | none => (if l.aband then 1 else 0, { held := some n, aband := false })

/-- A lock after one request, with TRYL's result: UNL releases a lock that its engine holds, and so does a reset or force, which
marks it ABANDONED (R119, R120, R147, R148). -/
def lockPlay (q : LockReq) (l : Lock) : Nat × Lock :=
  if q.rd.isSome then tryLock q.num l
  else (0, if l.held = some q.num then { held := none, aband := l.aband || q.aband } else l)

/-- Request p comes before request q at the lock unit: in an earlier engine cycle, or in the same one as a release before an
acquisition or as an acquisition of a lower engine number (R120). -/
def lockFirst (p q : LockReq) : Bool :=
  decide (p.cyc < q.cyc) || (p.cyc == q.cyc && q.rd.isSome && (p.rd.isNone || decide (p.num < q.num)))

/-- Place a request after those that do not come after it. -/
def lockInsert (q : LockReq) : List LockReq → List LockReq
  | [] => [q]
  | p :: l => if lockFirst q p then q :: p :: l else p :: lockInsert q l

/-- Requests at one lock in the order in which the lock unit performs them. -/
def lockOrder (l : List LockReq) : List LockReq := l.foldl (fun a q => lockInsert q a) []

/-- A TRYL that still waits for its completion receives its result. -/
def lockAnswer (q : LockReq) (v : Nat) (s : State) : State :=
  match q.rd with
  | none => s
  | some rd => s.modEng q.inst fun x =>
    if x.run.any fun r => r.ec0 + r.ec == q.cyc + 4 then x.setR rd (BitVec.ofNat 64 v) else x

/-- Requests in order at a lock that stands at l: each TRYL gets its result. -/
def lockServe : List LockReq → Lock → State → Lock × State
  | [], l, s => (l, s)
  | q :: qs, l, s =>
    let x := lockPlay q l
    lockServe qs x.2 (lockAnswer q x.1 s)

/-- The requests of the present Mast cycle at lock k so far. -/
def State.lockReqs (s : State) (k : Nat) : List LockReq := s.lockNow.filter (·.lock == k)

/-- Lock k as it stood before the first request of the Mast cycle. -/
def State.lockWas (s : State) (k : Nat) : Lock := (((s.lockReqs k).head?).map (·.was)).getD (mget s.locks k {})

/-- Lock k as engine cycle c finds it. -/
def State.lockSeen (s : State) (c k : Nat) : Lock :=
  (lockOrder ((s.lockReqs k).filter fun q => decide (q.cyc < c))).foldl (fun l q => (lockPlay q l).2) (s.lockWas k)

/-- A request reaches its lock. The lock unit takes the requests of a Mast cycle in their engine cycles, and orders those of one
engine cycle (R120), in whatever order their commands come: an earlier command's TRYL, whose 4 cycles have not passed, receives
its result anew. -/
def lockAsk (q : LockReq) (s : State) : State :=
  let q := { q with was := s.lockWas q.lock }
  let x := lockServe (lockOrder (s.lockReqs q.lock ++ [q])) q.was s
  { x.2 with locks := mset x.2.locks q.lock x.1 {}, lockNow := x.2.lockNow ++ [q] }

/-- The engine cycle of a release by STOP, FORCE or a switch-off. DESIGN CHOICE: their commands carry none; it is the first of the
Mast cycle, or the one after the last request of the lock's holder in it (R147, R148). -/
def State.releaseCyc (s : State) (n k : Nat) : Nat :=
  ((s.lockReqs k).filter (·.num == n)).foldl (fun c q => max c (q.cyc + 1)) (4 * s.mc)

/-- Lock k, held under engine number n, is released and marked ABANDONED (R147). -/
def lockAbandon (c : Option Nat) (n k : Nat) (s : State) : State :=
  lockAsk { cyc := c.getD (s.releaseCyc n k), lock := k, num := n, aband := true } s

/-- Release every lock held under engine number n and mark it ABANDONED, in engine cycle c where a reset gives one (R147). -/
def releaseLocks (c : Option Nat) (n : Nat) (s : State) : State :=
  (List.range 64).foldl (fun s k => if (mget s.locks k {}).held = some n then lockAbandon c n k s else s) s

/-! ### Faults (R124, R125, R150, R539) -/

/-- Engine n is protected by CE16 at a fault at t0 (R151, R153): TAKEOVER is 1, CE16 is SPARE and not resetting, the
domain is on, and CE16 is not taking over an engine that faulted earlier, or in the same cycle with a lower number. -/
def State.canTake (s : State) (n t0 : Nat) : Bool :=
  let first := match s.spare.taking with
    | none => true
    | some (m, u) => decide (t0 < u) || (t0 == u && decide (n < m))
  decide (n < 16) && s.flag (COIL_CTRL_TAKEOVER n) && (s.eng 16).st == .spare && first &&
  (s.eng 16).resetAt.isNone && s.on (dCL (n / 4)) && s.on dKILN

/-- A far access of instance e that is under way ends unperformed: its request is withdrawn. -/
def dropFar (e : Nat) (s : State) : State :=
  let mine := fun q : BankReq => q.use == .far e
  (List.range 9).foldl (init := s) fun s b =>
    s.modBank b fun x => { x with pend := x.pend.filter (!mine ·), served := x.served.filter (!mine ·) }

/-- CE16 stands in no longer, and is in the state given: STANDIN returns to 0, its EVIN is 0, and the engine it stood in for
takes CE16's EVIN (R160, R539). -/
def leaveStandin (st : EngState) (s : State) : State :=
  match s.spare.standFor with
  | none => s
  | some n =>
    let ev := (s.eng 16).evin
    let s := dropFar 16 s
    let s := s.modEng n fun x => { x with evin := ev }
    let s := s.setEng 16 { s.eng 16 with st := st, evin := 0, run := none, toRun := false, image := {}, g := [], estat := 0, resetAt := none }
    { s with spare := {}, ticks := [] }

/-- The stand-in of CE16 ends and CE16 is SPARE. -/
def endStandin (s : State) : State := leaveStandin .spare s

/-- A fault of engine e with this code at the absolute engine cycle t0 (R150): the unsealed batch is discarded, the
fault is recorded, the engine stops, and CE16 begins a takeover where it can. A fault of CE16 ends its stand-in at t0, and CE16
is FAULTED until its reset (R539). DESIGN CHOICE: PCW holds the low 16 bits of the PC offset divided by 4, which a PCRANGE fault
can take beyond them (R170). -/
def engineFault (e code pcw ecyc t0 : Nat) (r : Option Run) (take : Bool) (s : State) : State :=
  let s := dropFar e (logFault 1 e code pcw (traceEntry e pcw ecyc code 8 s))
  let s := (((s.setF (COIL_FAULT_CODE e) code).setF (COIL_FAULT_PCW e) pcw).raise (COIL_FLAGS_FAULT e))
  let n := s.spare.standFor
  let s := if e = 16 then { leaveStandin .faulted s with spare.ended := n } else s
  let s := s.modEng e fun x => { x with run := none, toRun := false, st := .faulted, resetAt := some t0, stepping := false }
  if e ≠ 16 && take && s.canTake e t0 then { s with spare.taking := some (e, t0), spare.taken := r } else s

/-- A fault detected in an instruction of a run, d engine cycles after its issue. DESIGN CHOICE: the ECYC of its trace entry is
the engine cycle in which the instruction issued, also where an ECC error strikes later (R150, R164 do not say). -/
def runFault (e : Nat) (r : Run) (code d : Nat) (s : State) : State :=
  engineFault e code (pcOff (s.eng e) r) r.ec (r.ec0 + r.ec + d) (some r) true s

/-- The reset of a faulted engine at t0 + 1 mc (R147, R150, R539). The reset of CE16 releases the locks held under the number of
the engine that it stood in for, and makes it SPARE. -/
def engineReset (e : Nat) (s : State) : State :=
  match (s.eng e).resetAt with
  | some t0 =>
    if decide (t0 + 4 ≤ s.ecNow) then
      let n := if e = 16 then s.spare.ended.getD 16 else e
      let s := pulse 0x23D (releaseLocks (some (t0 + 4)) n (s.modEng e fun x => { x with resetAt := none }))
      if e = 16 then { s.modEng 16 (fun x => { x with st := .spare }) with spare.ended := none } else s
    else s
  | none => s

/-! ### The run of a tick program (R91, R142, R155) -/

/-- The last engine cycle in which SEAL may issue (R63, R129, R155). -/
def runLimit (x : Engine) (r : Run) : Nat :=
  if r.det then 8 + x.image.decl else min (4 * r.period - 56) (8 + x.image.decl)

/-- Start a run: registers and ESTAT come from the checkpoint, the stacks are empty (R89, R142). -/
def startRun (e : Nat) (r : Run) (s : State) : State :=
  let s := s.modEng e fun x => { x with g := x.ck.g, estat := x.ck.estat, run := some r, toRun := false }
  traceEntry e (pcOff (s.eng e) r) r.ec (r.tick % 256) 1 s

/-- The time of an absolute engine cycle on the present count. -/
def State.timeOfEc (s : State) (c : Nat) : Time := s.now + fc (64 * c) - fc (256 * s.mc)

/-- An engine that can issue its next instruction: it is in a run, no far access waits, the issue cycle has come and
lies within the limit (R63, R90, R129). -/
def State.canIssue (s : State) (e : Nat) : Option Run :=
  let x := s.eng e
  match x.run with
  | some r => if r.far.isNone && decide (r.ec ≤ runLimit x r) && decide (r.ec0 + r.ec ≤ s.ecNow) then some r else none
  | none => none

/-- The result of an instruction fetch: the word or a fault code, with the ECC records (R89, R97, R124). -/
def fetch (e : Nat) (r : Run) (s : State) : (Nat ⊕ Coil) × State :=
  let x := s.eng e
  let i := x.image
  if decide (r.pc < i.base) || decide (i.base + i.len < r.pc + 4) then (.inl 5, s)
  else
    let (d, bad, s) := bankRead (s.nearBank e) 0 r.pc 4 s
    if bad then (.inl 6, s)
    else match coilDecode (leNat d) with
      | some c => (.inr c, s)
      | none => (.inl 1, s)

/-- Settle the loop stack at the next address (R114). -/
def settle (d : Nat) : Nat → List Loop → Nat × List Loop
  | a, [] => (a, [])
  | a, t :: l =>
    if t.depth ≠ d then (a, t :: l)
    else if a = t.stop then
      if t.index + 1 < t.count then (t.start, { t with index := t.index + 1 } :: l) else settle d a l
    else if t.stop < a then settle d a l
    else (a, t :: l)

/-- An instruction of cost n completes and the next address is a: the loop stack is settled and the next instruction
issues n cycles later (R90, R91, R114). -/
def advance (e : Nat) (r : Run) (n a : Nat) (s : State) : State :=
  let (pc, ls) := settle r.calls.length a r.loops
  s.modEng e fun x => { x with run := some { r with pc := pc, loops := ls, ec := r.ec + n, issued := true } }

/-- Complete an instruction that goes on to the next word. -/
def advanceNext (e : Nat) (r : Run) (c : Coil) (s : State) : State := advance e r (coilCost c) (r.pc + 4) s

/-- Write rd and complete. -/
def writeRd (e : Nat) (r : Run) (c : Coil) (rd : Nat) (v : DWord) (s : State) : State :=
  advanceNext e r c (s.modEng e fun x => x.setR rd v)

/-- Set an ESTAT bit of engine e (R123). -/
def setEstat (e bit : Nat) (s : State) : State := s.modEng e fun x => { x with estat := x.estat ||| 2 ^ bit }

/-! ### Memory access (R92 to R94, R104 to R110) -/

/-- The width of an access in bytes (R99, R104). -/
def accWidth (size : Nat) (pair : Bool) : Nat := if pair then 16 else 2 ^ size

/-- A loaded item as a register value (R105). -/
def loadVal (size : Nat) (sgn : Bool) (v : Nat) : DWord :=
  if sgn then sext (8 * 2 ^ size) v else BitVec.ofNat 64 v

/-- The bytes that a store writes (R105). -/
def storeBytes (x : Engine) (rs size : Nat) (pair : Bool) : List Byte :=
  if pair then leBytes 8 (x.r rs).toNat ++ leBytes 8 (x.r (rs + 1)).toNat else leBytes (2 ^ size) (x.r rs).toNat

/-- Write what a load read: one item, or a pair into rd and rd + 1 (R104, R105). -/
def loadRegs (rd size : Nat) (sgn pair : Bool) (v : Nat) (x : Engine) : Engine :=
  if pair then (x.setR rd (BitVec.ofNat 64 v)).setR (rd + 1) (BitVec.ofNat 64 (v / 2 ^ 64)) else x.setR rd (loadVal size sgn v)

/-- The n bytes at a lie in the near range of engine e (R92). -/
def State.inNear (s : State) (e a n : Nat) : Bool :=
  let lo := bankBase (s.nearBank e)
  decide (lo ≤ a) && decide (a + n ≤ lo + 0x40000)

/-- The fault of a near access, in the order of R124: ADDR before ALIGN (R92, R94, R105, R107). -/
def nearFault (s : State) (e a n : Nat) (rot store : Bool) : Option Nat :=
  if !s.inNear e a n || (store && s.guardedRange a n) then some 3
  else if !rot && a % n ≠ 0 then some 2
  else none

/-- The cycle after issue in which near data arrives (R106, R363). -/
def nearArrive (pair rot : Bool) : Nat := if rot then 11 else if pair then 6 else 5

/-- The beat of a near access of instance e that issues in this engine cycle (R106, R355, R363). -/
def nearBeat (e c0 : Nat) (s : State) : State :=
  postReq (s.nearBank e) { r := 0, src := s.rights e, stamp := c0, use := .occupy } s

/-- Data that arrives d engine cycles after the issue in run r comes before the engine has overrun (R129, R150). DESIGN CHOICE:
data of the cycle in which an overrun is detected still raises its ECC fault. -/
def Run.intime (x : Engine) (r : Run) (d : Nat) : Bool := decide (r.ec + d ≤ runLimit x r + 1)

/-- LD (R104 to R107). A double-bit error that would arrive after the engine has overrun raises nothing (R129). -/
def doLd (e : Nat) (r : Run) (c : Coil) (rd ra size : Nat) (sgn pair rot : Bool) (off : Nat) (s : State) : State :=
  let a := ((s.eng e).r ra + sext 13 off).toNat
  let n := accWidth size pair
  match nearFault s e a n rot false with
  | some f => runFault e r f 0 s
  | none =>
    let (d, bad, s) := bankRead (s.nearBank e) 0 a n (nearBeat e (r.ec0 + r.ec) s)
    if !bad then advanceNext e r c (s.modEng e (loadRegs rd size sgn pair (leNat d)))
    else if r.intime (s.eng e) (nearArrive pair rot) then runFault e r 6 (nearArrive pair rot) s
    else advanceNext e r c s

/-- ST (R104 to R107). DESIGN CHOICE: the store is performed as it issues, so that an overrun that comes before its 6, 7 or 12
cycles have passed lets it stand (R125, R129). -/
def doSt (e : Nat) (r : Run) (c : Coil) (rs ra size : Nat) (pair rot : Bool) (off : Nat) (s : State) : State :=
  let x := s.eng e
  let a := (x.r ra + sext 13 off).toNat
  let n := accWidth size pair
  match nearFault s e a n rot true with
  | some f => runFault e r f 0 s
  | none => advanceNext e r c (bankWrite (s.nearBank e) 0 a ((storeBytes x rs size pair).map some) (nearBeat e (r.ec0 + r.ec) s))

/-- The registers that an engine reaches by a far access (R92). -/
def engineReg (a : Nat) : Bool :=
  (0x80000000 ≤ a && a < 0x80060000) || (0x80084000 ≤ a && a < 0x800B0000) || (0x800C0000 ≤ a && a < 0x800D0000)

/-- A byte that a far access of this kind reaches (R92). -/
def farByte (store : Bool) (a : Nat) : Bool :=
  a < 0x180000 || (0x200000 ≤ a && a < 0x208000) || (!store && 0x400000 ≤ a && a < 0x800000) || engineReg a

/-- The fault of a far access at its issue (R92 to R94, R105, R110, R124). -/
def farFault (s : State) (a size : Nat) (pair store : Bool) : Option Nat :=
  let n := accWidth size pair
  if !(List.range n).all (fun i => farByte store (a + i)) || (0x80000000 ≤ a && (pair || size < 2)) ||
     (store && decide (a < 0x80000000) && s.guardedRange a n) then some 3
  else if a % n ≠ 0 then some 2
  else none

/-- LDF and STF issue: the request goes to the target's arbiter in the next cycle, with its last permitted grant
cycle (R109, R364); a register is granted by its own command. -/
def doFar (e : Nat) (r : Run) (store : Bool) (rg ra size : Nat) (sgn pair : Bool) (lim off : Nat) (s : State) : State :=
  let a := ((s.eng e).r ra + BitVec.ofNat 64 (8 * off)).toNat
  match farFault s a size pair store with
  | some f => runFault e r f 0 s
  | none =>
    let c0 := r.ec0 + r.ec
    let s := s.modEng e fun x => { x with run := some { r with issued := true, far := some ⟨store, rg, size, sgn, pair, a, c0, 4 * lim⟩ } }
    match bankOf a with
    | some b =>
      if a < 0x80000000 then
        postReq b { r := 1 + s.rights e / 4 % 4, src := s.rights e, stamp := c0 + 1, last := some (c0 + 4 * lim - 1), use := .far e } s
      else s
    | none => s

/-! ### The instructions -/

/-- The program of special registers: MFS reads them (R95, R96, R115). -/
def sregVal (s : State) (e : Nat) (x : Engine) (r : Run) : Nat → DWord
  | 0x00 => BitVec.ofNat 64 (s.rights e % 32 + if e = 16 then 256 else 0)
  | 0x01 => BitVec.ofNat 64 r.tick
  | 0x02 => r.ttime
  | 0x03 => BitVec.ofNat 64 r.period
  | 0x04 => r.time0 + fc (64 * r.ec)
  | 0x05 => BitVec.ofNat 64 r.ec
  | 0x06 => BitVec.ofNat 64 (4 * r.period - 64)
  | 0x07 => BitVec.ofNat 64 x.image.decl
  | 0x08 => BitVec.ofNat 64 r.batch.length
  | 0x09 => BitVec.ofNat 64 x.estat
  | 0x0A => BitVec.ofNat 64 x.evin
  | 0x0B => BitVec.ofNat 64 (match r.loops with | t :: _ => t.index | [] => 0)
  | 0x0C => BitVec.ofNat 64 x.image.base
  | 0x0D => BitVec.ofNat 64 r.calls.length
  | _ => 0

/-- An action record from its two registers (R116, R173). -/
def mkAction (t h : DWord) : Action :=
  let v := h.toNat
  { time := t, port := bitsOf v 0 7, code := bitsOf v 7 5, tag := bitsOf v 12 12, param := bitsOf v 24 32,
    mark := v.testBit 56, evt := v.testBit 57 }

/-- ACT and ACTP: add the record to the batch (R116). -/
def addRecord (e : Nat) (r : Run) (c : Coil) (a : Action) (s : State) : State :=
  if 64 ≤ r.batch.length then advanceNext e r c (setEstat e 2 s)
  else if 95 < a.port then advanceNext e r c (setEstat e 3 s)
  else
    let s := traceEntry e (pcOff (s.eng e) r) r.ec (r.batch.length + 1) 6 s
    advanceNext e { r with batch := r.batch ++ [a] } c s

/-- LOOP (R113): STACK with four entries, or with an end beyond the innermost entry of the same depth. -/
def doLoop (e : Nat) (r : Run) (c : Coil) (ra mx len : Nat) (s : State) : State :=
  let d := r.calls.length
  let stop := r.pc + 4 + 4 * len
  let beyond := match r.loops.find? (fun t => t.depth == d) with
    | some t => decide (t.stop < stop)
    | none => false
  if 4 ≤ r.loops.length || beyond then runFault e r 4 0 s
  else
    let n := min ((s.eng e).r ra).toNat mx
    if n = 0 then advance e r (coilCost c) stop s
    else advance e { r with loops := ⟨r.pc + 4, stop, n, 0, d⟩ :: r.loops } (coilCost c) (r.pc + 4) s

/-- A dry seal of instance e, with the settings of engine n: the records of its batch are to be written to the dry region in
order, each in a beat of SGH (R163). DESIGN CHOICE: a dry seal makes none of R143's ownership tests, since its records are
written even where the port is not owned, and so counts nothing in GLB_OWNERR; and the records carry LATE_SEAL, bit 127, as 0
(R163, R173, R180). -/
def dryWrite (e n : Nat) (batch : List Action) (s : State) : State :=
  let line := fun (a : Action) (i : Nat) =>
    let hi := a.port + a.code * 2 ^ 7 + a.tag * 2 ^ 12 + a.param * 2 ^ 24 + a.mark.toNat * 2 ^ 56 + a.evt.toNat * 2 ^ 57
    (s.f (COIL_DRYBASE_BASE n) + 16 * i, leBytes 8 a.time.toNat ++ leBytes 8 hi)
  tracePost e (4 * s.mc) (s.modEng e fun x => { x with dry := x.dry ++ batch.zipIdx.map fun p => line p.1 p.2 })

/-- The next run of CE16 after a detached seal (R156): a catch-up run 48 ec after the seal where the next boundary
lies at or before it. -/
def afterDetached (r : Run) (s : State) : State :=
  match s.ticks.find? fun t => t.1 == r.tick + 1 with
  | some (k, t, p) =>
    if decide ((s.timeOfEc (r.ec0 + r.ec) - t).toNat < 2 ^ 63) then
      { s with spare.nextRun := some (r.ec0 + r.ec + 48, k, t, p), spare.recovery := false }
    else s
  | none => s

/-- SEAL (R118, R143, R152, R163): the batch is checked and handed on, or written to the dry region, the checkpoint is
taken, and the engine idles until its next run. DESIGN CHOICE: a seal of CE16 standing in for CEn updates SEALTICK, SEALEC and
MAXEC of the CE16 instance alone (R143, R171 name no instance). -/
def doSeal (e : Nat) (r : Run) (s : State) : State :=
  let n := s.rights e
  let x := s.eng e
  let s := traceEntry e (pcOff x r) r.ec r.batch.length 7 s
  let x := s.eng e
  let s := s.setEng e { x with run := none, stepping := false,
                               ck := { g := x.g, estat := x.estat, pbase := x.image.base, decl := x.image.decl, tick := r.tick, ec := r.ec } }
  let s := (s.setF (COIL_SEALTICK_TICK e) r.tick).setF (COIL_SEALEC_EC e) r.ec
  let s := if s.f (COIL_MAXEC_EC e) < r.ec then (s.setF (COIL_MAXEC_EC e) r.ec).note (COIL_MAXEC_EC e) else s
  let s := if s.flag (COIL_CTRL_DRY n) then dryWrite e n r.batch s
    else handBatch e n ((r.ec0 + r.ec + 11) / 4) (r.time0 + fc (64 * r.ec)) r.batch s
  if r.det then afterDetached r s else s

/-- RET (R112): the loop entries of this depth and the call stack are popped. -/
def doRet (e : Nat) (r : Run) (c : Coil) (s : State) : State :=
  match r.calls with
  | [] => runFault e r 4 0 s
  | a :: l =>
    let s := traceEntry e (pcOff (s.eng e) r) r.ec l.length 4 s
    advance e { r with calls := l, loops := r.loops.filter fun t => t.depth != r.calls.length } (coilCost c) a s

/-- The key under which a pulse at event input k of engine e is noted in its Mast cycle. Pulses arrive at the start of the
cycle, which is the first of its engine cycles (R121, R293). -/
def evinKey (e k : Nat) : Nat := 2 ^ 32 + 8 * e + k

/-- The effect of an instruction that issues in run r of engine e. DESIGN CHOICE: TRYL, UNL and EVO act as they issue, so that an
overrun that comes before they complete lets their effect stand (R125, R129 speak of operations completed earlier). -/
def coilRun (e : Nat) (r : Run) (c : Coil) (s : State) : State :=
  let x := s.eng e
  match c with
  | .alu op rd ra rb =>
    let s := if divZero op (x.r rb) then setEstat e 1 s else s
    writeRd e r c rd (aluVal op (x.r ra) (x.r rb)) s
  | .shi op rd ra sh => writeRd e r c rd (shVal op (x.r ra) sh) s
  | .un op rd ra => writeRd e r c rd (unVal op (x.r ra)) s
  | .imm op rd ra i => writeRd e r c rd (immVal op (x.r ra) i) s
  | .conl rd i => writeRd e r c rd (sext 22 i) s
  | .cons rd i => writeRd e r c rd ((x.r rd <<< 22) ||| BitVec.ofNat 64 i) s
  | .ld rd ra size sgn pair rot off => doLd e r c rd ra size sgn pair rot off s
  | .st rs ra size pair rot off => doSt e r c rs ra size pair rot off s
  | .ldf rd ra size sgn pair lim off => doFar e r false rd ra size sgn pair lim off s
  | .stf rs ra size pair lim off => doFar e r true rs ra size false pair lim off s
  | .br op ra rb off =>
    if brTaken op (x.r ra) (x.r rb) then
      advance e r (coilCost c) (r.pc + 4 + 4 * off.val) (traceEntry e (pcOff x r) r.ec 0 2 s)
    else advanceNext e r c s
  | .jmp i => advance e r (coilCost c) (r.pc + 4 + 4 * i.val) (traceEntry e (pcOff x r) r.ec 0 2 s)
  | .call i =>
    if 4 ≤ r.calls.length then runFault e r 4 0 s
    else
      advance e { r with calls := (r.pc + 4) :: r.calls } (coilCost c) (x.image.base + 4 * i.val)
        (traceEntry e (pcOff x r) r.ec (r.calls.length + 1) 3 s)
  | .ret => doRet e r c s
  | .loop ra mx len => doLoop e r c ra mx len s
  | .act rt rh => addRecord e r c (mkAction (x.r rt) (x.r rh)) s
  | .actp rt rh port code => addRecord e r c { mkAction (x.r rt) (x.r rh) with port := port, code := code } s
  | .seal => doSeal e r s
  | .tryl rd ra lock =>
    lockAsk { cyc := r.ec0 + r.ec, lock := ((x.r ra).toNat + lock.val) % 64, num := s.rights e, inst := e, rd := some rd } (advanceNext e r c s)
  | .unl ra lock =>
    let k := ((x.r ra).toNat + lock.val) % 64
    if (s.lockSeen (r.ec0 + r.ec) k).held = some (s.rights e) then
      lockAsk { cyc := r.ec0 + r.ec, lock := k, num := s.rights e, inst := e } (advanceNext e r c s)
    else advanceNext e r c (setEstat e 4 s)
  | .evo mask =>
    let m := (r.ec0 + r.ec) / 4 + 1
    advanceNext e r c ((List.range 8).foldl (fun s k => if mask.val.testBit k then pulseAt (0x140 + 8 * s.rights e + k) m s else s) s)
  | .evc mask =>
    advanceNext e r c (s.modEng e fun x => { x with evin := (List.range 8).foldl (fun v k =>
      let came := decide ((r.ec0 + r.ec) % 4 = 0) && mget s.hwNow (evinKey e k) 0 != 0
      if mask.val.testBit k && v.testBit k && !came then v - 2 ^ k else v) x.evin })
  | .mfs rd sreg => writeRd e r c rd (sregVal s e x r sreg) s
  | .mts ra _ => advanceNext e r c (s.modEng e fun y => { y with estat := (List.range 5).foldl (fun v k =>
      if (x.r ra).getLsbD k && v.testBit k then v - 2 ^ k else v) y.estat })

/-- The step of an instruction command: when engine e can issue, the word at its PC is fetched; a word that cannot
be fetched or is ILLEGAL raises its fault, and the command takes effect when it is the instruction fetched. -/
def coilStep (e : Nat) (c : Coil) (s : State) : State :=
  match s.canIssue e with
  | none => s
  | some r =>
    let (f, s') := fetch e r s
    match f with
    | .inl code => runFault e r code 0 s'
    | .inr d => if d = c then coilRun e r c s' else s

end Sys2Proof.Machine
end

