-- ==== Sys2Proof/Machine/EngineCtl.lean ====
section
/-! DEFINITION. Loading, starting, stopping, watching and taking over Coil engines (R132 to R162, R539). -/

namespace Sys2Proof.Machine

open Sys2Proof Reg

/-! ### The program check (R132, R135, R136) -/

/-- One byte into the CRC-32 of IEEE 802.3, least significant bit first (R132). -/
def crc32Byte (c : Word) (b : Byte) : Word :=
  (List.range 8).foldl (fun c _ => if c.getLsbD 0 then (c >>> 1) ^^^ 0xEDB88320#32 else c >>> 1) (c ^^^ b.setWidth 32)

/-- CRC-32 with initial value 0xFFFF_FFFF and final complement (R132). -/
def crc32 (l : List Byte) : Word := ~~~ (l.foldl crc32Byte 0xFFFFFFFF#32)

/-- A little-endian field of a byte list. -/
def leField (l : List Byte) (lo n : Nat) : Nat := leNat ((l.drop lo).take n)

/-- The code that the header of an image gives, 0 where it passes (R132, R136). -/
def headerCode (h : List Byte) (base hi : Nat) : Nat :=
  let len := leField h 8 4
  let ent := leField h 12 4
  if hi < base + len then 1
  else if leField h 0 4 ≠ 0x6480C011 then 2
  else if leField h 4 2 ≠ 1 || leField h 6 2 ≠ 0 || leField h 22 2 ≠ 0 then 3
  else if len % 8 ≠ 0 || len < 40 || 262144 < len then 4
  else if ent % 4 ≠ 0 || ent < 32 || len ≤ ent then 5
  else if leField h 16 4 = 0 then 6
  else if 64 < leField h 20 2 then 7
  else 0

/-- The image check of engine e: its code, the image, the words it read, and the ECC records (R135, R136). -/
def checkImage (e base : Nat) (s : State) : Nat × Image × Nat × State :=
  let b := e / 4 % 4
  let lo := bankBase b
  let hi := lo + 0x40000
  if base < lo || hi < base + 32 then (1, {}, 0, s) else
  let (h, bad, s1) := bankRead b 8 base 32 s
  let img : Image := ⟨base, leField h 8 4, leField h 12 4, leField h 16 4⟩
  let code := headerCode h base hi
  if code ≠ 0 then (code, img, 4, s1) else
  let (d, bad', s2) := bankRead b 8 (base + 32) (img.len - 32) s1
  let d := h ++ d
  let z := d.take 24 ++ [0, 0, 0, 0] ++ d.drop 28
  let code := if (crc32 z).toNat ≠ leField h 24 4 then 8 else if bad || bad' then 9 else 0
  (code, img, img.len / 8, s2)

/-- The check of engine e ends (R135): it has read at most one word per Mast cycle, and 16 mc have passed since. -/
def checkEnd (e : Nat) (s : State) : State :=
  match (s.eng e).check with
  | none => s
  | some (base, m) =>
    let (code, img, words, s') := checkImage e base s
    if s.mc < m + words + 16 then s else
    let s' := s'.setF (COIL_LDSTAT_CODE e) code
    if code = 0 then s'.modEng e fun x => { x with check := none, pendImg := some img }
    else (s'.modEng e fun x => { x with check := none }).raise (COIL_FLAGS_LOADFAIL e)

/-- LOAD (R135, R137, R161): refused while a check runs, while the engine is OFF, and at CE16. -/
def loadCmd (req e : Nat) (s : State) : State :=
  if e = 16 || s.engState e = 0 || (s.eng e).check.isSome then werr req (COIL_CTRL e) s
  else
    let base := s.f (COIL_LDBASE_BASE e) / 32 * 32
    s.modEng e fun x => { x with pendImg := none, check := some (base, s.mc) }

/-! ### Commands at a boundary (R138 to R140, R160) -/

/-- A command is rejected (R138). -/
def rejectCmd (e : Nat) (s : State) : State := werr reqCheck (COIL_CTRL e) (s.raise (COIL_FLAGS_START_REJ e))

/-- The image pending at engine e can start under a period of p mc (R66, R138). -/
def State.startable (s : State) (e p : Nat) : Option Image :=
  match (s.eng e).pendImg with
  | some i => if (s.eng e).check.isNone && decide (i.decl + 64 ≤ 4 * p) then some i else none
  | none => none

/-- Instance e runs image i from its start: registers, ESTAT and the checkpoint are those of a start, and HOLD applies (R139,
R162). -/
def beginImage (e : Nat) (i : Image) (st : EngState) (s : State) : State :=
  let h := s.flag (COIL_CTRL_HOLD (s.rights e))
  s.modEng e fun x => { x with st := st, image := i, g := [], estat := 0, run := none, held := h, ck := { pbase := i.base, decl := i.decl } }

/-- A legacy timer holds engine e (R403). -/
def State.lgcHolds (s : State) (e : Nat) : Bool := decide (e < 16) && s.flag (LGC_TCTRL_EN (e / 4) (e % 4))

/-- START (R138, R139, R403). While CE16 stands in, the image that CE16 runs is replaced, and with it CEn's. -/
def cmdStart (e p : Nat) (s : State) : State :=
  match (if s.lgcHolds e then none else s.startable e p) with
  | none => rejectCmd e s
  | some i =>
    let s' := s.modEng e fun x => { x with pendImg := none }
    match s.engState e with
    | 1 => beginImage e i .running s'
    | 2 => beginImage e i .running s'
    | 3 => beginImage e i .running s'
    | 4 =>
      if s.spare.standFor = some e then { (beginImage 16 i .standin s').modEng e (fun x => { x with image := i }) with spare.nextRun := none }
      else rejectCmd e s
    | _ => rejectCmd e s

/-- The engine has no program any more: its locks are ABANDONED, its image loses its protection (R140, R141). -/
def dropProgram (e : Nat) (s : State) : State :=
  let s := releaseLocks none e (dropFar e s)
  let s := s.modEng e fun x => { x with st := .idle, image := {}, ck := {}, run := none, toRun := false,
                                        step := false, stepping := false, held := false, g := [], estat := 0,
                                        resetAt := none }
  if (s.spare.taking.map Prod.fst) = some e then { s with spare.taking := none, spare.taken := none } else s

/-- STOP (R138, R140). CE16 between its fault and its reset has no program to stop (R539). DESIGN CHOICE: at CE16 as SPARE, a
state that R138 does not list, STOP does nothing, and leaves the last fault in COIL_FAULT (R170). -/
def cmdStop (e : Nat) (s : State) : State :=
  match s.engState e with
  | 2 => dropProgram e s
  | 3 => dropProgram e s
  | 4 =>
    let s := if e = 16 then s else dropProgram e (if s.spare.standFor = some e then endStandin s else s)
    ((s.setF (COIL_FAULT_CODE e) 0).setF (COIL_FAULT_PCW e) 0)
  | _ => s

/-- RESUME (R138, R160). -/
def cmdResume (e : Nat) (s : State) : State :=
  if s.lgcHolds e || s.engState e ≠ 4 || s.spare.standFor ≠ some e || s.spare.nextRun.isSome || ((s.eng 16).run.map Run.det) = some true ||
     !s.on (dCL (e / 4)) then rejectCmd e s
  else
    let y := s.eng 16
    let s := s.modEng e fun x => { x with st := .running, ck := y.ck, image := y.image }
    endStandin ((s.setF (COIL_FAULT_CODE e) 0).setF (COIL_FAULT_PCW e) 0)

/-- The command that a commit applies to engine e, under a period of p mc (R138). CE16 standing in takes none (R161). -/
def applyCmd (e cmd p : Nat) (s : State) : State :=
  if e = 16 && s.spare.standFor.isSome then s else
  match cmd with
  | 1 => cmdStart e p s
  | 2 => cmdStop e s
  | 3 => cmdResume e s
  | _ => s

/-! ### Ticks (R142, R156, R162) -/

/-- Engine e prepares for the tick whose boundary falls now: it runs when it has a program and is not held, or a step
is requested (R142, R162). CE16 follows the settings of the engine it stands in for, and runs at the boundary only
when no detached run is under way or due (R156, R161). -/
def prepTick (e : Nat) (s : State) : State :=
  let x := s.eng e
  let n := s.rights e
  let free := x.run.isNone && (e ≠ 16 || (s.spare.standFor.isSome && s.spare.nextRun.isNone))
  let has := s.on (engDom e) && (x.st == .running || x.st == .standin) && x.resetAt.isNone && free
  let hold := s.flag (COIL_CTRL_HOLD n)
  let step := (s.eng n).step
  let s := if e = 16 || x.held = hold then s else s.modEng e fun x => { x with held := hold }
  if has && !hold then s.modEng e fun x => { x with toRun := true }
  else if has && step then s.modEng e fun x => { x with toRun := true, stepping := true }
  else s

/-- Every engine prepares for the tick. A STEP asks for the boundary that follows it, and no later one (R162). -/
def prepTicks (s : State) : State :=
  let s := (List.range 17).foldl (fun s e => prepTick e s) s
  ((List.range 17).filter fun e => (s.eng e).step).foldl (fun s e => s.modEng e fun x => { x with step := false }) s

/-- Start run r of instance e at its engine cycle 8: its checkpoint is read with ECC, and a double-bit error in it raises the
ECC fault before any instruction issues, with no stand-in (R142, R154, R155). -/
def beginRun (e : Nat) (r : Run) (s : State) : State :=
  if 2 ≤ (s.eng e).ck.err then engineFault e 6 0 8 (r.ec0 + 8) none false s else startRun e r s

/-- The run of instance e in the tick that has begun (R142). -/
def State.tickRun (s : State) (x : Engine) : Run :=
  { tick := s.tick, ttime := fc (s.f KLN_TICKTIME_TIME), period := s.f KLN_PERIOD_PERIOD, ec0 := 4 * s.kln.bmc,
    time0 := fc (s.f KLN_TICKTIME_TIME), det := false, pc := x.image.base + x.image.entry }

/-- At ec 8 of the tick every engine that is to run issues its first instruction at ENTRY (R61, R142). -/
def tickStart (s : State) : State :=
  if s.mc < s.kln.bmc + 2 then s else
  (List.range 17).foldl (init := s) fun s e =>
    let x := s.eng e
    if x.toRun then beginRun e (s.tickRun x) s else s

/-- A run that has passed its limit without SEAL, whatever it was to issue next, as the engine cycle after the last permitted one
(R63, R64, R129, R150). -/
def State.overrunAt (s : State) (e : Nat) : Option (Run × Nat) :=
  let x := s.eng e
  match x.run with
  | some r =>
    let lim := runLimit x r
    if r.ec0 + lim + 1 ≤ s.ecNow then some (r, r.ec0 + lim + 1) else none
  | none => none

/-- OVERRUN (R64, R65, R129). -/
def overrun (e : Nat) (s : State) : State :=
  match s.overrunAt e with
  | some (r, t0) =>
    let s := pulse 0x23C (s.raise (bitFld KLN_OVR_OVR e))
    engineFault e 7 (pcOff (s.eng e) r) (t0 - r.ec0) t0 (some r) true s
  | none => s

/-- HOLD is 1 in force at instance e: of the engine that CE16 stands in for at CE16 (R161, R162). -/
def State.heldAt (s : State) (e : Nat) : Bool := (s.eng (s.rights e)).held

/-- The watchdog fires (R149): with HOLD = 0 the first instruction has not issued by ec 10 of a tick or detached run, or a far
access has not completed 8 cycles after its largest time. -/
def State.watchAt (s : State) (e : Nat) : Option (Run × Nat × Nat) :=
  let x := s.eng e
  match x.run with
  | some r =>
    match r.far with
    | some f => if f.c0 + f.win + 24 + 8 ≤ s.ecNow then some (r, f.c0 + f.win + 24 + 8, pcOff x r) else none
    | none => if !r.issued && !s.heldAt e && decide (r.ec0 + 11 ≤ s.ecNow) then some (r, r.ec0 + 11, 0) else none
  | none =>
    if x.toRun && !s.heldAt e && decide (4 * s.kln.bmc + 11 ≤ s.ecNow) then some (s.tickRun x, 4 * s.kln.bmc + 11, 0)
    else if e = 16 then
      match s.spare.nextRun with
      | some (c, k, t, p) => if !s.heldAt e && decide (c + 11 ≤ s.ecNow) then some ({ tick := k, ttime := t, period := p, ec0 := c, time0 := s.timeOfEc c, det := true, pc := 0 }, c + 11, 0) else none
      | none => none
    else none

def watchdog (e : Nat) (s : State) : State :=
  match s.watchAt e with
  | some (r, t0, pcw) => engineFault e 8 pcw (t0 - r.ec0) t0 (some r) true s
  | none => s

/-- TAKEOVER (R154): CE16 takes the checkpoint, image, near range, slots and event routing of the faulted engine, unless the
checkpoint has a double-bit error. DESIGN CHOICE: the trace entry of the takeover has ECYC 0 and PC 0 (R164 gives neither). -/
def takeover (e : Nat) (s : State) : State :=
  match s.spare.taking, s.spare.taken with
  | some (n, t0), some r =>
    if n ≠ e || (s.eng n).resetAt.isSome || decide (s.ecNow < t0 + 4) then s else
    let y := s.eng n
    if 2 ≤ y.ck.err then { s with spare.taking := none, spare.taken := none } else
    let s := s.modEng 16 fun x => { x with st := .standin, ck := y.ck, image := y.image, evin := y.evin, g := [], estat := 0 }
    let s := { s with spare := { standFor := some n, nextRun := some (t0 + 1592, r.tick, r.ttime, r.period), recovery := true } }
    logFault 2 n 0 0 (traceEntry 16 0 0 n 9 s)
  | _, _ => s

/-- Start the detached run that is due (R155). -/
def detachedRun (recovery : Bool) (s : State) : State :=
  match s.spare.nextRun with
  | some (c, k, t, p) =>
    if s.spare.recovery = recovery && decide (c + 8 ≤ s.ecNow) && s.spare.standFor.isSome then
      let x := s.eng 16
      let s := beginRun 16 { tick := k, ttime := t, period := p, ec0 := c, time0 := s.timeOfEc c, det := true, pc := x.image.base + x.image.entry } s
      let s := { s with spare.nextRun := none }
      if recovery && (s.eng 16).run.isSome then pulse 0x23E s else s
    else s
  | none => s

/-! ### Held engines, locks and counts -/

/-- A COIL_CTRL write to CE16 while it stands in is refused (R161). -/
def State.ctrlBarred (s : State) (e : Nat) : Bool := e == 16 && s.spare.standFor.isSome

/-- A write of HOLD applies at the next boundary (R162). DESIGN CHOICE: while no ticks are issued, and so no boundary comes, it
applies at once. -/
def holdNow (e : Nat) (s : State) : State :=
  if s.ticking || e = 16 then s else s.modEng e fun x => { x with held := s.flag (COIL_CTRL_HOLD e) }

/-- HOLD (R161, R162). -/
def coilHold (req e : Nat) (on : Bool) (s : State) : State :=
  if s.ctrlBarred e then (if s.flag (COIL_CTRL_HOLD e) = on then s else werr req (COIL_CTRL e) s)
  else
    holdNow e (s.setF (COIL_CTRL_HOLD e) on.toNat)

/-- STEP (R161, R162): ignored while HOLD is 0. -/
def coilStepReq (req e : Nat) (s : State) : State :=
  if s.ctrlBarred e then werr req (COIL_CTRL e) s
  else if s.flag (COIL_CTRL_HOLD e) then s.modEng e fun x => { x with step := true } else s

/-- The instance whose checkpoint COIL_GREG and COIL_CKESTAT of engine e show (R171). -/
def State.ckOwner (s : State) (e : Nat) : Nat := if s.spare.standFor = some e then 16 else e

/-- A write to a checkpoint register (R162, R171): n is 0 for COIL_CKESTAT. Refused while the engine is enabled (R131). -/
def checkpointWrite (req e n : Nat) (v : DWord) (s : State) : State :=
  let off := if n = 0 then COIL_CKESTAT e else COIL_GREG e n
  if s.engState e = 2 || s.engState e = 6 then werr req off s
  else s.modEng (s.ckOwner e) fun x =>
    if n = 0 then { x with ck.estat := v.toNat % 32 } else { x with ck.g := mset x.ck.g n v 0 }

/-- FORCE (R148). -/
def lockForce (n : Nat) (s : State) : State := match (mget s.locks n {}).held with
  | some m => lockAbandon none m n s
  | none => s

/-- COIL_CLR (R171): bits MAXEC, REC and TRC. DESIGN CHOICE: a seal of the same Mast cycle counts after the clear of MAXEC where
it had raised it; R15 and R171 do not say. -/
def coilClr (e : Nat) (v : Nat) (s : State) : State :=
  let s := if v.testBit 0 then s.setF (COIL_MAXEC_EC e) (if s.noted (COIL_MAXEC_EC e) = 0 then 0 else s.f (COIL_SEALEC_EC e)) else s
  let s := if v.testBit 1 then s.clearCnt (COIL_DROPCNT_REC e) else s
  if v.testBit 2 then s.clearCnt (COIL_DROPCNT_TRC e) else s

/-- The domain of engine e switches off, or its cluster is reset (R141, R501): the engine stops, a check is aborted
and a pending image is discarded; a stand-in for it ends. -/
def engineOff (e : Nat) (abort : Bool) (s : State) : State :=
  let s := if s.spare.standFor = some e then endStandin s else s
  let s := dropProgram e s
  let s := if abort && (s.eng e).check.isSome then (s.setF (COIL_LDSTAT_CODE e) 0xA).raise (COIL_FLAGS_LOADFAIL e) else s
  s.modEng e fun x => { x with check := none, pendImg := none, trace := [], dry := [] }

end Sys2Proof.Machine
end

