-- ==== Sys2Proof/Machine/Interp.lean ====
section
/-! DEFINITION. The arithmetic of sine/cosine interpolation and of serial frames (R266, R273, R274). -/

namespace Sys2Proof.Machine

open Sys2Proof

/-- An n-bit two's-complement value as an integer. -/
def toSigned (n v : Nat) : Int := if v % 2 ^ n < 2 ^ (n - 1) then ((v % 2 ^ n : Nat) : Int) else ((v % 2 ^ n : Nat) : Int) - 2 ^ n

/-- An integer as an n-bit value. -/
def ofSigned (n : Nat) (i : Int) : Nat := (i % 2 ^ n).toNat

/-- The greatest k below 2^n with k² ≤ v. -/
def isqrt (v : Nat) : Nat → Nat
  | 0 => 0
  | n + 1 =>
    let r := isqrt (v / 4) n * 2
    if (r + 1) * (r + 1) ≤ v then r + 1 else r

/-- The square root rounded to the nearest integer. -/
def roundSqrt (v : Nat) : Nat :=
  let k := isqrt v 40
  if k * k + k < v then k + 1 else k

/-- The cosine and sine, times 2^96, of 512, 512, 256, … 1 of the 4,096 steps of a line. -/
def turns : List (Nat × Int × Int) :=
  [ (512, 56022770974786139918731938227, 56022770974786139918731938227)
  , (512, 56022770974786139918731938227, 56022770974786139918731938227)
  , (256, 73197277745406789746128126514, 30319305170937817432302117203)
  , (128, 77705815587385459894767493986, 15456647737653972240398692356)
  , (64, 78846657256498550044590935806, 7765717923213880508008574353)
  , (32, 79132728722732187244728061659, 3887541675809670510355249493)
  , (16, 79204300472980947526267393315, 1944356441712994098036199278)
  , (8, 79222196779339056064285443064, 972251429601035097806954306)
  , (4, 79226671066494975824533590136, 486134866151990591466405863)
  , (2, 79227789651444615435502306173, 243068577003004720891563897)
  , (1, 79228069298504570632279043702, 121534431492630892444982651) ]

/-- The vector (x, y) turned by an angle with this cosine and sine, backward. -/
def turnBack (x y c n : Int) : Int × Int := ((x * c + y * n) / 2 ^ 96, (y * c - x * n) / 2 ^ 96)

/-- The steps of an angle between 0 and a quarter turn and a half step, by successive turns. -/
def countSteps : List (Nat × Int × Int) → Int → Int → Nat
  | [], _, _ => 0
  | (k, c, n) :: l, x, y =>
    let (x', y') := turnBack x y c n
    if 0 ≤ y' then k + countSteps l x' y' else countSteps l x y

/-- The angle of (x, y) in the first quadrant in steps of 1/4096 turn, halves up: the vector is turned forward by half
a step, and whole steps are counted. -/
def quadSteps (x y : Int) : Nat :=
  let (x', y') := turnBack (x * 2 ^ 64) (y * 2 ^ 64) 79228139210320968575859978290 (-60767233620214398787300339)
  countSteps turns x' y'

/-- θ of R266 for s1 = y and c2 = x, in 1/4096 line. -/
def theta (u : Nat) (y x : Int) : Nat :=
  if x = 0 ∧ y = 0 then Config.angleAtOrigin u % 4096
  else if 0 < x ∧ 0 ≤ y then quadSteps x y % 4096
  else if x ≤ 0 ∧ 0 < y then (1024 + quadSteps y (-x)) % 4096
  else if x < 0 ∧ y ≤ 0 then (2048 + quadSteps (-x) (-y)) % 4096
  else (3072 + quadSteps (-y) x) % 4096

/-- A difference modulo 2^n as a signed number, 2^(n−1) and above taken as negative (R267, R274). -/
def wrapDiff (n : Nat) (d : Int) : Int :=
  let m := d % 2 ^ n
  if (2 ^ (n - 1) : Int) ≤ m then m - 2 ^ n else m

/-- One data bit into the check of a serial frame (R273). -/
def ssiCrcBit (n poly : Nat) (crc : Nat) (b : Bool) : Nat :=
  let x := (crc * 2) % 2 ^ n
  if crc.testBit (n - 1) != b then x ^^^ (poly % 2 ^ n) else x

/-- The check over the data bits, first bit first (R273). -/
def ssiCrc (n poly : Nat) (inv : Bool) (bits : List Bool) : Nat :=
  let c := bits.foldl (ssiCrcBit n poly) 0
  if inv then c ^^^ (2 ^ n - 1) else c

/-- Gray code to binary (R274): bit i is the exclusive or of the bits i and above. -/
def fromGray (n g : Nat) : Nat :=
  (List.range n).foldl (fun v k => v ^^^ (g >>> k)) 0 % 2 ^ n

end Sys2Proof.Machine
end

