-- ==== Sys2Proof/Machine/Sheaves.lean ====
section
/-! DEFINITION. Sheave units: steps, quadrature, sine/cosine, serial frames, speed and compares (R255 to R290). -/

namespace Sys2Proof.Machine

open Sys2Proof Reg

/-- Sheave unit u. -/
def State.sheave (s : State) (u : Nat) : Sheave := mget s.sheaves u {}
def State.setSheave (s : State) (u : Nat) (x : Sheave) : State := { s with sheaves := mset s.sheaves u x {} }
def State.modSheave (s : State) (u : Nat) (f : Sheave → Sheave) : State := s.setSheave u (f (s.sheave u))

/-- Unit u is enabled (R257). -/
def State.shvEn (s : State) (u : Nat) : Bool := s.flag (SHV_CTRL_EN u)

/-- Unit u runs: from its enable until the Mast boundary at which it stops (R257, R258). -/
def State.shvRuns (s : State) (u : Nat) : Bool := s.flag (SHV_STATUS_RUNNING u)

/-- Source k of unit u pulses at sample boundary b (R284, R294). -/
def shvPulse (u k b : Nat) (s : State) : State := pulseAt (0x1E0 + 6 * u + k) b s

/-- A capture record of unit u: it consumes a sequence value, and is dropped when 8 records wait
(R283). None is formed while the timebase is stopped (R538). -/
def shvRec (u ty : Nat) (t : Time) (port : Nat) (edge : Bool) (aux : Nat) (s : State) : State :=
  if !s.running then s else
  let r : CapRec := { time := t, idx := port, edge := edge, ty := ty, seq := s.f (SHV_SEQ_SEQ u), aux := aux % 2 ^ 32, lane := s.lane port, org := .sheave u }
  let s := s.setF (SHV_SEQ_SEQ u) (s.f (SHV_SEQ_SEQ u) + 1)
  if (s.sheave u).recs.length < 8 then s.modSheave u fun x => { x with recs := x.recs ++ [r] } else s.raise (SHV_FLAGS_DROP u)

/-- An error record (R283) with its code, at time t. -/
def shvErr (u code : Nat) (t : Time) (s : State) : State :=
  if s.flag (SHV_RECCFG_ERR u) then shvRec u 0x25 t (s.f (SHV_INPUT_APORT u)) false code s else s

/-- The time of Mast boundary b on the present count. -/
def State.timeOfB (s : State) (b : Nat) : Time := s.now + fc (256 * b) - fc (256 * s.mc)

/-! ### Steps and compares (R260, R277, R279 to R282) -/

/-- A step of size d from p crosses the boundary of compare value c (R279). -/
def crosses (p c : Nat) (d : Int) : Bool :=
  if 0 < d then
    let k := ofSigned 48 ((c : Int) - p)
    decide (1 ≤ k) && decide ((k : Int) ≤ d)
  else decide ((ofSigned 48 ((p : Int) - c) : Int) ≤ -d - 1)

/-- A position is far enough from compare value c to end its block (R280). -/
def clears (p c hyst : Nat) : Bool :=
  let d := toSigned 48 (ofSigned 48 ((p : Int) - c))
  decide ((hyst : Int) ≤ d) || decide (d ≤ -1 - (hyst : Int))

/-- Compare c of unit u at a step of size d from p to q, timed t, at boundary b (R279, R280, R282). -/
def compareStep (u c p q : Nat) (d : Int) (t : Time) (b : Nat) (s : State) : State :=
  let v := s.f (SHV_CMPVAL_C u c)
  let hit := crosses p v d
  let hyst := s.f (SHV_CMPCFG_HYST u c)
  let blocked := (s.sheave u).block.contains c && hyst != 0
  let dirs := s.f (SHV_CMPCFG_DIR u c)
  let event := hit && !blocked && s.flag (SHV_CMPCFG_EN u c) && (if 0 < d then dirs.testBit 0 else dirs.testBit 1)
  let stay := (hit || blocked) && hyst != 0 && !clears q v hyst
  let s := s.modSheave u fun x => { x with block := if stay then (if x.block.contains c then x.block else x.block ++ [c]) else x.block.erase c }
  if !event then s else
  let s := shvPulse u (s.f (SHV_CMPCFG_SRC u c)) b (s.raise ⟨SHV_CMPFLAGS u, c, 1⟩)
  let s := if s.flag (SHV_CMPCFG_REC u c) then
      shvRec u 0x23 t (s.f (SHV_INPUT_APORT u)) (decide (d < 0)) (c + (q % 2 ^ 28) * 16) s
    else s
  if s.flag (SHV_CMPCFG_ONCE u c) then
    (s.setF (SHV_CMPCFG_EN u c) 0).setStg (SHV_CMPCFG u c) (BitVec.ofNat 32 (setBits (s.stg (SHV_CMPCFG u c)).toNat 0 1 0))
  else s

/-- A step of size d, timed t, at sample boundary b (R260, R276 to R279). -/
def step48 (u : Nat) (d : Int) (t : Time) (b : Nat) (s : State) : State :=
  let p := s.f (SHV_POS_POS u)
  let q := ofSigned 48 (p + d)
  let rev := decide (d < 0)
  let x := s.sheave u
  let turn := x.last.isSome && s.flag (SHV_STATUS_DIR u) != rev
  let s := ((s.setF (SHV_POS_POS u) q).setF (SHV_POSTIME_TIME u) t.toNat).setF (SHV_STATUS_DIR u) rev.toNat
  let s := s.setF (SHV_STATUS_STILL u) 0
  let s := s.modSheave u fun x => { x with last := some (t, q), lastB := some b, ref := if turn || x.ref.isNone then some (t, q) else x.ref }
  let s := if turn then
      (shvPulse u 3 b (s.raise (SHV_FLAGS_DIRCHG u))).modSheave u fun x => { x with line := none }
    else s
  (List.range 16).foldl (init := s) fun s c => compareStep u c p q d t b s

/-- An illegal transition at boundary b (R262). -/
def illegalStep (u b : Nat) (s : State) : State :=
  let s := shvPulse u 5 b ((s.bump (SHV_ERRCNT_ILLEGAL u)).raise (SHV_FLAGS_ILLEGAL u))
  (shvErr u 0x01 (s.timeOfB b) s).modSheave u fun x => { x with ref := none }

/-- A load takes effect (R275). -/
def loadPos (u v : Nat) (s : State) : State :=
  let s := ((s.setF (SHV_POS_POS u) v).setF (SHV_STATUS_POSVALID u) 1).setF (SHV_STATUS_DRIFTVALID u) 0
  s.modSheave u fun x => { x with load := none, ref := none, line := none, first := false }

/-- The load and the compare writes that wait apply at a sample boundary, before the step (R260, R275, R281). -/
def applyWrites (u : Nat) (s : State) : State :=
  let s := match (s.sheave u).load with
    | some v => loadPos u v s
    | none => s
  let s := (s.sheave u).cmpw.foldl (fun s p => (s.setF (SHV_CMPVAL_C u p.1) p.2.toNat).modSheave u fun x => { x with block := x.block.erase p.1 }) s
  s.modSheave u fun x => { x with cmpw := [] }

/-- The sample boundaries of unit u are not its Mast boundaries: it interpolates sine and cosine (R266). -/
def State.pairBound (s : State) (u : Nat) : Bool := s.shvRuns u && s.f (SHV_CFG_MODE u) == 1 && !s.flag (SHV_STATUS_COUNTONLY u)

/-- A sample boundary of sine/cosine pairs falls at a time (R266). -/
def pairTime (t : Time) : Bool := t.toNat / 256 % 20 == 12

/-! ### Speed windows and ticks (R276, R283) -/

/-- Saturate to a signed 32-bit value. -/
def sat32 (i : Int) : Int := max (-(2 ^ 31)) (min i (2 ^ 31 - 1))

/-- K of R276. -/
def speedK : Int := 65536 * 51200000000

/-- SPEED as a signed number. -/
def State.speed (s : State) (u : Nat) : Int := toSigned 64 (s.f (SHV_SPEED_SPEED u))

/-- The speed at a window end (R276). -/
def newSpeed (x : Sheave) (rev : Bool) (speed : Int) (tw : Time) : Int × Option (Time × Nat) :=
  match x.ref, x.last with
  | some (tr, pr), some (tl, pl) =>
    if 0 < (tl - tr).toInt then ((toSigned 48 (ofSigned 48 ((pl : Int) - pr)) * speedK).tdiv (tl - tr).toInt, some (tl, pl))
    else
      let bound := speedK.tdiv (tw - tr).toInt
      (if bound < speed.natAbs ∨ (speed ≠ 0 ∧ decide (speed < 0) ≠ rev) then (if rev then -bound else bound) else speed, some (tr, pr))
  | r, _ => (speed, r)

/-- A speed window of unit u ends, before a step that is sampled at its end (R276), and count-only mode where the speed permits (R270). -/
def speedWindow (u : Nat) (s : State) : State :=
  let x := s.sheave u
  match x.winAt with
  | none => s
  | some w =>
    if s.mc < w || !s.shvRuns u then s else
    let n := s.f (SHV_SPDCFG_SPDWIN u)
    let s := s.modSheave u fun x => { x with winAt := if n = 0 then none else some (w + n) }
    let (v, r) := newSpeed x (s.flag (SHV_STATUS_DIR u)) (s.speed u) (s.timeOfB w)
    let s := if s.flag (SHV_STATUS_STILL u) then s
      else (s.setF (SHV_SPEED_SPEED u) (ofSigned 64 v)).modSheave u fun x => { x with ref := r }
    if s.flag (SHV_STATUS_COUNTONLY u) && decide ((s.speed u).natAbs < 450000 * 4096 * 65536) then
      (s.setF (SHV_STATUS_COUNTONLY u) 0).modSheave u fun x => { x with fastN := 0 }
    else s

/-- What tick boundary B brings to unit u (R272, R276, R283): the tick records, the window end of SPDWIN = 0, and the frame
start to come. DESIGN CHOICE: the records carry the SPEED from before a window that ends at B. -/
def unitTick (u : Nat) (B : Time) (s : State) : State :=
  if !s.shvRuns u || !s.phys dFCORE || (s.sheave u).tickT = some B then s else
  let s := s.modSheave u fun x => { x with tickT := some B }
  let a := s.f (SHV_INPUT_APORT u)
  let p := s.f (SHV_POS_POS u)
  let hi := p / 2 ^ 32 + s.f (SHV_STATUS_POSVALID u) * 2 ^ 16 + s.f (SHV_STATUS_STILL u) * 2 ^ 17 + s.f (SHV_STATUS_DIR u) * 2 ^ 18 + s.f (SHV_STATUS_COUNTONLY u) * 2 ^ 19
  let s := if s.flag (SHV_RECCFG_TPOS u) then shvRec u 0x21 B a false hi (shvRec u 0x20 B a false p s) else s
  let s := if s.flag (SHV_RECCFG_TSPD u) then shvRec u 0x22 B a false (ofSigned 32 (sat32 ((s.speed u).tdiv 65536))) s else s
  let s := if s.f (SHV_SPDCFG_SPDWIN u) = 0 then s.modSheave u fun x => { x with winAt := some s.mc } else s
  if s.f (SHV_CFG_MODE u) = 2 then s.modSheave u fun x => { x with starts := x.starts ++ [s.mc + s.f (SHV_SSITIM_OFS u)] } else s

/-- What tick boundary B brings to the units. -/
def sheaveTick (B : Time) (s : State) : State := (List.range 8).foldl (fun s u => unitTick u B s) s

/-- Before unit u samples at the Mast boundary that begins the present cycle: a tick boundary and a window end that fall there
see only the steps sampled before them, whichever command comes first (R276, R283). -/
def beforeSample (u : Nat) (s : State) : State :=
  speedWindow u (match s.boundaryBy s.now with
    | some B => unitTick u B s
    | none => s)

/-! ### Quadrature (R261 to R265) -/

/-- The place of a state (A, B) in the forward order 00, 10, 11, 01 (R261). -/
def quadOrd (a b : Bool) : Nat := match a, b with
  | false, false => 0 | true, false => 1 | true, true => 2 | false, true => 3

/-- The step of a single-line change (R261). -/
def quadStep (decode : Nat) (a b a' b' : Bool) : Int :=
  let full : Int := if quadOrd a' b' = (quadOrd a b + 1) % 4 then 1 else -1
  match decode with
  | 0 => full
  | 1 => if a != a' then full else 0
  | _ => if a != a' && !b then full else 0

/-- Divide and round to nearest, halves away from zero (R265). -/
def roundAway (n d : Int) : Int := if 0 ≤ n then (2 * n + d) / (2 * d) else -((-2 * n + d) / (2 * d))

/-- The drift check of an accepted index (R265). -/
def driftCheck (u : Nat) (b : Nat) (s : State) : State :=
  let p := s.f (SHV_IDXPOS_POS u)
  let cpr := s.f (SHV_CPR_CPR u)
  let x := s.sheave u
  let s := if s.flag (SHV_STATUS_DRIFTVALID u) && cpr != 0 then
      let d := toSigned 48 (ofSigned 48 ((p : Int) - x.idxPrev))
      let r := sat32 (d - roundAway d cpr * cpr)
      let s := s.setF (SHV_DRIFT_DRIFT u) (ofSigned 32 r)
      if s.f (SHV_DRIFTTOL_TOL u) < r.natAbs then shvErr u 0x07 (s.timeOfB b) (shvPulse u 5 b (s.raise (SHV_FLAGS_DRIFT u))) else s
    else s
  (s.setF (SHV_STATUS_DRIFTVALID u) 1).modSheave u fun x => { x with idxPrev := p }

/-- An accepted index (R264). -/
def indexEdge (u : Nat) (t : Time) (b : Nat) (s : State) : State :=
  let p := s.f (SHV_POS_POS u)
  let s := shvPulse u 2 b (((s.setF (SHV_IDXPOS_POS u) p).setF (SHV_IDXTIME_TIME u) t.toNat).raise (SHV_FLAGS_INDEX u))
  let s := driftCheck u b s
  if s.flag (SHV_RECCFG_IDX u) then shvRec u 0x24 t (s.f (SHV_INPUT_ZPORT u)) (s.flag (SHV_STATUS_DIR u)) p s else s

/-- The time of an edge (R263): its stamp, or the start of its sample boundary minus FILT + 3 mc. -/
def edgeTime (s : State) (e : ShvEdge) : Time := e.stamp.getD (s.timeOfB e.bound - fc (256 * (e.filt + 3)))

/-- One sample of A, B and Z at boundary b (R261, R262, R264). -/
def quadAt (u b : Nat) (es : List ShvEdge) (s : State) : State :=
  let x := s.sheave u
  let last := fun (l : Nat) (d : Bool) => ((es.filter fun e => e.line == l).getLast?.map ShvEdge.level).getD d
  let a' := last 0 x.a
  let b' := last 1 x.b
  let mode0 := s.f (SHV_CFG_MODE u) = 0
  let s := s.modSheave u fun x => { x with a := a', b := b' }
  let s :=
    if !mode0 || (x.a = a' && x.b = b') then s
    else if x.a != a' && x.b != b' then illegalStep u b s
    else
      let d := quadStep (s.f (SHV_CFG_DECODE u)) x.a x.b a' b' * (if s.flag (SHV_CFG_DIRINV u) then -1 else 1)
      let t := match es.find? fun e => e.line == (if x.a != a' then 0 else 1) with
        | some e => edgeTime s e
        | none => s.timeOfB b
      if d = 0 then s else step48 u d t b s
  match es.find? fun e => e.line == 2 && e.level != s.flag (SHV_CFG_ZEDGE u) with
  | some e =>
    let gate := s.flag (SHV_CFG_IDXGATE u) && decide (s.f (SHV_CFG_IDXSTATE u) ≠ b'.toNat * 2 + a'.toNat)
    if s.flag (SHV_CFG_IDXEN u) && decide (s.f (SHV_CFG_MODE u) ≠ 2) && !gate then indexEdge u (edgeTime s e) b s else s
  | none => s

/-- The samples of unit u at every boundary up to the one that begins the present Mast cycle (R261). -/
def quadSample (u : Nat) (s : State) : State :=
  if !s.shvRuns u || !s.phys dFCORE then s else
  let b := s.mc
  let s := beforeSample u s
  let due := (s.sheave u).edges.filter fun e => decide (e.bound ≤ b)
  let s := s.modSheave u fun x => { x with edges := x.edges.filter fun e => decide (b < e.bound) }
  (due.map ShvEdge.bound).eraseDups.foldl (fun s k => quadAt u k (due.filter fun e => e.bound == k) s) s

/-! ### Sine and cosine (R266 to R271) -/

/-- SOFS, COFS, GAIN and PHI as they are used (R266). -/
def State.sofs (s : State) (u : Nat) : Int := toSigned 16 (s.f (SHV_SCOFS_SOFS u))
def State.cofs (s : State) (u : Nat) : Int := toSigned 16 (s.f (SHV_SCOFS_COFS u))
def State.gain (s : State) (u : Nat) : Int := max 16384 (s.f (SHV_SCCORR_GAIN u) : Int)
def State.phi (s : State) (u : Nat) : Int := toSigned 16 (s.f (SHV_SCCORR_PHI u))

/-- A quotient of R271 towards zero; where the divisor is 0 the spec states none. -/
def adaptDiv (n d : Int) : Int := if d = 0 then Config.adaptQuotient n else n.tdiv d

/-- One value of R271 moved towards its estimate. -/
def adaptTo (k : Nat) (x e : Int) : Int := x + (e - x) / 2 ^ k

/-- The refinement at a completed line (R271). -/
def scAdapt (u : Nat) (l : ShvLine) (s : State) : State :=
  if !s.flag (SHV_SCADAPT_AUTO u) || decide (l.pairs < 40) then s else
  let k := s.f (SHV_SCADAPT_ADAPTK u)
  let so := (l.smax + l.smin).tdiv 2
  let co := (l.cmax + l.cmin).tdiv 2
  let ga := adaptDiv (32768 * (l.smax - l.smin)) (l.cmax - l.cmin)
  let ph := adaptDiv (32768 * ((l.cpk - co) * ga).tdiv 32768) ((l.smax - l.smin).tdiv 2)
  let g := (s.f (SHV_SCCORR_GAIN u) : Int)
  let s := (s.setF (SHV_SCOFS_SOFS u) (ofSigned 16 (adaptTo k (s.sofs u) so))).setF (SHV_SCOFS_COFS u) (ofSigned 16 (adaptTo k (s.cofs u) co))
  (s.setF (SHV_SCCORR_GAIN u) (ofSigned 16 (adaptTo k g ga))).setF (SHV_SCCORR_PHI u) (ofSigned 16 (adaptTo k (s.phi u) ph))

/-- A raw pair enters the tracking of the present line (R271). -/
def ShvLine.add (l : ShvLine) (sn cs : Int) : ShvLine :=
  { rev := l.rev, pairs := l.pairs + 1, smax := max l.smax sn, smin := min l.smin sn, cmax := max l.cmax cs, cmin := min l.cmin cs,
    cpk := if l.smax < sn then cs else l.cpk }

/-- The tracking after a pair that made a step of size d from p (R271): a line boundary passed completes the line that
the last boundary of the same direction began. -/
def lineStep (u p : Nat) (d : Int) (sn cs : Int) (s : State) : State :=
  let from_ := p / 4096
  let to_ := ofSigned 48 (p + d) / 4096
  let rev := decide (d < 0)
  if from_ = to_ then s.modSheave u fun x => { x with line := x.line.map fun l => l.add sn cs }
  else
    let s := match (s.sheave u).line with
      | some l => if l.rev = rev then scAdapt u l s else s
      | none => s
    s.modSheave u fun x => { x with line := some (({ rev := rev } : ShvLine).add sn cs) }

/-- Count-only mode begins (R270). -/
def countOnlyEntry (u : Nat) (s : State) : State :=
  (s.setF (SHV_STATUS_COUNTONLY u) 1).modSheave u fun x => { x with fresh := true, fastN := 0, line := none }

/-- The amplitude test of a pair (R268): the signal is lost at the fourth pair outside the limits, and the loss ends
at the fourth inside. -/
def amplitude (u r b : Nat) (s : State) : State :=
  let out := decide (r < s.f (SHV_SCLIM_AMIN u)) || decide (s.f (SHV_SCLIM_AMAX u) < r)
  let s := s.modSheave u fun x => { x with badN := if out then min 4 (x.badN + 1) else 0, goodN := if out then 0 else min 4 (x.goodN + 1) }
  let x := s.sheave u
  if !x.lost && x.badN = 4 then
    let s := shvPulse u 5 b ((s.raise (SHV_FLAGS_SIGLOSS u)).setF (SHV_STATUS_POSVALID u) 0)
    (shvErr u 0x02 (s.timeOfB b) s).modSheave u fun x => { x with lost := true, ref := none, line := none }
  else if x.lost && x.goodN = 4 then (shvErr u 0x03 (s.timeOfB b) s).modSheave u fun x => { x with lost := false }
  else s

/-- A sine/cosine pair of raw codes at its sample boundary, the one that begins the present Mast cycle (R266 to R271). -/
def sincosPair (u : Nat) (sn cs : Int) (s : State) : State :=
  let b := s.mc
  if !s.shvRuns u || !s.phys dFCORE || s.f (SHV_CFG_MODE u) ≠ 1 || !pairTime s.now then s else
  let s := beforeSample u s
  let s1 := sn - s.sofs u
  let c1 := ((cs - s.cofs u) * s.gain u).tdiv 32768
  let c2 := c1 - (s1 * s.phi u).tdiv 32768
  let r := roundSqrt (s1 * s1 + c2 * c2).toNat
  let s := s.setF (SHV_SCAMP_AMP u) (if r < 2 ^ 14 then r else Config.amplitudeOver r)
  let s := amplitude u r b s
  if (s.sheave u).lost || s.flag (SHV_STATUS_COUNTONLY u) then s else
  let p := s.f (SHV_POS_POS u)
  let d := wrapDiff 12 ((theta u s1 c2 : Int) - p)
  let s := lineStep u p d sn cs s
  let s := if d = 0 then s else step48 u d (s.now - fc 3072) b s
  let n := if 205 ≤ d.natAbs then (s.sheave u).fastN + 1 else 0
  if 8 ≤ n || 1024 ≤ d.natAbs then countOnlyEntry u s else s.modSheave u fun x => { x with fastN := n }

/-- The quadrant of the comparator outputs S and C (R269). -/
def quadrantOf (sneg clow : Bool) : Nat := match sneg, clow with
  | false, false => 0 | false, true => 1 | true, true => 2 | true, false => 3

/-- A comparator sample whose sample boundary begins the present Mast cycle (R269). -/
def comparatorSample (u : Nat) (sneg clow : Bool) (s : State) : State :=
  let b := s.mc
  if !s.shvRuns u || !s.phys dFCORE || s.f (SHV_CFG_MODE u) ≠ 1 || !s.flag (SHV_STATUS_COUNTONLY u) then s else
  let s := beforeSample u s
  let x := s.sheave u
  let q := quadrantOf sneg clow
  let s := s.modSheave u fun x => { x with quad := q, fresh := false }
  if x.fresh || q = x.quad || x.lost then s
  else if q = (x.quad + 2) % 4 then illegalStep u b s
  else
    let p := s.f (SHV_POS_POS u)
    let d : Int := if q = (x.quad + 1) % 4 then 1024 * (p / 1024 + 1 : Nat) - p else 1024 * (p / 1024 : Nat) - 1 - p
    step48 u d (s.now - fc 512) b s

/-! ### Serial frames (R272 to R274) -/

/-- M of R272. -/
def State.ssiBits (s : State) (u : Nat) : Nat := s.f (SHV_SSICFG_SKIP u) + s.f (SHV_SSICFG_DBITS u) + s.f (SHV_SSICFG_CRCBITS u)

/-- How long a frame is busy, in mc (R272). -/
def State.ssiBusy (s : State) (u : Nat) : Nat :=
  let m := s.ssiBits u
  let h := s.f (SHV_SSITIM_HALF u)
  max ((2 * m + 1) * h) (2 * m * h + s.f (SHV_SSICFG_DELAY u))

/-- The clock output takes a level at the Mast boundary that begins the present cycle (R272). -/
def ssiClock (u : Nat) (lvl : Bool) (s : State) : State :=
  let p := s.f (SHV_INPUT_BPORT u)
  outEdge p (s.pnow p) lvl (s.port p).drv s

/-- The data level of unit u at the Mast boundary that begins the present cycle: an edge that reaches the unit in this cycle or
later is not seen (R186, R272). -/
def State.ssiData (s : State) (u : Nat) : Bool :=
  let x := s.port (s.f (SHV_INPUT_APORT u))
  match x.told.find? fun q => decide (s.mc ≤ q.1) with
  | some q => !q.2
  | none => x.level

/-- A frame start that fails (R273). -/
def ssiMiss (u code : Nat) (F : Fld) (s : State) : State :=
  shvErr u code s.now ((s.bump (SHV_ERRCNT_FRAME u)).raise F)

/-- F0 of a serial frame (R272, R273). -/
def ssiStart (u : Nat) (s : State) : State :=
  match (s.sheave u).starts with
  | [] => s
  | f0 :: l =>
    if s.mc < f0 || !s.shvRuns u || s.f (SHV_CFG_MODE u) ≠ 2 || !s.phys dFCORE then s else
    let s := s.modSheave u fun x => { x with starts := l }
    if (s.sheave u).frame.isSome then ssiMiss u 0x06 (SHV_FLAGS_FRAMESKIP u) s
    else if !s.ssiData u then ssiMiss u 0x05 (SHV_FLAGS_NOTREADY u) s
    else ssiClock u false ((s.setF (SHV_STATUS_FRAMEBUSY u) 1).modSheave u fun x => { x with frame := some f0, bits := [] })

/-- The level that the clock of a frame of M bits takes j half periods after its start: it rises at the odd ones and falls at
the even ones, and rises for the last time at 2M + 1 (R272). -/
def clockLevel (m j : Nat) : Option Bool := if j = 0 || 2 * m + 1 < j then none else some (j % 2 == 1)

/-- The clock and the data samples of unit u's frame at the Mast boundary that begins the present cycle (R272). -/
def ssiBoundary (u : Nat) (s : State) : State :=
  match (s.sheave u).frame with
  | none => s
  | some f0 =>
    let h := s.f (SHV_SSITIM_HALF u)
    let n := s.mc - f0
    let s := match (if n % h = 0 then clockLevel (s.ssiBits u) (n / h) else none) with
      | some l => ssiClock u l s
      | none => s
    let k := n - s.f (SHV_SSICFG_DELAY u)
    if decide (s.f (SHV_SSICFG_DELAY u) ≤ n) && k % (2 * h) = 0 && decide (1 ≤ k / (2 * h)) && decide (k / (2 * h) ≤ s.ssiBits u) then
      let bit := s.ssiData u
      s.modSheave u fun x => { x with bits := x.bits ++ [bit] }
    else s

/-- The serial frames in progress move on with the Mast cycle. -/
def ssiRun (s : State) : State :=
  s.sheaves.foldl (fun s p => if p.2.frame.isNone || !s.shvRuns p.1 || !s.phys dFCORE then s else ssiBoundary p.1 s) s

/-- The number whose bits are a list, first bit highest. -/
def bitsNat (l : List Bool) : Nat := l.foldl (fun n b => 2 * n + b.toNat) 0

/-- The n-bit word of a frame that began at t0 gives unit u its position (R274). -/
def ssiTake (u n w : Nat) (t0 : Time) (s : State) : State :=
  if (s.sheave u).first || !s.flag (SHV_STATUS_POSVALID u) then
    ((s.setF (SHV_POS_POS u) w).setF (SHV_STATUS_POSVALID u) 1).modSheave u fun x => { x with first := false }
  else
    let d := wrapDiff n ((w : Int) - s.f (SHV_POS_POS u))
    if d = 0 then s else step48 u d t0 s.mc s

/-- The record of a frame that began at t0 (R274, R283). -/
def ssiRecord (u : Nat) (t0 : Time) (s : State) : State :=
  if s.flag (SHV_RECCFG_SSI u) then shvRec u 0x26 t0 (s.f (SHV_INPUT_APORT u)) false (s.f (SHV_POS_POS u)) s else s

/-- The frame of unit u ends with the bits that it has sampled; the command names them, and is no frame's end where the unit has
sampled others (R273, R274; log entries 3 and 69). -/
def ssiEnd (u : Nat) (bits : DWord) (s : State) : State :=
  match (s.sheave u).frame with
  | none => s
  | some f0 =>
    let l := (s.sheave u).bits
    let v := bitsNat l
    if s.mc < f0 + s.ssiBusy u || !s.shvRuns u || BitVec.ofNat 64 v != bits then s else
    let n := s.f (SHV_SSICFG_DBITS u)
    let k := s.f (SHV_SSICFG_CRCBITS u)
    let t0 := s.timeOfB f0
    let s := (s.setF (SHV_STATUS_FRAMEBUSY u) 0).modSheave u fun x => { x with frame := none, bits := [] }
    let s := s.setF (SHV_SSIRAW_BITS u) v
    let data := (l.drop (s.f (SHV_SSICFG_SKIP u))).take n
    if k ≠ 0 && ssiCrc k (s.f (SHV_SSICRC_POLY u)) (s.flag (SHV_SSICFG_CRCINV u)) data ≠ v % 2 ^ k then
      shvErr u 0x04 t0 (shvPulse u 5 s.mc ((s.bump (SHV_ERRCNT_CRC u)).raise (SHV_FLAGS_CRCERR u)))
    else
      let g := bitsOf v k n
      let w := if s.flag (SHV_SSICFG_GRAY u) then fromGray n g else g
      ssiRecord u t0 (ssiTake u n w t0 (beforeSample u s))

/-! ### Loads, compare writes, standstill (R275, R278, R281) -/

/-- A write to SHV_POS (R275): it applies at the next sample boundary, and at once in mode 0b10. -/
def positionLoad (u v : Nat) (s : State) : State :=
  if s.shvRuns u && s.f (SHV_CFG_MODE u) = 2 then loadPos u (v % 2 ^ 48) s
  else s.modSheave u fun x => { x with load := some (v % 2 ^ 48) }

/-- A write to SHV_CMPVALc (R281). -/
def compareValue (u c v : Nat) (s : State) : State :=
  s.modSheave u fun x => { x with cmpw := mput x.cmpw c (BitVec.ofNat 64 (v % 2 ^ 48)) }

/-- STANDSTILL (R278). -/
def standstill (u : Nat) (s : State) : State :=
  let n := s.f (SHV_SPDCFG_STILL u)
  match (s.sheave u).lastB with
  | some b =>
    if n = 0 || !s.shvRuns u || s.flag (SHV_STATUS_STILL u) || decide (s.mc < b + 200 * n) then s
    else
      let s := (s.setF (SHV_SPEED_SPEED u) 0).setF (SHV_STATUS_STILL u) 1
      shvPulse u 4 s.mc (s.modSheave u fun x => { x with ref := none })
  | none => s

/-! ### Enable and stop (R257 to R259) -/

/-- The ports that unit u uses in its mode (R256). -/
def State.shvPorts (s : State) (u : Nat) : List Nat :=
  [s.f (SHV_INPUT_APORT u), s.f (SHV_INPUT_BPORT u)] ++ (if s.flag (SHV_CFG_IDXEN u) then [s.f (SHV_INPUT_ZPORT u)] else [])

/-- The port modes of R256. -/
def State.shvModes (s : State) (u : Nat) : Bool :=
  let a := s.f (SHV_INPUT_APORT u)
  let b := s.f (SHV_INPUT_BPORT u)
  let md := fun p => s.f (PRT_IOCFG_MODE p)
  let dig := fun p => md p ≤ 1
  let z := !s.flag (SHV_CFG_IDXEN u) || dig (s.f (SHV_INPUT_ZPORT u))
  match s.f (SHV_CFG_MODE u) with
  | 0 => decide (s.f (SHV_CFG_DECODE u) ≤ 2) && dig a && dig b && z
  | 1 => 48 ≤ a && md a == 6 && 48 ≤ b && md b == 6 && z && decide (s.f (SHV_SCLIM_AMIN u) < s.f (SHV_SCLIM_AMAX u))
  | 2 =>
    let d := s.f (SHV_SSICFG_DBITS u)
    let h := s.f (SHV_SSITIM_HALF u)
    dig a && (md b == 2 || md b == 4) && s.portEn b && !s.flag (SHV_CFG_IDXEN u) && 1 ≤ d && d ≤ 40 &&
    decide (s.f (SHV_SSICFG_CRCBITS u) ≤ 16) && 10 ≤ h && h ≤ 1000
  | _ => false

/-- Unit u may be enabled (R257). -/
def State.shvOk (s : State) (u : Nat) : Bool :=
  let ps := s.shvPorts u
  s.shvModes u && ps.all (fun p => s.ownerOf p == 0x14 + u) && decide ps.Nodup

/-- Unit u stops at the Mast boundary that begins the present cycle (R258). -/
def sheaveHalt (u : Nat) (s : State) : State :=
  let s := if s.f (SHV_CFG_MODE u) = 2 && s.phys dFCORE then ssiClock u true s else s
  let s := ((s.setF (SHV_CTRL_EN u) 0).setF (SHV_STATUS_RUNNING u) 0).setF (SHV_STATUS_POSVALID u) 0
  let s := (s.setF (SHV_SPEED_SPEED u) 0).setF (SHV_STATUS_FRAMEBUSY u) 0
  s.modSheave u fun x => { x with edges := [], ref := none, last := none, lastB := none, winAt := none, frame := none, bits := [], starts := [], line := none }

/-- The units whose stop has come stop at the Mast boundary (R258). -/
def sheavesHalt (s : State) : State :=
  (List.range 8).foldl (fun s u => if s.shvRuns u && !s.shvEn u then sheaveHalt u s else s) s

/-- A write of 0 to SHV_CTRL.EN, or a stop for another cause within a Mast cycle: the unit stops at the next Mast boundary
(R258, R492). -/
def sheaveStop (u : Nat) (s : State) : State := s.setF (SHV_CTRL_EN u) 0

/-- A write of 1 to SHV_CTRL.EN (R257). DESIGN CHOICE: where the unit is to stop at the next boundary, it stops before it is enabled
again. -/
def sheaveEnable (u : Nat) (s : State) : State :=
  if s.shvEn u then s
  else if !s.shvOk u then werr reqCheck (SHV_CTRL u) (s.raise (SHV_FLAGS_CFGERR u))
  else
    let s := applyWrites u (if s.shvRuns u then sheaveHalt u s else s)
    let n := s.f (SHV_SPDCFG_SPDWIN u)
    let lv := fun p => (s.port p).level
    let s := ((s.setF (SHV_CTRL_EN u) 1).setF (SHV_STATUS_RUNNING u) 1).setF (SHV_SPEED_SPEED u) 0
    let s := (s.setF (SHV_STATUS_DRIFTVALID u) 0).setF (SHV_STATUS_COUNTONLY u) 0
    let s := s.modSheave u fun x =>
      { a := lv (s.f (SHV_INPUT_APORT u)), b := lv (s.f (SHV_INPUT_BPORT u)), block := x.block, recs := x.recs, idxPrev := x.idxPrev, first := true,
        winAt := if n = 0 then none else some (s.mc + n) }
    if s.f (SHV_CFG_MODE u) = 2 then ssiClock u true s else s

/-- Stop the units that have lost a port, at the tick boundary at which they have (R258, R259). -/
def sheaveOwners (s : State) : State :=
  (List.range 8).foldl (init := s) fun s u =>
    if s.shvRuns u && (s.shvPorts u).any (fun p => s.ownerOf p != 0x14 + u) then
      sheaveHalt u (shvPulse u 5 s.mc (s.raise (SHV_FLAGS_OWNLOST u)))
    else s

/-- SHV_CLR (R289). -/
def shvClr (u v : Nat) (s : State) : State :=
  let s := if v.testBit 0 then
      ((s.clearCnt (SHV_ERRCNT_ILLEGAL u)).clearCnt (SHV_ERRCNT_CRC u)).clearCnt (SHV_ERRCNT_FRAME u)
    else s
  if v.testBit 1 then s.setF (SHV_SEQ_SEQ u) 0 else s

/-- The staged settings of unit u have been applied; old is SPDWIN and CPR before (R265, R288). -/
def sheaveApplied (u oldWin oldCpr : Nat) (s : State) : State :=
  let n := s.f (SHV_SPDCFG_SPDWIN u)
  let s := if n ≠ oldWin && s.shvRuns u then s.modSheave u fun x => { x with winAt := if n = 0 then none else some (s.mc + n) } else s
  if s.f (SHV_CPR_CPR u) ≠ oldCpr then s.setF (SHV_STATUS_DRIFTVALID u) 0 else s

end Sys2Proof.Machine
end

