-- ==== Sys2Proof/Machine/Mast.lean ====
section
/-! DEFINITION. The Mast timebase: the count, its reference, PPS and the field copy (R36 to R50). -/

namespace Sys2Proof.Machine

open Sys2Proof Reg

/-! ### The count (R40, R41) -/

/-- The timebase starts at the next Mast cycle: the slot walk counts its virtual boundaries from there while no ticks are
issued (R41, R538). -/
def timebaseLoad (t : Time) (s : State) : State :=
  let s := { s with kln.count := t, kln.loadSet := false }
  if s.ticking then s
  else { s with kln.slotBase := t, kln.slotK := 0, kln.virt := t + fc (256 * s.f KLN_PERIOD_PERIOD) }

/-- Sheave units whose sample boundary closes the present Mast cycle take the loads and compare writes that wait (R275,
R281). -/
def sheaveBoundary (s : State) : State :=
  s.sheaves.foldl (init := s) fun s p =>
    if (s.pairBound p.1 && !pairTime s.close) || (p.2.load.isNone && p.2.cmpw.isEmpty) || !s.phys dFCORE then s else applyWrites p.1 s

/-- The count in the cycle that begins: a running one advances by 256 fc, and a written start loads MST_SET (R40, R41). -/
def countOn (s : State) : State :=
  if !s.flag MST_CTRL_RUN then s
  else if s.kln.loadSet then timebaseLoad (fc (s.f MST_SET_SET / 256 * 256)) s
  else { s with kln.count := s.kln.count + 256 }

/-- The sending end holds a record until it is acknowledged, and no longer than 2 µs (R494). -/
def StayDir.forget (mc : Nat) (d : StayDir) : StayDir := { d with flight := d.flight.filter fun r => decide (mc ≤ r.sent + 400) }

/-- The next Mast cycle begins (R40, R41). What units have formed for it comes: pulses (R294), output changes of its
boundary (R188, R196, R197), and stops of sheave units (R258). -/
def mastCycle (s : State) : State :=
  let s := sheaveBoundary s
  let s := { s with hwNow := [], lockNow := [], hly.comps := [], kln.mc := s.kln.mc + 1,
                    stay.cmd := s.stay.cmd.forget (s.kln.mc + 1), stay.ret := s.stay.ret.forget (s.kln.mc + 1),
                    kln.copy := s.kln.copy.map fun c => if c.2 then (c.1 + 256, true) else c }
  ssiRun (portsSettle (sheavesHalt (pulsesArrive (pulsesDue (countOn s)))))

/-- A write of 1 to MST_CTRL.RUN (R41, R45). -/
def timebaseStart (s : State) : State :=
  if s.flag MST_CTRL_RUN then s else { s.setF MST_CTRL_RUN 1 with kln.loadSet := true }

/-- A write of 0 to MST_CTRL.RUN (R41, R45). -/
def timebaseStop (req : Nat) (s : State) : State :=
  if !s.flag MST_CTRL_RUN then s
  else if s.flag KLN_CTRL_RUN || s.ticking then werr req MST_CTRL s
  else { s.setF MST_CTRL_RUN 0 with kln.loadSet := false }

/-! ### The reference (R37 to R39) -/

/-- The selected reference is valid (R38). -/
def State.refValid (s : State) : Bool := s.kln.refGood.contains (s.f MST_REFSEL_SRC)

/-- The reference is lost: holdover begins (R38). DESIGN CHOICE: a loss while holdover stands notes only that the reference
is no longer valid. -/
def referenceLost (s : State) : State :=
  let s := { s with kln.refGood := s.kln.refGood.filter (· != s.f MST_REFSEL_SRC) }
  if s.flag MST_STATUS_HOLDOVER then s else
  let s := ((s.setF MST_STATUS_HOLDOVER 1).raise MST_STATUS_REFLOST).setF MST_STATUS_LOCKED 0
  logFault 6 0 (s.f MST_REFSEL_SRC) 0 (pulse 0x23A s)

/-- REFERENCE_VALID: the reference is valid, the one in force and the one that the staged MST_REFSEL selects; holdover stays
until a commit ends it (R38). -/
def referenceValid (s : State) : State :=
  let good := fun (k : Nat) (l : List Nat) => if l.contains k then l else l ++ [k]
  { s with kln.refGood := good ((s.stg MST_REFSEL).toNat % 8) (good (s.f MST_REFSEL_SRC) s.kln.refGood) }

/-- A commit of the MST_/KLN_ group has applied MST_REFSEL; old is the SRC before (R38, R39). A newly written SRC ends
holdover when the reference it selects is valid, whether it differs or not. -/
def refselApplied (old : Nat) (s : State) : State :=
  let new := s.f MST_REFSEL_SRC
  let s := if new ≠ old then (s.setF MST_STATUS_LOCKED 0).setF MST_STATUS_REF_ACTIVE new else s
  let s := if s.kln.refWritten && s.refValid then s.setF MST_STATUS_HOLDOVER 0 else s
  { s with kln.refWritten := false }

/-- The Mast PLL has pulled in and is locked (R37, R39). -/
def pllLock (s : State) : State :=
  if s.refValid && !s.flag MST_STATUS_HOLDOVER then s.setF MST_STATUS_LOCKED 1 else s

/-! ### PPS and the field copy (R43, R44) -/

/-- An edge on PPS_IN at a fine position of the present cycle (R43). -/
def ppsEdge (rising : Bool) (fine : Nat) (s : State) : State :=
  if s.running && s.flag MST_CTRL_PPS_EN && (rising != s.flag MST_CTRL_PPS_EDGE) then
    pulse 0x239 ((s.setF MST_PPS_PPS (s.now + fc fine).toNat).raise MST_STATUS_PPS_SEEN)
  else s

/-- The Stay link, when it works, realigns the field copy, which follows the Mast count again after a retraining; the residual
is in units of 1/64 fc, and 15 ps is 49.152 of them (R44, R50, R502). DESIGN CHOICE: RESID holds the low 16 bits of a residual
outside its range. -/
def fieldRealign (resid : Int) (s : State) : State :=
  if !s.linked then s else
  let s := { s.setF MST_FLDSKEW_RESID (ofSigned 16 resid) with kln.copy := none }
  if resid.natAbs ≤ 49 then s.setF MST_STATUS_FLD_ALIGNED 1
  else
    let s := pulse 0x23B ((s.setF MST_STATUS_FLD_ALIGNED 0).raise MST_STATUS_FLD_ALIGNLOSS)
    logFault 7 0 0 (s.f MST_FLDSKEW_RESID) s

end Sys2Proof.Machine
end

