-- ==== Sys2Proof/Machine/Forestay.lean ====
section
/-! DEFINITION. The Forestay unit: links, frames, calibration, following, the tree, events and the transport of global
operations (R453 to R478). What a due operation does stands in Machine/FrsOps. -/

namespace Sys2Proof.Machine

open Sys2Proof Reg

/-- Link x: 0 FA, 1 FB, 2 FC. -/
def State.flink (s : State) (x : Nat) : FLink := mget s.frs.links x {}
def State.modLink (s : State) (x : Nat) (f : FLink → FLink) : State := { s with frs.links := mmod s.frs.links x {} f }

/-- Link x is up (R453, R474). -/
def State.linkOn (s : State) (x : Nat) : Bool := (s.f FRS_STATUS_LINKUP).testBit x
def State.frsEn (s : State) : Bool := s.flag FRS_CTRL_EN && s.on dFRST
def State.isRoot (s : State) : Bool := s.flag FRS_CFG_ROOT

/-- FRS_STATUS.ALIGNED: on the root it is MST_CTRL.RUN (R460). -/
def State.frsAligned (s : State) : Bool := if s.isRoot then s.flag MST_CTRL_RUN else s.flag FRS_STATUS_ALIGNED

/-- The device's time on its Mast clock, which the calibration frames carry; while the count is held the clock goes on. -/
def State.pinTime (s : State) (fine : Nat) : Time := (if s.running then s.now else s.now + fc (256 * s.mc)) + fc fine

/-- A depth as the 5-bit field of frames and of FRS_STATUS. -/
def setDepth (d : Nat) (s : State) : State := { s.setF FRS_STATUS_DEPTH (min d 31) with frs.depth := d }

/-! ### Links (R453) -/

/-- OPBUSY returns to 0 when the last OP frame has been sent on every downstream link (R466). -/
def opBusyEnd (s : State) : State :=
  if (s.flink 1).ops = [] && (s.flink 2).ops = [] then s.setF FRS_STATUS_OPBUSY 0 else s

/-- Link x goes down (R453, R460, R461, R463, R466, R475): its queues are lost; FA takes the reference with it. -/
def linkOff (x : Nat) (s : State) : State :=
  if !s.linkOn x then s else
  let s := s.setF ⟨FRS_STATUS, x, 1⟩ 0
  let s := opBusyEnd ((s.setF (FRS_DELAY_DELAY x) 0).modLink x fun l => { slot := l.slot })
  if x = 0 then
    let s : State := { s.setF FRS_STATUS_ALIGNED 0 with frs.offN := 0, frs.goodN := 0, frs.again := true }
    if s.f MST_STATUS_REF_ACTIVE = 4 then referenceLost s else s
  else s

/-- The unit brings link x up where it can (R453). -/
def State.linkAllowed (s : State) (x : Nat) : Bool :=
  s.frsEn && (if x = 0 then !s.isRoot else if x = 1 then s.flag FRS_CFG_FBEN else s.flag FRS_CFG_FCEN)

/-- A link has 64 good frames in each direction; own is true when the comma received is of the port's own direction
(R453). -/
def linkUp (x : Nat) (own : Bool) (s : State) : State :=
  if !s.linkAllowed x then s
  else if own then s.raise FRS_STATUS_LINKERR
  else (s.setF ⟨FRS_STATUS, x, 1⟩ 1).modLink x fun _ => {}

/-- FRS_CTRL.EN is written to 0 (R474). -/
def frsDisable (s : State) : State :=
  let s := linkOff 2 (linkOff 1 (linkOff 0 s))
  let s := ((s.setF FRS_CTRL_EN 0).setF FRS_STATUS_FOLLOWING 0).setF FRS_STATUS_ALIGNED 0
  { s.setF FRS_STATUS_OPBUSY 0 with frs.links := [], frs.evs := [], frs.ops := [] }

/-- FRS_CTRL.EN is written to 1 (R474, R476). -/
def frsEnable (s : State) : State :=
  if s.flag FRS_CTRL_EN then s
  else
    let s := (s.setF FRS_CTRL_EN 1).setF FRS_OPSTAT_SKIPCNT 0
    if s.isRoot then setDepth 0 s else s

/-! ### The tree (R463) -/

/-- The fields of a TREE payload. -/
def treeCount (v : Nat) : Nat := bitsOf v 0 6
def treeAligned (v : Nat) : Nat := bitsOf v 6 6
def treeDepth (v : Nat) : Nat := bitsOf v 12 5
def treeErr (v : Nat) : Bool := v.testBit 17

/-- The summary of the device's subtree as a TREE payload: itself and the latest frames of FB and FC (R463). -/
def State.treeSum (s : State) : Nat :=
  let ts := [1, 2].filterMap fun x => (s.flink x).tree
  let c := 1 + (ts.map treeCount).sum
  let a := s.frsAligned.toNat + (ts.map treeAligned).sum
  let d := ts.foldl (fun m t => max m (treeDepth t)) s.frs.depth
  let e := decide (31 < s.frs.depth) || decide (63 < c) || ts.any treeErr
  min c 63 + min a 63 * 2 ^ 6 + min d 31 * 2 ^ 12 + e.toNat * 2 ^ 17

/-- The root reports the totals (R463, R476). -/
def treeReport (s : State) : State :=
  if !s.isRoot then s else
  let v := s.treeSum
  let s := ((s.setF FRS_TREE_COUNT (treeCount v)).setF FRS_TREE_ALIGNED (treeAligned v)).setF FRS_TREE_DEPTHMAX (treeDepth v)
  s.setF FRS_STATUS_TREEERR (decide (32 < treeCount v) || treeErr v).toNat

/-! ### Sending (R454 to R457, R467) -/

/-- The symbols of commas: K28.5 begins downstream frames, K28.1 upstream ones, and FA leads upstream (R453, R454). -/
def K28_5 : Byte := 0xBC
def K28_1 : Byte := 0x3C
def commaOut (x : Nat) : Byte := if x = 0 then K28_1 else K28_5
def commaIn (x : Nat) : Byte := if x = 0 then K28_5 else K28_1

/-- Bytes 1 to 5 of a frame: TYPE and DEPTH, and the payload (R454). -/
def frameBody (ty depth pay : Nat) : List Byte := BitVec.ofNat 8 (ty * 32 + depth) :: leBytes 4 pay

/-- A frame of 8 symbols (R454). -/
def frameSymbols (comma : Byte) (ty depth pay : Nat) : List Byte := comma :: withCrc (frameBody ty depth pay)

/-- Send a frame of a type and payload on link x. -/
def sendFrame (x ty pay : Nat) (s : State) : State :=
  { s with frs.sent := s.frs.sent ++ [(x, frameSymbols (commaOut x) ty (min s.frs.depth 31) pay)] }

/-- Queue an EVENT frame on link x: dropped where 16 wait (R456). -/
def queueEvent (x pay : Nat) (s : State) : State :=
  if !s.linkOn x then s
  else if 16 ≤ (s.flink x).evs.length then s.raise FRS_STATUS_EVDROP
  else s.modLink x fun l => { l with evs := l.evs ++ [pay] }

/-- Queue an OP frame on link x. -/
def queueOp (x ty pay : Nat) (s : State) : State :=
  if s.linkOn x then s.modLink x fun l => { l with ops := l.ops ++ [(ty, pay)] } else s

/-- Do something on every link but one. -/
def otherLinks (x : Nat) (f : Nat → State → State) (s : State) : State :=
  ((List.range 3).filter fun y => y != x).foldl (fun s y => f y s) s

/-- A message slot of link x: the oldest OP frame, the oldest EVENT frame, or IDLE (R456). -/
def messageSlot (x : Nat) (s : State) : State :=
  match (s.flink x).ops, (s.flink x).evs with
  | (ty, v) :: l, _ => opBusyEnd (sendFrame x ty v (s.modLink x fun y => { y with ops := l }))
  | [], v :: l => sendFrame x 3 v (s.modLink x fun y => { y with evs := l })
  | [], [] => sendFrame x 0 0 s

/-- FRAME_SLOT: link x sends the frame of its next slot, whose comma crosses the pins at a fine position of the present
cycle (R455, R456). DESIGN CHOICE: on a link of the root that is down the slots go by, so that the root's TREE period stands (R463);
what a port sends there to bring its link up is not noted. -/
def frameSlot (x fine : Nat) (s : State) : State :=
  if !s.linkOn x && !(s.isRoot && s.linkAllowed x) then s else
  let n := (s.flink x).slot
  let s := s.modLink x fun l => { l with slot := (n + 1) % 1024 }
  if !s.linkOn x then (if n = 1016 then treeReport s else s) else
  match n % 32 with
  | 0 =>
    let t := s.pinTime fine
    sendFrame x 1 (t.toNat % 2 ^ 32) (s.modLink x fun l => { l with sentT := some t })
  | 8 => sendFrame x 2 (((s.flink x).gotT.getD 0).toNat % 2 ^ 32) s
  | 16 => sendFrame x 7 (((s.flink x).sentT.getD 0).toNat / 2 ^ 32) s
  | 24 =>
    let s := if n / 32 = 31 then treeReport s else s
    if x = 0 && n / 32 = 31 then sendFrame x 6 s.treeSum s else sendFrame x 0 0 s
  | _ => messageSlot x s

/-! ### Calibration and following (R458 to R461) -/

/-- A device with FOLLOW joins its parent's time (R459), and once more where FA has come up again after holdover (R461); the offset
is in units of 1/64 fc. -/
def frsJoin (offset : Int) (s : State) : State :=
  if !(s.flag FRS_CFG_FOLLOW && s.frsEn && s.linkOn 0 && s.f MST_STATUS_REF_ACTIVE == 4 && s.flag MST_STATUS_LOCKED &&
       decide (3 ≤ s.frs.offN)) || (s.flag FRS_STATUS_FOLLOWING && !s.frs.again) then s
  else
  let s := { s with frs.again := false }
  if !s.flag MST_CTRL_RUN then
    let t := (s.pinTime 0).toInt * 64 + offset
    let n := (t + 8192) / 16384
    (timebaseLoad (BitVec.ofInt 64 (n * 256)) (s.setF MST_CTRL_RUN 1)).setF FRS_STATUS_FOLLOWING 1
  else if offset.natAbs ≤ 51200 * 64 then s.setF FRS_STATUS_FOLLOWING 1
  else ((s.raise FRS_STATUS_JOINERR).setF FRS_STATUS_FOLLOWING 0).setF FRS_STATUS_ALIGNED 0

/-- MAST_PLL_LOCK: a device that has its three offsets joins at the lock (R39, R459). -/
def pllLocks (s : State) : State := frsJoin s.frs.ofs (pllLock s)

/-- A signed value saturated to n bits. -/
def satTo (n : Nat) (i : Int) : Int := max (-(2 ^ (n - 1))) (min i (2 ^ (n - 1) - 1))

/-- ALIGNED follows the offsets (R460): 25 ps is 81.92, 50 ps is 163.84 units of 1/64 fc. -/
def frsAlign (offset : Int) (s : State) : State :=
  let s := { s with frs.goodN := if offset.natAbs ≤ 81 then s.frs.goodN + 1 else 0 }
  if s.flag FRS_STATUS_FOLLOWING && decide (16 ≤ s.frs.goodN) then s.setF FRS_STATUS_ALIGNED 1
  else if 163 < offset.natAbs then s.setF FRS_STATUS_ALIGNED 0 else s

/-- A complete calibration set of link x (R453, R458, R475): t1 own CALT sent, t2 its arrival at the peer, t3 the peer's
CALT, t4 its arrival. -/
def offsetCompute (x : Nat) (t1 : Time) (t2 : Nat) (t3 t4 : Time) (s : State) : State :=
  let rtt := (t4 - t1).toInt - wrapDiff 32 ((t3.toNat : Int) - t2)
  let half := rtt * 32
  if 2560 * 64 < half then linkOff x (s.raise FRS_STATUS_LINKERR) else
  let s := s.setF (FRS_DELAY_DELAY x) (ofSigned 32 half)
  if x ≠ 0 then s else
  let offset := (t3 - t4).toInt * 64 + half + toSigned 32 (s.f FRS_ASYM_A)
  let s := { s.setF FRS_OFFSET_OFS (ofSigned 32 (satTo 32 offset)) with frs.offN := s.frs.offN + 1, frs.ofs := offset }
  frsAlign offset (frsJoin offset s)

/-- The depth that arrives on FA (R463). -/
def gotDepth (x depth : Nat) (s : State) : State := if x = 0 && !s.isRoot then setDepth (depth + 1) s else s

/-- A frame of a type and payload that arrives on link x is well framed, and its CRC is that of its bytes (R454). -/
def frameGood (x ty : Nat) (h : FrsHead) (pay : Nat) : Bool :=
  h.comma == commaIn x && h.crc.toNat == crc16 (frameBody ty h.depth pay)

/-- A frame that fails: the link goes down at the eighth in a row (R453). -/
def frameBad (x : Nat) (s : State) : State :=
  if 8 ≤ (s.flink x).bad + 1 then linkOff x s else s.modLink x fun l => { l with bad := l.bad + 1 }

/-- A received frame is looked at when its link is up and it is good (R453, R454). -/
def onLink (x ty : Nat) (h : FrsHead) (pay : Nat) (f : State → State) (s : State) : State :=
  if !s.linkOn x then s
  else if !frameGood x ty h pay then frameBad x s
  else f (gotDepth x h.depth (s.modLink x fun l => { l with bad := 0 }))

/-- CALT (R455, R458): the low half of the peer's time, which arrives at a fine position of the present cycle. It is the next one
after a CALR that has come. -/
def rxCalt (x : Nat) (h : FrsHead) (pay fine : Nat) (s : State) : State :=
  onLink x 1 h pay (fun s => s.modLink x fun l =>
    { l with gotLow := some pay, gotT := some (s.pinTime fine), peerT2 := none,
             pair := l.peerT2.bind fun t2 => l.ansT1.map fun t1 => (t1, t2) }) s

/-- CALR (R455, R458): the peer received this device's last CALT at this time. -/
def rxCalr (x : Nat) (h : FrsHead) (pay : Nat) (s : State) : State :=
  onLink x 2 h pay (fun s => s.modLink x fun l => { l with peerT2 := l.sentT.map fun _ => pay, ansT1 := l.sentT }) s

/-- CALH (R455, R458): the high half of the peer's last CALT completes a set. -/
def rxCalh (x : Nat) (h : FrsHead) (pay : Nat) (s : State) : State :=
  onLink x 7 h pay (fun s =>
    let l := s.flink x
    match l.pair, l.gotLow, l.gotT with
    | some (t1, t2), some lo, some t4 =>
      offsetCompute x t1 t2 (BitVec.ofNat 64 (pay * 2 ^ 32 + lo)) t4 (s.modLink x fun l => { l with pair := none })
    | _, _, _ => s) s

/-- TREE (R455, R463). -/
def rxTree (x : Nat) (h : FrsHead) (pay : Nat) (s : State) : State :=
  onLink x 6 h pay (fun s => if x = 0 then s else treeReport (s.modLink x fun l => { l with tree := some pay })) s

/-- IDLE carries nothing but its depth (R454, R455). -/
def rxIdle (x : Nat) (h : FrsHead) (s : State) : State := onLink x 0 h 0 id s

/-! ### Events (R464) -/

/-- A pulse reaches Forestay output k in the present cycle (R464). -/
def forestayOut (k : Nat) (s : State) : State :=
  if !s.frsEn then s else
  let t := s.now + fc (256 * s.f FRS_EVLEAD_L)
  let s := { s with frs.evs := s.frs.evs ++ [(k, t)] }
  otherLinks 3 (fun x s => queueEvent x (t.toNat / 256 % 2 ^ 24 + k * 2 ^ 24) s) s

/-- The time of a 24-bit delivery cycle, nearest the present count (R464). -/
def State.nearCycle (s : State) (c : Nat) : Time :=
  let n : Int := s.now.toNat / 256
  let d := wrapDiff 24 ((c : Int) - n)
  s.now + BitVec.ofInt 64 (256 * d)

/-- EVENT (R455, R457, R464): scheduled and forwarded; one decoded after its cycle pulses in the next cycle. -/
def rxEvent (x : Nat) (h : FrsHead) (pay : Nat) (s : State) : State :=
  onLink x 3 h pay (fun s =>
    let k := bitsOf pay 24 3
    let t := s.nearCycle (bitsOf pay 0 24)
    let late := future s.now t
    let s := if late then s.raise FRS_STATUS_EVLATE else s
    let s := { s with frs.evs := s.frs.evs ++ [(k, if late then s.now + 256 else t)] }
    otherLinks x (fun y s => queueEvent y pay s) s) s

/-- EVENT_DELIVERY: the events of channel k that fall due in the present cycle give one pulse (R464). -/
def eventDelivery (k : Nat) (s : State) : State :=
  let due := fun e : Nat × Time => e.1 == k && reached e.2 s.now
  if s.frs.evs.any due then pulse (0x230 + k) { s with frs.evs := s.frs.evs.filter fun e => !due e } else s

/-! ### Global operations (R466 to R469) -/

/-- Lop in fc (R466). -/
def opLead (kind : Nat) : Nat := match kind with | 2 => 31232 | 4 => 51200 | _ => 2560

/-- KIND and its argument are valid (R466). -/
def opValid (kind arg : Nat) : Bool :=
  match kind with
  | 1 => true | 2 => true
  | 3 => decide (arg < 16)
  | 4 => decide (arg < 2 ^ 15) && !arg.testBit 0 && !arg.testBit 9
  | _ => false

/-- T with bits [7:0] ignored except for an ACTION (R466). -/
def opTime (kind : Nat) (t : Time) : Time := if kind = 2 then t else fc (t.toNat / 256 * 256)

/-- An operation is not performed (R468). -/
def opSkip (s : State) : State := (s.raise FRS_STATUS_OPSKIP).bump FRS_OPSTAT_SKIPCNT

/-- The operation addresses this device (R468). -/
def State.opMine (s : State) (o : FrsOp) : Bool := o.mask.testBit (s.f FRS_CFG_NODE)

/-- The time of an operation has come: T, or the issue of an ACTION (R468, R470). -/
def State.opDue (s : State) (o : FrsOp) : Bool := if o.kind = 2 then decide (o.due ≤ s.mc) else s.dueFc o.time

/-- The pending operations: one of other devices is pending until its time (R468). -/
def State.pendingOps (s : State) : List FrsOp := s.frs.ops.filter fun o => s.opMine o || !s.opDue o

/-- An operation arrives whole at this device, or is issued by it as the root: it is held until its time, whichever devices it
addresses (R466, R468, R469). DESIGN CHOICE: an operation of other devices is never skipped, since this device does not perform
it. -/
def opArrive (seq kind mask arg : Nat) (t : Time) (s : State) : State :=
  let mine := mask.testBit (s.f FRS_CFG_NODE)
  if 8 ≤ s.pendingOps.length then (if mine then opSkip s else s)
  else if !mine then { s with frs.ops := s.pendingOps ++ [⟨seq, kind, mask, t, arg, s.mc + 2⟩] }
  else if kind ≠ 2 && decide ((t - s.now).toInt < opLead kind) then opSkip s
  else if kind = 1 && (!s.flag MST_CTRL_RUN || s.flag KLN_CTRL_RUN) then opSkip s
  else
    let s := if kind = 1 then s.setF KLN_FIRST_FIRST t.toNat else s
    { s with frs.ops := s.pendingOps ++ [⟨seq, kind, mask, t, arg, s.mc + 2⟩] }

/-- The six frames of an operation as type and payload (R455, R467). -/
def opFrames (seq kind mask arg : Nat) (t : Time) : List (Nat × Nat) :=
  let t := t.toNat
  [ (4, seq + kind * 2 ^ 8 + (mask % 2 ^ 16) * 2 ^ 16)
  , (5, mask / 2 ^ 16 + (t % 2 ^ 16) * 2 ^ 16)
  , (5, bitsOf t 16 32)
  , (5, bitsOf t 48 16 + (arg % 2 ^ 16) * 2 ^ 16)
  , (5, bitsOf arg 16 32)
  , (5, bitsOf arg 48 16) ]

/-- A write of FRS_OPCMD.GO with a KIND (R466, R477). -/
def operationGo (req kind : Nat) (s : State) : State :=
  let t := opTime kind (fc (s.f FRS_OPTIME_T))
  let mask := s.f FRS_OPMASK_MASK
  let arg := s.f FRS_OPARG_ARG
  let least := 10240 + 10752 * s.f FRS_TREE_DEPTHMAX + opLead kind
  if !(s.isRoot && s.frsEn && !s.flag FRS_STATUS_TREEERR && !s.flag FRS_STATUS_OPBUSY && decide (s.pendingOps.length < 8) &&
       opValid kind arg && mask != 0 && decide (0 ≤ (t - (s.now + fc least)).toInt)) then
    werr req FRS_OPCMD (s.raise FRS_STATUS_OPREJ)
  else
    let seq := (s.f FRS_OPSTAT_SEQ + 1) % 256
    let s := (s.setF FRS_OPSTAT_SEQ seq).setF FRS_STATUS_OPBUSY 1
    let s := opArrive seq kind mask arg t s
    opBusyEnd ((opFrames seq kind mask arg t).foldl (fun s f => queueOp 2 f.1 f.2 (queueOp 1 f.1 f.2 s)) s)

/-- OPSTART (R457, R467). -/
def rxOpStart (x : Nat) (h : FrsHead) (pay : Nat) (s : State) : State :=
  onLink x 4 h pay (fun s => otherLinks x (fun y s => queueOp y 4 pay s) (s.modLink x fun l => { l with rx := [pay] })) s

/-- The operation in the six payloads received (R467, R468). -/
def opComplete (l : List Nat) (s : State) : State :=
  match l with
  | [a, b, c, d, e, f] =>
    let seq := bitsOf a 0 8
    let kind := bitsOf a 8 3
    let mask := bitsOf a 16 16 + bitsOf b 0 16 * 2 ^ 16
    let t := bitsOf b 16 16 + c * 2 ^ 16 + bitsOf d 0 16 * 2 ^ 48
    let arg := bitsOf d 16 16 + e * 2 ^ 16 + bitsOf f 0 16 * 2 ^ 48
    opArrive seq kind mask arg (opTime kind (fc t)) (s.setF FRS_OPSTAT_LAST seq)
  | _ => s

/-- OPCONT: it is forwarded, and the fifth after an OPSTART completes the operation (R457, R467). -/
def rxOpCont (x : Nat) (h : FrsHead) (pay : Nat) (s : State) : State :=
  onLink x 5 h pay (fun s =>
    let s := otherLinks x (fun y s => queueOp y 5 pay s) s
    let l := (s.flink x).rx
    if l = [] then s
    else
      let l := l ++ [pay]
      if l.length = 6 then opComplete l (s.modLink x fun y => { y with rx := [] }) else s.modLink x fun y => { y with rx := l }) s

/-- An operation received before o is to be performed first: its T is the same (R468). -/
def State.opBefore (s : State) (o : FrsOp) : Bool :=
  o.kind != 2 && (s.frs.ops.takeWhile fun p => p != o).any fun p => s.opMine p && p.kind != 2 && p.time == o.time

/-- The first pending operation of a kind whose time lies in the present Mast cycle or before it; those of one T are performed in
the order of SEQ, in which they arrive (R468). -/
def State.dueOp (s : State) (kind : Nat) : Option FrsOp :=
  s.frs.ops.find? fun o => o.kind == kind && s.opMine o && s.opDue o && !s.opBefore o
def takeOp (o : FrsOp) (s : State) : State := { s with frs.ops := s.frs.ops.erase o }

/-- SNAPSHOT: where T is a boundary the tick is the one that begins there, whichever command comes first (R471). -/
def frsSnapshot (s : State) : State :=
  match s.dueOp 3 with
  | none => s
  | some o =>
    let s := takeOp o s
    let s := ((s.setF FRS_SNAPTIME_T o.time.toNat).setF FRS_SNAPTICK_TICK s.tickNow).setF FRS_SNAPTTIME_TTIME
      ((s.boundaryBy s.now).map BitVec.toNat |>.getD (s.f KLN_TICKTIME_TIME))
    let s := (s.setF FRS_SNAPCW_WR (s.f RIG_CWWR_WR)).setF FRS_SNAPSEQ_SEQ o.seq
    if o.arg.testBit 3 then pulse (0x230 + bitsOf o.arg 0 3) s else s

end Sys2Proof.Machine
end

