-- ==== Sys2Proof/Machine/Halyard.lean ====
section
/-! DEFINITION. The Halyard DMA: channels, descriptors, transactions, triggers, bus errors (R315 to R343). What its
transactions do to registers stands in Machine/HalyardBus. -/

namespace Sys2Proof.Machine

open Sys2Proof Reg

/-- Channel c. -/
def State.chan (s : State) (c : Nat) : Chan := mget s.hly.chans c {}
def State.setChan (s : State) (c : Nat) (x : Chan) : State := { s with hly.chans := mset s.hly.chans c x {} }
def State.modChan (s : State) (c : Nat) (f : Chan → Chan) : State := s.setChan c (f (s.chan c))

/-- HLY_CSTAT.STATE: 0 DISABLED, 1 IDLE, 2 WAIT, 3 RUN, 4 BARRIER, 5 STOPPED, 6 REJECTED, 7 DISABLING (R342). -/
def State.chSt (s : State) (c : Nat) : Nat := s.f (HLY_CSTAT_STATE c)
def setChSt (c v : Nat) (s : State) : State := s.setF (HLY_CSTAT_STATE c) v

/-! ### Addresses (R315, R316) -/

/-- The bit that marks a host address. -/
def hostBit : Nat := 2 ^ 63

/-- The regions of R315: 1 SGA, 2 SGH, 3 the tooth table, 4 SGC, 5 to 7 registers, 8 host memory; 0 is none. The range
must lie wholly within one. -/
def hlyRegion (a n : Nat) : Nat :=
  let within := fun lo hi => decide (lo ≤ a) && decide (a + n ≤ hi)
  if hostBit ≤ a then (if a - hostBit + n ≤ hostBit then 8 else 0)
  else if within 0 0x100000 then 1
  else if within 0x100000 0x180000 then 2
  else if within 0x200000 0x208000 then 3
  else if within 0x400000 0x800000 then 4
  else if within 0x80000000 0x80060000 then 5
  else if within 0x80084000 0x800B0000 then 6
  else if within 0x800C0000 0x800D0000 then 7
  else 0

/-- Regions that hold descriptors, that are written, that are registers (R315). -/
def descRegion (r : Nat) : Bool := r == 1 || r == 2 || r == 8
def writeRegion (r : Nat) : Bool := r != 0 && r != 4
def regRegion (r : Nat) : Bool := 5 ≤ r && r ≤ 7

/-! ### Descriptors and their checks (R318 to R321) -/

/-- The fields of CTRL (R319). -/
def Desc.wait (d : Desc) : Bool := d.ctrl.testBit 7
def Desc.last (d : Desc) : Bool := d.ctrl.testBit 6
def Desc.evt (d : Desc) : Bool := d.ctrl.testBit 5
def Desc.barrier (d : Desc) : Bool := d.ctrl.testBit 4
def Desc.swap (d : Desc) : Nat := bitsOf d.ctrl 0 3

/-- The descriptor in 32 bytes (R318). -/
def readDesc (a : Nat) (b : List Byte) : Desc :=
  let g := fun o n => leNat ((b.drop o).take n)
  { num := 0, at_ := a, src := g 0 8, dst := g 8 8, len := g 16 4, ctrl := g 20 4, next := g 24 8 }

/-- Two ranges share a byte (R320). -/
def overlap (a n b m : Nat) : Bool := decide (a < b + m) && decide (b < a + n)

/-- The result of the checks on a fetched descriptor, 0 where it passes (R320). -/
def descCode (d : Desc) : Nat :=
  let rs := hlyRegion d.src d.len
  let rd := hlyRegion d.dst d.len
  if 256 ≤ d.ctrl || d.ctrl.testBit 3 || d.swap = 7 then 3
  else if d.src % 8 ≠ 0 || d.dst % 8 ≠ 0 || d.len % 8 ≠ 0 || d.len = 0 then 4
  else if rs = 0 || rd = 0 then 5
  else if !writeRegion rd then 6
  else if overlap d.src d.len d.dst d.len || overlap d.dst d.len d.at_ 32 then 7
  else 0

/-- A rejection (R321). -/
def rejectDesc (c code at_ : Nat) (s : State) : State :=
  let s := ((s.setF (HLY_CERR_CODE c) code).setF (HLY_CDESC_ADDR c) at_).raise ⟨HLY_REJ, c, 1⟩
  (setChSt c 6 s).modChan c fun x => { x with want := none, got := none }

/-- The channel goes on to fetch the descriptor at an address, after the checks made before the fetch (R320, R323). -/
def beginFetch (c at_ : Nat) (s : State) : State :=
  if at_ % 32 ≠ 0 then rejectDesc c 1 at_ s
  else if !descRegion (hlyRegion at_ 32) then rejectDesc c 2 at_ s
  else s.modChan c fun x => { x with want := some at_ }

/-- BUSERR stands (R332). -/
def State.busErr (s : State) : Bool := s.flag HLY_STATUS_BUSERR

/-- A write of 1 to HLY_CCTRL.GO (R322). -/
def dmaGo (req c : Nat) (s : State) : State :=
  let st := s.chSt c
  if !(st == 1 || st == 5 || st == 6) || s.busErr then werr req (HLY_CCTRL c) s
  else beginFetch c (s.f (HLY_CDESC_ADDR c)) (setChSt c 3 ((s.setF (HLY_CERR_CODE c) 0).modChan c fun x => { x with old := [] }))

/-- A write of 1 to HLY_CCTRL.EN (R336). -/
def chanEnable (req c : Nat) (s : State) : State :=
  match s.chSt c with
  | 7 => werr req (HLY_CCTRL c) s
  | 0 => setChSt c 1 ((s.setF (HLY_CCTRL_EN c) 1).setF (HLY_CERR_CODE c) 0)
  | _ => s

/-! ### Transactions (R325, R326) -/

/-- Places in flight of channel c and of the device (R326). -/
def State.inFlight (s : State) (c : Nat) : Nat := (s.hly.xacts.filter fun x => x.ch == c).length
def State.inFlightAll (s : State) : Nat := s.hly.xacts.length

/-- The size of the read transaction at offset `at_` of a descriptor's ranges (R325). -/
def State.readSize (s : State) (d : Desc) : Nat :=
  let a := d.src + d.read
  let b := d.dst + d.read
  let n := min (d.len - d.read) (min (256 - a % 256) (256 - b % 256))
  let n := if hostBit ≤ a then min n s.ep.mrrs else n
  let n := if hostBit ≤ b then min n s.ep.mps else n
  if regRegion (hlyRegion a 8) || regRegion (hlyRegion b 8) then min n 8 else n

/-- What a channel can issue next: the write of the oldest bytes read, a flush read, a fetch, or a read (R325, R330). -/
def State.nextXact (s : State) (c : Nat) : Option Xact :=
  let x := s.chan c
  let mk := fun (k : XKind) (d a n b : Nat) (l : List Byte) => some { id := s.hly.next, ch := c, kind := k, addr := a, len := n, dst := b, desc := d, data := l : Xact }
  match x.descs.find? fun d => !d.data.isEmpty with
  | some d => match d.data with
    | (a, l) :: _ => mk .write d.num a l.length 0 l
    | [] => none
  | none =>
    match x.descs.find? fun d => d.flushed == 1 with
    | some d => mk .flush d.num (d.lastW.getD 0) 8 0 []
    | none => match x.want with
      | some a => mk .fetch a a 32 0 []
      | none => match x.descs.find? fun d => d.going && decide (d.read < d.len) with
        | some d => mk .read d.num (d.src + d.read) (s.readSize d) (d.dst + d.read) []
        | none => none

/-- Channel c is able to issue (R326, R332, R335). -/
def State.canXact (s : State) (c : Nat) : Bool :=
  let st := s.chSt c
  (st == 2 || st == 3 || st == 4 || st == 6) && !s.busErr && decide (s.inFlight c < s.f (HLY_CQUOTA_QUOTA c)) &&
  decide (s.inFlightAll < 256) && (s.nextXact c).isSome

/-- Change descriptor num of channel c. -/
def modDesc (c num : Nat) (f : Desc → Desc) (s : State) : State :=
  s.modChan c fun x => { x with descs := x.descs.map fun d => if d.num = num then f d else d }

/-! ### Bus errors (R331 to R334) -/

/-- The phase code of HLY_ERRINFO (R339). -/
def phaseOf : XKind → Nat
  | .fetch => 1 | .read => 2 | .flush => 2 | .write => 3

/-- All bytes of the failing transaction's descriptor have been requested; a descriptor that is still being fetched
has requested none (R325, R333). -/
def State.afterZero (s : State) (x : Xact) : Bool :=
  x.kind != .fetch && match ((s.chan x.ch).descs ++ (s.chan x.ch).old).find? fun d => d.num == x.desc with
    | some d => d.going && d.read == d.len
    | none => s.f (HLY_CREM_BYTES x.ch) == 0

/-- A completion of this Mast cycle is suppressed: it is not counted, and its EVT pulse does not come (R333). -/
def uncount (p : DmaComp) (s : State) : State :=
  let c := p.ch
  let k := evKey (HLY_CCNT_COUNT c)
  let s := s.setF (HLY_CLAST_ADDR c) p.last
  { s with hwNow := mset s.hwNow k (mget s.hwNow k 0 - 1) 0
           rig.sched := if p.desc.evt then s.rig.sched.erase (0x210 + c, s.mc + 1) else s.rig.sched }

/-- A completion of this Mast cycle is suppressed. The channel is as it was before, but for a rejection of the next descriptor
that did not follow from the completion (R321, R333). At a channel that has been disabled since, the descriptor is one of those
that the disable left uncompleted, whose range DISABLE_DRAINED leaves undefined (R335). -/
def undoComp (s : State) (p : DmaComp) : State :=
  let c := p.ch
  let s := uncount p s
  if s.chSt c = 0 || s.chSt c = 7 then
    setChSt c 7 (s.modChan c fun x => { x with undef := x.undef ++ [(p.desc.dst, p.desc.len)] })
  else
    let s := s.setF (HLY_CCNT_COUNT c) (s.f (HLY_CCNT_COUNT c) + (2 ^ 32 - 1))
    let own := p.desc.last || p.desc.barrier
    let s := if own || s.chSt c ≠ 6 then s.setF (HLY_CDESC_ADDR c) p.cdesc else s
    let s := if own then ((s.setF (HLY_CSTAT_STATE c) p.st).setF (HLY_CERR_CODE c) p.code).setF ⟨HLY_REJ, c, 1⟩ p.rej else s
    s.modChan c fun x => { x with descs := p.desc :: x.descs }

/-- Every completion of this Mast cycle is suppressed, the last first (R333). -/
def undoComps (s : State) : State :=
  s.hly.comps.reverse.foldl undoComp { s with hly.comps := [] }

/-- A bus error of a transaction, at the address to record (R332, R333). No descriptor completes in its Mast cycle. -/
def busError (x : Xact) (kind addr : Nat) (s : State) : State :=
  let first := !s.busErr
  let s := if first then undoComps s else s
  let again := !first && s.noted HLY_STATUS_BUSERR != 0 && decide (x.ch < s.f HLY_ERRINFO_CH)
  let s := if first || again then
      let s := (s.setF HLY_ERRINFO_CH x.ch).setF HLY_ERRINFO_KIND kind
      let s := (s.setF HLY_ERRINFO_PHASE (phaseOf x.kind)).setF HLY_ERRINFO_AFTERZERO (s.afterZero x).toNat
      s.setF HLY_ERRADDR_ADDR addr
    else s
  let s := logFault 4 x.ch kind addr (s.bump HLY_BUSCNT_COUNT)
  if !first then s.raise HLY_STATUS_MULTI
  else
    let s := pulseAt 0x242 (s.mc + 1) (s.raise HLY_STATUS_BUSERR)
    let s := (List.range 32).foldl (init := s) fun s c =>
      let st := s.chSt c
      let s := if st = 2 || st = 3 || st = 4 then setChSt c 5 s else s
      if s.chan c = {} then s else s.modChan c fun x => { x with descs := [], want := none, got := none, old := x.descs ++ x.old }
    { s with hly.xacts := s.hly.xacts.map fun x => if x.kind = .write then x else { x with dead := true } }

/-- The kind of the bus error that a host request meets when it issues (R331, R381, R382). -/
def State.hostErr (s : State) : Option Nat :=
  if !s.ep.linkUp || s.ep.d3 || !s.on dHOST then some 6 else if !s.ep.busMaster then some 7 else none

/-- Record what an issued transaction leaves in its channel (R325). -/
def noteIssue (x : Xact) (s : State) : State :=
  match x.kind with
  | .fetch => s.modChan x.ch fun y => { y with want := none }
  | .read =>
    (modDesc x.ch x.desc (fun d => { d with read := d.read + x.len }) s).setF (HLY_CREM_BYTES x.ch) (s.f (HLY_CREM_BYTES x.ch) - x.len)
  | .write => modDesc x.ch x.desc (fun d => { d with data := d.data.drop 1, lastW := if hostBit ≤ x.addr then some x.addr else d.lastW }) s
  | .flush => modDesc x.ch x.desc (fun d => { d with flushed := 2 }) s

/-- Hand an issued transaction to its target: the bank's arbiter, the endpoint, or the register block, which performs
it in its own step (R326, R331). -/
def handXact (x : Xact) (s : State) : State :=
  let put := fun s : State => { s with hly.xacts := s.hly.xacts ++ [x] }
  if hostBit ≤ x.addr then
    match s.hostErr with
    | some k => busError x k x.addr s
    | none =>
      let s := put s
      if x.kind = .write then s else hostSend (.read x.id (x.addr - hostBit) x.len) s
  else
    let s := put s
    match bankOf x.addr with
    | some b => if x.addr < 0x80000000 then postReq b { r := 5, src := x.ch, stamp := 4 * s.mc, beats := linesOf x.addr x.len, whole := x.kind == .fetch, use := .dma x.id } s else s
    | none => s

/-- TRANSACTION_ISSUE (R326): the next channel able to issue after the last one issues one transaction. -/
def xactIssue (s : State) : State :=
  if s.hly.issued = s.mc + 1 || !s.on dDMA then s else
  match ((List.range 32).map fun i => (s.hly.lastC + 1 + i) % 32).find? s.canXact with
  | none => s
  | some c => match s.nextXact c with
    | none => s
    | some x => handXact x (noteIssue x { s with hly.lastC := c, hly.issued := s.mc + 1, hly.next := s.hly.next + 1 })

/-! ### Byte arrangement (R327) -/

/-- The source bytes of destination bytes 0 to 7 (R327). -/
def swapOrder : Nat → List Nat
  | 1 => [1, 0, 3, 2, 5, 4, 7, 6]
  | 2 => [3, 2, 1, 0, 7, 6, 5, 4]
  | 3 => [7, 6, 5, 4, 3, 2, 1, 0]
  | 4 => [2, 3, 0, 1, 6, 7, 4, 5]
  | 5 => [6, 7, 4, 5, 2, 3, 0, 1]
  | 6 => [4, 5, 6, 7, 0, 1, 2, 3]
  | _ => [0, 1, 2, 3, 4, 5, 6, 7]

/-- The bytes as they are written: each 8-byte beat rearranged (R327). -/
def arrange (swap : Nat) (l : List Byte) : List Byte :=
  (List.range l.length).map fun i => (l[i / 8 * 8 + (swapOrder swap).getD (i % 8) 0]?).getD 0

/-! ### The progress of a channel (R323, R329, R330) -/

/-- Transactions of channel c that belong to a descriptor. -/
def State.openXacts (s : State) (c num : Nat) (k : XKind) : Nat :=
  (s.hly.xacts.filter fun x => x.ch == c && x.desc == num && x.kind == k).length

/-- All read data of a descriptor has returned (R323). -/
def State.readsDone (s : State) (c : Nat) (d : Desc) : Bool := d.going && d.read == d.len && s.openXacts c d.num .read == 0

/-- All its writes have been performed as well. -/
def State.writesDone (s : State) (c : Nat) (d : Desc) : Bool := s.readsDone c d && d.data.isEmpty && s.openXacts c d.num .write == 0

/-- What follows when the reads or writes of a descriptor are done: the fetch of the next one, the BARRIER state, the
flush read (R323, R330). -/
def chanAdvance (c : Nat) (s : State) : State :=
  let x := s.chan c
  match x.descs.getLast? with
  | none => s
  | some d =>
    if s.chSt c ≠ 3 && s.chSt c ≠ 4 then s
    else if d.barrier then
      let s := if s.readsDone c d then setChSt c 4 s else s
      if s.writesDone c d && d.lastW.isSome && d.flushed = 0 then modDesc c d.num (fun d => { d with flushed := 1 }) s else s
    else if s.readsDone c d && !d.last && !d.chained then beginFetch c d.next (modDesc c d.num (fun d => { d with chained := true }) s)
    else s

/-- The data of a read or fetch has returned without error (R323, R325, R327). -/
def dataBack (x : Xact) (l : List Byte) (s : State) : State :=
  match x.kind with
  | .fetch => s.modChan x.ch fun y => { y with got := some (x.addr, l) }
  | .read => chanAdvance x.ch (modDesc x.ch x.desc (fun d => { d with data := d.data ++ [(x.dst, arrange d.swap l)] }) s)
  | _ => s

/-- A transaction ends and frees its place. -/
def freeXact (x : Xact) (s : State) : State := { s with hly.xacts := s.hly.xacts.filter fun y => y.id != x.id }

/-- DESCRIPTOR_FETCH: the fetched descriptor is checked (R320), and its transfer starts or waits for a trigger (R324). -/
def descFetch (c : Nat) (s : State) : State :=
  match (s.chan c).got with
  | none => s
  | some (a, l) =>
    let d := readDesc a l
    let code := descCode d
    if code ≠ 0 then rejectDesc c code a s
    else
      let d := { d with num := s.hly.next }
      let s := { s with hly.next := s.hly.next + 1 }.modChan c fun x => { x with got := none, descs := x.descs ++ [d] }
      setChSt c (if d.wait then 2 else 3) s

/-- TRANSFER_START (R324, R325). -/
def xferStart (c : Nat) (s : State) : State :=
  match (s.chan c).descs.find? fun d => !d.going with
  | none => s
  | some d =>
    if !(s.chSt c = 2 || s.chSt c = 3) || (d.wait && !s.flag (HLY_CSTAT_TRIGPEND c)) then s
    else
      let s := if d.wait then s.setF (HLY_CSTAT_TRIGPEND c) 0 else s
      modDesc c d.num (fun d => { d with going := true }) ((setChSt c 3 s).setF (HLY_CREM_BYTES c) d.len)

/-- DESCRIPTOR_COMPLETE (R329): the oldest descriptor completes when its conditions hold. -/
def descComplete (c : Nat) (s : State) : State :=
  match (s.chan c).descs with
  | [] => s
  | d :: l =>
    if !s.writesDone c d || (d.barrier && d.lastW.isSome && d.flushed ≠ 3) || s.busErr then s
    else
      let comp : DmaComp := { ch := c, desc := d, last := s.f (HLY_CLAST_ADDR c), cdesc := s.f (HLY_CDESC_ADDR c), st := s.chSt c,
                              code := s.f (HLY_CERR_CODE c), rej := s.f ⟨HLY_REJ, c, 1⟩ }
      let s := { s with hly.comps := s.hly.comps ++ [comp] }
      let n := s.f (HLY_CCNT_COUNT c) + 1
      let s := ((s.setF (HLY_CLAST_ADDR c) d.at_).setF (HLY_CCNT_COUNT c) n).note (HLY_CCNT_COUNT c)
      let s := if d.evt then pulseAt (0x210 + c) (s.mc + 1) s else s
      let s := (s.setF (HLY_CDESC_ADDR c) d.next).modChan c fun x => { x with descs := l }
      if s.chSt c = 6 then s
      else if d.last then setChSt c 1 s
      else if d.barrier then beginFetch c d.next (setChSt c 3 s)
      else s

/-! ### Triggers (R324) -/

/-- A pulse at the trigger of channel c (R324). -/
def dmaTrigger (c : Nat) (s : State) : State :=
  if !s.flag (HLY_CCTRL_EN c) || !s.on dDMA then s
  else if s.flag (HLY_CSTAT_TRIGPEND c) then (s.raise (HLY_CSTAT_TRIGOVF c)).raise (HLY_CSTAT_TRIGPEND c)
  else s.raise (HLY_CSTAT_TRIGPEND c)

/-- A write of 1 to TRIGCLR: a pulse of the same cycle stays pending (R324). -/
def trigClr (c : Nat) (s : State) : State :=
  if s.noted (HLY_CSTAT_TRIGPEND c) ≠ 0 then s else s.setF (HLY_CSTAT_TRIGPEND c) 0

/-! ### Disabling (R335) -/

/-- Bytes that become undefined. -/
def drawBytes (a : Nat) : Nat → State → State
  | 0, s => s
  | n + 1, s => drawBytes (a + 1) n ((s.setByte a (s.drawn.setWidth 8)).draw)

/-- The writable bits of the register at an offset take free values. -/
def undefReg (off : Nat) (s : State) : State := match rowAt off with
  | some (row, p) =>
    let m := BitVec.ofNat 32 (partOf (row.rw ||| row.rwl) p)
    (s.setReg off ((s.reg off &&& ~~~m) ||| (s.drawn.setWidth 32 &&& m))).draw
  | none => s

/-- The writable bits of n registers from an offset on take free values. -/
def undefRegs (off n : Nat) (s : State) : State := (List.range n).foldl (fun s i => undefReg (off + 4 * i) s) s

/-- A destination range that a disable leaves undefined: bank bytes take free values, and so do the writable bits of
registers; host memory lies outside the device. -/
def undefRange (a n : Nat) (s : State) : State :=
  let r := hlyRegion a n
  if r = 8 || r = 0 then s
  else if regRegion r then
    undefRegs (a - 0x80000000) (n / 4) s
  else drawBytes a n s

/-- The address lies in a bank whose domain is off, where a transaction waits (R347). -/
def State.offBank (s : State) (a : Nat) : Bool := (bankOf a).any fun b => !s.on (bankDom b)

/-- CHANNEL_DISABLE (R335): writes that have been handed to a bank or to the endpoint are performed, but for those that wait at a
bank whose domain is off (R347); all other work is dropped, and the pointers and counts hold free values. -/
def chanDisable (c : Nat) (s : State) : State :=
  if !s.flag (HLY_CCTRL_EN c) then s else
  let atBank := fun a => decide (a < 0x80000000) && !s.offBank a
  let keep := fun x : Xact => x.ch != c || decide (hostBit ≤ x.addr) || (x.kind == .write && atBank x.addr)
  let gone := (s.hly.xacts.filter fun x => !keep x).map Xact.id
  let s := (List.range 9).foldl (init := s) fun s b =>
    let mine := fun q : BankReq => match q.use with | .dma i => gone.contains i | _ => false
    (withdraw b mine s).modBank b fun x => { x with served := x.served.filter fun q => !mine q }
  let xs := (s.hly.xacts.filter keep).map fun (x : Xact) => if x.ch = c && x.kind != .write then { x with dead := true, gone := true } else x
  let s := { s with hly.xacts := xs }
  let ranges := ((s.chan c).descs ++ (s.chan c).old).map fun (d : Desc) => (d.dst, d.len)
  let s := s.setChan c { undef := ranges }
  let s := ((s.setF (HLY_CCTRL_EN c) 0).setF (HLY_CSTAT_TRIGPEND c) 0).setF (HLY_CSTAT_STATE c) 7
  let s := (s.setF (HLY_CDESC_ADDR c) s.drawn.toNat).draw
  let s := (s.setF (HLY_CREM_BYTES c) s.drawn.toNat).draw
  let s := (s.setF (HLY_CCNT_COUNT c) s.drawn.toNat).draw
  ranges.foldl (fun s r => undefRange r.1 r.2 s) s

/-- DISABLE_DRAINED (R335). -/
def disableDrained (c : Nat) (s : State) : State :=
  if s.chSt c ≠ 7 || s.inFlight c ≠ 0 then s
  else (s.chan c).undef.foldl (fun s r => undefRange r.1 r.2 s) ((setChSt c 0 s).setChan c {})

/-! ### Register commands (R334, R340, R343) -/

/-- A write of 1 to HLY_STATUS.BUSERR (R334, R338). -/
def busErrClear (req : Nat) (s : State) : State :=
  if s.inFlightAll ≠ 0 then werr req HLY_STATUS s
  else if s.noted HLY_STATUS_BUSERR ≠ 0 then s else s.setF HLY_STATUS_BUSERR 0

/-- A write of HLY_CDESC (R343). -/
def cdescWrite (req c v : Nat) (s : State) : State :=
  let st := s.chSt c
  if st = 0 || st = 1 || st = 5 || st = 6 then s.setF (HLY_CDESC_ADDR c) v else werr req (HLY_CDESC c) s

/-- A write of HLY_CCNT: a completion of the same cycle is added (R343). -/
def ccntWrite (c v : Nat) (s : State) : State := s.setF (HLY_CCNT_COUNT c) (v + s.noted (HLY_CCNT_COUNT c))

/-- A write of HLY_CCTRL (R336, R341). -/
def cctrlWrite (req c v : Nat) (s : State) : State :=
  let s := if v.testBit 2 then trigClr c s else s
  if v.testBit 0 then
    let refused := s.chSt c = 7
    let s := chanEnable req c s
    if v.testBit 1 && !refused then dmaGo req c s else s
  else chanDisable c s

end Sys2Proof.Machine
end

