-- ==== Sys2Proof/Machine/Legacy.lean ====
section
/-! DEFINITION. The compatibility window and its translator (R34, R403 to R408). -/

namespace Sys2Proof.Machine

open Sys2Proof Reg

/-- Timer n is timer n % 4 of bank n / 4, and it maps to engine n (R34, R403). -/
def State.lgcEn (s : State) (n : Nat) : Bool := s.flag (LGC_TCTRL_EN (n / 4) (n % 4))

/-- A timer takes EN := 0 (R406, R408). -/
def lgcStop (n : Nat) (s : State) : State :=
  let s := (s.setF (LGC_TCTRL_EN (n / 4) (n % 4)) 0).setF (LGC_TSTAT_STARTED (n / 4) (n % 4)) 0
  { s with lgc.starts := merase s.lgc.starts n }

/-- A write of 1 to LGC_TCTRL.EN (R403); idle is the state of the timer's engine. -/
def lgcEnable (n : Nat) (idle : Bool) (s : State) : State :=
  if s.lgcEn n then s
  else if s.flag (LGC_BCTRL_EN (n / 4)) && s.on (dCL (n / 4)) && idle then s.setF (LGC_TCTRL_EN (n / 4) (n % 4)) 1
  else werr reqCheck (LGC_TCTRL (n / 4) (n % 4)) (s.raise (LGC_TSTAT_REJ (n / 4) (n % 4)))

/-- A write of 0 to LGC_TCTRL.EN (R406): what the present boundary was to issue still issues. -/
def lgcDisable (n : Nat) (s : State) : State := if s.lgcEn n then lgcStop n s else s

/-- A write of 1 to LGC_TCTRL.FLUSH (R406). -/
def lgcFlush (n : Nat) (s : State) : State :=
  if s.lgc.flush.contains n then s else { s with lgc.flush := s.lgc.flush ++ [n] }

/-- Domain CLb goes off: the timers of bank b stop with PWRLOSS, and issue no more (R406). -/
def lgcTimersOff (b : Nat) (s : State) : State :=
  (List.range 4).foldl (init := s) fun s t =>
    let n := 4 * b + t
    let s := lgcStop n (s.raise (LGC_TSTAT_PWRLOSS b t))
    { s with lgc.win := s.lgc.win.map fun w => { w with jobs := w.jobs.filter fun j => j.timer != n } }

/-- LGC_BCTRL.EN of bank b is written to 0 (R406). -/
def lgcBankOff (b : Nat) (s : State) : State := lgcTimersOff b (s.setF (LGC_BCTRL_EN b) 0)

/-- What channel c of timer n issues at a boundary: its settings stand as they are at the boundary (R404, R408). -/
def State.lgcJob (s : State) (c n : Nat) : LegJob :=
  { ch := c, timer := n, start := mget s.lgc.starts n 0, per := s.f (LGC_TPERIOD_PERIOD (n / 4) (n % 4))
    mode := s.f (LGC_CCFG_MODE c), delay := s.f (LGC_CDELAY_DELAY c), width := s.f (LGC_CWIDTH_WIDTH c) }

/-- What a boundary at time B, of a tick of P mc, brings (R404): enabled timers start, and the issue is due. -/
def lgcBoundary (B : Time) (P : Nat) (s : State) : State :=
  if !s.on dKILN then s else
  let on := (List.range 16).filter s.lgcEn
  let s := on.foldl (init := s) fun s n =>
    if s.flag (LGC_TSTAT_STARTED (n / 4) (n % 4)) then s
    else
      let S := B + fc (256 * 200)
      let s := { s with lgc.starts := mput s.lgc.starts n S }
      (s.setF (LGC_TSTAT_STARTED (n / 4) (n % 4)) 1).setF (LGC_TSTART_START (n / 4) (n % 4)) (S.toNat / 256)
  let jobs := (List.range 16).filterMap fun c =>
    let n := s.f (LGC_CCFG_TIMER c)
    if on.contains n then some (s.lgcJob c n) else none
  { s with lgc.win := some { at_ := B, mc := s.mc, period := P, jobs := jobs, flush := s.lgc.flush }, lgc.flush := [] }

/-- The action times of a channel in a window of P mc that begins x mc after S (R404, R405): the numbers k of the
periods, at most 9 of them. -/
def lgcPeriods (x P per delay : Nat) (once : Bool) : List Nat :=
  let k0 := (x - delay + per - 1) / per
  ((List.range 9).map fun i => k0 + i).filter fun k => decide (x ≤ k * per + delay) && decide (k * per + delay < x + P) && (!once || k == 0)

/-- The times k of a channel's actions in a window (R404, R405). -/
def LegWin.times (w : LegWin) (j : LegJob) : List Nat :=
  if j.mode = 0 || 3 < j.mode then []
  else lgcPeriods ((w.at_ + fc (256 * 200) - j.start).toNat / 256) w.period j.per j.delay (j.mode == 2)

/-- The record of a channel for its period k (R405). -/
def LegJob.action (j : LegJob) (k : Nat) : Action :=
  { time := j.start + fc (256 * (k * j.per + j.delay)), port := j.ch, code := if j.mode = 3 then 0x03 else 0x04
    tag := 0x800 + j.ch, param := if j.mode = 3 then 0 else 256 * j.width }

/-- Issue the actions of a channel in a window, in the name of its timer's engine (R404, R405). -/
def lgcChannel (w : LegWin) (now : Time) (j : LegJob) (s : State) : State :=
  let ks := w.times j
  let s := if 8 < ks.length then s.raise (LGC_CSTAT_MISS j.ch) else s
  (ks.take 8).foldl (fun s k => handOn j.timer j.timer s.mc now (j.action k) s) s

/-- LEGACY_ISSUE: at B + 2 mc the CANCELs of FLUSH and the window's actions are issued, in ascending channel order
(R404, R406). -/
def lgcIssue (s : State) : State :=
  match s.lgc.win with
  | none => s
  | some w =>
    if s.mc < w.mc + 2 then s else
    let now := w.at_ + fc 512
    (List.range 16).foldl (init := { s with lgc.win := none }) fun s c =>
      let n := s.f (LGC_CCFG_TIMER c)
      let s := if w.flush.contains n then handOn n n s.mc now { time := now, port := c, code := 0x19, tag := 0x800 + c } s else s
      (w.jobs.filter fun j => j.ch == c).foldl (fun s j => lgcChannel w now j s) s

/-- The capture writer takes an input record of port c (R407). -/
def lgcCapture (r : CapRec) (s : State) : State :=
  match r.org with
  | .port c =>
    if c < 16 && r.ty = 1 && s.f (LGC_CCFG_MODE c) = 4 && s.on dKILN then
      let s := s.setF (LGC_CCAP_TIME c) (r.time.toNat / 256)
      (if s.flag (LGC_CSTAT_CAP c) then s.raise (LGC_CSTAT_CAPOVF c) else s).raise (LGC_CSTAT_CAP c)
    else s
  | _ => s

end Sys2Proof.Machine
end

