-- ==== Sys2Proof/Machine/Angles.lean ====
section
/-! DEFINITION. The tooth table, angle words, angular distances and the prediction of a wheel tracker
(R216 to R219, R225, R243). -/

namespace Sys2Proof.Machine

open Sys2Proof Reg

/-- Wheel tracker w. -/
def State.wheel (s : State) (w : Nat) : Tracker := mget s.wheels w {}
def State.setWheel (s : State) (w : Nat) (x : Tracker) : State := { s with wheels := mset s.wheels w x {} }
def State.modWheel (s : State) (w : Nat) (f : Tracker → Tracker) : State := s.setWheel w (f (s.wheel w))

/-- N2 of the secondary region of tracker w (R217). -/
def State.secN (s : State) (w : Nat) : Nat :=
  let m := s.f (WHL_CFG_SECMODE w)
  if m = 1 ∨ m = 2 then 1 else s.f (WHL_SECN_N2M1 w) + 1

/-- Tooth table entry i, as a read returns it. -/
def State.ttWord (s : State) (i : Nat) : Nat := leNat ((List.range 4).map fun k => s.readByte 4 (ttAddr i + k))

/-- The entry of position p of tracker w. -/
def State.ttPos (s : State) (w p : Nat) : Nat := s.ttWord (s.f (WHL_TTCFG_PBASE w) + p % s.teethN w)

/-- A physical tooth stands at position p; the entry is excluded from learning; its width within the limits (R217). -/
def State.physAt (s : State) (w p : Nat) : Bool := (s.ttPos w p).testBit 24
def State.lockAt (s : State) (w p : Nat) : Bool := (s.ttPos w p).testBit 25
def clampWidth (x : Int) : Nat := (max 0x4000 (min x 0x40000)).toNat
def State.widthAt (s : State) (w p : Nat) : Nat := clampWidth (bitsOf (s.ttPos w p) 0 24 : Nat)

/-- The position and the fraction of an angle word (R216). -/
def angPos (a : Nat) : Nat := bitsOf a 16 16
def angFrac (a : Nat) : Nat := bitsOf a 0 16

/-- The widths of positions 1 to p added up. -/
def State.widthSum (s : State) (w p : Nat) : Nat := ((List.range p).map fun i => s.widthAt w (i + 1)).sum

/-- u of an angle word, and the width U of one cycle (R217). -/
def State.uOf (s : State) (w a : Nat) : Nat :=
  s.widthSum w (angPos a) + angFrac a * s.widthAt w (angPos a + 1) / 65536
def State.cycleU (s : State) (w : Nat) : Nat := s.widthSum w (s.teethN w)

/-- dist of R217, and the distance by which b lies ahead of a (R218). -/
def State.dist (s : State) (w a b : Nat) : Nat := (((s.uOf w b : Int) - s.uOf w a) % s.cycleU w).toNat
def State.ahead (s : State) (w a b : Nat) : Nat :=
  let d := s.dist w a b
  if d = 0 then s.cycleU w else d

/-- The next physical position after p in the forward direction, and whether a missing one is passed (R221). -/
def State.nextPhys (s : State) (w p : Nat) : Nat → Nat × Bool
  | 0 => (p, true)
  | n + 1 =>
    let q := (p + 1) % s.teethN w
    if s.physAt w q then (q, false) else ((s.nextPhys w q n).1, true)

/-- The previous physical position (R229). -/
def State.prevPhys (s : State) (w p : Nat) : Nat → Nat
  | 0 => p
  | n + 1 =>
    let q := (p + s.teethN w - 1) % s.teethN w
    if s.physAt w q then q else s.prevPhys w q n

/-- The lowest physical position (R230). -/
def State.lowPhys (s : State) (w : Nat) : Nat := ((List.range (s.teethN w)).find? (s.physAt w)).getD 0

/-- The angle word at distance d beyond the start of position p: the least fraction whose distance reaches d. -/
def State.angleFrom (s : State) (w : Nat) : Nat → Nat → Nat → Nat
  | 0, p, _ => p * 65536
  | n + 1, p, d =>
    let x := s.widthAt w (p + 1)
    if d < x then
      let f := (d * 65536 + x - 1) / x
      if f = 65536 then (p + 1) % s.teethN w * 65536 else p * 65536 + f
    else s.angleFrom w n ((p + 1) % s.teethN w) (d - x)

/-- The difference of two times as a signed number (R42). -/
def sdiff (a b : Time) : Int := (a - b).toInt

/-- The distance in fc from the last tooth to an angle at distance d (R225): the exact value, halves rounded up. -/
def predOff (a1 a2 e1 e2 : Nat) (acc : Bool) (d : Int) : Int :=
  let den : Int := a1 * a2 * (a1 + a2)
  let num : Int := d * e2 * a1 * (a1 + a2) + if acc then (e2 * a1 - e1 * a2) * d * (a2 + d) else 0
  (2 * num + den) / (2 * den)

/-- The estimate of tracker w is valid (R225). -/
def Tracker.valid (x : Tracker) : Bool := x.hist.length == 3

/-- The last two intervals of the estimator, e1 the older. -/
def Tracker.ints (x : Tracker) : Nat × Nat :=
  match x.hist with
  | [c, b, a] => ((b.1 - a.1).toNat, (c.1 - b.1).toNat)
  | [c, b] => (0, (c.1 - b.1).toNat)
  | _ => (0, 0)

/-- The slope term applies (R225). -/
def State.accOn (s : State) (w : Nat) : Bool := s.flag (WHL_CFG_ACC_EN w) && !(s.wheel w).accl

/-- The predicted time of the angle at signed distance d from the last tooth (R225). -/
def State.predAt (s : State) (w : Nat) (d : Int) : Time :=
  let x := s.wheel w
  let (e1, e2) := x.ints
  match x.hist with
  | (t2, _) :: _ => t2 + BitVec.ofInt 64 (predOff x.a1 x.a2 e1 e2 (s.accOn w) d)
  | [] => 0

/-- The distance to the next physical position in the present direction. -/
def State.nextDist (s : State) (w p : Nat) : Nat :=
  if s.flag (WHL_STATUS_REVERSE w) then s.ahead w (s.prevPhys w p (s.teethN w) * 65536) (p * 65536)
  else s.ahead w (p * 65536) ((s.nextPhys w p (s.teethN w)).1 * 65536)

/-- d_pred in fc while the estimate is valid (R225). -/
def State.dPred (s : State) (w : Nat) : Option Int :=
  let x := s.wheel w
  if x.valid then
    let (e1, e2) := x.ints
    x.pos.map fun p => predOff x.a1 x.a2 e1 e2 (s.accOn w) (s.nextDist w p)
  else none

/-- The greatest d below hi with predOff d ≤ t, by halving. -/
def seekDist (f : Int → Int) (t : Int) : Nat → Nat → Nat → Nat
  | 0, lo, _ => lo
  | n + 1, lo, hi =>
    if hi ≤ lo + 1 then lo
    else
      let m := (lo + hi) / 2
      if f m ≤ t then seekDist f t n m hi else seekDist f t n lo m

/-- WHL_NOWANG: the angle predicted for the timebase value, held below the next physical position (R253). DESIGN CHOICE: while
the direction is reverse it runs back from the last tooth, and is held above the position that comes next. -/
def State.nowAngle (s : State) (w : Nat) : Nat :=
  let x := s.wheel w
  if s.f (WHL_STATUS_STATE w) ≠ 3 then 0
  else match x.hist, x.pos with
    | (t2, _) :: _, some p =>
      if !x.valid then p * 65536 else
      let (e1, e2) := x.ints
      let d := seekDist (predOff x.a1 x.a2 e1 e2 (s.accOn w)) (sdiff s.now t2) 32 0 (s.nextDist w p)
      if s.flag (WHL_STATUS_REVERSE w) then
        s.angleFrom w (s.teethN w) (s.prevPhys w p (s.teethN w)) (s.nextDist w p - d)
      else
      let a := s.angleFrom w (s.teethN w) p d
      if d ≠ 0 ∧ a = (s.nextPhys w p (s.teethN w)).1 * 65536 then (a + s.teethN w * 65536 - 1) % (s.teethN w * 65536) else a
    | _, _ => 0

end Sys2Proof.Machine
end

