-- ==== Sys2Proof/Machine/Slots.lean ====
section
/-! DEFINITION. The records and the angle event slots of a wheel tracker (R231 to R242, R245, R540). -/

namespace Sys2Proof.Machine

open Sys2Proof Reg

/-- Pulse Rigging source k of tracker w (R246). -/
def whlPulse (w k : Nat) (s : State) : State := pulse (0x1C0 + 8 * w + k) s

/-- A record that tracker w drops (R231, R245). -/
def whlDrop (w : Nat) (s : State) : State := (s.bump (WHL_ERRCNT_DROP w)).raise (WHL_FLAGS_DROP w)

/-- A capture record of tracker w (R245): numbered by WHL_SEQ, dropped when 8 records wait. -/
def whlRec (w ty : Nat) (t : Time) (port : Nat) (edge : Bool) (aux : Nat) (s : State) : State :=
  let on := if ty = 0x10 then s.flag (WHL_RECCFG_TOOTH w) else if ty = 0x11 then s.flag (WHL_RECCFG_SEC w)
    else if ty = 0x14 then s.flag (WHL_RECCFG_STATE w) else s.flag (WHL_RECCFG_EVT w)
  if !on || !s.running then s else
  let r : CapRec := { time := t, idx := port, edge := edge, ty := ty, seq := s.f (WHL_SEQ_SEQ w), aux := aux, lane := s.lane port, org := .tracker w }
  let s := s.setF (WHL_SEQ_SEQ w) (s.f (WHL_SEQ_SEQ w) + 1)
  if (s.wheel w).recs.length < 8 then s.modWheel w fun x => { x with recs := x.recs ++ [r] } else whlDrop w s

/-- What became of a record that a tracker issues: on its way, dropped, or discarded for a port it does not own. -/
inductive Sent where
  | sent | dropped | unowned
  deriving DecidableEq, Repr

/-- Tracker w issues a record for a port (R28, R231): a port it does not own discards it, which is recorded in
GLB_OWNERR. While the timebase is stopped no record is formed (R538). DESIGN CHOICE: an issue or RETIME of that time is treated
as a dropped one, which nothing counts. -/
def whlSend (w : Nat) (a : Action) (s : State) : State × Sent :=
  if !s.running then (s, .dropped)
  else if s.ownerOf a.port ≠ 0x10 + w then (ownErr 2 w a.port s, .unowned)
  else
    let (s, drop) := sendRecord s.mc { a with trk := true, late := false, owner := 0x10 + w } s
    if drop then (whlDrop w s, .dropped) else (s, .sent)

/-- Slot k of tracker w. -/
def Tracker.slot (x : Tracker) (k : Nat) : WSlot := mget x.slots k {}
def State.modSlot (s : State) (w k : Nat) (f : WSlot → WSlot) : State :=
  s.modWheel w fun x => { x with slots := mmod x.slots k {} f }

/-- Fields of a WHL_EVCFG value (R254). -/
def evPort (c : Nat) : Nat := bitsOf c 8 7
def evAngle (c : Nat) : Bool := c.testBit 1
def evFireLate (c : Nat) : Bool := c.testBit 2
def evOnce (c : Nat) : Bool := c.testBit 3
def evWin (c : Nat) : Nat := bitsOf c 16 16

/-- The commit horizon C in fc (R232). -/
def commitHor (p : Nat) : Nat := horizon p + 1024

/-- The record of slot k, begin or end, at time t with this code and parameter (R231). -/
def slotRec (s : State) (w k : Nat) (isEnd : Bool) (t : Time) (code param : Nat) : Action :=
  let x := (s.wheel w).slot k
  { time := t, port := evPort x.cfg, code := code,
    tag := s.f (WHL_EVSTAT_PARITY w k) * 2 ^ 7 + k * 2 + isEnd.toNat, param := param,
    mark := x.cfg.testBit 5, evt := x.cfg.testBit 6 }

/-- The parity of slot k flips (R231). -/
def flipParity (w k : Nat) (s : State) : State :=
  s.setF (WHL_EVSTAT_PARITY w k) (1 - s.f (WHL_EVSTAT_PARITY w k))

/-- The state of slot k (R254): 0 OFF, 1 WAIT, 2 ISSUED, 3 COMMITTED, 4 ACTIVE, 5 HELD. -/
def State.slotSt (s : State) (w k : Nat) : Nat := s.f (WHL_EVSTAT_STATE w k)
def setSlotSt (w k v : Nat) (s : State) : State := s.setF (WHL_EVSTAT_STATE w k) v

/-- The queued begin, end of a slot is uncommitted at time t (R232). -/
def WSlot.freeBeg (x : WSlot) (t : Time) : Bool := x.bq && !x.bc && future (x.tb - fc (commitHor (evPort x.cfg))) t
def WSlot.freeEnd (x : WSlot) (t : Time) : Bool := x.eq && !x.ec && future (x.te - fc (commitHor (evPort x.cfg))) t

/-- Cancel the uncommitted records of slot k (R234, R240). -/
def cancelSlot (w k : Nat) (t : Time) (s : State) : State :=
  let x := (s.wheel w).slot k
  let s := if x.freeBeg t then (whlSend w (slotRec s w k false x.tb 0x19 0) s).1 else s
  if x.freeEnd t then (whlSend w (slotRec s w k true x.te 0x19 0) s).1 else s

/-- Slot k has no occurrence any more; it waits for angle `wait` to pass. -/
def clearSlot (w k : Nat) (wait : Option Nat) (s : State) : State := s.modSlot w k fun _ => { wait := wait }

/-- A slot field of EN cleared in the active and the staged value (R235, R540). -/
def clearEn (w k : Nat) (s : State) : State :=
  let o := WHL_EVCFG w k
  (s.setF (WHL_EVCFG_EN w k) 0).setStg o (BitVec.ofNat 32 (setBits (s.stg o).toNat 0 1 0))

/-- The occurrence of slot k is skipped at t (R234). -/
def skipSlot (w k : Nat) (beg : Nat) (t : Time) (s : State) : State :=
  let y := (s.wheel w).slot k
  let port := evPort y.cfg
  let s := cancelSlot w k t s
  let s := (s.raise (WHL_EVSTAT_SKIPPED w k)).raise (WHL_FLAGS_SKIP w)
  let s := whlRec w 0x13 t port false k (whlPulse w 7 s)
  setSlotSt w k 1 (clearSlot w k (if y.bpass then none else some beg) (flipParity w k s))

/-- δ of R234: the angle by which the begin will have been passed at t_p + C. -/
def lateAngle (s : State) (w : Nat) (late : Int) : Int :=
  let x := s.wheel w
  let e2 := (x.ints.2 : Int)
  if e2 ≤ 0 then 0 else (late * x.a2 + e2 - 1) / e2

/-- A late begin fires late: the policy is FIRE-LATE and δ is within LATEWIN (R234). -/
def firesLate (s : State) (w cfg : Nat) (late : Int) : Bool :=
  evFireLate cfg && decide (lateAngle s w late ≤ (evWin cfg : Int))

/-- The prediction of an end, bounded by R233. -/
def boundEnd (pred tb : Time) (maxd : Nat) : Time :=
  let d := max (min (sdiff pred tb) (maxd : Int)) 512
  tb + BitVec.ofInt 64 d

/-- The signed distance of the begin of slot k from the last tooth, and of its end (R218, R233). -/
def State.begDist (s : State) (w k : Nat) : Int :=
  let x := s.wheel w
  let a := (x.pos.getD 0) * 65536
  let y := x.slot k
  if y.bpass then -(s.dist w y.beg a : Int) else s.ahead w a y.beg
def State.endDist (s : State) (w k : Nat) : Int :=
  let x := s.wheel w
  let a := (x.pos.getD 0) * 65536
  let y := x.slot k
  if y.epass then -(s.dist w y.fin a : Int)
  else if y.bpass then s.ahead w a y.fin
  else s.ahead w a y.beg + s.ahead w y.beg y.fin

/-- Issue the begin of slot k at T_b, and the end of an angle-ended slot directly after it; a dropped issue is a skip
(R231, R233). DESIGN CHOICE: an issue that is discarded for ownership (R28) is no skip; the slot is ISSUED and runs through
its occurrence without an effect at the port (log 79). -/
def issueAt (w k : Nat) (tb tp : Time) (s : State) : State :=
  let y := (s.wheel w).slot k
  let (s, out) := whlSend w (if evAngle y.cfg then slotRec s w k false tb 0x01 0 else slotRec s w k false tb 0x04 y.fin) s
  if out = .dropped then skipSlot w k y.beg tp s
  else
    let s := setSlotSt w k 2 (s.modSlot w k fun y => { y with bq := true, tb := tb })
    if !evAngle y.cfg then s
    else
      let te := boundEnd (s.predAt w (s.endDist w k)) tb y.maxd
      let (s, out) := whlSend w (slotRec s w k true te 0x02 0) s
      if out = .dropped then skipSlot w k y.beg tp s
      else s.modSlot w k fun y => { y with eq := true, te := te }

/-- Slot k in WAIT or HELD issues its occurrence at t_p if its begin lies within LOOKAHEAD (R233, R234). -/
def issueSlot (w k : Nat) (tp : Time) (s : State) : State :=
  let x := s.wheel w
  let a := (x.pos.getD 0) * 65536
  let beg := s.f (WHL_EVBEG_BEGIN w k)
  let cfg := (s.reg (WHL_EVCFG w k)).toNat
  if s.ahead w a beg ≤ s.f (WHL_ISSUE_LOOKAHEAD w) * 65536 then
    let s := s.modSlot w k fun _ => { cfg := cfg, beg := beg, fin := s.f (WHL_EVEND_END w k), maxd := s.f (WHL_EVMAX_MAXDUR w k) }
    let tb := s.predAt w (s.begDist w k)
    let c := commitHor (evPort cfg)
    let late := (c : Int) - sdiff tb tp
    if late ≤ 0 then issueAt w k tb tp s
    else if firesLate s w cfg late then
      issueAt w k (tp + fc c) tp ((s.raise (WHL_EVSTAT_FIRELATE w k)).modSlot w k fun y => { y with late := true })
    else skipSlot w k beg tp s
  else s

/-- Retime the begin of slot k to t; a RETIME that is dropped or discarded leaves the queued time (R31, R231). -/
def retimeBeg (w k : Nat) (t : Time) (s : State) : State :=
  let (s, out) := whlSend w (slotRec s w k false t 0x18 0) s
  if out ≠ .sent then s else s.modSlot w k fun y => { y with tb := t }

/-- Retime the end of slot k to t. -/
def retimeEnd (w k : Nat) (t : Time) (s : State) : State :=
  let (s, out) := whlSend w (slotRec s w k true t 0x18 0) s
  if out ≠ .sent then s else s.modSlot w k fun y => { y with te := t }

/-- The retime tolerance (R234). -/
def State.tol (s : State) (w : Nat) : Int := max (s.f (WHL_ISSUE_RETOL w)) 1

/-- Re-predict the uncommitted end of slot k at t_p (R234). Where the begin has fired late the end keeps its bound whatever RETOL
is. -/
def repredictEnd (w k : Nat) (tp : Time) (s : State) : State :=
  let y := (s.wheel w).slot k
  if !y.freeEnd tp || y.guard then s else
  let c := commitHor (evPort y.cfg)
  let t := boundEnd (s.predAt w (s.endDist w k)) y.tb y.maxd
  if sdiff t tp < (c : Int) then
    retimeEnd w k (boundEnd (tp + fc c) y.tb (2 ^ 62)) (s.raise (WHL_EVSTAT_ENDLATE w k))
  else if s.tol w ≤ (sdiff t y.te).natAbs ∨ (y.late ∧ sdiff y.te y.tb < 512) then retimeEnd w k t s
  else s

/-- Re-predict the uncommitted begin and end of slot k at t_p (R234). -/
def repredictSlot (w k : Nat) (tp : Time) (s : State) : State :=
  let y := (s.wheel w).slot k
  if y.freeBeg tp then
    let c := commitHor (evPort y.cfg)
    let t := s.predAt w (s.begDist w k)
    let late := (c : Int) - sdiff t tp
    if 0 < late then
      if firesLate s w y.cfg late then
        repredictEnd w k tp (retimeBeg w k (tp + fc c) ((s.raise (WHL_EVSTAT_FIRELATE w k)).modSlot w k fun y => { y with late := true }))
      else skipSlot w k y.beg tp s
    else if s.tol w ≤ (sdiff t y.tb).natAbs then repredictEnd w k tp (retimeBeg w k t s)
    else repredictEnd w k tp s
  else repredictEnd w k tp s

/-- The angle b lies in the interval from angle a up to the tooth at angle a' (R234). DESIGN CHOICE: with one physical tooth, where
both teeth have the same angle, the interval is the whole cycle, as for the span of R218. -/
def State.spans (s : State) (w a a' b : Nat) : Bool := decide (s.ahead w a b ≤ s.ahead w a a')

/-- The interval from position p to position q passes the angles of slot k (R234). -/
def passSlot (w k p q : Nat) (s : State) : State :=
  let a := p * 65536
  let a' := q * 65536
  let y := (s.wheel w).slot k
  let bnow := s.spans w a a' y.beg
  let enow := s.spans w a a' y.fin && (y.bpass || (bnow && decide (s.ahead w a y.beg < s.ahead w a y.fin)))
  s.modSlot w k fun y =>
    let y := { y with wait := y.wait.filter fun b => !s.spans w a a' b, past := y.past.filter fun b => !s.spans w a a' b }
    { y with bpass := y.bpass || (y.bq && bnow), epass := y.epass || (y.bq && evAngle y.cfg && enow) }

/-- The slots at a forward tooth, in ascending number; prev is the position of the tooth before. They issue and
re-predict where live holds: in SYNC with a valid estimate (R233, R234, R241). -/
def slotsTooth (w : Nat) (prev : Option Nat) (live : Bool) (tp : Time) (s : State) : State :=
  (List.range 64).foldl (init := s) fun s k =>
    let waited := ((s.wheel w).slot k).wait.isSome
    let s := match prev, (s.wheel w).pos with
      | some p, some q => if s.slotSt w k = 0 then s else passSlot w k p q s
      | _, _ => s
    let st := s.slotSt w k
    if !live then s
    else if st = 1 ∨ st = 5 then (if waited || ((s.wheel w).slot k).past.isSome then s else issueSlot w k tp s)
    else if st = 0 then s
    else repredictSlot w k tp s

/-- Slot k at a stall, a sync loss or a disable at t (R240). -/
def haltSlot (w k : Nat) (t : Time) (s : State) : State :=
  let y := (s.wheel w).slot k
  if y.freeBeg t then setSlotSt w k 5 (clearSlot w k none (flipParity w k (cancelSlot w k t s)))
  else if y.freeEnd t && !y.guard then
    retimeEnd w k (y.tb + fc y.maxd) ((s.raise (WHL_EVSTAT_GUARD w k)).modSlot w k fun y => { y with guard := true })
  else s

/-- Slot k at a reversal at t_p (R242). -/
def reverseSlot (w k : Nat) (tp : Time) (s : State) : State :=
  let y := (s.wheel w).slot k
  if y.freeBeg tp then setSlotSt w k 5 (clearSlot w k none (flipParity w k (cancelSlot w k tp s)))
  else if y.freeEnd tp && !y.guard then
    retimeEnd w k (y.tb + BitVec.ofInt 64 (max (sdiff tp y.tb) 512))
      ((s.raise (WHL_EVSTAT_REVEND w k)).modSlot w k fun y => { y with guard := true })
  else s

/-- Every slot in ascending number. -/
def eachSlot (f : Nat → State → State) (s : State) : State := (List.range 64).foldl (fun s k => f k s) s

/-- A queued begin or end of slot k becomes committed at T − C (R232, R245). -/
def slotCommit (w k : Nat) (s : State) : State :=
  let y := (s.wheel w).slot k
  let c := fc (commitHor (evPort y.cfg))
  let aux := k + y.late.toNat * 2 ^ 6 + y.guard.toNat * 2 ^ 7
  if y.bq && !y.bc && s.dueFc (y.tb - c) then
    let s := s.modSlot w k fun y => { y with bc := true }
    whlRec w 0x12 y.tb (evPort y.cfg) false aux (if s.slotSt w k = 2 then setSlotSt w k 3 s else s)
  else if y.eq && !y.ec && s.dueFc (y.te - c) then
    whlRec w 0x12 y.te (evPort y.cfg) true aux (s.modSlot w k fun y => { y with ec := true })
  else s

/-- The begin time of slot k comes (R235). -/
def occurrenceBegin (w k : Nat) (s : State) : State :=
  let y := (s.wheel w).slot k
  if s.slotSt w k = 3 && y.bc && s.dueFc y.tb then setSlotSt w k 4 s else s

/-- The end time of the occurrence of slot k (R235). -/
def WSlot.endTime (y : WSlot) : Time := if evAngle y.cfg then y.te else y.tb + fc y.fin

/-- The occurrence of slot k ends (R235, R237). DESIGN CHOICE: an occurrence that ends before
the wheel passes its begin angle has served that pass; the slot issues again from the tooth that spans the angle on. -/
def occurrenceEnd (w k : Nat) (s : State) : State :=
  let y := (s.wheel w).slot k
  if s.slotSt w k = 4 && s.dueFc y.endTime then
    let s := (flipParity w k s).modSlot w k fun _ => { past := if y.bpass then none else some y.beg }
    if evOnce y.cfg then setSlotSt w k 0 (clearEn w k s)
    else setSlotSt w k (if s.flag (WHL_EVCFG_EN w k) then 1 else 0) s
  else s

/-- The values of slot k are invalid (R540). -/
def State.slotBad (s : State) (w k : Nat) : Bool :=
  let n := s.teethN w
  let e := s.f (WHL_EVEND_END w k)
  decide (n ≤ angPos (s.f (WHL_EVBEG_BEGIN w k))) ||
  (if s.flag (WHL_EVCFG_ENDMODE w k) then s.f (WHL_EVMAX_MAXDUR w k) == 0 || decide (n ≤ angPos e) else e == 0)

/-- Slot k follows its EN: it withdraws an uncommitted occurrence when EN is clear, and goes on to OFF or WAIT
(R237, R540). -/
def slotFollow (w k : Nat) (tp : Time) (s : State) : State :=
  let y := (s.wheel w).slot k
  let en := s.flag (WHL_EVCFG_EN w k)
  match s.slotSt w k with
  | 0 => if en then setSlotSt w k 1 s else s
  | 2 => if !en && y.freeBeg tp then setSlotSt w k 0 (clearSlot w k none (flipParity w k (cancelSlot w k tp s))) else s
  | 3 => s
  | 4 => s
  | _ => if en then s else setSlotSt w k 0 (clearSlot w k none s)

/-- The check of R540 on slot k. -/
def slotCheck (w k : Nat) (s : State) : State :=
  if s.flag (WHL_EVCFG_EN w k) && s.slotBad w k then (clearEn w k s).raise (WHL_FLAGS_SLOTRANGE w) else s

end Sys2Proof.Machine
end

