-- ==== Sys2Proof/Machine/Wheels.lean ====
section
/-! DEFINITION. Wheel trackers: tooth records, synchronisation, the estimate, learning, phase, stall and sync loss
(R211 to R247). -/

namespace Sys2Proof.Machine

open Sys2Proof Reg

/-- The time at the start of Mast cycle m on the present count. -/
def State.timeOfMc (s : State) (m : Nat) : Time :=
  if s.running then s.now + fc (256 * m) - fc (256 * s.mc) else s.now

/-- WHL_STATUS.STATE: 0 OFF, 1 SEEK, 2 HALF, 3 SYNC, 4 STALLED (R220). -/
def State.whlState (s : State) (w : Nat) : Nat := s.f (WHL_STATUS_STATE w)

/-- A change of state at time t: SYNCGAIN on entry to SYNC, and the STATE record (R245, R250). -/
def setWhlState (w v : Nat) (t : Time) (s : State) : State :=
  if s.whlState w = v then s else
  let s := s.setF (WHL_STATUS_STATE w) v
  let s := if v = 3 then whlPulse w 2 (s.raise (WHL_FLAGS_SYNCGAIN w)) else s
  whlRec w 0x14 t (s.f (WHL_INPUT_PPORT w)) false (v + s.f (WHL_STATUS_CAUSE w) * 16) s

/-- The estimator restarts (R225). -/
def restartEst (w : Nat) (s : State) : State :=
  (s.modWheel w fun x => { x with hist := [], a1 := 0, a2 := 0, accl := false }).setF (WHL_STATUS_ESTVALID w) 0

/-- Sync loss with a cause at time t; the tracker enters `final` (R227, R240). The last accepted tooth and the reference edges
after it stand: the next tooth is tested against the one and may follow the others (R223, R226). -/
def syncLoss (w cause final : Nat) (t : Time) (s : State) : State :=
  let s := eachSlot (fun k s => haltSlot w k t s) s
  let s := ((s.raise (WHL_FLAGS_SYNCLOSS w)).bump (WHL_ERRCNT_LOSS w)).setF (WHL_STATUS_CAUSE w) cause
  let s := restartEst w (whlPulse w 3 s)
  let s := s.modWheel w fun x => { x with pos := none, conf := 0, prevE := none,
                                          recent := [], miss := none, lostT := x.lastT.or x.lostT,
                                          lowT := none, numT := none, cyc := [], secs := [] }
  setWhlState w final t (s.setF (WHL_STATUS_LEARNING w) 0)

/-! ### The estimate (R225) -/

/-- Divide and round to the nearest integer, halves up. -/
def roundDiv (n d : Int) : Int := if d = 0 then 0 else (2 * n + d) / (2 * d)

/-- n2 and s as WHL_TPT and WHL_SLOPE report them, in units of 1/65536 (R225, R253). -/
def tptOf (a2 e2 : Nat) : Int := roundDiv (e2 * 65536 * 65536) a2
def slopeOf (a1 a2 e1 e2 : Nat) : Int :=
  roundDiv ((e2 * a1 - e1 * a2) * 65536 * 131072 * 65536) (a1 * a2 * (a1 + a2))

/-- The span between the angle words of two consecutive physical teeth, in the direction of travel (R218). -/
def State.spanOf (s : State) (w p q : Nat) : Nat :=
  if s.flag (WHL_STATUS_REVERSE w) then s.ahead w (q * 65536) (p * 65536) else s.ahead w (p * 65536) (q * 65536)

/-- An accepted tooth with a position enters the estimator (R225). -/
def pushEst (w : Nat) (t : Time) (p : Nat) (acc : Bool) (s : State) : State :=
  let s := s.modWheel w fun x => { x with hist := ((t, p) :: x.hist).take 3, accl := acc }
  let x := s.wheel w
  let (a1, a2) := match x.hist with
    | [c, b, a] => (s.spanOf w a.2 b.2, s.spanOf w b.2 c.2)
    | [c, b] => (0, s.spanOf w b.2 c.2)
    | _ => (0, 0)
  let s := s.modWheel w fun x => { x with a1 := a1, a2 := a2 }
  let (e1, e2) := x.ints
  let s := s.setF (WHL_STATUS_ESTVALID w) x.valid.toNat
  let s := s.setF (WHL_TPT_N2 w) (BitVec.ofInt 64 (tptOf a2 e2)).toNat
  s.setF (WHL_SLOPE_S w) (if x.valid && s.accOn w then (BitVec.ofInt 64 (slopeOf a1 a2 e1 e2)).toNat else 0)

/-- An accepted primary tooth at time t, which `recent` holds: its time, its position, its record and its pulse (R225, R245, R246, R253). -/
def acceptTooth (w : Nat) (t : Time) (rev acc : Bool) (s : State) : State :=
  let x := s.wheel w
  let e := x.lastT.map fun u => (t - u).toNat
  let s := s.modWheel w fun x => { x with lastT := some t, stallT := some t, prevE := if x.recent.length ≤ 1 then none else e, seen := x.seen.filter fun u => future u t }
  let s := match x.pos with
    | some p => pushEst w t p acc s
    | none => s
  let a := (x.pos.getD 0) * 65536
  let s := (s.setF (WHL_LASTT_TIME w) t.toNat).setF (WHL_ANGLE_ANGLE w) a
  let s := whlPulse w 0 (whlRec w 0x10 t (s.f (WHL_INPUT_PPORT w)) rev a s)
  if acc then whlPulse w 6 (s.raise (WHL_FLAGS_ACCEL_LIMIT w)) else s

/-- The teeth kept for late secondary records; 1,024 cover the longest input filter. -/
def keepTooth (w : Nat) (t : Time) (p : Option Nat) (s : State) : State :=
  s.modWheel w fun x => { x with recent := ((t, p) :: x.recent).take 1024 }

/-! ### Position and synchronisation (R221 to R223) -/

/-- REFPOS is assigned in SEEK: the estimator restarts, and no cycle is under way (R221, R223, R225, R230). -/
def assignPos (w p : Nat) (s : State) : State :=
  (restartEst w s).modWheel w fun x => { x with pos := some p, conf := 0, lowT := none, numT := none, cyc := [] }

/-- One further confirmation in SEEK (R221, R223). -/
def confirmSync (w : Nat) (tp : Time) (s : State) : State :=
  if s.whlState w ≠ 1 then s else
  let n := (s.wheel w).conf + 1
  let s := s.modWheel w fun x => { x with conf := n }
  if s.f (WHL_SYNCCFG_CONFIRM w) ≤ n then setWhlState w (if s.flag (WHL_CFG_CYCLE2 w) then 2 else 3) tp s else s

/-- Move a position by the rotation that takes p to q, of N positions. -/
def rotPos (n p q x : Nat) : Nat := (x + n + q - p) % n

/-- The tooth that ends a table-long interval, with the phase level it carries (R222): none where the level
contradicts the count. -/
def phaseSync (w : Nat) (level : Bool) (tp : Time) (s : State) : Option State :=
  let n := s.teethN w
  let x := s.wheel w
  let p := x.pos.getD 0
  let q := (s.f (WHL_SYNCCFG_REFPOS w) + if level then n / 2 else 0) % n
  let half := fun a => (a + n - s.f (WHL_SYNCCFG_REFPOS w) % n) % n / (n / 2)
  match s.whlState w with
  | 2 =>
    let q := if half p = half q then p else (p + n / 2) % n
    let s := s.modWheel w fun x => { x with pos := some q, hist := x.hist.map fun h => (h.1, rotPos n p q h.2), recent := x.recent.map fun h => (h.1, h.2.map (rotPos n p q)), lowT := if p = q then x.lowT else none, numT := if p = q then x.numT else none, cyc := if p = q then x.cyc else [] }
    some (setWhlState w 3 tp s)
  | 3 => if half p = half q then some s else none
  | _ => some s

/-- Synchronisation by missing tooth at a forward tooth whose interval was e (R221, R222): none is a tooth without
an interval. The result is the cause of a sync loss, 0 where there is none. -/
def gapSync (w : Nat) (e : Option Nat) (level skip : Bool) (tp : Time) (s : State) : Nat × State :=
  let x := s.wheel w
  let long := match e, x.prevE with
    | some a, some b => decide (s.f (WHL_SYNCCFG_GAPR w) * b ≤ a * 16)
    | _, _ => false
  match x.pos with
  | none => (0, if long && !skip then assignPos w (s.f (WHL_SYNCCFG_REFPOS w)) s else s)
  | some p =>
    let (q, tlong) := s.nextPhys w p (s.teethN w)
    let s := s.modWheel w fun x => { x with pos := some q }
    if skip then (0, s)
    else if long != tlong then (1, s)
    else if !tlong then (0, s)
    else if s.flag (WHL_CFG_CYCLE2 w) && s.whlState w ≠ 1 then
      match phaseSync w level tp s with
      | some s => (0, s)
      | none => (3, s)
    else (0, confirmSync w tp s)

/-- The numbering of the secondary edges starts at a tooth at t (R244). -/
def restartEdges (w : Nat) (t : Time) (s : State) : State :=
  s.modWheel w fun x => { x with secPrev := x.secJ, secJ := 0, numT := some t }

/-- An accepted tooth at the lowest physical position completes a cycle (R230, R253); it also starts the numbering of R244. -/
def cycleAt (w p : Nat) (t : Time) (s : State) : State :=
  if p ≠ s.lowPhys w then s else
  let last := (s.wheel w).lowT
  let s := (restartEdges w t s).modWheel w fun x => { x with lowT := some t }
  match last with
  | some u =>
    let c := (t - u).toNat
    let s := (s.modWheel w fun x => { x with cyc := (c :: x.cyc).take 2 }).setF (WHL_CYCT_TIME w) c
    if s.whlState w = 3 then s.setF (WHL_CYCCNT_COUNT w) (s.f (WHL_CYCCNT_COUNT w) + 1) else s
  | none => s

/-- A tooth accepted without a position receives p: it enters the estimator and counts for the cycle (R223, R225, R230). -/
def placeTooth (w : Nat) (s : State) (h : Time × Option Nat) : State :=
  cycleAt w (h.2.getD 0) h.1 (pushEst w h.1 (h.2.getD 0) false s)

/-- Positions from p onward for a list of teeth, oldest first. -/
def State.renumber (s : State) (w : Nat) : Nat → List (Time × Option Nat) → List (Time × Option Nat)
  | _, [] => []
  | p, h :: l => (h.1, some p) :: s.renumber w (s.nextPhys w p (s.teethN w)).1 l

/-- A reference edge is followed by the i-th newest tooth of `recent`, which the count places at its position (R223). done
tells that the newest tooth has been accepted already: then it enters the restarted estimator here with the others, and
WHL_ANGLE follows its new position (R225, R253). The result is the cause of a sync loss, or 0. -/
def refRule (w i : Nat) (done : Bool) (tp : Time) (s : State) : Nat × State :=
  let x := s.wheel w
  let r := s.f (WHL_SYNCCFG_REFPOS w)
  match x.recent[i]? with
  | none => (0, s)
  | some (u, p) =>
    if p = some r then (0, confirmSync w tp (s.modWheel w fun x => { x with miss := if x.miss = some u then none else x.miss }))
    else if p.isSome && s.whlState w ≠ 1 then (2, s)
    else
      let l := s.renumber w r ((x.recent.take (i + 1)).reverse)
      let q := (l.getLast?.bind Prod.snd).getD r
      let s := assignPos w q (s.modWheel w fun x => { x with recent := l.reverse ++ x.recent.drop (i + 1), miss := none })
      let s := (if done then l else l.dropLast).foldl (placeTooth w) s
      (0, if done then s.setF (WHL_ANGLE_ANGLE w) (q * 65536) else s)

/-- Sync loss caused by a tooth: it counts as the first tooth of SEEK (R227), and follows a reference edge that no rule has
served (R223). -/
def lossAtTooth (w cause : Nat) (tp t : Time) (s : State) : State :=
  let s := keepTooth w t none (syncLoss w cause 1 tp s)
  let before := (s.wheel w).refs.any fun r => future t r
  let s := s.modWheel w fun x => { x with refs := x.refs.filter fun r => !future t r }
  acceptTooth w t false false (if before then (refRule w 0 false tp s).2 else s)

/-- The time after which no reference edge stamped up to t can still be on its way to the tracker, by the longest path of
R213 with the filter of its port. -/
def State.refBy (s : State) (w : Nat) (t : Time) : Time :=
  let p := s.f (WHL_INPUT_SPORT w)
  t + fc (256 * (s.f (PRT_INCFG_FILT p) + (if isField p then 66 else 10) + 20))

/-- Synchronisation by reference input at a forward tooth stamped t (R223). A cycle whose tooth at REFPOS has had no
reference edge loses sync at the first tooth processed when the edge's record can no longer come. -/
def refSync (w : Nat) (t tp : Time) (s : State) : Nat × State :=
  let x := s.wheel w
  if x.miss.any fun u => reached (s.refBy w u) tp then (2, s) else
  let before := x.refs.any fun r => future t r
  let p := x.pos.map fun p => (s.nextPhys w p (s.teethN w)).1
  let s := s.modWheel w fun x => { x with pos := p, refs := x.refs.filter fun r => !future t r }
  let s := keepTooth w t p s
  if before then refRule w 0 false tp s
  else (0, s.modWheel w fun x => { x with miss := x.miss.or (if p = some (s.f (WHL_SYNCCFG_REFPOS w)) then some t else none) })

/-! ### Secondary edges (R243, R244) -/

/-- The interval that a secondary edge at t falls in: the tooth that closes it and the tooth that began it, newest
first (R243). -/
def closing (t : Time) : List (Time × Option Nat) → Option ((Time × Option Nat) × (Time × Option Nat))
  | a :: b :: l => if future a.1 t && !future b.1 t then some (a, b) else closing t (b :: l)
  | _ => none

/-- The difference of two angle words of R244. -/
def phaseDiff (n : Nat) (a e : Nat) : Int :=
  let d := (a : Int) - e
  let d := if (n * 32768 : Int) ≤ d then d - n * 65536 else d
  if d < -(n * 32768 : Int) then d + n * 65536 else d

/-- Some word of n bytes at a has an uncorrectable error. -/
def State.badWord (s : State) (a n : Nat) : Bool := (wordsAt 4 a n).any fun x => s.wordErr x == 2

/-- The next edge takes its number: in the cycle before where it is stamped before the last tooth at the lowest physical
position (R244). -/
def edgeNumber (w : Nat) (t : Time) (s : State) : Nat × State :=
  let x := s.wheel w
  if x.numT.any fun u => future u t then
    (x.secPrev, s.modWheel w fun x => { x with secPrev := (x.secPrev + 1) % s.secN w })
  else (x.secJ, s.modWheel w fun x => { x with secJ := (x.secJ + 1) % s.secN w })

/-- Tracker w requests the tooth table as its OWNER, for one beat; it has at most one request pending (R357, R363). -/
def ttRequest (w : Nat) (s : State) : State :=
  if (s.bank 6).pend.any fun q => q.r == 0 && q.src == w then s else postReq 6 { r := 0, src := w, stamp := 4 * s.mc, use := .occupy } s

/-- Tracker w reads n entries of the tooth table from entry i on: the bytes, whether a word has a double-bit error, and the
state with the records of it (R219, R349). -/
def ttRead (w i n : Nat) (s : State) : List Byte × Bool × State := bankRead 6 0 (ttAddr i) (4 * n) (ttRequest w s)

/-- Tracker w reads its primary region where it uses it apart from a tooth; a double-bit error there costs it sync (R219). -/
def readPrimary (w : Nat) (use : Bool) (tp : Time) (k : State → State) (s : State) : State :=
  if !use then k s else
  let (_, bad, s) := ttRead w (s.f (WHL_TTCFG_PBASE w)) (s.teethN w) s
  if bad then syncLoss w 6 1 tp (s.raise (WHL_FLAGS_TTECC w)) else k s

/-- The phase of a secondary edge at t, numbered j, whose interval from tooth lo to tooth hi is closed (R243, R244). The
formula of R243 stands as it is in reverse too, with the span in the direction of travel. -/
def phaseMeasure (w j : Nat) (t : Time) (hi lo : Time × Nat) (tp : Time) (s : State) : State :=
  let a := s.spanOf w lo.2 hi.2
  let off := (t - lo.1).toNat * a / (hi.1 - lo.1).toNat
  let ph := s.angleFrom w (s.teethN w) lo.2 off
  let s := whlPulse w 1 (s.setF (WHL_PHASE_PHASE w) ph)
  let s := whlRec w 0x11 t (s.f (WHL_INPUT_SPORT w)) false ph s
  let i := s.f (WHL_TTCFG_SBASE w) + j
  let (_, bad, s) := ttRead w i 1 s
  if bad then syncLoss w 6 1 tp (s.raise (WHL_FLAGS_TTECC w)) else
  let s := s.setF (WHL_PHDIFF_DIFF w) (BitVec.ofInt 32 (phaseDiff (s.teethN w) ph (s.ttWord i))).toNat
  s.setF (WHL_PHIDX_J w) j

/-- Every secondary edge whose interval is closed takes its number, oldest first, and one stamped in SYNC is measured
while STATE is SYNC (R243, R244). An edge before the teeth that are kept has no interval. -/
def closeEdges (w : Nat) (tp : Time) (s : State) : State :=
  (s.wheel w).secs.foldl (init := s) fun s e =>
    let x := s.wheel w
    if !(x.recent.any fun h => future h.1 e.1) then s
    else
      let (j, s) := edgeNumber w e.1 (s.modWheel w fun x => { x with secs := x.secs.erase e })
      match closing e.1 x.recent with
      | some ((t1, some q), (t0, some p)) =>
        if e.2 && s.whlState w = 3 then phaseMeasure w j e.1 (t1, q) (t0, p) tp s else s
      | _ => s

/-- The secondary edges serve the phase (R211). -/
def phaseMode (m : Nat) : Bool := m == 1 || m == 2 || m == 4 || m == 5

/-- A secondary edge at t has its interval closed, so that its phase is measured at once (R243). -/
def State.measures (s : State) (w : Nat) (t : Time) : Bool :=
  s.whlState w == 3 && match closing t (s.wheel w).recent with
  | some ((_, some _), (_, some _)) => true
  | _ => false

/-- The i-th newest tooth is to receive REFPOS in SEEK (R223). -/
def State.places (s : State) (w i : Nat) : Bool :=
  s.whlState w == 1 && ((s.wheel w).recent[i]?).any fun h => h.2 != some (s.f (WHL_SYNCCFG_REFPOS w))

/-- Sync loss by the i-th newest tooth, whose reference edge comes late: it counts as the first tooth of SEEK, and those after
it follow (R223, R227). DESIGN CHOICE: an edge that has cost sync assigns no position. -/
def lateRefLoss (w i : Nat) (tp : Time) (s : State) : State :=
  let l := (s.wheel w).recent
  let lost := (l[i + 1]?).map Prod.fst
  (syncLoss w 2 1 tp s).modWheel w fun x => { x with recent := (l.take (i + 1)).map fun h => (h.1, none), lostT := lost }

/-- A reference edge at t that teeth follow already, the i-th newest first (R223). -/
def lateRef (w i : Nat) (tp : Time) (s : State) : State :=
  let (cause, s) := refRule w i true tp s
  if cause = 0 then s else lateRefLoss w i tp s

/-- A secondary record is processed at t_p (R223, R243). A reference edge before the last tooth of a time that a sync loss
ended serves nothing. -/
def secondary (w : Nat) (t tp : Time) (s : State) : State :=
  let m := s.f (WHL_CFG_SECMODE w)
  let s := if phaseMode m then
      readPrimary w (s.measures w t) tp
        (fun s => closeEdges w tp (s.modWheel w fun x => { x with secs := x.secs ++ [(t, decide (s.whlState w = 3))] })) s
    else s
  if m = 1 && s.flag (WHL_SYNCCFG_SYNCSRC w) && !((s.wheel w).lostT.any fun k => future k t) then
    let later := (s.wheel w).recent.filter fun h => future h.1 t
    if later = [] then s.modWheel w fun x => { x with refs := x.refs ++ [t] }
    else readPrimary w (s.places w (later.length - 1)) tp (lateRef w (later.length - 1) tp) s
  else s

/-! ### Cycles and learning (R230) -/

/-- The tooth at t, which has its position, may complete a cycle (R230). -/
def countCycle (w : Nat) (t : Time) (s : State) : State :=
  match (s.wheel w).pos with
  | some p => cycleAt w p t s
  | none => s

/-- The tooth at t closes the intervals of secondary edges (R243). Where that costs sync the tooth counts as the first of SEEK
(R227). -/
def closeAtTooth (w : Nat) (t tp : Time) (s : State) : State :=
  let s := closeEdges w tp s
  if (s.wheel w).recent = [] then keepTooth w t none s else s

/-- The tracker learns at this tooth (R230). -/
def State.learns (s : State) (w : Nat) : Bool :=
  let x := s.wheel w
  s.flag (WHL_LEARN_EN w) && s.whlState w == 3 && !s.flag (WHL_STATUS_REVERSE w) && !x.accl && decide (2 ≤ x.hist.length) &&
  match x.cyc with
  | [c, d] => decide (((c : Int) - d).natAbs * 1024 ≤ s.f (WHL_LEARN_LTOL w) * c)
  | _ => false

/-- The new width field of an entry: the width moves towards the measured span (R230). -/
def learnWidth (width : Nat) (m span : Int) (k : Nat) : Nat := clampWidth ((width : Int) + (m - span) / 2 ^ k)

/-- Profile learning at an accepted tooth (R230). -/
def learnTooth (w : Nat) (s : State) : State :=
  let on := s.learns w
  let s := s.setF (WHL_STATUS_LEARNING w) on.toNat
  let x := s.wheel w
  match on, x.pos, x.cyc with
  | true, some p, c :: _ =>
    if s.lockAt w p then s else
    let e := s.ttPos w p
    let m := roundDiv (x.ints.2 * s.cycleU w) c
    let v := setBits e 0 24 (learnWidth (bitsOf e 0 24) m x.a2 (s.f (WHL_LEARN_LRATE w)))
    bankWrite 6 0 (ttAddr (s.f (WHL_TTCFG_PBASE w) + p)) ((leBytes 4 v).map some) (ttRequest w s)
  | _, _, _ => s

/-! ### The processing of a tooth (R214, R226, R229) -/

/-- The direction of a primary tooth is reverse (R229). -/
def State.isReverse (s : State) (w : Nat) (level : Bool) : Bool :=
  let m := s.f (WHL_CFG_SECMODE w)
  (m == 3 || m == 4) && (level != s.flag (WHL_CFG_DIRINV w))

/-- A reverse tooth (R229, R242, R243). -/
def reverseTooth (w : Nat) (t tp : Time) (s : State) : State :=
  let first := !s.flag (WHL_STATUS_REVERSE w)
  let s := if first then
      let s := (s.raise (WHL_FLAGS_REVERSE w)).setF (WHL_STATUS_REVERSE w) 1
      restartEst w (eachSlot (fun k s => reverseSlot w k tp s) (whlPulse w 5 s))
    else s
  let s := s.modWheel w fun x => { x with pos := x.pos.map fun p => s.prevPhys w p (s.teethN w), lowT := none, cyc := [], miss := none }
  let s := keepTooth w t (s.wheel w).pos s
  let s := closeAtTooth w t tp (acceptTooth w t true false (s.setF (WHL_STATUS_LEARNING w) 0))
  if (s.wheel w).pos = some (s.lowPhys w) then restartEdges w t s else s

/-- A tooth that is accepted and moves the wheel forward (R221, R225, R230, R233, R243). -/
def forwardTooth (w : Nat) (t tp : Time) (level skip acc : Bool) (s : State) : State :=
  let e := (s.wheel w).lastT.map fun u => (t - u).toNat
  let byRef := s.flag (WHL_SYNCCFG_SYNCSRC w)
  let known := (s.wheel w).pos.isSome
  let (cause, s) := if byRef then refSync w t tp s else gapSync w e level skip tp s
  if cause ≠ 0 then lossAtTooth w cause tp t s
  else
    let prev := if known then (s.wheel w).pos.map fun q => s.prevPhys w q (s.teethN w) else none
    let s := if byRef then s else keepTooth w t (s.wheel w).pos s
    let s := acceptTooth w t false acc s
    let s := closeAtTooth w t tp s
    let s := learnTooth w (countCycle w t s)
    slotsTooth w prev (decide (s.whlState w = 3) && (s.wheel w).valid) tp s

/-- A primary tooth record stamped t, processed at t_p (R226 to R229). -/
def primary (w : Nat) (t : Time) (level : Bool) (tp : Time) (s : State) : State :=
  let (_, bad, s) := ttRead w (s.f (WHL_TTCFG_PBASE w)) (s.teethN w) s
  if bad then lossAtTooth w 6 tp t (s.raise (WHL_FLAGS_TTECC w)) else
  let stalled := s.whlState w = 4
  let s := if stalled then restartEst w (setWhlState w (s.wheel w).saved tp s) else s
  if s.isReverse w level then reverseTooth w t tp s
  else
    let turned := s.flag (WHL_STATUS_REVERSE w)
    let s := if turned then restartEst w (s.setF (WHL_STATUS_REVERSE w) 0) else s
    let e := (s.wheel w).lastT.map fun u => ((t - u).toNat : Int)
    match e, s.dPred w with
    | some e, some d =>
      if e * 256 < s.f (WHL_FILT_MINFRAC w) * d then
        ((s.raise (WHL_FLAGS_REJECT w)).bump (WHL_ERRCNT_REJ w)).modWheel w fun x => { x with seen := x.seen.erase t }
      else if e < 25600 then lossAtTooth w 4 tp t (s.raise (WHL_FLAGS_OVERSPEED w))
      else forwardTooth w t tp level (stalled || turned) (decide (e * 5 < d * 3)) s
    | some e, none =>
      if e < 25600 then lossAtTooth w 4 tp t (s.raise (WHL_FLAGS_OVERSPEED w))
      else forwardTooth w t tp level (stalled || turned) false s
    | none, _ => forwardTooth w t tp level (stalled || turned) false s

/-- The first record on its way to tracker w arrives (R213). -/
def toothArrival (w : Nat) (s : State) : State :=
  match s.toothPath.find? fun r => r.wheel == w && decide (r.ready ≤ s.mc) with
  | some r =>
    let s := { s with toothPath := s.toothPath.erase r }
    if s.on dKILN && s.whlEn w then
      s.modWheel w fun x => { x with fifo := x.fifo ++ [(r, s.mc)], seen := if r.port = s.f (WHL_INPUT_PPORT w) then x.seen ++ [r.time] else x.seen }
    else s
  | none => s

/-- The processing of the first waiting record completes at t_p (R214). -/
def toothProcess (w : Nat) (s : State) : State :=
  let x := s.wheel w
  match x.fifo with
  | [] => s
  | (r, ta) :: l =>
    let p := max (ta + 20) ((x.lastP.getD 0) + 20)
    if s.mc < p || !s.whlEn w then s else
    let s := s.modWheel w fun x => { x with fifo := l, lastP := some p }
    let tp := s.timeOfMc p
    if r.port = s.f (WHL_INPUT_PPORT w) then primary w r.time r.other tp s
    else secondary w r.time tp s

/-! ### Stall, enable and disable (R224, R228, R240, R247) -/

/-- The stall time t_s, in fc after the last accepted tooth (R228). -/
def State.stallAfter (s : State) (w : Nat) : Option Nat :=
  let a := s.f (WHL_STALL_ABS w)
  let byAbs := if a = 0 then none else some (a * 51200)
  match (s.dPred w).map fun (d : Int) => (d * (s.f (WHL_STALL_MULT w) : Int) / 4).toNat, byAbs with
  | some x, some y => some (min x y)
  | some x, none => some x
  | none, y => y

/-- STALL (R228). -/
def stall (w : Nat) (s : State) : State :=
  let x := s.wheel w
  let st := s.whlState w
  match x.stallT, s.stallAfter w with
  | some t, some d =>
    let ts := t + fc d
    let tst := ts + fc (20480 + 256 * s.f (PRT_INCFG_FILT (s.f (WHL_INPUT_PPORT w))))
    if st = 0 || st = 4 || !s.whlEn w || !s.running || !s.dueFc tst || x.seen.any (fun u => !future u ts) then s
    else
      let s := whlPulse w 4 ((s.raise (WHL_FLAGS_STALL w)).modWheel w fun x => { x with stallT := none })
      if s.flag (WHL_CFG_STALLKEEP w) then
        let s := restartEst w (eachSlot (fun k s => haltSlot w k tst s) s)
        let s := s.modWheel w fun x => { x with saved := st }
        setWhlState w 4 tst (s.setF (WHL_STATUS_LEARNING w) 0)
      else syncLoss w 5 1 tst s
  | _, _ => s

/-- Slot k after a commit has applied its staged fields, at the boundary tp (R237, R540). What it predicts it reads from the
tooth table (R219). -/
def slotApply (w k : Nat) (tp : Time) (s : State) : State :=
  let s := slotFollow w k tp (slotCheck w k s)
  let y := (s.wheel w).slot k
  if s.slotSt w k ≠ 2 || !y.freeBeg tp then s else
  let cfg := (s.reg (WHL_EVCFG w k)).toNat
  let beg := s.f (WHL_EVBEG_BEGIN w k)
  let fin := s.f (WHL_EVEND_END w k)
  let maxd := s.f (WHL_EVMAX_MAXDUR w k)
  let live := s.f (WHL_STATUS_STATE w) = 3 && (s.wheel w).valid
  if evPort cfg ≠ evPort y.cfg || evAngle cfg != evAngle y.cfg || (!evAngle cfg && decide (fin ≠ y.fin)) then
    let s := setSlotSt w k 1 (clearSlot w k none (flipParity w k (cancelSlot w k tp s)))
    readPrimary w live tp (issueSlot w k tp) s
  else
    let s := s.modSlot w k fun z => { z with cfg := cfg, beg := beg, fin := fin, maxd := maxd, bpass := z.bpass && beg == y.beg, epass := z.epass && fin == y.fin }
    readPrimary w (live && decide (beg ≠ y.beg ∨ fin ≠ y.fin ∨ maxd ≠ y.maxd)) tp (repredictSlot w k tp) s

/-- The regions of tracker w: first entry and length (R217). -/
def State.regions (s : State) (w : Nat) : List (Nat × Nat) :=
  (s.f (WHL_TTCFG_PBASE w), s.teethN w) ::
    (if phaseMode (s.f (WHL_CFG_SECMODE w)) then [(s.f (WHL_TTCFG_SBASE w), s.secN w)] else [])

/-- Two regions have no entry in common. -/
def apart (a b : Nat × Nat) : Bool := decide (a.1 + a.2 ≤ b.1) || decide (b.1 + b.2 ≤ a.1)

/-- Port p can be an input of tracker w (R211). -/
def State.inputOk (s : State) (w p : Nat) : Bool :=
  let m := s.f (PRT_IOCFG_MODE p)
  p < 96 && s.ownerOf p == 0x10 + w && (m == 0 || (isField p && m == 1) || (m == 5 && decide (p < 8)))

/-- The configuration of tracker w is valid (R247). -/
def State.whlOk (s : State) (w : Nat) : Bool :=
  let m := s.f (WHL_CFG_SECMODE w)
  let pp := s.f (WHL_INPUT_PPORT w)
  let sp := s.f (WHL_INPUT_SPORT w)
  let src := s.flag (WHL_SYNCCFG_SYNCSRC w)
  let g := s.f (WHL_SYNCCFG_GAPR w)
  let rs := s.regions w
  s.inputOk w pp && (m == 0 || (s.inputOk w sp && pp != sp)) && m ≤ 5 && (!src || m == 1) &&
  (!s.flag (WHL_CFG_CYCLE2 w) || (s.teethN w % 2 == 0 && !src && m == 2)) &&
  (src || (17 ≤ g && g ≤ 63)) && s.f (WHL_SYNCCFG_CONFIRM w) != 0 &&
  rs.all (fun r => decide (r.1 + r.2 ≤ 8192)) &&
  (match rs with | [a, b] => apart a b | _ => true) &&
  (List.range 4).all fun v => v == w || !s.whlEn v || rs.all fun a => (s.regions v).all fun b => apart a b

/-- A write of 1 to WHL_CTRL.EN (R247, R540). -/
def whlEnable (w : Nat) (s : State) : State :=
  if s.whlEn w then s
  else if !s.whlOk w then werr reqCheck (WHL_CTRL w) (s.raise (WHL_FLAGS_CFGERR w))
  else
    let s := s.setF (WHL_CTRL_EN w) 1
    let s := s.modWheel w fun x => { slots := x.slots, recs := x.recs, lastP := x.lastP }
    let s := restartEst w (s.setF (WHL_STATUS_REVERSE w) 0)
    setWhlState w 1 s.now (eachSlot (fun k s => slotFollow w k s.now (slotCheck w k s)) s)

/-- A write of 0 to WHL_CTRL.EN (R240, R247). -/
def whlDisable (w : Nat) (s : State) : State :=
  if !s.whlEn w then s
  else
    let s := syncLoss w 8 0 s.now s
    (s.setF (WHL_CTRL_EN w) 0).modWheel w fun x => { x with fifo := [] }

/-- A write of 1 to WHL_CTRL.RESYNC (R224, R249). -/
def resync (w : Nat) (s : State) : State := if s.whlEn w then syncLoss w 7 1 s.now s else s

/-- WHL_CLR (R253). -/
def whlClr (w v : Nat) (s : State) : State :=
  let s := if v.testBit 0 then
      ((s.clearCnt (WHL_ERRCNT_DROP w)).clearCnt (WHL_ERRCNT_LOSS w)).clearCnt (WHL_ERRCNT_REJ w)
    else s
  if v.testBit 1 then s.setF (WHL_SEQ_SEQ w) 0 else s

/-- A write of requester req, bank requester r, to tooth table entry i: refused where the table's domain is off or a tracker
learns there, and waiting while the table clears (R219, R346, R352). -/
def ttWrite (req r i v : Nat) (s : State) : State :=
  let q : BankReq := { r := r, stamp := 4 * s.mc, use := .occupy }
  if !s.on dKILN || s.ttLocked (ttAddr i) 4 then werr req (0x80000000 + ttAddr i) s
  else if !s.bankUp 6 then postReq 6 { q with use := .table req (ttAddr i) (leBytes 4 v) } s
  else bankWrite 6 r (ttAddr i) ((leBytes 4 v).map some) (postReq 6 q s)

/-! ### Variable reluctance (R215) -/

/-- The front end of port p, and the tracker that owns the port. -/
def State.vrOf (s : State) (p : Nat) : VrFront := mget s.vr p {}
def State.setVr (s : State) (p : Nat) (x : VrFront) : State := { s with vr := mset s.vr p x {} }

/-- The arming threshold of port p in sixteenths of 20 mV (R215); 0 where no tracker owns the port. -/
def State.vrThr (s : State) (p : Nat) : Nat :=
  let o := s.ownerOf p
  if 0x10 ≤ o && o < 0x14 then
    max (16 * s.f (WHL_VRCFG_VRMIN (o - 0x10))) (s.f (WHL_VRCFG_VRFRAC (o - 0x10)) * (s.vrOf p).peak)
  else 0

/-- Port p is in the VR mode (R187, R215). -/
def State.isVr (s : State) (p : Nat) : Bool := decide (p < 8) && s.f (PRT_IOCFG_MODE p) == 5

/-- The VR signal of port p passes the arming threshold on its way to a peak (R215). -/
def vrArm (p peak fine : Nat) (s : State) : State :=
  if !s.isVr p || !s.phys (portDom p) || decide (16 * peak ≤ s.vrThr p) then s else
  let o := s.ownerOf p
  let s := s.setVr p ⟨true, peak⟩
  let s := if 0x10 ≤ o && o < 0x14 && s.f (WHL_INPUT_PPORT (o - 0x10)) = p then s.setF (WHL_VRPEAK_PEAK (o - 0x10)) peak else s
  rawChange p false (s.pnow p + fc fine) s

/-- The next negative-going zero crossing of an armed front end (R215). -/
def vrZero (p fine : Nat) (s : State) : State :=
  if !s.isVr p || !s.phys (portDom p) || !(s.vrOf p).armed then s else
  rawChange p true (s.pnow p + fc fine) (s.setVr p { s.vrOf p with armed := false })

end Sys2Proof.Machine
end

