-- ==== Sys2Proof/Machine/PortOps.lean ====
section
/-! DEFINITION. Port operations beside the action queue: qualified edges, the arm input, enable and disable, the counter
registers and the driver protection (R182, R186, R188, R189, R193, R197, R199, R206, R516). -/

namespace Sys2Proof.Machine

open Sys2Proof Reg

/-! ### Qualified edges (R182, R186, R190, R212) -/

/-- A qualified edge of port p goes to its owning tracker as a tooth record, 2 mc after it qualifies (R186, R212, R213);
none is formed of an edge of a stopped timebase, or while the timebase is stopped (R41, R538). DESIGN CHOICE: the level of the
other input is the filtered one that PRT_STATUS.IN shows (R212). -/
def toothForm (p w ready : Nat) (e : RawEdge) (s : State) : State :=
  let pp := s.f (WHL_INPUT_PPORT w)
  let sp := s.f (WHL_INPUT_SPORT w)
  let sec := decide (p ≠ pp) && decide (p = sp) && s.f (WHL_CFG_SECMODE w) != 0
  let take := if p = pp then e.level != s.flag (WHL_CFG_PEDGE w) else sec && e.level != s.flag (WHL_CFG_SEDGE w)
  if !take || !e.ran || !s.prunning p then s else
  let r : Tooth := ⟨p, e.stamp, (s.port (if p = pp then sp else pp)).level, w, s.lane p, ready⟩
  if isField p then { s with teeth := s.teeth ++ [r] } else { s with toothPath := s.toothPath ++ [r] }

/-- A qualified edge of port p goes to its owning sheave unit on each line that names the port, stamped unless it lies
in the dead time after the stamped edge before it or the timebase was stopped (R41, R256, R261, R263). -/
def sheaveForm (p u : Nat) (e : RawEdge) (filt : Nat) (near : Bool) (s : State) : State :=
  if !s.shvRuns u then s else
  let s := if near || !e.ran then s else s.modPort p fun x => { x with stamped := some e.stamp }
  let put := fun (l : Nat) (s : State) =>
    s.modSheave u fun x => { x with edges := x.edges ++ [⟨l, e.level, if near || !e.ran then none else some e.stamp, e.mc + filt + 3, filt⟩] }
  let s := if p = s.f (SHV_INPUT_APORT u) then put 0 s else s
  let s := if p = s.f (SHV_INPUT_BPORT u) then put 1 s else s
  if s.flag (SHV_CFG_IDXEN u) && p == s.f (SHV_INPUT_ZPORT u) then put 2 s else s

/-- EDGE_QUALIFY: the raw edge has held for FILT Mast cycles (R186). -/
def edgeQualify (p : Nat) (s : State) : State :=
  let x := s.port p
  match x.raw with
  | none => s
  | some e =>
    let filt := s.f (PRT_INCFG_FILT p)
    if s.mc < e.mc + filt || !s.phys (portDom p) then s else
    let near := match x.stamped with
      | some u => decide ((e.stamp - u).toNat < spacing p)
      | none => false
    let told := (x.told.filter fun q => decide (s.mc ≤ q.1)) ++ [(e.mc + filt + 2, e.level)]
    let s := s.setPort p { x with raw := none, level := e.level, told := told }
    let s := captureEdge p e s
    let s := stepAt p (e.mc + filt + 3) (.edge e.level) s
    let s := pulseAt p (e.mc + filt + 2) s
    let o := s.ownerOf p
    if 0x10 ≤ o && o < 0x14 then toothForm p (o - 0x10) (e.mc + filt + 2) e s
    else if 0x14 ≤ o && o < 0x1C then sheaveForm p (o - 0x14) e filt near s
    else s

/-! ### The arm input (R197) -/

/-- What ARMFN does on a pulse of arrival cycle k (R197): an output change comes with the boundary that closes that cycle,
on the port's timebase. -/
def armAct (p k : Nat) (s : State) : State :=
  let t := s.pclose p + fc (256 * k) - fc (256 * s.mc)
  let out := fun code => if s.outMode p then outLater p t (.code code (s.f (PRT_ARMW_WIDTH p))) s else s
  match s.f (PRT_ARMCFG_ARMFN p) with
  | 0 => stepAt p (k + 1) .arm s
  | 1 => ctrApply p 2 (.run true) s
  | 2 => ctrApply p 2 (.run false) s
  | 3 => ctrApply p 2 .loadAct s
  | 4 => out 1
  | 5 => out 2
  | 6 => out 3
  | _ => out 4

/-- ARM_PULSE: the first pulse at the arm input of port p acts (R197). -/
def armPulse (p : Nat) (s : State) : State :=
  match (s.port p).arm with
  | [] => s
  | k :: l =>
    let s := s.modPort p fun x => { x with arm := l }
    if s.portEn p && s.phys (portDom p) then armAct p k s else s

/-! ### Enable, disable and CLRQ (R188, R199) -/

/-- PRT_CTRL.EN is written to 1: the output takes REST (R188). -/
def portEnable (p : Nat) (s : State) : State :=
  if s.portEn p then s else toRest p (s.pnow p) (s.setF (PRT_CTRL_EN p) 1)

/-- A port discards its queue and its pending pulse end. -/
def dropQueue (p : Nat) (s : State) : State := outSettle p (s.modPort p fun x => { x with queue := [], pulseEnd := none })

/-- PRT_CTRL.EN is written to 0: the queue is gone at once, and the output returns to REST at the next Mast boundary
(R188). -/
def portDisable (p : Nat) (s : State) : State :=
  if !s.portEn p then s
  else
    let s := (dropQueue p (s.setF (PRT_CTRL_EN p) 0)).modPort p fun x =>
      { x with pulseEnd := none, later := [], gate := [], arm := [] }
    outLater p (s.pclose p) .rest s

/-- A write to PRT_CTRL: CLRQ acts, then EN. -/
def portCtrl (p v : Nat) (s : State) : State :=
  let s := if v.testBit 1 then dropQueue p s else s
  if v.testBit 0 then portEnable p s else portDisable p s

/-- PRT_CLR (R206). -/
def prtClr (p v : Nat) (s : State) : State :=
  let s := if v.testBit 0 then (s.clearCnt (PRT_ERRCNT1_QDROP p)).clearCnt (PRT_ERRCNT1_LATE p) else s
  let s := if v.testBit 1 then (s.clearCnt (PRT_ERRCNT2_RETMISS p)).clearCnt (PRT_ERRCNT2_BAD p) else s
  let s := if v.testBit 2 then (s.clearCnt (PRT_ERRCNT3_CAPMISS p)).clearCnt (PRT_ERRCNT3_CAPDROP p) else s
  if v.testBit 3 then s.setF (PRT_SEQ_SEQ p) 0 else s

/-! ### Driver protection (R189, R516) -/

/-- The pin of port p after a change of the driver's state: a changed level is an edge that the readback sees (R182). -/
def pinFollow (p : Nat) (shown : Option Bool) (s : State) : State :=
  let x := s.port p
  let new := s.pinOf p x.out x.drv
  if new.getD x.pin ≠ shown.getD x.pin && s.outMode p then
    rawChange p ((new.getD x.pin) != s.flag (PRT_IOCFG_INV p)) (s.pnow p) s
  else s

/-- The driver of port p drives its pin; in mode 0b011 it is off at a logical 0 (R182, R187). -/
def State.driving (s : State) (p : Nat) : Bool :=
  (s.pinOf p (s.port p).out (s.port p).drv).isSome && s.phys (portDom p)

/-- The driver of a field port switches off for overcurrent (R189). -/
def overcurrentOff (p : Nat) (s : State) : State :=
  if !isField p || !s.driving p then s
  else
    let x := s.port p
    pinFollow p (s.pinOf p x.out x.drv) (portFlag p (PRT_STATUS_OCP p) s)

/-- Software clears PRT_STATUS.OCP, and the driver resumes (R189, R200). -/
def ocpClear (p : Nat) (s : State) : State :=
  let x := s.port p
  if s.noted (PRT_STATUS_OCP p) ≠ 0 then s
  else pinFollow p (s.pinOf p x.out x.drv) (s.setF (PRT_STATUS_OCP p) 0)

/-- The driving field port with the highest index. -/
def State.topDriver (s : State) : Option Nat := ((List.range 64).filter s.driving).getLast?

/-- Steps 2 and 3 of R516: the driving port with the highest index switches off, n times. -/
def shedTop : Nat → State → State
  | 0, s => s
  | n + 1, s => shedTop n (match s.topDriver with | some p => overcurrentOff p s | none => s)

/-- LOAD_SHED: the drivers over their rating switch off, then more in descending index (R516). -/
def loadShed (hot : List Nat) (more : Nat) (s : State) : State :=
  shedTop more (hot.foldl (fun s p => overcurrentOff p s) s)

end Sys2Proof.Machine
end

