-- ==== Sys2Proof/Machine/Rigging.lean ====
section
/-! DEFINITION. The Rigging matrix: delivery of pulses, interrupt taps, software pulses and the capture writer (R291 to
R314, R407). -/

namespace Sys2Proof.Machine

open Sys2Proof Reg

/-! ### Interrupt taps (R307 to R309) -/

def State.tap (s : State) (v : Nat) : Tap := mget s.rig.taps v {}
def State.setTap (s : State) (v : Nat) (x : Tap) : State := { s with rig.taps := mset s.rig.taps v x {} }

/-- A word of the MSI-X table; vector control words reset to masked (R375). -/
def msixDefault (off : Nat) : Word := if off % 16 = 12 then 1 else 0
def State.msixWord (s : State) (off : Nat) : Word := mget s.ep.table off (msixDefault off)

/-- Vector v is masked by its Mask bit or by the Function Mask (R307). -/
def State.msixMasked (s : State) (v : Nat) : Bool := s.ep.funcMask || (s.msixWord (16 * v + 12)).toNat.testBit 0

/-- Taps may send messages (R308). -/
def State.msixOn (s : State) : Bool := s.ep.msixEn && s.on dHOST

/-- Send the message of vector v and start its holdoff (R307). -/
def sendMsix (v : Nat) (s : State) : State :=
  let h := s.f (RIG_TAP_HOLDOFF v)
  let s := if h = 0 then s else s.setTap v { s.tap v with holdEnd := some (s.mc + 200 * h) }
  hostSend (.msix v) s

/-- A request of a message on vector v, steps 2 and 3 of R307. -/
def tapSend (v : Nat) (s : State) : State :=
  if !s.msixOn then s
  else if s.msixMasked v then { s with ep.pba := if s.ep.pba.contains v then s.ep.pba else s.ep.pba ++ [v] }
  else sendMsix v s

/-- A request at tap v: deferred while the holdoff runs (R307). -/
def tapRequest (v : Nat) (s : State) : State :=
  if (s.tap v).holdEnd.isSome then (if s.msixOn then s.setTap v { s.tap v with deferred := true } else s)
  else tapSend v s

/-- A pulse reaches tap v (R307). -/
def tapPulse (v : Nat) (s : State) : State := tapRequest v (s.bump (RIG_TAP_COUNT v))

/-- HOLDOFF_END: the holdoff of tap v ends, and a deferred request is made once (R307). -/
def holdoffEnd (v : Nat) (s : State) : State :=
  match (s.tap v).holdEnd with
  | some t =>
    if s.mc < t then s
    else
      let d := (s.tap v).deferred
      let s := s.setTap v {}
      if d then tapSend v s else s
  | none => s

/-- The pending message of a vector that is no longer masked is sent (R307). -/
def sendPending (v : Nat) (s : State) : State :=
  if s.ep.pba.contains v && s.msixOn && !s.msixMasked v then sendMsix v { s with ep.pba := s.ep.pba.erase v } else s

/-- A write of one word of the MSI-X table (R375); an unmasked vector sends its pending message. -/
def msixWrite (off : Nat) (w : Word) (s : State) : State :=
  let w := if off % 16 = 12 then w &&& 1 else if off % 16 = 0 then w &&& 0xFFFFFFFC#32 else w
  sendPending (off / 16) { s with ep.table := mset s.ep.table off w (msixDefault off) }

/-- MSIX_UNMASK: the Mask bit of vector v is cleared (R307). -/
def msixUnmask (v : Nat) (s : State) : State := if s.on dHOST then msixWrite (16 * v + 12) 0 s else s

/-! ### Delivery (R293 to R296) -/

/-- A pulse reaches event input k of engine n, or of CE16 while it stands in for it (R121, R154). -/
def eventInput (n k : Nat) (s : State) : State :=
  let e := if s.spare.standFor = some n then 16 else n
  if !s.on (engDom e) then s
  else
    let s := s.modEng e fun x => { x with evin := x.evin ||| 2 ^ k }
    { s with hwNow := mset s.hwNow (evinKey e k) 1 0 }

/-- A pulse reaches the arm input of port p (R197, R293). -/
def armInput (p : Nat) (s : State) : State :=
  if s.portEn p && s.phys (portDom p) then s.modPort p fun x => { x with arm := x.arm ++ [s.mc] } else s

/-- A pulse reaches a destination (R293); pulses that reach it in one Mast cycle are one pulse (R295). -/
def deliver (d : Nat) (s : State) : State :=
  if mget s.rig.reached d 0 = s.mc + 1 then s
  else
    let s := { s with rig.reached := mset s.rig.reached d (s.mc + 1) 0 }
    if d < 0x80 then eventInput (d / 8) (d % 8) s
    else if d < 0xA0 then dmaTrigger (d - 0x80) s
    else if d < 0x100 then armInput (d - 0xA0) s
    else if d < 0x140 then tapPulse (d - 0x100) s
    else if d < 0x148 then forestayOut (d - 0x140) s
    else s

/-- The first due pulse of a flight, and the flight without it. -/
def takeDue (mc : Nat) : List Nat → Option (List Nat)
  | [] => none
  | d :: l => if d ≤ mc then some l else (takeDue mc l).map fun l => d :: l

/-- ROUTE_DELIVERY: a pulse of route entry e comes due, on the logic die or in the field section (R294). -/
def routeDelivery (e : Nat) (s : State) : State :=
  match takeDue s.mc (mget s.rig.flight e []) with
  | some l => deliver (rtDst (s.reg64 (RIG_ROUTE e))) { s with rig.flight := mset s.rig.flight e l [] }
  | none =>
    match takeDue s.mc (mget s.rig.fflight e []) with
    | some l => deliver (rtDst (mget s.rig.field e 0).toNat) { s with rig.fflight := mset s.rig.fflight e l [] }
    | none => s

/-- A pulse of source src in the present cycle has already passed when the entries change: an entry that changed takes it
too, since its source cycle is the boundary's (R297). -/
def State.pulsedNow (s : State) (src : Nat) : Bool := mget s.rig.pulsed src 0 == s.mc + 1

/-- The committed entries have been applied on the logic die: an entry that changed discards its pulses in flight and
carries those of the boundary's cycle on, and a field section that is on follows 32 mc later (R16, R297). old gives the entries
before. -/
def routesApplied (old : Nat → Nat) (s : State) : State :=
  let s := { s with
    rig.flight := s.rig.flight.filter fun p => old p.1 == s.reg64 (RIG_ROUTE p.1)
    rig.fapply := if s.on dFCORE then s.rig.fapply ++ [(s.mc + 32, s.fieldRoutes)] else s.rig.fapply }
  s.routes.foldl (init := s) fun s r =>
    if old r.1 != r.2 && rtEn r.2 && !fieldCarried r.2 && s.pulsedNow (rtSrc r.2) then enterRoute r.1 r.2 s else s

/-- FIELD_ROUTE_APPLY: the field section takes the oldest committed entries that wait; a changed entry discards its pulses
(R297). They come over the Stay link: they wait while it retrains, and do not reach a field die that has no power (R16, R502). -/
def fieldRouteApply (s : State) : State :=
  match s.rig.fapply with
  | (t, new) :: l =>
    if s.mc < t || s.stay.trainAt.isSome then s
    else if !s.linked || !s.phys dFCORE then { s with rig.fapply := l }
    else
      let old := s.rig.field
      let s := { s with rig.fflight := (s.rig.fflight.filter fun p => mget old p.1 0 == mget new p.1 0), rig.field := new, rig.fapply := l }
      new.foldl (init := s) fun s r =>
        if mget old r.1 0 != r.2 && s.pulsedNow (rtSrc r.2.toNat) then enterField r.1 r.2.toNat s else s
  | [] => s

/-- SOFTWARE_PULSE: the selected sources pulse in the next cycle (R311). -/
def softwarePulse (v : Nat) (s : State) : State :=
  (List.range 8).foldl (fun s k => if v.testBit k then pulseAt (0x248 + k) (s.mc + 1) s else s) s

/-- RIG_CLR (R311). -/
def rigClr (v : Nat) (s : State) : State :=
  let s := if v.testBit 0 then
      let s := s.clearCnt RIG_DLYINFO_COUNT
      if s.noted RIG_DLYINFO_COUNT = 0 then s.setF RIG_DLYINFO_ENTRY 0 else s
    else s
  let s := if v.testBit 1 then s.clearCnt RIG_CWDROP_COUNT else s
  if v.testBit 2 then (List.range 4).foldl (fun s k => s.clearCnt (RIG_LANECNT_COUNT k)) s else s

/-- RIG_TAPCLR (R313). -/
def tapClear (v : Nat) (s : State) : State := if v.testBit 8 then s.clearCnt (RIG_TAP_COUNT (v % 64)) else s

/-! ### The capture writer (R298 to R306) -/

/-- A write of RIG_CWRD (R303). -/
def cwrdWrite (req v : Nat) (s : State) : State :=
  if s.f RIG_CWLEN_LEN < (s.f RIG_CWWR_WR + 2 ^ 32 - v % 2 ^ 32) % 2 ^ 32 then werr req RIG_CWRD s else s.setF RIG_CWRD_RD v

/-- A write of 1 to RIG_CWCFG.EN (R305). -/
def cwEnable (s : State) : State :=
  let len := s.f RIG_CWLEN_LEN
  let base := s.f RIG_CWBASE_BASE
  if s.flag RIG_CWCFG_EN then s
  else if len ≠ 0 && len % 256 == 0 && base % 256 == 0 && base + len ≤ 262144 then
    ((s.setF RIG_CWCFG_EN 1).setF RIG_CWWR_WR 0).setF RIG_CWRD_RD 0
  else werr reqCheck RIG_CWCFG (s.raise RIG_STATUS_CFGERR)

/-- The owner code of a capture record's source, or 0x1F (R299). -/
def State.capOwner (s : State) (r : CapRec) : Nat := match r.org with
  | .port p => s.ownerOf p
  | .tracker w => 0x10 + w
  | .sheave u => 0x14 + u

/-- Record a is taken before record b in a slot of this CAP_OWNER (R299). DESIGN CHOICE: a slot whose CAP_OWNER is 0x1F, unused
by R74, takes a record as an open slot does (log 78). -/
def State.capBefore (s : State) (owner : Nat) (a b : CapRec) : Bool :=
  let oa := s.capOwner a == owner && decide (owner < 0x1E)
  let ob := s.capOwner b == owner && decide (owner < 0x1E)
  if oa != ob then oa
  else if a.time ≠ b.time then future b.time a.time
  else if a.idx ≠ b.idx then decide (a.idx < b.idx)
  else decide (a.seq < b.seq)

/-- The record that a slot of this CAP_OWNER takes from a list. -/
def State.capChoose (s : State) (owner : Nat) : List CapRec → Option CapRec
  | [] => none
  | r :: l => match s.capChoose owner l with
    | some q => if s.capBefore owner q r then some q else some r
    | none => some r

/-- The records that input k of the writer is offered (R298). -/
def State.capOffer (s : State) (k : Nat) : List CapRec :=
  (mget s.rig.lanes k []).take 1 ++
  ((List.range 32).flatMap fun i => (s.port (64 + i)).recs.filter fun r => r.lane == k) ++
  ((List.range 4).flatMap fun w => (s.wheel w).recs.filter fun r => r.lane == k)

/-- Take a record away from where it waits for input k. -/
def capRemove (k : Nat) (r : CapRec) (s : State) : State :=
  if (mget s.rig.lanes k []).head? = some r then { s with rig.lanes := mset s.rig.lanes k ((mget s.rig.lanes k []).drop 1) [] }
  else match r.org with
    | .port p => s.modPort p fun x => { x with recs := x.recs.erase r }
    | .tracker w => s.modWheel w fun x => { x with recs := x.recs.erase r }
    | .sheave _ => s

/-- The 16 bytes of a capture record (R183). -/
def capBytes (r : CapRec) : List Byte :=
  leBytes 8 r.time.toNat ++ leBytes 8 (r.idx % 128 + r.edge.toNat * 2 ^ 7 + r.ty * 2 ^ 8 + (r.seq % 2 ^ 16) * 2 ^ 16 + (r.aux % 2 ^ 32) * 2 ^ 32)

/-- The ring is full (R302). -/
def State.ringFull (s : State) : Bool := (s.f RIG_CWWR_WR + 2 ^ 32 - s.f RIG_CWRD_RD) % 2 ^ 32 == s.f RIG_CWLEN_LEN

/-- A record that the writer drops is counted and charged to its source, where the source's domain is on: the charge of a field
record goes through the proxy (R16, R304). DESIGN CHOICE: during a retraining of the link it is counted at once. -/
def capOverflow (r : CapRec) (s : State) : State :=
  let s := pulse 0x240 ((s.bump RIG_CWDROP_COUNT).raise RIG_STATUS_CWDROP)
  match r.org with
  | .port p => if s.on (portDom p) then capDrop p s else s
  | .tracker w => whlDrop w s
  | .sheave u => if s.on dFCORE then s.raise (SHV_FLAGS_DROP u) else s

/-- Write a record to the ring and advance WR (R302, R306). -/
def capStore (r : CapRec) (s : State) : State :=
  let wr := s.f RIG_CWWR_WR
  let a := 0x400000 + 16 * (s.f RIG_CWBASE_BASE + wr % s.f RIG_CWLEN_LEN)
  let s := bankWrite 5 0 a ((capBytes r).map some) s
  let wr := (wr + 1) % 2 ^ 32
  let s := s.setF RIG_CWWR_WR wr
  let n := s.f RIG_CWNOTIFY_COUNT
  if n ≠ 0 && wr % n == 0 then pulseAt 0x23F (s.mc + 1) s else s

/-- The writer takes at most one record from input k in a slot (R298, R304, R305, R407). -/
def capTake (owner k : Nat) (s : State) : State :=
  match s.capChoose owner (s.capOffer k) with
  | none => s
  | some r =>
    let s := capRemove k r s
    let s := (s.setF (RIG_LANECNT_COUNT k) (s.f (RIG_LANECNT_COUNT k) + 1)).note (RIG_LANECNT_COUNT k)
    let s := lgcCapture r s
    if !s.flag RIG_CWCFG_EN || s.ringFull then capOverflow r s else capStore r s

/-- The capture writer's part of a slot: inputs 0 to 3 in order (R298). Records wait while the domain is off (R488), and
while SGC cannot take what an enabled writer writes; a disabled one takes and drops them (R305). Each record written takes
a beat of SGC (R363). -/
def captureSlot (owner : Nat) (s : State) : State :=
  if !s.on dDMA || (s.flag RIG_CWCFG_EN && !s.bankUp 5) then s
  else
    let t := capTake owner 3 (capTake owner 2 (capTake owner 1 (capTake owner 0 s)))
    let n := (t.f RIG_CWWR_WR + 2 ^ 32 - s.f RIG_CWWR_WR) % 2 ^ 32
    if n = 0 then t else postReq 5 { r := 0, stamp := 4 * s.mc, beats := n, use := .occupy } t

/-- "Capture notify" of a tick boundary at which WR differs from its value at the previous pulse (R306). -/
def notifyTick (s : State) : State :=
  let wr := s.f RIG_CWWR_WR
  if s.flag RIG_CWNOTIFY_TICK && wr ≠ s.rig.notified then pulse 0x23F { s with rig.notified := wr } else s

end Sys2Proof.Machine
end

