-- ==== Sys2Proof/Machine/Stay.lean ====
section
/-! DEFINITION. The Stay link: slots, sequence numbers, lane failure, loss and retraining (R71, R72, R299, R300, R490 to
R502, R538). -/

namespace Sys2Proof.Machine

open Sys2Proof Reg

/-- The lanes in use in the command direction, and in the return direction (R508). -/
def State.txLanes (s : State) : List Nat := (List.range 4).filter (s.f STY_STATUS_TXUSE).testBit
def State.rxLanes (s : State) : List Nat := (List.range 4).filter (s.f STY_STATUS_RXUSE).testBit

/-- Set the lanes in use, and LINK (R508). -/
def setLanes (tx rx : Nat) (s : State) : State :=
  ((s.setF STY_STATUS_TXUSE tx).setF STY_STATUS_RXUSE rx).setF STY_STATUS_LINK (tx % 16 != 0 && rx % 16 != 0).toNat

/-! ### Sending (R72, R494, R495, R497) -/

/-- Put loads on lanes of one direction with the next sequence numbers, in the slot of Mast cycle mc. -/
def StayDir.send (mc : Nat) (d : StayDir) : List (Nat × StayLoad) → StayDir
  | [] => d
  | (k, x) :: l => ({ d with flight := d.flight ++ [⟨d.next, k, x, mc⟩], next := (d.next + 1) % 4096 } : StayDir).send mc l

/-- Send the records to be sent again on the first lanes; what remains are the free lanes (R495). -/
def StayDir.sendAgain (mc : Nat) (d : StayDir) (lanes : List Nat) : StayDir × List Nat :=
  let rs := (d.again.zip lanes).map fun p => { p.1 with lane := p.2, sent := mc }
  ({ d with again := d.again.drop lanes.length, flight := d.flight ++ rs }, lanes.drop rs.length)

/-- The command records of a slot (R72, R74): the owner's first, in hand-over order, then the oldest of the others; an
unused slot carries none. -/
def State.slotRecords (s : State) (owner n : Nat) : List Transit :=
  let q := s.sendq.filter fun t => decide (t.ready ≤ s.mc)
  if owner = 0x1F then []
  else ((q.filter fun t => t.act.owner == owner) ++ (q.filter fun t => t.act.owner != owner)).take n

/-- The command direction of a slot. -/
def commandSlot (owner : Nat) (s : State) : State :=
  if !s.linked then s else
  let (d, free) := s.stay.cmd.sendAgain s.mc s.txLanes
  let as_ := s.slotRecords owner free.length
  { s with sendq := as_.foldl (fun q a => q.erase a) s.sendq, stay.cmd := d.send s.mc (free.zip (as_.map fun t => .act t.act)) }

/-- The records of capture lane k that the field end may send (R300). -/
def State.fieldOffer (s : State) (k : Nat) : List CapRec :=
  ((List.range 64).flatMap fun p => ((s.port p).recs.find? fun r => r.lane == k).toList) ++
  ((List.range 8).flatMap fun u => ((s.sheave u).recs.find? fun r => r.lane == k).toList)

/-- Records of one direction that the receiving end has not passed on: on the link, to be sent again, or waiting there. -/
def StayDir.coming (d : StayDir) : List StayRec :=
  (d.flight ++ d.again ++ d.wait.map Prod.fst).filter fun r => decide ((r.seq + 4096 - d.expect) % 4096 < 2048)

/-- Capture lane k has a free place at the logic end (R300). DESIGN CHOICE: the 4 places bound the records that wait there, and
six more may be crossing, since a record takes 22 mc and a lane carries one in every slot of 4 or 5 mc (R71, R301). -/
def State.lanePlace (s : State) (k : Nat) : Bool :=
  let fly := (s.stay.ret.coming.filter fun r => match r.load with
    | .cap c => c.lane == k
    | _ => false).map StayRec.seq
  let n := (mget s.rig.lanes k []).length
  decide (n < 4) && decide (n + fly.eraseDups.length < 10)

/-- A capture record leaves the field end. -/
def takeField (r : CapRec) (s : State) : State := match r.org with
  | .port p => s.modPort p fun x => { x with recs := x.recs.erase r }
  | .sheave u => s.modSheave u fun x => { x with recs := x.recs.erase r }
  | .tracker _ => s

/-- Send a load on return lane k. -/
def sendReturn (k : Nat) (x : StayLoad) (s : State) : State := { s with stay.ret := s.stay.ret.send s.mc [(k, x)] }

/-- Send the capture record that the slot's owner chooses of capture lane c on return lane k; true when one went. -/
def sendCapture (owner c k : Nat) (s : State) : State × Bool :=
  if !s.lanePlace c then (s, false)
  else match s.capChoose owner (s.fieldOffer c) with
    | some r => (sendReturn k (.cap r) (takeField r s), true)
    | none => (s, false)

/-- One return lane of a slot (R300, R497): a tooth record of the lane, else one of a failed lane, else, on the lane whose
turn it is, a capture record of a failed lane, else a capture record of the lane. -/
def returnLane (owner next : Nat) (use : List Nat) (s : State) (k : Nat) : State :=
  let dead := (List.range 4).filter fun f => !use.contains f
  let teeth := s.teeth.filter fun t => decide (t.ready ≤ s.mc)
  match (teeth.find? fun t => t.lane == k).or (teeth.find? fun t => dead.contains t.lane) with
  | some t => sendReturn k (.tooth t) { s with teeth := s.teeth.erase t }
  | none =>
    let turn := if k = next then dead.find? fun f => s.lanePlace f && !(s.fieldOffer f).isEmpty else none
    match turn with
    | some f => (sendCapture owner f k { s with stay.rot := k + 1 }).1
    | none => (sendCapture owner k k s).1

/-- The return direction of a slot. -/
def returnSlot (owner : Nat) (s : State) : State :=
  if !s.linked then s else
  let use := s.rxLanes
  let (d, free) := s.stay.ret.sendAgain s.mc use
  let next := (use.find? fun u => decide (s.stay.rot ≤ u)).getD (use.headD 0)
  free.foldl (returnLane owner next use) { s with stay.ret := d }

/-! ### Receiving (R494) -/

/-- From a record's slot it takes 82 ns, 16 whole Mast cycles, to come out of the link, and 22 mc until its decoding and
distribution are done too (R16, R77). -/
def linkMc : Nat := 16
def decodeMc : Nat := 22

/-- The receiving end passes a record on: an action to its port, a capture record to its lane's buffer, a tooth record to
its tracker. -/
def passOn (r : StayRec) (s : State) : State := match r.load with
  | .act a => { s with transit := s.transit ++ [⟨a, max s.mc (r.sent + decodeMc)⟩] }
  | .cap r => { s with rig.lanes := mset s.rig.lanes r.lane (mget s.rig.lanes r.lane [] ++ [r]) [] }
  | .tooth t => { s with toothPath := s.toothPath ++ [t] }

/-- One direction of the link, true the return direction. -/
def State.stayDir (s : State) (ret : Bool) : StayDir := if ret then s.stay.ret else s.stay.cmd
def State.setDir (s : State) (ret : Bool) (d : StayDir) : State :=
  if ret then { s with stay.ret := d } else { s with stay.cmd := d }

/-- Pass on the waiting records that follow the last number passed on, at most n of them. -/
def drainWait (ret : Bool) : Nat → State → State
  | 0, s => s
  | n + 1, s =>
    let d := s.stayDir ret
    match d.wait.find? fun p => p.1.seq == d.expect with
    | some p => drainWait ret n (passOn p.1 (s.setDir ret { d with wait := d.wait.erase p, expect := (d.expect + 1) % 4096 }))
    | none => s

/-- STAY_RECORD_RECEIVE: the record with this number arrives in one direction; ack tells that its acknowledgement reaches
the sender. It comes no earlier than the fixed part of its delay allows (R16, R77). It is passed on in its turn, waits for a
missing number, or is a duplicate (R494). -/
def stayReceive (ret : Bool) (seq : Nat) (ack : Bool) (s : State) : State :=
  if !s.linked then s else
  let d := s.stayDir ret
  match d.flight.find? fun r => r.seq == seq with
  | none => s
  | some r =>
    if s.mc < r.sent + (if ret then decodeMc else linkMc) then s else
    let d := if ack then { d with flight := d.flight.erase r } else d
    if seq = d.expect then
      drainWait ret d.wait.length (passOn r (s.setDir ret { d with expect := (seq + 1) % 4096 }))
    else if d.gaps.contains seq then passOn r (s.setDir ret { d with gaps := d.gaps.erase seq })
    else if d.wait.any (fun p => p.1.seq == seq) || decide (2048 ≤ (seq + 4096 - d.expect) % 4096) then s.setDir ret d
    else s.setDir ret { d with wait := d.wait ++ [(r, s.mc)] }

/-- How far a number lies ahead of the next number to pass on. -/
def StayDir.ahead (d : StayDir) (r : StayRec) : Nat := (r.seq + 4096 - d.expect) % 4096

/-- SEQUENCE_WAIT_EXPIRY: a record that has waited 5 µs is passed on, and those before it that wait (R494). -/
def waitExpiry (ret : Bool) (s : State) : State :=
  let d := s.stayDir ret
  match d.wait.find? fun p => decide (p.2 + 1000 ≤ s.mc) with
  | none => s
  | some p =>
    let first := (d.wait.map fun q => d.ahead q.1).foldl min (d.ahead p.1)
    let miss := (List.range first).map fun i => (d.expect + i) % 4096
    let d := { d with expect := (d.expect + first) % 4096, gaps := d.gaps ++ miss }
    drainWait ret d.wait.length (s.setDir ret d)

/-! ### Lane failure (R495, R497) -/

/-- LANE_FAIL: a lane of one direction has been declared failed and both ends know (R495). -/
def laneFail (ret : Bool) (k : Nat) (s : State) : State :=
  if !s.linked || !(if ret then s.rxLanes else s.txLanes).contains k || s.stay.failing.contains (ret, k) then s
  else
    let s := { s with stay.failing := s.stay.failing ++ [(ret, k)] }
    logFault 3 k 0 0 (pulse 0x241 ((s.raise STY_STATUS_LANEFAIL).bump STY_ERRCNT_FAILS))

/-- The unacknowledged records of lane k are to be sent again, in sequence order (R495). -/
def StayDir.resend (d : StayDir) (k : Nat) : StayDir :=
  { d with again := d.again ++ d.flight.filter (fun r => r.lane == k), flight := d.flight.filter fun r => r.lane != k }

/-- The unacknowledged records that one direction sent on lane k are to be sent again, and counted. -/
def resendLane (k : Nat) (ret : Bool) (s : State) : State :=
  let d := s.stayDir ret
  let n := (d.flight.filter fun r => r.lane == k).length
  (List.range n).foldl (fun s _ => s.bump STY_ERRCNT_RESEND) (s.setDir ret (d.resend k))

/-- A failed lane goes out of use in both directions, whichever of them failed (R495, R497). -/
def dropLane (s : State) (f : Bool × Nat) : State :=
  let s := resendLane f.2 true (resendLane f.2 false s)
  let clear := fun (v : Nat) => v &&& (15 - 2 ^ f.2)
  setLanes (clear (s.f STY_STATUS_TXUSE)) (clear (s.f STY_STATUS_RXUSE))
    { s with stay.outs := (false, f.2) :: (true, f.2) :: s.stay.outs }

/-- THREE_LANE_START: the link runs on the remaining lanes (R495). -/
def threeLaneStart (s : State) : State :=
  s.stay.failing.foldl dropLane { s with stay.failing := [] }

/-! ### Loss of the link (R490 to R492) -/

/-- A record that waits for a field port is discarded: its source counts it (R490). -/
def discardRec (s : State) (a : Action) : State :=
  if a.owner < 0x10 then recDrop (if s.spare.standFor = some a.owner then 16 else a.owner) s
  else if a.owner < 0x14 then whlDrop (a.owner - 0x10) s else s

/-- What the logic end does when the field side is gone (R491): bits 12 to 14 of ON clear, and the alignment is lost. -/
def fieldGone (s : State) : State :=
  let s := s.setF GLB_PWRSTAT_ON (s.f GLB_PWRSTAT_ON % 4096)
  let s := s.raise STY_STATUS_FLDLOST
  let s := pulse 0x23B ((s.setF MST_STATUS_FLD_ALIGNED 0).raise MST_STATUS_FLD_ALIGNLOSS)
  logFault 7 0 0 (s.f MST_FLDSKEW_RESID) s

/-- The records on the link and in the send queues are gone, and route entries on their way to the field section (R490, R492);
what one end holds for a missing number it holds on (R494). DESIGN CHOICE: a record on the link is lost and counted by nothing,
a capture record on a return lane among them (R184). -/
def dropLink (s : State) : State :=
  let q := s.sendq.map Transit.act ++ s.stay.cmd.again.filterMap fun r => match r.load with | .act a => some a | _ => none
  let s := q.foldl discardRec (cutPulses { s with sendq := [], rig.fapply := [] })
  let held := fun (d : StayDir) => ({ expect := d.expect, wait := d.wait, gaps := d.gaps } : StayDir)
  setLanes 0 0 { s with stay := { cmd := held s.stay.cmd, ret := held s.stay.ret, lostAt := s.stay.lostAt, outs := s.stay.outs,
                                  proxy := s.stay.proxy } }

/-- The sheave units stop (R258, R492). -/
def sheavesStop (s : State) : State := (List.range 8).foldl (fun s u => sheaveStop u s) s

/-- The writes that wait in the proxy are refused, since the field die does not answer (R379, R502). -/
def refuseProxy (s : State) : State := s.stay.proxy.foldl (fun s w => werr w.1 w.2.1 s) { s with stay.proxy := [] }

/-- The link is lost at both ends (R492); a field die without power runs nothing on. -/
def linkGone (s : State) : State :=
  if !s.on dFCORE then s
  else
    let s := refuseProxy (dropLink (fieldGone (sheavesStop s)))
    if s.phys dFCORE then { s with stay.lostAt := some s.mc, teeth := [], kln.copy := s.kln.copy.or (some (s.now, s.running)) }
    else { s with teeth := [] }

/-- STAY_LINK_LOSS: no block has come on one direction for 1 µs; a link that retrains is not lost by that (R492, R502). -/
def linkLoss (s : State) : State := if s.stay.trainAt.isSome then s else linkGone s

/-- What every field port does when LOSSTO passes (R492). -/
def lossLevel (p : Nat) (s : State) : State :=
  if !s.phys (portDom p) then s
  else
    let s := dropQueue p s
    if s.flag FLD_CFG_LOSSACT then toRest p (s.pnow p) s
    else outEdge p (s.pnow p) false false (s.modPort p fun x => { x with held := none, acc := none, later := [] })

/-- LOSS_TIMEOUT: FLD_CFG.LOSSTO has passed since the loss, or since a Stay link reset (R492, R502). -/
def lossTimeout (s : State) : State :=
  match s.stay.lostAt with
  | some t =>
    if s.mc < t + 200 * s.f FLD_CFG_LOSSTO || !s.phys dFCORE then s
    else (List.range 64).foldl (fun s p => lossLevel p s) ({ s with stay.lostAt := none }.raise FLD_STATUS_LOSSHIT)
  | none => s

/-- RETRAIN_TIMEOUT: retraining has not ended 50 µs after the reset, and the link is lost (R502). -/
def retrainTimeout (s : State) : State :=
  match s.stay.trainAt with
  | some t => if s.mc < t + 10000 then s else linkGone s
  | none => s

/-! ### Slots (R71, R73, R538) -/

/-- Whether slot k follows the last boundary, real or virtual, within its tick, and its time (R71). -/
def State.nextSlot (s : State) : Option Time :=
  let edge := if s.ticking then s.kln.next else s.kln.virt
  let P := (edge - s.kln.slotBase).toNat / 256
  if s.kln.slotK < P * 23 / 100 then some (s.kln.slotBase + fc (256 * (s.kln.slotK * 100 / 23))) else none

/-- SLOT_START: the next slot begins (R71, R72, R298, R538). -/
def slotStart (s : State) : State :=
  match s.nextSlot with
  | some t =>
    if !s.running || !reached t s.now then s
    else
      let a := s.f KLN_SLOTSEL_ACTIVE
      let n := s.kln.slotK % 1024
      let cap := s.f (KLN_SLOT_CAP_OWNER a n)
      let s := { s with kln.slotK := s.kln.slotK + 1 }
      captureSlot cap (returnSlot cap (commandSlot (s.f (KLN_SLOT_CMD_OWNER a n)) s))
  | none => s

end Sys2Proof.Machine
end

