-- ==== Sys2Proof/Machine/Blocks.lean ====
section
/-! DEFINITION. Resets of blocks, of the endpoint and of power domains (R381, R488, R489, R499 to R502). -/

namespace Sys2Proof.Machine

open Sys2Proof Reg

/-! ### Registers and banks -/

/-- Every register from offset lo up to hi takes its reset value, and no staged value, armed commit or shadow of them
remains (R489, R501). -/
def clearRange (lo hi : Nat) (s : State) : State :=
  let sh := s.kln.shadows.filter fun p => !(match p.2.qty with | some q => decide (lo ≤ q) && decide (q < hi) | none => false)
  { s with regs := mclear s.regs lo hi, staged := mclear s.staged lo hi, kln.armed := mclear s.kln.armed lo hi, kln.shadows := sh }

/-- What becomes of a request that waits at a bank whose domain is switched off, and of a granted one whose data has not been
taken: host reads complete with bytes 0xFF, writes are refused, far accesses and Halyard transactions wait, and so do trace
entries and dry-seal lines (R109, R346, R347); accesses whose data has moved, scrub beats and program checks of the lost bank go,
and so do requests of the management controller, whose command or entry is answered as for a domain that is off (R402, R417).
A transaction that had its grant is served again when the bank is back. DESIGN CHOICE: a host read of several lines that has
begun returns 0xFF for all its bytes. -/
def loseReq (b : Nat) (q : BankReq) (s : State) : State :=
  match q.use with
  | .hostRead tag a len _ _ => completeRead a { tag := tag, data := List.replicate len 0xFF } s
  | .hostWrite a _ al => if q.bad then s else werr 0 (bar2Ref a al) s
  | .table req a _ => werr req (0x80000000 + a) s
  | .scrub => s
  | .occupy => s
  | .mgmt _ => s
  | .dma _ => s.modBank b fun x => { x with pend := x.pend ++ [{ q with beats := q.beats + q.done, done := 0 }] }
  | _ => s.modBank b fun x => { x with pend := x.pend ++ [q] }

/-- The contents of bank b are lost, and its arbiter starts anew with the requests that wait on (R346, R347, R488). A granted far
access keeps its grant. -/
def loseBank (b : Nat) (s : State) : State :=
  let x := s.bank b
  let far := fun q : BankReq => match q.use with | .far _ => true | _ => false
  let s := ((zeroBank b s).setF (bitFld SAG_BUSY_CLEARING b) 0).modBank b fun x => { order := x.order, served := x.served.filter far }
  (x.pend ++ x.served.filter (!far ·)).foldl (fun s q => loseReq b q s) s

/-! ### The endpoint (R381) -/

/-- The endpoint, its configuration space, its MSI-X table and its PBA are reset; outstanding host requests of Halyard
end as bus errors, and host reads that wait at banks are withdrawn (R362, R381). code is the code of the log
entry; a Function Level Reset, code 3, leaves the link up. PRESUMED: the error reporting registers keep their values but at PERST, code
1 (PCI Express base specification). -/
def hostReset (code : Nat) (s : State) : State :=
  let out := s.hly.xacts.filter fun x => decide (hostBit ≤ x.addr)
  let aer := if code = 1 then {} else s.ep.aer
  let s := { s with ep := { linkUp := s.ep.linkUp && code == 3, rate := s.ep.rate, lanes := s.ep.lanes, cpls := s.ep.cpls, sent := s.ep.sent, aer := aer } }
  let s := out.foldl (fun s x => if x.gone then freeXact x s else busError x 6 x.addr (freeXact x s)) s
  let s := (List.range 9).foldl (init := s) fun s b =>
    withdraw b (fun q => match q.use with | .hostRead _ _ _ _ _ => true | _ => false) s
  logFault 0xA 0 code 0 s

/-! ### Blocks (R501) -/

/-- Port p takes its reset state: its registers, queue, pulse end and counter are gone, and its pins are those of an
input, whose level it reads (R501, R504). -/
def resetPort (p : Nat) (s : State) : State :=
  let s := clearRange (PRT_CTRL p) (PRT_CTRL p + 0x100) s
  s.modPort p fun x => { pin := x.pin, level := x.pin, recs := x.recs }

def resetPorts (lo n : Nat) (s : State) : State := (List.range n).foldl (fun s i => resetPort (lo + i) s) s

/-- Engine e stops at once, and its registers are reset (R501). -/
def resetEngine (e : Nat) (s : State) : State :=
  let s := engineOff e false s
  let s := engWithdraw e s
  let s := clearRange (COIL_CTRL e) (COIL_CTRL e + 0x400) s
  { s with engines := merase s.engines e }

def resetCluster (n : Nat) (s : State) : State :=
  (List.range 4).foldl (fun s i => resetEngine (4 * n + i) s) s

/-- Cluster n is switched off (R136, R138, R141): its engines are OFF, and a check under way reports ABORTED. DESIGN CHOICE: the
COIL_ registers and an armed commit stand until the domain is declared on, which resets them (R489), so that a command that a
commit applies meanwhile finds the instance OFF (R138). -/
def clusterOff (n : Nat) (s : State) : State :=
  (List.range 4).foldl (init := s) fun s i =>
    let e := 4 * n + i
    let s := engWithdraw e (engineOff e true s)
    { s with engines := merase s.engines e }

/-- Halyard and the capture writer (R501). -/
def resetDma (s : State) : State :=
  let s := (List.range 32).foldl (fun s c => chanDisable c s) s
  let s := clearRange RIG_CWCFG (RIG_CWDROP + 4) (clearRange 0x30000 0x40000 s)
  { s with hly.chans := [] }

/-- The Stay link retrains, and nothing on it is lost; the field copy runs on in holdover (R501, R502). -/
def resetStay (s : State) : State :=
  let s := clearRange 0x70000 0x70100 s
  let back := fun (d : StayDir) => { d with again := d.again ++ d.flight, flight := [] }
  { s with
    stay := { s.stay with cmd := back s.stay.cmd, ret := back s.stay.ret, failing := [], outs := [], trainAt := some s.mc,
                          lostAt := if s.phys dFCORE then some s.mc else s.stay.lostAt }
    kln.copy := if s.phys dFCORE then s.kln.copy.or (some (s.now, s.running)) else s.kln.copy }

/-- Forestay (R501). -/
def resetForestay (s : State) : State :=
  let s := clearRange 0xA0000 0xB0000 (frsDisable s)
  { s with frs := { sent := s.frs.sent } }

/-- The wheel trackers (R501): their capture records stay. -/
def resetWheels (s : State) : State :=
  let s := (List.range 4).foldl (fun s w => whlDisable w s) s
  let s := clearRange 0x50000 0x60000 s
  (List.range 4).foldl (fun s w => s.modWheel w fun x => { recs := x.recs }) s

/-- The sheave units (R501). -/
def resetSheaves (s : State) : State :=
  let s := clearRange 0x60000 0x70000 (sheavesStop s)
  (List.range 8).foldl (fun s u => s.modSheave u fun x => { recs := x.recs }) s

/-- The compatibility translator (R501). -/
def resetLegacy (s : State) : State :=
  let s := (List.range 4).foldl (fun s b => lgcBankOff b s) s
  { clearRange 0xC0000 0xD0000 s with lgc := {} }

/-- The power domain of a block code (R398, R485). -/
def blockDom (code : Nat) : Nat :=
  match code with
  | 1 => 4 | 2 => 5 | 3 => 6 | 4 => 7 | 5 => dDMA | 6 => dHOST | 7 => dLVDS | 8 => dSTAY | 9 => dFRST
  | 10 => dKILN | 11 => dFCORE | 12 => dFBANKA | 13 => dFBANKB | _ => dKILN

/-- The effect of a block reset by its code (R398, R501). -/
def resetBlock (code : Nat) (s : State) : State :=
  match code with
  | 1 => resetCluster 0 s
  | 2 => resetCluster 1 s
  | 3 => resetCluster 2 s
  | 4 => resetCluster 3 s
  | 5 => resetDma s
  | 6 => hostReset 2 s
  | 7 => resetPorts 64 32 s
  | 8 => resetStay s
  | 9 => resetForestay s
  | 10 => resetWheels s
  | 11 => resetSheaves s
  | 12 => resetPorts 0 32 s
  | 13 => resetPorts 32 32 s
  | 14 => resetLegacy s
  | _ => s

/-- The BAR0 ranges of a block code, for replay (R425). -/
def blockRanges (code : Nat) : List (Nat × Nat) :=
  match code with
  | 1 => [(0x90000, 0x91000)] | 2 => [(0x91000, 0x92000)] | 3 => [(0x92000, 0x93000)] | 4 => [(0x93000, 0x94000)]
  | 5 => [(0x30000, 0x40000), (RIG_CWCFG, RIG_CWDROP + 4)]
  | 7 => [(0x84000, 0x86000)] | 8 => [(0x70000, 0x70100)] | 9 => [(0xA0000, 0xB0000)] | 10 => [(0x50000, 0x60000)]
  | 11 => [(0x60000, 0x70000)] | 12 => [(0x80000, 0x82000)] | 13 => [(0x82000, 0x84000)] | 14 => [(0xC0000, 0xD0000)]
  | _ => []

/-! ### Domains (R485, R488) -/

/-- The power domain of the block that holds a BAR0 offset (R17, R485). The arbiters and the global, vault and Lanyard
registers lie in MGMT, the capture writer's in DMA/capture. -/
def offDom (off : Nat) : Nat :=
  match off / 0x10000 with
  | 1 => dKILN
  | 2 => if RIG_CWCFG ≤ off && off < RIG_LANECNT 4 then dDMA else dKILN
  | 3 => dDMA
  | 5 => dKILN
  | 6 => dFCORE
  | 7 => if off < 0x70100 then dSTAY else dFCORE
  | 8 => portDom ((off - 0x80000) / 0x100)
  | 9 => if off < 0x94400 then engDom ((off - 0x90000) / 0x400) else dKILN
  | 10 => dFRST
  | 12 => dKILN
  | 14 => dHOST
  | _ => 1

/-- The BAR0 ranges of a domain's blocks. -/
def domRanges (d : Nat) : List (Nat × Nat) :=
  match d with
  | 3 => [(0x10000, RIG_CWCFG), (RIG_LANECNT 4, 0x30000), (0x50000, 0x60000), (0x94000, 0xA0000), (0xC0000, 0xD0000)]
  | 4 => blockRanges 1 | 5 => blockRanges 2 | 6 => blockRanges 3 | 7 => blockRanges 4
  | 8 => blockRanges 5 ++ [(RIG_LANECNT 0, RIG_LANECNT 4)] | 9 => blockRanges 7 | 10 => blockRanges 8 | 11 => blockRanges 9
  | 12 => [(0x60000, 0x70000), (0x70100, 0x80000)]
  | 13 => blockRanges 12 | 14 => blockRanges 13
  | _ => []

/-- The registers of domain d take their reset values. -/
def clearDomain (d : Nat) (s : State) : State := (domRanges d).foldl (fun s r => clearRange r.1 r.2 s) s

/-- The banks of a domain (R344). -/
def domBanks (d : Nat) : List Nat := (List.range 9).filter fun b => bankDom b == d

/-- A port's content is gone: only the level at its pin, which is outside, stays. -/
def losePorts (lo n : Nat) (s : State) : State :=
  (List.range n).foldl (fun s i => (s.modPort (lo + i) fun x => { pin := x.pin, level := x.pin })) s

/-- What stops, and what is lost, in the domain beside its registers and banks (R141, R335, R406, R461, R488). DESIGN CHOICE: KILN
holds which groups are armed, so its switch-off disarms the GLB_ and ARB_ groups of MGMT as well (R488, R501 do not say). -/
def stopDomain (d : Nat) (s : State) : State :=
  match d with
  | 2 => hostReset 4 s
  | 3 =>
    let s := engWithdraw 16 s
    { s with kln := { mc := s.kln.mc, copy := s.kln.copy, shadows := s.kln.shadows },
                  rig := { lanes := s.rig.lanes, field := s.rig.field, fflight := s.rig.fflight },
                  wheels := [], toothPath := [], spare := {}, locks := [], ticks := [], lockNow := [],
                  lgc := {}, engines := merase s.engines 16 }
  | 4 => lgcTimersOff 0 (clusterOff 0 s)
  | 5 => lgcTimersOff 1 (clusterOff 1 s)
  | 6 => lgcTimersOff 2 (clusterOff 2 s)
  | 7 => lgcTimersOff 3 (clusterOff 3 s)
  | 8 => resetDma s
  | 9 => losePorts 64 32 s
  | 10 => { s with stay := { cmd := s.stay.cmd, lostAt := s.stay.lostAt }, rig.lanes := [] }
  | 11 => { frsDisable s with frs := { sent := s.frs.sent } }
  | 12 => { refuseProxy (dropLink s) with sheaves := [], teeth := [], stay := { outs := s.stay.outs }, kln.copy := none }
  | 13 => { losePorts 0 32 s with vr := [] }
  | 14 => losePorts 32 32 s
  | _ => s

/-- The switch-off of domain d begins (R486, R488): its blocks stop, its bit of ON clears and its banks are lost. -/
def domainOff (d : Nat) (s : State) : State :=
  let s := stopDomain d s
  let s := s.setF GLB_PWRSTAT_ON (setBits (s.f GLB_PWRSTAT_ON) d 1 0)
  let s := { s with pwr.phys := setBits s.pwr.phys d 1 0 }
  let s := if decide (4 ≤ d) && decide (d ≤ 7) then s else clearDomain d s
  let s := if d = 12 then s.setF MST_STATUS_FLD_ALIGNED 0 else s
  (domBanks d).foldl (fun s b => loseBank b s) s

end Sys2Proof.Machine
end

