-- ==== Sys2Proof/Machine/Kiln.lean ====
section
/-! DEFINITION. The Kiln scheduler: commit groups, tick boundaries, virtual boundaries and the slot table (R11 to R14, R57
to R75, R537, R538). -/

namespace Sys2Proof.Machine

open Sys2Proof Reg

/-! ### Commit groups (R12, R67) -/

/-- The BAR0 range of the block or instance whose COMMIT register lies at an offset (R67). -/
def commitRange (off : Nat) : Option (Nat × Nat) :=
  let lo := off - 0x40
  if off < 0x40 then none
  else if lo = 0 || lo = 0x10000 || lo = 0x20000 || lo = 0x40000 || lo = 0xA0000 then some (lo, lo + 0x10000)
  else if 0x50000 ≤ lo && lo < 0x54000 && lo % 0x1000 == 0 then some (lo, lo + 0x1000)
  else if 0x60000 ≤ lo && lo < 0x64000 && lo % 0x800 == 0 then some (lo, lo + 0x800)
  else if 0x80000 ≤ lo && lo < 0x86000 && lo % 0x100 == 0 then some (lo, lo + 0x100)
  else if 0x90000 ≤ lo && lo < 0x94400 && lo % 0x400 == 0 then some (lo, lo + 0x400)
  else none

/-- A block is armed by its COMMIT offset: 1 for the next boundary, or the cycle of its apply plus 2 (R12, R14, R70). -/
def State.armedAt (s : State) (off : Nat) : Nat := mget s.kln.armed off 0
def setArmed (off v : Nat) (s : State) : State := { s with kln.armed := mset s.kln.armed off v 0 }

/-- A write of 1 to a COMMIT register (R12, R14). -/
def arm (off : Nat) (s : State) : State :=
  if s.armedAt off ≠ 0 then s
  else setArmed off (if s.ticking || s.flag KLN_CTRL_HOLD then 1 else s.mc + 6) s

/-- The staged bits of the register word at an offset (R10). -/
def rwsMask (off : Nat) : Nat := match rowAt off with
  | some (r, p) => partOf r.rws p
  | none => 0

/-- A staged MST_TRIM beyond ±219,902,325 applies as the nearer limit (R48). -/
def trimLimit (v : Word) : Word := BitVec.ofInt 32 (max (-219902325) (min 219902325 v.toInt))

/-- The register at an offset takes its staged bits. -/
def applyWord (s : State) (off : Nat) : State :=
  let m : Word := BitVec.ofNat 32 (rwsMask off)
  let v := (s.reg off &&& ~~~m) ||| (s.stg off &&& m)
  s.setReg off (if off = MST_TRIM then trimLimit v else v)

/-- Every staged field of a range applies (R12). -/
def applyFields (lo hi : Nat) (s : State) : State :=
  let keys := (s.regs.map Prod.fst ++ s.staged.map Prod.fst).filter fun o => decide (lo ≤ o) && decide (o < hi)
  keys.foldl applyWord s

/-- The staged fields of the block armed at a COMMIT offset apply at time tp, with what follows from them in the block; the
commands of an engine are applied apart (R12, R38, R237, R259, R297). -/
def applyBlock (tp : Time) (off : Nat) (s : State) : State :=
  match commitRange off with
  | none => s
  | some (lo, hi) =>
    let t := applyFields lo hi (setArmed off 0 s)
    if off = GLB_COMMIT then sheaveOwners t
    else if off = KLN_COMMIT then refselApplied (s.f MST_REFSEL_SRC) t
    else if off = RIG_COMMIT then routesApplied (fun e => s.reg64 (RIG_ROUTE e)) t
    else if 0x50000 ≤ lo && lo < 0x54000 then
      let w := (lo - 0x50000) / 0x1000
      (List.range 64).foldl (fun t k => slotApply w k tp t) t
    else if 0x60000 ≤ lo && lo < 0x64000 then
      let u := (lo - 0x60000) / 0x800
      sheaveApplied u (s.f (SHV_SPDCFG_SPDWIN u)) (s.f (SHV_CPR_CPR u)) t
    else t

/-- The command of engine e that its block has applied acts, and returns to none (R138). -/
def applyCommand (e : Nat) (s : State) : State :=
  let c := s.f (COIL_CTRL_CMD e)
  let s := s.setF (COIL_CTRL_CMD e) 0
  let s := s.setStg (COIL_CTRL e) (BitVec.ofNat 32 (setBits (s.stg (COIL_CTRL e)).toNat 0 2 0))
  applyCmd e c (s.f KLN_PERIOD_PERIOD) s

/-- The engine whose COMMIT register lies at an offset. -/
def commitEngine (off : Nat) : Option Nat :=
  if 0x90040 ≤ off && off < 0x94440 then some ((off - 0x90040) / 0x400) else none

/-- The instance at a COMMIT offset can apply: its domain is on. A commit of an OFF engine applies too, and its command meets the
state OFF (R138). -/
def State.canApply (s : State) (off : Nat) : Bool := s.on (offDom off) || (commitEngine off).isSome

/-- COMMIT_APPLY_NO_TICK: an armed block applies while no ticks are issued (R14, R70). DESIGN CHOICE: a START that it applies is
tested against the period in force then, and not again at the first boundary (R66). -/
def commitNoTick (off : Nat) (s : State) : State :=
  let a := s.armedAt off
  if a < 2 || s.mc + 2 < a || s.ticking || s.flag KLN_CTRL_HOLD || !s.canApply off then s
  else
    let s := applyBlock s.now off s
    match commitEngine off with
    | some e => applyCommand e s
    | none => s

/-! ### The KLN group and engine budgets (R62, R66, R69) -/

/-- Engine e keeps running through the boundary: no command stops it, and no start that the staged period admits
replaces its image (R69, R138). -/
def State.keepsRunning (s : State) (e : Nat) : Bool :=
  let n := s.rights e
  let cmd := (s.stg (COIL_CTRL n)).toNat % 4
  let st := s.engState e
  (st == 2 || st == 3 || st == 6) && !(s.armedAt (COIL_COMMIT n) != 0 &&
    (cmd == 2 || (cmd == 1 && !s.lgcHolds n && (s.startable n (s.stg KLN_PERIOD).toNat).isSome)))

/-- The staged KLN_PERIOD gives every engine that keeps running its declared budget (R62, R69). -/
def State.periodOk (s : State) : Bool :=
  let p := (s.stg KLN_PERIOD).toNat
  (List.range 17).all fun e => !s.keepsRunning e || decide ((s.eng e).image.decl + 64 ≤ 4 * p)

/-- The KLN group is withheld (R69). -/
def withholdKln (s : State) : State :=
  werr reqCheck KLN_PERIOD ((setArmed KLN_COMMIT 0 s).raise KLN_STATUS_COMMIT_REJ)

/-- Every armed block applies at a boundary at time B (R12, R61, R69). -/
def applyAll (B : Time) (s : State) : State :=
  let s := if s.armedAt KLN_COMMIT ≠ 0 && !s.periodOk then withholdKln s else s
  let offs := (s.kln.armed.map Prod.fst).filter s.canApply
  let s := if offs.contains KLN_COMMIT then applyBlock B KLN_COMMIT s else s
  let s := (offs.filter fun o => o != KLN_COMMIT).foldl (fun s o => applyBlock B o s) s
  (offs.filterMap commitEngine).foldl (fun s e => applyCommand e s) s

/-! ### Boundaries (R57 to R61, R71, R538) -/

/-- The registers of a boundary that begins tick n at time B; the boundary after it is the next (R57, R61, R85). -/
def boundaryRegs (B : Time) (n : Nat) (s : State) : State :=
  let s := ((s.setF KLN_TICKCNT_COUNT n).setF KLN_TICKTIME_TIME B.toNat).setF KLN_STATUS_TICKING 1
  { s with kln.first := none, kln.issued := true, kln.bmc := s.mc, kln.next := B + fc (256 * s.f KLN_PERIOD_PERIOD) }

/-- The slot walk and the next boundary count from B; ticks are kept while CE16 takes over or stands in (R71, R156). -/
def boundaryWalk (B : Time) (n : Nat) (s : State) : State :=
  let P := s.f KLN_PERIOD_PERIOD
  { s with
    kln.slotBase := B, kln.slotK := 0, kln.next := B + fc (256 * P)
    ticks := if s.spare.standFor.isSome || s.spare.taking.isSome then (n, B, P) :: s.ticks else [] }

/-- A boundary falls at time B and begins tick n (R61). -/
def boundary (B : Time) (n : Nat) (s : State) : State :=
  let s := boundaryRegs B n s
  let s := boundaryWalk B n (if s.flag KLN_CTRL_HOLD then s else applyAll B s)
  let s := lgcBoundary B (s.f KLN_PERIOD_PERIOD) (sheaveTick B (notifyTick (prepTicks s)))
  pulseAt 0x238 (s.mc + 1) s

/-- The boundary that is due in the present cycle (R57, R59). -/
def State.boundaryDue (s : State) : Option Time := s.boundaryBy s.now

/-- TICK_BOUNDARY: the first boundary after a reset begins tick 0, every other one the next tick (R59, R61). -/
def tickBoundary (s : State) : State :=
  match s.boundaryDue with
  | some B => boundary B s.tickAfter s
  | none => s

/-- Armed blocks apply 4 mc from now while no ticks are issued (R14, R70). -/
def rearm (s : State) : State := { s with kln.armed := s.kln.armed.map fun p => (p.1, s.mc + 6) }

/-- TICKING_END: the stop is complete, and no boundary is issued (R60). -/
def tickingEnd (s : State) : State :=
  if !s.ticking || s.flag KLN_CTRL_RUN || !s.running || !reached s.kln.next s.now then s
  else
    let s := s.setF KLN_STATUS_TICKING 0
    let s := { s with kln.slotBase := s.kln.next, kln.slotK := 0, kln.virt := s.kln.next + fc (256 * s.f KLN_PERIOD_PERIOD) }
    if s.flag KLN_CTRL_HOLD then s else rearm s

/-- VIRTUAL_BOUNDARY (R538). -/
def virtualBoundary (s : State) : State :=
  if s.ticking || !s.running || !reached s.kln.virt s.now then s
  else { s with kln.slotBase := s.kln.virt, kln.slotK := 0, kln.virt := s.kln.virt + fc (256 * s.f KLN_PERIOD_PERIOD) }

/-! ### KLN_CTRL (R59, R60, R70, R81) -/

/-- The count that stands in the present cycle, also while a start is pending (R41). -/
def State.nowSet (s : State) : Time := if s.kln.loadSet then fc (s.f MST_SET_SET / 256 * 256) - 256 else s.now

/-- A write of 1 to KLN_CTRL.RUN (R59, R60). -/
def ticksStart (req : Nat) (s : State) : State :=
  if s.flag KLN_CTRL_RUN then s
  else if !s.flag MST_CTRL_RUN then werr req KLN_CTRL s
  else
    let s := s.setF KLN_CTRL_RUN 1
    if s.ticking then s
    else
      let f := fc (s.f KLN_FIRST_FIRST / 256 * 256)
      let d := (f - s.nowSet).toNat
      if 1024 ≤ d && d < 2 ^ 63 then { s with kln.first := some f }
      else { s.raise KLN_STATUS_START_LATE with kln.first := some (s.nowSet + 1024) }

/-- A write of 0 to KLN_CTRL.RUN (R60). -/
def ticksStop (s : State) : State :=
  let s := s.setF KLN_CTRL_RUN 0
  if s.ticking then s else { s with kln.first := none }

/-- A write of KLN_CTRL.HOLD (R70). -/
def kilnHold (on : Bool) (s : State) : State :=
  if on then s.setF KLN_CTRL_HOLD 1
  else if !s.flag KLN_CTRL_HOLD then s
  else
    let s := s.setF KLN_CTRL_HOLD 0
    if s.ticking then s else rearm s

/-! ### The slot table (R73 to R75) -/

/-- A code that a slot table entry may hold (R74). -/
def slotCode (cmd : Bool) (c : Nat) : Bool := decide (c < 0x14) || (!cmd && decide (c < 0x1C)) || c == 0x1E || c == 0x1F

/-- A write to entry n of slot table copy k (R73 to R75). -/
def slotTableWrite (req k n v : Nat) (s : State) : State :=
  if s.f KLN_SLOTSEL_ACTIVE = k then werr req (KLN_SLOT k n) (s.raise KLN_STATUS_SLOTWR)
  else if slotCode true (bitsOf v 0 5) && slotCode false (bitsOf v 8 5) then
    (s.setF (KLN_SLOT_CMD_OWNER k n) (bitsOf v 0 5)).setF (KLN_SLOT_CAP_OWNER k n) (bitsOf v 8 5)
  else werr req (KLN_SLOT k n) s

end Sys2Proof.Machine
end

