-- ==== Sys2Proof/Machine/LanFrame.lean ====
section
/-! DEFINITION. Lanyard frames: the CRC, the response frame and the state of the request (R389 to R393). -/

namespace Sys2Proof.Machine

open Sys2Proof Reg

/-- Byte i of a frame; a missing byte reads as zero (R391). -/
def frameByte (f : List Byte) (i : Nat) : Nat := (f.getD i 0).toNat

/-- The response to a request frame with a STATUS and a payload (R389). -/
def response (f : List Byte) (status : Nat) (pay : List Byte) : List Byte :=
  let n := fun (v : Nat) => BitVec.ofNat 8 v
  withCrc ([n (frameByte f 0 ||| 0x80), n (frameByte f 1), n status, 0] ++ leBytes 2 pay.length ++ pay)

/-- The controller is busy: a request runs, its response is not ready, or a DOMAIN_SET has not ended (R391). -/
def State.lanBusy (s : State) : Bool := s.lan.req.isSome || s.lan.done.isSome || s.lan.switching

/-- The command that runs has ended with a STATUS; its frame and response are kept for a repetition, but for a BADARG, of which
nothing was executed (R391 to R393). -/
def lanFinish (status : Nat) (pay : List Byte) (s : State) : State :=
  match s.lan.req with
  | none => s
  | some f =>
    let r := response f status (if status = 0 then pay else [])
    { s with lan.req := none, lan.done := some r, lan.ran := status != 4, lan.last := if status = 4 then s.lan.last else some (f, r), lan.switching := false }

/-- A request that has run no command, or one that has run, ends with this response (R391, R392). -/
def lanAnswer (r : List Byte) (s : State) : State := { s with lan.done := some r, lan.ran := false }

/-- An ATTEST in progress ends with DENIED and no signature: one that has not run, or whose response is not ready (R440). -/
def attestDenied (s : State) : State :=
  match s.lan.req, s.lan.done, s.lan.last with
  | some f, _, _ => if frameByte f 0 = 0x41 then lanFinish 5 [] s else s
  | none, some _, some (f, _) =>
    if s.lan.ran && frameByte f 0 == 0x41 then
      let r := response f 5 []
      { s with lan.done := some r, lan.last := some (f, r) }
    else s
  | _, _, _ => s

end Sys2Proof.Machine
end

