-- ==== Sys2Proof/Machine/Vault.lean ====
section
/-! DEFINITION. The vault: life-cycle state, transitions, the tamper response and its registers (R434 to R452). -/

namespace Sys2Proof.Machine

open Sys2Proof Reg

/-! ### State (R442) -/

/-- The life-cycle code (R442): 0 MANUFACTURE, 1 PROVISIONED, 2 FIELD, 3 RETURNED, 4 SCRAPPED. -/
def State.lc (s : State) : Nat :=
  if s.vault.f3 then 4 else if s.vault.f2 then 3
  else if s.vault.f0 then (if s.vault.f1 then 2 else 1) else 0

/-- The owner key digest as fused, as 32 bytes (R444). -/
def State.ownerDigest (s : State) : List Byte := leBytes 32 s.vault.digest

/-- VLT_OWNDIG reads 0 in MANUFACTURE (R452). -/
def State.ownDigView (s : State) : Nat := if s.lc = 0 then 0 else s.vault.digest

/-- A free value of n times 64 bits. -/
def drawWide : Nat → State → Nat × State
  | 0, s => (0, s)
  | n + 1, s =>
    let r := drawWide n s.draw
    (s.drawn.toNat + 2 ^ 64 * r.1, r.2)

/-- The challenge is regenerated (R445). -/
def newChal (s : State) : State :=
  (List.range 8).foldl (fun s k => ((s.setReg (VLT_CHAL k) (s.drawn.setWidth 32)).draw)) s

/-- VLT_CHAL as 32 bytes (R444). -/
def State.chal (s : State) : List Byte := (List.range 8).flatMap fun k => leBytes 4 (s.reg (VLT_CHAL k)).toNat

/-- The private half as it unwraps under the key register; none where the integrity check fails (R435). -/
def State.markHalf (s : State) : Option (List Byte) := keyUnwrap (beBytes 32 s.vault.key.toNat) s.vault.wrapped

/-! ### The mark certificate chain (R436) -/

/-- The length of free part n of the chain, where the parts before it leave r bytes of the 2,048. -/
def certFree (n r : Nat) : Nat := Config.certGap n % (r + 1)

/-- Where the device certificate's serialNumber, its subject public key and its key usage stand in the chain, in the order of a
certificate's fields, and the chain's length. PRESUMED: the order, the point's first byte 0x04 and the bit string of the key usage
are those of X.509 and DER; what stands between is free. -/
def certSerialAt : Nat := certFree 0 1963
def certKeyAt : Nat := certSerialAt + 16 + certFree 1 (1963 - certSerialAt)
def certUseAt : Nat := certKeyAt + 65 + certFree 2 (1979 - certKeyAt)
def certLen : Nat := certUseAt + 4 + certFree 3 (2044 - certUseAt)

/-- Upper-case hexadecimal digit k of the Device Serial Number, the highest first, in ASCII. -/
def serialDigit (k : Nat) : Byte :=
  let d := bitsOf Config.serial.toNat (4 * (15 - k)) 4
  BitVec.ofNat 8 (if d < 10 then 0x30 + d else 0x37 + d)

/-- Byte n of the chain: the Device Serial Number, the mark public key, and the key usage digitalSignature stand in the device
certificate. -/
def certAt (n : Nat) : Byte :=
  if certSerialAt ≤ n ∧ n < certSerialAt + 16 then serialDigit (n - certSerialAt)
  else if certKeyAt ≤ n ∧ n < certKeyAt + 65 then ((0x04 : Byte) :: markPublic).getD (n - certKeyAt) 0
  else if certUseAt ≤ n ∧ n < certUseAt + 4 then ([0x03, 0x02, 0x07, 0x80] : List Byte).getD (n - certUseAt) 0
  else Config.certByte n

/-- The owner key digest is fused (R452). DESIGN CHOICE: digest fuses of which only some are programmed count as fused. -/
def State.ownerSet (s : State) : Bool := s.vault.f0 || s.vault.digest != 0

/-! ### Tamper (R439 to R441) -/

/-- SGS is wiped (R353): a wipe in progress is not begun again (R441, R448). -/
def wipeSgs (s : State) : State :=
  if !s.on 1 || s.flag (bitFld SAG_BUSY_CLEARING 8) then s else startClear 8 s

/-- The sensors of a mask, in ascending order. -/
def sensorsOf (m : Nat) : List Nat := (List.range 5).filter m.testBit

/-- The response to enabled sensors that trip (R440, R441, R448). -/
def tamperRespond (m : Nat) (s : State) : State :=
  if sensorsOf m = [] then s
  else
    let s := (sensorsOf m).foldl (fun s k => s.raise (bitFld VLT_TAMPSTAT_STICKY k)) s
    let s := { s with vault.key := 0 }
    if s.on 1 then
      let s := attestDenied (wipeSgs s)
      let s := if s.flag VLT_STATUS_BUSY then { s with vault.aborted := true } else s
      (sensorsOf m).foldl (fun s k => logFault 9 k 0 0 s) s
    else { s with vault.tripOff := true }

/-- TAMPER_TRIP: the sensors of the mask trip in the same Mast cycle; AON is powered (R440, R441). -/
def tamperTrip (m : Nat) (s : State) : State :=
  if !s.on 0 then s
  else
    let live := s.f VLT_TAMPSTAT_LIVE
    let fresh := (m % 32) &&& (31 - live)
    let s := s.setF VLT_TAMPSTAT_LIVE (live ||| fresh)
    tamperRespond (fresh &&& s.f VLT_TAMPEN_EN) s

/-- TAMPER_SENSOR_RELEASE: sensors are no longer tripped (R440, R452). -/
def tamperRelease (m : Nat) (s : State) : State :=
  s.setF VLT_TAMPSTAT_LIVE (s.f VLT_TAMPSTAT_LIVE &&& (31 - m % 32))

/-- The mask VLT_TAMPEN takes a value: a sensor already tripped responds at once when it is enabled (R452). -/
def setTampen (v : Nat) (s : State) : State :=
  let old := s.f VLT_TAMPEN_EN
  let s := s.setF VLT_TAMPEN_EN v
  tamperRespond (s.f VLT_TAMPEN_EN &&& (31 - old) &&& s.f VLT_TAMPSTAT_LIVE) s

/-- A write of VLT_TAMPEN by the management controller (R442, R452). -/
def tampenWrite (req v : Nat) (s : State) : State :=
  if 2 ≤ s.lc then werr req VLT_TAMPEN s else setTampen v s

/-! ### Transitions (R443 to R448) -/

/-- The transitions of R443. -/
def lcListed (a b : Nat) : Bool := (a == 0 && b == 1) || (a == 1 && b == 2) || ((a == 1 || a == 2) && b == 3) || (decide (a < 4) && b == 4)

/-- A byte string of n registers from an offset, as held (R444). -/
def heldBytes (h : SMap Word) (off n : Nat) : List Byte := (List.range n).flatMap fun k => leBytes 4 (mget h (off + 4 * k) 0).toNat

/-- The message that authorises a transition (R444). -/
def State.lcMessage (s : State) (target : Nat) : List Byte :=
  leBytes 4 0x64801C00 ++ leBytes 8 Config.serial.toNat ++ leBytes 1 s.lc ++ leBytes 1 target ++ [0, 0] ++ s.chal ++
    leBytes 32 s.ownDigView

/-- The result of steps 1 to 5 of R445 for a target with the values held: 1 where all of them pass. -/
def State.lcCheck (s : State) (target : Nat) (h : SMap Word) : Nat :=
  let dig := leNat (heldBytes h (VLT_DIG 0) 8)
  let key := heldBytes h (VLT_OKEY 0) 16
  let sig := heldBytes h (VLT_AUTH 0) 16
  let owner := sha256 key == s.ownerDigest
  let hash := sha256 (s.lcMessage target)
  let byOwner := owner && ecdsaVerify key hash sig
  let byService := ecdsaVerify Config.serviceKey hash sig
  if s.flag VLT_STATUS_AUTHLOCK then 5
  else if !lcListed s.lc target then 2
  else if target = 1 then (if s.vault.digest &&& dig == s.vault.digest then 1 else 4)
  else if target = 2 then (if !owner then 4 else if byOwner then 1 else 3)
  else if target = 3 then (if byOwner || byService then 1 else 3)
  else 1

/-- A write of VLT_LCCMD by the management controller (R445, R448). -/
def lifecycleGo (req v : Nat) (s : State) : State :=
  if !v.testBit 8 then s
  else if s.flag VLT_STATUS_BUSY then werr req VLT_LCCMD s
  else { s.setF VLT_STATUS_BUSY 1 with vault.go := some (v % 8, s.vault.held), vault.held := [], vault.aborted := false }

/-- Blow the state fuse group of a target (R442). -/
def blowGroup (target : Nat) (s : State) : State :=
  match target with
  | 1 => { s with vault.f0 := true }
  | 2 => { s with vault.f1 := true }
  | 3 => { s with vault.f2 := true }
  | _ => { s with vault.f3 := true }

/-- The state fuse group of a target reads as blown or not blown (R446). -/
def freeGroup (target : Nat) (s : State) : State :=
  let b := s.drawn.toNat.testBit 0
  if b then blowGroup target s.draw else s.draw

/-- Some of the digest fuses have been programmed. DESIGN CHOICE: a digest programmed in part is a free part of it. -/
def freeDigest (dig : Nat) (s : State) : State :=
  let r := drawWide 4 s
  { r.2 with vault.digest := s.vault.digest ||| (dig &&& r.1) }

/-- RESULT of a transition is set, the challenge changes, and the count of failures follows it (R445, R447). -/
def lcResult (code : Nat) (s : State) : State :=
  let s := (s.setF VLT_LCSTAT_RESULT code).setF VLT_STATUS_BUSY 0
  let s := newChal { s with vault.go := none, vault.aborted := false }
  if code = 3 || code = 4 then
    let n := min 16 (s.f VLT_LCSTAT_AUTHFAIL + 1)
    let s := s.setF VLT_LCSTAT_AUTHFAIL n
    if n = 16 then s.setF VLT_STATUS_AUTHLOCK 1 else s
  else if code = 1 then s.setF VLT_LCSTAT_AUTHFAIL 0
  else s

/-- The effects of an accepted transition besides the fuses (R443). -/
def lcEffects (target : Nat) (s : State) : State :=
  let s := if 2 ≤ target then setTampen 31 s else s
  let s := if target = 4 then { s with vault.key := 0, vault.wrapped := s.vault.wrapped.map fun _ => 0xFF } else s
  wipeSgs s

/-- LIFECYCLE_COMPLETE: the steps of R445 end. dfail and sfail tell that the digest fuses, the state fuses did not read back
as programmed, begun that step 7 had begun before a tamper response (R445, R448). A state fuse group that does not read back as
programmed reads by majority as not blown, so that nothing of the transition is applied; digest fuses cannot be undone. -/
def lifecycleComplete (dfail sfail begun : Bool) (s : State) : State :=
  match s.vault.go with
  | none => s
  | some (target, h) =>
    let dig := leNat (heldBytes h (VLT_DIG 0) 8)
    let code := s.lcCheck target h
    if s.vault.aborted && !begun then lcResult 7 s
    else if code ≠ 1 then lcResult code s
    else if target = 1 && dfail then lcResult 6 (freeDigest dig s)
    else
      let s := if target = 1 then { s with vault.digest := s.vault.digest ||| dig } else s
      if sfail then lcResult 6 s
      else lcEffects target (lcResult 1 (blowGroup target s))

/-- What a transition to SCRAPPED does besides its fuse group has been done in part: the key is zeroised or not, and some
fuses of the wrapped private half are blown (R443). -/
def freeScrap (s : State) : State :=
  let key := s.drawn.toNat.testBit 0
  let r := drawWide 5 s.draw
  { r.2 with vault.key := if key then 0 else s.vault.key, vault.wrapped := List.zipWith (· ||| ·) s.vault.wrapped (beBytes 40 r.1) }

/-- A transition that a main power-down interrupts: step 7 has begun, after the digest was programmed and read back, or it has
not. The state is the old one or the new one, and in a state that fixes the mask every sensor is enabled (R438, R442, R446).
DESIGN CHOICE: how far the transition came is a free value. -/
def lcInterrupted (s : State) : State :=
  match s.vault.go with
  | none => s
  | some (target, h) =>
    if s.lcCheck target h ≠ 1 then s
    else
      let late := s.drawn.toNat.testBit 0
      let s := s.draw
      let dig := if target = 1 then leNat (heldBytes h (VLT_DIG 0) 8) else 0
      if !late then (if target = 1 then freeDigest dig s else s)
      else
        let s := freeGroup target { s with vault.digest := s.vault.digest ||| dig }
        let s := if 2 ≤ s.lc then setTampen 31 s else s
        if s.lc = 4 then freeScrap s else s

/-! ### t_s (R435, R440, R445, R447) -/

/-- The vault at t_s: its registers outside AON are reset, KEYLOST follows the key, and trips that
fell while MGMT was off are logged. -/
def vaultStart (s : State) : State :=
  let s := { s with vault.held := [], vault.go := none, vault.aborted := false }
  let s := (s.setReg VLT_STATUS 0).setReg VLT_LCSTAT 0
  let s := s.setF VLT_STATUS_KEYLOST (if s.markHalf.isSome then 0 else 1)
  if s.vault.tripOff then
    (sensorsOf (s.f VLT_TAMPSTAT_STICKY)).foldl (fun s k => logFault 9 k 0 0 s) { s with vault.tripOff := false }
  else s

end Sys2Proof.Machine
end

