-- ==== Sys2Proof/Machine/Power.lean ====
section
/-! DEFINITION. Supplies, power domains and resets of the device (R481 to R493, R498 to R501, R507). -/

namespace Sys2Proof.Machine

open Sys2Proof Reg

/-! ### Sets of domains (R485, R486) -/

/-- The domains that a domain requires (R485). -/
def domReq (d : Nat) : List Nat :=
  match d with
  | 0 => [] | 1 => [0] | 2 => [1] | 3 => [1] | 12 => [10] | 13 => [12] | 14 => [12] | _ => [3]

/-- A set of domains is consistent: each has its required domains in it (R486). -/
def domSetOk (v : Nat) : Bool := (List.range 15).all fun d => !v.testBit d || (domReq d).all v.testBit

/-- The supplies of R481 by number. -/
def sVCORE : Nat := 0
def sVIO : Nat := 1
def sVLVDS : Nat := 2
def sVPCIE : Nat := 3
def sVAON : Nat := 4
def sVFIELD : Nat := 5

/-- The supplies of a domain (R485). -/
def domSup (d : Nat) : List Nat :=
  match d with
  | 0 => [sVAON] | 1 => [sVCORE, sVIO] | 2 => [sVCORE, sVPCIE] | 9 => [sVCORE, sVLVDS] | 11 => [sVCORE, sVIO]
  | 12 => [sVFIELD] | 13 => [sVFIELD] | 14 => [sVFIELD] | _ => [sVCORE]

/-- The supplies of domain d are valid, and the field side is not locked out (R485, R491). -/
def State.supplied (s : State) (d : Nat) : Bool := (domSup d).all s.pwr.sup.testBit && !(decide (12 ≤ d) && s.pwr.lockout)

/-- The domains that are on (R507). -/
def State.domains (s : State) : Nat := s.f GLB_PWRSTAT_ON

/-- The set that switching the domains of a mask to their bits of a value gives (R397, R507). -/
def State.setAfter (s : State) (mask val : Nat) : Nat := (s.domains &&& (0x7FFF - mask % 2 ^ 15)) ||| (mask &&& val) % 2 ^ 15

/-- A switch sequence runs (R507). -/
def State.switching (s : State) : Bool := !s.pwr.seq.isEmpty

/-- The sequence that leads to a set: domains off in descending order, then domains on in ascending order (R486). -/
def switchSeq (now target : Nat) : List (Nat × Bool) :=
  (((List.range 15).filter fun d => now.testBit d && !target.testBit d).reverse.map fun d => (d, false)) ++
    ((List.range 15).filter fun d => target.testBit d && !now.testBit d).map fun d => (d, true)

/-- A switch sequence begins; the caller has checked that the set is consistent and that none runs. -/
def requestSwitch (target : Nat) (s : State) : State :=
  { s with pwr.seq := switchSeq s.domains target, pwr.began := none }

/-! ### Replay (R425) -/

/-- The applied record asks for replay after DONE (R411, R425). -/
def State.replays (s : State) : Bool :=
  s.flag GLB_BOOT_DONE && (s.f GLB_BOOT_RESULT == 1 || s.f GLB_BOOT_RESULT == 2) && (s.boot.header.getD 6 0).toNat.testBit 1

/-- Blocks that were reset, or a domain that was switched on, are to be replayed. -/
def askReplay (codes doms : List Nat) (s : State) : State :=
  if s.replays then { s with boot.replays := s.boot.replays ++ [(codes, doms)] } else s

/-! ### Switch sequences (R486, R489, R493) -/

/-- The response of DOMAIN_SET forms when its sequence has ended (R400). -/
def switchEnd (s : State) : State :=
  if s.switching then s
  else if s.lan.switching then lanFinish 0 (leBytes 2 s.domains) s else s

/-- The step of the sequence that was under way is done. -/
def nextSwitch (s : State) : State := switchEnd { s with pwr.seq := s.pwr.seq.tail, pwr.began := none }

/-- The field die switches its own domains off: what they hold is lost; a retraining under way is left to its end (R491, R493,
R502). -/
def fieldDieOff (s : State) : State :=
  let s := stopDomain 14 (stopDomain 13 { s with sheaves := [], teeth := [], kln.copy := none, rig.field := [], rig.fflight := [] })
  let s := clearDomain 12 (clearDomain 13 (clearDomain 14 s))
  { s with pwr.phys := 0, stay.lostAt := none, stay.cmd.wait := [] }

/-- DOMAIN_SWITCH_ON: the next domain of the sequence begins to switch on (R486); FCORE first switches off the field
domains that are still on (R493). -/
def domainSwitchOn (s : State) : State :=
  match s.pwr.seq, s.pwr.began with
  | (d, true) :: _, none =>
    let s := { s with pwr.began := some s.mc }
    if d = 12 then fieldDieOff s else s
  | _, _ => s

/-- The registers of a domain at its declaration, the field end's lanes and the over-voltage report (R44, R489, R508). DESIGN
CHOICE: the field section of the matrix takes the enabled entries in force when FCORE is declared on (R294). -/
def declareOn (d : Nat) (s : State) : State :=
  let s := clearDomain d s
  let s := s.setF GLB_PWRSTAT_ON (setBits s.domains d 1 1)
  let s := (domBanks d).foldl (fun s b => startClear b s) s
  let s := if 12 ≤ d then { s with pwr.phys := setBits s.pwr.phys d 1 1 } else s
  if d = 12 then
    let lanes := fun (ret : Bool) => ((List.range 4).filter fun k => !s.stay.outs.contains (ret, k)).foldl (fun v k => v + 2 ^ k) 0
    let s := { (setLanes (lanes false) (lanes true) s).setF MST_STATUS_FLD_ALIGNED 1 with
               rig.field := s.fieldRoutes, stay := { outs := s.stay.outs } }
    if s.pwr.ovlo then { s.raise FLD_STATUS_OVLO with pwr.ovlo := false } else s
  else s

/-- DOMAIN_DECLARED_ON (R485, R486, R489). -/
def domainDeclaredOn (s : State) : State :=
  match s.pwr.seq, s.pwr.began with
  | (d, true) :: _, some _ =>
    if s.supplied d && (domReq d).all s.domains.testBit then nextSwitch (askReplay [] [d] (declareOn d s)) else s
  | _, _ => s

/-- DOMAIN_SWITCH_OFF (R486, R488). -/
def domainSwitchOff (s : State) : State :=
  match s.pwr.seq, s.pwr.began with
  | (d, false) :: _, none =>
    let s := { s with pwr.began := some s.mc }
    if s.on d then domainOff d s else s
  | _, _ => s

/-- DOMAIN_DECLARED_OFF: 2 µs after the switch-off began (R486). -/
def domainDeclaredOff (s : State) : State :=
  match s.pwr.seq, s.pwr.began with
  | (_, false) :: _, some t => if t + 400 ≤ s.mc then nextSwitch s else s
  | _, _ => s

/-- DOMAIN_FAIL: a domain is not declared on within 1 ms (R486). -/
def domainFail (s : State) : State :=
  match s.pwr.seq, s.pwr.began with
  | (_, true) :: _, some t =>
    if t + 200000 ≤ s.mc then switchEnd { s.raise GLB_PWRSTAT_FAIL with pwr.seq := [], pwr.began := none } else s
  | _, _ => s

/-- A host write of GLB_PWRCTL (R487, R507). -/
def pwrctlWrite (req v : Nat) (s : State) : State :=
  let mask := bitsOf v 16 15
  let target := s.setAfter mask (bitsOf v 0 15)
  if s.switching || mask % 16 ≠ 0 || !domSetOk target then werr req GLB_PWRCTL s
  else switchEnd (requestSwitch target s)

/-! ### Main power-down and power-on (R483, R491, R498 to R500) -/

/-- A register that survives: the AON ones, and those of the field die where it stays powered (R438, R492). -/
def survives (field : Bool) (off : Nat) : Bool :=
  off == VLT_TAMPEN || off == VLT_TAMPSTAT || off == GLB_RSTCAUSE || (field && decide (12 ≤ offDom off) && decide (offDom off ≤ 14))

/-- A port without power keeps the level at its pin, which is outside. -/
def deadPort (x : Port) : Port := { pin := x.pin, level := x.pin }

/-- Every domain except AON is off (R483, R499, R500). A field die that stays powered runs on by R492. -/
def mainOff (s : State) : State :=
  let s := lcInterrupted s
  let f := s.phys 12
  let s := if f then sheavesStop s else s
  let ports := s.ports.map fun p => if f && decide (p.1 < 64) then p else (p.1, deadPort p.2)
  let t : State := {
    regs := s.regs.filter fun p => survives f p.1
    staged := s.staged.filter fun p => survives f p.1
    kln := { mc := s.kln.mc, copy := if f then s.kln.copy.or (some (s.now, s.running)) else none }
    ports := ports.foldl (fun m p => mset m p.1 p.2 (portDefault p.1)) []
    vr := if f then s.vr else []
    sheaves := if f then s.sheaves else []
    stay := { cmd := if f then s.stay.cmd else {}, lostAt := if f then s.stay.lostAt.or (some (s.mc + 200)) else none }
    rig := { field := if f then s.rig.field else [], fflight := if f then s.rig.fflight else [] }
    frs := { sent := s.frs.sent }
    ep := { cpls := s.ep.cpls, sent := s.ep.sent }
    lan := { outs := s.lan.outs }
    pwr := { s.pwr with seq := [], began := none, okAt := none, notice := false }
    flash := s.flash
    flashOut := s.flashOut
    vault := { s.vault with held := [], go := none, aborted := false }
    free := s.free
    pending := s.pending }
  t.setF GLB_PWRSTAT_ON 1

/-- The supplies of the main power-on reset are valid, and SYS_RESET_N is high too (R483). -/
def State.mainSup (s : State) : Bool := s.pwr.sup.testBit sVCORE && s.pwr.sup.testBit sVIO && s.pwr.sup.testBit sVAON
def State.mainOk (s : State) : Bool := s.mainSup && !s.pwr.sysLow

/-- The field die loses its supply, or locks out (R491): its domains go off, and a notice is sent where the link works. -/
def fieldDown (s : State) : State :=
  if s.phys 12 then
    let n := s.linked
    { fieldDieOff s with pwr.notice := n }
  else s

/-- A supply becomes valid (R481, R483). -/
def supplyValid (k : Nat) (s : State) : State :=
  let s := { s with pwr.sup := setBits s.pwr.sup k 1 1 }
  let s := if k = sVAON then
      { s.setF GLB_PWRSTAT_ON (s.domains ||| 1) with pwr.standby := !(s.pwr.sup.testBit sVCORE && s.pwr.sup.testBit sVIO) }
    else s
  if s.mainOk && !s.on 1 && s.pwr.okAt.isNone && !s.pwr.standby then { s with pwr.okAt := some s.mc } else s

/-- VAON is lost: the key, the sticky bits and the enable mask (R437, R452, R499). -/
def vaonLost (s : State) : State :=
  let s := { (((s.setReg VLT_TAMPEN 31).setReg VLT_TAMPSTAT 0).setF GLB_PWRSTAT_ON 0) with vault.key := 0, vault.tripOff := false }
  { s with pwr.vaonOff := true, pwr.standby := false }

/-- A supply becomes invalid (R481, R483, R485, R491, R498). -/
def supplyInvalid (k : Nat) (s : State) : State :=
  let s := { s with pwr.sup := setBits s.pwr.sup k 1 0 }
  if k = sVLVDS then (if s.on dLVDS then domainOff dLVDS s else s)
  else if k = sVPCIE then (if s.on dHOST then domainOff dHOST s else s)
  else if k = sVFIELD then fieldDown s
  else
    let s := if s.on 1 then mainOff s else s
    let s := { s with pwr.okAt := none, pwr.sysRst := false }
    if k = sVAON then vaonLost s else { s with pwr.standby := s.pwr.sup.testBit sVAON }

/-- SUPPLY_CHANGE: what a supply does, by number: 0 valid, 1 invalid, and for VFIELD 2 the warning, 3 the over-voltage
lockout, 4 its release (R481, R491). -/
def supplyChange (k ev : Nat) (s : State) : State :=
  match ev with
  | 0 => if s.pwr.sup.testBit k then s else supplyValid k s
  | 1 => if s.pwr.sup.testBit k then supplyInvalid k s else s
  | 2 => if k = sVFIELD && s.phys 12 then s.raise FLD_STATUS_UVWARN else s
  | 3 => if k = sVFIELD && !s.pwr.lockout then fieldDown { s with pwr.lockout := true, pwr.ovlo := true } else s
  | _ => if k = sVFIELD then { s with pwr.lockout := false } else s

/-- SHUTDOWN_NOTICE: the logic end receives the notice (R491). -/
def shutdownNotice (s : State) : State :=
  if !s.pwr.notice then s
  else
    let s := { s with pwr.notice := false }
    if s.on 12 then refuseProxy (dropLink (fieldGone s)) else s

/-- POWER_ON_RESET: the conditions have held for 200 µs; MGMT is declared on, its banks clear and the
challenge is new (R352, R445, R483, R499, R507). -/
def powerOnReset (s : State) : State :=
  match s.pwr.okAt with
  | some t =>
    if s.mc < t + 40000 || s.on 1 then s
    else
      let s := s.setF GLB_PWRSTAT_ON 3
      let s := s.setF GLB_RSTCAUSE_CAUSE (if s.pwr.sysRst then 2 else 1)
      let s := if s.pwr.vaonOff then s.raise GLB_RSTCAUSE_VAONLOST else s
      startClear 8 (startClear 7 (newChal { s with pwr := { s.pwr with okAt := none, sysRst := false, vaonOff := false } }))
  | none => s

/-- SYS_RESET_N has been low for 1 µs: every domain except AON goes off; the notice of R491 takes the field die with them where
the link carries it (R500). -/
def sysFall (s : State) : State :=
  let s := if s.linked then fieldDieOff s else s
  let s := if s.on 1 then mainOff s else s
  { s with pwr.sysLow := true, pwr.okAt := none, pwr.sysRst := s.mainSup || s.pwr.sysRst }

/-- SYS_RESET_N is high again: the 200 µs of R483 run from here (R500). -/
def sysRise (s : State) : State :=
  let s := { s with pwr.sysLow := false }
  if s.mainOk && !s.on 1 && !s.pwr.standby then { s with pwr.okAt := some s.mc } else s

/-- SYS_RESET: SYS_RESET_N has been low for 1 µs, or is high again after that (R500). -/
def sysReset (s : State) : State := if s.pwr.sysLow then sysRise s else sysFall s

/-- WAKE: VCORE and VIO have returned in standby (R498). -/
def wake (s : State) : State :=
  if s.pwr.standby && s.mainOk then { s with pwr.standby := false, pwr.okAt := some s.mc } else s

/-- VFIELD_MEASURE: VFIELD in units of 0.25 V (R508). -/
def vfieldMeasure (v : Nat) (s : State) : State := if s.phys 12 then s.setF FLD_STATUS_VFLD v else s

/-! ### Block resets (R398, R501, R507) -/

/-- A block is reset, and is replayed where the record asks for it (R425, R501). -/
def blockReset (codes : List Nat) (s : State) : State := askReplay codes [] (codes.foldl (fun s c => resetBlock c s) s)

/-- A code of R398. -/
def blockListed (c : Nat) : Bool := decide (1 ≤ c) && decide (c ≤ 14)

/-- A host write of GLB_BLKRST (R507). -/
def blkrstWrite (req v : Nat) (s : State) : State :=
  let c := v % 16
  if !blockListed c || c = 6 || !s.on (blockDom c) then werr req GLB_BLKRST s else blockReset [c] s

end Sys2Proof.Machine
end

