-- ==== Sys2Proof/Machine/RegRead.lean ====
section
/-! DEFINITION. Register reads: live values, wide reads and blocks that do not answer (R7, R51 to R56, R379). -/

namespace Sys2Proof.Machine

open Sys2Proof Reg

/-- A register word with a field's value put in. -/
def putF (F : Fld) (v : Nat) (w : Nat) : Nat := setBits w F.lo F.w v

/-- Whether register k of a repeated map lies at an offset: its number. -/
def regIdx (base stride n off : Nat) : Option Nat :=
  if base ≤ off && (off - base) % stride == 0 && decide ((off - base) / stride < n) then some ((off - base) / stride) else none

/-- A part of a 64-bit value: the low or the high word. -/
def halfOf (v : Nat) (hi : Bool) : Nat := if hi then v / 2 ^ 32 % 2 ^ 32 else v % 2 ^ 32

/-! ### Live values, block by block -/

/-- GLB_ registers (R3, R25, R507). -/
def State.viewGlb (s : State) (off w : Nat) : Nat :=
  if off = GLB_ID then putF GLB_ID_GRADE Config.gradeMI.toNat w
  else if off = GLB_PWRSTAT then
    putF GLB_PWRSTAT_BUSY s.switching.toNat (putF GLB_PWRSTAT_FLDSUP (s.on dSTAY && s.pwr.sup.testBit sVFIELD && !s.pwr.lockout).toNat w)
  else match regIdx (GLB_PORTOWN 0) 4 96 off with
    | some n => putF (GLB_PORTOWN_STANDIN n) (s.spare.standFor.isSome && s.spare.standFor == some (s.ownerOf n)).toNat w
    | none => w

/-- MST_ and KLN_ registers (R49, R82). -/
def State.viewMst (s : State) (off w : Nat) : Nat :=
  if off = MST_NOW then halfOf s.now.toNat false
  else if off = MST_NOW + 4 then halfOf s.now.toNat true
  else if off = KLN_STATUS then putF KLN_STATUS_ARMED (s.armedAt KLN_COMMIT != 0).toNat w
  else w

/-- HLY_ registers (R338, R343). -/
def State.viewHly (s : State) (off w : Nat) : Nat :=
  if off = HLY_STATUS then
    putF HLY_STATUS_INFLIGHT s.inFlightAll (putF HLY_STATUS_REJ (s.reg HLY_REJ != 0).toNat w)
  else match regIdx (HLY_CINFL 0) 0x40 32 off with
    | some c => s.inFlight c
    | none => w

/-- WHL_ registers (R253). -/
def State.viewWhl (s : State) (off w : Nat) : Nat :=
  match regIdx (WHL_NOWANG 0) 0x1000 4 off with
  | some v => s.nowAngle v
  | none => w

/-- The counter of port p with the changes of the present cycle (R192, R209). -/
def State.ctrNow (s : State) (p : Nat) : Counter := (s.port p).ctr

/-- PRT_ registers (R200, R206, R207, R209). -/
def State.viewPrt (s : State) (off w : Nat) : Nat :=
  let p := (off - 0x80000) / 0x100
  let r := off - PRT_CTRL p
  let x := s.port p
  let head := match x.queue with | e :: _ => e.act.time.toNat | [] => 0
  if off = PRT_STATUS p then
    putF (PRT_STATUS_IN p) x.level.toNat (putF (PRT_STATUS_DRV p) (s.driving p).toNat (putF (PRT_STATUS_OUT p) x.out.toNat
      (putF (PRT_STATUS_PEND p) x.pulseEnd.isSome.toNat (putF (PRT_STATUS_QLEN p) x.queue.length w))))
  else if off = PRT_QHEAD p then halfOf head false
  else if off = PRT_QHEAD p + 4 then halfOf head true
  else if off = PRT_CCTRL p then putF (PRT_CCTRL_RUN p) (s.ctrNow p).run.toNat w
  else if r / 8 * 8 = 0x88 then halfOf (s.ctrNow p).cnt (r % 8 == 4)
  else if r / 8 * 8 = 0x90 then halfOf (s.ctrNow p).rld (r % 8 == 4)
  else if r / 8 * 8 = 0x98 then halfOf (s.ctrNow p).cmp (r % 8 == 4)
  else if r / 8 * 8 = 0xA0 then halfOf (s.ctrNow p).act (r % 8 == 4)
  else w

/-- COIL_STATUS of engine e (R131, R168). -/
def State.coilStatus (s : State) (e : Nat) : Nat :=
  let x := s.eng e
  putF (COIL_STATUS_SIDX e) (if e = 16 then s.spare.standFor.getD 0 else 0) (putF (COIL_STATUS_CHECKING e) x.check.isSome.toNat
    (putF (COIL_STATUS_PENDING e) x.pendImg.isSome.toNat (s.engState e)))

/-- COIL_ registers (R148, R168, R171). -/
def State.viewCoil (s : State) (off w : Nat) : Nat :=
  if 0x96000 ≤ off then
    let l := mget s.locks ((off - 0x96000) / 4) {}
    if off < 0x96100 then l.aband.toNat * 2 ^ 9 + l.held.isSome.toNat * 2 ^ 8 + l.held.getD 0 else w
  else
    let e := (off - 0x90000) / 0x400
    let r := off - COIL_CTRL e
    let ck := (s.eng (s.ckOwner e)).ck
    if r = 4 then s.coilStatus e
    else if r = 0x18 then (s.eng e).image.base
    else if r = 0x1C then (s.eng e).image.decl
    else if 0x80 ≤ r && r < 0x100 then halfOf (mget ck.g ((r - 0x80) / 8) 0).toNat (r % 8 == 4)
    else if r = 0x100 then ck.estat
    else w

/-- FRS_ registers (R460, R476). -/
def State.viewFrs (s : State) (off w : Nat) : Nat :=
  if off = FRS_STATUS then putF FRS_STATUS_ALIGNED s.frsAligned.toNat w
  else if off = FRS_OPSTAT then putF FRS_OPSTAT_PENDING s.pendingOps.length w
  else w

/-- VLT_ registers (R452). -/
def State.viewVlt (s : State) (off w : Nat) : Nat :=
  if off = VLT_STATUS then
    putF VLT_STATUS_OWNERSET s.ownerSet.toNat (putF VLT_STATUS_TAMPERED (s.f VLT_TAMPSTAT_STICKY != 0).toNat (putF VLT_STATUS_LC s.lc w))
  else if off = VLT_CERTLEN then certLen
  else if off = VLT_SERIAL then halfOf Config.serial.toNat false
  else if off = VLT_SERIAL + 4 then halfOf Config.serial.toNat true
  else match regIdx (VLT_OWNDIG 0) 4 8 off with
    | some k => bitsOf s.ownDigView (32 * k) 32
    | none => w

/-- LGC_ registers (R408). -/
def State.viewLgc (s : State) (off w : Nat) : Nat :=
  if off = LGC_TIME then bitsOf s.now.toNat 8 32
  else match regIdx (LGC_BSTAT 0) 0x100 4 off with
    | some b =>
      let run := (List.range 4).foldl (fun v t => v + (s.lgcEn (4 * b + t)).toNat * 2 ^ t) 0
      putF (LGC_BSTAT_RUN b) run (putF (LGC_BSTAT_PWR b) (s.on (dCL b)).toNat w)
    | none => match regIdx (LGC_CSTAT 0) 0x20 16 off with
      | some c => putF (LGC_CSTAT_OWN c) (s.ownerOf c == s.f (LGC_CCFG_TIMER c)).toNat w
      | none => w

/-- The MSI-X table and the Pending Bit Array (R375). -/
def State.viewMsix (s : State) (off : Nat) : Nat :=
  if off < 0xE0400 then (s.msixWord (off - 0xE0000)).toNat
  else if off = 0xE0800 then (s.ep.pba.filter fun v => decide (v < 32)).foldl (fun w v => w ||| 2 ^ v) 0
  else if off = 0xE0804 then (s.ep.pba.filter fun v => decide (32 ≤ v)).foldl (fun w v => w ||| 2 ^ (v - 32)) 0
  else 0

/-- The live value of the register at an offset (R7, R10). -/
def State.live (s : State) (off : Nat) : Word :=
  if off / 0x10000 = 14 then BitVec.ofNat 32 (s.viewMsix off)
  else if (rowAt off).isNone then 0
  else
    let w := (s.reg off).toNat
    BitVec.ofNat 32 (match off / 0x10000 with
      | 0 => s.viewGlb off w
      | 1 => s.viewMst off w
      | 3 => s.viewHly off w
      | 5 => s.viewWhl off w
      | 8 => s.viewPrt off w
      | 9 => s.viewCoil off w
      | 10 => s.viewFrs off w
      | 11 => s.viewVlt off w
      | 12 => s.viewLgc off w
      | _ => w)

/-- The live 64 bits at an offset. -/
def State.live64 (s : State) (off : Nat) : DWord := (s.live (off + 4)) ++ (s.live off)

/-! ### Access to blocks (R379) -/

/-- An offset on the field die, reached through the proxy; WHL_VRCFG, of a logic-die block, is reached so too (R215). -/
def fieldReg (off : Nat) : Bool := (decide (12 ≤ offDom off) && decide (offDom off ≤ 14)) || (regIdx (WHL_VRCFG 0) 0x1000 4 off).isSome

/-- An offset holds a register, or a word of the MSI-X structures (R7). -/
def hasReg (off : Nat) : Bool := (decide (0xE0000 ≤ off) && decide (off < 0xE0400)) || (rowAt off).isSome

/-- The block at an offset answers: its domain is on, and for the field die the link carries proxy traffic (R379). An
offset that holds no register reads 0 and takes no write whatever its neighbours do (R7). -/
def State.answers (s : State) (off : Nat) : Bool := !hasReg off || (s.on (offDom off) && (!fieldReg off || s.linked))

/-- COIL_STATUS reads STATE 0b000 while the instance's domain is off (R131, R168), where R379 lets every other register of the
domain read as all ones. -/
def coilStat (off : Nat) : Bool := (regIdx (COIL_STATUS 0) 0x400 17 off).isSome

/-- A register read finds a value at an offset. -/
def State.readable (s : State) (off : Nat) : Bool := s.answers off || coilStat off

/-- A field-die access waits in the proxy while the link retrains (R502). -/
def State.proxyWaits (s : State) (off : Nat) : Bool := hasReg off && fieldReg off && s.on (offDom off) && s.stay.trainAt.isSome

/-! ### Wide reads (R51 to R56) -/

/-- The block of an offset reads in latch mode (R56). -/
def State.latchMode (s : State) (off : Nat) : Bool := !(s.f GLB_RDMODE_MODE).testBit (off / 0x10000)

/-- The low offset of the wide quantity that holds a register. -/
def wideLow (off : Nat) : Option Nat := match rowAt off with
  | some (r, p) => if r.wide then some (off - 4 * p) else none
  | none => none

/-- The shadow of requester req (0 host, 1 management) in the block of an offset (R52). -/
def shadowKey (req off : Nat) : Nat := 2 * (off / 0x10000) + req
def State.shadow (s : State) (req off : Nat) : Shadow := mget s.kln.shadows (shadowKey req off) {}
def setShadow (req off : Nat) (x : Shadow) (s : State) : State :=
  { s with kln.shadows := mset s.kln.shadows (shadowKey req off) x {} }

/-- A read of the lowest part of the quantity at q takes the quantity into the shadow; held write parts of the same
quantity stay (R52, R53). -/
def latch (req q : Nat) (s : State) : State :=
  let x := s.shadow req q
  let x := if x.qty = some q then x else {}
  setShadow req q { x with qty := some q, read := some (s.live64 q) } s

/-- The quantity at q as a higher part reads it: the shadow's copy where the shadow holds it, else the live value (R52). -/
def State.wideSeen (s : State) (req q : Nat) : DWord :=
  let x := s.shadow req q
  if x.qty = some q then x.read.getD (s.live64 q) else s.live64 q

/-- A read of one register by a requester that has a shadow (R52, R54, R379). -/
def readReg (req off : Nat) (s : State) : Word × State :=
  if !s.readable off then (0xFFFFFFFF, s)
  else match wideLow off with
    | none => (s.live off, s)
    | some q =>
      if !s.latchMode off then (s.live off, s)
      else if off = q then (s.live off, latch req q s)
      else ((s.wideSeen req q).extractLsb' 32 32, s)

/-- A read of one 16-bit half by the management controller (R51, R52, R395). -/
def readHalf (off : Nat) (s : State) : BitVec 16 × State :=
  let r := off / 4 * 4
  if !s.readable r then (0xFFFF, s)
  else match wideLow r with
    | none => ((s.live r).extractLsb' (8 * (off % 4)) 16, s)
    | some q =>
      if !s.latchMode r then ((s.live r).extractLsb' (8 * (off % 4)) 16, s)
      else if off = q then ((s.live q).extractLsb' 0 16, latch 1 q s)
      else ((s.wideSeen 1 q).extractLsb' (8 * (off - q)) 16, s)

end Sys2Proof.Machine
end

