-- ==== Sys2Proof/Machine/RegWrite.lean ====
section
/-! DEFINITION. Register writes: the access codes of R10, the validity rules of each register and what a write does
(R7, R10 to R15, R51 to R56, R377, R379). -/

namespace Sys2Proof.Machine

open Sys2Proof Reg

/-! ### Access codes (R10, R15) -/

/-- A word with the bits of a mask taken from v. -/
def merge (w v : Word) (m : Nat) : Word := (w &&& ~~~(BitVec.ofNat 32 m)) ||| (v &&& BitVec.ofNat 32 m)

/-- The bits of a word that hardware has set in the present cycle: a clear leaves them set (R15). -/
def State.setNow (s : State) (off : Nat) : Nat :=
  ((List.range 32).filter fun i => mget s.hwNow (32 * off + i) 0 != 0).foldl (fun v i => v + 2 ^ i) 0

/-- A write applies to each field by its own code; enabled tells whether the block is enabled for RWL fields (R10). -/
def genWrite (req off : Nat) (v : Word) (enabled : Bool) (s : State) : State :=
  match rowAt off with
  | none => s
  | some (r, p) =>
    let m := fun (x : Nat) => partOf x p
    let s := if m r.rw = 0 then s else s.setReg off (merge (s.reg off) v (m r.rw))
    let s := if m r.rws = 0 then s else s.setStg off (merge (s.stg off) v (m r.rws))
    let s := if m r.w1c = 0 then s else
      s.setReg off (s.reg off &&& ~~~(v &&& BitVec.ofNat 32 (m r.w1c) &&& ~~~(BitVec.ofNat 32 (s.setNow off))))
    if m r.rwl = 0 then s
    else if enabled then werr req off s
    else s.setReg off (merge (s.reg off) v (m r.rwl))

/-- A write whose value must satisfy a condition, else it is ignored in full (R251, R252, R254, R288, R290). -/
def checkedWrite (req off : Nat) (v : Word) (enabled ok : Bool) (s : State) : State :=
  if ok then genWrite req off v enabled s else werr req off s

/-! ### GLB_, MST_ and KLN_ -/

/-- A change of GLB_RDMODE discards the shadows of the blocks whose bit changes (R55, R56). -/
def rdmodeWrite (v : Nat) (s : State) : State :=
  let old := s.f GLB_RDMODE_MODE
  let new := v % 2 ^ 16 &&& 0xDFFF
  let gone := fun (k : Nat) => (old ^^^ new).testBit (k / 2)
  { s.setF GLB_RDMODE_MODE new with kln.shadows := s.kln.shadows.filter fun p => !gone p.1 }

/-- GLB_WERR.CLR (R383). -/
def werrClr (s : State) : State :=
  let n := s.noted GLB_WERR_COUNT
  let s := s.clearCnt GLB_WERR_COUNT
  if n = 0 then (s.setF GLB_WERR_REQ 0).setReg GLB_WERRADDR 0 else s

/-- GLB_OWNERR.CLR (R29, R30). -/
def ownerrClr (s : State) : State :=
  let n := s.noted GLB_OWNERR_COUNT
  let s := s.clearCnt GLB_OWNERR_COUNT
  if n = 0 then ((s.setF GLB_OWNERR_SRC_TYPE 0).setF GLB_OWNERR_SRC_INDEX 0).setF GLB_OWNERR_PORT 0 else s

/-- An INDEX in the range of its TYPE (R27). -/
def ownerOk (v : Nat) : Bool :=
  match bitsOf v 8 2 with
  | 1 => decide (bitsOf v 0 5 < 16)
  | 2 => decide (bitsOf v 0 5 < 4)
  | 3 => decide (bitsOf v 0 5 < 8)
  | _ => true

/-- A write to a GLB_ register. -/
def writeGlb (req off : Nat) (v : Word) (s : State) : State :=
  if off = GLB_COMMIT then (if v.getLsbD 0 then arm off s else s)
  else if off = GLB_RDMODE then rdmodeWrite v.toNat s
  else if off = GLB_WERR then
    let s := genWrite req off v false s
    if v.getLsbD 1 then werrClr s else s
  else if off = GLB_PWRCTL then (if req = 0 then pwrctlWrite req v.toNat s else werr req off s)
  else if off = GLB_BLKRST then blkrstWrite req v.toNat s
  else if off = GLB_OWNERR then (if v.getLsbD 7 then ownerrClr s else s)
  else if 0x400 ≤ off && off < 0x580 then checkedWrite req off v false (ownerOk v.toNat) s
  else genWrite req off v false s

/-- A write to an MST_ or KLN_ register (R36, R41, R58, R81). -/
def writeMst (req off : Nat) (v : Word) (s : State) : State :=
  if off = MST_CTRL then
    let s := s.setStg off (merge (s.stg off) v 6)
    if v.getLsbD 0 then timebaseStart s else timebaseStop req s
  else if off = MST_REFSEL then
    if v.toNat % 8 ≤ 4 then { genWrite req off v false s with kln.refWritten := true } else werr req off s
  else if off = KLN_COMMIT then (if v.getLsbD 0 then arm off s else s)
  else if off = KLN_CTRL then
    let s := kilnHold (v.getLsbD 1) s
    if v.getLsbD 0 then ticksStart req s else ticksStop s
  else if off = KLN_PERIOD then checkedWrite req off v false (decide (100 ≤ v.toNat)) s
  else if 0x14000 ≤ off && off < 0x16000 then slotTableWrite req ((off - 0x14000) / 0x1000) ((off - 0x14000) % 0x1000 / 4) v.toNat s
  else genWrite req off v (s.flag MST_CTRL_RUN) s

/-! ### RIG_, HLY_, SAG_ and ARB_ -/

/-- The low word of a route entry with an invalid DST (R291, R314). -/
def badRoute (off v : Nat) : Bool := decide (0x21000 ≤ off) && decide (off < 0x23000) && off % 8 == 0 && decide (0x148 ≤ rtDst v)

/-- A write to a RIG_ register (R293, R303, R305, R311, R313, R314). -/
def writeRig (req off : Nat) (v : Word) (s : State) : State :=
  if off = RIG_SWPULSE then softwarePulse v.toNat s
  else if off = RIG_CLR then rigClr v.toNat s
  else if off = RIG_COMMIT then (if v.getLsbD 0 then arm off s else s)
  else if off = RIG_CWCFG then (if v.getLsbD 0 then cwEnable s else s.setF RIG_CWCFG_EN 0)
  else if off = RIG_CWRD then cwrdWrite req v.toNat s
  else if off = RIG_TAPCLR then tapClear v.toNat s
  else checkedWrite req off v (s.flag RIG_CWCFG_EN) (!badRoute off v.toNat) s

/-- A write to an HLY_ register (R334, R336, R340 to R343). -/
def writeHly (req off : Nat) (v : Word) (s : State) : State :=
  let c := (off - 0x31000) / 0x40
  if off = HLY_STATUS then
    let s := genWrite req off (v &&& 2) false s
    if v.getLsbD 0 then busErrClear req s else s
  else if off = HLY_BUSCNT then (if v.getLsbD 31 then s.clearCnt HLY_BUSCNT_COUNT else s)
  else if off < 0x31000 then genWrite req off v false s
  else if off = HLY_CCTRL c then cctrlWrite req c v.toNat s
  else if off = HLY_CQUOTA c then checkedWrite req off v false (decide (1 ≤ v.toNat % 512) && decide (v.toNat % 512 ≤ 256)) s
  else if off = HLY_CCNT c then ccntWrite c v.toNat s
  else genWrite req off v false s

/-- SAG_SCRUB takes a value, and every bank's next scrub request falls INTERVAL mc after the write (R351, R368). -/
def scrubWrite (v : Nat) (s : State) : State :=
  let iv := v % 2 ^ 16
  (List.range 9).foldl (fun s b => s.modBank b fun x => { x with scrubAt := some (s.mc + iv) }) (s.setF SAG_SCRUB_INTERVAL iv)

/-- SAG_CLR: the counts of the selected banks (R368, R369). -/
def sagClr (v : Nat) (s : State) : State :=
  ((List.range 9).filter v.testBit).foldl (init := s) fun s b =>
    let n := s.noted (SAG_ECC_UNC b)
    let s := (s.clearCnt (SAG_ECC_CORR b)).clearCnt (SAG_ECC_UNC b)
    if n = 0 then s.setF (SAG_ECC_REQ b) 0 else s

/-- ARB_CLR: the wait records of the selected banks (R371, R372). -/
def arbClr (v : Nat) (s : State) : State :=
  ((List.range 7).filter v.testBit).foldl (init := s) fun s b =>
    let w := s.noted (ARB_WAIT_MAXWAIT b)
    let r := s.noted (ARB_WAIT_REQ b)
    ((s.clearCnt (ARB_WAIT_DEAD b)).setF (ARB_WAIT_MAXWAIT b) (w - 1)).setF (ARB_WAIT_REQ b) (r - 1)

/-- SAG_ECCINJ (R354, R368). -/
def eccInject (req : Nat) (v : Word) (s : State) : State :=
  checkedWrite req SAG_ECCINJ v false (!v.getLsbD 0 || decide (bitsOf v.toNat 8 4 < 8)) s

/-- No writable field of an ARB_CLASS value holds class 3 (R358). -/
def classOk (off v : Nat) : Bool :=
  match rowAt off with
  | some (r, _) => (List.range 9).all fun k => !(bitsOf r.rws (2 + 2 * k) 2 == 3) || bitsOf v (2 + 2 * k) 2 != 3
  | none => true

/-- A write to a SAG_ or ARB_ register (R354, R358, R368, R370, R371). -/
def writeSag (req off : Nat) (v : Word) (s : State) : State :=
  let sg := bitsOf v.toNat 8 5
  let sc := bitsOf v.toNat 0 4
  if off = SAG_ECCINJ then eccInject req v s
  else if off = SAG_SCRUB then scrubWrite v.toNat s
  else if off = SAG_CLR then sagClr v.toNat s
  else if off = ARB_COMMIT then (if v.getLsbD 0 then arm off s else s)
  else if off = ARB_CLR then arbClr v.toNat s
  else if off = ARB_BURST then checkedWrite req off v false (1 ≤ sg && sg ≤ 16 && 1 ≤ sc && sc ≤ 8) s
  else if 0x40100 ≤ off && off < 0x40120 then checkedWrite req off v false (classOk off v.toNat) s
  else genWrite req off v false s

/-! ### WHL_ and SHV_ -/

/-- The value is valid for a WHL_ register at offset r of its instance (R251, R252, R254). -/
def whlValid (r v : Nat) : Bool :=
  let n := bitsOf v 0 10
  if r = 0x0C then bitsOf v 2 3 < 6
  else if r = 0x10 then n != 0 && bitsOf v 10 4 != 0 && bitsOf v 20 10 ≤ n
  else if r = 0x14 then bitsOf v 0 7 < 96 && bitsOf v 8 7 < 96
  else if r = 0x20 then bitsOf v 0 8 ≤ 153
  else if r = 0x24 then 5 ≤ bitsOf v 0 8
  else if r = 0x28 then bitsOf v 1 3 != 0
  else if r = 0x2C then 1 ≤ bitsOf v 0 7 && bitsOf v 0 7 ≤ 64
  else if r = 0x34 then bitsOf v 0 8 != 0
  else if 0x400 ≤ r && r < 0x800 && r % 16 == 0 then bitsOf v 8 7 < 96
  else true

/-- A write to a WHL_ register (R247 to R254). -/
def writeWhl (req off : Nat) (v : Word) (s : State) : State :=
  let w := (off - 0x50000) / 0x1000
  if off = WHL_CTRL w then
    let s := if v.getLsbD 0 then whlEnable w s else whlDisable w s
    if v.getLsbD 1 then resync w s else s
  else if off = WHL_CLR w then whlClr w v.toNat s
  else if off = WHL_COMMIT w then (if v.getLsbD 0 then arm off s else s)
  else checkedWrite req off v (s.whlEn w) (whlValid (off - WHL_CTRL w) v.toNat) s

/-- The value is valid for a SHV_ register at offset r of its instance (R287, R288, R290). -/
def shvValid (r v : Nat) : Bool :=
  if r = 0x0C then bitsOf v 0 2 != 3
  else if r = 0x24 then bitsOf v 1 3 != 0
  else if r = 0x30 then bitsOf v 16 16 != 0
  else if 0x100 ≤ r && r % 16 == 8 then bitsOf v 1 2 != 0
  else true

/-- A write to a SHV_ register (R257, R258, R286 to R290). -/
def writeShv (req off : Nat) (v : Word) (s : State) : State :=
  let u := (off - 0x60000) / 0x800
  if off = SHV_CTRL u then (if v.getLsbD 0 then sheaveEnable u s else sheaveStop u s)
  else if off = SHV_CLR u then shvClr u v.toNat s
  else if off = SHV_COMMIT u then (if v.getLsbD 0 then arm off s else s)
  else checkedWrite req off v (s.shvEn u) (shvValid (off - SHV_CTRL u) v.toNat) s

/-! ### STY_, FLD_ and PRT_ -/

/-- A write to a STY_ or FLD_ register (R508). -/
def writeSty (req off : Nat) (v : Word) (s : State) : State :=
  let t := bitsOf v.toNat 0 12
  if off = STY_CLR then
    if v.getLsbD 0 then (s.clearCnt STY_ERRCNT_RESEND).clearCnt STY_ERRCNT_FAILS else s
  else if off = FLD_CFG then
    let s := s.setF FLD_CFG_LOSSACT (bitsOf v.toNat 16 1)
    if 10 ≤ t && t ≤ 1000 then s.setF FLD_CFG_LOSSTO t else werr req off s
  else genWrite req off v false s

/-- MODE and REST of a PRT_IOCFG value are listed for port p (R187, R188). -/
def iocfgOk (p v : Nat) : Bool := modeOk p (bitsOf v 0 3) && bitsOf v 4 2 != 3

/-- The pin of port p as its logical input after a change of PRT_IOCFG. -/
def reread (p : Nat) (s : State) : State :=
  let x := s.port p
  rawChange p (((s.pinOf p x.out x.drv).getD x.pin) != s.flag (PRT_IOCFG_INV p)) (s.pnow p) s

/-- A write of PRT_IOCFG (R187, R188, R201): a port that leaves the output modes drives no more. -/
def iocfgWrite (req p : Nat) (v : Word) (s : State) : State :=
  if !iocfgOk p v.toNat then werr req (PRT_IOCFG p) s
  else if s.portEn p then genWrite req (PRT_IOCFG p) v true s
  else
    let old := s.reg (PRT_IOCFG p)
    let s := genWrite req (PRT_IOCFG p) v false s
    if s.reg (PRT_IOCFG p) = old then s
    else reread p (if s.outMode p then s else s.modPort p fun x => { x with drv := false, held := none, later := [] })

/-- CSRC and LSRC of a PRT_CCTRL value are valid for port p (R190, R195). -/
def cctrlOk (p v : Nat) : Bool :=
  let c := bitsOf v 4 3
  c != 7 && !((c == 4 || c == 5) && bitsOf v 8 3 == p % 8)

/-- A write of PRT_CCTRL: RUN acts in its cycle (R192, R207). -/
def prtCctrl (req p : Nat) (v : Word) (s : State) : State :=
  if !cctrlOk p v.toNat then werr req (PRT_CCTRL p) s
  else
    let row := s.setStg (PRT_CCTRL p) (merge (s.stg (PRT_CCTRL p)) v 0xF776)
    ctrApply p 1 (.run (v.getLsbD 0)) row

/-- A write of PRT_STATUS: clearing OCP lets the driver resume (R189, R200). -/
def prtStatus (req p : Nat) (v : Word) (s : State) : State :=
  let s := genWrite req (PRT_STATUS p) (v &&& 0xFFDFFFFF) false s
  if v.getLsbD 21 && s.flag (PRT_STATUS_OCP p) then ocpClear p s else s

/-- A write to a PRT_ register (R198 to R210). -/
def writePrt (req off : Nat) (v : Word) (s : State) : State :=
  let p := (off - 0x80000) / 0x100
  if off = PRT_CTRL p then portCtrl p v.toNat s
  else if off = PRT_STATUS p then prtStatus req p v s
  else if off = PRT_IOCFG p then iocfgWrite req p v s
  else if off = PRT_INCFG p then checkedWrite req off v false (decide (bitsOf v.toNat 0 10 ≤ 296)) s
  else if off = PRT_ARMW p then checkedWrite req off v false (v != 0) s
  else if off = PRT_CLR p then prtClr p v.toNat s
  else if off = PRT_COMMIT p then (if v.getLsbD 0 then arm off s else s)
  else if off = PRT_CCTRL p then prtCctrl req p v s
  else genWrite req off v (s.portEn p) s

/-! ### COIL_ -/

/-- A COIL_CTRL write to CE16 while it stands in (R161). -/
def barredCtrl (req : Nat) (v : Word) (s : State) : State :=
  let e := 16
  let s := s.setF (COIL_CTRL_TRACE e) (bitsOf v.toNat 17 1)
  let held := v.getLsbD 8 == s.flag (COIL_CTRL_HOLD e) && v.getLsbD 16 == s.flag (COIL_CTRL_DRY e) &&
    v.getLsbD 4 == s.flag (COIL_CTRL_TAKEOVER e)
  if v.getLsbD 2 || v.getLsbD 9 || bitsOf v.toNat 0 2 != 0 || !held then werr req (COIL_CTRL e) s else s

/-- A write of COIL_CTRL (R135, R161, R162, R167): the stored fields, then STEP and LOAD. -/
def coilCtrl (req e : Nat) (v : Word) (s : State) : State :=
  if s.ctrlBarred e then barredCtrl req v s
  else
    let s := holdNow e (genWrite req (COIL_CTRL e) v false s)
    let s := if v.getLsbD 9 then coilStepReq req e s else s
    if v.getLsbD 2 then loadCmd req e s else s

/-- The engine is enabled in the sense of RWL (R131). -/
def State.coilEn (s : State) (e : Nat) : Bool := s.engState e == 2 || s.engState e == 6

/-- A range lies inside SGH. -/
def inSgh (a n : Nat) : Bool := decide (0x100000 ≤ a) && decide (a + n ≤ 0x180000)

/-- A write to a COIL_ register (R137, R148, R167 to R171). DESIGN CHOICE: a COIL_TRLEN of 4 to 16 is taken also where the ring at
the present COIL_TRBASE then reaches outside SGH (R171 tests the ring only at TRBASE). -/
def writeCoil (req off : Nat) (v : Word) (s : State) : State :=
  let n := v.toNat
  if 0x96000 ≤ off then (if v.getLsbD 16 && off < 0x96100 then lockForce ((off - 0x96000) / 4) s else s)
  else
    let e := (off - 0x90000) / 0x400
    let en := s.coilEn e
    let restart := fun (t : State) => if en then t else t.setF (COIL_TRPTR_PTR e) 0
    if off = COIL_CTRL e then coilCtrl req e v s
    else if off = COIL_LDBASE e then (if (s.eng e).check.isSome then werr req off s else genWrite req off v en s)
    else if off = COIL_CLR e then coilClr e n s
    else if off = COIL_COMMIT e then (if v.getLsbD 0 then arm off s else s)
    else if off = COIL_CKESTAT e then checkpointWrite req e 0 (BitVec.ofNat 64 n) s
    else if off = COIL_TRBASE e then
      if n % 8 == 0 && inSgh n (8 * 2 ^ s.f (COIL_TRLEN_LOG2 e)) then restart (genWrite req off v en s) else werr req off s
    else if off = COIL_TRLEN e then
      if 4 ≤ n % 32 && n % 32 ≤ 16 then restart (genWrite req off v en s) else werr req off s
    else if off = COIL_DRYBASE e then checkedWrite req off v en (n % 16 == 0 && inSgh n 1024) s
    else genWrite req off v en s

/-! ### FRS_, VLT_, LGC_ and LAN_ -/

/-- A write of FRS_CFG (R459, R474). -/
def frsCfg (req : Nat) (v : Word) (s : State) : State :=
  if v.getLsbD 0 && v.getLsbD 1 then werr req FRS_CFG s
  else
    let en := s.flag FRS_CTRL_EN
    let s := genWrite req FRS_CFG v en s
    if !en && !v.getLsbD 1 then s.setF FRS_STATUS_FOLLOWING 0 else s

/-- A write to an FRS_ register (R466, R474 to R477). -/
def writeFrs (req off : Nat) (v : Word) (s : State) : State :=
  if off = FRS_CTRL then (if v.getLsbD 0 then frsEnable s else frsDisable s)
  else if off = FRS_CFG then frsCfg req v s
  else if off = FRS_COMMIT then (if v.getLsbD 0 then arm off s else s)
  else if off = FRS_EVLEAD then checkedWrite req off v false (v.toNat % 2 ^ 16 != 0) s
  else if off = FRS_OPCMD then
    let s := genWrite req off v false s
    if v.getLsbD 8 then operationGo req (v.toNat % 8) s else s
  else genWrite req off v (s.flag FRS_CTRL_EN) s

/-- A write to a VLT_ register: the management controller's only (R452). -/
def writeVlt (req off : Nat) (v : Word) (s : State) : State :=
  if req ≠ 1 then werr req off s
  else if off = VLT_LCCMD then lifecycleGo req v.toNat s
  else if off = VLT_TAMPEN then tampenWrite req v.toNat s
  else if (VLT_DIG 0 ≤ off && off < VLT_DIG 8) || (VLT_AUTH 0 ≤ off && off < VLT_OKEY 16) then
    { s with vault.held := mset s.vault.held off v 0 }
  else genWrite req off v false s

/-- A write to an LGC_ register (R403, R405, R406, R408). -/
def writeLgc (req off : Nat) (v : Word) (s : State) : State :=
  let n := v.toNat
  if off < 0xC0100 then s
  else if off < 0xC0800 then
    let b := (off - 0xC0100) / 0x100
    let r := off - LGC_BCTRL b
    let t := (r - 0x20) / 0x20
    if 4 ≤ b then s
    else if r = 0 then
      if !v.getLsbD 0 then lgcBankOff b s
      else if s.on (dCL b) then s.setF (LGC_BCTRL_EN b) 1 else werr req off s
    else if off = LGC_TCTRL b t then
      let k := 4 * b + t
      let s := if v.getLsbD 0 then lgcEnable k (s.engState k == 1) s else lgcDisable k s
      if v.getLsbD 1 then lgcFlush k s else s
    else if off = LGC_TPERIOD b t then checkedWrite req off v (s.lgcEn (4 * b + t)) (decide (20 ≤ n)) s
    else genWrite req off v false s
  else
    let c := (off - 0xC0800) / 0x20
    if off = LGC_CCFG c then checkedWrite req off v (s.lgcEn (s.f (LGC_CCFG_TIMER c))) (decide (n % 8 ≤ 4)) s
    else if off = LGC_CWIDTH c then checkedWrite req off v false (decide (1 ≤ n) && decide (n < 2 ^ 24)) s
    else genWrite req off v false s

/-- A write to LAN_MBCTL: H2M_SEND, then M2H_ACK (R401). -/
def mailboxCtl (req : Nat) (v : Word) (s : State) : State :=
  let s := if v.getLsbD 0 then
      if s.flag LAN_MBSTAT_H2M_FULL || s.f LAN_H2MLEN_LEN == 0 then werr req LAN_MBCTL s else s.setF LAN_MBSTAT_H2M_FULL 1
    else s
  if v.getLsbD 1 then s.setF LAN_MBSTAT_M2H_FULL 0 else s

/-- A write to a LAN_ register (R401). -/
def writeLan (req off : Nat) (v : Word) (s : State) : State :=
  if off = LAN_MBCTL then mailboxCtl req v s
  else if off = LAN_H2MLEN then checkedWrite req off v false (!s.flag LAN_MBSTAT_H2M_FULL && decide (v.toNat % 128 ≤ 64)) s
  else if LAN_H2M 0 ≤ off && off < LAN_H2M 16 then checkedWrite req off v false (!s.flag LAN_MBSTAT_H2M_FULL) s
  else genWrite req off v false s

/-! ### The write of one register, and of a 64-bit quantity -/

/-- A write of the register at an offset, which answers, in one Mast cycle (R10, R537). -/
def putWord (req off : Nat) (v : Word) (s : State) : State :=
  if off / 0x10000 = 14 then (if off < 0xE0400 then msixWrite (off - 0xE0000) v s else s)
  else if (rowAt off).isNone then s
  else match off / 0x10000 with
    | 0 => writeGlb req off v s
    | 1 => writeMst req off v s
    | 2 => writeRig req off v s
    | 3 => writeHly req off v s
    | 4 => writeSag req off v s
    | 5 => writeWhl req off v s
    | 6 => writeShv req off v s
    | 7 => writeSty req off v s
    | 8 => writePrt req off v s
    | 9 => writeCoil req off v s
    | 10 => writeFrs req off v s
    | 11 => writeVlt req off v s
    | 12 => writeLgc req off v s
    | 15 => writeLan req off v s
    | _ => s

/-- The 64 bits that a write of one part of the quantity at q builds on: a load or compare write that waits for its sample
boundary, else what the quantity holds (R54, R275, R281). -/
def State.wideBase (s : State) (q : Nat) : DWord :=
  if q / 0x10000 ≠ 6 then s.live64 q
  else
    let u := (q - 0x60000) / 0x800
    let x := s.sheave u
    if q = SHV_POS u then (x.load.map (BitVec.ofNat 64)).getD (s.live64 q)
    else (x.cmpw.lookup ((q - SHV_CMPVAL u 0) / 16)).getD (s.live64 q)

/-- The quantity at q is written, the parts of a mask taken from v and the others as they are (R53, R54). -/
def writeWide (req q : Nat) (m v : DWord) (s : State) : State :=
  let n := ((s.wideBase q &&& ~~~m) ||| (v &&& m)).toNat
  let put := fun (s : State) => s.setReg64 q n
  if q = MST_SET then (if s.flag MST_CTRL_RUN then werr req q s else put s)
  else match q / 0x10000 with
    | 3 => cdescWrite req ((q - 0x31000) / 0x40) n s
    | 6 =>
      let u := (q - 0x60000) / 0x800
      if q = SHV_POS u then positionLoad u n s else compareValue u ((q - SHV_CMPVAL u 0) / 16) n s
    | 8 =>
      let p := (q - 0x80000) / 0x100
      if q = PRT_CNT p then ctrApply p 1 (.load n) s
      else if q = PRT_RLD p then ctrApply p 1 (.rld n) s
      else ctrApply p 1 (.cmp n) s
    | 9 =>
      let e := (q - 0x90000) / 0x400
      checkpointWrite req e ((q - COIL_GREG e 0) / 8) (BitVec.ofNat 64 n) s
    | _ => put s

/-- A 64-bit quantity that is written whole: RW or RWL (R53). -/
def wideRw (off : Nat) : Option Nat := match rowAt off with
  | some (r, p) => if r.wide && (r.rw != 0 || r.rwl != 0) then some (off - 4 * p) else none
  | none => none

/-- A part of a 64-bit quantity, the high or the low one, as mask and value. -/
def partMask (hi : Bool) : DWord := if hi then 0xFFFFFFFF00000000 else 0xFFFFFFFF
def partVal (hi : Bool) (v : Word) : DWord := if hi then v ++ 0#32 else 0#32 ++ v

/-- A write of one part of the quantity at q in latch mode: held, or with the highest part the whole (R53). -/
def latchedWrite (req q : Nat) (hi : Bool) (v : Word) (s : State) : State :=
  let x := s.shadow req q
  let x := if x.qty = some q then x else { qty := some q }
  if hi then
    let s := if x.wmask = 0 then s else setShadow req q { x with wval := 0, wmask := 0 } s
    writeWide req q (x.wmask ||| partMask true) (x.wval ||| partVal true v) s
  else setShadow req q { x with wval := partVal false v, wmask := partMask false } s

/-- A write of one register by a requester: refused where the block does not answer (R379), held or performed by the
wide-read mode for a part of a wide quantity (R53, R54), else performed. -/
def regWrite (req off : Nat) (v : Word) (s : State) : State :=
  if !s.answers off then werr req off s
  else match wideRw off with
    | some q =>
      if s.latchMode off && decide (req < 2) then latchedWrite req q (off != q) v s
      else writeWide req q (partMask (off != q)) (partVal (off != q) v) s
    | none => putWord req off v s

/-- A write of the two registers at an 8-byte-aligned offset in one cycle, by an engine or Halyard (R51, R317); one of a
route entry with an invalid DST is ignored in full (R314). -/
def regWrite64 (req off : Nat) (v : DWord) (s : State) : State :=
  match wideRw off with
  | some q => if s.answers off then writeWide req q (-1) v s else werr req off s
  | none =>
    if badRoute off (v.extractLsb' 0 32).toNat && s.answers off then werr req off s
    else regWrite req (off + 4) (v.extractLsb' 32 32) (regWrite req off (v.setWidth 32) s)

/-- A register write by software: one to a field-die block waits in the proxy while the link retrains (R502). -/
def softWrite (req off : Nat) (v : Word) (s : State) : State :=
  if s.proxyWaits off then { s with stay.proxy := s.stay.proxy ++ [(req, off, v)] } else regWrite req off v s

/-- The word whose write leaves the settings of a register as they are: its RW and RWL bits as they stand, its RWS bits as
staged, and zero elsewhere (R10). -/
def State.kept (s : State) (off : Nat) : Word := match rowAt off with
  | some (r, p) =>
    (s.reg off &&& BitVec.ofNat 32 (partOf (r.rw ||| r.rwl) p)) ||| (s.stg off &&& BitVec.ofNat 32 (partOf r.rws p))
  | none => 0

/-- A write of a value to one field of a register, with its other settings as they are. -/
def setField (req : Nat) (F : Fld) (v : Nat) (s : State) : State :=
  softWrite req F.off (BitVec.ofNat 32 (setBits (s.kept F.off).toNat F.lo F.w v)) s

end Sys2Proof.Machine
end

