-- ==== Sys2Proof/Machine/HalyardBus.lean ====
section
/-! DEFINITION. What Halyard's transactions and the engines' far accesses do when they are granted or return (R109,
R110, R325, R326, R330 to R333, R364). -/

namespace Sys2Proof.Machine

open Sys2Proof Reg

/-- The bank that has granted all beats of the request of this use. -/
def State.servedAt (s : State) (u : BankUse) : Option Nat :=
  (List.range 9).find? fun b => (s.bank b).served.any fun q => q.use == u

/-- The bank that has performed all beats of the request of this use by the end of the present Mast cycle. -/
def State.doneAt (s : State) (u : BankUse) : Option Nat :=
  (List.range 9).find? fun b => (s.bank b).served.any fun q => q.use == u && decide (q.fin ≤ 4 * s.mc + 4)

/-- Take the granted request of this use off bank b. -/
def takeServed (b : Nat) (u : BankUse) (s : State) : State :=
  s.modBank b fun x => { x with served := x.served.filter fun q => q.use != u }

/-- The 64 bits of the register block at an offset as an engine or Halyard reads them, one beat (R51, R379). -/
def State.beat64 (s : State) (off : Nat) : DWord := if s.readable off then s.live64 off else -1

/-- Bytes that a write by requester req to bank b leaves out because a tracker learns there (R219). -/
def unlocked (req b r a : Nat) (l : List Byte) (s : State) : State :=
  let bad := fun x : Nat => s.ttLocked x 1
  let d := l.zipIdx.map fun p => if bad (a + p.2) then none else some p.1
  let s := if d.any Option.isNone then werr req (0x80000000 + a) s else s
  bankWrite b r a d s

/-! ### Halyard (R325 to R333) -/

/-- A read, fetch or flush read ends: with a bus error of a kind, or with its data. What belongs to a disabled channel is
dropped, and what a bus error has orphaned is discarded (R332, R335). -/
def xactReturn (x : Xact) (kind addr : Nat) (l : List Byte) (s : State) : State :=
  let s := freeXact x s
  if x.gone then s
  else if kind ≠ 0 then busError x kind addr s
  else if x.dead then s
  else match x.kind with
    | .flush => chanAdvance x.ch (modDesc x.ch x.desc (fun d => { d with flushed := 3 }) s)
    | _ => dataBack x l s

/-- The bus error of a completion status: 0 successful, 1 Unsupported Request, 2 Completer Abort, 3 poisoned (R331). -/
def cplKind (status : Nat) : Nat := match status with
  | 0 => 0 | 1 => 3 | 2 => 3 | _ => 5

/-- The 8-byte beat of the first word with an uncorrectable error that a read meets (R339). -/
def State.badBeat (s : State) (b a n : Nat) : Nat :=
  (((wordsAt (eccSize b) a n).find? fun w => s.wordErr w == 2).getD a) / 8 * 8

/-- The first 8-byte beat of a write that touches a protected image (R339). -/
def State.guardedBeat (s : State) (a n : Nat) : Nat :=
  a + 8 * ((List.range (n / 8)).find? fun i => s.guardedRange (a + 8 * i) 8).getD 0

/-- READ_RETURN: the data of a read or a fetch returns, from a bank that has granted it, from a register block, or from the
host with a completion status and its bytes (R325, R331). -/
def readReturn (id status : Nat) (data : List Byte) (s : State) : State :=
  match s.hly.xacts.find? fun x => x.id == id with
  | none => s
  | some x =>
    if x.kind = .write then s
    else if hostBit ≤ x.addr then
      if x.kind = .flush && status = 0 then s
      else if status = 0 && data.length ≠ x.len then s
      else xactReturn x (cplKind status) x.addr data (if status = 3 then aerNote 12 s else s)
    else if 0x80000000 ≤ x.addr then
      if s.proxyWaits (x.addr - 0x80000000) then s
      else xactReturn x 0 x.addr (leBytes 8 (s.beat64 (x.addr - 0x80000000)).toNat) s
    else match s.doneAt (.dma id) with
      | none => s
      | some b =>
        let r := bankRead b 5 x.addr x.len (takeServed b (.dma id) s)
        xactReturn x (if r.2.1 then 1 else 0) (s.badBeat b x.addr x.len) r.1 r.2.2

/-- What a write goes to, as far as the order of one channel's writes goes: the host link, a register block, or a bank (R328). -/
def Xact.place (x : Xact) : Nat :=
  if hostBit ≤ x.addr then 0
  else if 0x80000000 ≤ x.addr then 100 + (x.addr - 0x80000000) / 0x10000
  else 1 + (bankOf x.addr).getD 9

/-- A write of the same channel to the same place, issued before x, has not been performed (R328). -/
def State.writeBefore (s : State) (x : Xact) : Bool :=
  (s.hly.xacts.takeWhile fun y => y.id != x.id).any fun y => y.ch == x.ch && y.kind == .write && y.place == x.place

/-- A write has been performed, or met a bus error. -/
def xactWritten (x : Xact) (kind addr : Nat) (s : State) : State :=
  let s := freeXact x s
  if kind = 0 then chanAdvance x.ch s else busError x kind addr s

/-- WRITE_PERFORMED: a bank or a register block performs a write, or the endpoint accepts it (R326), one channel's writes to one
place in the order in which they issued (R328). A write that touches
a protected image is a bus error, and writes nothing (R134, R331). -/
def writePerformed (id : Nat) (s : State) : State :=
  match s.hly.xacts.find? fun x => x.id == id with
  | none => s
  | some x =>
    if x.kind ≠ .write || s.writeBefore x then s
    else if hostBit ≤ x.addr then
      xactWritten x 0 x.addr (hostSend (.write (x.addr - hostBit) x.data) s)
    else if 0x80000000 ≤ x.addr then
      if s.proxyWaits (x.addr - 0x80000000) then s
      else xactWritten x 0 x.addr (regWrite64 3 (x.addr - 0x80000000) (BitVec.ofNat 64 (leNat x.data)) s)
    else match s.doneAt (.dma id) with
      | none => s
      | some b =>
        let s := takeServed b (.dma id) s
        if s.guardedRange x.addr x.data.length then xactWritten x 2 (s.guardedBeat x.addr x.data.length) s
        else xactWritten x 0 x.addr (unlocked 3 b 5 x.addr x.data s)

/-- FLUSH_RETURN: the flush read of a barrier returns without error (R330). -/
def flushReturn (id : Nat) (s : State) : State :=
  match s.hly.xacts.find? fun x => x.id == id && x.kind == .flush with
  | none => s
  | some x => xactReturn x 0 x.addr [] s

/-- COMPLETION_TIMEOUT: a host read receives no completion in time (R331). -/
def completionTimeout (id : Nat) (s : State) : State :=
  match s.hly.xacts.find? fun x => x.id == id && x.kind != .write && decide (hostBit ≤ x.addr) with
  | none => s
  | some x => xactReturn x 4 x.addr [] (aerNote 14 s)

/-! ### Far accesses (R109, R110) -/

/-- A far access ends g engine cycles after its issue, and the instruction completes n cycles later. -/
def farEnd (e : Nat) (r : Run) (g n : Nat) (s : State) : State := advance e { r with far := none } (g + n) (r.pc + 4) s

/-- A granted far load has read v: it is traced and written, and the instruction completes. -/
def farLoaded (e : Nat) (r : Run) (f : Far) (g n v : Nat) (s : State) : State :=
  let s := traceEntry e (pcOff (s.eng e) r) (r.ec + g + n) g 5 s
  farEnd e r g n (s.modEng e (loadRegs f.reg f.size f.sgn f.pair v))

/-- The far access of engine e at a register, granted g engine cycles after its issue. -/
def farRegister (e : Nat) (r : Run) (f : Far) (g n : Nat) (s : State) : State :=
  let off := f.addr - 0x80000000
  let w := accWidth f.size f.pair
  if f.store then
    let v := leNat (storeBytes (s.eng e) f.reg f.size f.pair)
    let s := traceEntry e (pcOff (s.eng e) r) (r.ec + g + n) g 5 s
    let s := if w = 8 then regWrite64 2 off (BitVec.ofNat 64 v) s else regWrite 2 off (BitVec.ofNat 32 v) s
    match (s.eng e).run with
    | some r' => if r'.far = some f then farEnd e r' g n s else s
    | none => s
  else
    let v := if w = 8 then (s.beat64 off).toNat else if s.readable off then (s.live off).toNat else 2 ^ 32 - 1
    farLoaded e r f g n v s

/-- The far access of engine e at bank b, granted g engine cycles after its issue. -/
def farBank (e b : Nat) (r : Run) (f : Far) (g n : Nat) (s : State) : State :=
  let rq := 1 + s.rights e / 4 % 4
  if f.store then
    let s := traceEntry e (pcOff (s.eng e) r) (r.ec + g + n) g 5 s
    farEnd e r g n (unlocked 2 b rq f.addr (storeBytes (s.eng e) f.reg f.size f.pair) s)
  else
    let (d, bad, s) := bankRead b rq f.addr (accWidth f.size f.pair) s
    if !bad then farLoaded e r f g n (leNat d) s
    else if r.intime (s.eng e) (g + n) then runFault e r 6 (g + n) s
    else farEnd e r g n s

/-- FAR_ACCESS_GRANT: the far access of engine e is performed, and completes n engine cycles, at most 24, after its grant.
A bank's arbiter has fixed the grant cycle; a register is granted g cycles after the issue, inside the window. -/
def farGrant (e g n : Nat) (s : State) : State :=
  match (s.eng e).run with
  | none => s
  | some r => match r.far with
    | none => s
    | some f =>
      if 0x80000000 ≤ f.addr then
        if g < f.win && decide (f.c0 + g ≤ s.ecNow) then farRegister e r f g n s else s
      else match s.servedAt (.far e) with
        | none => s
        | some b =>
          let g := ((((s.bank b).served.find? fun q => q.use == .far e).bind (·.first)).getD f.c0) - f.c0
          farBank e b r f g n (takeServed b (.far e) s)

/-- FAR_ACCESS_WITHDRAW: the window of engine e's far access has passed without a grant (R109); its wait is its whole
stay at the bank (R372). -/
def farWithdraw (e : Nat) (s : State) : State :=
  match (s.eng e).run with
  | none => s
  | some r => match r.far with
    | none => s
    | some f =>
      if decide (s.ecNow < f.c0 + f.win) || (s.servedAt (.far e)).isSome then s
      else
        let s := match bankOf f.addr with
          | some b => if f.addr < 0x80000000 then noteWait b (1 + s.rights e / 4 % 4) (f.win - 1) s else s
          | none => s
        let s := setEstat e 0 (traceEntry e (pcOff (s.eng e) r) (r.ec + f.win) 0xFF 5 (dropFar e s))
        let s := if f.store then s else s.modEng e fun x =>
          let x := x.setR f.reg 0
          if f.pair then x.setR (f.reg + 1) 0 else x
        farEnd e r f.win 0 s

end Sys2Proof.Machine
end

