-- ==== Sys2Proof/Machine/HostLink.lean ====
section
/-! DEFINITION. The host's requests to BAR0, BAR2 and the configuration space, and the events of the host link (R346, R356,
R373 to R382, R422). -/

namespace Sys2Proof.Machine

open Sys2Proof Reg

/-- The endpoint answers memory requests (R381, R382); Memory Space Enable is that of the PCI Express base specification. -/
def State.hostUp (s : State) : Bool := s.on dHOST && s.ep.linkUp && !s.ep.d3

/-- A register access goes through the field-die proxy: its block answers, or the link retrains (R379, R502). -/
def State.byProxy (s : State) (off : Nat) : Bool := fieldReg off && (s.answers off || s.proxyWaits off)

/-! ### BAR0 (R377 to R379) -/

/-- The data of a read of n registers: one through the host's shadow, two as one sample (R51, R52, R377, R379). -/
def hostRegs (off n : Nat) (s : State) : List Byte × State :=
  if n = 1 then
    let (w, s) := readReg 0 off s
    (leBytes 4 w.toNat, s)
  else (((List.range n).flatMap fun i => leBytes 4 (if s.readable (off + 4 * i) then s.live (off + 4 * i) else 0xFFFFFFFF).toNat), s)

/-- Writes of consecutive registers in order, each by its own rules (R10, R53, R54). -/
def storeEach (off : Nat) : List Word → State → State
  | [], s => s
  | v :: l, s => storeEach (off + 4) l (regWrite 0 off v s)

/-- A host write of one register, or of two in one cycle: a route entry with an invalid DST is refused as a whole (R314,
R377). -/
def hostStores (off : Nat) (l : List Word) (s : State) : State :=
  if 2 ≤ l.length && (l.head?.any fun v => badRoute off v.toNat) && s.answers off then werr 0 off s else storeEach off l s

/-! ### BAR2 (R345, R346, R356) -/

/-- The enabled bytes of an alias access are contiguous and 1 to 8 (R356). -/
def aliasOk (d : List (Option Byte)) : Bool :=
  let on := d.map Option.isSome
  let body := ((on.dropWhile (!·)).reverse.dropWhile (!·))
  decide (1 ≤ body.length) && decide (body.length ≤ 8) && body.all id

/-- The enabled bytes of an alias access: how many bytes lie before them, and the bytes. -/
def aliasBytes (d : List (Option Byte)) : Nat × List (Option Byte) :=
  ((d.takeWhile Option.isNone).length, d.filter Option.isSome)

/-- An alias write enters the queue of the bank that performs it; where no bank does, it is refused if a byte of it lies in a
memory, and ignored in a hole (R346, R356). -/
def postAlias (a : Nat) (d : List (Option Byte)) (s : State) : State :=
  if !aliasOk d then werr 0 (bar2Ref a true) s
  else
    let (k, d) := aliasBytes d
    match s.aliasBank true (a + k) d.length with
    | some b => postReq b { r := hostReq b, stamp := 4 * s.mc, use := .hostWrite (a + k) d true } s
    | none => if (aliasParts (a + k) d.length).any fun p => (hostBank p.1).isSome then werr 0 (bar2Ref a true) s else s

/-- A BAR2 write enters its bank's queue, or is ignored (R346, R356). -/
def postWrite (a : Nat) (d : List (Option Byte)) (al : Bool) (s : State) : State :=
  if al then postAlias a d s
  else match hostBank a with
    | none => s
    | some b =>
      if b = 5 || !s.on (bankDom b) then werr 0 (bar2Ref a al) s
      else if d = [] then s
      else postReq b { r := hostReq b, stamp := 4 * s.mc, beats := linesOf a d.length, use := .hostWrite a d al } s

/-- A BAR2 read enters its bank's queue, or completes at once (R346, R356). -/
def postRead (tag a len since : Nat) (al : Bool) (s : State) : State :=
  match (if al then s.aliasBank false a len else (hostBank a).filter fun b => s.on (bankDom b)) with
  | some b => postReq b { r := hostReq b, stamp := 4 * s.mc, beats := if al then 1 else linesOf a len,
                          use := .hostRead tag a len since al } s
  | none =>
    let parts := if al then aliasParts a len else [(a, len)]
    completeRead a { tag := tag, data := parts.flatMap fun p => List.replicate p.2 (if (hostBank p.1).isSome then 0xFF else 0) } s

/-! ### The order of host requests (R378) -/

/-- A BAR2 write waits at a bank. -/
def State.writesWait (s : State) : Bool :=
  s.banks.any fun p => p.2.pend.any fun q => match q.use with | .hostWrite _ _ _ => true | .table r _ _ => r == 0 | _ => false

/-- Perform a request that is at the head of the endpoint's queue. -/
def hostDo (o : HostOp) (s : State) : State := match o with
  | .regRead tag off n =>
    let (d, s) := hostRegs off n s
    complete { tag := tag, data := d } s
  | .regWrite off l => hostStores off l s
  | .memRead tag a len since al => postRead tag a len since al s
  | .memWrite a d al => postWrite a d al s

/-- The head of the queue can be performed by the endpoint alone: field-die registers go through the proxy, and a read waits
for the writes before it (R378, R379). -/
def State.hostReady (s : State) : HostOp → Bool
  | .regRead _ off _ => !s.byProxy off && !s.writesWait
  | .regWrite off _ => !s.byProxy off
  | .memRead _ _ _ _ _ => !s.writesWait
  | .memWrite _ _ _ => true

/-- Perform up to n requests of the endpoint's queue, in order, as far as they go. -/
def drainHost : Nat → State → State
  | 0, s => s
  | n + 1, s => match s.ep.queue with
    | [] => s
    | o :: l => if s.hostReady o then drainHost n (hostDo o { s with ep.queue := l }) else s

/-- A request is posted: a write. -/
def HostOp.posted : HostOp → Bool
  | .regWrite _ _ => true
  | .memWrite _ _ _ => true
  | _ => false

/-- The posted writes that wait in the endpoint: in its queue, and at the banks (R380). -/
def State.postedWait (s : State) : Nat :=
  (s.ep.queue.filter HostOp.posted).length +
    (s.banks.map fun p => (p.2.pend.filter fun q => match q.use with | .hostWrite _ _ _ => true | _ => false).length).sum

/-- Take up to n requests off the link as the posted buffer of 32 has room; a posted request that finds it full holds what
comes after it (R380). -/
def admitHost : Nat → State → State
  | 0, s => s
  | n + 1, s => match s.ep.held with
    | [] => s
    | o :: l =>
      if o.posted && decide (32 ≤ s.postedWait) then s
      else
        let s := { s with ep.queue := s.ep.queue ++ [o], ep.held := l }
        admitHost n (drainHost s.ep.queue.length s)

/-- The endpoint's queue moves on, and requests that the link has held follow. -/
def hostGoOn (s : State) : State :=
  let s := drainHost s.ep.queue.length s
  admitHost s.ep.held.length s

/-- The attributes of a read that reaches the endpoint are kept for its completion (R376). -/
def asking (tag : Nat) (attr : ReqAttr) (s : State) : State :=
  if s.hostUp then { s with ep.asked := mset s.ep.asked tag attr {} } else s

/-- A host memory request reaches the endpoint: with Memory Space Enable clear it is an unsupported request. -/
def hostTake (tag : Option Nat) (o : HostOp) (s : State) : State :=
  if !s.hostUp then s
  else if !s.ep.memEn then (match tag with | some t => complete { tag := t, status := .ur } s | none => aerNote 20 s)
  else hostGoOn { s with ep.held := s.ep.held ++ [o] }

/-- BAR0_READ_REQUEST: n registers at an offset; n = 0 is a zero-length read (R377). -/
def bar0Read (tag off n : Nat) (s : State) : State :=
  if !s.hostUp then s
  else if s.ep.memEn && n = 0 then complete { tag := tag, data := List.replicate 4 0 } s
  else if s.ep.memEn && !((n = 1 && off % 4 = 0) || (n = 2 && off % 8 = 0)) then complete { tag := tag, status := .ur } s
  else hostTake (some tag) (.regRead tag off n) s

/-- BAR0_WRITE_REQUEST: registers at an offset; full tells that every byte enable is set (R377). -/
def bar0Write (off : Nat) (l : List Word) (full : Bool) (s : State) : State :=
  if !s.hostUp then s
  else if !s.ep.memEn then aerNote 20 s
  else if !full || !((l.length = 1 && off % 4 = 0) || (l.length = 2 && off % 8 = 0)) then werr 0 off s
  else hostTake none (.regWrite off l) s

/-- HOST_MEM_READ (R346). -/
def hostMemRead (tag a len : Nat) (s : State) : State := hostTake (some tag) (.memRead tag a len s.mc false) s

/-- HOST_MEM_WRITE: bytes with their enables (R346). -/
def hostMemWrite (a : Nat) (d : List (Option Byte)) (s : State) : State := hostTake none (.memWrite a d false) s

/-- HOST_ALIAS_ACCESS: a read of the enabled bytes, or a write of them (R355, R356). -/
def hostAlias (tag : Nat) (write : Bool) (a : Nat) (d : List (Option Byte)) (s : State) : State :=
  if write then hostTake none (.memWrite a d true) s
  else if s.hostUp && s.ep.memEn && !aliasOk d then complete { tag := tag, status := .ur } s
  else
    let x := aliasBytes d
    hostTake (some tag) (.memRead tag (a + x.1) x.2.length s.mc true) s

/-- FIELD_PROXY_ACCESS: the field-die proxy performs the access at the head of the queue (R378, R379). -/
def proxyAccess (s : State) : State :=
  match s.ep.queue with
  | .regRead tag off n :: l =>
    if s.answers off && fieldReg off && !s.writesWait then hostGoOn (hostDo (.regRead tag off n) { s with ep.queue := l }) else s
  | .regWrite off v :: l =>
    if s.answers off && fieldReg off then hostGoOn (hostDo (.regWrite off v) { s with ep.queue := l }) else s
  | _ => s

/-- BANK_DECISION in engine cycle q of the present Mast cycle; a write it performs lets the endpoint's queue move on
(R360, R378). -/
def bankDecision (b q : Nat) (s : State) : State := hostGoOn (bankDecide b (4 * s.mc + q) s)

/-- HOST_READ_TIMEOUT: a BAR2 read that no bank has granted 40 µs after its arrival (R380). -/
def hostReadTimeout (tag : Nat) (s : State) : State :=
  let late := fun since => decide (since + 8000 ≤ s.mc)
  let inQ := fun o : HostOp => match o with | .memRead t _ _ since _ => t == tag && late since | _ => false
  let atB := fun q : BankReq => q.first.isNone && match q.use with | .hostRead t _ _ since _ => t == tag && late since | _ => false
  if (s.ep.queue ++ s.ep.held).any inQ then
    complete { tag := tag, status := .ca } { s with ep.queue := s.ep.queue.filter (!inQ ·), ep.held := s.ep.held.filter (!inQ ·) }
  else match (List.range 9).find? fun b => (s.bank b).pend.any atB with
    | some b => complete { tag := tag, status := .ca } (withdraw b atB s)
    | none => s

/-! ### The configuration space (R374, R375, R381, R382, R422) -/

/-- Log2 of a payload or request size over 128. -/
def sizeCode (n : Nat) : Nat := match n with | 128 => 0 | 256 => 1 | 512 => 2 | 1024 => 3 | 2048 => 4 | _ => 5

/-- The low bits of a BAR that its type fixes, and the lowest bit that the host can write (R375). -/
def barFixed (n : Nat) : Nat := match n with | 0 => 4 | 2 => 0xC | _ => 0
def barLow (n : Nat) : Nat := match n with | 0 => 24 | 1 => 0 | 2 => 26 | 3 => 0 | _ => 32

/-- A configuration register as it reads; bits that the spec does not describe read 0. No_Soft_Reset reads 1; Device Capabilities
show 256 bytes, 8-bit tags and Function Level Reset; Link Capabilities 8.0 GT/s, x4 and L1; Link Control an RCB of 64 bytes
(R373, R375, R382). -/
def State.cfgRead (s : State) : CfgReg → Nat
  | .id => 0x64801F2C
  | .command => (if s.ep.memEn then 2 else 0) + (if s.ep.busMaster then 4 else 0)
  | .classRev => 0x118000B0
  | .bar n => mget s.ep.bars n.val 0 + barFixed n.val
  | .subsystem => s.boot.subid * 65536 + s.boot.subvid
  | .serialLo => Config.serial.toNat % 2 ^ 32
  | .serialHi => Config.serial.toNat / 2 ^ 32
  | .deviceControl => sizeCode s.ep.mps * 32 + sizeCode s.ep.mrrs * 4096
  | .msixControl => 63 + (if s.ep.funcMask then 0x4000 else 0) + (if s.ep.msixEn then 0x8000 else 0)
  | .pmControl => (if s.ep.d3 then 3 else 0) + 8
  | .interrupt => 0
  | .deviceCaps => 1 + 2 ^ 5 + 2 ^ 28
  | .linkCaps => 3 + 4 * 2 ^ 4 + 2 * 2 ^ 10
  | .linkControl => (if s.ep.aspmL1 then 2 else 0) + (if s.ep.linkUp then (s.ep.rate + 1 + 2 ^ s.ep.lanes * 2 ^ 4) * 2 ^ 16 else 0)
  | .msixTable => 0xE0000
  | .msixPba => 0xE0800
  | .pmCaps => 1
  | .aer n => match n.val with
    | 0 => 1
    | 1 => s.ep.aer.unc
    | 2 => s.ep.aer.uncMask
    | 3 => s.ep.aer.uncSev
    | 4 => s.ep.aer.corr
    | 5 => s.ep.aer.corrMask
    | _ => s.ep.aer.first

/-- The bits of the uncorrectable and of the correctable error registers. PRESUMED: those of the PCI Express base specification. -/
def aerUncBits : Nat := 0x1FF030
def aerCorrBits : Nat := 0x31C1

/-- A write of register n of Advanced Error Reporting: the status registers clear by ones (R373). -/
def Aer.write (n v : Nat) (a : Aer) : Aer := match n with
  | 1 => { a with unc := a.unc &&& (2 ^ 32 - 1 - v % 2 ^ 32) }
  | 2 => { a with uncMask := v &&& aerUncBits }
  | 3 => { a with uncSev := v &&& aerUncBits }
  | 4 => { a with corr := a.corr &&& (2 ^ 32 - 1 - v % 2 ^ 32) }
  | 5 => { a with corrMask := v &&& aerCorrBits }
  | _ => a

/-- A write of a configuration register. -/
def cfgWrite (r : CfgReg) (v : Nat) (s : State) : State := match r with
  | .command => { s with ep.memEn := v.testBit 1, ep.busMaster := v.testBit 2 }
  | .bar n => { s with ep.bars := mset s.ep.bars n.val (v % 2 ^ 32 / 2 ^ barLow n.val * 2 ^ barLow n.val) 0 }
  | .deviceControl =>
    if v.testBit 15 then hostReset 3 s
    else { s with ep.mps := if bitsOf v 5 3 = 0 then 128 else 256, ep.mrrs := 128 * 2 ^ min 5 (bitsOf v 12 3) }
  | .msixControl =>
    let s := { s with ep.funcMask := v.testBit 14, ep.msixEn := v.testBit 15 }
    (List.range 64).foldl (fun s n => sendPending n s) s
  | .linkControl => { s with ep.aspmL1 := v.testBit 1 }
  | .aer n => { s with ep.aer := s.ep.aer.write n.val v }
  | .pmControl => if bitsOf v 0 2 = 3 then { s with ep.d3 := true } else if bitsOf v 0 2 = 0 then { s with ep.d3 := false } else s
  | _ => s

/-- CONFIG_REQUEST: a read, or a write of a value; until the first pass 1 has ended it is answered with retry status
(R422). A write assigns the function the ID by which it is routed (R376; PCI Express base specification). -/
def configRequest (tag : Nat) (attr : ReqAttr) (routing : Fin (2 ^ 16)) (r : CfgReg) (v : Option Word) (s : State) : State :=
  let back := fun (c : Cpl) (s : State) => complete c { s with ep.asked := mset s.ep.asked tag attr {} }
  if !s.on dHOST || !s.ep.linkUp then s
  else if !s.boot.answers then back { tag := tag, status := .crs } s
  else match v with
    | none => back { tag := tag, data := leBytes 4 (s.cfgRead r) } s
    | some w => back { tag := tag } (cfgWrite r w.toNat { s with ep.rid := routing })

/-! ### Events of the link (R381, R382) -/

/-- HOST_LINK_RESET: 1 PERST, 2 hot reset, 3 Function Level Reset, 4 link down (R381, R399). -/
def hostLinkReset (k : Nat) (s : State) : State := if s.on dHOST then hostReset k s else s

/-- PCIE_LINK_UP: the link has trained, at a rate and a width of R373 that the other end shares: free values (R381; log
entry 88). -/
def pcieLinkUp (s : State) : State :=
  if s.on dHOST then
    { s.draw.draw with ep.linkUp := true, ep.rate := s.drawn.toNat % 3, ep.lanes := s.draw.drawn.toNat % 3 }
  else s

/-- D3HOT_ENTRY (R382). -/
def d3hotEntry (s : State) : State := if s.on dHOST then { s with ep.d3 := true } else s

end Sys2Proof.Machine
end

