-- ==== Sys2Proof/Machine/Boot.lean ====
section
/-! DEFINITION. Start-up, firing records, replay and the writing of records (R409 to R431). -/

namespace Sys2Proof.Machine

open Sys2Proof Reg

/-! ### The flash and the record in a slot (R410 to R415) -/

/-- A byte of the flash; an unlisted one is erased. -/
def State.flashByte (s : State) (a : Nat) : Byte := mget s.flash a 0xFF
def setFlash (a : Nat) (v : Byte) (s : State) : State := { s with flash := mset s.flash a v 0xFF }

/-- Commands that the controller sends to the flash, as codes with addresses (R409). -/
def flashSend (l : List (Nat × Option Nat)) (s : State) : State := { s with flashOut := s.flashOut ++ l.map fun p => ⟨p.1, p.2⟩ }

/-- The controller reads the flash from these addresses; the first read since t_s releases it from deep power-down (R409). -/
def flashRead (l : List Nat) (s : State) : State :=
  let wake := if s.boot.awake then [] else [(0xAB, none)]
  { flashSend (wake ++ l.map fun a => (0x0B, some a)) s with boot.awake := true }

/-- The erase of a sector begins: write enable, then the erase (R409). -/
def eraseSend (a : Nat) : State → State := flashSend [(0x06, none), (0x20, some a)]

/-- The record of slot x as a read of it returns it, where some bytes, by offset, read otherwise than they are held. -/
def State.asRead (s : State) (x : Nat) (misread : List (Nat × Byte)) : State :=
  misread.foldl (fun s p => setFlash (x * 0x100000 + p.1) p.2 s) s

/-- n bytes from byte o of the record in slot x, 0 slot A and 1 slot B, as bytes and as a number (R410). -/
def State.recBytes (s : State) (x o n : Nat) : List Byte := (List.range n).map fun i => s.flashByte (x * 0x100000 + o + i)
def State.recNat (s : State) (x o n : Nat) : Nat := leNat (s.recBytes x o n)

/-- Fields of the header (R411). -/
def State.recMagic (s : State) (x : Nat) : Bool := s.recNat x 0 4 == 0x6480F12E
def State.recSeq (s : State) (x : Nat) : Nat := s.recNat x 8 4
def State.recLen (s : State) (x : Nat) : Nat := s.recNat x 12 4
def State.recDomains (s : State) (x : Nat) : Nat := s.recNat x 16 2

/-- Every field of the header meets R411. -/
def State.headerForm (s : State) (x : Nat) : Bool :=
  let len := s.recLen x
  let dom := s.recDomains x
  s.recMagic x && s.recNat x 4 2 == 1 && decide (s.recNat x 6 2 < 4) &&
  decide (1 ≤ s.recSeq x) && decide (s.recSeq x ≤ 0xFFFFFFFE) &&
  len % 8 == 0 && decide (264 ≤ len) && decide (len ≤ 1048576) &&
  dom % 4 == 3 && decide (dom < 2 ^ 15) && s.recNat x 22 2 == 0 && (s.recBytes x 120 72).all (· == 0)

/-- The header is valid (R413). -/
def State.headerOk (s : State) (x : Nat) : Bool :=
  let key := s.recBytes x 56 64
  s.headerForm x && domSetOk (s.recDomains x) && sha256 key == s.ownerDigest &&
  ecdsaVerify key (sha256 (s.recBytes x 0 192)) (s.recBytes x 192 64)

/-- The body of slot x has the digest of its header (R411). -/
def State.digestOk (s : State) (x : Nat) : Bool :=
  sha256 (s.recBytes x 256 (s.recLen x - 256)) == s.recBytes x 24 32

/-- A section: its type, the offset of its payload and the payload's length (R414). -/
structure Section where
  ty    : Nat
  start : Nat
  len   : Nat
  deriving DecidableEq, Repr

/-- The sections of slot x from an offset up to END, which ends at LEN; none where the chain breaks R414. -/
def State.sections (s : State) (x : Nat) : Nat → Nat → Option (List Section)
  | 0, _ => none
  | n + 1, o =>
    let ty := s.recNat x o 2
    let len := s.recNat x (o + 4) 4
    let stop := o + 8 + len
    if s.recLen x < stop || s.recNat x (o + 2) 2 ≠ 0 || len % 8 ≠ 0 then none
    else if ty = 0 then (if len = 0 && stop = s.recLen x then some [] else none)
    else (s.sections x n stop).map fun l => ⟨ty, o + 8, len⟩ :: l

/-- The sections of the body of slot x. -/
def State.body (s : State) (x : Nat) : Option (List Section) := s.sections x (s.recLen x / 8) 256

/-- A range lies in one bank that a record may write (R396, R415). -/
def memTarget (a n : Nat) : Bool := match bankOf a with
  | some b => (decide (b < 5) || b == 6) && decide (a + n ≤ bankBase b + bankSize b)
  | none => false

/-- A section meets R414 and R415. -/
def State.sectionOk (s : State) (x : Nat) (c : Section) : Bool := match c.ty with
  | 1 => decide (8 ≤ c.len) && (List.range (c.len / 8)).all fun i =>
      let o := s.recNat x (c.start + 8 * i) 4
      o % 4 == 0 && decide (o < 0x1000000) && !(decide (0xB0000 ≤ o) && decide (o < 0xC0000)) &&
      !(decide (0xE0000 ≤ o) && decide (o < 0x100000))
  | 2 => decide (16 ≤ c.len) && s.recNat x c.start 8 % 8 == 0 && memTarget (s.recNat x c.start 8) (c.len - 8)
  | 3 =>
    let n := s.recNat x (c.start + 4) 4
    n % 8 == 0 && decide (8 ≤ n) && decide (n ≤ 49152) && c.len == n + 72
  | _ => false

/-- The body of slot x is well formed (R415). -/
def State.bodyOk (s : State) (x : Nat) : Bool := match s.body x with
  | some l => l.all (s.sectionOk x) && decide ((l.filter fun c => c.ty == 3).length ≤ 1)
  | none => false

/-! ### The items of a record (R416, R417) -/

/-- What pass 2 applies, one item after the other: a REG entry, the part of a MEM section in one chunk and whether it is the
section's first, a firmware image. -/
inductive RecItem where
  | reg (off val : Nat)
  | mem (first : Bool) (addr : Nat) (data : List Byte)
  | fw (start ilen : Nat)
  deriving DecidableEq, Repr

/-- The parts of a MEM section of n data bytes at record offset o for address a: one part for each chunk. -/
def State.memParts (s : State) (x o a n : Nat) : List (Nat × RecItem) :=
  (List.range ((o % 4096 + n + 4095) / 4096)).map fun i =>
    let lo := max o (4096 * (o / 4096 + i))
    let hi := min (o + n) (4096 * (o / 4096 + i + 1))
    (hi - 1, .mem (i == 0) (a + (lo - o)) (s.recBytes x lo (hi - lo)))

/-- The items of a section, each with the record offset of its last byte. -/
def State.sectionItems (s : State) (x : Nat) (c : Section) : List (Nat × RecItem) := match c.ty with
  | 1 => (List.range (c.len / 8)).map fun i =>
      (c.start + 8 * i + 7, .reg (s.recNat x (c.start + 8 * i) 4) (s.recNat x (c.start + 8 * i + 4) 4))
  | 2 => s.memParts x (c.start + 8) (s.recNat x c.start 8) (c.len - 8)
  | 3 => [(c.start + c.len - 1, .fw c.start (s.recNat x (c.start + 4) 4))]
  | _ => []

/-- The items of the body of slot x in record order. -/
def State.items (s : State) (x : Nat) : List (Nat × RecItem) := ((s.body x).getD []).flatMap (s.sectionItems x)

/-! ### The management controller's writes (R395, R396, R417) -/

/-- The controller asks bank b for n bytes at a, once: it is requester MGMT there, k naming what for (R357). -/
def mgmtAsk (k b a n : Nat) (s : State) : State :=
  if (s.bank b).pend.any (fun q => q.use == .mgmt k) || (s.bank b).served.any (fun q => q.use == .mgmt k) then s
  else postReq b { r := 7, stamp := 4 * s.mc, beats := linesOf a n, use := .mgmt k } s

/-- The controller writes bytes of a bank as requester MGMT; bytes of a protected image are not written (R134, R396), nor
entries of a table that a tracker learns (R219). -/
def mgmtStore (a : Nat) (l : List Byte) (s : State) : State := match bankOf a with
  | none => s
  | some b =>
    let d := l.zipIdx.map fun p => if s.guarded (a + p.2) || s.ttLocked (a + p.2) 1 then none else some p.1
    bankWrite b 7 a d s

/-- Bytes of a range lie in a table that a tracker learns, whose writes are refused (R219). -/
def State.ttRefuses (s : State) (a n : Nat) : Bool := (List.range n).any fun i => s.ttLocked (a + i) 1

/-- A write of the controller to a bank that is on, with its refusal (R219, R396). -/
def mgmtPut (a : Nat) (l : List Byte) (s : State) : State :=
  mgmtStore a l (if s.ttRefuses a l.length then werr 1 (0x80000000 + a) s else s)

/-- The refusals that GLB_WERR has recorded in the present cycle. -/
def State.refusals (s : State) : Nat := s.noted GLB_WERR_COUNT

/-- A write of the loader; what the device refuses is counted in GLB_BOOT.REFUSED (R417). -/
def loaderWrite (f : State → State) (s : State) : State :=
  let t := f s
  if s.refusals < t.refusals then t.setF GLB_BOOT_REFUSED (min (t.f GLB_BOOT_REFUSED + (t.refusals - s.refusals)) 0xFF) else t

/-- The signature and version of a firmware image of slot x (R430). -/
def State.fwOk (s : State) (x start ilen : Nat) : Bool :=
  ecdsaVerify Config.firmwareKey (sha256 (s.recBytes x start (ilen + 8))) (s.recBytes x (start + 8 + ilen) 64) &&
  decide (Config.romVersion ≤ s.recNat x start 4)

/-- The engine whose image a REG entry asks to be loaded. -/
def loadEntry (off val : Nat) : Option Nat :=
  if val.testBit 2 then (List.range 17).find? fun e => off == COIL_CTRL e else none

/-- The bank of an item that must be granted before the item is applied: a part of a MEM section, in a bank that is on (R357). -/
def State.itemBank (s : State) : RecItem → Option (Nat × Nat × Nat)
  | .mem _ a l => (bankOf a).bind fun b => if s.on (bankDom b) then some (b, a, l.length) else none
  | _ => none

/-- An item can be applied now: the registers of a REG entry do not wait for the Stay link to retrain (R502), and the part of a MEM
section has its grant. -/
def State.itemReady (s : State) (it : RecItem) : Bool := match it with
  | .reg off _ => !s.proxyWaits off
  | it => match s.itemBank it with
    | some (b, _, _) => s.doneAt (.mgmt 1) == some b
    | none => true

/-- An item that is not ready asks for its bank. -/
def askItem (it : RecItem) (s : State) : State := match s.itemBank it with
  | some (b, a, n) => mgmtAsk 1 b a n s
  | none => s

/-- An item that is ready takes its grant. -/
def takeItem (it : RecItem) (s : State) : State := match s.itemBank it with
  | some (b, _, _) => takeServed b (.mgmt 1) s
  | none => s

/-- The part of a MEM section in one chunk is written as WRITE_MEM does; the section is one write, and its refusal counts once
(R417). -/
def memItem (first : Bool) (a : Nat) (l : List Byte) (s : State) : State :=
  let on := match bankOf a with | some b => s.on (bankDom b) | none => false
  let old := !first && s.boot.refusedMem
  let no := !on || s.ttRefuses a l.length
  let s := if no && !old then loaderWrite (werr 1 (0x80000000 + a)) s else s
  let s := { s with boot.refusedMem := old || no }
  if on then mgmtStore a l s else s

/-- The controller, as its owner, puts bytes into SGM at an offset. DESIGN CHOICE: an accepted firmware image stands at offset
0, the hash of chunk k at 0xC000 + 32 k and the staging buffer, used as a ring, at 0x10000; the spec gives no places in SGM (R416,
R427, R430). -/
def sgmPut (off : Nat) (l : List Byte) (s : State) : State :=
  bankWrite 7 0 (sgmBase + off) (l.map some) (ownerBeats 7 (sgmBase + off) l.length s)

/-- The controller, as its owner, reads SGM: the bytes, whether one has an uncorrectable error, and the state. -/
def sgmGet (off n : Nat) (s : State) : List Byte × Bool × State :=
  bankRead 7 0 (sgmBase + off) n (ownerBeats 7 (sgmBase + off) n s)

/-- One item is applied; fw tells that a firmware image is looked at. A refused LOAD leaves a check result that is not PASS
(R136, R417). -/
def applyItem (x : Nat) (fw : Bool) (it : RecItem) (s : State) : State := match it with
  | .reg off val =>
    let s := loaderWrite (regWrite 1 off (BitVec.ofNat 32 val)) s
    match loadEntry off val with
    | some e => { s with boot.waitFor := some e }
    | none => s
  | .mem first a l => memItem first a l s
  | .fw start ilen =>
    if !fw then s
    else if s.fwOk x start ilen then
      sgmPut 0 (s.recBytes x (start + 8) ilen) { s with boot.fw := some (s.recNat x start 4) }
    else s.setF GLB_BOOT_FWREJ 1

/-- The loader waits for a program check (R417); none where it waits no more, with CHECKFAIL where note is set. -/
def checkWait (note : Bool) (s : State) : Option State := match s.boot.waitFor with
  | none => some s
  | some e =>
    if (s.eng e).check.isSome then none
    else
      let s := { s with boot.waitFor := none }
      some (if note && s.f (COIL_LDSTAT_CODE e) ≠ 0 then s.setF GLB_BOOT_CHECKFAIL 1 else s)

/-- The COMMIT registers in ascending offset. -/
def commitOffs : List Nat := [GLB_COMMIT, KLN_COMMIT, RIG_COMMIT, 0x40040] ++ (List.range 4).map (fun w => 0x50040 + 0x1000 * w) ++
    (List.range 8).map (fun u => 0x60040 + 0x800 * u) ++ (List.range 96).map (fun q => 0x80040 + 0x100 * q) ++
    (List.range 17).map (fun e => 0x90040 + 0x400 * e) ++ [0xA0040]

/-- Some COMMIT register that p names waits for the Stay link to retrain (R502). -/
def State.commitWaits (s : State) (p : Nat → Bool) : Bool := commitOffs.any fun off => p off && s.proxyWaits off

/-- Write 1 to the COMMIT register of every block and instance that has one, that p names and whose domain is on, in
ascending offset (R417, R425). -/
def commitAll (p : Nat → Bool) (s : State) : State :=
  commitOffs.foldl (fun s off => if p off && s.answers off then regWrite 1 off 1 s else s) s

/-! ### Start-up (R416 to R422) -/

/-- MGMT_START: the controller starts, samples the straps and begins start-up (R385, R416, R420, R421). -/
def mgmtStart (spi : Bool) (a : Nat) (s : State) : State :=
  if !s.on 1 || s.boot.phase ≠ .start then s
  else
    let s := vaultStart s
    let s := { s with lan := { spi := spi, addr := a, outs := s.lan.outs }, boot := { phase := .headers } }
    let s := (s.setReg GLB_BOOT 0).setReg GLB_BOOTSEQ 0
    let s := requestSwitch (s.domains ||| 0xC) s
    if s.lc = 1 || s.lc = 2 then s
    else { s.setF GLB_BOOT_RESULT 4 with boot.phase := .run, boot.answers := true }

/-- The next slot in order is tried, or no slot remains (R416, R422). -/
def tryNext (s : State) : State := match s.boot.order with
  | x :: l => { s with boot.phase := .pass1, boot.slot := x, boot.order := l, boot.at_ := 0, boot.asked := false }
  | [] => { s.setF GLB_BOOT_RESULT 3 with boot.phase := .run, boot.answers := true }

/-- RECORD_HEADERS_READ (R416, R419). -/
def headersRead (s : State) : State :=
  if s.boot.phase ≠ .headers then s
  else
    let first := if s.recSeq 0 < s.recSeq 1 then [1, 0] else [0, 1]
    let s := flashRead [0, 0x100000] s
    tryNext { s with boot.order := first.filter s.headerOk, boot.best := (first.filter s.recMagic).head? }

/-- A slot has failed a check (R416, R429). -/
def markBad (x : Nat) (s : State) : State := { s with boot.badS := s.boot.badS ||| 2 ^ x, boot.goodS := setBits s.boot.goodS x 1 0 }

/-- A slot has passed its checks. -/
def markGood (x : Nat) (s : State) : State := { s with boot.goodS := s.boot.goodS ||| 2 ^ x, boot.badS := setBits s.boot.badS x 1 0 }

/-- The number of chunks of the record in slot x, and chunk k of it (R416). -/
def State.chunks (s : State) (x : Nat) : Nat := (s.recLen x + 4095) / 4096
def State.chunkBytes (s : State) (x k : Nat) : List Byte := s.recBytes x (4096 * k) (min 4096 (s.recLen x - 4096 * k))

/-- The place of the hash of chunk k in SGM. -/
def hashAt (k : Nat) : Nat := 0xC000 + 32 * k

/-- Pass 1 records the SHA-256 of each chunk in SGM (R416). -/
def hashChunks (x : Nat) (s : State) : State :=
  (List.range (s.chunks x)).foldl (fun t k => sgmPut (hashAt k) (sha256 (s.chunkBytes x k)) t) s

/-- PASS1_COMPLETE, once SGM has been cleared (R352, R416, R422). -/
def pass1Complete (s : State) : State :=
  if s.boot.phase ≠ .pass1 || !s.bankUp 7 then s
  else
    let x := s.boot.slot
    let s := hashChunks x (flashRead [x * 0x100000 + 256] s)
    if s.digestOk x && s.bodyOk x then
      let s := if s.boot.answers then s
        else { s with boot.answers := true, boot.subvid := s.recNat x 18 2, boot.subid := s.recNat x 20 2 }
      markGood x { s with boot.phase := .pass2, boot.chunk := 0, boot.header := s.recBytes x 0 256 }
    else tryNext (markBad x s)

/-- The abort of a load (R418). -/
def abortLoad (s : State) : State :=
  let s := zeroBank 4 (requestSwitch (s.domains &&& 7) s)
  let s := (s.setF GLB_BOOT_REFUSED 0).setF GLB_BOOT_CHECKFAIL 0
  tryNext (markBad s.boot.slot { s with boot.fw := none, boot.waitFor := none, boot.header := [] })

/-- The domains of a set are on and their banks have cleared (R417). -/
def State.setReady (s : State) (doms : Nat) : Bool :=
  (List.range 15).all fun d => !doms.testBit d || (s.on d && (domBanks d).all fun b => !s.flag (bitFld SAG_BUSY_CLEARING b))

/-- Pass 2 reads the next chunk and compares it with its hash of pass 1: whether they agree. -/
def checkChunk (misread : List (Nat × Byte)) (s : State) : Bool × State :=
  let x := s.boot.slot
  let k := s.boot.chunk
  let (h, bad, t) := sgmGet (hashAt k) 32 (flashRead [x * 0x100000 + 4096 * k] s)
  (!bad && sha256 ((s.asRead x misread).chunkBytes x k) == h, { t with boot.chunk := k + 1 })

/-- The next n chunks are read and compared, up to one that differs. -/
def checkChunks (misread : List (Nat × Byte)) : Nat → State → Bool × State
  | 0, s => (true, s)
  | n + 1, s => match checkChunk misread s with
    | (true, s) => checkChunks misread n s
    | (false, s) => (false, s)

/-- Pass 2 applies items until one lies in a chunk that differs from pass 1, or an engine's check, a grant or the Stay link is
waited for. -/
def applyItems (misread : List (Nat × Byte)) : List (Nat × RecItem) → State → State
  | [], s => match checkWait true s with
    | none => s
    | some s => match checkChunks misread (s.chunks s.boot.slot - s.boot.chunk) s with
      | (true, s) => { s with boot.phase := .commits }
      | (false, s) => abortLoad s
  | (last, it) :: l, s => match checkWait true s with
    | none => s
    | some s => match checkChunks misread (last / 4096 + 1 - s.boot.chunk) s with
      | (true, s) =>
        if s.itemReady it then applyItems misread l (applyItem s.boot.slot true it { takeItem it s with boot.at_ := s.boot.at_ + 1 })
        else askItem it s
      | (false, s) => abortLoad s

/-- RECORD_APPLY: the record's domains are switched on, and pass 2 goes on as far as it can; misread gives the bytes that read
otherwise than the flash holds them (R416, R417). -/
def recordApply (misread : List (Nat × Byte)) (s : State) : State :=
  if s.boot.phase ≠ .pass2 || s.switching || !s.bankUp 7 then s
  else
    let doms := s.recDomains s.boot.slot
    let s := if s.boot.asked then s else { requestSwitch (s.domains ||| doms) s with boot.asked := true }
    if s.switching || !s.setReady doms then s
    else applyItems misread ((s.items s.boot.slot).drop s.boot.at_) s

/-- The load ends: GLB_BOOT and GLB_BOOTSEQ tell what was applied (R416, R419, R420, R430). -/
def loadDone (s : State) : State :=
  let x := s.boot.slot
  let back := s.boot.best ≠ some x
  let s := (s.setF GLB_BOOT_RESULT (if back then 2 else 1)).setF GLB_BOOT_ACTIVE x
  let s := (s.setF GLB_BOOTSEQ_SEQ (s.recSeq x)).setF GLB_BOOT_FWREC s.boot.fw.isSome.toNat
  let s := if back then logFault 8 x 0 (s.recSeq x) s else s
  { s.setF GLB_BOOT_DONE 1 with boot.phase := .ended }

/-- BOOT_DONE: the commits, then the RUN sequence, and DONE; the sequence goes on once a timebase that it starts has begun to
count. A write of the sequence that the device refuses is counted, and the load continues (R417). -/
def bootDone (s : State) : State := match s.boot.phase with
  | .commits =>
    if s.commitWaits fun _ => true then s else
    let s := commitAll (fun _ => true) s
    if !(s.boot.header.getD 6 0).toNat.testBit 0 then loadDone s
    else
      let s := if s.flag MST_CTRL_RUN then s else loaderWrite (setField 1 MST_CTRL_RUN 1) s
      { s with boot.phase := .run }
  | .run =>
    if s.f GLB_BOOT_RESULT ≠ 0 then { s.setF GLB_BOOT_DONE 1 with boot.phase := .ended }
    else if s.flag MST_CTRL_RUN && !s.running then s
    else
      let s := loaderWrite (regWrite64 1 KLN_FIRST (s.now + 51200)) s
      loadDone (loaderWrite (setField 1 KLN_CTRL_RUN 1) s)
  | _ => s

/-! ### Replay (R425) -/

/-- An offset lies in the blocks that a replay names. -/
def inReplay (r : List Nat × List Nat) (off : Nat) : Bool :=
  (r.1.flatMap blockRanges ++ r.2.flatMap domRanges).any fun p => decide (p.1 ≤ off) && decide (off < p.2)

/-- The items of the active record that a replay applies. -/
def State.replayItems (s : State) (r : List Nat × List Nat) (x : Nat) : List RecItem :=
  ((s.items x).map Prod.snd).filter fun it => match it with
    | .reg off _ => inReplay r off
    | .mem _ a _ => match bankOf a with | some b => (r.2.flatMap domBanks).contains b | none => false
    | .fw _ _ => false

/-- An erase or program of the target slot is in progress: the busy bit of the flash's status register, but while it stands
suspended (R409, R427, R431). -/
def State.flashBusy (s : State) : Bool := match s.lan.session with
  | some x => !x.failed && (decide (x.erased < 256) || !x.buf.isEmpty)
  | none => false

/-- A replay reads the active slot: an erase or program in progress is suspended first (R409, R431). -/
def replayRead (x : Nat) (s : State) : State :=
  let s := if s.flashBusy && !s.boot.suspended then { flashSend [(0x75, none)] s with boot.suspended := true } else s
  flashRead [x * 0x100000] s

/-- The oldest replay has ended: what was suspended resumes (R409, R431). -/
def replayEnd (s : State) : State :=
  let s := if s.boot.suspended then flashSend [(0x7A, none)] s else s
  { s with boot.suspended := false, boot.replays := s.boot.replays.tail, boot.replayAt := none }

/-- A replay goes on until an engine's check, a grant or the Stay link is waited for, or ends with the commits of its blocks. -/
def replayOn (r : List Nat × List Nat) : List RecItem → State → State
  | [], s => match checkWait false s with
    | none => s
    | some s => if s.commitWaits (inReplay r) then s else commitAll (inReplay r) (replayEnd s)
  | it :: l, s => match checkWait false s with
    | none => s
    | some s =>
      if !s.itemReady it then askItem it s else
      let n := s.f GLB_BOOT_REFUSED
      let s := (applyItem s.boot.slot false it { takeItem it s with boot.replayAt := s.boot.replayAt.map (· + 1) }).setF GLB_BOOT_REFUSED n
      replayOn r l s

/-- REPLAY: the oldest replay that waits goes on; misread gives the bytes that read otherwise than the flash holds them (R425,
R431). -/
def replay (misread : List (Nat × Byte)) (s : State) : State := match s.boot.replays with
  | [] => s
  | r :: _ =>
    let x := s.f GLB_BOOT_ACTIVE
    let v := s.asRead x misread
    if s.boot.replayAt.isNone && !v.digestOk x then replayEnd ((replayRead x s).raise GLB_BOOT_REPLAYFAIL)
    else if !s.setReady (r.2.foldl (fun v d => v ||| 2 ^ d) 0 &&& s.domains) then s
    else
      let k := s.boot.replayAt.getD 0
      replayOn r ((v.replayItems r x).drop k) { replayRead x s with boot.replayAt := some k }

/-! ### Writing a record (R426 to R429, R431) -/

/-- The slot that holds the applied record. -/
def State.applied (s : State) : Option Nat :=
  if s.f GLB_BOOT_RESULT = 1 || s.f GLB_BOOT_RESULT = 2 then some (s.f GLB_BOOT_ACTIVE) else none

/-- SEQ of slot x for the choice of the target; an EMPTY slot counts as 0 (R429). -/
def State.slotSeq (s : State) (x : Nat) : Nat := if s.recMagic x then s.recSeq x else 0

/-- The target slot (R426). -/
def State.targetSlot (s : State) : Nat := match s.applied with
  | some x => 1 - x
  | none =>
    if s.headerOk 0 != s.headerOk 1 then (if s.headerOk 0 then 1 else 0)
    else if s.slotSeq 1 < s.slotSeq 0 then 1 else 0

/-- A record may be written (R423, R427, R443). -/
def State.recPermitted (s : State) : Bool :=
  (s.lc == 1 || s.lc == 2) && s.boot.phase != .start && s.f GLB_BOOT_RESULT != 0

/-- How many bytes the staging buffer holds. -/
def RecSession.held (x : RecSession) : Nat := (x.buf.map Prod.snd).sum

/-- The places in SGM of n bytes of the staging buffer from its place k on, and how many bytes each takes. -/
def stagePlaces (k n : Nat) : List (Nat × Nat) :=
  let k := k % 65536
  let m := min n (65536 - k)
  [(0x10000 + k, m), (0x10000, n - m)].filter fun p => p.2 != 0

/-- Bytes go into the staging buffer from its place k on. -/
def stagePut (k : Nat) (l : List Byte) (s : State) : State :=
  ((stagePlaces k l.length).foldl (fun (x : List Byte × State) p => (x.1.drop p.2, sgmPut p.1 (x.1.take p.2) x.2)) (l, s)).2

/-- n bytes of the staging buffer from its place k on. -/
def stageGet (k n : Nat) (s : State) : List Byte × State :=
  (stagePlaces k n).foldl (fun (x : List Byte × State) p =>
    let y := sgmGet p.1 p.2 x.2
    (x.1 ++ y.1, y.2.2)) ([], s)

/-- The session of slot x ends what was known of the slot. -/
def forgetSlot (x : Nat) (s : State) : State :=
  { s with boot.badS := setBits s.boot.badS x 1 0, boot.goodS := setBits s.boot.goodS x 1 0 }

/-- Data of a REC_WRITE enters the session: the STATUS of the command, and the state (R427). -/
def recStore (x : RecSession) (off : Nat) (l : List Byte) (s : State) : Nat × State :=
  if 1048576 < off + l.length || x.got.any fun p => overlap off l.length p.1 p.2 then (4, s)
  else if 65536 < x.held + l.length then (5, s)
  else (0, { stagePut (x.head + x.held) l s with
             lan.session := some { x with buf := x.buf ++ [(off, l.length)], got := x.got ++ [(off, l.length)] } })

/-- REC_WRITE of data at an offset (R427). -/
def recWrite (off : Nat) (l : List Byte) (s : State) : Nat × State :=
  if !s.recPermitted then (5, s)
  else if off = 0 then
    let t := s.targetSlot
    recStore { slot := t } 0 l (eraseSend (t * 0x100000) (forgetSlot t s))
  else match s.lan.session with
    | none => (5, s)
    | some x => if x.failed then (9, s) else recStore x off l s

/-- Every byte received in the session has been programmed (R429). -/
def RecSession.ready (x : RecSession) : Bool := x.erased == 256 && x.buf.isEmpty && !x.failed

/-- REC_FINISH (R428). -/
def recFinish (s : State) : Nat × State :=
  if !s.recPermitted then (5, s)
  else match s.lan.session with
    | none => (5, s)
    | some x =>
      if x.failed then (9, s)
      else if !x.ready then (5, s)
      else
        let n := if s.applied.isSome then s.f GLB_BOOTSEQ_SEQ else 0
        let t := flashRead [x.slot * 0x100000] { s with lan.session := none }
        if s.headerOk x.slot && s.bodyOk x.slot && s.digestOk x.slot && decide (n < s.recSeq x.slot) then (0, markGood x.slot t)
        else (5, markBad x.slot t)

/-- The flash fails under a session (R427). -/
def flashFail (x : RecSession) (s : State) : State :=
  markBad x.slot { s with lan.session := some { x with failed := true, buf := [] } }

/-- SECTOR_ERASE_END: the next sector of the target slot is erased, or the flash failed; sectors go in ascending order, and none
ends while it stands suspended (R409, R427, R431). -/
def sectorErased (ok : Bool) (s : State) : State := match s.lan.session with
  | none => s
  | some x =>
    if x.failed || 256 ≤ x.erased || s.boot.suspended then s
    else
      let lo := x.slot * 0x100000 + 4096 * x.erased
      let s := flashSend [(0x05, none)] s
      if !ok then flashFail x s else
      let s := if x.erased < 255 then eraseSend (lo + 4096) s else s
      { s with flash := mclear s.flash lo (lo + 4096), lan.session := some { x with erased := x.erased + 1 } }

/-- PAGE_PROGRAM_END: the oldest bytes of the staging buffer that fall in one page of an erased sector have been programmed, or the flash
failed; none ends while it stands suspended (R409, R427, R431). -/
def pageProgrammed (ok : Bool) (s : State) : State := match s.lan.session with
  | none => s
  | some x => match x.buf with
    | [] => s
    | (o, k) :: rest =>
      if x.failed || x.erased ≤ o / 4096 || s.boot.suspended || !s.bankUp 7 then s
      else
        let s := flashSend [(0x06, none), (0x02, some (x.slot * 0x100000 + o)), (0x05, none)] s
        if !ok then flashFail x s else
        let n := min k (256 - o % 256)
        let (l, s) := stageGet x.head n s
        let s := l.zipIdx.foldl (fun s p => setFlash (x.slot * 0x100000 + o + p.2) p.1 s) s
        let rest := if n < k then (o + n, k - n) :: rest else rest
        { s with lan.session := some { x with buf := rest, head := x.head + n } }

/-- The state of slot x (R429). -/
def State.slotState (s : State) (x : Nat) : Nat :=
  let other := if s.applied = some x then 1
    else if s.boot.badS.testBit x then 4
    else if !s.recMagic x then 0
    else if s.boot.goodS.testBit x then 3
    else if !s.headerOk x then 4
    else 2
  match s.lan.session with
  | some y =>
    if y.slot ≠ x then other
    else if y.failed then 4
    else if y.erased < 256 then 5
    else if !y.buf.isEmpty then 6
    else 7
  | none => other

/-- What REC_INFO says of slot x: its state, SEQ and LEN (R429). -/
def State.slotInfo (s : State) (x : Nat) : List Byte :=
  let c := s.slotState x
  let blank := c = 0 || 5 ≤ c
  leBytes 1 c ++ leBytes 4 (if blank then 0 else s.recSeq x) ++ leBytes 4 (if blank then 0 else s.recLen x)

end Sys2Proof.Machine
end

