-- ==== Sys2Proof/Machine/Lanyard.lean ====
section
/-! DEFINITION. The Lanyard port: frames, reads and the commands of the management controller (R385 to R402, R449). -/

namespace Sys2Proof.Machine

open Sys2Proof Reg

/-- Lanyard is served (R402). -/
def State.lanServed (s : State) : Bool := s.on 1 && s.boot.phase != .start

/-! ### Frames and reads (R387 to R392) -/

/-- The commands of R394. -/
def cmdListed (c : Nat) : Bool :=
  [0x01, 0x02, 0x03, 0x04, 0x05, 0x10, 0x11, 0x12, 0x20, 0x21, 0x22, 0x30, 0x31, 0x40, 0x41, 0x50, 0x51].contains c

/-- The payload length and the payload of a request frame (R389). -/
def frameLen (f : List Byte) : Nat := frameByte f 2 + 256 * frameByte f 3
def payload (f : List Byte) : List Byte := (f.drop 4).take (frameLen f)

/-- A request frame that the target has accepted (R391, R392). -/
def acceptFrame (f : List Byte) (s : State) : State :=
  let s := { s with lan.resp := none }
  let again := match s.lan.last with | some (g, r) => if g = f then some r else none | none => none
  if f.length < 6 || 1024 < frameLen f || f.length ≠ 6 + frameLen f then lanAnswer (response f 2 []) s
  else if f ≠ withCrc (f.take (f.length - 2)) then lanAnswer (response f 1 []) s
  else match again with
    | some r => lanAnswer r s
    | none => if cmdListed (frameByte f 0) then { s with lan.req := some f } else lanAnswer (response f 3 []) s

/-- RESPONSE_READY: RESP is set and BUSY cleared (R391). -/
def responseReady (s : State) : State := match s.lan.done with
  | some r => { s with lan.done := none, lan.resp := some r }
  | none => s

/-- The status byte (R388). -/
def State.lanStatus (s : State) : Byte :=
  BitVec.ofNat 8 (0xA0 + 8 * s.lan.logNew.toNat + 4 * s.f LAN_MBSTAT_H2M_FULL + 2 * s.lan.resp.isSome.toNat + s.lanBusy.toNat)

/-- LAN_ALERT_N is driven low (R388). -/
def State.lanAlert (s : State) : Bool := s.lan.resp.isSome || s.lan.logNew || s.flag LAN_MBSTAT_H2M_FULL

/-- The 7-bit address of the target: 0x38 and the address straps (R386). -/
def State.lanAddr (s : State) : Nat := 0x38 + s.lan.addr

/-- n bytes of the response, 0xFF where there is none, and the response consumed with its last byte (R388). -/
def readResponse (n : Nat) (s : State) : List Byte × State :=
  let r := s.lan.resp.getD []
  ((List.range n).map fun i => r.getD i 0xFF, if r.length ≤ n then { s with lan.resp := none } else s)

/-- What a read returned. -/
def lanOut (l : List Byte) (s : State) : State := { s with lan.outs := s.lan.outs ++ [l] }

/-- I2C_READ of n bytes from an address: the target acknowledges its own, and gives the status byte and then the response
(R386, R388). -/
def i2cRead (addr n : Nat) (s : State) : State :=
  if s.lan.spi then s
  else
    let ok := s.lanServed && addr == s.lanAddr
    let s := { s with lan.ack := ok }
    if !ok || n = 0 then s
    else
      let x := readResponse (n - 1) s
      lanOut (s.lanStatus :: x.1) x.2

/-- SPI_READ_RESPONSE: the status byte under the operation byte, then n bytes (R387). -/
def spiReadResponse (n : Nat) (s : State) : State :=
  if !s.lanServed || !s.lan.spi then s
  else
    let x := readResponse n s
    lanOut (s.lanStatus :: x.1) x.2

/-- SPI_READ_STATUS: the status byte under the operation byte and n times more (R387). -/
def spiReadStatus (n : Nat) (s : State) : State :=
  if !s.lanServed || !s.lan.spi then s else lanOut (List.replicate (n + 1) s.lanStatus) s

/-- REQUEST_FRAME: a transaction or operation that carries bytes to the target ends (R386, R387, R391). In I²C mode another
address, the general call among them, and a write while BUSY are not acknowledged. In SPI mode the status byte is driven under
the first byte, a request frame while BUSY is discarded, and what follows an operation that is not listed is ignored. -/
def requestFrame (start : LanStart) (f : List Byte) (s : State) : State :=
  match start, s.lan.spi with
  | .i2c a, false =>
    let ok := s.lanServed && a.toNat == s.lanAddr && !s.lanBusy
    let s := { s with lan.ack := ok }
    if ok then acceptFrame f s else s
  | .spi op, true =>
    if !s.lanServed then s
    else if op = 0x03 then spiReadResponse f.length s
    else if op = 0x05 then spiReadStatus f.length s
    else
      let t := lanOut [s.lanStatus] s
      if op = 0x02 && !s.lanBusy then acceptFrame f t else t
  | _, _ => s

/-! ### Commands (R394 to R402) -/

/-- Run the command of the waiting request when it is this one. -/
def lanRun (cmd : Nat) (body : List Byte → State → State) (s : State) : State := match s.lan.req with
  | some f => if frameByte f 0 = cmd && !s.lan.switching then body (payload f) s else s
  | none => s

/-- GET_INFO (R394). -/
def getInfo : State → State := lanRun 0x01 fun p s =>
  if p ≠ [] then lanFinish 4 [] s
  else lanFinish 0 (leBytes 4 (s.live GLB_ID).toNat ++ leBytes 2 1 ++ leBytes 2 1024 ++ leBytes 1 s.lc ++ leBytes 1 0 ++
    leBytes 2 s.domains ++ leBytes 2 s.lan.log.length) s

/-- An access of the controller to a register must wait for the Stay link to retrain (R502). -/
def State.lanWaits (s : State) (off n : Nat) : Bool := (List.range n).any fun i => s.proxyWaits ((off + i) / 4 * 4)

/-- Read n halves, up to a register whose domain is off, an OFF engine's COIL_STATUS among them (R395, R402). -/
def readHalves : Nat → Nat → List Byte → State → Option (List Byte) × State
  | 0, _, acc, s => (some acc, s)
  | n + 1, off, acc, s =>
    if !s.answers (off / 4 * 4) then (none, s)
    else
      let (h, s) := readHalf off s
      readHalves n (off + 2) (acc ++ leBytes 2 h.toNat) s

/-- READ_REG (R395). -/
def lanReadReg : State → State := lanRun 0x02 fun p s =>
  let off := leField p 0 4
  let n := leField p 4 2
  if p.length ≠ 6 || off % 2 ≠ 0 || n = 0 || 512 < n || 0x1000000 < off + 2 * n then lanFinish 4 [] s
  else if s.lanWaits off (2 * n) then s
  else match readHalves n off [] s with
    | (some l, s) => lanFinish 0 l s
    | (none, s) => lanFinish 6 [] s

/-- Write registers in order, up to one whose domain is off (R395, R402). -/
def writeRegs : Nat → Nat → List Byte → State → Bool × State
  | 0, _, _, s => (true, s)
  | n + 1, off, l, s =>
    if !s.answers off then (false, s) else writeRegs n (off + 4) (l.drop 4) (regWrite 1 off (BitVec.ofNat 32 (leField l 0 4)) s)

/-- WRITE_REG (R395). -/
def lanWriteReg : State → State := lanRun 0x03 fun p s =>
  let off := leField p 0 4
  let n := (p.length - 4) / 4
  if p.length < 8 || p.length % 4 ≠ 0 || off % 4 ≠ 0 || 0x1000000 < off + 4 * n then lanFinish 4 [] s
  else if s.lanWaits off (4 * n) then s
  else
    let x := writeRegs n off (p.drop 4) s
    lanFinish (if x.1 then 0 else 6) [] x.2

/-- The bank that holds a whole range that READ_MEM, or with write WRITE_MEM, reaches (R396). -/
def lanBank (write : Bool) (a n : Nat) : Option Nat := match bankOf a with
  | some b => if b < 7 && !(write && b == 5) && decide (a + n ≤ bankBase b + bankSize b) then some b else none
  | none => none

/-- READ_MEM: it asks the bank as soon as it arrives, waits for its grant, and is performed then (R352, R357, R396). -/
def lanReadMem : State → State := lanRun 0x04 fun p s =>
  let a := leField p 0 8
  let n := leField p 8 4
  if p.length ≠ 12 || a % 8 ≠ 0 || n % 8 ≠ 0 || n = 0 || 1024 < n then lanFinish 4 [] s
  else match lanBank false a n with
    | none => lanFinish 4 [] s
    | some b =>
      if !s.on (bankDom b) then lanFinish 6 [] s
      else if s.doneAt (.mgmt 0) ≠ some b then mgmtAsk 0 b a n s
      else
        let (d, bad, s) := bankRead b 7 a n (takeServed b (.mgmt 0) s)
        lanFinish (if bad then 8 else 0) d s

/-- WRITE_MEM, which waits for its grant as READ_MEM does (R352, R357, R396). -/
def lanWriteMem : State → State := lanRun 0x05 fun p s =>
  let a := leField p 0 8
  let n := p.length - 8
  if p.length < 16 || n % 8 ≠ 0 || 1016 < n || a % 8 ≠ 0 then lanFinish 4 [] s
  else match lanBank true a n with
    | none => lanFinish 4 [] s
    | some b =>
      if !s.on (bankDom b) then lanFinish 6 [] s
      else if s.doneAt (.mgmt 0) ≠ some b then mgmtAsk 0 b a n s
      else lanFinish 0 [] (mgmtPut a (p.drop 8) (takeServed b (.mgmt 0) s))

/-- A register as a status reads it: all ones where its block does not answer (R379, R394). -/
def State.seen (s : State) (off : Nat) : Nat := (if s.readable off then s.live off else 0xFFFFFFFF).toNat

/-- A register as GET_STATUS gives it: all ones where the domain of its block is off, COIL_STATUS too (R394). -/
def State.statusSeen (s : State) (off : Nat) : Nat := (if s.answers off then s.live off else 0xFFFFFFFF).toNat

/-- GET_STATUS (R394). -/
def getStatus : State → State := lanRun 0x10 fun p s =>
  if p ≠ [] then lanFinish 4 [] s
  else lanFinish 0 (leBytes 2 s.domains ++ leBytes 4 (s.statusSeen MST_STATUS) ++ leBytes 4 (s.statusSeen KLN_STATUS) ++
    leBytes 4 (s.statusSeen HLY_STATUS) ++ (List.range 17).flatMap fun e => leBytes 1 (s.statusSeen (COIL_STATUS e))) s

/-- The 16 bytes of a log entry (R399). -/
def logBytes (e : LogEntry) : List Byte :=
  leBytes 8 e.time.toNat ++ leBytes 1 e.fault.cls ++ leBytes 1 e.fault.unit ++ leBytes 2 e.fault.code ++ leBytes 4 e.fault.detail

/-- READ_LOG (R399). -/
def readLog : State → State := lanRun 0x11 fun p s =>
  let a := leField p 0 2
  let n := leField p 2 2
  if p.length ≠ 4 || n = 0 || 64 < n || s.lan.log.length < a + n then lanFinish 4 [] s
  else lanFinish 0 (((s.lan.log.drop a).take n).flatMap logBytes) { s with lan.logNew := false }

/-- CLEAR_LOG (R399). -/
def clearLog : State → State := lanRun 0x12 fun p s =>
  if p ≠ [] then lanFinish 4 [] s else lanFinish 0 [] { s with lan.log := [], lan.logNew := false }

/-- FAULT_LOG_ENTRY: the controller logs the oldest fault that it has not logged; the log holds 256 (R399). -/
def faultLogEntry (s : State) : State := match s.faults with
  | [] => s
  | x :: l =>
    if !s.on 1 then s
    else
      let log := s.lan.log ++ [⟨s.now, x⟩]
      { s with faults := l, lan.log := log.drop (log.length - 256), lan.logNew := true }

/-- REC_INFO: the controller reads both headers (R409, R429). -/
def recInfo : State → State := lanRun 0x20 fun p s =>
  if p ≠ [] then lanFinish 4 [] s else lanFinish 0 (s.slotInfo 0 ++ s.slotInfo 1) (flashRead [0, 0x100000] s)

/-- REC_WRITE; it waits while SGM is being cleared (R352, R427). -/
def lanRecWrite : State → State := lanRun 0x21 fun p s =>
  let off := leField p 0 4
  let n := p.length - 4
  if p.length < 12 || 1016 < n || off % 8 ≠ 0 then lanFinish 4 [] s
  else if !s.bankUp 7 then s
  else
    let x := recWrite off (p.drop 4) s
    lanFinish x.1 [] x.2

/-- REC_FINISH (R428). -/
def lanRecFinish : State → State := lanRun 0x22 fun p s =>
  if p ≠ [] then lanFinish 4 [] s
  else
    let x := recFinish s
    lanFinish x.1 [] x.2

/-- DOMAIN_SET: it waits for a sequence that runs, is tested against the domains that are on then, and ends when its own has ended
(R397, R400, R487). -/
def domainSet : State → State := lanRun 0x30 fun p s =>
  let mask := leField p 0 2
  let val := leField p 2 2
  let set := s.setAfter mask val
  if p.length ≠ 4 || 2 ^ 15 ≤ mask || 2 ^ 15 ≤ val then lanFinish 4 [] s
  else if s.switching then s
  else if set % 4 ≠ 3 || !domSetOk set then lanFinish 4 [] s
  else switchEnd (requestSwitch set { s with lan.switching := true })

/-- BLOCK_RESET (R398, R501). -/
def lanBlockReset : State → State := lanRun 0x31 fun p s =>
  let c := leField p 0 1
  if p.length ≠ 1 || !blockListed c then lanFinish 4 [] s
  else if !s.on (blockDom c) then lanFinish 6 [] s
  else lanFinish 0 [] (blockReset [c] s)

/-- GET_CERT (R436). -/
def getCert : State → State := lanRun 0x40 fun p s =>
  let o := leField p 0 2
  let n := leField p 2 2
  if p.length ≠ 4 || n = 0 || 1024 < n || certLen < o + n then lanFinish 4 [] s
  else lanFinish 0 ((List.range n).map fun i => certAt (o + i)) s

/-- The CRC field of the image that engine e runs, 0 where it runs none (R132, R449). -/
def State.runCrc (s : State) (e : Nat) : Nat :=
  let x := s.eng e
  if x.image.len = 0 then 0 else s.memNat (x.image.base + 24) 4

/-- The sections of an attestation (R449). -/
def State.attestPart (s : State) : Nat → List Byte
  | 0 => leBytes 4 (s.f GLB_BOOTSEQ_SEQ) ++ leBytes 4 (s.live GLB_BOOT).toNat ++
      (if s.applied.isSome then sha256 s.boot.header else List.replicate 32 0)
  | 1 => (List.range 17).flatMap fun e => leBytes 4 (s.seen (COIL_STATUS e)) ++ leBytes 4 (s.seen (COIL_PBASE e)) ++
      leBytes 4 (s.seen (COIL_DECL e)) ++ leBytes 4 (s.runCrc e)
  | 2 => sha256 ((List.range 96).flatMap fun p => leBytes 4 (s.live (GLB_PORTOWN p)).toNat)
  | 3 => leBytes 4 (s.live VLT_TAMPSTAT).toNat ++ leBytes 2 s.lan.log.length ++ leBytes 2 0 ++ leBytes 4 (s.live SAG_STATUS).toNat ++
      leBytes 4 (s.seen KLN_OVR)
  | _ => leBytes 4 Config.romVersion ++ leBytes 4 (if s.flag GLB_BOOT_FWREC then s.boot.fw.getD 0 else 0)

/-- The payload of an attestation without its signature (R449). -/
def State.attestBody (s : State) (nonce : List Byte) (sel : Nat) : List Byte :=
  let flags := (if s.f VLT_TAMPSTAT_STICKY = 0 then 0 else 1) + 2 * s.f GLB_BOOT_FWREC
  leBytes 4 0x6480A7E5 ++ leBytes 2 1 ++ leBytes 1 s.lc ++ leBytes 1 flags ++ leBytes 8 Config.serial.toNat ++
  leBytes 4 (s.live GLB_ID).toNat ++ leBytes 4 sel ++ nonce ++ leBytes 8 (s.beat64 MST_NOW).toNat ++
  leBytes 8 (s.beat64 KLN_TICKCNT).toNat ++ ((List.range 5).filter sel.testBit).flatMap s.attestPart

/-- The unwrapped private half stands in SGS while the vault signs, and is wiped before the response is sent (R435). DESIGN
CHOICE: it stands at the start of SGS. -/
def sgsUse (half : List Byte) (s : State) : State :=
  let put := fun (l : List Byte) (s : State) => bankWrite 8 0 sgsBase (l.map some) (ownerBeats 8 sgsBase l.length s)
  put (half.map fun _ => 0) (put half s)

/-- ATTEST (R435, R449, R450). While SGS is being cleared it waits. DESIGN CHOICE: where the key has been zeroised since t_s,
so that nothing unwraps but KEYLOST is not set yet, it gives DENIED. The number k of the signature is a free value. -/
def attest : State → State := lanRun 0x41 fun p s =>
  let sel := leField p 32 4
  if p.length ≠ 36 || 32 ≤ sel then lanFinish 4 [] s
  else if s.lc = 4 || s.flag VLT_STATUS_KEYLOST then lanFinish 5 [] s
  else if !s.bankUp 8 then s
  else match s.markHalf with
    | none => lanFinish 5 [] s
    | some half =>
      let b := s.attestBody (p.take 32) sel
      let r := drawWide 4 (sgsUse half s)
      lanFinish 0 (b ++ ecdsaSign (beNat half) (scalarOf r.1) (sha256 b)) r.2

/-- MBOX_GET (R401). -/
def mboxGet : State → State := lanRun 0x50 fun p s =>
  if p ≠ [] then lanFinish 4 [] s
  else if !s.flag LAN_MBSTAT_H2M_FULL then lanFinish 0 [0] s
  else
    let n := s.f LAN_H2MLEN_LEN
    let l := ((List.range 16).flatMap fun k => leBytes 4 (s.reg (LAN_H2M k)).toNat).take n
    lanFinish 0 (leBytes 1 n ++ l) (s.setF LAN_MBSTAT_H2M_FULL 0)

/-- MBOX_PUT: bytes past the message keep their values (R401). -/
def mboxPut : State → State := lanRun 0x51 fun p s =>
  if p = [] || 64 < p.length then lanFinish 4 [] s
  else if s.flag LAN_MBSTAT_M2H_FULL then lanFinish 7 [] s
  else
    let old := (List.range 16).flatMap fun k => leBytes 4 (s.reg (LAN_M2H k)).toNat
    let new := p ++ old.drop p.length
    let s := (List.range 16).foldl (fun s k => s.setReg (LAN_M2H k) (BitVec.ofNat 32 (leField new (4 * k) 4))) s
    lanFinish 0 [] ((s.setF LAN_M2HLEN_LEN p.length).setF LAN_MBSTAT_M2H_FULL 1)

end Sys2Proof.Machine
end

