-- ==== Sys2Proof/Machine/FrsOps.lean ====
section
/-! DEFINITION. The global operations of Forestay that act on other blocks (R469, R470, R472), and the end of a Stay link
retraining (R502). -/

namespace Sys2Proof.Machine

open Sys2Proof Reg

/-- TICKSTART: at T the Kiln issues a first boundary that begins tick N; where ticks run or the timebase is stopped it is
skipped (R468, R469). -/
def frsTickStart (s : State) : State := match s.dueOp 1 with
  | none => s
  | some o =>
    let s := takeOp o s
    if !s.running || s.flag KLN_CTRL_RUN || s.ticking then opSkip s
    else boundary o.time o.arg (s.setF KLN_CTRL_RUN 1)

/-- ACTION: the operation's record is issued in the name of the engine that owns its port (R470); while the timebase is stopped
none is formed (R538). DESIGN CHOICE: that is no skip. -/
def frsAction (s : State) : State := match s.dueOp 2 with
  | none => s
  | some o =>
    let s := takeOp o s
    let a := mkAction o.time (BitVec.ofNat 64 o.arg)
    if 95 < a.port || s.f (GLB_PORTOWN_TYPE a.port) ≠ 1 then opSkip s
    else if !s.running then s
    else
      let n := s.f (GLB_PORTOWN_INDEX a.port)
      handOn n n s.mc s.now a s

/-- RESET: the block resets named in the argument, in ascending code order; a block whose domain is off is passed over
(R472). -/
def frsReset (s : State) : State := match s.dueOp 4 with
  | none => s
  | some o =>
    let s := takeOp o s
    blockReset ((List.range 15).filter fun c => o.arg.testBit c && blockListed c && c != 9 && s.on (blockDom c)) s

/-- The writes that wait in the proxy are performed in order. -/
def runProxy (s : State) : State :=
  s.stay.proxy.foldl (fun s w => regWrite w.1 w.2.1 w.2.2 s) { s with stay.proxy := [] }

/-- RETRAIN_END: retraining ends with these lanes trained, one at least in each direction; the other lanes stay out of use, and
what waited in the proxy is performed (R502). -/
def retrainEnd (tx rx : Nat) (s : State) : State :=
  let tx := tx % 16
  let rx := rx % 16
  if s.stay.trainAt.isNone || tx = 0 || rx = 0 then s
  else
    let gone := ((List.range 4).filter fun k => !tx.testBit k).map (fun k => (false, k)) ++
      ((List.range 4).filter fun k => !rx.testBit k).map (fun k => (true, k))
    hostGoOn (runProxy { setLanes tx rx s with stay.outs := gone, stay.trainAt := none, stay.lostAt := none })

end Sys2Proof.Machine
end

