-- ==== Sys2Proof/Machine/Soft.lean ====
section
/-! DEFINITION. The shapes that commands share: writes of one field, writes of 64-bit quantities, and records that arrive at
a port (R10, R53, R135, R175, R179). -/

namespace Sys2Proof.Machine

open Sys2Proof Reg

/-- A write of a 64-bit quantity as a whole. -/
def softWrite64 (req off : Nat) (v : DWord) (s : State) : State :=
  if s.proxyWaits off then
    { s with stay.proxy := s.stay.proxy ++ [(req, off, v.setWidth 32), (req, off + 4, v.extractLsb' 32 32)] }
  else regWrite64 req off v s

/-- The number by which the tooth table's arbiter knows a requester (R357). -/
def bankReqOf (req : Nat) : Nat := match req with
  | 0 => 6 | 1 => 7 | 2 => 1 | _ => 5

/-- In each Mast cycle of a check, one word of the image is asked for (R135, R357). -/
def checkBeats (s : State) : State :=
  (List.range 16).foldl (init := s) fun s e =>
    match (s.eng e).check with
    | some (base, m) =>
      let b := e / 4
      let words := min 32768 (max 4 (s.memNat (base + 8) 4 / 8))
      if s.mc - m ≤ words && !(s.bank b).pend.any (fun q => q.r == 8 && q.src == e) then
        postReq b { r := 8, src := e, stamp := 4 * s.mc, use := .occupy } s
      else s
    | none => s

/-- The record that arrives at port p, when ok says that it is of this command: it is lost where the port's domain has no
power. -/
def portArrival (p : Nat) (ok : Nat → Bool) (f : Action → State → State) (s : State) : State :=
  match s.nextFor p with
  | none => s
  | some t =>
    if !ok t.act.code then s
    else if !s.phys (portDom p) then takeTransit t s
    else f t.act (takeTransit t s)

/-- ACTION_ARRIVAL: a record that is neither a RETIME nor a CANCEL (R175). -/
def actionArrival (p : Nat) (s : State) : State := portArrival p (fun c => c != 0x18 && c != 0x19) (arrive p) s
/-- RETIME (R179). -/
def retimeArrival (p : Nat) (s : State) : State := portArrival p (· == 0x18) (retime p) s
/-- CANCEL (R179). -/
def cancelArrival (p : Nat) (s : State) : State := portArrival p (· == 0x19) (cancel p) s

/-- INPUT_EDGE: the pin of a port takes a level; in the VR mode the front end, not the pin, makes the input's edges (R182,
R215). -/
def portInput (p : Nat) (lvl : Bool) (fine : Nat) (s : State) : State :=
  if s.isVr p then s.modPort p fun x => { x with pin := lvl } else inputEdge p lvl fine s

end Sys2Proof.Machine
end

