-- ==== Sys2Proof/Machine/ExecBanks.lean ====
section
/-! DEFINITION. The meanings of the commands of the Saggar banks and their arbiters (R344 to R372). -/

namespace Sys2Proof.Machine

open Sys2Proof Reg

/-- BANK_DECISION (R360). -/
def execBankDecision (b : Fin 9) (q : Fin 4) (s : State) : Host.Outcome State Fault Refusal :=
  .next (bankDecision b q s)

/-- SCRUB (R351). -/
def execScrub (b : Fin 9) (s : State) : Host.Outcome State Fault Refusal := .next (scrub b s)

/-- BANK_CLEAR_END (R352). -/
def execBankClearEnd (b : Fin 9) (s : State) : Host.Outcome State Fault Refusal := .next (clearEnd b s)

/-- ECC_INJECT (R354). -/
def execEccInject (req : Fin 4) (val : Word) (s : State) : Host.Outcome State Fault Refusal :=
  .next (softWrite req SAG_ECCINJ val s)

/-- SCRUB_INTERVAL_WRITE (R368). -/
def execScrubIntervalWrite (req : Fin 4) (val : Word) (s : State) : Host.Outcome State Fault Refusal :=
  .next (softWrite req SAG_SCRUB val s)

/-- SAG_CLR (R368). -/
def execSagClr (req : Fin 4) (val : Word) (s : State) : Host.Outcome State Fault Refusal :=
  .next (softWrite req SAG_CLR val s)

/-- ARB_CLR (R371). -/
def execArbClr (req : Fin 4) (val : Word) (s : State) : Host.Outcome State Fault Refusal :=
  .next (softWrite req ARB_CLR val s)

/-- SGS_WIPE_END (R353). -/
def execSgsWipeEnd (s : State) : Host.Outcome State Fault Refusal := .next (clearEnd 8 s)

end Sys2Proof.Machine
end

