-- ==== Sys2Proof/Machine/ExecBoot.lean ====
section
/-! DEFINITION. The meanings of the commands of start-up, firing records and replay (R409 to R425). -/

namespace Sys2Proof.Machine

open Sys2Proof Reg

/-- MGMT_START (R421). -/
def execMgmtStart (spi : Bool) (addr : Fin 8) (s : State) : Host.Outcome State Fault Refusal :=
  .next (mgmtStart spi addr s)

/-- RECORD_HEADERS_READ (R416). -/
def execRecordHeadersRead (s : State) : Host.Outcome State Fault Refusal := .next (headersRead s)

/-- PASS1_COMPLETE (R416). -/
def execPass1Complete (s : State) : Host.Outcome State Fault Refusal := .next (pass1Complete s)

/-- RECORD_APPLY (R417). -/
def execRecordApply (misread : List (Fin (2 ^ 20) × Byte)) (s : State) : Host.Outcome State Fault Refusal :=
  .next (recordApply (misread.map fun p => (p.1.val, p.2)) s)

/-- BOOT_DONE (R417). -/
def execBootDone (s : State) : Host.Outcome State Fault Refusal := .next (bootDone s)

/-- REPLAY (R425). -/
def execReplay (misread : List (Fin (2 ^ 20) × Byte)) (s : State) : Host.Outcome State Fault Refusal :=
  .next (replay (misread.map fun p => (p.1.val, p.2)) s)

end Sys2Proof.Machine
end

