-- ==== Sys2Proof/Machine/ExecCoil.lean ====
section
/-! DEFINITION. The meanings of the commands of the Coil instructions and the control of the engines (R87 to R171). -/

namespace Sys2Proof.Machine

open Sys2Proof Reg

/-- ADD (R100). -/
def execAdd (e : Fin 17) (rd ra rb : Fin 16) (s : State) : Host.Outcome State Fault Refusal :=
  .next (coilStep e (.alu .add rd ra rb) s)

/-- SUB (R100). -/
def execSub (e : Fin 17) (rd ra rb : Fin 16) (s : State) : Host.Outcome State Fault Refusal :=
  .next (coilStep e (.alu .sub rd ra rb) s)

/-- AND (R100). -/
def execAnd (e : Fin 17) (rd ra rb : Fin 16) (s : State) : Host.Outcome State Fault Refusal :=
  .next (coilStep e (.alu .and rd ra rb) s)

/-- OR (R100). -/
def execOr (e : Fin 17) (rd ra rb : Fin 16) (s : State) : Host.Outcome State Fault Refusal :=
  .next (coilStep e (.alu .or rd ra rb) s)

/-- XOR (R100). -/
def execXor (e : Fin 17) (rd ra rb : Fin 16) (s : State) : Host.Outcome State Fault Refusal :=
  .next (coilStep e (.alu .xor rd ra rb) s)

/-- ANDN (R100). -/
def execAndn (e : Fin 17) (rd ra rb : Fin 16) (s : State) : Host.Outcome State Fault Refusal :=
  .next (coilStep e (.alu .andn rd ra rb) s)

/-- SHL (R100). -/
def execShl (e : Fin 17) (rd ra rb : Fin 16) (s : State) : Host.Outcome State Fault Refusal :=
  .next (coilStep e (.alu .shl rd ra rb) s)

/-- SHR (R100). -/
def execShr (e : Fin 17) (rd ra rb : Fin 16) (s : State) : Host.Outcome State Fault Refusal :=
  .next (coilStep e (.alu .shr rd ra rb) s)

/-- SAR (R100). -/
def execSar (e : Fin 17) (rd ra rb : Fin 16) (s : State) : Host.Outcome State Fault Refusal :=
  .next (coilStep e (.alu .sar rd ra rb) s)

/-- ROR (R100). -/
def execRor (e : Fin 17) (rd ra rb : Fin 16) (s : State) : Host.Outcome State Fault Refusal :=
  .next (coilStep e (.alu .ror rd ra rb) s)

/-- SHLI (R100). -/
def execShli (e : Fin 17) (rd ra : Fin 16) (sh : Fin 64) (s : State) : Host.Outcome State Fault Refusal :=
  .next (coilStep e (.shi .shli rd ra sh) s)

/-- SHRI (R100). -/
def execShri (e : Fin 17) (rd ra : Fin 16) (sh : Fin 64) (s : State) : Host.Outcome State Fault Refusal :=
  .next (coilStep e (.shi .shri rd ra sh) s)

/-- SARI (R100). -/
def execSari (e : Fin 17) (rd ra : Fin 16) (sh : Fin 64) (s : State) : Host.Outcome State Fault Refusal :=
  .next (coilStep e (.shi .sari rd ra sh) s)

/-- RORI (R100). -/
def execRori (e : Fin 17) (rd ra : Fin 16) (sh : Fin 64) (s : State) : Host.Outcome State Fault Refusal :=
  .next (coilStep e (.shi .rori rd ra sh) s)

/-- SLT (R100). -/
def execSlt (e : Fin 17) (rd ra rb : Fin 16) (s : State) : Host.Outcome State Fault Refusal :=
  .next (coilStep e (.alu .slt rd ra rb) s)

/-- SLTU (R100). -/
def execSltu (e : Fin 17) (rd ra rb : Fin 16) (s : State) : Host.Outcome State Fault Refusal :=
  .next (coilStep e (.alu .sltu rd ra rb) s)

/-- MINU (R100). -/
def execMinu (e : Fin 17) (rd ra rb : Fin 16) (s : State) : Host.Outcome State Fault Refusal :=
  .next (coilStep e (.alu .minu rd ra rb) s)

/-- MAXU (R100). -/
def execMaxu (e : Fin 17) (rd ra rb : Fin 16) (s : State) : Host.Outcome State Fault Refusal :=
  .next (coilStep e (.alu .maxu rd ra rb) s)

/-- MINS (R100). -/
def execMins (e : Fin 17) (rd ra rb : Fin 16) (s : State) : Host.Outcome State Fault Refusal :=
  .next (coilStep e (.alu .mins rd ra rb) s)

/-- MAXS (R100). -/
def execMaxs (e : Fin 17) (rd ra rb : Fin 16) (s : State) : Host.Outcome State Fault Refusal :=
  .next (coilStep e (.alu .maxs rd ra rb) s)

/-- MUL (R100). -/
def execMul (e : Fin 17) (rd ra rb : Fin 16) (s : State) : Host.Outcome State Fault Refusal :=
  .next (coilStep e (.alu .mul rd ra rb) s)

/-- MULHU (R100). -/
def execMulhu (e : Fin 17) (rd ra rb : Fin 16) (s : State) : Host.Outcome State Fault Refusal :=
  .next (coilStep e (.alu .mulhu rd ra rb) s)

/-- MULHS (R100). -/
def execMulhs (e : Fin 17) (rd ra rb : Fin 16) (s : State) : Host.Outcome State Fault Refusal :=
  .next (coilStep e (.alu .mulhs rd ra rb) s)

/-- DIVU (R101). -/
def execDivu (e : Fin 17) (rd ra rb : Fin 16) (s : State) : Host.Outcome State Fault Refusal :=
  .next (coilStep e (.alu .divu rd ra rb) s)

/-- REMU (R101). -/
def execRemu (e : Fin 17) (rd ra rb : Fin 16) (s : State) : Host.Outcome State Fault Refusal :=
  .next (coilStep e (.alu .remu rd ra rb) s)

/-- CLZ (R100). -/
def execClz (e : Fin 17) (rd ra : Fin 16) (s : State) : Host.Outcome State Fault Refusal :=
  .next (coilStep e (.un .clz rd ra) s)

/-- CTZ (R100). -/
def execCtz (e : Fin 17) (rd ra : Fin 16) (s : State) : Host.Outcome State Fault Refusal :=
  .next (coilStep e (.un .ctz rd ra) s)

/-- POPC (R100). -/
def execPopc (e : Fin 17) (rd ra : Fin 16) (s : State) : Host.Outcome State Fault Refusal :=
  .next (coilStep e (.un .popc rd ra) s)

/-- ADDI (R102). -/
def execAddi (e : Fin 17) (rd ra : Fin 16) (imm18 : Fin (2 ^ 18)) (s : State) : Host.Outcome State Fault Refusal :=
  .next (coilStep e (.imm .addi rd ra imm18) s)

/-- ANDI (R102). -/
def execAndi (e : Fin 17) (rd ra : Fin 16) (imm18 : Fin (2 ^ 18)) (s : State) : Host.Outcome State Fault Refusal :=
  .next (coilStep e (.imm .andi rd ra imm18) s)

/-- ORI (R102). -/
def execOri (e : Fin 17) (rd ra : Fin 16) (imm18 : Fin (2 ^ 18)) (s : State) : Host.Outcome State Fault Refusal :=
  .next (coilStep e (.imm .ori rd ra imm18) s)

/-- XORI (R102). -/
def execXori (e : Fin 17) (rd ra : Fin 16) (imm18 : Fin (2 ^ 18)) (s : State) : Host.Outcome State Fault Refusal :=
  .next (coilStep e (.imm .xori rd ra imm18) s)

/-- SLTI (R102). -/
def execSlti (e : Fin 17) (rd ra : Fin 16) (imm18 : Fin (2 ^ 18)) (s : State) : Host.Outcome State Fault Refusal :=
  .next (coilStep e (.imm .slti rd ra imm18) s)

/-- SLTIU (R102). -/
def execSltiu (e : Fin 17) (rd ra : Fin 16) (imm18 : Fin (2 ^ 18)) (s : State) : Host.Outcome State Fault Refusal :=
  .next (coilStep e (.imm .sltiu rd ra imm18) s)

/-- CONL (R103). -/
def execConl (e : Fin 17) (rd : Fin 16) (imm22 : Fin (2 ^ 22)) (s : State) : Host.Outcome State Fault Refusal :=
  .next (coilStep e (.conl rd imm22) s)

/-- CONS (R103). -/
def execCons (e : Fin 17) (rd : Fin 16) (imm22 : Fin (2 ^ 22)) (s : State) : Host.Outcome State Fault Refusal :=
  .next (coilStep e (.cons rd imm22) s)

/-- LD (R104). -/
def execLd (e : Fin 17) (rd ra : Fin 16) (size : Fin 4) (sgn pair rot : Bool) (off13 : Fin (2 ^ 13)) (s : State) : Host.Outcome State Fault Refusal :=
  .next (coilStep e (.ld rd ra size sgn pair rot off13) s)

/-- ST (R104). -/
def execSt (e : Fin 17) (rs ra : Fin 16) (size : Fin 4) (pair rot : Bool) (off13 : Fin (2 ^ 13)) (s : State) : Host.Outcome State Fault Refusal :=
  .next (coilStep e (.st rs ra size pair rot off13) s)

/-- LDF (R108). -/
def execLdf (e : Fin 17) (rd ra : Fin 16) (size : Fin 4) (sgn pair : Bool) (lim : Fin 64) (off8 : Fin 256) (s : State) : Host.Outcome State Fault Refusal :=
  .next (coilStep e (.ldf rd ra size sgn pair lim off8) s)

/-- STF (R108). -/
def execStf (e : Fin 17) (rs ra : Fin 16) (size : Fin 4) (pair : Bool) (lim : Fin 64) (off8 : Fin 256) (s : State) : Host.Outcome State Fault Refusal :=
  .next (coilStep e (.stf rs ra size pair lim off8) s)

/-- FAR_ACCESS_GRANT (R109). -/
def execFarAccessGrant (e : Fin 17) (g : Fin 252) (n : Fin 25) (s : State) : Host.Outcome State Fault Refusal :=
  .next (farGrant e g n s)

/-- FAR_ACCESS_WITHDRAW (R109). -/
def execFarAccessWithdraw (e : Fin 17) (s : State) : Host.Outcome State Fault Refusal := .next (farWithdraw e s)

/-- BEQ (R111). -/
def execBeq (e : Fin 17) (ra rb : Fin 16) (off18 : Fin (2 ^ 18)) (s : State) : Host.Outcome State Fault Refusal :=
  .next (coilStep e (.br .beq ra rb off18) s)

/-- BNE (R111). -/
def execBne (e : Fin 17) (ra rb : Fin 16) (off18 : Fin (2 ^ 18)) (s : State) : Host.Outcome State Fault Refusal :=
  .next (coilStep e (.br .bne ra rb off18) s)

/-- BLT (R111). -/
def execBlt (e : Fin 17) (ra rb : Fin 16) (off18 : Fin (2 ^ 18)) (s : State) : Host.Outcome State Fault Refusal :=
  .next (coilStep e (.br .blt ra rb off18) s)

/-- BGE (R111). -/
def execBge (e : Fin 17) (ra rb : Fin 16) (off18 : Fin (2 ^ 18)) (s : State) : Host.Outcome State Fault Refusal :=
  .next (coilStep e (.br .bge ra rb off18) s)

/-- BLTU (R111). -/
def execBltu (e : Fin 17) (ra rb : Fin 16) (off18 : Fin (2 ^ 18)) (s : State) : Host.Outcome State Fault Refusal :=
  .next (coilStep e (.br .bltu ra rb off18) s)

/-- BGEU (R111). -/
def execBgeu (e : Fin 17) (ra rb : Fin 16) (off18 : Fin (2 ^ 18)) (s : State) : Host.Outcome State Fault Refusal :=
  .next (coilStep e (.br .bgeu ra rb off18) s)

/-- JMP (R111). -/
def execJmp (e : Fin 17) (imm26 : Fin (2 ^ 26)) (s : State) : Host.Outcome State Fault Refusal :=
  .next (coilStep e (.jmp imm26) s)

/-- CALL (R112). -/
def execCall (e : Fin 17) (imm26 : Fin (2 ^ 26)) (s : State) : Host.Outcome State Fault Refusal :=
  .next (coilStep e (.call imm26) s)

/-- RET (R112). -/
def execRet (e : Fin 17) (s : State) : Host.Outcome State Fault Refusal := .next (coilStep e .ret s)

/-- LOOP (R113). -/
def execLoop (e : Fin 17) (ra : Fin 16) (max12 : Fin (2 ^ 12)) (len10 : Fin (2 ^ 10)) (s : State) : Host.Outcome State Fault Refusal :=
  .next (coilStep e (.loop ra max12 len10) s)

/-- ACT (R116). -/
def execAct (e : Fin 17) (rt rh : Fin 16) (s : State) : Host.Outcome State Fault Refusal :=
  .next (coilStep e (.act rt rh) s)

/-- ACTP (R116). -/
def execActp (e : Fin 17) (rt rh : Fin 16) (port : Fin 128) (code : Fin 32) (s : State) : Host.Outcome State Fault Refusal :=
  .next (coilStep e (.actp rt rh port code) s)

/-- SEAL (R143). -/
def execSeal (e : Fin 17) (s : State) : Host.Outcome State Fault Refusal := .next (coilStep e .seal s)

/-- TRYL (R119). -/
def execTryl (e : Fin 17) (rd ra : Fin 16) (lock : Fin 64) (s : State) : Host.Outcome State Fault Refusal :=
  .next (coilStep e (.tryl rd ra lock) s)

/-- UNL (R120). -/
def execUnl (e : Fin 17) (ra : Fin 16) (lock : Fin 64) (s : State) : Host.Outcome State Fault Refusal :=
  .next (coilStep e (.unl ra lock) s)

/-- EVO (R121). -/
def execEvo (e : Fin 17) (mask : Fin 256) (s : State) : Host.Outcome State Fault Refusal :=
  .next (coilStep e (.evo mask) s)

/-- EVC (R121). -/
def execEvc (e : Fin 17) (mask : Fin 256) (s : State) : Host.Outcome State Fault Refusal :=
  .next (coilStep e (.evc mask) s)

/-- MFS (R122). -/
def execMfs (e : Fin 17) (rd : Fin 16) (sreg : Fin 256) (s : State) : Host.Outcome State Fault Refusal :=
  .next (coilStep e (.mfs rd sreg) s)

/-- MTS (R122). -/
def execMts (e : Fin 17) (ra : Fin 16) (sreg : Fin 256) (s : State) : Host.Outcome State Fault Refusal :=
  .next (coilStep e (.mts ra sreg) s)

/-- LOAD (R135). -/
def execLoad (req : Fin 4) (e : Fin 17) (s : State) : Host.Outcome State Fault Refusal :=
  .next (setField req (COIL_CTRL_LOAD e) 1 s)

/-- PROGRAM_CHECK_END (R136). -/
def execProgramCheckEnd (e : Fin 17) (s : State) : Host.Outcome State Fault Refusal := .next (checkEnd e s)

/-- COIL_HOLD (R162). -/
def execCoilHold (req : Fin 4) (e : Fin 17) (on : Bool) (s : State) : Host.Outcome State Fault Refusal :=
  .next (setField req (COIL_CTRL_HOLD e) on.toNat s)

/-- STEP (R162). -/
def execStep (req : Fin 4) (e : Fin 17) (s : State) : Host.Outcome State Fault Refusal :=
  .next (setField req (COIL_CTRL_STEP e) 1 s)

/-- CHECKPOINT_WRITE (R162). -/
def execCheckpointWrite (req : Fin 4) (e : Fin 17) (n : Fin 16) (val : DWord) (s : State) : Host.Outcome State Fault Refusal :=
  .next (if n = 0 then softWrite req (COIL_CKESTAT e) (val.setWidth 32) s else softWrite64 req (COIL_GREG e n) val s)

/-- LOCK_FORCE (R148). -/
def execLockForce (req : Fin 4) (n : Fin 64) (s : State) : Host.Outcome State Fault Refusal :=
  .next (setField req (COIL_LOCK_FORCE n) 1 s)

/-- COIL_CLR (R171). -/
def execCoilClr (req : Fin 4) (e : Fin 17) (val : Word) (s : State) : Host.Outcome State Fault Refusal :=
  .next (softWrite req (COIL_CLR e) val s)

end Sys2Proof.Machine
end

