-- ==== Sys2Proof/Machine/ExecForestay.lean ====
section
/-! DEFINITION. The meanings of the commands of Forestay links and global operations (R453 to R478). -/

namespace Sys2Proof.Machine

open Sys2Proof Reg

/-- FRAME_SLOT (R456). -/
def execFrameSlot (x : Fin 3) (fine : Fin 256) (s : State) : Host.Outcome State Fault Refusal :=
  .next (frameSlot x fine s)

/-- LINK_UP (R453). -/
def execLinkUp (x : Fin 3) (own : Bool) (s : State) : Host.Outcome State Fault Refusal := .next (linkUp x own s)

/-- LINK_DOWN (R453). -/
def execLinkDown (x : Fin 3) (s : State) : Host.Outcome State Fault Refusal :=
  .next (if s.linkOn x then linkOff x s else s)

/-- CALT (R455). -/
def execCalt (x : Fin 3) (head : FrsHead) (pay : Word) (fine : Fin 256) (s : State) : Host.Outcome State Fault Refusal :=
  .next (rxCalt x head pay.toNat fine s)

/-- CALR (R455). -/
def execCalr (x : Fin 3) (head : FrsHead) (pay : Word) (s : State) : Host.Outcome State Fault Refusal :=
  .next (rxCalr x head pay.toNat s)

/-- CALH (R455). -/
def execCalh (x : Fin 3) (head : FrsHead) (pay : Word) (s : State) : Host.Outcome State Fault Refusal :=
  .next (rxCalh x head pay.toNat s)

/-- EVENT (R464). -/
def execEvent (x : Fin 3) (head : FrsHead) (pay : Word) (s : State) : Host.Outcome State Fault Refusal :=
  .next (rxEvent x head pay.toNat s)

/-- EVENT_DELIVERY (R464). -/
def execEventDelivery (k : Fin 8) (s : State) : Host.Outcome State Fault Refusal := .next (eventDelivery k s)

/-- OPSTART (R467). -/
def execOpstart (x : Fin 3) (head : FrsHead) (pay : Word) (s : State) : Host.Outcome State Fault Refusal :=
  .next (rxOpStart x head pay.toNat s)

/-- OPCONT (R467). -/
def execOpcont (x : Fin 3) (head : FrsHead) (pay : Word) (s : State) : Host.Outcome State Fault Refusal :=
  .next (rxOpCont x head pay.toNat s)

/-- TREE (R463). -/
def execTree (x : Fin 3) (head : FrsHead) (pay : Word) (s : State) : Host.Outcome State Fault Refusal :=
  .next (rxTree x head pay.toNat s)

/-- IDLE (R455). -/
def execIdle (x : Fin 3) (head : FrsHead) (s : State) : Host.Outcome State Fault Refusal := .next (rxIdle x head s)

/-- OPERATION_GO (R466). -/
def execOperationGo (req : Fin 4) (kind : Fin 8) (s : State) : Host.Outcome State Fault Refusal :=
  .next (softWrite req FRS_OPCMD (BitVec.ofNat 32 (256 + kind.val)) s)

/-- TICKSTART (R469). -/
def execTickstart (s : State) : Host.Outcome State Fault Refusal := .next (frsTickStart s)

/-- ACTION (R470). -/
def execAction (s : State) : Host.Outcome State Fault Refusal := .next (frsAction s)

/-- SNAPSHOT (R471). -/
def execSnapshot (s : State) : Host.Outcome State Fault Refusal := .next (frsSnapshot s)

/-- RESET (R472). -/
def execReset (s : State) : Host.Outcome State Fault Refusal := .next (frsReset s)

/-- FORESTAY_DISABLE (R474). -/
def execForestayDisable (req : Fin 4) (s : State) : Host.Outcome State Fault Refusal :=
  .next (setField req FRS_CTRL_EN 0 s)

end Sys2Proof.Machine
end

