-- ==== Sys2Proof/Machine/ExecHalyard.lean ====
section
/-! DEFINITION. The meanings of the commands of Halyard DMA (R315 to R343). -/

namespace Sys2Proof.Machine

open Sys2Proof Reg

/-- DMA_GO (R322). Software that starts an enabled channel writes EN = 1 with GO = 1 (R336). -/
def execDmaGo (req : Fin 4) (c : Fin 32) (s : State) : Host.Outcome State Fault Refusal :=
  .next (softWrite req (HLY_CCTRL c) 3 s)

/-- CHANNEL_ENABLE (R336). -/
def execChannelEnable (req : Fin 4) (c : Fin 32) (s : State) : Host.Outcome State Fault Refusal :=
  .next (setField req (HLY_CCTRL_EN c) 1 s)

/-- CHANNEL_DISABLE (R335). -/
def execChannelDisable (req : Fin 4) (c : Fin 32) (s : State) : Host.Outcome State Fault Refusal :=
  .next (setField req (HLY_CCTRL_EN c) 0 s)

/-- DISABLE_DRAINED (R335). -/
def execDisableDrained (c : Fin 32) (s : State) : Host.Outcome State Fault Refusal := .next (disableDrained c s)

/-- TRIGCLR (R324). -/
def execTrigclr (req : Fin 4) (c : Fin 32) (s : State) : Host.Outcome State Fault Refusal :=
  .next (setField req (HLY_CCTRL_TRIGCLR c) 1 s)

/-- DESCRIPTOR_FETCH (R320). -/
def execDescriptorFetch (c : Fin 32) (s : State) : Host.Outcome State Fault Refusal := .next (descFetch c s)

/-- TRANSFER_START (R324). -/
def execTransferStart (c : Fin 32) (s : State) : Host.Outcome State Fault Refusal := .next (xferStart c s)

/-- TRANSACTION_ISSUE (R326). -/
def execTransactionIssue (s : State) : Host.Outcome State Fault Refusal := .next (xactIssue s)

/-- READ_RETURN (R325). -/
def execReadReturn (id : Nat) (status : Fin 4) (data : List Byte) (s : State) : Host.Outcome State Fault Refusal :=
  .next (readReturn id status data s)

/-- WRITE_PERFORMED (R326). -/
def execWritePerformed (id : Nat) (s : State) : Host.Outcome State Fault Refusal := .next (writePerformed id s)

/-- FLUSH_RETURN (R330). -/
def execFlushReturn (id : Nat) (s : State) : Host.Outcome State Fault Refusal := .next (flushReturn id s)

/-- DESCRIPTOR_COMPLETE (R329). -/
def execDescriptorComplete (c : Fin 32) (s : State) : Host.Outcome State Fault Refusal := .next (descComplete c s)

/-- BUSERR_CLEAR (R334). -/
def execBuserrClear (req : Fin 4) (s : State) : Host.Outcome State Fault Refusal :=
  .next (setField req HLY_STATUS_BUSERR 1 s)

/-- BUSCNT_CLR (R340). -/
def execBuscntClr (req : Fin 4) (s : State) : Host.Outcome State Fault Refusal :=
  .next (setField req HLY_BUSCNT_CLR 1 s)

/-- CDESC_WRITE (R343). -/
def execCdescWrite (req : Fin 4) (c : Fin 32) (val : DWord) (s : State) : Host.Outcome State Fault Refusal :=
  .next (softWrite64 req (HLY_CDESC c) val s)

/-- CCNT_WRITE (R343). -/
def execCcntWrite (req : Fin 4) (c : Fin 32) (val : Word) (s : State) : Host.Outcome State Fault Refusal :=
  .next (softWrite req (HLY_CCNT c) val s)

/-- COMPLETION_TIMEOUT (R331). -/
def execCompletionTimeout (id : Nat) (s : State) : Host.Outcome State Fault Refusal := .next (completionTimeout id s)

end Sys2Proof.Machine
end

