-- ==== Sys2Proof/Machine/ExecHost.lean ====
section
/-! DEFINITION. The meanings of the commands of the host link (R346, R356, R373 to R382, R422). -/

namespace Sys2Proof.Machine

open Sys2Proof Reg

/-- HOST_MEM_READ (R346). -/
def execHostMemRead (req : ReqDesc) (a : Fin (2 ^ 25)) (len : Fin 4097) (s : State) : Host.Outcome State Fault Refusal :=
  .next (hostMemRead req.tag a len (asking req.tag req.attr s))

/-- HOST_MEM_WRITE (R346). -/
def execHostMemWrite (a : Fin (2 ^ 25)) (data : List (Option Byte)) (s : State) : Host.Outcome State Fault Refusal :=
  .next (hostMemWrite a data s)

/-- HOST_ALIAS_ACCESS (R356). -/
def execHostAliasAccess (req : ReqDesc) (write : Bool) (a : Fin (2 ^ 25)) (data : List (Option Byte)) (s : State) :
    Host.Outcome State Fault Refusal :=
  .next (hostAlias req.tag write a data (if write then s else asking req.tag req.attr s))

/-- HOST_READ_TIMEOUT (R380). -/
def execHostReadTimeout (tag : Fin 256) (s : State) : Host.Outcome State Fault Refusal :=
  .next (hostReadTimeout tag s)

/-- BAR0_READ_REQUEST (R377). -/
def execBar0ReadRequest (req : ReqDesc) (off : Fin (2 ^ 24)) (n : Fin 1025) (s : State) : Host.Outcome State Fault Refusal :=
  .next (bar0Read req.tag off n (asking req.tag req.attr s))

/-- BAR0_WRITE_REQUEST (R377). -/
def execBar0WriteRequest (off : Fin (2 ^ 24)) (vals : List Word) (full : Bool) (s : State) : Host.Outcome State Fault Refusal :=
  .next (bar0Write off vals full s)

/-- FIELD_PROXY_ACCESS (R379). -/
def execFieldProxyAccess (s : State) : Host.Outcome State Fault Refusal := .next (proxyAccess s)

/-- CONFIG_REQUEST (R422). -/
def execConfigRequest (req : ReqDesc) (at_ : CfgAddr) (val : Option Word) (s : State) : Host.Outcome State Fault Refusal :=
  .next (configRequest req.tag req.attr at_.routing at_.reg val s)

/-- HOST_LINK_RESET (R381). -/
def execHostLinkReset (k : HostEvent) (s : State) : Host.Outcome State Fault Refusal :=
  .next (hostLinkReset k.code s)

/-- D3HOT_ENTRY (R382). -/
def execD3hotEntry (s : State) : Host.Outcome State Fault Refusal := .next (d3hotEntry s)

/-- PCIE_LINK_UP (R381). -/
def execPcieLinkUp (s : State) : Host.Outcome State Fault Refusal := .next (pcieLinkUp s)

end Sys2Proof.Machine
end

