-- ==== Sys2Proof/Machine/ExecLanyard.lean ====
section
/-! DEFINITION. The meanings of the commands of the Lanyard port, its commands, the mailbox and the fault log (R385 to R402, R427, R449). -/

namespace Sys2Proof.Machine

open Sys2Proof Reg

/-- REQUEST_FRAME (R391). -/
def execRequestFrame (frame : LanWrite) (s : State) : Host.Outcome State Fault Refusal :=
  .next (requestFrame frame.start frame.bytes s)

/-- I2C_READ (R388). -/
def execI2cRead (read : LanRead) (s : State) : Host.Outcome State Fault Refusal :=
  .next (i2cRead read.addr.toNat read.n s)

/-- SPI_READ_RESPONSE (R387). -/
def execSpiReadResponse (n : Nat) (s : State) : Host.Outcome State Fault Refusal := .next (spiReadResponse n s)

/-- SPI_READ_STATUS (R387). -/
def execSpiReadStatus (n : Nat) (s : State) : Host.Outcome State Fault Refusal := .next (spiReadStatus n s)

/-- RESPONSE_READY (R391). -/
def execResponseReady (s : State) : Host.Outcome State Fault Refusal := .next (responseReady s)

/-- GET_INFO (R394). -/
def execGetInfo (s : State) : Host.Outcome State Fault Refusal := .next (getInfo s)

/-- READ_REG (R395). -/
def execReadReg (s : State) : Host.Outcome State Fault Refusal := .next (lanReadReg s)

/-- WRITE_REG (R395). -/
def execWriteReg (s : State) : Host.Outcome State Fault Refusal := .next (lanWriteReg s)

/-- READ_MEM (R396). -/
def execReadMem (s : State) : Host.Outcome State Fault Refusal := .next (lanReadMem s)

/-- WRITE_MEM (R396). -/
def execWriteMem (s : State) : Host.Outcome State Fault Refusal := .next (lanWriteMem s)

/-- GET_STATUS (R394). -/
def execGetStatus (s : State) : Host.Outcome State Fault Refusal := .next (getStatus s)

/-- READ_LOG (R399). -/
def execReadLog (s : State) : Host.Outcome State Fault Refusal := .next (readLog s)

/-- CLEAR_LOG (R399). -/
def execClearLog (s : State) : Host.Outcome State Fault Refusal := .next (clearLog s)

/-- REC_INFO (R429). -/
def execRecInfo (s : State) : Host.Outcome State Fault Refusal := .next (recInfo s)

/-- REC_WRITE (R427). -/
def execRecWrite (s : State) : Host.Outcome State Fault Refusal := .next (lanRecWrite s)

/-- REC_FINISH (R428). -/
def execRecFinish (s : State) : Host.Outcome State Fault Refusal := .next (lanRecFinish s)

/-- SECTOR_ERASE_END (R427). -/
def execSectorEraseEnd (ok : Bool) (s : State) : Host.Outcome State Fault Refusal := .next (sectorErased ok s)

/-- PAGE_PROGRAM_END (R427). -/
def execPageProgramEnd (ok : Bool) (s : State) : Host.Outcome State Fault Refusal := .next (pageProgrammed ok s)

/-- DOMAIN_SET (R397). -/
def execDomainSet (s : State) : Host.Outcome State Fault Refusal := .next (domainSet s)

/-- BLOCK_RESET (R501). -/
def execBlockReset (s : State) : Host.Outcome State Fault Refusal := .next (lanBlockReset s)

/-- GET_CERT (R436). -/
def execGetCert (s : State) : Host.Outcome State Fault Refusal := .next (getCert s)

/-- ATTEST (R449). -/
def execAttest (s : State) : Host.Outcome State Fault Refusal := .next (attest s)

/-- MBOX_GET (R401). -/
def execMboxGet (s : State) : Host.Outcome State Fault Refusal := .next (mboxGet s)

/-- MBOX_PUT (R401). -/
def execMboxPut (s : State) : Host.Outcome State Fault Refusal := .next (mboxPut s)

/-- H2M_SEND (R401). -/
def execH2mSend (req : Fin 4) (s : State) : Host.Outcome State Fault Refusal :=
  .next (setField req LAN_MBCTL_H2M_SEND 1 s)

/-- M2H_ACK (R401). -/
def execM2hAck (req : Fin 4) (s : State) : Host.Outcome State Fault Refusal :=
  .next (setField req LAN_MBCTL_M2H_ACK 1 s)

/-- FAULT_LOG_ENTRY (R399). -/
def execFaultLogEntry (s : State) : Host.Outcome State Fault Refusal := .next (faultLogEntry s)

end Sys2Proof.Machine
end

