-- ==== Sys2Proof/Machine/ExecLegacy.lean ====
section
/-! DEFINITION. The meanings of the commands of the compatibility window (R403 to R408). -/

namespace Sys2Proof.Machine

open Sys2Proof Reg

/-- LEGACY_TIMER_ENABLE (R403). -/
def execLegacyTimerEnable (req : Fin 4) (n : Fin 16) (s : State) : Host.Outcome State Fault Refusal :=
  .next (setField req (LGC_TCTRL_EN (n.val / 4) (n.val % 4)) 1 s)

/-- LEGACY_TIMER_DISABLE (R406). -/
def execLegacyTimerDisable (req : Fin 4) (n : Fin 16) (s : State) : Host.Outcome State Fault Refusal :=
  .next (setField req (LGC_TCTRL_EN (n.val / 4) (n.val % 4)) 0 s)

/-- FLUSH (R406). -/
def execFlush (req : Fin 4) (n : Fin 16) (s : State) : Host.Outcome State Fault Refusal :=
  .next (setField req (LGC_TCTRL_FLUSH (n.val / 4) (n.val % 4)) 1 s)

/-- LEGACY_BANK_DISABLE (R406). -/
def execLegacyBankDisable (req : Fin 4) (b : Fin 4) (s : State) : Host.Outcome State Fault Refusal :=
  .next (setField req (LGC_BCTRL_EN b) 0 s)

/-- LEGACY_ISSUE (R404). -/
def execLegacyIssue (s : State) : Host.Outcome State Fault Refusal := .next (lgcIssue s)

end Sys2Proof.Machine
end

