-- ==== Sys2Proof/Machine/ExecPort.lean ====
section
/-! DEFINITION. The meanings of the commands of ports: actions, edges, counters and drivers (R172 to R210, R433, R516). -/

namespace Sys2Proof.Machine

open Sys2Proof Reg

/-- ACTION_ARRIVAL (R175). -/
def execActionArrival (p : Fin 96) (s : State) : Host.Outcome State Fault Refusal := .next (actionArrival p s)

/-- RETIME (R179). -/
def execRetime (p : Fin 96) (s : State) : Host.Outcome State Fault Refusal := .next (retimeArrival p s)

/-- CANCEL (R179). -/
def execCancel (p : Fin 96) (s : State) : Host.Outcome State Fault Refusal := .next (cancelArrival p s)

/-- NOP (R174). -/
def execNop (p : Fin 96) (s : State) : Host.Outcome State Fault Refusal := .next (runAction 0x00 p s)

/-- SET (R174). -/
def execSet (p : Fin 96) (s : State) : Host.Outcome State Fault Refusal := .next (runAction 0x01 p s)

/-- CLR (R174). -/
def execClr (p : Fin 96) (s : State) : Host.Outcome State Fault Refusal := .next (runAction 0x02 p s)

/-- TOG (R174). -/
def execTog (p : Fin 96) (s : State) : Host.Outcome State Fault Refusal := .next (runAction 0x03 p s)

/-- PULSE (R178). -/
def execPulse (p : Fin 96) (s : State) : Host.Outcome State Fault Refusal := .next (runAction 0x04 p s)

/-- HIZ (R174). -/
def execHiz (p : Fin 96) (s : State) : Host.Outcome State Fault Refusal := .next (runAction 0x06 p s)

/-- DRIVE (R174). -/
def execDrive (p : Fin 96) (s : State) : Host.Outcome State Fault Refusal := .next (runAction 0x07 p s)

/-- CLOAD (R193). -/
def execCload (p : Fin 96) (s : State) : Host.Outcome State Fault Refusal := .next (runAction 0x08 p s)

/-- CRLD (R193). -/
def execCrld (p : Fin 96) (s : State) : Host.Outcome State Fault Refusal := .next (runAction 0x09 p s)

/-- CCMP (R194). -/
def execCcmp (p : Fin 96) (s : State) : Host.Outcome State Fault Refusal := .next (runAction 0x0A p s)

/-- CSTART (R174). -/
def execCstart (p : Fin 96) (s : State) : Host.Outcome State Fault Refusal := .next (runAction 0x0B p s)

/-- CSTOP (R174). -/
def execCstop (p : Fin 96) (s : State) : Host.Outcome State Fault Refusal := .next (runAction 0x0C p s)

/-- CSNAP (R183). -/
def execCsnap (p : Fin 96) (s : State) : Host.Outcome State Fault Refusal := .next (runAction 0x0D p s)

/-- CUPPER (R191). -/
def execCupper (p : Fin 96) (s : State) : Host.Outcome State Fault Refusal := .next (runAction 0x0E p s)

/-- CAPON (R185). -/
def execCapon (p : Fin 96) (s : State) : Host.Outcome State Fault Refusal := .next (runAction 0x10 p s)

/-- CAPOFF (R185). -/
def execCapoff (p : Fin 96) (s : State) : Host.Outcome State Fault Refusal := .next (runAction 0x11 p s)

/-- PULSE_END (R178). -/
def execPulseEnd (p : Fin 96) (s : State) : Host.Outcome State Fault Refusal := .next (pulseEnd p s)

/-- SPACING_HELD_EDGE (R177). -/
def execSpacingHeldEdge (p : Fin 96) (s : State) : Host.Outcome State Fault Refusal := .next (heldEdge p s)

/-- INPUT_EDGE (R182). -/
def execInputEdge (p : Fin 96) (level : Bool) (fine : Fin 256) (s : State) : Host.Outcome State Fault Refusal :=
  .next (portInput p level fine s)

/-- EDGE_QUALIFY (R186). -/
def execEdgeQualify (p : Fin 96) (s : State) : Host.Outcome State Fault Refusal := .next (edgeQualify p s)

/-- COUNTER_STEP (R191). -/
def execCounterStep (p : Fin 96) (s : State) : Host.Outcome State Fault Refusal := .next (counterStep p s)

/-- ARM_PULSE (R197). -/
def execArmPulse (p : Fin 96) (s : State) : Host.Outcome State Fault Refusal := .next (armPulse p s)

/-- PORT_ENABLE (R188). -/
def execPortEnable (req : Fin 4) (p : Fin 96) (s : State) : Host.Outcome State Fault Refusal :=
  .next (setField req (PRT_CTRL_EN p) 1 s)

/-- PORT_DISABLE (R188). -/
def execPortDisable (req : Fin 4) (p : Fin 96) (s : State) : Host.Outcome State Fault Refusal :=
  .next (setField req (PRT_CTRL_EN p) 0 s)

/-- CLRQ (R199). -/
def execClrq (req : Fin 4) (p : Fin 96) (s : State) : Host.Outcome State Fault Refusal :=
  .next (setField req (PRT_CTRL_CLRQ p) 1 s)

/-- PRT_CLR (R206). -/
def execPrtClr (req : Fin 4) (p : Fin 96) (val : Word) (s : State) : Host.Outcome State Fault Refusal :=
  .next (softWrite req (PRT_CLR p) val s)

/-- COUNTER_LOAD (R193). -/
def execCounterLoad (req : Fin 4) (p : Fin 96) (val : DWord) (s : State) : Host.Outcome State Fault Refusal :=
  .next (softWrite64 req (PRT_CNT p) val s)

/-- RELOAD_WRITE (R193). -/
def execReloadWrite (req : Fin 4) (p : Fin 96) (val : DWord) (s : State) : Host.Outcome State Fault Refusal :=
  .next (softWrite64 req (PRT_RLD p) val s)

/-- COMPARE_WRITE (R194). -/
def execCompareWrite (req : Fin 4) (p : Fin 96) (val : DWord) (s : State) : Host.Outcome State Fault Refusal :=
  .next (softWrite64 req (PRT_CMP p) val s)

/-- COUNTER_RUN (R207). -/
def execCounterRun (req : Fin 4) (p : Fin 96) (on : Bool) (s : State) : Host.Outcome State Fault Refusal :=
  .next (setField req (PRT_CCTRL_RUN p) on.toNat s)

/-- OVERCURRENT_OFF (R189). -/
def execOvercurrentOff (p : Fin 64) (s : State) : Host.Outcome State Fault Refusal := .next (overcurrentOff p s)

/-- OCP_CLEAR (R189). -/
def execOcpClear (req : Fin 4) (p : Fin 64) (s : State) : Host.Outcome State Fault Refusal :=
  .next (setField req (PRT_STATUS_OCP p) 1 s)

/-- LOAD_SHED (R516). -/
def execLoadShed (hot : List (Fin 64)) (more : Fin 65) (s : State) : Host.Outcome State Fault Refusal :=
  .next (loadShed (hot.map Fin.val) more s)

/-- CALIBRATION (R433). Recalibration moves no edge and no capture, and takes nothing from the registers (R433). -/
def execCalibration (p : Fin 96) (s : State) : Host.Outcome State Fault Refusal := .next s

/-- VR_ZERO_CROSSING (R215). -/
def execVrZeroCrossing (p : Fin 8) (fine : Fin 256) (s : State) : Host.Outcome State Fault Refusal :=
  .next (vrZero p fine s)

end Sys2Proof.Machine
end

