-- ==== Sys2Proof/Machine/ExecPower.lean ====
section
/-! DEFINITION. The meanings of the commands of supplies, resets and power domains (R481 to R500, R507). -/

namespace Sys2Proof.Machine

open Sys2Proof Reg

/-- SUPPLY_CHANGE (R481). -/
def execSupplyChange (k : Fin 6) (ev : Fin 5) (s : State) : Host.Outcome State Fault Refusal :=
  .next (supplyChange k ev s)

/-- SHUTDOWN_NOTICE (R491). -/
def execShutdownNotice (s : State) : Host.Outcome State Fault Refusal := .next (hostGoOn (shutdownNotice s))

/-- POWER_ON_RESET (R483). -/
def execPowerOnReset (s : State) : Host.Outcome State Fault Refusal := .next (powerOnReset s)

/-- SYS_RESET (R500). -/
def execSysReset (s : State) : Host.Outcome State Fault Refusal := .next (sysReset s)

/-- WAKE (R498). -/
def execWake (s : State) : Host.Outcome State Fault Refusal := .next (wake s)

/-- DOMAIN_SWITCH_ON (R486). -/
def execDomainSwitchOn (s : State) : Host.Outcome State Fault Refusal := .next (domainSwitchOn s)

/-- DOMAIN_DECLARED_ON (R485). -/
def execDomainDeclaredOn (s : State) : Host.Outcome State Fault Refusal := .next (domainDeclaredOn s)

/-- DOMAIN_SWITCH_OFF (R488). -/
def execDomainSwitchOff (s : State) : Host.Outcome State Fault Refusal := .next (hostGoOn (domainSwitchOff s))

/-- DOMAIN_DECLARED_OFF (R486). -/
def execDomainDeclaredOff (s : State) : Host.Outcome State Fault Refusal := .next (domainDeclaredOff s)

/-- DOMAIN_FAIL (R486). -/
def execDomainFail (s : State) : Host.Outcome State Fault Refusal := .next (domainFail s)

/-- PWRCTL_WRITE (R507). -/
def execPwrctlWrite (req : Fin 4) (val : Word) (s : State) : Host.Outcome State Fault Refusal :=
  .next (softWrite req GLB_PWRCTL val s)

/-- BLKRST_WRITE (R507). -/
def execBlkrstWrite (req : Fin 4) (val : Word) (s : State) : Host.Outcome State Fault Refusal :=
  .next (softWrite req GLB_BLKRST val s)

/-- VFIELD_MEASURE (R508). -/
def execVfieldMeasure (val : Fin 256) (s : State) : Host.Outcome State Fault Refusal := .next (vfieldMeasure val s)

end Sys2Proof.Machine
end

