-- ==== Sys2Proof/Machine/ExecRegs.lean ====
section
/-! DEFINITION. The meanings of the commands of register writes of software, wide reads and writes, and commits (R10 to R14, R27, R30, R52 to R56, R383). -/

namespace Sys2Proof.Machine

open Sys2Proof Reg

/-- REGISTER_WRITE (R10). -/
def execRegisterWrite (req : Fin 4) (off : Fin (2 ^ 24)) (val : Word) (s : State) : Host.Outcome State Fault Refusal :=
  .next (softWrite req off val s)

/-- WIDE_READ_LATCH (R52). -/
def execWideReadLatch (req : Fin 2) (off : Fin (2 ^ 24)) (s : State) : Host.Outcome State Fault Refusal :=
  .next ((readReg req off s).2)

/-- WIDE_WRITE_PART (R53). -/
def execWideWritePart (req : Fin 2) (off : Fin (2 ^ 24)) (val : Word) (s : State) : Host.Outcome State Fault Refusal :=
  .next (softWrite req off val s)

/-- RDMODE_WRITE (R55). -/
def execRdmodeWrite (req : Fin 4) (val : Word) (s : State) : Host.Outcome State Fault Refusal :=
  .next (softWrite req GLB_RDMODE val s)

/-- COMMIT (R12). -/
def execCommit (req : Fin 4) (off : Fin (2 ^ 24)) (s : State) : Host.Outcome State Fault Refusal :=
  .next (if (commitRange off).isSome then softWrite req off 1 s else s)

/-- COMMIT_APPLY_NO_TICK (R14). -/
def execCommitApplyNoTick (off : Fin (2 ^ 24)) (s : State) : Host.Outcome State Fault Refusal :=
  .next (commitNoTick off s)

/-- PORTOWN_WRITE (R27). -/
def execPortownWrite (req : Fin 4) (p : Fin 96) (val : Word) (s : State) : Host.Outcome State Fault Refusal :=
  .next (softWrite req (GLB_PORTOWN p) val s)

/-- OWNERR_CLR (R30). -/
def execOwnerrClr (req : Fin 4) (s : State) : Host.Outcome State Fault Refusal :=
  .next (setField req GLB_OWNERR_CLR 1 s)

/-- WERR_CLR (R383). -/
def execWerrClr (req : Fin 4) (s : State) : Host.Outcome State Fault Refusal := .next (setField req GLB_WERR_CLR 1 s)

end Sys2Proof.Machine
end

