-- ==== Sys2Proof/Machine/ExecRigging.lean ====
section
/-! DEFINITION. The meanings of the commands of the Rigging matrix, its taps and the capture writer (R291 to R314). -/

namespace Sys2Proof.Machine

open Sys2Proof Reg

/-- ROUTE_DELIVERY (R294). -/
def execRouteDelivery (n : Fin 1024) (s : State) : Host.Outcome State Fault Refusal := .next (routeDelivery n s)

/-- FIELD_ROUTE_APPLY (R297). -/
def execFieldRouteApply (s : State) : Host.Outcome State Fault Refusal := .next (fieldRouteApply s)

/-- HOLDOFF_END (R307). -/
def execHoldoffEnd (v : Fin 64) (s : State) : Host.Outcome State Fault Refusal := .next (holdoffEnd v s)

/-- MSIX_UNMASK (R307). -/
def execMsixUnmask (v : Fin 64) (s : State) : Host.Outcome State Fault Refusal := .next (msixUnmask v s)

/-- SOFTWARE_PULSE (R311). -/
def execSoftwarePulse (req : Fin 4) (val : Word) (s : State) : Host.Outcome State Fault Refusal :=
  .next (softWrite req RIG_SWPULSE val s)

/-- RIG_CLR (R311). -/
def execRigClr (req : Fin 4) (val : Word) (s : State) : Host.Outcome State Fault Refusal :=
  .next (softWrite req RIG_CLR val s)

/-- TAP_CLEAR (R313). -/
def execTapClear (req : Fin 4) (v : Fin 64) (s : State) : Host.Outcome State Fault Refusal :=
  .next (softWrite req RIG_TAPCLR (BitVec.ofNat 32 (256 + v.val)) s)

/-- CWRD_WRITE (R303). -/
def execCwrdWrite (req : Fin 4) (val : Word) (s : State) : Host.Outcome State Fault Refusal :=
  .next (softWrite req RIG_CWRD val s)

/-- CAPTURE_WRITER_ENABLE (R305). -/
def execCaptureWriterEnable (req : Fin 4) (s : State) : Host.Outcome State Fault Refusal :=
  .next (setField req RIG_CWCFG_EN 1 s)

end Sys2Proof.Machine
end

