-- ==== Sys2Proof/Machine/ExecSheave.lean ====
section
/-! DEFINITION. The meanings of the commands of the sheave units (R255 to R290). -/

namespace Sys2Proof.Machine

open Sys2Proof Reg

/-- SHEAVE_ENABLE (R257). -/
def execSheaveEnable (req : Fin 4) (u : Fin 8) (s : State) : Host.Outcome State Fault Refusal :=
  .next (setField req (SHV_CTRL_EN u) 1 s)

/-- SHEAVE_STOP (R258). -/
def execSheaveStop (req : Fin 4) (u : Fin 8) (s : State) : Host.Outcome State Fault Refusal :=
  .next (setField req (SHV_CTRL_EN u) 0 s)

/-- QUAD_SAMPLE (R261). -/
def execQuadSample (u : Fin 8) (s : State) : Host.Outcome State Fault Refusal := .next (quadSample u s)

/-- SINCOS_PAIR (R266). -/
def execSincosPair (u : Fin 8) (sn cs : BitVec 14) (s : State) : Host.Outcome State Fault Refusal :=
  .next (sincosPair u sn.toInt cs.toInt s)

/-- COMPARATOR_SAMPLE (R269). -/
def execComparatorSample (u : Fin 8) (sneg clow : Bool) (s : State) : Host.Outcome State Fault Refusal :=
  .next (comparatorSample u sneg clow s)

/-- SSI_FRAME_START (R272). -/
def execSsiFrameStart (u : Fin 8) (s : State) : Host.Outcome State Fault Refusal := .next (ssiStart u s)

/-- SSI_FRAME_END (R274). -/
def execSsiFrameEnd (u : Fin 8) (bits : DWord) (s : State) : Host.Outcome State Fault Refusal := .next (ssiEnd u bits s)

/-- POSITION_LOAD (R275). -/
def execPositionLoad (req : Fin 4) (u : Fin 8) (val : DWord) (s : State) : Host.Outcome State Fault Refusal :=
  .next (softWrite64 req (SHV_POS u) val s)

/-- SPEED_WINDOW (R276). -/
def execSpeedWindow (u : Fin 8) (s : State) : Host.Outcome State Fault Refusal := .next (speedWindow u s)

/-- STANDSTILL (R278). -/
def execStandstill (u : Fin 8) (s : State) : Host.Outcome State Fault Refusal := .next (standstill u s)

/-- COMPARE_VALUE_WRITE (R281). -/
def execCompareValueWrite (req : Fin 4) (u : Fin 8) (c : Fin 16) (val : DWord) (s : State) : Host.Outcome State Fault Refusal :=
  .next (softWrite64 req (SHV_CMPVAL u c) val s)

/-- SHV_CLR (R289). -/
def execShvClr (req : Fin 4) (u : Fin 8) (val : Word) (s : State) : Host.Outcome State Fault Refusal :=
  .next (softWrite req (SHV_CLR u) val s)

end Sys2Proof.Machine
end

