-- ==== Sys2Proof/Machine/ExecStay.lean ====
section
/-! DEFINITION. The meanings of the commands of the Stay link, and the reference of the Mast timebase (R38, R492 to R502). -/

namespace Sys2Proof.Machine

open Sys2Proof Reg

/-- STAY_RECORD_RECEIVE (R494). -/
def execStayRecordReceive (ret : Bool) (seq : Fin 4096) (ack : Bool) (s : State) : Host.Outcome State Fault Refusal :=
  .next (stayReceive ret seq ack s)

/-- SEQUENCE_WAIT_EXPIRY (R494). -/
def execSequenceWaitExpiry (ret : Bool) (s : State) : Host.Outcome State Fault Refusal := .next (waitExpiry ret s)

/-- LANE_FAIL (R495). -/
def execLaneFail (ret : Bool) (k : Fin 4) (s : State) : Host.Outcome State Fault Refusal := .next (laneFail ret k s)

/-- THREE_LANE_START (R495). -/
def execThreeLaneStart (s : State) : Host.Outcome State Fault Refusal := .next (threeLaneStart s)

/-- STAY_LINK_LOSS (R492). -/
def execStayLinkLoss (s : State) : Host.Outcome State Fault Refusal := .next (hostGoOn (linkLoss s))

/-- LOSS_TIMEOUT (R492). -/
def execLossTimeout (s : State) : Host.Outcome State Fault Refusal := .next (lossTimeout s)

/-- RETRAIN_END (R502). -/
def execRetrainEnd (tx rx : Fin 16) (s : State) : Host.Outcome State Fault Refusal := .next (retrainEnd tx rx s)

/-- RETRAIN_TIMEOUT (R502). -/
def execRetrainTimeout (s : State) : Host.Outcome State Fault Refusal := .next (hostGoOn (retrainTimeout s))

/-- REFERENCE_VALID (R38). -/
def execReferenceValid (s : State) : Host.Outcome State Fault Refusal := .next (referenceValid s)

end Sys2Proof.Machine
end

