-- ==== Sys2Proof/Machine/ExecTime.lean ====
section
/-! DEFINITION. The meanings of the commands of the timebase, ticks and the slot walk (R36 to R86, R538). -/

namespace Sys2Proof.Machine

open Sys2Proof Reg

/-- MAST_CYCLE (R40). -/
def execMastCycle (s : State) : Host.Outcome State Fault Refusal := .next (hostGoOn (checkBeats (mastCycle s)))

/-- TIMEBASE_START (R41). -/
def execTimebaseStart (req : Fin 4) (s : State) : Host.Outcome State Fault Refusal :=
  .next (setField req MST_CTRL_RUN 1 s)

/-- TIMEBASE_STOP (R41). -/
def execTimebaseStop (req : Fin 4) (s : State) : Host.Outcome State Fault Refusal :=
  .next (setField req MST_CTRL_RUN 0 s)

/-- MAST_PLL_LOCK (R39). -/
def execMastPllLock (s : State) : Host.Outcome State Fault Refusal := .next (pllLocks s)

/-- REFERENCE_LOST (R38). -/
def execReferenceLost (s : State) : Host.Outcome State Fault Refusal := .next (referenceLost s)

/-- PPS_EDGE (R43). -/
def execPpsEdge (rising : Bool) (fine : Fin 256) (s : State) : Host.Outcome State Fault Refusal :=
  .next (ppsEdge rising fine s)

/-- FIELD_REALIGN (R44). -/
def execFieldRealign (resid : Int) (s : State) : Host.Outcome State Fault Refusal := .next (fieldRealign resid s)

/-- TICKS_START (R59). -/
def execTicksStart (req : Fin 4) (s : State) : Host.Outcome State Fault Refusal :=
  .next (setField req KLN_CTRL_RUN 1 s)

/-- TICKS_STOP (R60). -/
def execTicksStop (req : Fin 4) (s : State) : Host.Outcome State Fault Refusal :=
  .next (setField req KLN_CTRL_RUN 0 s)

/-- TICKING_END (R60). -/
def execTickingEnd (s : State) : Host.Outcome State Fault Refusal := .next (tickingEnd s)

/-- KILN_HOLD (R70). -/
def execKilnHold (req : Fin 4) (on : Bool) (s : State) : Host.Outcome State Fault Refusal :=
  .next (setField req KLN_CTRL_HOLD on.toNat s)

/-- TICK_BOUNDARY (R61). -/
def execTickBoundary (s : State) : Host.Outcome State Fault Refusal := .next (tickBoundary s)

/-- VIRTUAL_BOUNDARY (R538). -/
def execVirtualBoundary (s : State) : Host.Outcome State Fault Refusal := .next (virtualBoundary s)

/-- SLOT_TABLE_WRITE (R75). -/
def execSlotTableWrite (req : Fin 4) (k : Fin 2) (n : Fin 1024) (val : Word) (s : State) : Host.Outcome State Fault Refusal :=
  .next (softWrite req (KLN_SLOT k n) val s)

/-- SLOT_START (R71). -/
def execSlotStart (s : State) : Host.Outcome State Fault Refusal := .next (slotStart s)

/-- TICK_PROGRAM_START (R142). -/
def execTickProgramStart (s : State) : Host.Outcome State Fault Refusal := .next (tickStart s)

/-- OVERRUN (R64). -/
def execOverrun (e : Fin 17) (s : State) : Host.Outcome State Fault Refusal := .next (overrun e s)

/-- WATCHDOG (R149). -/
def execWatchdog (e : Fin 17) (s : State) : Host.Outcome State Fault Refusal := .next (watchdog e s)

/-- ENGINE_RESET (R147). -/
def execEngineReset (e : Fin 17) (s : State) : Host.Outcome State Fault Refusal := .next (engineReset e s)

/-- TAKEOVER (R154). -/
def execTakeover (e : Fin 16) (s : State) : Host.Outcome State Fault Refusal := .next (takeover e s)

/-- RECOVERY_RUN (R155). -/
def execRecoveryRun (s : State) : Host.Outcome State Fault Refusal := .next (detachedRun true s)

/-- CATCH_UP_RUN (R156). -/
def execCatchUpRun (s : State) : Host.Outcome State Fault Refusal := .next (detachedRun false s)

end Sys2Proof.Machine
end

