-- ==== Sys2Proof/Machine/ExecVault.lean ====
section
/-! DEFINITION. The meanings of the commands of the vault (R434 to R452). -/

namespace Sys2Proof.Machine

open Sys2Proof Reg

/-- LIFECYCLE_GO (R445). -/
def execLifecycleGo (req : Fin 4) (target : Fin 8) (s : State) : Host.Outcome State Fault Refusal :=
  .next (softWrite req VLT_LCCMD (BitVec.ofNat 32 (256 + target.val)) s)

/-- LIFECYCLE_COMPLETE (R445). -/
def execLifecycleComplete (digestFail stateFail begun : Bool) (s : State) : Host.Outcome State Fault Refusal :=
  .next (lifecycleComplete digestFail stateFail begun s)

/-- TAMPER_TRIP (R440). -/
def execTamperTrip (mask : Fin 32) (s : State) : Host.Outcome State Fault Refusal := .next (tamperTrip mask s)

/-- TAMPEN_WRITE (R452). -/
def execTampenWrite (req : Fin 4) (mask : Fin 32) (s : State) : Host.Outcome State Fault Refusal :=
  .next (softWrite req VLT_TAMPEN (BitVec.ofNat 32 mask.val) s)

/-- TAMPER_SENSOR_RELEASE (R440). -/
def execTamperSensorRelease (mask : Fin 32) (s : State) : Host.Outcome State Fault Refusal :=
  .next (tamperRelease mask s)

end Sys2Proof.Machine
end

