-- ==== Sys2Proof/Machine/ExecWheel.lean ====
section
/-! DEFINITION. The meanings of the commands of the wheel trackers (R211 to R254, R540). -/

namespace Sys2Proof.Machine

open Sys2Proof Reg

/-- TOOTH_RECORD_ARRIVAL (R213). -/
def execToothRecordArrival (w : Fin 4) (s : State) : Host.Outcome State Fault Refusal := .next (toothArrival w s)

/-- TOOTH_PROCESS (R214). -/
def execToothProcess (w : Fin 4) (s : State) : Host.Outcome State Fault Refusal := .next (toothProcess w s)

/-- STALL (R228). -/
def execStall (w : Fin 4) (s : State) : Host.Outcome State Fault Refusal := .next (stall w s)

/-- SLOT_COMMIT (R232). -/
def execSlotCommit (w : Fin 4) (k : Fin 64) (s : State) : Host.Outcome State Fault Refusal :=
  .next (slotCommit w k s)

/-- OCCURRENCE_BEGIN (R235). -/
def execOccurrenceBegin (w : Fin 4) (k : Fin 64) (s : State) : Host.Outcome State Fault Refusal :=
  .next (occurrenceBegin w k s)

/-- OCCURRENCE_END (R235). -/
def execOccurrenceEnd (w : Fin 4) (k : Fin 64) (s : State) : Host.Outcome State Fault Refusal :=
  .next (occurrenceEnd w k s)

/-- TRACKER_ENABLE (R247). -/
def execTrackerEnable (req : Fin 4) (w : Fin 4) (s : State) : Host.Outcome State Fault Refusal :=
  .next (setField req (WHL_CTRL_EN w) 1 s)

/-- TRACKER_DISABLE (R247). -/
def execTrackerDisable (req : Fin 4) (w : Fin 4) (s : State) : Host.Outcome State Fault Refusal :=
  .next (setField req (WHL_CTRL_EN w) 0 s)

/-- RESYNC (R224). -/
def execResync (req : Fin 4) (w : Fin 4) (s : State) : Host.Outcome State Fault Refusal :=
  .next (setField req (WHL_CTRL_RESYNC w) 1 s)

/-- TOOTH_TABLE_WRITE (R219). -/
def execToothTableWrite (req : Fin 4) (n : Fin 8192) (val : Word) (s : State) : Host.Outcome State Fault Refusal :=
  .next (ttWrite req (bankReqOf req) n val.toNat s)

/-- WHL_CLR (R253). -/
def execWhlClr (req : Fin 4) (w : Fin 4) (val : Word) (s : State) : Host.Outcome State Fault Refusal :=
  .next (softWrite req (WHL_CLR w) val s)

/-- VR_ARM (R215). -/
def execVrArm (p : Fin 8) (peak : Fin 4096) (fine : Fin 256) (s : State) : Host.Outcome State Fault Refusal :=
  .next (vrArm p peak fine s)

end Sys2Proof.Machine
end

