-- ==== Sys2Proof/Machine/Dispatch.lean ====
section
/-! DEFINITION. One arm for each command: a direct call of its meaning. -/

namespace Sys2Proof.Machine

open Sys2Proof

/-- The effect of a command on everything but the queue. -/
def exec (i : Instr) (s : State) : Host.Outcome State Fault Refusal :=
  match i with
  | .registerWrite req off val => Sys2Proof.Machine.execRegisterWrite req off val s
  | .wideReadLatch req off => Sys2Proof.Machine.execWideReadLatch req off s
  | .wideWritePart req off val => Sys2Proof.Machine.execWideWritePart req off val s
  | .rdmodeWrite req val => Sys2Proof.Machine.execRdmodeWrite req val s
  | .commit req off => Sys2Proof.Machine.execCommit req off s
  | .commitApplyNoTick off => Sys2Proof.Machine.execCommitApplyNoTick off s
  | .portownWrite req p val => Sys2Proof.Machine.execPortownWrite req p val s
  | .ownerrClr req => Sys2Proof.Machine.execOwnerrClr req s
  | .werrClr req => Sys2Proof.Machine.execWerrClr req s
  | .mastCycle => Sys2Proof.Machine.execMastCycle s
  | .timebaseStart req => Sys2Proof.Machine.execTimebaseStart req s
  | .timebaseStop req => Sys2Proof.Machine.execTimebaseStop req s
  | .mastPllLock => Sys2Proof.Machine.execMastPllLock s
  | .referenceLost => Sys2Proof.Machine.execReferenceLost s
  | .ppsEdge rising fine => Sys2Proof.Machine.execPpsEdge rising fine s
  | .fieldRealign resid => Sys2Proof.Machine.execFieldRealign resid s
  | .ticksStart req => Sys2Proof.Machine.execTicksStart req s
  | .ticksStop req => Sys2Proof.Machine.execTicksStop req s
  | .tickingEnd => Sys2Proof.Machine.execTickingEnd s
  | .kilnHold req on => Sys2Proof.Machine.execKilnHold req on s
  | .tickBoundary => Sys2Proof.Machine.execTickBoundary s
  | .virtualBoundary => Sys2Proof.Machine.execVirtualBoundary s
  | .slotTableWrite req k n val => Sys2Proof.Machine.execSlotTableWrite req k n val s
  | .slotStart => Sys2Proof.Machine.execSlotStart s
  | .tickProgramStart => Sys2Proof.Machine.execTickProgramStart s
  | .overrun e => Sys2Proof.Machine.execOverrun e s
  | .watchdog e => Sys2Proof.Machine.execWatchdog e s
  | .engineReset e => Sys2Proof.Machine.execEngineReset e s
  | .takeover e => Sys2Proof.Machine.execTakeover e s
  | .recoveryRun => Sys2Proof.Machine.execRecoveryRun s
  | .catchUpRun => Sys2Proof.Machine.execCatchUpRun s
  | .add e rd ra rb => Sys2Proof.Machine.execAdd e rd ra rb s
  | .sub e rd ra rb => Sys2Proof.Machine.execSub e rd ra rb s
  | .and e rd ra rb => Sys2Proof.Machine.execAnd e rd ra rb s
  | .or e rd ra rb => Sys2Proof.Machine.execOr e rd ra rb s
  | .xor e rd ra rb => Sys2Proof.Machine.execXor e rd ra rb s
  | .andn e rd ra rb => Sys2Proof.Machine.execAndn e rd ra rb s
  | .shl e rd ra rb => Sys2Proof.Machine.execShl e rd ra rb s
  | .shr e rd ra rb => Sys2Proof.Machine.execShr e rd ra rb s
  | .sar e rd ra rb => Sys2Proof.Machine.execSar e rd ra rb s
  | .ror e rd ra rb => Sys2Proof.Machine.execRor e rd ra rb s
  | .shli e rd ra sh => Sys2Proof.Machine.execShli e rd ra sh s
  | .shri e rd ra sh => Sys2Proof.Machine.execShri e rd ra sh s
  | .sari e rd ra sh => Sys2Proof.Machine.execSari e rd ra sh s
  | .rori e rd ra sh => Sys2Proof.Machine.execRori e rd ra sh s
  | .slt e rd ra rb => Sys2Proof.Machine.execSlt e rd ra rb s
  | .sltu e rd ra rb => Sys2Proof.Machine.execSltu e rd ra rb s
  | .minu e rd ra rb => Sys2Proof.Machine.execMinu e rd ra rb s
  | .maxu e rd ra rb => Sys2Proof.Machine.execMaxu e rd ra rb s
  | .mins e rd ra rb => Sys2Proof.Machine.execMins e rd ra rb s
  | .maxs e rd ra rb => Sys2Proof.Machine.execMaxs e rd ra rb s
  | .mul e rd ra rb => Sys2Proof.Machine.execMul e rd ra rb s
  | .mulhu e rd ra rb => Sys2Proof.Machine.execMulhu e rd ra rb s
  | .mulhs e rd ra rb => Sys2Proof.Machine.execMulhs e rd ra rb s
  | .divu e rd ra rb => Sys2Proof.Machine.execDivu e rd ra rb s
  | .remu e rd ra rb => Sys2Proof.Machine.execRemu e rd ra rb s
  | .clz e rd ra => Sys2Proof.Machine.execClz e rd ra s
  | .ctz e rd ra => Sys2Proof.Machine.execCtz e rd ra s
  | .popc e rd ra => Sys2Proof.Machine.execPopc e rd ra s
  | .addi e rd ra imm18 => Sys2Proof.Machine.execAddi e rd ra imm18 s
  | .andi e rd ra imm18 => Sys2Proof.Machine.execAndi e rd ra imm18 s
  | .ori e rd ra imm18 => Sys2Proof.Machine.execOri e rd ra imm18 s
  | .xori e rd ra imm18 => Sys2Proof.Machine.execXori e rd ra imm18 s
  | .slti e rd ra imm18 => Sys2Proof.Machine.execSlti e rd ra imm18 s
  | .sltiu e rd ra imm18 => Sys2Proof.Machine.execSltiu e rd ra imm18 s
  | .conl e rd imm22 => Sys2Proof.Machine.execConl e rd imm22 s
  | .cons e rd imm22 => Sys2Proof.Machine.execCons e rd imm22 s
  | .ld e rd ra size sgn pair rot off13 => Sys2Proof.Machine.execLd e rd ra size sgn pair rot off13 s
  | .st e rs ra size pair rot off13 => Sys2Proof.Machine.execSt e rs ra size pair rot off13 s
  | .ldf e rd ra size sgn pair lim off8 => Sys2Proof.Machine.execLdf e rd ra size sgn pair lim off8 s
  | .stf e rs ra size pair lim off8 => Sys2Proof.Machine.execStf e rs ra size pair lim off8 s
  | .farAccessGrant e g n => Sys2Proof.Machine.execFarAccessGrant e g n s
  | .farAccessWithdraw e => Sys2Proof.Machine.execFarAccessWithdraw e s
  | .beq e ra rb off18 => Sys2Proof.Machine.execBeq e ra rb off18 s
  | .bne e ra rb off18 => Sys2Proof.Machine.execBne e ra rb off18 s
  | .blt e ra rb off18 => Sys2Proof.Machine.execBlt e ra rb off18 s
  | .bge e ra rb off18 => Sys2Proof.Machine.execBge e ra rb off18 s
  | .bltu e ra rb off18 => Sys2Proof.Machine.execBltu e ra rb off18 s
  | .bgeu e ra rb off18 => Sys2Proof.Machine.execBgeu e ra rb off18 s
  | .jmp e imm26 => Sys2Proof.Machine.execJmp e imm26 s
  | .call e imm26 => Sys2Proof.Machine.execCall e imm26 s
  | .ret e => Sys2Proof.Machine.execRet e s
  | .loop e ra max12 len10 => Sys2Proof.Machine.execLoop e ra max12 len10 s
  | .act e rt rh => Sys2Proof.Machine.execAct e rt rh s
  | .actp e rt rh port code => Sys2Proof.Machine.execActp e rt rh port code s
  | .seal e => Sys2Proof.Machine.execSeal e s
  | .tryl e rd ra lock => Sys2Proof.Machine.execTryl e rd ra lock s
  | .unl e ra lock => Sys2Proof.Machine.execUnl e ra lock s
  | .evo e mask => Sys2Proof.Machine.execEvo e mask s
  | .evc e mask => Sys2Proof.Machine.execEvc e mask s
  | .mfs e rd sreg => Sys2Proof.Machine.execMfs e rd sreg s
  | .mts e ra sreg => Sys2Proof.Machine.execMts e ra sreg s
  | .load req e => Sys2Proof.Machine.execLoad req e s
  | .programCheckEnd e => Sys2Proof.Machine.execProgramCheckEnd e s
  | .coilHold req e on => Sys2Proof.Machine.execCoilHold req e on s
  | .step req e => Sys2Proof.Machine.execStep req e s
  | .checkpointWrite req e n val => Sys2Proof.Machine.execCheckpointWrite req e n val s
  | .lockForce req n => Sys2Proof.Machine.execLockForce req n s
  | .coilClr req e val => Sys2Proof.Machine.execCoilClr req e val s
  | .actionArrival p => Sys2Proof.Machine.execActionArrival p s
  | .retime p => Sys2Proof.Machine.execRetime p s
  | .cancel p => Sys2Proof.Machine.execCancel p s
  | .nop p => Sys2Proof.Machine.execNop p s
  | .set p => Sys2Proof.Machine.execSet p s
  | .clr p => Sys2Proof.Machine.execClr p s
  | .tog p => Sys2Proof.Machine.execTog p s
  | .pulse p => Sys2Proof.Machine.execPulse p s
  | .hiz p => Sys2Proof.Machine.execHiz p s
  | .drive p => Sys2Proof.Machine.execDrive p s
  | .cload p => Sys2Proof.Machine.execCload p s
  | .crld p => Sys2Proof.Machine.execCrld p s
  | .ccmp p => Sys2Proof.Machine.execCcmp p s
  | .cstart p => Sys2Proof.Machine.execCstart p s
  | .cstop p => Sys2Proof.Machine.execCstop p s
  | .csnap p => Sys2Proof.Machine.execCsnap p s
  | .cupper p => Sys2Proof.Machine.execCupper p s
  | .capon p => Sys2Proof.Machine.execCapon p s
  | .capoff p => Sys2Proof.Machine.execCapoff p s
  | .pulseEnd p => Sys2Proof.Machine.execPulseEnd p s
  | .spacingHeldEdge p => Sys2Proof.Machine.execSpacingHeldEdge p s
  | .inputEdge p level fine => Sys2Proof.Machine.execInputEdge p level fine s
  | .edgeQualify p => Sys2Proof.Machine.execEdgeQualify p s
  | .counterStep p => Sys2Proof.Machine.execCounterStep p s
  | .armPulse p => Sys2Proof.Machine.execArmPulse p s
  | .portEnable req p => Sys2Proof.Machine.execPortEnable req p s
  | .portDisable req p => Sys2Proof.Machine.execPortDisable req p s
  | .clrq req p => Sys2Proof.Machine.execClrq req p s
  | .prtClr req p val => Sys2Proof.Machine.execPrtClr req p val s
  | .counterLoad req p val => Sys2Proof.Machine.execCounterLoad req p val s
  | .reloadWrite req p val => Sys2Proof.Machine.execReloadWrite req p val s
  | .compareWrite req p val => Sys2Proof.Machine.execCompareWrite req p val s
  | .counterRun req p on => Sys2Proof.Machine.execCounterRun req p on s
  | .overcurrentOff p => Sys2Proof.Machine.execOvercurrentOff p s
  | .ocpClear req p => Sys2Proof.Machine.execOcpClear req p s
  | .loadShed hot more => Sys2Proof.Machine.execLoadShed hot more s
  | .calibration p => Sys2Proof.Machine.execCalibration p s
  | .vrZeroCrossing p fine => Sys2Proof.Machine.execVrZeroCrossing p fine s
  | .toothRecordArrival w => Sys2Proof.Machine.execToothRecordArrival w s
  | .toothProcess w => Sys2Proof.Machine.execToothProcess w s
  | .stall w => Sys2Proof.Machine.execStall w s
  | .slotCommit w k => Sys2Proof.Machine.execSlotCommit w k s
  | .occurrenceBegin w k => Sys2Proof.Machine.execOccurrenceBegin w k s
  | .occurrenceEnd w k => Sys2Proof.Machine.execOccurrenceEnd w k s
  | .trackerEnable req w => Sys2Proof.Machine.execTrackerEnable req w s
  | .trackerDisable req w => Sys2Proof.Machine.execTrackerDisable req w s
  | .resync req w => Sys2Proof.Machine.execResync req w s
  | .toothTableWrite req n val => Sys2Proof.Machine.execToothTableWrite req n val s
  | .whlClr req w val => Sys2Proof.Machine.execWhlClr req w val s
  | .sheaveEnable req u => Sys2Proof.Machine.execSheaveEnable req u s
  | .sheaveStop req u => Sys2Proof.Machine.execSheaveStop req u s
  | .quadSample u => Sys2Proof.Machine.execQuadSample u s
  | .sincosPair u sn cs => Sys2Proof.Machine.execSincosPair u sn cs s
  | .comparatorSample u sneg clow => Sys2Proof.Machine.execComparatorSample u sneg clow s
  | .ssiFrameStart u => Sys2Proof.Machine.execSsiFrameStart u s
  | .ssiFrameEnd u bits => Sys2Proof.Machine.execSsiFrameEnd u bits s
  | .positionLoad req u val => Sys2Proof.Machine.execPositionLoad req u val s
  | .speedWindow u => Sys2Proof.Machine.execSpeedWindow u s
  | .standstill u => Sys2Proof.Machine.execStandstill u s
  | .compareValueWrite req u c val => Sys2Proof.Machine.execCompareValueWrite req u c val s
  | .shvClr req u val => Sys2Proof.Machine.execShvClr req u val s
  | .routeDelivery n => Sys2Proof.Machine.execRouteDelivery n s
  | .fieldRouteApply => Sys2Proof.Machine.execFieldRouteApply s
  | .holdoffEnd v => Sys2Proof.Machine.execHoldoffEnd v s
  | .msixUnmask v => Sys2Proof.Machine.execMsixUnmask v s
  | .softwarePulse req val => Sys2Proof.Machine.execSoftwarePulse req val s
  | .rigClr req val => Sys2Proof.Machine.execRigClr req val s
  | .tapClear req v => Sys2Proof.Machine.execTapClear req v s
  | .cwrdWrite req val => Sys2Proof.Machine.execCwrdWrite req val s
  | .captureWriterEnable req => Sys2Proof.Machine.execCaptureWriterEnable req s
  | .dmaGo req c => Sys2Proof.Machine.execDmaGo req c s
  | .channelEnable req c => Sys2Proof.Machine.execChannelEnable req c s
  | .channelDisable req c => Sys2Proof.Machine.execChannelDisable req c s
  | .disableDrained c => Sys2Proof.Machine.execDisableDrained c s
  | .trigclr req c => Sys2Proof.Machine.execTrigclr req c s
  | .descriptorFetch c => Sys2Proof.Machine.execDescriptorFetch c s
  | .transferStart c => Sys2Proof.Machine.execTransferStart c s
  | .transactionIssue => Sys2Proof.Machine.execTransactionIssue s
  | .readReturn id status data => Sys2Proof.Machine.execReadReturn id status data s
  | .writePerformed id => Sys2Proof.Machine.execWritePerformed id s
  | .flushReturn id => Sys2Proof.Machine.execFlushReturn id s
  | .descriptorComplete c => Sys2Proof.Machine.execDescriptorComplete c s
  | .buserrClear req => Sys2Proof.Machine.execBuserrClear req s
  | .buscntClr req => Sys2Proof.Machine.execBuscntClr req s
  | .cdescWrite req c val => Sys2Proof.Machine.execCdescWrite req c val s
  | .ccntWrite req c val => Sys2Proof.Machine.execCcntWrite req c val s
  | .bankDecision b q => Sys2Proof.Machine.execBankDecision b q s
  | .scrub b => Sys2Proof.Machine.execScrub b s
  | .bankClearEnd b => Sys2Proof.Machine.execBankClearEnd b s
  | .eccInject req val => Sys2Proof.Machine.execEccInject req val s
  | .scrubIntervalWrite req val => Sys2Proof.Machine.execScrubIntervalWrite req val s
  | .sagClr req val => Sys2Proof.Machine.execSagClr req val s
  | .arbClr req val => Sys2Proof.Machine.execArbClr req val s
  | .hostMemRead req a len => Sys2Proof.Machine.execHostMemRead req a len s
  | .hostMemWrite a data => Sys2Proof.Machine.execHostMemWrite a data s
  | .hostAliasAccess req write a data => Sys2Proof.Machine.execHostAliasAccess req write a data s
  | .hostReadTimeout tag => Sys2Proof.Machine.execHostReadTimeout tag s
  | .bar0ReadRequest req off n => Sys2Proof.Machine.execBar0ReadRequest req off n s
  | .bar0WriteRequest off vals full => Sys2Proof.Machine.execBar0WriteRequest off vals full s
  | .fieldProxyAccess => Sys2Proof.Machine.execFieldProxyAccess s
  | .configRequest req at_ val => Sys2Proof.Machine.execConfigRequest req at_ val s
  | .hostLinkReset k => Sys2Proof.Machine.execHostLinkReset k s
  | .d3hotEntry => Sys2Proof.Machine.execD3hotEntry s
  | .requestFrame frame => Sys2Proof.Machine.execRequestFrame frame s
  | .i2cRead read => Sys2Proof.Machine.execI2cRead read s
  | .spiReadResponse n => Sys2Proof.Machine.execSpiReadResponse n s
  | .spiReadStatus n => Sys2Proof.Machine.execSpiReadStatus n s
  | .responseReady => Sys2Proof.Machine.execResponseReady s
  | .getInfo => Sys2Proof.Machine.execGetInfo s
  | .readReg => Sys2Proof.Machine.execReadReg s
  | .writeReg => Sys2Proof.Machine.execWriteReg s
  | .readMem => Sys2Proof.Machine.execReadMem s
  | .writeMem => Sys2Proof.Machine.execWriteMem s
  | .getStatus => Sys2Proof.Machine.execGetStatus s
  | .readLog => Sys2Proof.Machine.execReadLog s
  | .clearLog => Sys2Proof.Machine.execClearLog s
  | .recInfo => Sys2Proof.Machine.execRecInfo s
  | .recWrite => Sys2Proof.Machine.execRecWrite s
  | .recFinish => Sys2Proof.Machine.execRecFinish s
  | .sectorEraseEnd ok => Sys2Proof.Machine.execSectorEraseEnd ok s
  | .pageProgramEnd ok => Sys2Proof.Machine.execPageProgramEnd ok s
  | .domainSet => Sys2Proof.Machine.execDomainSet s
  | .blockReset => Sys2Proof.Machine.execBlockReset s
  | .getCert => Sys2Proof.Machine.execGetCert s
  | .attest => Sys2Proof.Machine.execAttest s
  | .mboxGet => Sys2Proof.Machine.execMboxGet s
  | .mboxPut => Sys2Proof.Machine.execMboxPut s
  | .h2mSend req => Sys2Proof.Machine.execH2mSend req s
  | .m2hAck req => Sys2Proof.Machine.execM2hAck req s
  | .faultLogEntry => Sys2Proof.Machine.execFaultLogEntry s
  | .legacyTimerEnable req n => Sys2Proof.Machine.execLegacyTimerEnable req n s
  | .legacyTimerDisable req n => Sys2Proof.Machine.execLegacyTimerDisable req n s
  | .flush req n => Sys2Proof.Machine.execFlush req n s
  | .legacyBankDisable req b => Sys2Proof.Machine.execLegacyBankDisable req b s
  | .legacyIssue => Sys2Proof.Machine.execLegacyIssue s
  | .mgmtStart spi addr => Sys2Proof.Machine.execMgmtStart spi addr s
  | .recordHeadersRead => Sys2Proof.Machine.execRecordHeadersRead s
  | .pass1Complete => Sys2Proof.Machine.execPass1Complete s
  | .recordApply misread => Sys2Proof.Machine.execRecordApply misread s
  | .bootDone => Sys2Proof.Machine.execBootDone s
  | .replay misread => Sys2Proof.Machine.execReplay misread s
  | .lifecycleGo req target => Sys2Proof.Machine.execLifecycleGo req target s
  | .lifecycleComplete digestFail stateFail begun => Sys2Proof.Machine.execLifecycleComplete digestFail stateFail begun s
  | .tamperTrip mask => Sys2Proof.Machine.execTamperTrip mask s
  | .tampenWrite req mask => Sys2Proof.Machine.execTampenWrite req mask s
  | .frameSlot x fine => Sys2Proof.Machine.execFrameSlot x fine s
  | .linkUp x own => Sys2Proof.Machine.execLinkUp x own s
  | .linkDown x => Sys2Proof.Machine.execLinkDown x s
  | .calt x depth pay fine => Sys2Proof.Machine.execCalt x depth pay fine s
  | .calr x depth pay => Sys2Proof.Machine.execCalr x depth pay s
  | .calh x depth pay => Sys2Proof.Machine.execCalh x depth pay s
  | .event x depth pay => Sys2Proof.Machine.execEvent x depth pay s
  | .eventDelivery k => Sys2Proof.Machine.execEventDelivery k s
  | .opstart x depth pay => Sys2Proof.Machine.execOpstart x depth pay s
  | .opcont x depth pay => Sys2Proof.Machine.execOpcont x depth pay s
  | .tree x depth pay => Sys2Proof.Machine.execTree x depth pay s
  | .idle x depth => Sys2Proof.Machine.execIdle x depth s
  | .operationGo req kind => Sys2Proof.Machine.execOperationGo req kind s
  | .tickstart => Sys2Proof.Machine.execTickstart s
  | .action => Sys2Proof.Machine.execAction s
  | .snapshot => Sys2Proof.Machine.execSnapshot s
  | .reset => Sys2Proof.Machine.execReset s
  | .forestayDisable req => Sys2Proof.Machine.execForestayDisable req s
  | .supplyChange k ev => Sys2Proof.Machine.execSupplyChange k ev s
  | .shutdownNotice => Sys2Proof.Machine.execShutdownNotice s
  | .powerOnReset => Sys2Proof.Machine.execPowerOnReset s
  | .sysReset => Sys2Proof.Machine.execSysReset s
  | .wake => Sys2Proof.Machine.execWake s
  | .domainSwitchOn => Sys2Proof.Machine.execDomainSwitchOn s
  | .domainDeclaredOn => Sys2Proof.Machine.execDomainDeclaredOn s
  | .domainSwitchOff => Sys2Proof.Machine.execDomainSwitchOff s
  | .domainDeclaredOff => Sys2Proof.Machine.execDomainDeclaredOff s
  | .domainFail => Sys2Proof.Machine.execDomainFail s
  | .pwrctlWrite req val => Sys2Proof.Machine.execPwrctlWrite req val s
  | .blkrstWrite req val => Sys2Proof.Machine.execBlkrstWrite req val s
  | .stayRecordReceive ret seq ack => Sys2Proof.Machine.execStayRecordReceive ret seq ack s
  | .sequenceWaitExpiry ret => Sys2Proof.Machine.execSequenceWaitExpiry ret s
  | .laneFail ret k => Sys2Proof.Machine.execLaneFail ret k s
  | .threeLaneStart => Sys2Proof.Machine.execThreeLaneStart s
  | .stayLinkLoss => Sys2Proof.Machine.execStayLinkLoss s
  | .lossTimeout => Sys2Proof.Machine.execLossTimeout s
  | .retrainEnd tx rx => Sys2Proof.Machine.execRetrainEnd tx rx s
  | .retrainTimeout => Sys2Proof.Machine.execRetrainTimeout s
  | .referenceValid => Sys2Proof.Machine.execReferenceValid s
  | .pcieLinkUp => Sys2Proof.Machine.execPcieLinkUp s
  | .completionTimeout id => Sys2Proof.Machine.execCompletionTimeout id s
  | .sgsWipeEnd => Sys2Proof.Machine.execSgsWipeEnd s
  | .vrArm p peak fine => Sys2Proof.Machine.execVrArm p peak fine s
  | .tamperSensorRelease mask => Sys2Proof.Machine.execTamperSensorRelease mask s
  | .vfieldMeasure val => Sys2Proof.Machine.execVfieldMeasure val s

end Sys2Proof.Machine
end

