-- ==== Sys2Proof/Machine/Pins.lean ====
section
/-! DEFINITION. The states of the pins between commands (R504): what the pins of the device show for the state that it is in. The
reference, Lanyard and PCI Express inputs have none of their own: their levels come with commands. -/

namespace Sys2Proof.Machine

open Sys2Proof Reg

/-- What a pin or a pair shows to the board: high impedance, or that with the device's pull to a level, an output driven to a
level, an open-drain output released or low, an input, a transmitter that is off, or one that sends frames. -/
inductive PinState where
  | hiZ
  | pulled (level : Bool)
  | driven (level : Bool)
  | released
  | input
  | txOff
  | sending
  deriving DecidableEq, Repr

/-- The pins of port p (R188, R503, R504): a driver that is on shows its level; else a field port is pulled low, and an LVDS port
is without a driver. -/
def State.portPins (s : State) (p : Nat) : PinState :=
  match (if s.phys (portDom p) then s.pinOf p (s.port p).out (s.port p).drv else none) with
  | some l => .driven l
  | none => if isField p then .pulled false else .hiZ

/-- LAN_ALERT_N (R388, R504). -/
def State.alertPin (s : State) : PinState := if s.on 1 && s.lanAlert then .driven false else .released

/-- LAN_MISO between operations, with LAN_CS_N high (R387, R504). -/
def State.misoPin (_ : State) : PinState := .hiZ

/-- LAN_SCL_SCK and LAN_SDA_MOSI between operations (R504). -/
def State.lanPins (s : State) : PinState := if s.on 1 then .input else .hiZ

/-- FLASH_CS_N, FLASH_SCK and FLASH_SI between commands (R409, R504). -/
def State.flashCsPin (s : State) : PinState := if s.on 1 then .driven true else .hiZ
def State.flashClockPins (s : State) : PinState := if s.on 1 then .driven false else .hiZ

/-- The pair of Forestay link x (R453, R504): it transmits while the unit may bring the link up. -/
def State.frsPins (s : State) (x : Nat) : PinState :=
  if !s.on dFRST then .hiZ else if s.linkAllowed x then .sending else .txOff

/-- REF_IN, PPS_IN, XTAL_IN, SYS_RESET_N, LAN_SEL and the address straps (R504): inputs while the main supplies are valid. -/
def State.inputPins (s : State) : PinState := if s.on 1 then .input else .hiZ

end Sys2Proof.Machine
end

