-- ==== Sys2Proof/Safety.lean ====
section
/-! DEFINITION. What claims call well formed and safe, in terms of the state. -/

namespace Sys2Proof.Machine

open Sys2Proof

/-- The bank memory is in its canonical form: addresses rise strictly, and no listed byte is 0, as an unlisted byte
reads. -/
abbrev Memory.wf (m : List Host.Cell) : Prop := mwf (0 : Byte) m = true

/-- The command queue has been run down: nothing waits. -/
abbrev State.idle (s : State) : Prop := s.pending = []

/-- A register write of software at an offset is performed in its own cycle: the block answers, and the write does not
wait in the field-die proxy (R379, R502). -/
def State.reaches (s : State) (off : Nat) : Prop := s.answers off = true ∧ s.proxyWaits off = false

/-- t reads as s at every register and every staged value, and is equal to it in everything else: a write has put back
what stood there. -/
def ReadsAs (s t : State) : Prop :=
  t = { s with regs := t.regs, staged := t.staged } ∧ (∀ o, t.reg o = s.reg o) ∧ ∀ o, t.stg o = s.stg o

/-- No register outside a list reads otherwise in t than in s. -/
def SameRegs (s t : State) (offs : List Nat) : Prop := ∀ o, o ∉ offs → t.reg o = s.reg o

/-- From s to t only the registers of a list may change. -/
def OnlyRegs (s t : State) (offs : List Nat) : Prop := t = { s with regs := t.regs } ∧ SameRegs s t offs

/-- From s to t only the registers of a list may change, and what the present cycle has noted for their clears. -/
def OnlyNoted (s t : State) (offs : List Nat) : Prop :=
  t = { s with regs := t.regs, hwNow := t.hwNow } ∧ SameRegs s t offs

/-- What a refused write leaves (R383, R384): GLB_WERR is set, counts and names the requester, GLB_WERRADDR names the
register, and nothing else changes. -/
def Refused (req off : Nat) (s t : State) : Prop :=
  t.f Reg.GLB_WERR_WERR = 1 ∧ t.f Reg.GLB_WERR_COUNT = min (s.f Reg.GLB_WERR_COUNT + 1) 0xFFFF ∧
  t.f Reg.GLB_WERR_REQ = req % 8 ∧ (t.reg Reg.GLB_WERRADDR).toNat = off % 2 ^ 32 ∧
  OnlyNoted s t [Reg.GLB_WERR, Reg.GLB_WERRADDR]

/-- Engine e can issue its next instruction in run r, and the word at its PC is the instruction c; s1 is the state after
the fetch (R90, R97). -/
def State.issues (s : State) (e : Nat) (c : Coil) (r : Run) (s1 : State) : Prop :=
  s.canIssue e = some r ∧ fetch e r s = (.inr c, s1)

/-- From a state s, in which the trace entry of the fault has been made, instance e has faulted with a code at the
instruction at 4 × pcw from its image's base, at the absolute engine cycle t0, in run r (R124, R150, R151, R539): its run ends, it
is FAULTED and waits for its reset, the fault is recorded, flagged and logged, CE16 begins a takeover where it can, a fault of CE16
ends its stand-in, and no byte, no other engine and no other register changes. -/
def Faulted (e code pcw t0 : Nat) (r : Option Run) (s t : State) : Prop :=
  (t.eng e).run = none ∧ (t.eng e).toRun = false ∧ (t.eng e).resetAt = some t0 ∧ (t.eng e).st = .faulted ∧
  t.f (Reg.COIL_FAULT_CODE e) = code % 16 ∧ t.f (Reg.COIL_FAULT_PCW e) = pcw % 2 ^ 16 ∧
  t.f (Reg.COIL_FLAGS_FAULT e) = 1 ∧
  t.faults = (if s.on 1 = true then s.faults ++ [⟨1, e, code, pcw % 2 ^ 32⟩] else s.faults) ∧
  (e ≠ 16 → t.spare = if s.canTake e t0 = true then { s.spare with taking := some (e, t0), taken := r } else s.spare) ∧
  (e = 16 → (∀ n, s.spare.standFor = some n → t.spare = { ended := some n }) ∧
    (s.spare.standFor = none → t.spare = { s.spare with ended := none })) ∧
  t.mem = s.mem ∧ SameRegs s t [Reg.COIL_FAULT e, Reg.COIL_FLAGS e] ∧
  ∀ k, k ≠ e → t.eng k = if e = 16 ∧ s.spare.standFor = some k then { s.eng k with evin := (s.eng 16).evin } else s.eng k

/-- From s to t, but for what a write has put back, only engine e changes, to x. -/
def EngineIs (e : Nat) (x : Engine) (s t : State) : Prop :=
  t = { s with regs := t.regs, staged := t.staged, engines := t.engines } ∧ (∀ o, t.reg o = s.reg o) ∧
  (∀ o, t.stg o = s.stg o) ∧ t.eng e = x ∧ ∀ k, k ≠ e → t.eng k = s.eng k

/-- Engine e once a write of COIL_CTRL has been taken, with HOLD at h: while no ticks are issued HOLD applies at once (R162). -/
def State.engHeld (s : State) (e : Nat) (h : Bool) : Engine :=
  { s.eng e with held := if s.ticking = true ∨ e = 16 then (s.eng e).held else h }

/-- An instruction of cost n of engine e completes in run r, and the next address is a (R90, R91, R114): the loop stack is
settled, the next instruction issues n engine cycles later, the registers g1 to g15 may have changed, and nothing else. -/
def CoilDone (e : Nat) (r : Run) (n a : Nat) (s t : State) : Prop :=
  t = { s with engines := t.engines } ∧ (∀ k, k ≠ e → t.eng k = s.eng k) ∧
  t.eng e = { s.eng e with
    g := (t.eng e).g
    run := some { r with pc := (settle r.calls.length a r.loops).1, loops := (settle r.calls.length a r.loops).2,
                         ec := r.ec + n, issued := true } }

/-- Of the registers of engine e only rd changes, to v; g0 reads 0 and a write to it is discarded (R87). -/
def WroteReg (e rd : Nat) (v : DWord) (s t : State) : Prop :=
  ∀ i, (t.eng e).r i = if i = 0 then 0 else if i = rd then v else (s.eng e).r i

/-- No register of engine e changes. -/
def SameG (e : Nat) (s t : State) : Prop := ∀ i, (t.eng e).r i = (s.eng e).r i

/-- The word of a register whose staged bits have applied; MST_TRIM within its limits (R10, R12, R48). -/
def State.mergedWord (s : State) (o : Nat) : Word :=
  let v := (s.reg o &&& ~~~(BitVec.ofNat 32 (rwsMask o))) ||| (s.stg o &&& BitVec.ofNat 32 (rwsMask o))
  if o = Reg.MST_TRIM then trimLimit v else v

/-- The block in the range from lo to hi, armed at the COMMIT offset off, has applied its staged fields (R12): it is no longer
armed, every staged field of its registers is in force, and nothing else has changed. -/
def FieldsApplied (off lo hi : Nat) (s u : State) : Prop :=
  u = { s with regs := u.regs, kln.armed := u.kln.armed } ∧ u.armedAt off = 0 ∧ (∀ o, o ≠ off → u.armedAt o = s.armedAt o) ∧
  ∀ o, u.reg o = if lo ≤ o ∧ o < hi then s.mergedWord o else s.reg o

/-- The commit of engine e's block has applied, and its command has been taken: CMD and its staged value are none again
(R138). -/
def CommandTaken (e : Nat) (s v : State) : Prop :=
  v = { s with regs := v.regs, staged := v.staged, kln.armed := v.kln.armed } ∧ v.armedAt (Reg.COIL_COMMIT e) = 0 ∧
  (∀ o, o ≠ Reg.COIL_COMMIT e → v.armedAt o = s.armedAt o) ∧ v.f (Reg.COIL_CTRL_CMD e) = 0 ∧
  bitsOf (v.stg (Reg.COIL_CTRL e)).toNat 0 2 = 0 ∧
  (∀ o, o ≠ Reg.COIL_CTRL e → v.reg o = if Reg.COIL_CTRL e ≤ o ∧ o < Reg.COIL_CTRL e + 0x400 then s.mergedWord o else s.reg o) ∧
  ∀ i, 2 ≤ i → (v.reg (Reg.COIL_CTRL e)).getLsbD i = (s.mergedWord (Reg.COIL_CTRL e)).getLsbD i

/-- A command of engine e is rejected (R138). -/
def Rejected (e : Nat) (v t : State) : Prop :=
  ∃ u, OnlyNoted v u [Reg.COIL_FLAGS e] ∧ u.f (Reg.COIL_FLAGS_START_REJ e) = 1 ∧ Refused reqCheck (Reg.COIL_CTRL e) u t

/-- Whenever engine e issues the instruction c, the command i answers a next state, in which rd holds the value that v gives
from the engine's registers before, and the instruction has taken n engine cycles. -/
def Computes (e : Fin 17) (i : Instr) (c : Coil) (rd : Fin 16) (n : Nat) (v : Engine → DWord) : Prop :=
  ∀ (s s1 : State) (r : Run), s.issues e c r s1 → ∃ t, exec i s = .next t ∧
    CoilDone e r n (r.pc + 4) s1 t ∧ WroteReg e rd (v (s1.eng e)) s1 t

/-- From s to t only port p may change, and of the rest the registers, what the present cycle has noted, and the matrix. -/
def OnePort (p : Nat) (s t : State) : Prop :=
  t = { s with ports := t.ports, regs := t.regs, hwNow := t.hwNow, rig := t.rig } ∧ ∀ q, q ≠ p → t.port q = s.port q

/-- The output of port p changes to level o with driver state d at time t (R177): held back, with SPACING set, where that makes
an edge too close to the last; else at once, and its edge, if it makes one, is the last edge then. -/
def OutputBecomes (p : Nat) (t : Time) (o d : Bool) (u v : State) : Prop :=
  OnePort p u v ∧ ∀ x, x = u.port p →
    (∀ r, x.edge = some r → u.makesEdge p o d = true → (t - r).toNat < spacing p →
      v.port p = { x with held := some (r + fc (spacing p), o, d) } ∧ v.f (Reg.PRT_STATUS_SPACING p) = 1) ∧
    ((∀ r, x.edge = some r → u.makesEdge p o d = true → spacing p ≤ (t - r).toNat) →
      v.port p = { x with out := o, drv := d, edge := (if u.makesEdge p o d = true then some t else x.edge)
                          raw := (v.port p).raw, snap := (v.port p).snap, snapMc := (v.port p).snapMc
                          chgs := (v.port p).chgs, ctr := (v.port p).ctr })

/-- The output of port p takes the level o and the driver state d at time t, with a pulse end pe (R176 to R178): with what is
still to come of that time; into the held result while one waits; else as an output change. -/
def TakesOutput (p : Nat) (t : Time) (o d : Bool) (pe : Option Time) (u v : State) : Prop :=
  ∀ x, x = u.port p →
    (u.moreOut p t = true → v = u.modPort p fun x => { x with pulseEnd := pe, acc := some (t, o, d) }) ∧
    (u.moreOut p t = false →
      (∀ h a b, x.held = some (h, a, b) →
        v = u.modPort p fun x => { x with pulseEnd := pe, acc := none, held := some (h, o, d) }) ∧
      (x.held = none → OutputBecomes p t o d (u.modPort p fun x => { x with pulseEnd := pe, acc := none }) v))

/-- The command i executes the head entry of port p when it is due and carries the code (R173, R174, R176): the entry leaves
the queue, eff relates the state then to the state after the action's effect, and the MARK record and the EVT pulse follow; what
waited for the rest of its time then takes effect. A late entry that the policy in force discards only leaves the queue (R203).
Otherwise nothing changes. -/
def Executes (p : Nat) (i : Instr) (code : Nat) (eff : QEntry → State → State → Prop) : Prop :=
  ∀ s : State,
    (∀ e u, s.dueHead p = some e → e.act.code = code → u = s.modPort p (fun x => { x with queue := x.queue.erase e }) →
      (s.executes p e = true → ∃ v w, eff e u v ∧
        w = (if e.act.mark = true then capture p 0x02 e.at_ (v.port p).net.1 (markAux e.act e.late) v else v) ∧
        exec i s = .next (outSettle p (if e.act.evt = true then pulse (0x120 + p / 8) w else w))) ∧
      (s.executes p e = false → exec i s = .next (outSettle p u))) ∧
    ((∀ e, s.dueHead p = some e → e.act.code ≠ code) → exec i s = .next s)

/-- The counter of port p, unchanged so far in this cycle, becomes f of what it was, and nothing else changes (R192). -/
def CounterTakes (p : Nat) (f : Counter → Counter) (u v : State) : Prop :=
  OnePort p u v ∧ ((u.port p).snapMc ≠ some u.mc →
    { (v.port p).ctr with base := 0, presc := 0, imm := false } = f { (u.port p).ctr with base := 0, presc := 0, imm := false } ∧
    (v.port p).queue = (u.port p).queue ∧ (v.port p).out = (u.port p).out ∧ (v.port p).drv = (u.port p).drv)

/-- The record of an action that joins the queue stands after every entry that is not later than it, and before every later
one (R176). -/
def Queued (e : QEntry) (l l' : List QEntry) : Prop :=
  ∃ a b, l = a ++ b ∧ l' = a ++ e :: b ∧ (∀ y ∈ a, future y.act.time e.act.time = false) ∧
    ∀ y, b.head? = some y → future y.act.time e.act.time = true

/-- The record r at the front of tracker w's queue is processed now, at t_p of Mast cycle p (R214). -/
def State.takesTooth (s : State) (w : Nat) (r : Tooth) (p : Nat) : Prop :=
  ∃ ta l, (s.wheel w).fifo = (r, ta) :: l ∧ p = max (ta + 20) (((s.wheel w).lastP.getD 0) + 20) ∧ p ≤ s.mc ∧ s.whlEn w = true

/-- The primary tooth r, which tracker w processes at t_p of Mast cycle p, is readable, forward and accepted, neither after a stall nor after
a reversal, and no secondary edge waits for its interval; e is the interval since the last accepted tooth (R219, R226 to R229). -/
def State.acceptsForward (s : State) (w : Nat) (r : Tooth) (p : Nat) (e : Option Nat) : Prop :=
  s.takesTooth w r p ∧ r.port = s.f (Reg.WHL_INPUT_PPORT w) ∧
  s.badWord (ttAddr (s.f (Reg.WHL_TTCFG_PBASE w))) (4 * s.teethN w) = false ∧ s.whlState w ≠ 4 ∧ s.isReverse w r.other = false ∧
  s.flag (Reg.WHL_STATUS_REVERSE w) = false ∧ (s.wheel w).secs = [] ∧
  e = (s.wheel w).lastT.map (fun u => (r.time - u).toNat) ∧
  ∀ n, e = some n → 25600 ≤ n ∧ ∀ d, s.dPred w = some d → s.f (Reg.WHL_FILT_MINFRAC w) * d ≤ (n * 256 : Int)

/-- A loss of sync with a cause has been made by the tooth r of tracker w, which counts as the first tooth of SEEK; pos is the position that a
reference edge before it gives it (R223, R227). -/
def LostAtTooth (w cause : Nat) (r : Tooth) (pos : Option Nat) (s t : State) : Prop :=
  t.f (Reg.WHL_STATUS_STATE w) = 1 ∧ t.f (Reg.WHL_STATUS_CAUSE w) = cause ∧ t.f (Reg.WHL_FLAGS_SYNCLOSS w) = 1 ∧
  t.f (Reg.WHL_ERRCNT_LOSS w) = min (s.f (Reg.WHL_ERRCNT_LOSS w) + 1) 0xFFF ∧ (t.wheel w).pos = pos ∧
  (t.wheel w).lastT = some r.time ∧ t.f (Reg.WHL_STATUS_LEARNING w) = 0

/-- Slot k of tracker w, for which an occurrence was queued as y, has been skipped (R234). -/
def SlotSkipped (w k : Nat) (s t : State) : Prop :=
  t.slotSt w k = 1 ∧ t.f (Reg.WHL_EVSTAT_SKIPPED w k) = 1 ∧ t.f (Reg.WHL_FLAGS_SKIP w) = 1 ∧
  t.f (Reg.WHL_EVSTAT_PARITY w k) = 1 - s.f (Reg.WHL_EVSTAT_PARITY w k) ∧ ((t.wheel w).slot k).bq = false ∧
  ((t.wheel w).slot k).eq = false

/-- A record that tracker w sends to a port leaves it (R28, R144, R231): the timebase runs, the tracker owns the port, its domain is on, and
the send queue of a field port does not fill up by t. -/
def State.canSend (s : State) (w port : Nat) (t : State) : Prop :=
  s.running = true ∧ s.ownerOf port = 0x10 + w ∧ s.on (portDom port) = true ∧
  (port < 64 → (t.sendq.filter fun x => x.act.owner == 0x10 + w).length < 128)

/-- The begin and the end of slot k that can be withdrawn at tp, once the tracker gives the occurrence up (R240, R242): the slot is HELD
where the begin is uncommitted; else an uncommitted end takes the time te, once, and the bit F is set. -/
def SlotHeld (w k : Nat) (tp te : Time) (F : Fld) (s t : State) : Prop :=
  ∀ y, y = (s.wheel w).slot k →
    (y.freeBeg tp = true → t.slotSt w k = 5 ∧ (t.wheel w).slot k = {} ∧
      t.f (Reg.WHL_EVSTAT_PARITY w k) = 1 - s.f (Reg.WHL_EVSTAT_PARITY w k)) ∧
    (y.freeBeg tp = false → t.slotSt w k = s.slotSt w k ∧
      (y.freeEnd tp = true → y.guard = false → t.f F = 1 ∧ ((t.wheel w).slot k).guard = true ∧
        (s.canSend w (evPort y.cfg) t → ((t.wheel w).slot k).te = te)) ∧
      ((y.freeEnd tp = false ∨ y.guard = true) → (t.wheel w).slot k = y))

/-- Compare c of sheave unit u has seen a step of size d from the position p (R279, R280): a crossing is an event where it is enabled for
the direction and not blocked, and sets its flag, and with ONCE ends its enable; the block holds while the position is within HYST. -/
def Compared (u c p : Nat) (d : Int) (s t : State) : Prop :=
  ∀ (v hyst : Nat) (hit blocked event : Prop), v = s.f (Reg.SHV_CMPVAL_C u c) → hyst = s.f (Reg.SHV_CMPCFG_HYST u c) →
    (hit ↔ (0 < d ∧ 1 ≤ ((v : Int) - p) % 2 ^ 48 ∧ ((v : Int) - p) % 2 ^ 48 ≤ d) ∨ (d < 0 ∧ ((p : Int) - v) % 2 ^ 48 ≤ -d - 1)) →
    (blocked ↔ c ∈ (s.sheave u).block ∧ hyst ≠ 0) →
    (event ↔ hit ∧ ¬blocked ∧ s.flag (Reg.SHV_CMPCFG_EN u c) = true ∧
      (s.f (Reg.SHV_CMPCFG_DIR u c)).testBit (if 0 < d then 0 else 1) = true) →
    (event → t.f ⟨Reg.SHV_CMPFLAGS u, c, 1⟩ = 1 ∧ (s.flag (Reg.SHV_CMPCFG_ONCE u c) = true → t.f (Reg.SHV_CMPCFG_EN u c) = 0)) ∧
    (¬event → t.f ⟨Reg.SHV_CMPFLAGS u, c, 1⟩ = s.f ⟨Reg.SHV_CMPFLAGS u, c, 1⟩ ∧
      t.f (Reg.SHV_CMPCFG_EN u c) = s.f (Reg.SHV_CMPCFG_EN u c)) ∧
    ((s.sheave u).block.Nodup → (c ∈ (t.sheave u).block ↔ (hit ∨ blocked) ∧ hyst ≠ 0 ∧
      clears (ofSigned 48 (p + d)) v hyst = false))

/-- Sheave unit u has made a step of size d, timed tm (R260, R279): its position, its time, its direction, STILL and its compares. -/
def Stepped (u : Nat) (d : Int) (tm : Time) (s t : State) : Prop :=
  t.f (Reg.SHV_POS_POS u) = ofSigned 48 (s.f (Reg.SHV_POS_POS u) + d) ∧ t.f (Reg.SHV_POSTIME_TIME u) = tm.toNat ∧
  t.f (Reg.SHV_STATUS_DIR u) = (decide (d < 0)).toNat ∧ t.f (Reg.SHV_STATUS_STILL u) = 0 ∧
  ∀ c, c < 16 → Compared u c (s.f (Reg.SHV_POS_POS u)) d s t

/-- A request frame f of the Lanyard port waits for the command with this code (R391, R394, R400). -/
def State.asks (s : State) (cmd : Nat) (f : List Byte) : Prop :=
  s.lan.req = some f ∧ frameByte f 0 = cmd ∧ s.lan.switching = false

/-- From u, in which the command's own effect stands, the request f has been answered with a status and a payload: its
response is kept to be read and for a repetition, and no request waits (R389, R391, R392); of a BADARG nothing was executed, and the
last executed request stays (R392, R393). -/
def Answered (f : List Byte) (status : Nat) (pay : List Byte) (u t : State) : Prop :=
  t = { u with
    lan.req := none
    lan.done := some (response f status pay)
    lan.ran := status != 4
    lan.last := if status = 4 then u.lan.last else some (f, response f status pay)
    lan.switching := false }

/-- A completion has been returned to the host with the attributes of its request (R376); its status is noted in the error
reporting registers (R373), and nothing else has changed. -/
def Completed (attr : ReqAttr) (c : Cpl) (s t : State) : Prop :=
  t = { s with ep.cpls := s.ep.cpls ++ [{ c with attr := attr }], ep.asked := t.ep.asked, ep.aer := s.ep.aer.answered c.status } ∧
  ∀ k, mget t.ep.asked k {} = if k = c.tag then {} else mget s.ep.asked k {}

/-- A host read of memory at address a has been answered with its data, in completions of which none is longer than Max Payload
Size and each but the last ends at a multiple of 64 bytes, with the attributes of the request (R373, R376); nothing else has
changed. -/
def ReadAnswered (tag a : Nat) (attr : ReqAttr) (data : List Byte) (s t : State) : Prop :=
  ∃ l, t = { s with ep.cpls := s.ep.cpls ++ l, ep.asked := t.ep.asked } ∧
    (∀ k, mget t.ep.asked k {} = if k = tag then {} else mget s.ep.asked k {}) ∧ l ≠ [] ∧ l.flatMap Cpl.data = data ∧
    ∀ x c y, l = x ++ c :: y → c = { tag := tag, data := c.data, rest := (y.flatMap Cpl.data).length, attr := attr } ∧
      c.data.length ≤ s.ep.mps ∧ (y ≠ [] → (a + ((x ++ [c]).flatMap Cpl.data).length) % 64 = 0)

/-- A request has joined the queue of bank b, and nothing else has changed but what the endpoint keeps for completions. -/
def AtBank (b : Nat) (q : BankReq) (s t : State) : Prop :=
  t = { s with banks := t.banks, ep.asked := t.ep.asked } ∧
  t.bank b = { s.bank b with order := (s.bank b).order + 1, pend := (s.bank b).pend ++ [{ q with order := (s.bank b).order }] } ∧
  ∀ k, k ≠ b → t.bank k = s.bank k

/-- The 8 symbols of a frame of this TYPE, depth and payload after this comma (R454). -/
def FrameOf (comma : Byte) (ty depth pay : Nat) (l : List Byte) : Prop :=
  ∃ b, b = BitVec.ofNat 8 (ty * 32 + depth) :: leBytes 4 pay ∧ l = comma :: b ++ leBytes 2 (crc16 b)

/-- A frame of this TYPE and payload that arrives on link x with head h begins with the comma of its direction, K28.5 from the parent on
FA and K28.1 from a child, and carries its CRC (R454). -/
def GoodFrame (x ty : Nat) (h : FrsHead) (pay : Nat) : Prop :=
  FrameOf (if x = 0 then 0xBC else 0x3C) ty h.depth pay (h.comma :: BitVec.ofNat 8 (ty * 32 + h.depth) :: leBytes 4 pay ++ leBytes 2 h.crc.toNat)

/-- The depth that a frame of link x carries has been taken where x is FA and the device is not the root (R463). -/
def DepthFrom (x depth : Nat) (s t : State) : Prop :=
  (x = 0 ∧ s.isRoot = false → t.frs.depth = depth + 1 ∧ t.f Reg.FRS_STATUS_DEPTH = min (depth + 1) 31) ∧
  (x ≠ 0 ∨ s.isRoot = true → t.frs.depth = s.frs.depth ∧ t.f Reg.FRS_STATUS_DEPTH = s.f Reg.FRS_STATUS_DEPTH)

/-- A global operation has come whole to the device: it is pending, but where it names the node and cannot be performed it is
skipped and counted (R466, R468, R469). The model's choice is that an operation of other devices is never counted as skipped (log
entry 97). -/
def OpArrived (seq kind mask arg : Nat) (T : Time) (s t : State) : Prop :=
  ∀ mine fits : Prop, (mine ↔ mask.testBit (s.f Reg.FRS_CFG_NODE) = true) →
    (fits ↔ s.pendingOps.length < 8 ∧ (kind = 2 ∨ (opLead kind : Int) ≤ (T - s.now).toInt) ∧
      (kind = 1 → s.flag Reg.MST_CTRL_RUN = true ∧ s.flag Reg.KLN_CTRL_RUN = false)) →
    (¬mine → t.f Reg.FRS_STATUS_OPSKIP = s.f Reg.FRS_STATUS_OPSKIP ∧
      t.frs.ops = if s.pendingOps.length < 8 then s.pendingOps ++ [⟨seq, kind, mask, T, arg, s.mc + 2⟩] else s.frs.ops) ∧
    (mine → fits → t.frs.ops = s.pendingOps ++ [⟨seq, kind, mask, T, arg, s.mc + 2⟩] ∧
      (kind = 1 → t.f Reg.KLN_FIRST_FIRST = T.toNat)) ∧
    (mine → ¬fits → t.frs.ops = s.frs.ops ∧ t.f Reg.FRS_STATUS_OPSKIP = 1 ∧
      t.f Reg.FRS_OPSTAT_SKIPCNT = min (s.f Reg.FRS_OPSTAT_SKIPCNT + 1) 0xFF)

end Sys2Proof.Machine
end

