-- ==== Sys2Proof/WellFormed.lean ====
section
/-! DEFINITION. The Coil instruction that a command stands for, and the conditions that a well-formed command satisfies
beyond the bounds of its operands' types. The meanings do not rest on them: an ill-formed command has a meaning too. -/

namespace Sys2Proof

open Sys2Proof.Machine

/-- The engine instance and the Coil instruction of a command that is one (R97 to R122). -/
def Instr.coil : Instr → Option (Fin 17 × Coil)
  | .add e rd ra rb => some (e, .alu .add rd ra rb)
  | .sub e rd ra rb => some (e, .alu .sub rd ra rb)
  | .and e rd ra rb => some (e, .alu .and rd ra rb)
  | .or e rd ra rb => some (e, .alu .or rd ra rb)
  | .xor e rd ra rb => some (e, .alu .xor rd ra rb)
  | .andn e rd ra rb => some (e, .alu .andn rd ra rb)
  | .shl e rd ra rb => some (e, .alu .shl rd ra rb)
  | .shr e rd ra rb => some (e, .alu .shr rd ra rb)
  | .sar e rd ra rb => some (e, .alu .sar rd ra rb)
  | .ror e rd ra rb => some (e, .alu .ror rd ra rb)
  | .shli e rd ra sh => some (e, .shi .shli rd ra sh)
  | .shri e rd ra sh => some (e, .shi .shri rd ra sh)
  | .sari e rd ra sh => some (e, .shi .sari rd ra sh)
  | .rori e rd ra sh => some (e, .shi .rori rd ra sh)
  | .slt e rd ra rb => some (e, .alu .slt rd ra rb)
  | .sltu e rd ra rb => some (e, .alu .sltu rd ra rb)
  | .minu e rd ra rb => some (e, .alu .minu rd ra rb)
  | .maxu e rd ra rb => some (e, .alu .maxu rd ra rb)
  | .mins e rd ra rb => some (e, .alu .mins rd ra rb)
  | .maxs e rd ra rb => some (e, .alu .maxs rd ra rb)
  | .mul e rd ra rb => some (e, .alu .mul rd ra rb)
  | .mulhu e rd ra rb => some (e, .alu .mulhu rd ra rb)
  | .mulhs e rd ra rb => some (e, .alu .mulhs rd ra rb)
  | .divu e rd ra rb => some (e, .alu .divu rd ra rb)
  | .remu e rd ra rb => some (e, .alu .remu rd ra rb)
  | .clz e rd ra => some (e, .un .clz rd ra)
  | .ctz e rd ra => some (e, .un .ctz rd ra)
  | .popc e rd ra => some (e, .un .popc rd ra)
  | .addi e rd ra imm18 => some (e, .imm .addi rd ra imm18)
  | .andi e rd ra imm18 => some (e, .imm .andi rd ra imm18)
  | .ori e rd ra imm18 => some (e, .imm .ori rd ra imm18)
  | .xori e rd ra imm18 => some (e, .imm .xori rd ra imm18)
  | .slti e rd ra imm18 => some (e, .imm .slti rd ra imm18)
  | .sltiu e rd ra imm18 => some (e, .imm .sltiu rd ra imm18)
  | .conl e rd imm22 => some (e, .conl rd imm22)
  | .cons e rd imm22 => some (e, .cons rd imm22)
  | .ld e rd ra size sgn pair rot off13 => some (e, .ld rd ra size sgn pair rot off13)
  | .st e rs ra size pair rot off13 => some (e, .st rs ra size pair rot off13)
  | .ldf e rd ra size sgn pair lim off8 => some (e, .ldf rd ra size sgn pair lim off8)
  | .stf e rs ra size pair lim off8 => some (e, .stf rs ra size pair lim off8)
  | .beq e ra rb off18 => some (e, .br .beq ra rb off18)
  | .bne e ra rb off18 => some (e, .br .bne ra rb off18)
  | .blt e ra rb off18 => some (e, .br .blt ra rb off18)
  | .bge e ra rb off18 => some (e, .br .bge ra rb off18)
  | .bltu e ra rb off18 => some (e, .br .bltu ra rb off18)
  | .bgeu e ra rb off18 => some (e, .br .bgeu ra rb off18)
  | .jmp e imm26 => some (e, .jmp imm26)
  | .call e imm26 => some (e, .call imm26)
  | .ret e => some (e, .ret)
  | .loop e ra max12 len10 => some (e, .loop ra max12 len10)
  | .act e rt rh => some (e, .act rt rh)
  | .actp e rt rh port code => some (e, .actp rt rh port code)
  | .seal e => some (e, .seal)
  | .tryl e rd ra lock => some (e, .tryl rd ra lock)
  | .unl e ra lock => some (e, .unl ra lock)
  | .evo e mask => some (e, .evo mask)
  | .evc e mask => some (e, .evc mask)
  | .mfs e rd sreg => some (e, .mfs rd sreg)
  | .mts e ra sreg => some (e, .mts ra sreg)
  | _ => none

/-- A request of n bytes at an address stays within one 4 KiB page, as PCI Express has it, and is not empty. -/
def pageOk (a n : Nat) : Bool := decide (1 ≤ n) && decide (a % 4096 + n ≤ 4096)

/-- A command is well formed: its register offset names a word (R8), a COMMIT offset names a COMMIT register (R12), the
fields of a Coil instruction are valid (R97), a host request keeps to one page, and lists and codes are of its kind. -/
def Instr.wf (i : Instr) : Bool :=
  match i.coil with
  | some (_, c) => coilValid c
  | none => match i with
    | .registerWrite _ off val => off.val % 4 == 0
    | .wideReadLatch _ off => off.val % 4 == 0
    | .wideWritePart _ off val => off.val % 4 == 0
    | .commit _ off => (commitRange off).isSome
    | .commitApplyNoTick off => (commitRange off).isSome
    | .farAccessGrant _ _ n => n.val != 0
    | .checkpointWrite _ _ n val => n.val != 0 || decide (val.toNat < 2 ^ 32)
    | .loadShed hot _ => decide hot.Nodup
    | .readReturn _ _ data => decide (data.length ≤ 4096)
    | .hostMemRead _ a len => pageOk a len
    | .hostMemWrite a data => pageOk a data.length
    | .hostAliasAccess _ _ a data => pageOk a data.length
    | .bar0ReadRequest _ off n => off.val % 4 == 0 && pageOk off (4 * n.val)
    | .bar0WriteRequest off vals _ => off.val % 4 == 0 && pageOk off (4 * vals.length)
    | .requestFrame f => !f.bytes.isEmpty
    | .recordApply m => decide (m.map Prod.fst).Nodup
    | .replay m => decide (m.map Prod.fst).Nodup
    | .tamperTrip mask => mask.val != 0
    | .tamperSensorRelease mask => mask.val != 0
    | .supplyChange k ev => decide (ev.val < 2) || k.val == 5
    | _ => true

end Sys2Proof
end

