-- ==== Sys2Proof/Certificates/Slice0/Obligations.lean ====
section
/-! DEFINITION. The statements for the provers: what the commands of the TZ-6480 do, by the numbered rules of spec/. -/

open Sys2Proof Sys2Proof.Machine Sys2Proof.Machine.Reg

/-! ### Register writes and commits -/

/-- A register write that its block does not take is refused and recorded (R379, R383, R384); one that waits in the
field-die proxy waits (R502); one to an offset that holds no register changes nothing (R7). A write that is performed
acts on each field by its access code (R10, R11, R15): RW at once (the holdoff of a tap), RWS on the staged value, and
refused where the value is not allowed (KLN_PERIOD, R83), RWL refused while its block is enabled (RIG_CWBASE), and a W1C
bit clears where 1 is written and hardware does not set it in the same cycle (MST_STATUS). -/
def Obligations.RegisterWriteByAccessCode : Prop :=
  ∀ (req : Fin 4) (off : Fin (2 ^ 24)) (val : Word) (s : State),
    (s.answers off = false → s.proxyWaits off = false →
      ∃ t, exec (.registerWrite req off val) s = .next t ∧ Refused req off s t) ∧
    (s.proxyWaits off = true →
      exec (.registerWrite req off val) s =
        .next { s with stay.proxy := s.stay.proxy ++ [(req.val, off.val, val)] }) ∧
    (s.reaches off → rowAt off = none → off.val / 0x10000 ≠ 14 → exec (.registerWrite req off val) s = .next s) ∧
    (∀ v : Fin 64, off.val = RIG_TAP v → s.reaches off →
      ∃ t, exec (.registerWrite req off val) s = .next t ∧ t.f (RIG_TAP_HOLDOFF v) = val.toNat % 2 ^ 16 ∧
        t.f (RIG_TAP_COUNT v) = s.f (RIG_TAP_COUNT v) ∧ OnlyRegs s t [RIG_TAP v]) ∧
    (off.val = KLN_PERIOD → s.reaches off → 100 ≤ val.toNat →
      exec (.registerWrite req off val) s = .next (s.setStg KLN_PERIOD val)) ∧
    (off.val = KLN_PERIOD → s.reaches off → val.toNat < 100 →
      ∃ t, exec (.registerWrite req off val) s = .next t ∧ Refused req KLN_PERIOD s t) ∧
    (off.val = RIG_CWBASE → s.reaches off → s.flag RIG_CWCFG_EN = false →
      ∃ t, exec (.registerWrite req off val) s = .next t ∧ t.f RIG_CWBASE_BASE = val.toNat % 2 ^ 18 ∧
        OnlyRegs s t [RIG_CWBASE]) ∧
    (off.val = RIG_CWBASE → s.reaches off → s.flag RIG_CWCFG_EN = true →
      ∃ t, exec (.registerWrite req off val) s = .next t ∧ Refused req RIG_CWBASE s t) ∧
    (off.val = MST_STATUS → s.reaches off →
      ∃ t, exec (.registerWrite req off val) s = .next t ∧ OnlyRegs s t [MST_STATUS] ∧
        (∀ i, i < 32 → (t.reg MST_STATUS).getLsbD i =
          ((s.reg MST_STATUS).getLsbD i &&
            !((i == 2 || i == 4 || i == 5) && val.getLsbD i && mget s.hwNow (32 * MST_STATUS + i) 0 == 0))))

/-- A read of the lowest part of a wide quantity in latch mode takes the whole of it into the requester's shadow, and a
later read of the other part returns what was taken; any other read changes nothing (R52). Written parts are held until
the highest part performs the whole write in one cycle (R53). In immediate mode nothing is taken or held (R54). A
change of GLB_RDMODE discards the shadows of the blocks whose mode changes (R55, R56). -/
def Obligations.WideReadsAndWrites : Prop :=
  (∀ (req : Fin 2) (off : Fin (2 ^ 24)) (s : State), s.answers off = true → wideLow off = some off.val →
    s.latchMode off = true →
    ∃ t, exec (.wideReadLatch req off) s = .next t ∧ (t.shadow req off).qty = some off.val ∧
      (t.shadow req off).read = some (s.live64 off) ∧ t = { s with kln.shadows := t.kln.shadows } ∧
      (∀ k, k ≠ shadowKey req off → mget t.kln.shadows k {} = mget s.kln.shadows k {}) ∧
      ∀ u : State, u.kln.shadows = t.kln.shadows → u.answers (off + 4) = true → u.latchMode (off + 4) = true →
        wideLow (off + 4) = some off.val → (readReg req (off + 4) u).1 = (s.live64 off).extractLsb' 32 32) ∧
  (∀ (req : Fin 2) (off : Fin (2 ^ 24)) (s : State),
    (wideLow off ≠ some off.val ∨ s.answers off = false ∨ s.latchMode off = false) →
    exec (.wideReadLatch req off) s = .next s) ∧
  (∀ (req : Fin 2) (off : Fin (2 ^ 24)) (lo hi : Word) (s : State), off.val = MST_SET → s.reaches MST_SET →
    s.reaches (MST_SET + 4) → s.latchMode MST_SET = true → s.flag MST_CTRL_RUN = false →
    ∃ t u, exec (.wideWritePart req off lo) s = .next t ∧ t = { s with kln.shadows := t.kln.shadows } ∧
      exec (.wideWritePart req ⟨MST_SET + 4, by decide⟩ hi) t = .next u ∧
      u.reg MST_SET = lo ∧ u.reg (MST_SET + 4) = hi ∧ SameRegs s u [MST_SET, MST_SET + 4]) ∧
  (∀ (req : Fin 2) (off : Fin (2 ^ 24)) (lo : Word) (s : State), off.val = MST_SET → s.reaches MST_SET →
    s.latchMode MST_SET = false → s.flag MST_CTRL_RUN = false →
    ∃ t, exec (.wideWritePart req off lo) s = .next t ∧ t.reg MST_SET = lo ∧ t.reg (MST_SET + 4) = s.reg (MST_SET + 4) ∧
      OnlyRegs s t [MST_SET, MST_SET + 4]) ∧
  (∀ (req : Fin 4) (val : Word) (s : State), s.reaches GLB_RDMODE →
    ∃ t, exec (.rdmodeWrite req val) s = .next t ∧ t.f GLB_RDMODE_MODE = val.toNat % 2 ^ 16 &&& 0xDFFF ∧
      t = { s with regs := t.regs, kln.shadows := t.kln.shadows } ∧ SameRegs s t [GLB_RDMODE] ∧
      ∀ r b, r < 2 → b < 16 → mget t.kln.shadows (2 * b + r) {} =
        if (t.f GLB_RDMODE_MODE).testBit b = (s.f GLB_RDMODE_MODE).testBit b
        then mget s.kln.shadows (2 * b + r) {} else {})

/-- A COMMIT arms its block for the next boundary, or, while no ticks are issued and HOLD is 0, for the fourth Mast cycle
after it; a block that is armed stays as it is (R12, R14, R70). While no ticks are issued and HOLD is 0, an armed block whose domain
is on applies in the fourth Mast cycle after its COMMIT, and not before: every staged field of its registers takes its staged value
in one cycle, every other bit of every register stays, and the block is no longer armed (R12, R14, R67, R70). Ports, arbiters and
Forestay do no more; with the GLB_ group the sheave units that have lost a port stop (R258, R259), with the MST_ and KLN_ group the
reference is selected (R38), with the matrix a route entry that changed loses its pulses (R297), a tracker's slots follow their
settings (R237), a sheave unit takes a new window and CPR (R265, R288), and an engine, also one whose domain is off, obeys its command
(R138). An engine's block that applies at a boundary does the same. That a START so applied is tested against the period in force
then is the model's choice (log entry 89). -/
def Obligations.CommitsArmAndApply : Prop :=
  (∀ (req : Fin 4) (off : Fin (2 ^ 24)) (s : State), (commitRange off).isSome = true → s.reaches off →
    (s.armedAt off ≠ 0 → exec (.commit req off) s = .next s) ∧
    (s.armedAt off = 0 → ∃ t, exec (.commit req off) s = .next t ∧
      t.armedAt off = (if s.ticking = true ∨ s.flag KLN_CTRL_HOLD = true then 1 else s.mc + 6) ∧
      t = { s with kln.armed := t.kln.armed } ∧ ∀ o, o ≠ off.val → t.armedAt o = s.armedAt o)) ∧
  (∀ (off : Fin (2 ^ 24)) (lo hi : Nat) (s : State), commitRange off = some (lo, hi) →
    ((s.armedAt off < 2 ∨ s.mc + 2 < s.armedAt off ∨ s.ticking = true ∨ s.flag KLN_CTRL_HOLD = true ∨
        s.on (offDom off) = false ∧ (commitEngine off).isSome = false) →
      exec (.commitApplyNoTick off) s = .next s) ∧
    (2 ≤ s.armedAt off → s.armedAt off ≤ s.mc + 2 → s.ticking = false → s.flag KLN_CTRL_HOLD = false →
      (∀ e : Fin 17, off.val = COIL_COMMIT e → ∃ v, CommandTaken e s v ∧ exec (.commitApplyNoTick off) s =
        .next (applyCmd e (bitsOf (s.stg (COIL_CTRL e)).toNat 0 2) (s.f KLN_PERIOD_PERIOD) v)) ∧
      ((commitEngine off).isSome = false → s.on (offDom off) = true →
        ∃ u t, FieldsApplied off lo hi s u ∧ exec (.commitApplyNoTick off) s = .next t ∧
          (lo = 0x40000 ∨ lo = 0xA0000 ∨ 0x80000 ≤ lo ∧ lo < 0x86000 → t = u) ∧
          (off.val = GLB_COMMIT → t = sheaveOwners u ∧ ((∀ k, k < 8 → u.shvRuns k = false) → t = u)) ∧
          (off.val = KLN_COMMIT → t = refselApplied (s.f MST_REFSEL_SRC) u ∧
            (u.f MST_REFSEL_SRC = s.f MST_REFSEL_SRC → s.kln.refWritten = false → t = u)) ∧
          (off.val = RIG_COMMIT → t = routesApplied (fun k => s.reg64 (RIG_ROUTE k)) u ∧
            (∀ k, k < 1024 → t.reg64 (RIG_ROUTE k) = u.reg64 (RIG_ROUTE k))) ∧
          (∀ w : Fin 4, lo = 0x50000 + 0x1000 * w → t = (List.range 64).foldl (fun t k => slotApply w k s.now t) u) ∧
          (∀ k : Fin 8, lo = 0x60000 + 0x800 * k → t = sheaveApplied k (s.f (SHV_SPDCFG_SPDWIN k)) (s.f (SHV_CPR_CPR k)) u ∧
            (u.f (SHV_SPDCFG_SPDWIN k) = s.f (SHV_SPDCFG_SPDWIN k) → u.f (SHV_CPR_CPR k) = s.f (SHV_CPR_CPR k) → t = u))))) ∧
  (∀ (e : Fin 17) (a : Nat) (B : Time) (s : State), s.kln.armed = [(COIL_COMMIT e, a)] → ∃ v, CommandTaken e s v ∧
    applyAll B s = applyCmd e (bitsOf (s.stg (COIL_CTRL e)).toNat 0 2) (s.f KLN_PERIOD_PERIOD) v)

/-- GLB_PORTOWN takes a new owner as a staged value; an INDEX outside the range of its TYPE is refused and nothing is
staged (R26, R27). -/
def Obligations.PortOwnerIsStaged : Prop :=
  ∀ (req : Fin 4) (p : Fin 96) (val : Word) (s : State), s.reaches (GLB_PORTOWN p) →
    (((bitsOf val.toNat 8 2 = 0 ∨ bitsOf val.toNat 8 2 = 1 ∧ bitsOf val.toNat 0 5 < 16 ∨
        bitsOf val.toNat 8 2 = 2 ∧ bitsOf val.toNat 0 5 < 4 ∨ bitsOf val.toNat 8 2 = 3 ∧ bitsOf val.toNat 0 5 < 8) →
      ∃ t, exec (.portownWrite req p val) s = .next t ∧ t = { s with staged := t.staged } ∧
        bitsOf (t.stg (GLB_PORTOWN p)).toNat 8 2 = bitsOf val.toNat 8 2 ∧
        bitsOf (t.stg (GLB_PORTOWN p)).toNat 0 5 = bitsOf val.toNat 0 5 ∧
        ∀ o, o ≠ GLB_PORTOWN p → t.stg o = s.stg o) ∧
    ((bitsOf val.toNat 8 2 = 1 ∧ 16 ≤ bitsOf val.toNat 0 5 ∨ bitsOf val.toNat 8 2 = 2 ∧ 4 ≤ bitsOf val.toNat 0 5 ∨
        bitsOf val.toNat 8 2 = 3 ∧ 8 ≤ bitsOf val.toNat 0 5) →
      ∃ t, exec (.portownWrite req p val) s = .next t ∧ Refused req (GLB_PORTOWN p) s t))

/-- CLR of GLB_OWNERR clears the count and the records, and CLR of GLB_WERR the count, the requester and the address; WERR
itself stays. An error of the same cycle is counted after the clear, and leaves its records (R30, R383). -/
def Obligations.ErrorRecordsClear : Prop :=
  (∀ (req : Fin 4) (s : State), s.reaches GLB_OWNERR →
    ∃ t, exec (.ownerrClr req) s = .next t ∧ OnlyRegs s t [GLB_OWNERR] ∧
      t.f GLB_OWNERR_COUNT = min (s.noted GLB_OWNERR_COUNT) 0xFFFF ∧
      (s.noted GLB_OWNERR_COUNT = 0 →
        t.f GLB_OWNERR_SRC_TYPE = 0 ∧ t.f GLB_OWNERR_SRC_INDEX = 0 ∧ t.f GLB_OWNERR_PORT = 0) ∧
      (s.noted GLB_OWNERR_COUNT ≠ 0 → t.f GLB_OWNERR_SRC_TYPE = s.f GLB_OWNERR_SRC_TYPE ∧
        t.f GLB_OWNERR_SRC_INDEX = s.f GLB_OWNERR_SRC_INDEX ∧ t.f GLB_OWNERR_PORT = s.f GLB_OWNERR_PORT)) ∧
  (∀ (req : Fin 4) (s : State), s.reaches GLB_WERR →
    ∃ t, exec (.werrClr req) s = .next t ∧ OnlyRegs s t [GLB_WERR, GLB_WERRADDR] ∧
      t.f GLB_WERR_WERR = s.f GLB_WERR_WERR ∧ t.f GLB_WERR_COUNT = min (s.noted GLB_WERR_COUNT) 0xFFFF ∧
      (s.noted GLB_WERR_COUNT = 0 → t.f GLB_WERR_REQ = 0 ∧ t.reg GLB_WERRADDR = 0) ∧
      (s.noted GLB_WERR_COUNT ≠ 0 → t.f GLB_WERR_REQ = s.f GLB_WERR_REQ ∧ t.reg GLB_WERRADDR = s.reg GLB_WERRADDR))

/-! ### The timebase, ticks and slots -/

/-- A Mast cycle begins (R40, R41, R537): the cycle count goes up by one; while the timebase runs the count advances by 256
fc; a written start loads MST_SET with its low eight bits as 0, and the virtual boundaries count from there; while it does
not run the count stands; a record that its sender on the Stay link has held for 2 µs is held no longer (R494), and the field copy
counts on in holdover (R502). What units have formed for the cycle comes then: pulses (R294), stops of sheave units (R258), output
changes of its boundary (R188, R196), the clocks of serial frames (R272), the host's queue and program checks; where none of these
waits, the count is all. RUN
starts the timebase at the next Mast cycle and stops it at once; a write that does not change RUN changes nothing, and a stop
while ticks are issued or asked for is refused (R41). -/
def Obligations.MastTimebase : Prop :=
  (∀ s b : State, b = sheaveBoundary s → ∃ u,
    exec .mastCycle s =
      .next (hostGoOn (checkBeats (ssiRun (portsSettle (sheavesHalt (pulsesArrive (pulsesDue u))))))) ∧
    u = { b with hwNow := [], lockNow := [], hly.comps := [], kln := u.kln, stay.cmd := u.stay.cmd, stay.ret := u.stay.ret } ∧
    u.mc = b.mc + 1 ∧
    u.stay.cmd = { b.stay.cmd with flight := b.stay.cmd.flight.filter fun r => decide (u.mc ≤ r.sent + 400) } ∧
    u.stay.ret = { b.stay.ret with flight := b.stay.ret.flight.filter fun r => decide (u.mc ≤ r.sent + 400) } ∧
    u.kln.copy = b.kln.copy.map (fun c => if c.2 = true then (c.1 + 256, true) else c) ∧
    (b.flag MST_CTRL_RUN = false → u.now = b.now) ∧
    (b.flag MST_CTRL_RUN = true → b.kln.loadSet = false → u.now = b.now + 256) ∧
    (b.flag MST_CTRL_RUN = true → b.kln.loadSet = true →
      u.now = fc (b.f MST_SET_SET / 256 * 256) ∧ u.kln.loadSet = false ∧
      (b.ticking = false → u.kln.slotBase = u.now ∧ u.kln.slotK = 0 ∧
        u.kln.virt = u.now + fc (256 * b.f KLN_PERIOD_PERIOD))) ∧
    ((∀ p ∈ s.sheaves, p.2.load = none ∧ p.2.cmpw = []) → b = s) ∧
    (s.ep.queue = [] → s.ep.held = [] → (∀ e, e < 16 → (s.eng e).check = none) → s.rig.sched = [] → s.rig.flight = [] →
      (∀ p ∈ s.ports, p.2.later = [] ∧ p.2.acc = none) → (∀ k, k < 8 → s.shvRuns k = true → s.shvEn k = true) →
      (∀ p ∈ s.sheaves, p.2.load = none ∧ p.2.cmpw = [] ∧ p.2.frame = none) → exec .mastCycle s = .next u)) ∧
  (∀ (req : Fin 4) (s : State), s.reaches MST_CTRL →
    (∃ t, exec (.timebaseStart req) s = .next t ∧
      ReadsAs (if s.flag MST_CTRL_RUN = true then s else { s.setF MST_CTRL_RUN 1 with kln.loadSet := true }) t) ∧
    ((s.flag MST_CTRL_RUN = false ∨ s.flag KLN_CTRL_RUN = false ∧ s.ticking = false) →
      ∃ t, exec (.timebaseStop req) s = .next t ∧
        ReadsAs (if s.flag MST_CTRL_RUN = true then { s.setF MST_CTRL_RUN 0 with kln.loadSet := false } else s) t) ∧
    (s.flag MST_CTRL_RUN = true → (s.flag KLN_CTRL_RUN = true ∨ s.ticking = true) → ∃ u t, ReadsAs s u ∧
      exec (.timebaseStop req) s = .next t ∧ Refused req MST_CTRL u t))

/-- The reference (R38, R39): its loss begins holdover, sets REFLOST, clears LOCKED, pulses and is logged; it is then not valid
until it is valid again. What a second loss during holdover does, and that REFERENCE_VALID speaks also of the staged source, is the
model's choice (log entry 80), as is that a reference is not valid before (log entry 28). The PLL locks only to a valid reference
outside holdover, and a device that follows its parent may join then (R459). A PPS edge of the selected polarity, while the
timebase runs and PPS is enabled, leaves its count in MST_PPS, sets PPS_SEEN and pulses; any other changes nothing (R43). A
realignment of the field copy over a working link reports its residual, sets FLD_ALIGNED within 15 ps, and otherwise clears it, sets
FLD_ALIGNLOSS, pulses and is logged (R44, R50); RESID holding the low 16 bits is the model's choice (log entry 89). -/
def Obligations.ReferencesAndAlignment : Prop :=
  (∀ s : State,
    (s.flag MST_STATUS_HOLDOVER = false → ∃ u, exec .referenceLost s =
        .next (logFault 6 0 (s.f MST_REFSEL_SRC) 0 (pulse 0x23A u)) ∧
      u = { s with regs := u.regs, hwNow := u.hwNow, kln.refGood := s.kln.refGood.filter (· != s.f MST_REFSEL_SRC) } ∧ SameRegs s u [MST_STATUS] ∧
      u.f MST_STATUS_HOLDOVER = 1 ∧ u.f MST_STATUS_REFLOST = 1 ∧ u.f MST_STATUS_LOCKED = 0 ∧
      u.f MST_STATUS_REF_ACTIVE = s.f MST_STATUS_REF_ACTIVE) ∧
    (s.flag MST_STATUS_HOLDOVER = true →
      exec .referenceLost s = .next { s with kln.refGood := s.kln.refGood.filter (· != s.f MST_REFSEL_SRC) }) ∧
    (∃ t, exec .referenceValid s = .next t ∧ t = { s with kln.refGood := t.kln.refGood } ∧ t.refValid = true ∧
      (s.stg MST_REFSEL).toNat % 8 ∈ t.kln.refGood ∧ ∀ k ∈ s.kln.refGood, k ∈ t.kln.refGood) ∧
    (s.refValid = true → s.flag MST_STATUS_HOLDOVER = false →
      ∃ t, exec .mastPllLock s = .next (frsJoin t.frs.ofs t) ∧ t.f MST_STATUS_LOCKED = 1 ∧ OnlyRegs s t [MST_STATUS] ∧
        (s.flag FRS_CFG_FOLLOW = false → exec .mastPllLock s = .next t)) ∧
    ((s.refValid = false ∨ s.flag MST_STATUS_HOLDOVER = true) →
      exec .mastPllLock s = .next (frsJoin s.frs.ofs s) ∧
      ((s.flag MST_STATUS_LOCKED = false ∨ s.flag FRS_CFG_FOLLOW = false) → exec .mastPllLock s = .next s))) ∧
  ((∀ (rising : Bool) (fine : Fin 256) (s : State),
    (s.running = true → s.flag MST_CTRL_PPS_EN = true → rising = !s.flag MST_CTRL_PPS_EDGE →
      ∃ u, exec (.ppsEdge rising fine) s = .next (pulse 0x239 u) ∧ u.reg64 MST_PPS = (s.now + fc fine).toNat ∧
        u.f MST_STATUS_PPS_SEEN = 1 ∧ OnlyNoted s u [MST_PPS, MST_PPS + 4, MST_STATUS]) ∧
    ((s.running = false ∨ s.flag MST_CTRL_PPS_EN = false ∨ rising = s.flag MST_CTRL_PPS_EDGE) →
      exec (.ppsEdge rising fine) s = .next s)) ∧
  (∀ (resid : Int) (s : State), s.linked = true →
    (resid.natAbs ≤ 49 → ∃ t, exec (.fieldRealign resid) s = .next t ∧ t.f MST_STATUS_FLD_ALIGNED = 1 ∧
      t.f MST_FLDSKEW_RESID = ofSigned 16 resid % 2 ^ 16 ∧ OnlyRegs { s with kln.copy := none } t [MST_STATUS, MST_FLDSKEW]) ∧
    (49 < resid.natAbs → ∃ u, exec (.fieldRealign resid) s =
        .next (logFault 7 0 0 (ofSigned 16 resid % 2 ^ 16) (pulse 0x23B u)) ∧ u.f MST_STATUS_FLD_ALIGNED = 0 ∧
      u.f MST_STATUS_FLD_ALIGNLOSS = 1 ∧ u.f MST_FLDSKEW_RESID = ofSigned 16 resid % 2 ^ 16 ∧
      OnlyNoted { s with kln.copy := none } u [MST_STATUS, MST_FLDSKEW])) ∧
  (∀ (resid : Int) (s : State), s.linked = false → exec (.fieldRealign resid) s = .next s))

/-- Ticks start at KLN_FIRST when it lies at least 4 mc and less than half the range ahead, else 4 mc from now with
START_LATE; they cannot start while the timebase does not run (R59, R60, R81). That a stop before the first boundary cancels the
start is the model's reading of R60 (DEDUCED, log entry 29). HOLD lets nothing apply, and its release while no ticks are issued arms every waiting block again (R70). The stop of
ticks completes at the boundary at which none is issued: TICKING is 0, virtual boundaries go on at the period from there,
and armed blocks apply 4 mc later unless HOLD is 1 (R14, R60, R538). A virtual boundary restarts the slot walk; neither
happens before its time (R71, R538). -/
def Obligations.TicksStartAndStop : Prop :=
  (∀ (req : Fin 4) (s : State), s.reaches KLN_CTRL →
    (s.flag KLN_CTRL_RUN = true → ∃ t, exec (.ticksStart req) s = .next t ∧ ReadsAs s t) ∧
    (s.flag KLN_CTRL_RUN = false → s.flag MST_CTRL_RUN = false → ∃ u t, ReadsAs s u ∧
      exec (.ticksStart req) s = .next t ∧ Refused req KLN_CTRL u t) ∧
    (s.flag KLN_CTRL_RUN = false → s.flag MST_CTRL_RUN = true → s.ticking = true →
      ∃ t, exec (.ticksStart req) s = .next t ∧ ReadsAs (s.setF KLN_CTRL_RUN 1) t) ∧
    (∀ f, f = fc (s.f KLN_FIRST_FIRST / 256 * 256) →
      s.flag KLN_CTRL_RUN = false → s.flag MST_CTRL_RUN = true → s.ticking = false →
      1024 ≤ (f - s.nowSet).toNat → (f - s.nowSet).toNat < 2 ^ 63 →
      ∃ t, exec (.ticksStart req) s = .next t ∧ ReadsAs { s.setF KLN_CTRL_RUN 1 with kln.first := some f } t) ∧
    (∀ f, f = fc (s.f KLN_FIRST_FIRST / 256 * 256) →
      s.flag KLN_CTRL_RUN = false → s.flag MST_CTRL_RUN = true → s.ticking = false →
      ((f - s.nowSet).toNat < 1024 ∨ 2 ^ 63 ≤ (f - s.nowSet).toNat) →
      ∃ t, exec (.ticksStart req) s = .next t ∧
        ReadsAs { (s.setF KLN_CTRL_RUN 1).raise KLN_STATUS_START_LATE with kln.first := some (s.nowSet + 1024) } t) ∧
    (∃ t, exec (.ticksStop req) s = .next t ∧
      ReadsAs { s.setF KLN_CTRL_RUN 0 with kln.first := if s.ticking = true then s.kln.first else none } t) ∧
    (∀ on : Bool, ∃ t, exec (.kilnHold req on) s = .next t ∧
      ReadsAs { s.setF KLN_CTRL_HOLD on.toNat with
        kln.first := if s.flag KLN_CTRL_RUN = true ∨ s.ticking = true then s.kln.first else none
        kln.armed := if on = false ∧ s.flag KLN_CTRL_HOLD = true ∧ s.ticking = false
          then s.kln.armed.map (fun p => (p.1, s.mc + 6)) else s.kln.armed } t)) ∧
  (∀ s : State,
    (s.ticking = true → s.flag KLN_CTRL_RUN = false → s.running = true → reached s.kln.next s.now = true →
      ∃ t, exec .tickingEnd s = .next t ∧ t.f KLN_STATUS_TICKING = 0 ∧ SameRegs s t [KLN_STATUS] ∧
        t = { s with regs := t.regs, kln.slotBase := s.kln.next, kln.slotK := 0,
                     kln.virt := s.kln.next + fc (256 * s.f KLN_PERIOD_PERIOD), kln.armed := t.kln.armed } ∧
        t.kln.armed = if s.flag KLN_CTRL_HOLD = true then s.kln.armed else s.kln.armed.map fun p => (p.1, s.mc + 6)) ∧
    ((s.ticking = false ∨ s.flag KLN_CTRL_RUN = true ∨ s.running = false ∨ reached s.kln.next s.now = false) →
      exec .tickingEnd s = .next s) ∧
    (s.ticking = false → s.running = true → reached s.kln.virt s.now = true →
      exec .virtualBoundary s = .next { s with kln.slotBase := s.kln.virt, kln.slotK := 0,
                                               kln.virt := s.kln.virt + fc (256 * s.f KLN_PERIOD_PERIOD) }) ∧
    ((s.ticking = true ∨ s.running = false ∨ reached s.kln.virt s.now = false) → exec .virtualBoundary s = .next s))

/-- When the next boundary has come while ticks are issued or the first one is due, a tick begins (R57, R59, R61): its
number is one more than the last, 0 for the first after a reset; KLN_TICKTIME is the boundary and TICKING is 1; unless
HOLD is 1 every armed block whose domain is on applies; the next boundary lies one period, as it then stands, ahead, and the slot walk begins
again; then engines, Halyard, taps, sheaves and the translator take the tick, and source 0x238 pulses in the cycle that
begins at the boundary. When no boundary is due, nothing changes. -/
def Obligations.TickBoundaryBeginsATick : Prop :=
  ∀ s : State,
    (∀ B, s.boundaryDue = some B → ∃ u w, exec .tickBoundary s =
        .next (pulseAt 0x238 (s.mc + 1)
          (lgcBoundary B (w.f KLN_PERIOD_PERIOD) (sheaveTick B (notifyTick (prepTicks w))))) ∧
      u.reg64 KLN_TICKCNT = (if s.kln.issued = true then (s.reg64 KLN_TICKCNT + 1) % 2 ^ 64 else 0) ∧
      u.reg64 KLN_TICKTIME = B.toNat ∧ u.f KLN_STATUS_TICKING = 1 ∧
      u = { s with regs := u.regs, kln.first := none, kln.issued := true, kln.bmc := s.mc
                   kln.next := B + fc (256 * s.f KLN_PERIOD_PERIOD) } ∧
      SameRegs s u [KLN_TICKCNT, KLN_TICKCNT + 4, KLN_TICKTIME, KLN_TICKTIME + 4, KLN_STATUS] ∧
      w = { (if s.flag KLN_CTRL_HOLD = true then u else applyAll B u) with kln := w.kln, ticks := w.ticks } ∧
      w.kln.slotBase = B ∧ w.kln.slotK = 0 ∧ w.kln.next = B + fc (256 * w.f KLN_PERIOD_PERIOD)) ∧
    (s.boundaryDue = none → exec .tickBoundary s = .next s)

/-- A slot table entry of the copy that is not in use takes its two owner codes; a code that R74 does not list, and any
write to the copy in use, is refused, the latter with SLOTWR (R73 to R75). -/
def Obligations.SlotTableWrite : Prop :=
  ∀ (req : Fin 4) (k : Fin 2) (n : Fin 1024) (val : Word) (s : State), s.reaches (KLN_SLOT k n) →
    (s.f KLN_SLOTSEL_ACTIVE = k → ∃ t, exec (.slotTableWrite req k n val) s = .next t ∧
      Refused req (KLN_SLOT k n) (s.raise KLN_STATUS_SLOTWR) t) ∧
    (s.f KLN_SLOTSEL_ACTIVE ≠ k →
      (bitsOf val.toNat 0 5 < 0x14 ∨ bitsOf val.toNat 0 5 = 0x1E ∨ bitsOf val.toNat 0 5 = 0x1F) →
      (bitsOf val.toNat 8 5 < 0x1C ∨ bitsOf val.toNat 8 5 = 0x1E ∨ bitsOf val.toNat 8 5 = 0x1F) →
      ∃ t, exec (.slotTableWrite req k n val) s = .next t ∧ t.f (KLN_SLOT_CMD_OWNER k n) = bitsOf val.toNat 0 5 ∧
        t.f (KLN_SLOT_CAP_OWNER k n) = bitsOf val.toNat 8 5 ∧ OnlyRegs s t [KLN_SLOT k n]) ∧
    (s.f KLN_SLOTSEL_ACTIVE ≠ k →
      (0x14 ≤ bitsOf val.toNat 0 5 ∧ bitsOf val.toNat 0 5 < 0x1E ∨
        0x1C ≤ bitsOf val.toNat 8 5 ∧ bitsOf val.toNat 8 5 < 0x1E) →
      ∃ t, exec (.slotTableWrite req k n val) s = .next t ∧ Refused req (KLN_SLOT k n) s t)

/-- A slot begins at its time while the timebase runs (R71): the walk goes on to the next slot; on the command lanes in
use go, in order of lanes and with rising sequence numbers, the records to be sent again, then the owner's records in
hand-over order, then the oldest of the others, as far as they have come to the queue (R72, R74, R494, R495); then the tooth and
capture records of the slot move (R298 to R300). That a slot coded unused carries no command record, and a capture record as an open
slot does, is the model's choice (log entry 78); R72 leaves no lane empty. Before its time, and with no slot left in the tick,
nothing changes. -/
def Obligations.SlotCarriesRecords : Prop :=
  ∀ s : State,
    (∀ t, s.nextSlot = some t → s.running = true → reached t s.now = true → ∃ u,
      exec .slotStart s = .next
        (captureSlot (s.f (KLN_SLOT_CAP_OWNER (s.f KLN_SLOTSEL_ACTIVE) (s.kln.slotK % 1024)))
          (returnSlot (s.f (KLN_SLOT_CAP_OWNER (s.f KLN_SLOTSEL_ACTIVE) (s.kln.slotK % 1024))) u)) ∧
      u = { s with kln.slotK := s.kln.slotK + 1, sendq := u.sendq, stay.cmd := u.stay.cmd } ∧
      (s.linked = false → u.sendq = s.sendq ∧ u.stay.cmd = s.stay.cmd) ∧
      (s.linked = true → ∃ again new, u.stay.cmd.flight = s.stay.cmd.flight ++ again ++ new ∧
        again.map StayRec.load = (s.stay.cmd.again.take s.txLanes.length).map StayRec.load ∧
        u.stay.cmd.again = s.stay.cmd.again.drop s.txLanes.length ∧
        (again ++ new).map StayRec.lane = s.txLanes.take (again ++ new).length ∧
        (∀ (c : Nat) (q : List Transit), c = s.f (KLN_SLOT_CMD_OWNER (s.f KLN_SLOTSEL_ACTIVE) (s.kln.slotK % 1024)) →
          q = s.sendq.filter (fun x => decide (x.ready ≤ s.mc)) →
          new.map StayRec.load = (if c = 0x1F then []
            else (((q.filter fun x => x.act.owner == c) ++ (q.filter fun x => x.act.owner != c)).take
              (s.txLanes.length - again.length)).map fun x => StayLoad.act x.act)) ∧
        (∀ x ∈ u.sendq, x ∈ s.sendq) ∧ (again ++ new).map StayRec.sent = List.replicate (again ++ new).length s.mc ∧
        (∀ i r, new[i]? = some r → r.seq % 4096 = (s.stay.cmd.next + i) % 4096) ∧
        u.sendq.length + new.length = s.sendq.length)) ∧
    ((s.nextSlot = none ∨ s.running = false ∨ ∃ t, s.nextSlot = some t ∧ reached t s.now = false) →
      exec .slotStart s = .next s)

/-! ### The control of Coil engines -/

/-- At ec 8 of a tick every engine that is to run starts its program at ENTRY, with the registers and ESTAT of its
checkpoint, empty stacks and an empty batch; the other engines, locks, ports and waiting records stay, and where no engine is traced
every byte and register too (R61, R89, R142, R164). An engine whose checkpoint has a double-bit error faults with code 6 instead
(R142, R170). Before it, nothing starts. -/
def Obligations.TickProgramsStart : Prop :=
  ∀ s : State,
    (s.mc < s.kln.bmc + 2 → exec .tickProgramStart s = .next s) ∧
    (s.kln.bmc + 2 ≤ s.mc → (∀ e, e < 17 → (s.eng e).toRun = true → (s.eng e).ck.err < 2) →
      ∃ t, exec .tickProgramStart s = .next t ∧
      (∀ e, e < 17 → (s.eng e).toRun = true →
        (t.eng e).run = some { tick := s.tick, ttime := fc (s.f KLN_TICKTIME_TIME), period := s.f KLN_PERIOD_PERIOD,
                               ec0 := 4 * s.kln.bmc, time0 := fc (s.f KLN_TICKTIME_TIME), det := false,
                               pc := (s.eng e).image.base + (s.eng e).image.entry } ∧
        (t.eng e).g = (s.eng e).ck.g ∧ (t.eng e).estat = (s.eng e).ck.estat ∧ (t.eng e).toRun = false) ∧
      (∀ e, (s.eng e).toRun = false → t.eng e = s.eng e) ∧
      t.ports = s.ports ∧ t.locks = s.locks ∧ t.kln = s.kln ∧ t.sendq = s.sendq ∧
      ((∀ e, e < 17 → s.flag (COIL_CTRL_TRACE (s.rights e)) = false) → t.mem = s.mem ∧ t.regs = s.regs)) ∧
    (∀ e, s.kln.bmc + 2 ≤ s.mc → e < 16 → (s.eng e).toRun = true → 2 ≤ (s.eng e).ck.err →
      ∃ t, exec .tickProgramStart s = .next t ∧ (t.eng e).run = none ∧ (t.eng e).st = .faulted ∧
        t.f (COIL_FAULT_CODE e) = 6 ∧ t.f (COIL_FAULT_PCW e) = 0)

/-- A run that has passed its last permitted engine cycle without SEAL, whatever it was to do next, is an overrun: its bit of
KLN_OVR is set, source 0x23C pulses and the engine faults with code 7 (R63 to R65, R129, R155). A run whose first instruction has
not issued by ec 10, or whose far access has not ended in time, faults with code 8 (R149). Otherwise neither command changes
anything. The PC recorded for an overrun, that of the next instruction, and for a watchdog fault without one, 0, is the model's
choice (log entry 34). -/
def Obligations.OverrunAndWatchdog : Prop :=
  ∀ (e : Fin 17) (s : State),
    (∀ r t0, s.overrunAt e = some (r, t0) → ∃ u t, exec (.overrun e) s = .next t ∧
      u.f (bitFld KLN_OVR_OVR e) = 1 ∧ OnlyNoted s u [KLN_OVR] ∧
      Faulted e 7 (pcOff (s.eng e) r) t0 (some r)
        (traceEntry e (pcOff (s.eng e) r) (t0 - r.ec0) 7 8 (pulse 0x23C u)) t) ∧
    (s.overrunAt e = none → exec (.overrun e) s = .next s) ∧
    (∀ r t0, s.overrunAt e = some (r, t0) ↔ (s.eng e).run = some r ∧ t0 = r.ec0 + runLimit (s.eng e) r + 1 ∧ t0 ≤ s.ecNow) ∧
    (∀ r, runLimit (s.eng e) r = if r.det = true then 8 + (s.eng e).image.decl
      else min (4 * r.period - 56) (8 + (s.eng e).image.decl)) ∧
    (∀ r t0 pcw, s.watchAt e = some (r, t0, pcw) → ∃ t, exec (.watchdog e) s = .next t ∧
      Faulted e 8 pcw t0 (some r) (traceEntry e pcw (t0 - r.ec0) 8 8 s) t) ∧
    (s.watchAt e = none → exec (.watchdog e) s = .next s)

/-- One Mast cycle after a fault the engine is reset: every lock held under its number is released and marked ABANDONED,
and source 0x23D pulses (R147, R150); that release comes before an acquisition of the same engine cycle, whichever command is first,
and a TRYL of that cycle that has been answered gets its result anew (R120, R147). CE16 has stood in under another engine's number, whose locks go, and is SPARE then; the end
of its stand-in gives the engine CE16's event flags back (R160, R539). Until then nothing changes. -/
def Obligations.FaultedEngineIsReset : Prop :=
  ∀ (e : Fin 17) (s : State),
    (∀ t0 n, (s.eng e).resetAt = some t0 → t0 + 4 ≤ s.ecNow → n = (if e.val = 16 then s.spare.ended.getD 16 else e.val) →
      s.lockNow = [] → ∃ u v, exec (.engineReset e) s = .next v ∧
      u = { s with engines := u.engines, locks := u.locks, lockNow := u.lockNow } ∧ u.eng e = { s.eng e with resetAt := none } ∧
      (∀ k, k ≠ e.val → u.eng k = s.eng k) ∧
      (∀ k, k < 64 → mget u.locks k {} = if (mget s.locks k {}).held = some n
        then { held := none, aband := true } else mget s.locks k {}) ∧
      (e ≠ 16 → v = pulse 0x23D u) ∧
      (e = 16 → v = { (pulse 0x23D u).modEng 16 (fun x => { x with st := .spare }) with spare.ended := none })) ∧
    (∀ (t0 n k m rd : Nat) (q : LockReq), (s.eng e).resetAt = some t0 → t0 + 4 ≤ s.ecNow →
      n = (if e.val = 16 then s.spare.ended.getD 16 else e.val) → s.lockNow = [q] → q.lock = k → k < 64 → q.cyc = t0 + 4 →
      q.rd = some rd → q.num = m → m ≠ n → q.inst ≠ e.val → q.was.held = some n → mget s.locks k {} = q.was →
      ((s.eng q.inst).run.map fun y => y.ec0 + y.ec) = some (q.cyc + 4) →
      ∃ t, exec (.engineReset e) s = .next t ∧ mget t.locks k {} = { held := some m, aband := false } ∧
        WroteReg q.inst rd 1 s t) ∧
    (((s.eng e).resetAt = none ∨ ∃ t0, (s.eng e).resetAt = some t0 ∧ s.ecNow < t0 + 4) →
      exec (.engineReset e) s = .next s) ∧
    (∀ n, s.spare.standFor = some n → n < 16 → (endStandin s).spare = {} ∧
      ((endStandin s).eng 16).st = .spare ∧ ((endStandin s).eng 16).run = none ∧
      ((endStandin s).eng n).evin = (s.eng 16).evin ∧ (endStandin s).mem = s.mem)

/-- CE16 takes over after the reset of the engine it protects: it stands in with that engine's image, checkpoint and
event flags, and its recovery run begins 1592 ec after the fault (R153, R154). Where that checkpoint has a double-bit error it does
not, and stays SPARE (R154). The trace entry of the takeover with PC 0 and ECYC 0 is the model's choice (log entry 81). -/
def Obligations.Takeover : Prop :=
  ∀ (e : Fin 16) (s : State),
    (∀ t0 r, s.spare.taking = some (e.val, t0) → s.spare.taken = some r → (s.eng e).resetAt = none → t0 + 4 ≤ s.ecNow →
      (2 ≤ (s.eng e).ck.err → exec (.takeover e) s = .next { s with spare.taking := none, spare.taken := none }) ∧
      ((s.eng e).ck.err < 2 → ∃ u, exec (.takeover e) s = .next (logFault 2 e 0 0 (traceEntry 16 0 0 e 9 u)) ∧
        u = { s with engines := u.engines, spare := u.spare } ∧
        u.spare = { standFor := some e.val, nextRun := some (t0 + 1592, r.tick, r.ttime, r.period), recovery := true } ∧
        u.eng 16 = { s.eng 16 with st := .standin, ck := (s.eng e).ck, image := (s.eng e).image,
                                   evin := (s.eng e).evin, g := [], estat := 0 } ∧
        ∀ k, k ≠ 16 → u.eng k = s.eng k)) ∧
    ((s.spare.taking = none ∨ s.spare.taken = none ∨ (s.eng e).resetAt.isSome = true ∨
        ∃ n t0, s.spare.taking = some (n, t0) ∧ (n ≠ e.val ∨ s.ecNow < t0 + 4)) →
      exec (.takeover e) s = .next s)

/-- The recovery run and each catch-up run start at ec 8 of the run that is due, with the tick, boundary and period of the
tick they make up for, from the checkpoint that CE16 holds; only the recovery run pulses source 0x23E (R155, R156). Where the
checkpoint has a double-bit error, CE16 faults with code 6 and stands in no longer (R142, R539). -/
def Obligations.DetachedRunsStart : Prop :=
  ∀ (s : State) (c k : Nat) (b : Time) (p : Nat), s.spare.nextRun = some (c, k, b, p) → c + 8 ≤ s.ecNow →
    s.spare.standFor.isSome = true →
    ((s.eng 16).ck.err < 2 →
      ∃ u, (u.eng 16).run = some { tick := k, ttime := b, period := p, ec0 := c, time0 := s.timeOfEc c, det := true,
                                   pc := (s.eng 16).image.base + (s.eng 16).image.entry } ∧
        (u.eng 16).g = (s.eng 16).ck.g ∧ (u.eng 16).estat = (s.eng 16).ck.estat ∧ u.spare.nextRun = none ∧
        (∀ j, j ≠ 16 → u.eng j = s.eng j) ∧
        (s.flag (COIL_CTRL_TRACE (s.rights 16)) = false → u.mem = s.mem ∧ u.regs = s.regs) ∧
        (s.spare.recovery = true → exec .recoveryRun s = .next (pulse 0x23E u) ∧ exec .catchUpRun s = .next s) ∧
        (s.spare.recovery = false → exec .catchUpRun s = .next u ∧ exec .recoveryRun s = .next s)) ∧
    (2 ≤ (s.eng 16).ck.err → ∃ t, exec (if s.spare.recovery = true then .recoveryRun else .catchUpRun) s = .next t ∧
      (t.eng 16).run = none ∧ (t.eng 16).st = .faulted ∧ t.f (COIL_FAULT_CODE 16) = 6 ∧ t.spare.standFor = none)

/-- LOAD begins the check of the image at COIL_LDBASE and discards a pending image; it is refused while a check runs and
at CE16 (R135, R137, R161). The check ends 16 mc after it has read the image at a word per cycle: an image that passes is
pending, one that fails sets LOADFAIL with its code (R135, R136); what passes lies in the engine's bank with its ENTRY
inside it and a budget (R132). START runs the pending image from a fresh checkpoint with ESTAT and registers 0, where no check runs,
no legacy timer holds the engine, its budget fits the period and the engine is IDLE, RUNNING or HELD; of a FAULTED engine that CE16
stands in for it replaces the image that both have; otherwise it is rejected, and the image stays pending (R66, R138, R139, R403).
That LOAD puts back the register's other fields is the model's choice (log entry 21), as is what stands of an engine while its
cluster's domain is off (log entry 85). -/
def Obligations.ProgramsAreCheckedFirst : Prop :=
  (∀ (req : Fin 4) (e : Fin 17) (s : State), s.reaches (COIL_CTRL e) →
    (e ≠ 16 → s.engState e ≠ 0 → (s.eng e).check = none → ∃ t, exec (.load req e) s = .next t ∧
      EngineIs e { s.engHeld e (s.flag (COIL_CTRL_HOLD e)) with
        pendImg := none, check := some (s.f (COIL_LDBASE_BASE e) / 32 * 32, s.mc) } s t) ∧
    ((e = 16 ∨ (s.eng e).check.isSome = true) → ∃ u t,
      EngineIs e (s.engHeld e (s.flag (COIL_CTRL_HOLD e))) s u ∧ exec (.load req e) s = .next t ∧
      Refused req (COIL_CTRL e) u t)) ∧
  (∀ (e : Fin 17) (s s1 : State) (base m code words : Nat) (img : Image), (s.eng e).check = some (base, m) →
    checkImage e base s = (code, img, words, s1) →
    (s.mc < m + words + 16 → exec (.programCheckEnd e) s = .next s) ∧
    (m + words + 16 ≤ s.mc → ∃ t, exec (.programCheckEnd e) s = .next t ∧ (t.eng e).check = none ∧
      t.f (COIL_LDSTAT_CODE e) = code ∧ t.mem = s.mem ∧ (∀ k, k ≠ e.val → t.eng k = s.eng k) ∧
      (code = 0 → (t.eng e).pendImg = some img) ∧
      (code ≠ 0 → (t.eng e).pendImg = (s.eng e).pendImg ∧ t.f (COIL_FLAGS_LOADFAIL e) = 1)) ∧
    (code = 0 → img.base = base ∧ bankBase (e / 4 % 4) ≤ base ∧ base + img.len ≤ bankBase (e / 4 % 4) + 0x40000 ∧
      img.len % 8 = 0 ∧ 40 ≤ img.len ∧ img.entry % 4 = 0 ∧ 32 ≤ img.entry ∧ img.entry < img.len ∧ 0 < img.decl)) ∧
  (∀ (e : Fin 17) (p : Nat) (v t : State) (img : Image), (e.val ≠ 16 ∨ v.spare.standFor = none) → t = applyCmd e 1 p v →
    (v.lgcHolds e = false → (v.eng e).pendImg = some img → (v.eng e).check = none → img.decl + 64 ≤ 4 * p →
      ((v.engState e = 1 ∨ v.engState e = 2 ∨ v.engState e = 3) → t = { v with engines := t.engines } ∧
        (∀ k, k ≠ e.val → t.eng k = v.eng k) ∧
        t.eng e = { v.eng e with
          pendImg := none, st := .running, image := img, g := [], estat := 0, run := none
          held := v.flag (COIL_CTRL_HOLD (v.rights e)), ck := { pbase := img.base, decl := img.decl } }) ∧
      (v.engState e = 4 → v.spare.standFor = some e.val → e.val ≠ 16 → (t.eng e).image = img ∧ (t.eng e).pendImg = none ∧
        (t.eng 16).image = img ∧ (t.eng 16).st = .standin ∧ (t.eng 16).run = none ∧ (t.eng 16).g = [] ∧
        (t.eng 16).ck = { pbase := img.base, decl := img.decl } ∧ t.spare = { v.spare with nextRun := none } ∧
        t.regs = v.regs ∧ t.mem = v.mem)) ∧
    ((v.lgcHolds e = true ∨ (v.eng e).pendImg = none ∨ (v.eng e).check.isSome = true ∨
        (∃ i, (v.eng e).pendImg = some i ∧ 4 * p < i.decl + 64) ∨ v.engState e = 0 ∨ v.engState e = 5 ∨ v.engState e = 6 ∨
        v.engState e = 4 ∧ v.spare.standFor ≠ some e.val) → Rejected e v t))

/-- HOLD holds the engine between ticks, and STEP under HOLD asks for one tick, ignored while HOLD is 0; CE16 refuses both
while it stands in, but for a HOLD that changes nothing while no command is staged (R161, R162). A write of a checkpoint
register changes the checkpoint that the engine resumes from, and is refused while the engine is enabled (R131, R162, R171).
FORCE releases a held lock and marks it ABANDONED, and leaves a free one (R148). COIL_CLR clears the counts it selects, and
an event of the same cycle counts after the clear (R171). STOP ends the program of an engine that is RUNNING, HELD or FAULTED: it is
IDLE without an image, its locks are ABANDONED, and the fault record of a FAULTED one is cleared; in the other states it does nothing
(R138, R140, R147). RESUME gives a FAULTED engine back the program that CE16 has stood in with, when no detached run is due or under
way, and is rejected otherwise (R138, R160, R403). That HOLD applies at once while no ticks are issued is the model's choice (log
entry 85), as are the order of HOLD, STEP and LOAD in one write (log entry 25), the release of a lock by a command that carries no
engine cycle, COIL_CLR.MAXEC in the cycle of a seal, and STOP at CE16 as SPARE (log entry 90). -/
def Obligations.HoldStepAndCheckpoints : Prop :=
  (∀ (req : Fin 4) (e : Fin 17) (s : State), s.reaches (COIL_CTRL e) →
    ((e ≠ 16 ∨ s.spare.standFor = none) →
      (∀ on, ∃ t, exec (.coilHold req e on) s = .next t ∧
        EngineIs e (s.engHeld e on) (s.setF (COIL_CTRL_HOLD e) on.toNat) t) ∧
      ∃ t, exec (.step req e) s = .next t ∧ EngineIs e { s.engHeld e (s.flag (COIL_CTRL_HOLD e)) with
        step := (s.eng e).step || s.flag (COIL_CTRL_HOLD e) } s t) ∧
    (e = 16 → s.spare.standFor.isSome = true →
      (∀ on, s.flag (COIL_CTRL_HOLD e) = on → bitsOf (s.stg (COIL_CTRL e)).toNat 0 2 = 0 →
        ∃ t, exec (.coilHold req e on) s = .next t ∧ ReadsAs s t) ∧
      (∀ on, (s.flag (COIL_CTRL_HOLD e) ≠ on ∨ bitsOf (s.stg (COIL_CTRL e)).toNat 0 2 ≠ 0) → ∃ u t, ReadsAs s u ∧ exec (.coilHold req e on) s = .next t ∧
        Refused req (COIL_CTRL e) u t) ∧
      ∃ u t, ReadsAs s u ∧ exec (.step req e) s = .next t ∧ Refused req (COIL_CTRL e) u t)) ∧
  ((∀ (req : Fin 4) (e : Fin 17) (n : Fin 16) (val : DWord) (s : State),
    s.reaches (if n = 0 then COIL_CKESTAT e else COIL_GREG e n) →
    ((s.engState e = 2 ∨ s.engState e = 6) → ∃ t, exec (.checkpointWrite req e n val) s = .next t ∧
      Refused req (if n = 0 then COIL_CKESTAT e else COIL_GREG e n) s t) ∧
    (s.engState e ≠ 2 → s.engState e ≠ 6 → ∃ t, exec (.checkpointWrite req e n val) s = .next t ∧
      t = { s with engines := t.engines } ∧ (∀ k, k ≠ s.ckOwner e → t.eng k = s.eng k) ∧
      (t.eng (s.ckOwner e)).ck.estat = (if n = 0 then val.toNat % 32 else (s.eng (s.ckOwner e)).ck.estat) ∧
      ∀ i, mget (t.eng (s.ckOwner e)).ck.g i 0 =
        if n ≠ 0 ∧ i = n.val then val else mget (s.eng (s.ckOwner e)).ck.g i 0)) ∧
  (∀ (req : Fin 4) (n : Fin 64) (s : State), s.reaches (COIL_LOCK n) → s.lockReqs n = [] →
    ∃ t, exec (.lockForce req n) s = .next t ∧ t = { s with locks := t.locks, lockNow := t.lockNow } ∧
      ∀ k, mget t.locks k {} = if k = n.val ∧ (mget s.locks k {}).held.isSome = true
        then { held := none, aband := true } else mget s.locks k {}) ∧
  (∀ (req : Fin 4) (e : Fin 17) (val : Word) (s : State), s.reaches (COIL_CLR e) →
    ∃ t, exec (.coilClr req e val) s = .next t ∧ OnlyRegs s t [COIL_MAXEC e, COIL_DROPCNT e] ∧
      t.f (COIL_MAXEC_EC e) = (if val.getLsbD 0 = false then s.f (COIL_MAXEC_EC e)
        else if s.noted (COIL_MAXEC_EC e) = 0 then 0 else s.f (COIL_SEALEC_EC e)) ∧
      t.f (COIL_DROPCNT_REC e) = (if val.getLsbD 1 = true then min (s.noted (COIL_DROPCNT_REC e)) 0xFFFF
        else s.f (COIL_DROPCNT_REC e)) ∧
      t.f (COIL_DROPCNT_TRC e) = (if val.getLsbD 2 = true then min (s.noted (COIL_DROPCNT_TRC e)) 0xFFFF
        else s.f (COIL_DROPCNT_TRC e)))) ∧
  (∀ (e : Fin 16) (p : Nat) (v t : State), t = applyCmd e 2 p v →
    ((v.engState e = 2 ∨ v.engState e = 3 ∨ v.engState e = 4 ∧ v.spare.standFor ≠ some e.val) → v.lockNow = [] →
      t.eng e = { v.eng e with st := .idle, image := {}, ck := {}, run := none, toRun := false, step := false, stepping := false,
                               held := false, g := [], estat := 0, resetAt := none } ∧
      (∀ k, k ≠ e.val → t.eng k = v.eng k) ∧ t.mem = v.mem ∧ t.ports = v.ports ∧
      (∀ k, k < 64 → mget t.locks k {} = if (mget v.locks k {}).held = some e.val then { held := none, aband := true }
        else mget v.locks k {}) ∧
      (v.engState e = 4 → t.f (COIL_FAULT_CODE e) = 0 ∧ t.f (COIL_FAULT_PCW e) = 0 ∧ SameRegs v t [COIL_FAULT e]) ∧
      (v.engState e ≠ 4 → t.regs = v.regs)) ∧
    (v.engState e = 4 → v.spare.standFor = some e.val → (t.eng e).st = .idle ∧ (t.eng e).image = {} ∧
      (t.eng 16).st = .spare ∧ (t.eng 16).run = none ∧ t.spare = {} ∧ t.f (COIL_FAULT_CODE e) = 0 ∧
      t.f (COIL_FAULT_PCW e) = 0) ∧
    ((v.engState e = 0 ∨ v.engState e = 1 ∨ v.engState e = 5 ∨ v.engState e = 6) → t = v)) ∧
  (∀ (e : Fin 16) (p : Nat) (v t : State), t = applyCmd e 3 p v →
    (v.lgcHolds e = false → v.engState e = 4 → v.spare.standFor = some e.val → v.spare.nextRun = none →
      ((v.eng 16).run.map Run.det) ≠ some true → v.on (dCL (e / 4)) = true →
      (t.eng e).st = .running ∧ (t.eng e).ck = (v.eng 16).ck ∧ (t.eng e).image = (v.eng 16).image ∧
      (t.eng e).evin = (v.eng 16).evin ∧ (t.eng e).run = (v.eng e).run ∧ (t.eng 16).st = .spare ∧ (t.eng 16).run = none ∧
      t.spare = {} ∧ t.f (COIL_FAULT_CODE e) = 0 ∧ t.f (COIL_FAULT_PCW e) = 0 ∧ SameRegs v t [COIL_FAULT e]) ∧
    ((v.lgcHolds e = true ∨ v.engState e ≠ 4 ∨ v.spare.standFor ≠ some e.val ∨ v.spare.nextRun.isSome = true ∨
      ((v.eng 16).run.map Run.det) = some true ∨ v.on (dCL (e / 4)) = false) → Rejected e v t)) ∧
  (∀ (e : Fin 17) (p : Nat) (v : State), applyCmd e 0 p v = v ∧
    (e.val = 16 → v.spare.standFor.isSome = true → ∀ c, applyCmd e c p v = v))

/-! ### Coil instructions -/

/-- The one-cycle operations on two registers (R90, R100, R126): for every engine and every choice of registers, also where
a source is the destination, rd takes the result from the values before, g0 stays 0 (R87), and nothing else changes. Shift
counts are the low six bits of rb. Comparisons, minima and maxima are exact on signed and unsigned values (R100). Shifts by
an immediate, and the counts of leading zeros, trailing zeros and ones; a count of zeros of 0 is 64 (R100). -/
def Obligations.AluResults : Prop :=
  (∀ (e : Fin 17) (rd ra rb : Fin 16),
    Computes e (.add e rd ra rb) (.alu .add rd ra rb) rd 1 (fun x => x.r ra + x.r rb) ∧
    Computes e (.sub e rd ra rb) (.alu .sub rd ra rb) rd 1 (fun x => x.r ra - x.r rb) ∧
    Computes e (.and e rd ra rb) (.alu .and rd ra rb) rd 1 (fun x => x.r ra &&& x.r rb) ∧
    Computes e (.or e rd ra rb) (.alu .or rd ra rb) rd 1 (fun x => x.r ra ||| x.r rb) ∧
    Computes e (.xor e rd ra rb) (.alu .xor rd ra rb) rd 1 (fun x => x.r ra ^^^ x.r rb) ∧
    Computes e (.andn e rd ra rb) (.alu .andn rd ra rb) rd 1 (fun x => x.r ra &&& ~~~(x.r rb)) ∧
    Computes e (.shl e rd ra rb) (.alu .shl rd ra rb) rd 1
      (fun x => BitVec.ofNat 64 ((x.r ra).toNat * 2 ^ ((x.r rb).toNat % 64))) ∧
    Computes e (.shr e rd ra rb) (.alu .shr rd ra rb) rd 1
      (fun x => BitVec.ofNat 64 ((x.r ra).toNat / 2 ^ ((x.r rb).toNat % 64))) ∧
    Computes e (.sar e rd ra rb) (.alu .sar rd ra rb) rd 1
      (fun x => BitVec.ofInt 64 ((x.r ra).toInt / 2 ^ ((x.r rb).toNat % 64))) ∧
    Computes e (.ror e rd ra rb) (.alu .ror rd ra rb) rd 1
      (fun x => (x.r ra).rotateRight ((x.r rb).toNat % 64))) ∧
  (∀ (e : Fin 17) (rd ra rb : Fin 16),
    Computes e (.slt e rd ra rb) (.alu .slt rd ra rb) rd 1 (fun x => if (x.r ra).toInt < (x.r rb).toInt then 1 else 0) ∧
    Computes e (.sltu e rd ra rb) (.alu .sltu rd ra rb) rd 1 (fun x => if (x.r ra).toNat < (x.r rb).toNat then 1 else 0) ∧
    Computes e (.minu e rd ra rb) (.alu .minu rd ra rb) rd 1
      (fun x => BitVec.ofNat 64 (min (x.r ra).toNat (x.r rb).toNat)) ∧
    Computes e (.maxu e rd ra rb) (.alu .maxu rd ra rb) rd 1
      (fun x => BitVec.ofNat 64 (max (x.r ra).toNat (x.r rb).toNat)) ∧
    Computes e (.mins e rd ra rb) (.alu .mins rd ra rb) rd 1
      (fun x => BitVec.ofInt 64 (min (x.r ra).toInt (x.r rb).toInt)) ∧
    Computes e (.maxs e rd ra rb) (.alu .maxs rd ra rb) rd 1
      (fun x => BitVec.ofInt 64 (max (x.r ra).toInt (x.r rb).toInt))) ∧
  (∀ (e : Fin 17) (rd ra : Fin 16),
    (∀ sh : Fin 64,
      Computes e (.shli e rd ra sh) (.shi .shli rd ra sh) rd 1 (fun x => BitVec.ofNat 64 ((x.r ra).toNat * 2 ^ sh.val)) ∧
      Computes e (.shri e rd ra sh) (.shi .shri rd ra sh) rd 1 (fun x => BitVec.ofNat 64 ((x.r ra).toNat / 2 ^ sh.val)) ∧
      Computes e (.sari e rd ra sh) (.shi .sari rd ra sh) rd 1 (fun x => BitVec.ofInt 64 ((x.r ra).toInt / 2 ^ sh.val)) ∧
      Computes e (.rori e rd ra sh) (.shi .rori rd ra sh) rd 1 (fun x => (x.r ra).rotateRight sh)) ∧
    Computes e (.clz e rd ra) (.un .clz rd ra) rd 1
      (fun x => if x.r ra = 0 then 64 else BitVec.ofNat 64 (63 - (x.r ra).toNat.log2)) ∧
    Computes e (.ctz e rd ra) (.un .ctz rd ra) rd 1
      (fun x => BitVec.ofNat 64 (((List.range 64).find? fun i => (x.r ra).getLsbD i).getD 64)) ∧
    Computes e (.popc e rd ra) (.un .popc rd ra) rd 1
      (fun x => BitVec.ofNat 64 ((List.range 64).filter fun i => (x.r ra).getLsbD i).length))

/-- Products take the low or the high 64 bits of the exact product, in 3 or 4 cycles (R100, R126). A quotient and a
remainder take 36 cycles; division by 0 gives all ones and the dividend, and sets DIVZ in ESTAT (R101, R123). -/
def Obligations.MultiplyAndDivideResults : Prop :=
  ∀ (e : Fin 17) (rd ra rb : Fin 16),
    Computes e (.mul e rd ra rb) (.alu .mul rd ra rb) rd 3
      (fun x => BitVec.ofNat 64 ((x.r ra).toNat * (x.r rb).toNat)) ∧
    Computes e (.mulhu e rd ra rb) (.alu .mulhu rd ra rb) rd 4
      (fun x => BitVec.ofNat 64 ((x.r ra).toNat * (x.r rb).toNat / 2 ^ 64)) ∧
    Computes e (.mulhs e rd ra rb) (.alu .mulhs rd ra rb) rd 4
      (fun x => BitVec.ofInt 64 ((x.r ra).toInt * (x.r rb).toInt / 2 ^ 64)) ∧
    (∀ (s s1 : State) (r : Run), s.issues e (.alu .divu rd ra rb) r s1 → ∃ t, exec (.divu e rd ra rb) s = .next t ∧
      CoilDone e r 36 (r.pc + 4)
        (if (s1.eng e).r rb = 0 then s1.modEng e (fun x => { x with estat := x.estat ||| 2 }) else s1) t ∧
      WroteReg e rd (if (s1.eng e).r rb = 0 then BitVec.allOnes 64
        else BitVec.ofNat 64 (((s1.eng e).r ra).toNat / ((s1.eng e).r rb).toNat)) s1 t) ∧
    (∀ (s s1 : State) (r : Run), s.issues e (.alu .remu rd ra rb) r s1 → ∃ t, exec (.remu e rd ra rb) s = .next t ∧
      CoilDone e r 36 (r.pc + 4)
        (if (s1.eng e).r rb = 0 then s1.modEng e (fun x => { x with estat := x.estat ||| 2 }) else s1) t ∧
      WroteReg e rd (BitVec.ofNat 64 (((s1.eng e).r ra).toNat % ((s1.eng e).r rb).toNat)) s1 t)

/-- Immediate operations: ADDI, SLTI and SLTIU sign-extend their 18 bits, ANDI, ORI and XORI zero-extend them (R102); CONL
loads a sign-extended 22-bit constant, and CONS shifts rd left by 22 and puts its constant below (R103). -/
def Obligations.ImmediateResults : Prop :=
  ∀ (e : Fin 17) (rd ra : Fin 16) (i : Fin (2 ^ 18)) (k : Fin (2 ^ 22)),
    Computes e (.addi e rd ra i) (.imm .addi rd ra i) rd 1
      (fun x => x.r ra + BitVec.ofInt 64 (if i.val < 2 ^ 17 then (i.val : Int) else (i.val : Int) - 2 ^ 18)) ∧
    Computes e (.andi e rd ra i) (.imm .andi rd ra i) rd 1 (fun x => x.r ra &&& BitVec.ofNat 64 i) ∧
    Computes e (.ori e rd ra i) (.imm .ori rd ra i) rd 1 (fun x => x.r ra ||| BitVec.ofNat 64 i) ∧
    Computes e (.xori e rd ra i) (.imm .xori rd ra i) rd 1 (fun x => x.r ra ^^^ BitVec.ofNat 64 i) ∧
    Computes e (.slti e rd ra i) (.imm .slti rd ra i) rd 1
      (fun x => if (x.r ra).toInt < (if i.val < 2 ^ 17 then (i.val : Int) else (i.val : Int) - 2 ^ 18) then 1 else 0) ∧
    Computes e (.sltiu e rd ra i) (.imm .sltiu rd ra i) rd 1
      (fun x => if (x.r ra).toNat <
        (BitVec.ofInt 64 (if i.val < 2 ^ 17 then (i.val : Int) else (i.val : Int) - 2 ^ 18)).toNat then 1 else 0) ∧
    Computes e (.conl e rd k) (.conl rd k) rd 1
      (fun _ => BitVec.ofInt 64 (if k.val < 2 ^ 21 then (k.val : Int) else (k.val : Int) - 2 ^ 22)) ∧
    Computes e (.cons e rd k) (.cons rd k) rd 1
      (fun x => BitVec.ofNat 64 ((x.r rd).toNat * 2 ^ 22 + k.val))

/-- LD near (R92, R104 to R106): from an address inside the engine's own bank, aligned unless ROT, with no uncorrectable
word, the item's bytes, lowest first, go to rd, sign-extended with SGN; a pair loads rd and rd + 1. It takes 6, 7 or 12
cycles, and no byte changes. Outside the bank it faults with ADDR, and misaligned with ALIGN (R105, R124). A word with a
double-bit error is counted and flagged for its bank, and raises ECC in the cycle in which the data arrives (R106, R124, R349),
but not once the engine has overrun (R129): the model's choice is that data of the cycle in which the overrun is detected still
raises it, that near data arrives 5, 6 or 11 cycles after the issue, and that the trace entry carries the engine cycle of the issue
(log entries 90 and 41). -/
def Obligations.NearLoads : Prop :=
  ∀ (e : Fin 17) (rd ra : Fin 16) (size : Fin 4) (sgn pair rot : Bool) (off : Fin (2 ^ 13)) (s s1 : State) (r : Run)
    (a n : Nat), s.issues e (.ld rd ra size sgn pair rot off) r s1 →
    coilValid (.ld rd ra size sgn pair rot off) = true →
    a = ((s1.eng e).r ra + sext 13 off).toNat → n = accWidth size pair →
    (s1.inNear e a n = true → (rot = true ∨ a % n = 0) → (∀ w ∈ wordsAt (eccSize (s1.nearBank e)) a n, s1.wordErr w < 2) →
      ∃ u t, exec (.ld e rd ra size sgn pair rot off) s = .next t ∧ u.engines = s1.engines ∧ u.mem = s1.mem ∧
        u.ports = s1.ports ∧ u.kln = s1.kln ∧
        CoilDone e r (if rot = true then 12 else if pair = true then 7 else 6) (r.pc + 4) u t ∧
        (pair = false → WroteReg e rd (if sgn = true then (BitVec.ofNat (8 * n) (s1.memNat a n)).signExtend 64
          else BitVec.ofNat 64 (s1.memNat a n)) s1 t) ∧
        (pair = true → ∀ i, (t.eng e).r i = if i = 0 then 0 else if i = rd.val + 1 then BitVec.ofNat 64 (s1.memNat (a + 8) 8)
          else if i = rd.val then BitVec.ofNat 64 (s1.memNat a 8) else (s1.eng e).r i)) ∧
    (s1.inNear e a n = false → ∃ t, exec (.ld e rd ra size sgn pair rot off) s = .next t ∧
      Faulted e 3 (pcOff (s1.eng e) r) (r.ec0 + r.ec) (some r)
        (traceEntry e (pcOff (s1.eng e) r) r.ec 3 8 s1) t) ∧
    (s1.inNear e a n = true → rot = false → a % n ≠ 0 → ∃ t, exec (.ld e rd ra size sgn pair rot off) s = .next t ∧
      Faulted e 2 (pcOff (s1.eng e) r) (r.ec0 + r.ec) (some r)
        (traceEntry e (pcOff (s1.eng e) r) r.ec 2 8 s1) t) ∧
    (∀ d, d = (if rot = true then 11 else if pair = true then 6 else 5) → s1.inNear e a n = true → (rot = true ∨ a % n = 0) →
      (∃ w ∈ wordsAt (eccSize (s1.nearBank e)) a n, s1.wordErr w = 2) →
      ∃ u t, exec (.ld e rd ra size sgn pair rot off) s = .next t ∧
        u = { s1 with banks := u.banks, regs := u.regs, hwNow := u.hwNow, faults := u.faults } ∧
        u.f (bitFld SAG_STATUS_UNC (s1.nearBank e)) = 1 ∧
        (r.ec + d ≤ runLimit (s1.eng e) r + 1 →
          Faulted e 6 (pcOff (s1.eng e) r) (r.ec0 + r.ec + d) (some r) (traceEntry e (pcOff (s1.eng e) r) r.ec 6 8 u) t) ∧
        (runLimit (s1.eng e) r + 1 < r.ec + d →
          CoilDone e r (if rot = true then 12 else if pair = true then 7 else 6) (r.pc + 4) u t ∧ SameG e s1 t))

/-- ST near (R92, R94, R104 to R106, R134): under the same conditions, and outside every protected image, the low bytes of rs
(of rs and rs + 1 for a pair) are stored from the address on, lowest first, and no other byte and no register changes; a word
with a double-bit error that the store covers only in part keeps its bytes, and its error is flagged for the bank, with no further
effect on the engine (R350). A store into a protected image, or outside the bank, faults with ADDR, and a misaligned one
with ALIGN (R105, R124), and they store nothing. The model's choice is that the bytes stand from the issue on, also where an
overrun comes before the store's cycles have passed (log entry 90). -/
def Obligations.NearStores : Prop :=
  ∀ (e : Fin 17) (rs ra : Fin 16) (size : Fin 4) (pair rot : Bool) (off : Fin (2 ^ 13)) (s s1 : State) (r : Run)
    (a n : Nat), s.issues e (.st rs ra size pair rot off) r s1 →
    a = ((s1.eng e).r ra + sext 13 off).toNat → n = accWidth size pair →
    (∀ kept : Nat → Prop, (∀ x, kept x ↔ s1.wordErr (x / 8 * 8) = 2 ∧ (x / 8 * 8 < a ∨ a + n < x / 8 * 8 + 8)) →
      s1.inNear e a n = true → s1.guardedRange a n = false → (rot = true ∨ a % n = 0) →
      ∃ u t, exec (.st e rs ra size pair rot off) s = .next t ∧ u.engines = s1.engines ∧ u.ports = s1.ports ∧
        u.kln = s1.kln ∧ CoilDone e r (if rot = true then 12 else if pair = true then 7 else 6) (r.pc + 4) u t ∧
        SameG e s1 t ∧
        (∀ x, a ≤ x → x < a + n → ¬kept x → t.byte x = (storeBytes (s1.eng e) rs size pair).getD (x - a) 0) ∧
        (∀ x, x < a ∨ a + n ≤ x ∨ kept x → t.byte x = s1.byte x) ∧
        ((∃ x, a ≤ x ∧ x < a + n ∧ kept x) → t.f (bitFld SAG_STATUS_UNC (s1.nearBank e)) = 1)) ∧
    (s1.inNear e a n = true → s1.guardedRange a n = false → rot = false → a % n ≠ 0 →
      ∃ t, exec (.st e rs ra size pair rot off) s = .next t ∧
        Faulted e 2 (pcOff (s1.eng e) r) (r.ec0 + r.ec) (some r) (traceEntry e (pcOff (s1.eng e) r) r.ec 2 8 s1) t) ∧
    ((s1.inNear e a n = false ∨ s1.guardedRange a n = true) → ∃ t, exec (.st e rs ra size pair rot off) s = .next t ∧
      Faulted e 3 (pcOff (s1.eng e) r) (r.ec0 + r.ec) (some r)
        (traceEntry e (pcOff (s1.eng e) r) r.ec 3 8 s1) t)

/-- LDF and STF issue a far request with its window of 4 × LIM cycles and wait for it: no register and no byte changes yet
(R108, R109, R364). An access with a byte that no far access of its kind reaches, of a register in other than 4 or 8 bytes, or
that stores into a protected image, faults with ADDR, code 3; one that it may reach but that is misaligned faults with
ALIGN, code 2 (R92, R105, R110, R124). -/
def Obligations.FarAccessesAreRequested : Prop :=
  ∀ (e : Fin 17) (rg ra : Fin 16) (size : Fin 4) (sgn pair store : Bool) (lim : Fin 64) (off : Fin 256) (s s1 : State)
    (r : Run) (a : Nat) (i : Instr) (c : Coil),
    (store = true ∧ sgn = false ∧ i = .stf e rg ra size pair lim off ∧ c = .stf rg ra size pair lim off ∨
      store = false ∧ i = .ldf e rg ra size sgn pair lim off ∧ c = .ldf rg ra size sgn pair lim off) →
    s.issues e c r s1 → a = ((s1.eng e).r ra + BitVec.ofNat 64 (8 * off)).toNat →
    ∀ reach : Prop, (reach ↔ (∀ k, k < accWidth size pair → farByte store (a + k) = true) ∧
      (0x80000000 ≤ a → pair = false ∧ 2 ≤ size.val) ∧
      (store = true → a < 0x80000000 → s1.guardedRange a (accWidth size pair) = false)) →
    (reach → a % accWidth size pair = 0 → ∃ (w : Run) (u : State), u.eng e = { s1.eng e with run := some w } ∧
      w = { r with issued := true, far := some ⟨store, rg, size, sgn, pair, a, r.ec0 + r.ec, 4 * lim⟩ } ∧
      u = { s1 with engines := u.engines } ∧ (∀ k, k ≠ e.val → u.eng k = s1.eng k) ∧
      (0x80000000 ≤ a → exec i s = .next u) ∧
      (a < 0x80000000 → ∃ b, bankOf a = some b ∧ exec i s = .next (postReq b
        { r := 1 + u.rights e / 4 % 4, src := u.rights e, stamp := r.ec0 + r.ec + 1,
          last := some (r.ec0 + r.ec + 4 * lim - 1), use := .far e } u))) ∧
    (¬reach → ∃ t, exec i s = .next t ∧
      Faulted e 3 (pcOff (s1.eng e) r) (r.ec0 + r.ec) (some r) (traceEntry e (pcOff (s1.eng e) r) r.ec 3 8 s1) t) ∧
    (reach → a % accWidth size pair ≠ 0 → ∃ t, exec i s = .next t ∧
      Faulted e 2 (pcOff (s1.eng e) r) (r.ec0 + r.ec) (some r) (traceEntry e (pcOff (s1.eng e) r) r.ec 2 8 s1) t)

/-- A granted far access is performed and completes n cycles after its grant, n being the command's (R109, R110). At a register,
granted g cycles after the issue inside the window, a load of 4 or 8 bytes writes the register's value, all ones where its block does
not answer, and sign-extends with SGN (R105, R379), and a store is a register write of requester 2. At a bank, whose arbiter has fixed
the grant (R364), a load writes the item or the pair, a double-bit error is flagged and raises ECC unless the engine has
overrun (R124, R129, R349), and a store stores its bytes but those of a partly covered word with a double-bit error (R350) and of a
learning tracker's tooth table (R219). Each is traced, and before its grant, or with none waiting, the commands change nothing.
A window that passes without a grant ends the access: it is withdrawn, FTO is set in ESTAT, a load writes 0, and the
engine goes on at the end of the window (R109, R123). The model's choices: n is the command's operand (log entry 36), a register is
granted at any g inside its window (entry 38), the grant and the withdrawal take effect when their commands come (entry 37), and late
bad data is judged by the cycle of overrun (entry 90). -/
def Obligations.FarAccessesEnd : Prop :=
  ∀ (e : Fin 17) (s : State),
    (((s.eng e).run = none ∨ ∃ r, (s.eng e).run = some r ∧ r.far = none) →
      (∀ g n, exec (.farAccessGrant e g n) s = .next s) ∧ exec (.farAccessWithdraw e) s = .next s) ∧
    (∀ (r : Run) (f : Far) (g : Fin 252) (n : Fin 25) (off : Nat) (tr : State), (s.eng e).run = some r → r.far = some f →
      (f.size = 2 ∨ f.size = 3) → f.pair = false → f.addr = 0x80000000 + off →
      tr = traceEntry e (pcOff (s.eng e) r) (r.ec + g + n) g 5 s →
      ((f.win ≤ g ∨ s.ecNow < f.c0 + g) → exec (.farAccessGrant e g n) s = .next s) ∧
      (g.val < f.win → f.c0 + g ≤ s.ecNow →
        (f.store = false → ∃ t, exec (.farAccessGrant e g n) s = .next t ∧
          CoilDone e { r with far := none } (g + n) (r.pc + 4) tr t ∧
          (f.size = 2 → ∀ v : Word, v = (if s.readable off = true then s.live off else BitVec.allOnes 32) →
            WroteReg e f.reg (if f.sgn = true then v.signExtend 64 else v.setWidth 64) s t) ∧
          (f.size = 3 → WroteReg e f.reg (if s.readable off = true then s.live64 off else BitVec.allOnes 64) s t)) ∧
        (f.store = true → ∀ w, w = (if f.size = 2 then regWrite 2 off (((s.eng e).r f.reg).setWidth 32) tr
            else regWrite64 2 off ((s.eng e).r f.reg) tr) →
          (∀ x, (w.eng e).run = some x → x.far = some f → ∃ t, exec (.farAccessGrant e g n) s = .next t ∧
            CoilDone e { x with far := none } (g + n) (x.pc + 4) w t ∧ SameG e w t) ∧
          ((∀ x, (w.eng e).run = some x → x.far ≠ some f) → exec (.farAccessGrant e g n) s = .next w)))) ∧
    (∀ (r : Run) (f : Far) (g : Fin 252) (n : Fin 25), (s.eng e).run = some r → r.far = some f → f.addr < 0x80000000 →
      (s.servedAt (.far e) = none → exec (.farAccessGrant e g n) s = .next s) ∧
      (∀ (b : Nat) (q : BankReq) (c d w : Nat), s.servedAt (.far e) = some b →
        (s.bank b).served.find? (fun q => q.use == .far e) = some q → q.first = some c → d = c - f.c0 →
        w = accWidth f.size f.pair → ∃ u t, exec (.farAccessGrant e g n) s = .next t ∧ u.engines = s.engines ∧
          u = { s with banks := u.banks, mem := u.mem, upset := u.upset, regs := u.regs, hwNow := u.hwNow, faults := u.faults } ∧
          (f.store = false → u.mem = s.mem ∧
            ((∀ x ∈ wordsAt (eccSize b) f.addr w, s.wordErr x < 2) →
              CoilDone e { r with far := none } (d + n) (r.pc + 4)
                (traceEntry e (pcOff (s.eng e) r) (r.ec + d + n) d 5 u) t ∧
              (f.pair = false → WroteReg e f.reg (if f.sgn = true then (BitVec.ofNat (8 * w) (s.memNat f.addr w)).signExtend 64
                else BitVec.ofNat 64 (s.memNat f.addr w)) s t) ∧
              (f.pair = true → ∀ i, (t.eng e).r i = if i = 0 then 0
                else if i = f.reg + 1 then BitVec.ofNat 64 (s.memNat (f.addr + 8) 8)
                else if i = f.reg then BitVec.ofNat 64 (s.memNat f.addr 8) else (s.eng e).r i)) ∧
            ((∃ x ∈ wordsAt (eccSize b) f.addr w, s.wordErr x = 2) → u.f (bitFld SAG_STATUS_UNC b) = 1 ∧
              (r.ec + d + n ≤ runLimit (s.eng e) r + 1 → Faulted e 6 (pcOff (s.eng e) r) (r.ec0 + r.ec + d + n) (some r)
                (traceEntry e (pcOff (s.eng e) r) r.ec 6 8 u) t) ∧
              (runLimit (s.eng e) r + 1 < r.ec + d + n →
                CoilDone e { r with far := none } (d + n) (r.pc + 4) u t ∧ SameG e s t))) ∧
          (f.store = true → ∃ v, v = { u with engines := v.engines } ∧ CoilDone e { r with far := none } (d + n) (r.pc + 4) v t ∧ SameG e s t ∧
            v.engines = (traceEntry e (pcOff (s.eng e) r) (r.ec + d + n) d 5 s).engines ∧
            ∀ kept : Nat → Prop, (∀ x, kept x ↔ s.ttLocked x 1 = true ∨ s.wordErr (x / eccSize b * eccSize b) = 2 ∧
              ∃ y, y / eccSize b = x / eccSize b ∧ (y < f.addr ∨ f.addr + w ≤ y ∨ s.ttLocked y 1 = true)) →
              (∀ x, f.addr ≤ x → x < f.addr + w → ¬kept x →
                t.byte x = (storeBytes (s.eng e) f.reg f.size f.pair).getD (x - f.addr) 0) ∧
              (∀ x, x < f.addr ∨ f.addr + w ≤ x ∨ kept x → t.byte x = s.byte x)))) ∧
    (∀ (r : Run) (f : Far), (s.eng e).run = some r → r.far = some f → f.c0 + f.win ≤ s.ecNow →
      s.servedAt (.far e) = none → ∃ u t,
      exec (.farAccessWithdraw e) s = .next t ∧ u.engines = s.engines ∧ u.mem = s.mem ∧
        (∀ b, ∀ q ∈ (u.bank b).pend, b < 9 → q.use ≠ .far e) ∧
        CoilDone e { r with far := none } f.win (r.pc + 4)
          ((traceEntry e (pcOff (s.eng e) r) (r.ec + f.win) 0xFF 5 u).modEng e
            fun x => { x with estat := x.estat ||| 1 }) t ∧
        ∀ i, (t.eng e).r i = if f.store = false ∧ (i = f.reg ∨ f.pair = true ∧ i = f.reg + 1) then 0 else (s.eng e).r i)

/-- A taken branch goes to the word after it plus its offset in words and is traced; one that is not taken goes on (R111,
R164). Branches compare signed or unsigned as their names say, and take 2 cycles either way (R126). No
register changes. CALL pushes the next address and goes to its word of the image, RET comes back to it and drops the loops
entered since; with four return addresses, or with none, they fault with STACK (R112, R124). LOOP runs its body min(ra, MAX)
times, skips it for 0, and faults with STACK when four loops are open or the body reaches beyond the innermost loop of the
same depth (R113). For every instruction: a PC outside the image faults with PCRANGE (R89), a fetched word with a double-bit error with
ECC and its records (R349), and a word that is no instruction with ILLEGAL (R97, R124). The model's choice is that the command of
another instruction than the word at the PC, or of an engine that cannot issue, changes nothing (log entry 3). -/
def Obligations.ControlFlow : Prop :=
  (∀ (i : Instr) (e : Fin 17) (c : Coil) (s : State) (m : Image), i.coil = some (e, c) → m = (s.eng e).image →
    (s.canIssue e = none → exec i s = .next s) ∧
    (∀ (r : Run) (inside : Prop), s.canIssue e = some r → (inside ↔ m.base ≤ r.pc ∧ r.pc + 4 ≤ m.base + m.len) →
      (∀ (d : Coil) (s1 : State), s.issues e d r s1 → d ≠ c → exec i s = .next s) ∧
      (¬inside → ∃ t, exec i s = .next t ∧
        Faulted e 5 (pcOff (s.eng e) r) (r.ec0 + r.ec) (some r) (traceEntry e (pcOff (s.eng e) r) r.ec 5 8 s) t) ∧
      (inside → (∃ w ∈ wordsAt 8 r.pc 4, s.wordErr w = 2) → ∃ u t, exec i s = .next t ∧
        u = { s with regs := u.regs, hwNow := u.hwNow, faults := u.faults } ∧ u.f (bitFld SAG_STATUS_UNC (s.nearBank e)) = 1 ∧
        Faulted e 6 (pcOff (s.eng e) r) (r.ec0 + r.ec) (some r) (traceEntry e (pcOff (s.eng e) r) r.ec 6 8 u) t) ∧
      (inside → (∀ w ∈ wordsAt 8 r.pc 4, s.wordErr w < 2) → coilDecode (s.memNat r.pc 4) = none → ∃ u t, exec i s = .next t ∧
        u = { s with regs := u.regs, hwNow := u.hwNow } ∧
        Faulted e 1 (pcOff (s.eng e) r) (r.ec0 + r.ec) (some r) (traceEntry e (pcOff (s.eng e) r) r.ec 1 8 u) t))) ∧
  (∀ (e : Fin 17) (ra rb : Fin 16) (off : Fin (2 ^ 18)) (j : Fin (2 ^ 26)) (s s1 : State) (r : Run),
    (∀ (i : Instr) (op : BrOp) (taken : Bool),
      ((i, op, taken) ∈ [(.beq e ra rb off, .beq, decide ((s1.eng e).r ra = (s1.eng e).r rb)),
        (.bne e ra rb off, .bne, decide ((s1.eng e).r ra ≠ (s1.eng e).r rb)),
        (.blt e ra rb off, .blt, decide (((s1.eng e).r ra).toInt < ((s1.eng e).r rb).toInt)),
        (.bge e ra rb off, .bge, decide (((s1.eng e).r rb).toInt ≤ ((s1.eng e).r ra).toInt)),
        (.bltu e ra rb off, .bltu, decide (((s1.eng e).r ra).toNat < ((s1.eng e).r rb).toNat)),
        (.bgeu e ra rb off, .bgeu, decide (((s1.eng e).r rb).toNat ≤ ((s1.eng e).r ra).toNat))]) →
      s.issues e (.br op ra rb off) r s1 → ∃ t, exec i s = .next t ∧ SameG e s1 t ∧
        (taken = true → CoilDone e r 2 (r.pc + 4 + 4 * off.val) (traceEntry e (pcOff (s1.eng e) r) r.ec 0 2 s1) t) ∧
        (taken = false → CoilDone e r 2 (r.pc + 4) s1 t)) ∧
    (s.issues e (.jmp j) r s1 → ∃ t, exec (.jmp e j) s = .next t ∧ SameG e s1 t ∧
      CoilDone e r 2 (r.pc + 4 + 4 * j.val) (traceEntry e (pcOff (s1.eng e) r) r.ec 0 2 s1) t)) ∧
  (∀ (e : Fin 17) (s s1 : State) (r : Run),
    (∀ j : Fin (2 ^ 26), s.issues e (.call j) r s1 →
      (r.calls.length < 4 → ∃ t, exec (.call e j) s = .next t ∧ SameG e s1 t ∧
        CoilDone e { r with calls := (r.pc + 4) :: r.calls } 3 ((s1.eng e).image.base + 4 * j.val)
          (traceEntry e (pcOff (s1.eng e) r) r.ec (r.calls.length + 1) 3 s1) t) ∧
      (4 ≤ r.calls.length → ∃ t, exec (.call e j) s = .next t ∧
        Faulted e 4 (pcOff (s1.eng e) r) (r.ec0 + r.ec) (some r) (traceEntry e (pcOff (s1.eng e) r) r.ec 4 8 s1) t)) ∧
    (s.issues e .ret r s1 →
      (∀ a l, r.calls = a :: l → ∃ t, exec (.ret e) s = .next t ∧ SameG e s1 t ∧
        CoilDone e { r with calls := l, loops := r.loops.filter fun x => x.depth != r.calls.length } 3 a
          (traceEntry e (pcOff (s1.eng e) r) r.ec l.length 4 s1) t) ∧
      (r.calls = [] → ∃ t, exec (.ret e) s = .next t ∧
        Faulted e 4 (pcOff (s1.eng e) r) (r.ec0 + r.ec) (some r) (traceEntry e (pcOff (s1.eng e) r) r.ec 4 8 s1) t)) ∧
    (∀ (ra : Fin 16) (mx : Fin (2 ^ 12)) (len : Fin (2 ^ 10)) (n stop : Nat), s.issues e (.loop ra mx len) r s1 →
      n = min ((s1.eng e).r ra).toNat mx → stop = r.pc + 4 + 4 * len.val →
      (r.loops.length < 4 → (∀ x, (r.loops.find? fun l => l.depth == r.calls.length) = some x → stop ≤ x.stop) →
        ∃ t, exec (.loop e ra mx len) s = .next t ∧ SameG e s1 t ∧
          (n = 0 → CoilDone e r 2 stop s1 t) ∧
          (n ≠ 0 → CoilDone e { r with loops := ⟨r.pc + 4, stop, n, 0, r.calls.length⟩ :: r.loops } 2 (r.pc + 4) s1 t)) ∧
      ((4 ≤ r.loops.length ∨ ∃ x, (r.loops.find? fun l => l.depth == r.calls.length) = some x ∧ x.stop < stop) →
        ∃ t, exec (.loop e ra mx len) s = .next t ∧
          Faulted e 4 (pcOff (s1.eng e) r) (r.ec0 + r.ec) (some r) (traceEntry e (pcOff (s1.eng e) r) r.ec 4 8 s1) t)))

/-- ACT and ACTP add the record of their two registers to the batch, ACTP with its own port and code, in 2 cycles and with a
trace entry; a batch of 64 records sets BFULL, and a port above 95 sets BADPORT, and the record is dropped (R116, R123). -/
def Obligations.ActionsJoinTheBatch : Prop :=
  ∀ (e : Fin 17) (rt rh : Fin 16) (s s1 : State) (r : Run) (i : Instr) (c : Coil) (a : Action),
    (i = .act e rt rh ∧ c = .act rt rh ∧ a = mkAction ((s1.eng e).r rt) ((s1.eng e).r rh) ∨
      ∃ (port : Fin 128) (code : Fin 32), i = .actp e rt rh port code ∧ c = .actp rt rh port code ∧
        a = { mkAction ((s1.eng e).r rt) ((s1.eng e).r rh) with port := port, code := code }) →
    s.issues e c r s1 → ∃ t, exec i s = .next t ∧ SameG e s1 t ∧
      (r.batch.length < 64 → a.port ≤ 95 → CoilDone e { r with batch := r.batch ++ [a] } 2 (r.pc + 4)
        (traceEntry e (pcOff (s1.eng e) r) r.ec (r.batch.length + 1) 6 s1) t) ∧
      (64 ≤ r.batch.length → CoilDone e r 2 (r.pc + 4) (s1.modEng e fun x => { x with estat := x.estat ||| 4 }) t) ∧
      (r.batch.length < 64 → 95 < a.port →
        CoilDone e r 2 (r.pc + 4) (s1.modEng e fun x => { x with estat := x.estat ||| 8 }) t)

/-- SEAL ends the run (R118, R143, R152): the checkpoint takes the registers and ESTAT as they stand, the seal's tick and
engine cycle are shown, and the largest one is kept. With DRY each record of the batch, in order, makes the next 16 bytes of the
dry region, its time and then its other fields, and waits to be written (R163, R173); else the records are handed on one after
another. A record for a port of another owner is discarded and counted, one for an LVDS port enters its path, one for a field port
the send queue of its owner, and where 128 records wait there or the domain is off it is dropped and counted (R28, R30, R144). The
model's choices: a stand-in's seal updates SEALTICK, SEALEC and MAXEC of its own instance (log entry 81), and a dry seal counts
nothing against owners and writes bit 127 as 0 (log entry 83). -/
def Obligations.SealHandsOnTheBatch : Prop :=
  (∀ (e : Fin 17) (s s1 : State) (r : Run), s.issues e .seal r s1 → ∃ t, exec (.seal e) s = .next t ∧
    ∃ u v w : State, u = traceEntry e (pcOff (s1.eng e) r) r.ec r.batch.length 7 s1 ∧
    v = { u with engines := v.engines, regs := v.regs, hwNow := v.hwNow } ∧ (∀ k, k ≠ e.val → v.eng k = u.eng k) ∧
    v.eng e = { u.eng e with
      run := none, stepping := false
      ck := { g := (s1.eng e).g, estat := (s1.eng e).estat, pbase := (s1.eng e).image.base
              decl := (s1.eng e).image.decl, tick := r.tick, ec := r.ec } } ∧
    v.reg64 (COIL_SEALTICK e) = r.tick % 2 ^ 64 ∧ v.f (COIL_SEALEC_EC e) = r.ec % 2 ^ 32 ∧
    (r.ec < 2 ^ 32 → v.f (COIL_MAXEC_EC e) = max (u.f (COIL_MAXEC_EC e)) r.ec) ∧
    SameRegs u v [COIL_SEALTICK e, COIL_SEALTICK e + 4, COIL_SEALEC e, COIL_MAXEC e] ∧
    (s1.flag (COIL_CTRL_DRY (s1.rights e)) = false →
      w = r.batch.foldl (fun x a => handOn e (s1.rights e) ((r.ec0 + r.ec + 11) / 4) (r.time0 + fc (64 * r.ec)) a x) v) ∧
    (s1.flag (COIL_CTRL_DRY (s1.rights e)) = true → w = { v with engines := w.engines, banks := w.banks } ∧
      (∀ k, k ≠ e.val → w.eng k = v.eng k) ∧ w.eng e = { v.eng e with dry := (w.eng e).dry } ∧
      (w.eng e).dry.length = (v.eng e).dry.length + r.batch.length ∧
      (∀ k, k < (v.eng e).dry.length → (w.eng e).dry[k]? = (v.eng e).dry[k]?) ∧
      ((w.eng e).dry ≠ [] → ∃ q ∈ (w.bank 4).pend, q.r = 9 ∧ q.src = e)) ∧
    (s1.flag (COIL_CTRL_DRY (s1.rights e)) = true → ∀ (k : Nat) (a : Action), r.batch[k]? = some a →
      (w.eng e).dry[(v.eng e).dry.length + k]? = some (v.f (COIL_DRYBASE_BASE (s1.rights e)) + 16 * k,
        leBytes 8 a.time.toNat ++ leBytes 8 (a.port + a.code * 2 ^ 7 + a.tag * 2 ^ 12 + a.param * 2 ^ 24 +
          a.mark.toNat * 2 ^ 56 + a.evt.toNat * 2 ^ 57))) ∧
    t = { w with spare := t.spare } ∧ (r.det = false → t = w)) ∧
  (∀ (e n ready : Nat) (tm : Time) (a : Action) (s t : State) (b : Action), t = handOn e n ready tm a s →
    b = { a with trk := false, late := lateSeal tm a, owner := n } →
    (s.ownerOf a.port ≠ n → OnlyNoted s t [GLB_OWNERR] ∧
      t.f GLB_OWNERR_COUNT = min (s.f GLB_OWNERR_COUNT + 1) 0xFFFF ∧ t.f GLB_OWNERR_SRC_TYPE = 1 ∧
      t.f GLB_OWNERR_SRC_INDEX = n % 32 ∧ t.f GLB_OWNERR_PORT = a.port % 128) ∧
    (s.ownerOf a.port = n → s.on (portDom a.port) = true →
      (64 ≤ a.port → t = { s with transit := s.transit ++ [⟨b, ready⟩] }) ∧
      (a.port < 64 → (s.sendq.filter fun x => x.act.owner == n).length < 128 →
        t = { s with sendq := s.sendq ++ [⟨b, ready⟩] })) ∧
    (s.ownerOf a.port = n →
      (s.on (portDom a.port) = false ∨ a.port < 64 ∧ 128 ≤ (s.sendq.filter fun x => x.act.owner == n).length →
        OnlyNoted s t [COIL_DROPCNT e, COIL_FLAGS e] ∧ t.f (COIL_FLAGS_DROP e) = 1 ∧
        t.f (COIL_DROPCNT_REC e) = min (s.f (COIL_DROPCNT_REC e) + 1) 0xFFFF)))

/-- TRYL answers 0 for a free lock that it now holds, 1 for one that had been abandoned, 2 while another engine holds it, 3
while it holds it itself; UNL frees a lock that it holds, and otherwise sets LOCKERR (R119, R120, R123). Of two engines that
try a free lock in one engine cycle, the one with the lower number gets it, whichever command comes first; and a lock that one engine
tries in the cycle in which its holder releases it goes to the engine that tries it (R120). Lock and engine numbers are those of the
engine that CE16 stands in for (R161). -/
def Obligations.Locks : Prop :=
  ∀ (e : Fin 17) (rd ra : Fin 16) (lock : Fin 64) (s s1 : State) (r : Run) (k n c : Nat) (l : Lock),
    k = (((s1.eng e).r ra).toNat + lock.val) % 64 → n = s1.rights e → n < 17 → l = mget s1.locks k {} → c = r.ec0 + r.ec →
    (s.issues e (.tryl rd ra lock) r s1 → s1.lockReqs k = [] → ∃ u t, exec (.tryl e rd ra lock) s = .next t ∧
      CoilDone e r 4 (r.pc + 4) u t ∧ u = { s1 with locks := u.locks, lockNow := u.lockNow } ∧
      (∀ j, j ≠ k → mget u.locks j {} = mget s1.locks j {}) ∧
      mget u.locks k {} = (if l.held = none then { held := some n, aband := false } else l) ∧
      WroteReg e rd (match l.held with
        | none => if l.aband = true then 1 else 0
        | some m => if m = n then 3 else 2) s1 t) ∧
    (s.issues e (.tryl rd ra lock) r s1 → ∀ (q : LockReq) (m : Nat), s1.lockReqs k = [q] → q.cyc = c → q.rd.isSome = true →
      q.num = m → m < 17 → m ≠ n → q.inst ≠ e.val → q.was.held = none → q.was.aband = false →
      ∃ t, exec (.tryl e rd ra lock) s = .next t ∧ mget t.locks k {} = { held := some (min m n), aband := false } ∧
        WroteReg e rd (if n < m then 0 else 2) s1 t ∧
        ∀ x, q.rd = some x → ((s1.eng q.inst).run.map fun y => y.ec0 + y.ec) = some (c + 4) →
          WroteReg q.inst x (if n < m then 2 else 0) s1 t) ∧
    (s.issues e (.unl ra lock) r s1 → s1.lockReqs k = [] → ∃ u t, exec (.unl e ra lock) s = .next t ∧
      CoilDone e r 2 (r.pc + 4) u t ∧ SameG e s1 t ∧
      (l.held = some n → u = { s1 with locks := u.locks, lockNow := u.lockNow } ∧
        mget u.locks k {} = { l with held := none } ∧ ∀ j, j ≠ k → mget u.locks j {} = mget s1.locks j {}) ∧
      (l.held ≠ some n → u = s1.modEng e fun x => { x with estat := x.estat ||| 16 })) ∧
    (s.issues e (.unl ra lock) r s1 → ∀ (q : LockReq) (m : Nat), s1.lockReqs k = [q] → q.cyc = c → q.rd.isSome = true →
      q.num = m → m < 17 → m ≠ n → q.inst ≠ e.val → q.was.held = some n → ∃ t, exec (.unl e ra lock) s = .next t ∧
        SameG e s1 t ∧ mget t.locks k {} = { held := some m, aband := false } ∧
        ∀ x, q.rd = some x → ((s1.eng q.inst).run.map fun y => y.ec0 + y.ec) = some (c + 4) →
          WroteReg q.inst x (if q.was.aband = true then 1 else 0) s1 t)

/-- EVO pulses the event outputs of its mask in the Mast cycle after its own; EVC clears the event flags of its mask but
those whose pulse comes in the same engine cycle, which is the first of the Mast cycle (DEDUCED by the model from R15 and R293, log
entry 35); MFS reads the special registers: engine number and stand-in bit, tick, its time and period, the time and number of the
engine cycle, deadline, DECL, batch length, ESTAT, EVIN, loop index, image base and call depth (R95, R96, R115); MTS clears the
ESTAT bits that are 1 in ra (R121 to R123). Each takes 1 cycle (R126). -/
def Obligations.EventsAndSpecialRegisters : Prop :=
  ∀ (e : Fin 17) (s s1 : State) (r : Run),
    (∀ mask : Fin 256, s.issues e (.evo mask) r s1 → ∃ u t, exec (.evo e mask) s = .next t ∧
      CoilDone e r 1 (r.pc + 4) u t ∧ SameG e s1 t ∧ u = { s1 with rig := u.rig, regs := u.regs, hwNow := u.hwNow } ∧
      SameRegs s1 u [RIG_STATUS, RIG_DLYINFO] ∧
      (s1.rights e < 16 → ∀ k, k < 8 → mask.val.testBit k = true →
        (4 * s1.mc ≤ r.ec0 + r.ec → (0x140 + 8 * s1.rights e + k, s1.mc + 1) ∈ u.rig.sched) ∧
        (r.ec0 + r.ec < 4 * s1.mc → mget u.rig.pulsed (0x140 + 8 * s1.rights e + k) 0 = s1.mc + 1))) ∧
    (∀ mask : Fin 256, s.issues e (.evc mask) r s1 → ∃ u t, exec (.evc e mask) s = .next t ∧
      CoilDone e r 1 (r.pc + 4) u t ∧ SameG e s1 t ∧ u = s1.modEng e (fun x => { x with evin := (u.eng e).evin }) ∧
      ∀ k, k < 8 → (u.eng e).evin.testBit k = ((s1.eng e).evin.testBit k && !(mask.val.testBit k &&
        !(decide ((r.ec0 + r.ec) % 4 = 0) && mget s1.hwNow (evinKey e k) 0 != 0)))) ∧
    (∀ (rd : Fin 16) (sr : Fin 256), s.issues e (.mfs rd sr) r s1 → ∃ t, exec (.mfs e rd sr) s = .next t ∧
      CoilDone e r 1 (r.pc + 4) s1 t ∧ WroteReg e rd (sregVal s1 e (s1.eng e) r sr) s1 t ∧
      sregVal s1 e (s1.eng e) r sr = (match sr.val with
        | 0 => BitVec.ofNat 64 (s1.rights e % 32 + if e = 16 then 256 else 0)
        | 1 => BitVec.ofNat 64 r.tick
        | 2 => r.ttime
        | 3 => BitVec.ofNat 64 r.period
        | 4 => r.time0 + fc (64 * r.ec)
        | 5 => BitVec.ofNat 64 r.ec
        | 6 => BitVec.ofNat 64 (4 * r.period - 64)
        | 7 => BitVec.ofNat 64 (s1.eng e).image.decl
        | 8 => BitVec.ofNat 64 r.batch.length
        | 9 => BitVec.ofNat 64 (s1.eng e).estat
        | 10 => BitVec.ofNat 64 (s1.eng e).evin
        | 11 => BitVec.ofNat 64 ((r.loops.head?.map (·.index)).getD 0)
        | 12 => BitVec.ofNat 64 (s1.eng e).image.base
        | 13 => BitVec.ofNat 64 r.calls.length
        | _ => 0)) ∧
    (∀ (ra : Fin 16) (sr : Fin 256), s.issues e (.mts ra sr) r s1 → ∃ u t, exec (.mts e ra sr) s = .next t ∧
      CoilDone e r 1 (r.pc + 4) u t ∧ SameG e s1 t ∧ u = s1.modEng e (fun x => { x with estat := (u.eng e).estat }) ∧
      ∀ k, k < 5 → (u.eng e).estat.testBit k = ((s1.eng e).estat.testBit k && !((s1.eng e).r ra).getLsbD k))

/-! ### Ports -/

/-- The action codes (R174) as their commands execute the head entry of the queue (R173, R176): SET, CLR, TOG, PULSE, HIZ and
DRIVE act on the output and driver state and cancel a pending pulse end, and PULSE sets its own (R178); CLOAD, CRLD, CCMP,
CSTART, CSTOP and CUPPER act on the counter (R191 to R194); CSNAP records its count (R183); CAPON and CAPOFF open and close
the capture gate (R185); NOP does nothing. The model's choice is that the edge bit of a MARK record is the net output that the
action leaves, held or not (log entry 91). -/
def Obligations.ActionsExecute : Prop :=
  ∀ p : Fin 96,
    Executes p (.nop p) 0 (fun _ u v => v = u) ∧
    Executes p (.set p) 1 (fun e u v => TakesOutput p e.at_ true (u.port p).net.2 none u v) ∧
    Executes p (.clr p) 2 (fun e u v => TakesOutput p e.at_ false (u.port p).net.2 none u v) ∧
    Executes p (.tog p) 3 (fun e u v => TakesOutput p e.at_ (!(u.port p).net.1) (u.port p).net.2 none u v) ∧
    Executes p (.pulse p) 4 (fun e u v =>
      TakesOutput p e.at_ true (u.port p).net.2 (some (e.at_ + fc (e.act.param % 2 ^ 32))) u v) ∧
    Executes p (.hiz p) 6 (fun e u v => TakesOutput p e.at_ (u.port p).net.1 false none u v) ∧
    Executes p (.drive p) 7 (fun e u v => TakesOutput p e.at_ (u.port p).net.1 true none u v) ∧
    Executes p (.cload p) 8 (fun e u v => CounterTakes p (fun c =>
      { c with cnt := c.upper * 2 ^ 32 + e.act.param % 2 ^ 32, upper := 0 }) u v) ∧
    Executes p (.crld p) 9 (fun e u v => CounterTakes p (fun c =>
      { c with rld := c.upper * 2 ^ 32 + e.act.param % 2 ^ 32, upper := 0,
               act := if c.run = true then c.act else c.upper * 2 ^ 32 + e.act.param % 2 ^ 32 }) u v) ∧
    Executes p (.ccmp p) 10 (fun e u v => CounterTakes p (fun c =>
      { c with cmp := c.upper * 2 ^ 32 + e.act.param % 2 ^ 32, upper := 0 }) u v) ∧
    Executes p (.cstart p) 11 (fun _ u v => CounterTakes p (fun c => { c with run := true }) u v) ∧
    Executes p (.cstop p) 12 (fun _ u v => CounterTakes p (fun c => { c with run := false }) u v) ∧
    Executes p (.csnap p) 13 (fun e u v => OnePort p u v ∧ ((u.port p).snapMc ≠ some u.mc →
      ((u.port p).recs.length < 8 → (v.port p).recs = (u.port p).recs ++ [{
        time := e.act.time, idx := p, edge := false, ty := 3, seq := u.f (PRT_SEQ_SEQ p), lane := u.lane p, org := .port p,
        aux := (if e.act.param.testBit 0 = true then (u.port p).ctr.cnt / 2 ^ 32 else (u.port p).ctr.cnt) % 2 ^ 32 }]) ∧
      (8 ≤ (u.port p).recs.length → (v.port p).recs = (u.port p).recs ∧ v.f (PRT_STATUS_CAPDROP p) = 1))) ∧
    Executes p (.cupper p) 14 (fun e u v => CounterTakes p (fun c => { c with upper := e.act.param % 2 ^ 16 }) u v) ∧
    Executes p (.capon p) 16 (fun e u v => OnePort p u v ∧
      v.port p = { u.port p with gate := (e.at_, true) :: (u.port p).gate }) ∧
    Executes p (.capoff p) 17 (fun e u v => OnePort p u v ∧
      v.port p = { u.port p with gate := (e.at_, false) :: (u.port p).gate })

/-- ACTION_ARRIVAL queues a record behind the entries that are not later (R175, R176). One that is late, by LATE_SEAL or because its
time has come, is counted; with DISCARD in force and TRK 0 it is removed, else it executes at its time, or at the next Mast
boundary where that has passed (R181). A full queue of 32 discards it (R175). RETIME moves the first entry of its tag and owner to
its time, late as above, and CANCEL removes all of them (R179). A due PULSE_END brings the output to 0 at its time (R178), and a due
SPACING_HELD_EDGE is made at the time it is held to (R177). A disabled port discards and counts a record (R175), as it does one
with an unlisted code or an output code outside the output modes (R174), and a RETIME or CANCEL that finds no entry is counted
(R179). The model's choices: what arrives is the first record on its way to the port, where its code fits the command, and it is
lost without a note where the port's domain has no power (log entry 59); a RETIME that makes a late entry late again counts it
again (log entry 91). -/
def Obligations.RecordsArriveAtPorts : Prop :=
  (∀ (p : Fin 96) (s u : State) (tr : Transit) (late : Bool) (keep : Prop), s.nextFor p = some tr → tr.act.code ≠ 0x18 →
    tr.act.code ≠ 0x19 → s.phys (portDom p) = true → u = takeTransit tr s → s.portEn p = true → recordOk s p tr.act = true →
    (late = true ↔ tr.act.late = true ∨ future tr.act.time (s.pnow p) = false) →
    (keep ↔ late = false ∨ tr.act.trk = true ∨ s.flag (PRT_POLICY_LATE p) = false) →
    (¬keep → ∃ t, exec (.actionArrival p) s = .next t ∧ t.ports = s.ports ∧ t.f (PRT_STATUS_LATE p) = 1 ∧
      t.f (PRT_ERRCNT1_LATE p) = min (s.f (PRT_ERRCNT1_LATE p) + 1) 0xFFFF ∧ t.transit = u.transit) ∧
    (keep → 32 ≤ (s.port p).queue.length → ∃ t, exec (.actionArrival p) s = .next t ∧ t.ports = s.ports ∧
      t.f (PRT_STATUS_QFULL p) = 1 ∧ t.f (PRT_ERRCNT1_QDROP p) = min (s.f (PRT_ERRCNT1_QDROP p) + 1) 0xFFFF ∧
      t.transit = u.transit) ∧
    (keep → (s.port p).queue.length < 32 → ∃ t, exec (.actionArrival p) s = .next t ∧ OnePort p u t ∧
      t.port p = { s.port p with queue := (t.port p).queue } ∧
      Queued ⟨tr.act, late, if future tr.act.time (s.pnow p) = true then tr.act.time else s.pclose p⟩
        (s.port p).queue (t.port p).queue ∧
      (late = false → t = { u with ports := t.ports }) ∧
      (late = true → t.f (PRT_STATUS_LATE p) = 1 ∧
        t.f (PRT_ERRCNT1_LATE p) = min (s.f (PRT_ERRCNT1_LATE p) + 1) 0xFFFF))) ∧
  (∀ (p : Fin 96) (s u : State) (tr : Transit) (e : QEntry) (late : Bool) (keep : Prop), s.nextFor p = some tr →
    tr.act.code = 0x18 → s.phys (portDom p) = true → u = takeTransit tr s → s.portEn p = true →
    (s.port p).queue.find? (s.sees tr.act) = some e →
    (late = true ↔ tr.act.late = true ∨ future tr.act.time (s.pnow e.act.port) = false) →
    (keep ↔ late = false ∨ tr.act.trk = true ∨ s.flag (PRT_POLICY_LATE p) = false) →
    ∃ t, exec (.retime p) s = .next t ∧ OnePort p u t ∧ t.port p = { s.port p with queue := (t.port p).queue } ∧
      (keep → Queued ⟨{ e.act with time := tr.act.time, trk := tr.act.trk, late := tr.act.late }, late,
          if future tr.act.time (s.pnow e.act.port) = true then tr.act.time else s.pclose e.act.port⟩
        ((s.port p).queue.erase e) (t.port p).queue) ∧
      (¬keep → (t.port p).queue = (s.port p).queue.erase e) ∧
      (late = false → t = { u with ports := t.ports }) ∧
      (late = true → t.f (PRT_STATUS_LATE p) = 1 ∧
        t.f (PRT_ERRCNT1_LATE p) = min (s.f (PRT_ERRCNT1_LATE p) + 1) 0xFFFF)) ∧
  (∀ (p : Fin 96) (s u : State) (tr : Transit), s.nextFor p = some tr → tr.act.code = 0x19 →
    s.phys (portDom p) = true → u = takeTransit tr s → s.portEn p = true →
    (s.port p).queue.any (s.sees tr.act) = true →
    exec (.cancel p) s = .next (outSettle p
      (u.modPort p fun x => { x with queue := x.queue.filter fun e => !s.sees tr.act e }))) ∧
  (∀ (p : Fin 96) (s : State) (t : Time), (s.port p).pulseEnd = some t →
    (s.portEn p = true → s.prunning p = true → s.pdue p t = true → ∃ v, exec (.pulseEnd p) s = .next v ∧
      TakesOutput p t false (s.port p).net.2 none (s.modPort p fun x => { x with pulseEnd := none }) v) ∧
    ((s.portEn p = false ∨ s.prunning p = false ∨ s.pdue p t = false) → exec (.pulseEnd p) s = .next s)) ∧
  (∀ (p : Fin 96) (s : State) (t : Time) (o d : Bool), (s.port p).held = some (t, o, d) →
    (s.pdue p t = true → ∃ v, exec (.spacingHeldEdge p) s = .next v ∧
      OutputBecomes p t o d (s.modPort p fun x => { x with held := none }) v) ∧
    (s.pdue p t = false → exec (.spacingHeldEdge p) s = .next s)) ∧
  (∀ (p : Fin 96) (s : State) (tr : Transit), s.nextFor p = some tr → s.phys (portDom p) = false →
    ∀ i, (tr.act.code = 0x18 ∧ i = Instr.retime p ∨ tr.act.code = 0x19 ∧ i = .cancel p ∨
      tr.act.code ≠ 0x18 ∧ tr.act.code ≠ 0x19 ∧ i = .actionArrival p) → exec i s = .next (takeTransit tr s)) ∧
  (∀ (p : Fin 96) (s : State),
    (s.nextFor p = none → exec (.actionArrival p) s = .next s ∧ exec (.retime p) s = .next s ∧
      exec (.cancel p) s = .next s) ∧
    ((s.port p).pulseEnd = none → exec (.pulseEnd p) s = .next s) ∧
    ((s.port p).held = none → exec (.spacingHeldEdge p) s = .next s)) ∧
  (∀ (p : Fin 96) (s : State) (tr : Transit), s.nextFor p = some tr → s.phys (portDom p) = true →
    (∀ i, (tr.act.code = 0x18 ∧ i = Instr.retime p ∨ tr.act.code = 0x19 ∧ i = .cancel p ∨
        tr.act.code ≠ 0x18 ∧ tr.act.code ≠ 0x19 ∧ i = .actionArrival p) → s.portEn p = false →
      ∃ t, exec i s = .next t ∧ t.f (PRT_STATUS_QFULL p) = 1 ∧
        t.f (PRT_ERRCNT1_QDROP p) = min (s.f (PRT_ERRCNT1_QDROP p) + 1) 0xFFFF ∧ t.ports = s.ports ∧
        t.transit = s.transit.erase tr) ∧
    (s.portEn p = true → tr.act.code ≠ 0x18 → tr.act.code ≠ 0x19 → recordOk s p tr.act = false →
      ∃ t, exec (.actionArrival p) s = .next t ∧ t.f (PRT_STATUS_BADCODE p) = 1 ∧
        t.f (PRT_ERRCNT2_BAD p) = min (s.f (PRT_ERRCNT2_BAD p) + 1) 0xFFFF ∧ t.ports = s.ports) ∧
    (∀ i, (tr.act.code = 0x18 ∧ i = Instr.retime p ∨ tr.act.code = 0x19 ∧ i = .cancel p) → s.portEn p = true →
      (s.port p).queue.find? (s.sees tr.act) = none → ∃ t, exec i s = .next t ∧ t.ports = s.ports ∧ t.f (PRT_STATUS_RETMISS p) = 1 ∧
        t.f (PRT_ERRCNT2_RETMISS p) = min (s.f (PRT_ERRCNT2_RETMISS p) + 1) 0xFFFF))

/-- An edge at a pin that is not in the VR mode is stamped, in an output mode less the driver's delay, and starts the filter or takes
back the edge that the filter holds (R182, R186); a VR zero crossing does so once the front end is armed (R215). A qualified edge
becomes the filtered level and goes to the port's owner 2 mc later, and an enabled, selected edge becomes a capture record, or is
counted where it is too close to the last or all 8 places are full (R182, R184 to R186). A counter steps down, reloads from 0 or
stops there, and sets its ZERO and MATCH events (R190, R191, R194, R196); one linked to a lower counter is evaluated after it (R195).
A pulse at the arm input does what ARMFN says (R197). The model's choices: INPUT_EDGE at a VR port sets the pin alone, and at a port
without power the pin and the level (log entry 64); a counter is evaluated once for each Mast boundary (log entry 65); a periodic
step from 0 to a reload value of 0 is a match and no zero event (log entry 91). -/
def Obligations.EdgesAndCounters : Prop :=
  (∀ (p : Fin 96) (lvl : Bool) (fine : Fin 256) (s : State),
    (s.isVr p = false → s.phys (portDom p) = true → ∃ t, exec (.inputEdge p lvl fine) s = .next t ∧
      OnePort p s t ∧ (t.port p).pin = lvl ∧ (t.port p).level = (s.port p).level ∧
      ((lvl != s.flag (PRT_IOCFG_INV p)) = (s.port p).level → (t.port p).raw = none) ∧
      ((lvl != s.flag (PRT_IOCFG_INV p)) ≠ (s.port p).level → (s.port p).raw = none → ∃ r, (t.port p).raw = some r ∧
        r.level = (lvl != s.flag (PRT_IOCFG_INV p)) ∧ r.mc = s.mc ∧ r.ran = s.prunning p ∧
        r.stamp = s.pnow p + fc fine - (if s.outMode p = true then fc (Config.driverDelay p) else 0)) ∧
      ((lvl != s.flag (PRT_IOCFG_INV p)) ≠ (s.port p).level → (s.port p).raw ≠ none → (t.port p).raw = (s.port p).raw)) ∧
    (s.isVr p = true → exec (.inputEdge p lvl fine) s = .next (s.modPort p fun x => { x with pin := lvl })) ∧
    (s.isVr p = false → s.phys (portDom p) = false →
      exec (.inputEdge p lvl fine) s = .next (s.modPort p fun x => { x with pin := lvl, level := lvl }))) ∧
  (∀ (p : Fin 8) (fine : Fin 256) (s : State),
    (s.isVr p = true → s.phys (portDom p) = true → (s.vrOf p).armed = true → ∃ t,
      exec (.vrZeroCrossing p fine) s = .next t ∧ (t.vrOf p).armed = false ∧
      ((s.port p).level = false → (s.port p).raw = none →
        ∃ r, (t.port p).raw = some r ∧ r.level = true ∧ r.stamp = s.pnow p + fc fine ∧ r.mc = s.mc) ∧
      ((s.port p).level = false → (s.port p).raw ≠ none → (t.port p).raw = (s.port p).raw) ∧
      ((s.port p).level = true → (t.port p).raw = none)) ∧
    ((s.isVr p = false ∨ s.phys (portDom p) = false ∨ (s.vrOf p).armed = false) →
      exec (.vrZeroCrossing p fine) s = .next s)) ∧
  (∀ (p : Fin 96) (s : State),
    (∀ e, (s.port p).raw = some e → e.mc + s.f (PRT_INCFG_FILT p) ≤ s.mc → s.phys (portDom p) = true →
      ∃ t, exec (.edgeQualify p) s = .next t ∧ (t.port p).level = e.level ∧ (t.port p).raw = none ∧
        t.mem = s.mem ∧ t.engines = s.engines ∧ (e.mc + s.f (PRT_INCFG_FILT p) + 2, e.level) ∈ (t.port p).told ∧
        ∀ (chosen near : Prop), (chosen ↔ e.ran = true ∧ s.portEn p = true ∧
            (if e.level = true then (s.f (PRT_CAPCFG_EDGE p)).testBit 0 else (s.f (PRT_CAPCFG_EDGE p)).testBit 1) = true) →
          (near ↔ ∃ u, (s.port p).stamped = some u ∧ (e.stamp - u).toNat < spacing p) →
          (chosen → near → (t.port p).recs = (s.port p).recs ∧ t.f (PRT_STATUS_CAPMISS p) = 1 ∧
            t.f (PRT_ERRCNT3_CAPMISS p) = min (s.f (PRT_ERRCNT3_CAPMISS p) + 1) 0xFFFF) ∧
          (chosen → ¬near → (t.port p).stamped = some e.stamp ∧
            ((s.flag (PRT_CAPCFG_GATED p) = true ∧ gateOpen e.stamp (s.port p).gate = false ∨ s.prunning p = false) →
              (t.port p).recs = (s.port p).recs) ∧
            (s.prunning p = true → (s.flag (PRT_CAPCFG_GATED p) = false ∨ gateOpen e.stamp (s.port p).gate = true) →
              ((s.port p).recs.length < 8 → (t.port p).recs = (s.port p).recs ++ [{
                time := e.stamp, idx := p, edge := e.level, ty := 1, seq := s.f (PRT_SEQ_SEQ p), aux := e.count % 2 ^ 32,
                lane := s.lane p, org := .port p }]) ∧
              (8 ≤ (s.port p).recs.length → (t.port p).recs = (s.port p).recs ∧ t.f (PRT_STATUS_CAPDROP p) = 1))) ∧
          (¬chosen → (t.port p).recs = (s.port p).recs)) ∧
    (((s.port p).raw = none ∨ s.phys (portDom p) = false ∨
        ∃ e, (s.port p).raw = some e ∧ s.mc < e.mc + s.f (PRT_INCFG_FILT p)) →
      exec (.edgeQualify p) s = .next s)) ∧
  (∀ (p j : Fin 96) (s : State), s.linkedBelow p = some j.val → ∃ u v, exec (.counterStep j) s = .next u ∧
    exec (.counterStep p) s = .next v ∧ exec (.counterStep p) u = .next v) ∧
  (∀ (p : Fin 96) (s : State) (x : Port), x = (s.port p).snapFor s.mc →
    (s.linkedBelow p = none ∨ ∀ k, k < p.val → k / 8 = p.val / 8 → s.mc + 1 ≤ (s.port k).closed) →
    (s.mc + 1 ≤ (s.port p).closed → exec (.counterStep p) s = .next s) ∧
    ((s.port p).closed ≤ s.mc → ∃ t, exec (.counterStep p) s = .next t ∧ t.mem = s.mem ∧ t.engines = s.engines ∧
      (s.portEn p = true → x.ctr.run = true → ctrDue (s.f (PRT_CCTRL_CSRC p)) (s.f (PRT_CCTRL_LSRC p)) (s.f (PRT_ARMCFG_ARMFN p)) (s.mc + 1) x = true →
        (1 < x.ctr.cnt → (t.port p).ctr = { x.ctr with cnt := x.ctr.cnt - 1, imm := false }) ∧
        (x.ctr.cnt = 1 → (t.port p).ctr = { x.ctr with cnt := 0, act := x.ctr.rld, imm := false } ∧
          t.f (PRT_CSTAT_ZERO p) = 1) ∧
        (x.ctr.cnt = 0 → s.flag (PRT_CCTRL_ONESHOT p) = true →
          (t.port p).ctr = { x.ctr with run := false, imm := false }) ∧
        (x.ctr.cnt = 0 → s.flag (PRT_CCTRL_ONESHOT p) = false →
          (t.port p).ctr = { x.ctr with cnt := x.ctr.act, imm := false }) ∧
        ((0 < x.ctr.cnt ∧ x.ctr.cmp = x.ctr.cnt - 1 ∨
            x.ctr.cnt = 0 ∧ s.flag (PRT_CCTRL_ONESHOT p) = false ∧ x.ctr.cmp = x.ctr.act) → t.f (PRT_CSTAT_MATCH p) = 1)) ∧
      ((s.portEn p = false ∨ x.ctr.run = false ∨ ctrDue (s.f (PRT_CCTRL_CSRC p)) (s.f (PRT_CCTRL_LSRC p)) (s.f (PRT_ARMCFG_ARMFN p)) (s.mc + 1) x = false) →
        (t.port p).ctr = { x.ctr with imm := false }))) ∧
  (∀ (p : Fin 96) (s u : State) (k : Nat) (l : List Nat) (T : Time), (s.port p).arm = k :: l →
    u = s.modPort p (fun x => { x with arm := l }) → T = s.pclose p + fc (256 * k) - fc (256 * s.mc) →
    ((s.portEn p = false ∨ s.phys (portDom p) = false) → exec (.armPulse p) s = .next u) ∧
    (s.portEn p = true → s.phys (portDom p) = true → ∃ v, exec (.armPulse p) s = .next v ∧
      (s.f (PRT_ARMCFG_ARMFN p) = 0 →
        v = u.modPort p fun x => { x with steps := x.steps ++ [(k + 1, StepCause.arm)] }) ∧
      (s.f (PRT_ARMCFG_ARMFN p) = 1 → CounterTakes p (fun c => { c with run := true }) u v) ∧
      (s.f (PRT_ARMCFG_ARMFN p) = 2 → CounterTakes p (fun c => { c with run := false }) u v) ∧
      (s.f (PRT_ARMCFG_ARMFN p) = 3 → CounterTakes p (fun c => { c with cnt := c.act }) u v) ∧
      (s.outMode p = true → ∀ n, 4 ≤ n → n ≤ 7 → s.f (PRT_ARMCFG_ARMFN p) = n → future T (s.pnow p) = true →
        v = u.modPort p fun x => { x with later := x.later ++ [(T, LateOut.code (n - 3) (s.f (PRT_ARMW_WIDTH p)))] }) ∧
      (s.outMode p = true → ∀ n, 4 ≤ n → n ≤ 7 → s.f (PRT_ARMCFG_ARMFN p) = n → future T (s.pnow p) = false →
        v = outSettle p (u.modPort p fun x =>
          { x with later := x.later ++ [(T, LateOut.code (n - 3) (s.f (PRT_ARMW_WIDTH p)))] }))))

/-- Registers of a port: enabling brings the output to REST at once; disabling discards the queue, the pulse end, the gate and
the arm pulses, and brings the output to REST at the next Mast boundary (R188); CLRQ discards the queue and the pulse end, and
keeps a held edge, on which R199 is silent (the model's choice, log entry 64); PRT_CLR clears the counts it selects but for what
happens in its own cycle (R206); the counter registers act on the counter (R193, R194, R207). An overcurrent switches a driver off and sets OCP until
software clears it (R189, R200); a load shedding does so to the hot drivers, and then to the driving port of the highest
index (R516). A calibration changes nothing (R433). -/
def Obligations.PortRegistersAndDrivers : Prop :=
  (∀ (req : Fin 4) (p : Fin 96) (s : State), s.reaches (PRT_CTRL p) →
    (s.portEn p = true → exec (.portEnable req p) s = .next s) ∧
    (s.portEn p = false → exec (.portDisable req p) s = .next s ∧
      ∃ t, exec (.portEnable req p) s = .next t ∧ OnePort p s t ∧ t.f (PRT_CTRL_EN p) = 1 ∧ SameRegs s t [PRT_CTRL p] ∧
        (t.port p).queue = (s.port p).queue ∧ (t.port p).held = none ∧ (t.port p).out = (s.f (PRT_IOCFG_REST p) == 2) ∧
        (t.port p).drv = ((s.f (PRT_IOCFG_REST p) == 1 || s.f (PRT_IOCFG_REST p) == 2) && s.outMode p)) ∧
    (s.portEn p = true → ∃ t, exec (.portDisable req p) s = .next t ∧ OnePort p s t ∧ t.f (PRT_CTRL_EN p) = 0 ∧
      ((s.port p).later = [] → (s.port p).acc = none → SameRegs s t [PRT_CTRL p]) ∧ (t.port p).queue = [] ∧
      (t.port p).pulseEnd = none ∧ (t.port p).gate = [] ∧ (t.port p).arm = [] ∧ (t.port p).later = [(s.pclose p, LateOut.rest)]) ∧
    exec (.clrq req p) s = .next (outSettle p (s.modPort p fun x => { x with queue := [], pulseEnd := none }))) ∧
  (∀ (req : Fin 4) (p : Fin 96) (val : Word) (s : State), s.reaches (PRT_CLR p) →
    ∃ t, exec (.prtClr req p val) s = .next t ∧ OnlyRegs s t [PRT_ERRCNT1 p, PRT_ERRCNT2 p, PRT_ERRCNT3 p, PRT_SEQ p] ∧
      t.f (PRT_ERRCNT1_QDROP p) = (if val.getLsbD 0 = true then min (s.noted (PRT_ERRCNT1_QDROP p)) 0xFFFF
        else s.f (PRT_ERRCNT1_QDROP p)) ∧
      t.f (PRT_ERRCNT1_LATE p) = (if val.getLsbD 0 = true then min (s.noted (PRT_ERRCNT1_LATE p)) 0xFFFF
        else s.f (PRT_ERRCNT1_LATE p)) ∧
      t.f (PRT_ERRCNT2_RETMISS p) = (if val.getLsbD 1 = true then min (s.noted (PRT_ERRCNT2_RETMISS p)) 0xFFFF
        else s.f (PRT_ERRCNT2_RETMISS p)) ∧
      t.f (PRT_ERRCNT2_BAD p) = (if val.getLsbD 1 = true then min (s.noted (PRT_ERRCNT2_BAD p)) 0xFFFF
        else s.f (PRT_ERRCNT2_BAD p)) ∧
      t.f (PRT_ERRCNT3_CAPDROP p) = (if val.getLsbD 2 = true then min (s.noted (PRT_ERRCNT3_CAPDROP p)) 0xFFFF
        else s.f (PRT_ERRCNT3_CAPDROP p)) ∧
      t.f (PRT_ERRCNT3_CAPMISS p) = (if val.getLsbD 2 = true then min (s.noted (PRT_ERRCNT3_CAPMISS p)) 0xFFFF
        else s.f (PRT_ERRCNT3_CAPMISS p)) ∧
      t.f (PRT_SEQ_SEQ p) = (if val.getLsbD 3 = true then 0 else s.f (PRT_SEQ_SEQ p))) ∧
  (∀ (req : Fin 4) (p : Fin 96) (val : DWord) (s : State),
    (s.reaches (PRT_CNT p) → ∃ t, exec (.counterLoad req p val) s = .next t ∧
      CounterTakes p (fun c => { c with cnt := val.toNat % 2 ^ 48 }) s t) ∧
    (s.reaches (PRT_RLD p) → ∃ t, exec (.reloadWrite req p val) s = .next t ∧
      CounterTakes p (fun c => { c with rld := val.toNat % 2 ^ 48,
                                        act := if c.run = true then c.act else val.toNat % 2 ^ 48 }) s t) ∧
    (s.reaches (PRT_CMP p) → ∃ t, exec (.compareWrite req p val) s = .next t ∧
      CounterTakes p (fun c => { c with cmp := val.toNat % 2 ^ 48 }) s t)) ∧
  (∀ (req : Fin 4) (p : Fin 96) (on : Bool) (s : State), s.reaches (PRT_CCTRL p) →
    cctrlOk p (s.stg (PRT_CCTRL p)).toNat = true → ∃ u t, ReadsAs s u ∧ exec (.counterRun req p on) s = .next t ∧
      CounterTakes p (fun c => { c with run := on }) u t) ∧
  (∀ (p : Fin 64) (s : State),
    (s.driving p = true → ∃ t, exec (.overcurrentOff p) s = .next t ∧ t.f (PRT_STATUS_OCP p) = 1 ∧
      t.driving p = false ∧ (t.port p).out = (s.port p).out ∧ (t.port p).drv = (s.port p).drv ∧ OnePort p s t) ∧
    (s.driving p = false → exec (.overcurrentOff p) s = .next s)) ∧
  (∀ (req : Fin 4) (p : Fin 64) (s : State), s.reaches (PRT_STATUS p) →
    ∃ u t, ReadsAs s u ∧ exec (.ocpClear req p) s = .next t ∧ OnePort p u t ∧ SameRegs s t [PRT_STATUS p] ∧
      (s.noted (PRT_STATUS_OCP p) = 0 → t.f (PRT_STATUS_OCP p) = 0 ∧ (t.port p).out = (s.port p).out ∧
        (t.port p).drv = (s.port p).drv) ∧
      (s.noted (PRT_STATUS_OCP p) ≠ 0 → t.f (PRT_STATUS_OCP p) = s.f (PRT_STATUS_OCP p) ∧ t.ports = s.ports)) ∧
  (∀ (hot : List (Fin 64)) (more : Fin 65) (s : State), ∃ t, exec (.loadShed hot more) s = .next t ∧
    (∀ p ∈ hot, t.driving p.val = false) ∧ (∀ p, s.driving p = false → t.driving p = false) ∧ t.mem = s.mem ∧
    t.engines = s.engines ∧
    (hot = [] → more = 0 → t = s) ∧
    (hot = [] → more = 1 → ∀ q : Fin 64, s.driving q = true → (∀ k : Fin 64, q < k → s.driving k = false) →
      exec (.loadShed hot more) s = exec (.overcurrentOff q) s)) ∧
  (∀ (p : Fin 96) (s : State), exec (.calibration p) s = .next s)

/-! ### Wheel trackers and sheave units -/

/-- Tooth records: the first that has reached the tracker joins its queue while it is enabled (R213), and is processed 20 mc later and
20 mc after the one before (R214). A tooth too early for the estimate is rejected, one within 500 ns of the last is an overspeed, and
a table word that cannot be read costs sync (R219, R226, R227). By missing tooth, a long interval gives REFPOS in SEEK, each further
tooth the next physical position; consistent long intervals confirm, and one that differs from the table is GAPERR (R221); with
CYCLE2 the phase level places the half or is PHASEERR (R222). By reference input, the tooth after an edge takes REFPOS in SEEK, confirms
there, and elsewhere is REFERR, as is a cycle without an edge (R223). A reverse tooth takes the position before (R229). A secondary edge
whose interval is closed has its angle, number and difference shown (R243, R244). Learning moves the entry's width by the measured
span and changes no other byte (R230). A stall keeps or drops the position (R228). The model's choices: REFERR of a missing edge falls at the
first tooth when its record can no longer come (log entry 67), and the rounding of the estimate, the angles and learning (entries
67 and 68). -/
def Obligations.TeethAreProcessed : Prop :=
  (∀ (w : Fin 4) (s : State),
    ((s.toothPath.find? fun r => r.wheel == w.val && decide (r.ready ≤ s.mc)) = none → exec (.toothRecordArrival w) s = .next s) ∧
    (∀ r, (s.toothPath.find? fun r => r.wheel == w.val && decide (r.ready ≤ s.mc)) = some r → ∃ t, exec (.toothRecordArrival w) s = .next t ∧
      t = { s with toothPath := s.toothPath.erase r, wheels := t.wheels } ∧
      (t.wheel w).fifo = (if s.on dKILN = true ∧ s.whlEn w = true then (s.wheel w).fifo ++ [(r, s.mc)] else (s.wheel w).fifo))) ∧
  (∀ (w : Fin 4) (s : State), ((s.wheel w).fifo = [] ∨ s.whlEn w = false) → exec (.toothProcess w) s = .next s) ∧
  (∀ (w : Fin 4) (s : State) (r : Tooth) (ta p : Nat) (l : List (Tooth × Nat)) (early : Option Nat), (s.wheel w).fifo = (r, ta) :: l →
    p = max (ta + 20) (((s.wheel w).lastP.getD 0) + 20) →
    early = (if ((s.wheel w).refs.any fun k => future r.time k) = true then some (s.f (WHL_SYNCCFG_REFPOS w)) else none) →
    (s.mc < p → exec (.toothProcess w) s = .next s) ∧
    (p ≤ s.mc → s.whlEn w = true → ∃ t, exec (.toothProcess w) s = .next t ∧ (t.wheel w).fifo = l ∧
      (t.wheel w).lastP = some p ∧
      (r.port = s.f (WHL_INPUT_PPORT w) →
        (s.badWord (ttAddr (s.f (WHL_TTCFG_PBASE w))) (4 * s.teethN w) = true → t.f (WHL_FLAGS_TTECC w) = 1 ∧
          LostAtTooth w 6 r early s t) ∧
        (s.badWord (ttAddr (s.f (WHL_TTCFG_PBASE w))) (4 * s.teethN w) = false → s.whlState w ≠ 4 →
          (s.isReverse w r.other = true → (s.wheel w).secs = [] → t.f (WHL_STATUS_REVERSE w) = 1 ∧
            (t.wheel w).lastT = some r.time ∧ t.f (WHL_STATUS_LEARNING w) = 0 ∧
            (t.wheel w).pos = (s.wheel w).pos.map (fun q => s.prevPhys w q (s.teethN w)) ∧
            (s.flag (WHL_STATUS_REVERSE w) = false → t.f (WHL_FLAGS_REVERSE w) = 1)) ∧
          (s.isReverse w r.other = false → s.flag (WHL_STATUS_REVERSE w) = false → (s.wheel w).secs = [] →
            ((s.wheel w).lastT = none → (t.wheel w).lastT = some r.time) ∧
            (∀ u e, (s.wheel w).lastT = some u → e = (r.time - u).toNat →
              (∀ d, s.dPred w = some d → (e * 256 : Int) < s.f (WHL_FILT_MINFRAC w) * d →
                t.f (WHL_FLAGS_REJECT w) = 1 ∧ t.f (WHL_ERRCNT_REJ w) = min (s.f (WHL_ERRCNT_REJ w) + 1) 0xFFF ∧
                (t.wheel w).lastT = some u ∧ (t.wheel w).pos = (s.wheel w).pos) ∧
              ((∀ d, s.dPred w = some d → s.f (WHL_FILT_MINFRAC w) * d ≤ (e * 256 : Int)) →
                (t.wheel w).lastT = some r.time ∧
                (e < 25600 → t.f (WHL_FLAGS_OVERSPEED w) = 1 ∧ LostAtTooth w 4 r early s t)))))))) ∧
  (∀ (w : Fin 4) (s : State) (r : Tooth) (p N R : Nat) (e : Option Nat) (x : Tracker) (done : Nat → State → Prop), s.acceptsForward w r p e →
    x = s.wheel w → N = s.teethN w → R = s.f (WHL_SYNCCFG_REFPOS w) →
    (∀ n t, done n t ↔ (t.wheel w).pos = some n ∧
      (s.whlState w ≠ 1 → t.whlState w = s.whlState w) ∧
      (s.whlState w = 1 → x.conf + 1 < s.f (WHL_SYNCCFG_CONFIRM w) → t.whlState w = 1 ∧ (t.wheel w).conf = x.conf + 1) ∧
      (s.whlState w = 1 → s.f (WHL_SYNCCFG_CONFIRM w) ≤ x.conf + 1 →
        (s.flag (WHL_CFG_CYCLE2 w) = true → t.whlState w = 2) ∧
        (s.flag (WHL_CFG_CYCLE2 w) = false → t.whlState w = 3 ∧ t.f (WHL_FLAGS_SYNCGAIN w) = 1))) →
    ∃ t, exec (.toothProcess w) s = .next t ∧
    (∀ long : Bool, s.flag (WHL_SYNCCFG_SYNCSRC w) = false → (∀ k ∈ x.refs, future r.time k = false) →
      (long = true ↔ ∃ a b, e = some a ∧ x.prevE = some b ∧ s.f (WHL_SYNCCFG_GAPR w) * b ≤ a * 16) →
      (x.pos = none → t.whlState w = s.whlState w ∧ (t.wheel w).pos = if long = true then some R else none) ∧
      (∀ q n tl, x.pos = some q → s.nextPhys w q N = (n, tl) →
        (long ≠ tl → LostAtTooth w 1 r none s t) ∧
        (long = false → tl = false → (t.wheel w).pos = some n ∧ t.whlState w = s.whlState w) ∧
        (long = true → tl = true → (s.whlState w = 1 ∨ s.flag (WHL_CFG_CYCLE2 w) = false) → done n t) ∧
        (long = true → tl = true → s.flag (WHL_CFG_CYCLE2 w) = true →
          ∀ (m : Nat) (half : Nat → Nat), m = (R + if r.other = true then N / 2 else 0) % N →
          (∀ a, half a = (a + N - R % N) % N / (N / 2)) →
          (s.whlState w = 2 → t.whlState w = 3 ∧ t.f (WHL_FLAGS_SYNCGAIN w) = 1 ∧
            (t.wheel w).pos = some (if half n = half m then n else (n + N / 2) % N)) ∧
          (s.whlState w = 3 → (half n = half m → t.whlState w = 3 ∧ (t.wheel w).pos = some n) ∧
            (half n ≠ half m → LostAtTooth w 3 r none s t))))) ∧
    (∀ (before : Bool) (q : Option Nat), s.flag (WHL_SYNCCFG_SYNCSRC w) = true →
      before = (x.refs.any fun k => future r.time k) → q = x.pos.map (fun y => (s.nextPhys w y N).1) →
      ((∃ u, x.miss = some u ∧ reached (s.refBy w u) (s.timeOfMc p) = true) →
        LostAtTooth w 2 r (if before = true then some R else none) s t) ∧
      ((∀ u, x.miss = some u → reached (s.refBy w u) (s.timeOfMc p) = false) →
        (before = false → (t.wheel w).pos = q ∧ t.whlState w = s.whlState w) ∧
        (before = true → q = some R → done R t) ∧
        (before = true → q ≠ some R → q ≠ none → s.whlState w ≠ 1 → LostAtTooth w 2 r none s t) ∧
        (before = true → q ≠ some R → (q = none ∨ s.whlState w = 1) →
          (t.wheel w).pos = some R ∧ (t.wheel w).conf = 0 ∧ t.whlState w = s.whlState w))) ∧
    (∀ (c d q m : Nat) (y : Tracker) (learns : Prop), y = t.wheel w → y.cyc = [c, d] →
      (learns ↔ s.flag (WHL_LEARN_EN w) = true ∧ t.whlState w = 3 ∧ y.accl = false ∧ 2 ≤ y.hist.length ∧
        ((c : Int) - d).natAbs * 1024 ≤ s.f (WHL_LEARN_LTOL w) * c) →
      y.pos = some q → q < N → m = s.ttPos w q →
      (learns → t.f (WHL_STATUS_LEARNING w) = 1 ∧
        (m.testBit 25 = false → t.memNat (ttAddr (s.f (WHL_TTCFG_PBASE w) + q)) 4 = setBits m 0 24
          (learnWidth (bitsOf m 0 24) (roundDiv (y.ints.2 * s.cycleU w) c) y.a2 (s.f (WHL_LEARN_LRATE w))))) ∧
      (¬learns → t.f (WHL_STATUS_LEARNING w) = 0) ∧ ((¬learns ∨ m.testBit 25 = true) → t.mem = s.mem) ∧
      ∀ z, (z < ttAddr (s.f (WHL_TTCFG_PBASE w) + q) ∨ ttAddr (s.f (WHL_TTCFG_PBASE w) + q) + 4 ≤ z) → t.byte z = s.byte z)) ∧
  (∀ (w : Fin 4) (s : State) (r : Tooth) (p N : Nat) (x : Tracker), s.takesTooth w r p → r.port ≠ s.f (WHL_INPUT_PPORT w) →
    x = s.wheel w → N = s.teethN w → x.secs = [] → ∃ t, exec (.toothProcess w) s = .next t ∧
    (s.f (WHL_CFG_SECMODE w) = 1 → s.flag (WHL_SYNCCFG_SYNCSRC w) = true → (∀ h ∈ x.recent, future h.1 r.time = false) →
      (∀ k, x.lostT = some k → future k r.time = false) → (t.wheel w).refs = x.refs ++ [r.time]) ∧
    (∀ (t1 t0 : Time) (a b j i ph : Nat), phaseMode (s.f (WHL_CFG_SECMODE w)) = true →
      s.flag (WHL_SYNCCFG_SYNCSRC w) = false → s.whlState w = 3 → closing r.time x.recent = some ((t1, some b), (t0, some a)) →
      s.badWord (ttAddr (s.f (WHL_TTCFG_PBASE w))) (4 * N) = false →
      j = (if (x.numT.any fun u => future u r.time) = true then x.secPrev else x.secJ) → i = s.f (WHL_TTCFG_SBASE w) + j →
      ph = s.angleFrom w N a ((r.time - t0).toNat * s.spanOf w a b / (t1 - t0).toNat) →
      t.f (WHL_PHASE_PHASE w) = ph % 2 ^ 32 ∧
      (s.badWord (ttAddr i) 4 = false → t.f (WHL_PHIDX_J w) = j % 2 ^ 10 ∧ t.whlState w = 3 ∧
        t.f (WHL_PHDIFF_DIFF w) = (BitVec.ofInt 32 (phaseDiff N ph (s.ttWord i))).toNat) ∧
      (s.badWord (ttAddr i) 4 = true → t.f (WHL_FLAGS_TTECC w) = 1 ∧ t.whlState w = 1 ∧ t.f (WHL_STATUS_CAUSE w) = 6))) ∧
  (∀ (w : Fin 4) (s : State) (t0 ts tst : Time) (d : Nat), (s.wheel w).stallT = some t0 → s.stallAfter w = some d →
    ts = t0 + fc d → tst = ts + fc (20480 + 256 * s.f (PRT_INCFG_FILT (s.f (WHL_INPUT_PPORT w)))) →
    ((s.whlState w = 0 ∨ s.whlState w = 4 ∨ s.whlEn w = false ∨ s.running = false ∨ s.dueFc tst = false ∨
        ∃ x ∈ (s.wheel w).seen, future x ts = false) → exec (.stall w) s = .next s) ∧
    (s.whlState w ≠ 0 → s.whlState w ≠ 4 → s.whlEn w = true → s.running = true → s.dueFc tst = true →
      (∀ x ∈ (s.wheel w).seen, future x ts = true) → ∃ t, exec (.stall w) s = .next t ∧ t.f (WHL_FLAGS_STALL w) = 1 ∧
        (s.flag (WHL_CFG_STALLKEEP w) = true → t.f (WHL_STATUS_STATE w) = 4 ∧ (t.wheel w).saved = s.whlState w ∧
          (t.wheel w).pos = (s.wheel w).pos) ∧
        (s.flag (WHL_CFG_STALLKEEP w) = false → t.f (WHL_STATUS_STATE w) = 1 ∧ t.f (WHL_STATUS_CAUSE w) = 5 ∧
          t.f (WHL_FLAGS_SYNCLOSS w) = 1 ∧ (t.wheel w).pos = none)))

/-- At each forward tooth in SYNC with a valid estimate, a waiting slot whose begin lies within LOOKAHEAD issues its begin at the predicted
time and an end by angle at its bounded prediction (R225, R233); a queued uncommitted begin or end is retimed where the prediction
moves by RETOL or more; a begin too late to commit fires late within LATEWIN or is skipped, and an end too late is ENDLATE (R234). A
reversal holds uncommitted occurrences and ends the others (R242), as a disable and RESYNC do, which are losses of sync (R224, R240). A
queued begin or end is committed a horizon before its time (R232); a committed occurrence becomes ACTIVE at its begin, and at its end
the slot waits again, or is OFF where EN is clear or ONCE is set (R235, R237), with its parity flipped (R231). Enabling a tracker
starts it in SEEK, or sets CFGERR and is refused (R247). A tooth table write changes its entry, but for a tracker that learns there
(R219), and waits at the bank while the table clears. WHL_CLR clears the counts it selects, and the VR front end arms above
its threshold (R215). The model's choices: with one physical tooth the interval is the whole cycle, and a slot whose occurrence ended
before its begin angle waits for the tooth that spans it (log entry 92); the reading of predicted passes (entry 67). -/
def Obligations.SlotsAndTrackers : Prop :=
  (∀ (w : Fin 4) (k : Fin 64) (s : State) (r : Tooth) (p : Nat) (e : Option Nat) (y : WSlot) (tp : Time), s.acceptsForward w r p e →
    y = (s.wheel w).slot k → tp = s.timeOfMc p → ∃ t, exec (.toothProcess w) s = .next t ∧
    ∀ (z : WSlot) (q a : Nat), z = (t.wheel w).slot k → (t.wheel w).pos = some q → a = q * 65536 → t.whlState w = 3 →
      (t.wheel w).valid = true →
      (∀ (cfg beg c : Nat) (tb : Time) (late : Int), y.wait = none → y.past = none → (s.slotSt w k = 1 ∨ s.slotSt w k = 5) →
        cfg = (s.reg (WHL_EVCFG w k)).toNat → beg = s.f (WHL_EVBEG_BEGIN w k) → c = commitHor (evPort cfg) →
        tb = t.predAt w (t.ahead w a beg) → late = (c : Int) - sdiff tb tp →
        (s.f (WHL_ISSUE_LOOKAHEAD w) * 65536 < t.ahead w a beg → t.slotSt w k = s.slotSt w k) ∧
        (t.ahead w a beg ≤ s.f (WHL_ISSUE_LOOKAHEAD w) * 65536 →
          ((late ≤ 0 ∨ firesLate t w cfg late = true) → s.canSend w (evPort cfg) t → t.slotSt w k = 2 ∧ z.bq = true ∧
            z.tb = (if late ≤ 0 then tb else tp + fc c) ∧ (0 < late → t.f (WHL_EVSTAT_FIRELATE w k) = 1) ∧
            (evAngle cfg = true → z.eq = true ∧ z.te = boundEnd (t.predAt w (t.endDist w k)) z.tb (s.f (WHL_EVMAX_MAXDUR w k)))) ∧
          (0 < late → firesLate t w cfg late = false → SlotSkipped w k s t))) ∧
      (∀ (c : Nat) (passed : Bool) (tb : Time) (late : Int), s.slotSt w k = 2 → y.freeBeg tp = true → s.canSend w (evPort y.cfg) t →
        c = commitHor (evPort y.cfg) →
        passed = (y.bpass || ((s.wheel w).pos.isSome && t.spans w (t.prevPhys w q (s.teethN w) * 65536) a y.beg)) →
        tb = t.predAt w (if passed = true then -(t.dist w y.beg a : Int) else t.ahead w a y.beg) → late = (c : Int) - sdiff tb tp →
        (late ≤ 0 → t.slotSt w k = 2 ∧ z.tb = if t.tol w ≤ (sdiff tb y.tb).natAbs then tb else y.tb) ∧
        (0 < late → firesLate t w y.cfg late = true → t.slotSt w k = 2 ∧ z.tb = tp + fc c ∧
          t.f (WHL_EVSTAT_FIRELATE w k) = 1) ∧
        (0 < late → firesLate t w y.cfg late = false → SlotSkipped w k s t)) ∧
      (∀ (c : Nat) (te : Time), 2 ≤ s.slotSt w k → s.slotSt w k ≤ 4 → y.freeBeg tp = false → y.freeEnd tp = true → y.guard = false →
        s.canSend w (evPort y.cfg) t → c = commitHor (evPort y.cfg) → te = boundEnd (t.predAt w (t.endDist w k)) y.tb y.maxd →
        (sdiff te tp < (c : Int) → t.f (WHL_EVSTAT_ENDLATE w k) = 1 ∧ z.te = boundEnd (tp + fc c) y.tb (2 ^ 62)) ∧
        ((c : Int) ≤ sdiff te tp → t.tol w ≤ (sdiff te y.te).natAbs → z.te = te) ∧
        ((c : Int) ≤ sdiff te tp → (sdiff te y.te).natAbs < t.tol w → y.late = false → z.te = y.te))) ∧
  (∀ (w : Fin 4) (k : Fin 64) (s : State) (r : Tooth) (p : Nat) (tp : Time), s.takesTooth w r p → r.port = s.f (WHL_INPUT_PPORT w) →
    s.badWord (ttAddr (s.f (WHL_TTCFG_PBASE w))) (4 * s.teethN w) = false → s.whlState w ≠ 4 → s.isReverse w r.other = true →
    s.flag (WHL_STATUS_REVERSE w) = false → (s.wheel w).secs = [] → tp = s.timeOfMc p →
    ∃ t, exec (.toothProcess w) s = .next t ∧ t.f (WHL_STATUS_REVERSE w) = 1 ∧
      SlotHeld w k tp (((s.wheel w).slot k).tb + BitVec.ofInt 64 (max (sdiff tp ((s.wheel w).slot k).tb) 512))
        (WHL_EVSTAT_REVEND w k) s t) ∧
  (∀ (req w : Fin 4) (k : Fin 64) (s : State) (i : Instr), s.reaches (WHL_CTRL w) → s.whlEn w = true →
    (i = .trackerDisable req w ∨ i = .resync req w) → ∃ t, exec i s = .next t ∧
      SlotHeld w k s.now (((s.wheel w).slot k).tb + fc ((s.wheel w).slot k).maxd) (WHL_EVSTAT_GUARD w k) s t) ∧
  (∀ (w : Fin 4) (k : Fin 64) (s : State) (y : WSlot), y = (s.wheel w).slot k →
    (y.bq = true → y.bc = false → s.dueFc (y.tb - fc (commitHor (evPort y.cfg))) = true →
      ∃ t, exec (.slotCommit w k) s = .next t ∧ (t.wheel w).slot k = { y with bc := true } ∧
        t.slotSt w k = if s.slotSt w k = 2 then 3 else s.slotSt w k) ∧
    ((y.bq = false ∨ y.bc = true ∨ s.dueFc (y.tb - fc (commitHor (evPort y.cfg))) = false) →
      (y.eq = true → y.ec = false → s.dueFc (y.te - fc (commitHor (evPort y.cfg))) = true →
        ∃ t, exec (.slotCommit w k) s = .next t ∧ (t.wheel w).slot k = { y with ec := true } ∧
          t.slotSt w k = s.slotSt w k) ∧
      ((y.eq = false ∨ y.ec = true ∨ s.dueFc (y.te - fc (commitHor (evPort y.cfg))) = false) →
        exec (.slotCommit w k) s = .next s)) ∧
    (s.slotSt w k = 3 → y.bc = true → s.dueFc y.tb = true → ∃ t, exec (.occurrenceBegin w k) s = .next t ∧
      t.slotSt w k = 4 ∧ OnlyRegs s t [WHL_EVSTAT w k]) ∧
    ((s.slotSt w k ≠ 3 ∨ y.bc = false ∨ s.dueFc y.tb = false) → exec (.occurrenceBegin w k) s = .next s) ∧
    (s.slotSt w k = 4 → s.dueFc y.endTime = true → ∃ t, exec (.occurrenceEnd w k) s = .next t ∧
      t.f (WHL_EVSTAT_PARITY w k) = 1 - s.f (WHL_EVSTAT_PARITY w k) ∧
      (t.wheel w).slot k = { past := if y.bpass = true then none else some y.beg } ∧
      t.slotSt w k = (if evOnce y.cfg = false ∧ s.flag (WHL_EVCFG_EN w k) = true then 1 else 0) ∧
      (evOnce y.cfg = true → t.f (WHL_EVCFG_EN w k) = 0) ∧ SameRegs s t [WHL_EVSTAT w k, WHL_EVCFG w k] ∧
      t = { s with regs := t.regs, staged := t.staged, wheels := t.wheels }) ∧
    ((s.slotSt w k ≠ 4 ∨ s.dueFc y.endTime = false) → exec (.occurrenceEnd w k) s = .next s)) ∧
  (∀ (req : Fin 4) (w : Fin 4) (s : State), s.reaches (WHL_CTRL w) →
    (s.whlEn w = true → exec (.trackerEnable req w) s = .next s) ∧
    (s.whlEn w = false → exec (.trackerDisable req w) s = .next s ∧ exec (.resync req w) s = .next s) ∧
    (s.whlEn w = false → s.whlOk w = true → ∃ t, exec (.trackerEnable req w) s = .next t ∧ t.f (WHL_CTRL_EN w) = 1 ∧
      t.f (WHL_STATUS_STATE w) = 1 ∧ t.f (WHL_STATUS_REVERSE w) = 0 ∧ (t.wheel w).fifo = [] ∧ (t.wheel w).pos = none ∧
      (t.wheel w).hist = []) ∧
    (s.whlEn w = false → s.whlOk w = false → ∃ u t, exec (.trackerEnable req w) s = .next t ∧
      u.f (WHL_FLAGS_CFGERR w) = 1 ∧ OnlyNoted s u [WHL_FLAGS w] ∧ Refused reqCheck (WHL_CTRL w) u t) ∧
    (s.whlEn w = true → (∃ t, exec (.trackerDisable req w) s = .next t ∧ t.f (WHL_CTRL_EN w) = 0 ∧
        t.f (WHL_STATUS_STATE w) = 0 ∧ t.f (WHL_STATUS_CAUSE w) = 8 ∧ t.f (WHL_FLAGS_SYNCLOSS w) = 1 ∧
        (t.wheel w).fifo = [] ∧ (t.wheel w).pos = none) ∧
      ∃ t, exec (.resync req w) s = .next t ∧ t.f (WHL_CTRL_EN w) = 1 ∧ t.f (WHL_STATUS_STATE w) = 1 ∧
        t.f (WHL_STATUS_CAUSE w) = 7 ∧ t.f (WHL_FLAGS_SYNCLOSS w) = 1 ∧ (t.wheel w).pos = none)) ∧
  (∀ (req : Fin 4) (n : Fin 8192) (val : Word) (s : State),
    ((s.on dKILN = false ∨ s.ttLocked (ttAddr n) 4 = true) → ∃ t, exec (.toothTableWrite req n val) s = .next t ∧
      Refused req (0x80000000 + ttAddr n) s t) ∧
    (s.on dKILN = true → s.ttLocked (ttAddr n) 4 = false → s.bankUp 6 = true →
      ∃ t, exec (.toothTableWrite req n val) s = .next t ∧ t.memNat (ttAddr n) 4 = val.toNat ∧
        ∀ x, (x < ttAddr n ∨ ttAddr n + 4 ≤ x) → t.byte x = s.byte x) ∧
    (s.on dKILN = true → s.ttLocked (ttAddr n) 4 = false → s.bankUp 6 = false →
      ∃ t, exec (.toothTableWrite req n val) s = .next t ∧ t = { s with banks := t.banks } ∧
        (t.bank 6).pend = (s.bank 6).pend ++ [
          { r := bankReqOf req, stamp := 4 * s.mc, order := (s.bank 6).order
            use := .table req (ttAddr n) (leBytes 4 val.toNat) }])) ∧
  (∀ (req : Fin 4) (w : Fin 4) (val : Word) (s : State), s.reaches (WHL_CLR w) →
    ∃ t, exec (.whlClr req w val) s = .next t ∧ OnlyRegs s t [WHL_ERRCNT w, WHL_SEQ w] ∧
      t.f (WHL_ERRCNT_REJ w) = (if val.getLsbD 0 = true then min (s.noted (WHL_ERRCNT_REJ w)) 0xFFF
        else s.f (WHL_ERRCNT_REJ w)) ∧
      t.f (WHL_ERRCNT_DROP w) = (if val.getLsbD 0 = true then min (s.noted (WHL_ERRCNT_DROP w)) 0xFF
        else s.f (WHL_ERRCNT_DROP w)) ∧
      t.f (WHL_ERRCNT_LOSS w) = (if val.getLsbD 0 = true then min (s.noted (WHL_ERRCNT_LOSS w)) 0xFFF
        else s.f (WHL_ERRCNT_LOSS w)) ∧
      t.f (WHL_SEQ_SEQ w) = (if val.getLsbD 1 = true then 0 else s.f (WHL_SEQ_SEQ w))) ∧
  (∀ (p : Fin 8) (peak : Fin 4096) (fine : Fin 256) (s : State),
    ((s.isVr p = false ∨ s.phys (portDom p) = false ∨ 16 * peak.val ≤ s.vrThr p) → exec (.vrArm p peak fine) s = .next s) ∧
    (s.isVr p = true → s.phys (portDom p) = true → s.vrThr p < 16 * peak.val → ∃ t,
      exec (.vrArm p peak fine) s = .next t ∧ t.vrOf p = ⟨true, peak⟩ ∧ (t.port p).level = (s.port p).level ∧
      ((s.port p).level = false → (t.port p).raw = none) ∧
      ((s.port p).level = true → (s.port p).raw = none →
        ∃ r, (t.port p).raw = some r ∧ r.level = false ∧ r.stamp = s.pnow p + fc fine) ∧
      ((s.port p).level = true → (s.port p).raw ≠ none → (t.port p).raw = (s.port p).raw) ∧
      (∀ w : Fin 4, s.ownerOf p = 0x10 + w → s.f (WHL_INPUT_PPORT w) = p → t.f (WHL_VRPEAK_PEAK w) = peak)))

/-- Steps of a sheave unit move SHV_POS and stamp it, and each compare that they cross makes an event where it is enabled and not
blocked (R260, R279 to R282): a single-line quadrature change steps by the decode mode and DIRINV, and a change of both lines is
illegal (R261, R262); an index edge records the position and, against the last one, the drift (R264, R265). A sine and cosine pair
steps to its angle (R266, R267); four pairs outside the amplitude limits in a row lose the signal and POSVALID, four inside end the
loss (R268); large steps start count-only mode (R270), and a completed line refines the correction (R271). A comparator sample
steps to the edge of the next quadrant (R269). A serial frame drives its clock and samples its data bits (R272), and sets the position or
steps to it, and one with a wrong check is counted (R273, R274). The model's choices: the clock edges and the samples fall at the start
of their Mast cycles, and an SSI_FRAME_END that names other bits than those sampled is no end (log entry 69); a data edge is
seen 2 mc after it qualifies, and the sample boundaries of edges follow one reading (log entry 66); angles round halves up (log
entry 68). -/
def Obligations.SheavePositions : Prop :=
  (∀ (u : Fin 8) (s : State), (s.sheave u).load = none → (s.sheave u).cmpw = [] →
    ((s.shvRuns u = false ∨ s.phys dFCORE = false) → exec (.quadSample u) s = .next s) ∧
    (s.shvRuns u = true → s.phys dFCORE = true → s.f (SHV_CFG_MODE u) = 0 →
      (∀ (lvl : Bool) (tm : Time) (b filt : Nat) (d : Int), (s.sheave u).edges = [⟨0, lvl, some tm, b, filt⟩] →
        b ≤ s.mc → lvl ≠ (s.sheave u).a →
        d = quadStep (s.f (SHV_CFG_DECODE u)) (s.sheave u).a (s.sheave u).b lvl (s.sheave u).b *
          (if s.flag (SHV_CFG_DIRINV u) = true then -1 else 1) →
        ∃ t, exec (.quadSample u) s = .next t ∧ (t.sheave u).a = lvl ∧ (t.sheave u).edges = [] ∧
          (d = 0 → t.f (SHV_POS_POS u) = s.f (SHV_POS_POS u)) ∧ (d ≠ 0 → Stepped u d tm s t)) ∧
      (∀ (x y : ShvEdge), (s.sheave u).edges = [x, y] → x.line = 0 → y.line = 1 → x.bound = y.bound →
        x.bound ≤ s.mc → x.level ≠ (s.sheave u).a → y.level ≠ (s.sheave u).b →
        ∃ t, exec (.quadSample u) s = .next t ∧ t.f (SHV_FLAGS_ILLEGAL u) = 1 ∧
          t.f (SHV_ERRCNT_ILLEGAL u) = min (s.f (SHV_ERRCNT_ILLEGAL u) + 1) 0xFFFF ∧
          t.f (SHV_POS_POS u) = s.f (SHV_POS_POS u) ∧ (t.sheave u).a = x.level ∧ (t.sheave u).b = y.level))) ∧
  (∀ (u : Fin 8) (s : State) (lvl : Bool) (tm : Time) (b filt cpr q : Nat) (dd dr : Int) (accepted : Prop), (s.sheave u).load = none →
    (s.sheave u).cmpw = [] → s.shvRuns u = true → s.phys dFCORE = true → (s.sheave u).edges = [⟨2, lvl, some tm, b, filt⟩] →
    b ≤ s.mc → (accepted ↔ lvl ≠ s.flag (SHV_CFG_ZEDGE u) ∧ s.flag (SHV_CFG_IDXEN u) = true ∧ s.f (SHV_CFG_MODE u) ≠ 2 ∧
      (s.flag (SHV_CFG_IDXGATE u) = true → s.f (SHV_CFG_IDXSTATE u) = (s.sheave u).b.toNat * 2 + (s.sheave u).a.toNat)) →
    q = s.f (SHV_POS_POS u) → cpr = s.f (SHV_CPR_CPR u) → dd = wrapDiff 48 ((q : Int) - (s.sheave u).idxPrev) →
    dr = max (-(2 ^ 31)) (min (dd - roundAway dd cpr * cpr) (2 ^ 31 - 1)) →
    ∃ t, exec (.quadSample u) s = .next t ∧ t.f (SHV_POS_POS u) = q ∧
      (¬accepted → t.f (SHV_IDXPOS_POS u) = s.f (SHV_IDXPOS_POS u) ∧ t.f (SHV_FLAGS_INDEX u) = s.f (SHV_FLAGS_INDEX u)) ∧
      (accepted → t.f (SHV_IDXPOS_POS u) = q ∧ t.f (SHV_IDXTIME_TIME u) = tm.toNat ∧ t.f (SHV_FLAGS_INDEX u) = 1 ∧
        (t.sheave u).idxPrev = q ∧ t.f (SHV_STATUS_DRIFTVALID u) = 1 ∧
        (s.flag (SHV_STATUS_DRIFTVALID u) = true → cpr ≠ 0 → t.f (SHV_DRIFT_DRIFT u) = ofSigned 32 dr ∧
          (s.f (SHV_DRIFTTOL_TOL u) < dr.natAbs → t.f (SHV_FLAGS_DRIFT u) = 1)) ∧
        ((s.flag (SHV_STATUS_DRIFTVALID u) = false ∨ cpr = 0) → t.f (SHV_DRIFT_DRIFT u) = s.f (SHV_DRIFT_DRIFT u)))) ∧
  (∀ (u : Fin 8) (sn cs : BitVec 14) (s : State) (s1 c1 c2 d : Int) (r : Nat),
    s1 = sn.toInt - s.sofs u → c1 = ((cs.toInt - s.cofs u) * s.gain u).tdiv 32768 →
    c2 = c1 - (s1 * s.phi u).tdiv 32768 → r = roundSqrt (s1 * s1 + c2 * c2).toNat →
    d = wrapDiff 12 ((theta u s1 c2 : Int) - s.f (SHV_POS_POS u)) →
    ((s.shvRuns u = false ∨ s.phys dFCORE = false ∨ s.f (SHV_CFG_MODE u) ≠ 1 ∨ s.now.toNat / 256 % 20 ≠ 12) →
      exec (.sincosPair u sn cs) s = .next s) ∧
    (s.shvRuns u = true → s.phys dFCORE = true → s.f (SHV_CFG_MODE u) = 1 → s.now.toNat / 256 % 20 = 12 →
      (s.sheave u).load = none → (s.sheave u).cmpw = [] → (s.sheave u).lost = false →
      s.flag (SHV_STATUS_COUNTONLY u) = false → s.f (SHV_SCLIM_AMIN u) ≤ r → r ≤ s.f (SHV_SCLIM_AMAX u) →
      ∃ t, exec (.sincosPair u sn cs) s = .next t ∧ t.f (SHV_SCAMP_AMP u) = r ∧ (t.sheave u).badN = 0 ∧
        (d = 0 → t.f (SHV_POS_POS u) = s.f (SHV_POS_POS u)) ∧ (d ≠ 0 → Stepped u d (s.now - 3072) s t) ∧
        ((1024 ≤ d.natAbs ∨ 205 ≤ d.natAbs ∧ 7 ≤ (s.sheave u).fastN) → t.f (SHV_STATUS_COUNTONLY u) = 1 ∧
          (t.sheave u).fresh = true) ∧
        (d.natAbs < 1024 → (d.natAbs < 205 ∨ (s.sheave u).fastN < 7) → t.f (SHV_STATUS_COUNTONLY u) = 0) ∧
        (∀ (l : ShvLine) (k : Nat) (so co ga ph : Int), (s.sheave u).line = some l → k = s.f (SHV_SCADAPT_ADAPTK u) →
          so = (l.smax + l.smin).tdiv 2 → co = (l.cmax + l.cmin).tdiv 2 → l.cmax ≠ l.cmin →
          (l.smax - l.smin).tdiv 2 ≠ 0 → ga = (32768 * (l.smax - l.smin)).tdiv (l.cmax - l.cmin) →
          ph = (32768 * ((l.cpk - co) * ga).tdiv 32768).tdiv ((l.smax - l.smin).tdiv 2) →
          (s.flag (SHV_SCADAPT_AUTO u) = true → 40 ≤ l.pairs → l.rev = decide (d < 0) →
            s.f (SHV_POS_POS u) / 4096 ≠ ofSigned 48 (s.f (SHV_POS_POS u) + d) / 4096 →
            t.f (SHV_SCOFS_SOFS u) = ofSigned 16 (s.sofs u + (so - s.sofs u) / 2 ^ k) ∧
            t.f (SHV_SCOFS_COFS u) = ofSigned 16 (s.cofs u + (co - s.cofs u) / 2 ^ k) ∧
            t.f (SHV_SCCORR_GAIN u) = ofSigned 16 (s.f (SHV_SCCORR_GAIN u) + (ga - s.f (SHV_SCCORR_GAIN u)) / 2 ^ k) ∧
            t.f (SHV_SCCORR_PHI u) = ofSigned 16 (s.phi u + (ph - s.phi u) / 2 ^ k)) ∧
          ((s.flag (SHV_SCADAPT_AUTO u) = false ∨ l.pairs < 40) → t.reg (SHV_SCOFS u) = s.reg (SHV_SCOFS u) ∧
            t.reg (SHV_SCCORR u) = s.reg (SHV_SCCORR u)))) ∧
    (∀ out : Prop, (out ↔ r < s.f (SHV_SCLIM_AMIN u) ∨ s.f (SHV_SCLIM_AMAX u) < r) → s.shvRuns u = true → s.phys dFCORE = true →
      s.f (SHV_CFG_MODE u) = 1 → s.now.toNat / 256 % 20 = 12 → (s.sheave u).load = none → (s.sheave u).cmpw = [] →
      ∃ t, exec (.sincosPair u sn cs) s = .next t ∧ (r < 2 ^ 14 → t.f (SHV_SCAMP_AMP u) = r) ∧
        (out → (s.sheave u).lost = false → 3 ≤ (s.sheave u).badN → t.f (SHV_FLAGS_SIGLOSS u) = 1 ∧ (t.sheave u).lost = true ∧
          t.f (SHV_STATUS_POSVALID u) = 0 ∧ t.f (SHV_POS_POS u) = s.f (SHV_POS_POS u)) ∧
        ((s.sheave u).lost = true → (out ∨ (s.sheave u).goodN < 3) → (t.sheave u).lost = true ∧
          t.f (SHV_POS_POS u) = s.f (SHV_POS_POS u)) ∧
        (¬out → (s.sheave u).lost = true → 3 ≤ (s.sheave u).goodN → (t.sheave u).lost = false))) ∧
  (∀ (u : Fin 8) (sneg clow : Bool) (s : State) (q p : Nat), q = quadrantOf sneg clow → p = s.f (SHV_POS_POS u) →
    ((s.shvRuns u = false ∨ s.phys dFCORE = false ∨ s.f (SHV_CFG_MODE u) ≠ 1 ∨ s.flag (SHV_STATUS_COUNTONLY u) = false) →
      exec (.comparatorSample u sneg clow) s = .next s) ∧
    (s.shvRuns u = true → s.phys dFCORE = true → s.f (SHV_CFG_MODE u) = 1 → s.flag (SHV_STATUS_COUNTONLY u) = true →
      (s.sheave u).load = none → (s.sheave u).cmpw = [] → ∃ t, exec (.comparatorSample u sneg clow) s = .next t ∧
        (t.sheave u).quad = q ∧ (t.sheave u).fresh = false ∧
        (((s.sheave u).fresh = true ∨ (s.sheave u).lost = true ∨ q = (s.sheave u).quad) → t.f (SHV_POS_POS u) = p) ∧
        ((s.sheave u).fresh = false → (s.sheave u).lost = false → (s.sheave u).quad < 4 →
          (q = ((s.sheave u).quad + 1) % 4 →
            Stepped u (1024 * ((p / 1024 + 1 : Nat) : Int) - p) (s.now - 512) s t) ∧
          (q = ((s.sheave u).quad + 3) % 4 →
            Stepped u (1024 * ((p / 1024 : Nat) : Int) - 1 - p) (s.now - 512) s t) ∧
          (q = ((s.sheave u).quad + 2) % 4 → t.f (SHV_FLAGS_ILLEGAL u) = 1 ∧ t.f (SHV_POS_POS u) = p)))) ∧
  (∀ (u : Fin 8) (s : State) (f0 : Nat) (l : List Nat) (x : Port) (data : Bool), (s.sheave u).starts = f0 :: l →
    x = s.port (s.f (SHV_INPUT_APORT u)) → data = ((x.told.find? fun q => decide (s.mc ≤ q.1)).map fun q => !q.2).getD x.level →
    ((s.mc < f0 ∨ s.shvRuns u = false ∨ s.f (SHV_CFG_MODE u) ≠ 2 ∨ s.phys dFCORE = false) →
      exec (.ssiFrameStart u) s = .next s) ∧
    (f0 ≤ s.mc → s.shvRuns u = true → s.f (SHV_CFG_MODE u) = 2 → s.phys dFCORE = true →
      ∃ t, exec (.ssiFrameStart u) s = .next t ∧ (t.sheave u).starts = l ∧
        ((s.sheave u).frame.isSome = true → t.f (SHV_FLAGS_FRAMESKIP u) = 1 ∧ (t.sheave u).frame = (s.sheave u).frame) ∧
        ((s.sheave u).frame = none → data = false →
          t.f (SHV_FLAGS_NOTREADY u) = 1 ∧ (t.sheave u).frame = none) ∧
        ((s.sheave u).frame = none → data = true →
          t.f (SHV_STATUS_FRAMEBUSY u) = 1 ∧ (t.sheave u).frame = some f0 ∧
          (t.port (s.f (SHV_INPUT_BPORT u))).out = false))) ∧
  (∀ (u : Fin 8) (s : State) (f0 h : Nat) (x : Port), (s.sheave u).frame = some f0 → x = s.port (s.f (SHV_INPUT_APORT u)) → h = s.f (SHV_SSITIM_HALF u) → 0 < h →
    (∀ j, 1 ≤ j → j ≤ 2 * s.ssiBits u + 1 → s.mc = f0 + j * h →
      ((ssiBoundary u s).port (s.f (SHV_INPUT_BPORT u))).out = decide (j % 2 = 1)) ∧
    (∀ k, 1 ≤ k → k ≤ s.ssiBits u → s.mc = f0 + 2 * k * h + s.f (SHV_SSICFG_DELAY u) →
      ((ssiBoundary u s).sheave u).bits = (s.sheave u).bits ++
        [((x.told.find? fun q => decide (s.mc ≤ q.1)).map fun q => !q.2).getD x.level])) ∧
  (∀ (u : Fin 8) (s : State) (f0 n k v w : Nat) (l : List Bool), (s.sheave u).frame = some f0 → l = (s.sheave u).bits →
    n = s.f (SHV_SSICFG_DBITS u) → k = s.f (SHV_SSICFG_CRCBITS u) → v = bitsNat l →
    w = (if s.flag (SHV_SSICFG_GRAY u) = true then fromGray n (bitsOf v k n) else bitsOf v k n) →
    (∀ b, (s.mc < f0 + s.ssiBusy u ∨ s.shvRuns u = false ∨ b ≠ BitVec.ofNat 64 v) → exec (.ssiFrameEnd u b) s = .next s) ∧
    (f0 + s.ssiBusy u ≤ s.mc → s.shvRuns u = true → (s.sheave u).load = none → (s.sheave u).cmpw = [] →
      ∃ t, exec (.ssiFrameEnd u (BitVec.ofNat 64 v)) s = .next t ∧ t.f (SHV_STATUS_FRAMEBUSY u) = 0 ∧ (t.sheave u).frame = none ∧
        t.f (SHV_SSIRAW_BITS u) = v % 2 ^ 63 ∧
        (k ≠ 0 → ssiCrc k (s.f (SHV_SSICRC_POLY u)) (s.flag (SHV_SSICFG_CRCINV u))
            ((l.drop (s.f (SHV_SSICFG_SKIP u))).take n) ≠ v % 2 ^ k →
          t.f (SHV_FLAGS_CRCERR u) = 1 ∧ t.f (SHV_ERRCNT_CRC u) = min (s.f (SHV_ERRCNT_CRC u) + 1) 0xFF ∧
          t.f (SHV_POS_POS u) = s.f (SHV_POS_POS u)) ∧
        ((k = 0 ∨ ssiCrc k (s.f (SHV_SSICRC_POLY u)) (s.flag (SHV_SSICFG_CRCINV u))
            ((l.drop (s.f (SHV_SSICFG_SKIP u))).take n) = v % 2 ^ k) →
          (((s.sheave u).first = true ∨ s.flag (SHV_STATUS_POSVALID u) = false) →
            t.f (SHV_POS_POS u) = w % 2 ^ 48 ∧ t.f (SHV_STATUS_POSVALID u) = 1) ∧
          ((s.sheave u).first = false → s.flag (SHV_STATUS_POSVALID u) = true →
            ∀ d, d = wrapDiff n ((w : Int) - s.f (SHV_POS_POS u)) →
            (d = 0 → t.f (SHV_POS_POS u) = s.f (SHV_POS_POS u)) ∧ (d ≠ 0 → Stepped u d (s.timeOfB f0) s t)))))

/-- Enabling a sheave unit that is set up right applies a waiting load and starts it with speed 0 and the levels of its inputs, and
otherwise sets CFGERR and is refused (R257, R275). A stop clears EN, and at the next Mast boundary the unit stops: POSVALID and the
speed become 0, what waits is discarded, a frame is abandoned and the clock output returns to 1, and the position holds (R258). A load of
SHV_POS and a compare value wait for the next sample boundary, but for a load of a running unit that reads frames (R275, R281). A
speed window gives the speed of its steps, and ends count-only mode below its limit (R270, R276); STILL sets in without steps (R278).
SHV_CLR clears the counts it selects (R289). That a unit whose stop has not come stops before it is enabled again is the model's
choice (log entry 98). -/
def Obligations.SheaveControl : Prop :=
  (∀ (req : Fin 4) (u : Fin 8) (s : State), s.reaches (SHV_CTRL u) →
    (s.shvEn u = true → exec (.sheaveEnable req u) s = .next s) ∧
    (s.shvEn u = false → ∃ t, exec (.sheaveStop req u) s = .next t ∧ ReadsAs s t) ∧
    (s.shvEn u = false → s.shvOk u = true → ∃ t, exec (.sheaveEnable req u) s = .next t ∧ t.f (SHV_CTRL_EN u) = 1 ∧
      t.f (SHV_STATUS_RUNNING u) = 1 ∧ t.f (SHV_SPEED_SPEED u) = 0 ∧ t.f (SHV_STATUS_DRIFTVALID u) = 0 ∧
      t.f (SHV_STATUS_COUNTONLY u) = 0 ∧ (t.sheave u).a = (s.port (s.f (SHV_INPUT_APORT u))).level ∧
      (t.sheave u).b = (s.port (s.f (SHV_INPUT_BPORT u))).level ∧ (t.sheave u).first = true ∧ (t.sheave u).edges = [] ∧
      (t.sheave u).load = none ∧ ((s.sheave u).load = none → t.f (SHV_POS_POS u) = s.f (SHV_POS_POS u)) ∧
      ∀ v, (s.sheave u).load = some v → t.f (SHV_POS_POS u) = v % 2 ^ 48 ∧ t.f (SHV_STATUS_POSVALID u) = 1) ∧
    (s.shvEn u = false → s.shvOk u = false → ∃ v t, exec (.sheaveEnable req u) s = .next t ∧
      v.f (SHV_FLAGS_CFGERR u) = 1 ∧ OnlyNoted s v [SHV_FLAGS u] ∧ Refused reqCheck (SHV_CTRL u) v t) ∧
    (s.shvEn u = true → ∃ t, exec (.sheaveStop req u) s = .next t ∧ t.f (SHV_CTRL_EN u) = 0 ∧ OnlyRegs s t [SHV_CTRL u])) ∧
  (∀ (u : Fin 8) (s : State), s.shvEn u = false → s.shvRuns u = true → (s.sheave u).load = none → (s.sheave u).cmpw = [] →
    s.ep.queue = [] → s.ep.held = [] → ∃ t, exec .mastCycle s = .next t ∧ t.f (SHV_CTRL_EN u) = 0 ∧
      t.f (SHV_STATUS_RUNNING u) = 0 ∧ t.f (SHV_STATUS_POSVALID u) = 0 ∧ t.f (SHV_SPEED_SPEED u) = 0 ∧
      t.f (SHV_POS_POS u) = s.f (SHV_POS_POS u) ∧ (t.sheave u).edges = [] ∧ (t.sheave u).frame = none ∧
      (t.sheave u).starts = [] ∧ (t.sheave u).recs = (s.sheave u).recs ∧
      (s.f (SHV_CFG_MODE u) = 2 → s.phys dFCORE = true → (∀ x ∈ s.ports, x.2.later = [] ∧ x.2.acc = none) →
        (∀ v, v ≠ u.val → (s.sheave v).frame = none) → (t.port (s.f (SHV_INPUT_BPORT u))).out = true)) ∧
  (∀ (req : Fin 4) (u : Fin 8) (val : DWord) (s : State), s.reaches (SHV_POS u) →
    (s.shvRuns u = true → s.f (SHV_CFG_MODE u) = 2 → ∃ t, exec (.positionLoad req u val) s = .next t ∧
      t.f (SHV_POS_POS u) = val.toNat % 2 ^ 48 ∧ t.f (SHV_STATUS_POSVALID u) = 1 ∧ t.f (SHV_STATUS_DRIFTVALID u) = 0 ∧
      t = { s with regs := t.regs, sheaves := t.sheaves }) ∧
    ((s.shvRuns u = false ∨ s.f (SHV_CFG_MODE u) ≠ 2) → exec (.positionLoad req u val) s =
      .next (s.modSheave u fun x => { x with load := some (val.toNat % 2 ^ 48) }))) ∧
  (∀ (req : Fin 4) (u : Fin 8) (c : Fin 16) (val : DWord) (s : State), s.reaches (SHV_CMPVAL u c) →
    ∃ t, exec (.compareValueWrite req u c val) s = .next t ∧ t = { s with sheaves := t.sheaves } ∧
      (∀ v, v ≠ u.val → t.sheave v = s.sheave v) ∧ t.sheave u = { s.sheave u with cmpw := (t.sheave u).cmpw } ∧
      mget (t.sheave u).cmpw c 0 = BitVec.ofNat 64 (val.toNat % 2 ^ 48) ∧
      ∀ k, k ≠ c.val → mget (t.sheave u).cmpw k 0 = mget (s.sheave u).cmpw k 0) ∧
  (∀ (u : Fin 8) (s : State),
    (((s.sheave u).winAt = none ∨ s.shvRuns u = false ∨ ∃ w, (s.sheave u).winAt = some w ∧ s.mc < w) →
      exec (.speedWindow u) s = .next s) ∧
    (∀ w v r, (s.sheave u).winAt = some w → w ≤ s.mc → s.shvRuns u = true →
      newSpeed (s.sheave u) (s.flag (SHV_STATUS_DIR u)) (s.speed u) (s.timeOfB w) = (v, r) →
      ∃ t, exec (.speedWindow u) s = .next t ∧
        (t.sheave u).winAt = (if s.f (SHV_SPDCFG_SPDWIN u) = 0 then none else some (w + s.f (SHV_SPDCFG_SPDWIN u))) ∧
        (s.flag (SHV_STATUS_STILL u) = false → t.f (SHV_SPEED_SPEED u) = ofSigned 64 v ∧ (t.sheave u).ref = r) ∧
        (s.flag (SHV_STATUS_STILL u) = true → t.f (SHV_SPEED_SPEED u) = s.f (SHV_SPEED_SPEED u) ∧
          (t.sheave u).ref = (s.sheave u).ref) ∧
        t.f (SHV_STATUS_COUNTONLY u) = (if (t.speed u).natAbs < 450000 * 4096 * 65536 then 0 else s.f (SHV_STATUS_COUNTONLY u)) ∧
        t.f (SHV_POS_POS u) = s.f (SHV_POS_POS u)) ∧
    (∀ b n, (s.sheave u).lastB = some b → n = s.f (SHV_SPDCFG_STILL u) →
      ((n = 0 ∨ s.shvRuns u = false ∨ s.flag (SHV_STATUS_STILL u) = true ∨ s.mc < b + 200 * n) →
        exec (.standstill u) s = .next s) ∧
      (n ≠ 0 → s.shvRuns u = true → s.flag (SHV_STATUS_STILL u) = false → b + 200 * n ≤ s.mc →
        ∃ t, exec (.standstill u) s = .next t ∧ t.f (SHV_SPEED_SPEED u) = 0 ∧ t.f (SHV_STATUS_STILL u) = 1 ∧
          (t.sheave u).ref = none ∧ t.f (SHV_POS_POS u) = s.f (SHV_POS_POS u)))) ∧
  (∀ (req : Fin 4) (u : Fin 8) (val : Word) (s : State), s.reaches (SHV_CLR u) →
    ∃ t, exec (.shvClr req u val) s = .next t ∧ OnlyRegs s t [SHV_ERRCNT u, SHV_SEQ u] ∧
      t.f (SHV_ERRCNT_ILLEGAL u) = (if val.getLsbD 0 = true then min (s.noted (SHV_ERRCNT_ILLEGAL u)) 0xFFFF
        else s.f (SHV_ERRCNT_ILLEGAL u)) ∧
      t.f (SHV_ERRCNT_CRC u) = (if val.getLsbD 0 = true then min (s.noted (SHV_ERRCNT_CRC u)) 0xFF
        else s.f (SHV_ERRCNT_CRC u)) ∧
      t.f (SHV_ERRCNT_FRAME u) = (if val.getLsbD 0 = true then min (s.noted (SHV_ERRCNT_FRAME u)) 0xFF
        else s.f (SHV_ERRCNT_FRAME u)) ∧
      t.f (SHV_SEQ_SEQ u) = (if val.getLsbD 1 = true then 0 else s.f (SHV_SEQ_SEQ u)))

/-! ### The Rigging matrix and the banks -/

/-- A pulse of a route entry that comes due reaches its destination, once in a Mast cycle (R293 to R295): an event input of an
engine or of CE16 in its place (R121), a DMA trigger (R324), an arm input (R197) or an interrupt tap (R307), which sends its
message, leaves it pending while the vector is masked, or defers it in the holdoff (R307). The field section takes the
committed entries later, over the Stay link (R16, R297). Software pulses come in the next cycle, and the clears keep what falls in their own cycle
(R311, R313). RD moves no further than the records written, and the capture writer starts only with a valid ring (R303,
R305). -/
def Obligations.PulsesAreDelivered : Prop :=
  (∀ (n : Fin 1024) (s u : State) (d : Nat) (l : List Nat),
    (takeDue s.mc (mget s.rig.flight n []) = some l ∧ d = rtDst (s.reg64 (RIG_ROUTE n)) ∧
        u = { s with rig.flight := mset s.rig.flight n l [] } ∨
      takeDue s.mc (mget s.rig.flight n []) = none ∧ takeDue s.mc (mget s.rig.fflight n []) = some l ∧
        d = rtDst (mget s.rig.field n 0).toNat ∧ u = { s with rig.fflight := mset s.rig.fflight n l [] }) →
    (mget s.rig.reached d 0 = s.mc + 1 → exec (.routeDelivery n) s = .next u) ∧
    (mget s.rig.reached d 0 ≠ s.mc + 1 → ∃ t, exec (.routeDelivery n) s = .next t ∧ t.mem = s.mem ∧
      mget t.rig.reached d 0 = s.mc + 1 ∧ t.rig.flight = u.rig.flight ∧ t.rig.fflight = u.rig.fflight ∧
      (∀ e, d < 0x80 → e = (if s.spare.standFor = some (d / 8) then 16 else d / 8) → s.on (engDom e) = true →
        (t.eng e).evin = (s.eng e).evin ||| 2 ^ (d % 8) ∧ ∀ k, k ≠ e → t.eng k = s.eng k) ∧
      (∀ c, c < 32 → d = 0x80 + c → s.flag (HLY_CCTRL_EN c) = true → s.on dDMA = true → t.f (HLY_CSTAT_TRIGPEND c) = 1 ∧
        (s.flag (HLY_CSTAT_TRIGPEND c) = true → t.f (HLY_CSTAT_TRIGOVF c) = 1)) ∧
      (∀ p, p < 96 → d = 0xA0 + p → s.portEn p = true → s.phys (portDom p) = true →
        t.port p = { s.port p with arm := (s.port p).arm ++ [s.mc] } ∧ ∀ q, q ≠ p → t.port q = s.port q) ∧
      (∀ v, v < 64 → d = 0x100 + v → t.f (RIG_TAP_COUNT v) = min (s.f (RIG_TAP_COUNT v) + 1) 0xFFFF ∧
        ((s.tap v).holdEnd = none → s.msixOn = true → s.msixMasked v = false → t.ep.sent = s.ep.sent ++ [⟨.msix v, { rid := s.ep.rid }⟩]) ∧
        ((s.tap v).holdEnd = none → s.msixOn = true → s.msixMasked v = true → v ∈ t.ep.pba ∧ t.ep.sent = s.ep.sent) ∧
        ((s.tap v).holdEnd.isSome = true → s.msixOn = true → (t.tap v).deferred = true ∧ t.ep.sent = s.ep.sent)))) ∧
  (∀ (n : Fin 1024) (s : State), takeDue s.mc (mget s.rig.flight n []) = none →
    takeDue s.mc (mget s.rig.fflight n []) = none → exec (.routeDelivery n) s = .next s) ∧
  (∀ s : State, (∀ old, (routesApplied old s).rig.fapply = if s.on dFCORE = true then s.rig.fapply ++
      [(s.mc + 32, (s.routes.filter fun p => rtEn p.2 && fieldCarried p.2).map fun p => (p.1, BitVec.ofNat 64 p.2))]
      else s.rig.fapply) ∧
    ((s.rig.fapply = [] ∨ s.stay.trainAt.isSome = true ∨ ∃ m new l, s.rig.fapply = (m, new) :: l ∧ s.mc < m) →
      exec .fieldRouteApply s = .next s) ∧
    (∀ m new l, s.rig.fapply = (m, new) :: l → m ≤ s.mc → s.stay.trainAt = none →
      (s.linked = false ∨ s.phys dFCORE = false) → exec .fieldRouteApply s = .next { s with rig.fapply := l }) ∧
    (∀ m new l, s.rig.fapply = (m, new) :: l → m ≤ s.mc → s.stay.trainAt = none → s.linked = true →
      s.phys dFCORE = true → ∃ t, exec .fieldRouteApply s = .next t ∧
      t = { s with rig := t.rig, regs := t.regs, hwNow := t.hwNow } ∧ SameRegs s t [RIG_STATUS, RIG_DLYINFO] ∧
      t.rig.fapply = l ∧ t.rig.flight = s.rig.flight ∧ t.rig.field = new)) ∧
  (∀ (v : Fin 64) (s : State),
    (((s.tap v).holdEnd = none ∨ ∃ m, (s.tap v).holdEnd = some m ∧ s.mc < m) → exec (.holdoffEnd v) s = .next s) ∧
    (∀ m, (s.tap v).holdEnd = some m → m ≤ s.mc → ∃ t, exec (.holdoffEnd v) s = .next t ∧
      (t.tap v).deferred = false ∧ t.mem = s.mem ∧ t.regs = s.regs ∧
      ((s.tap v).deferred = false → t.ep = s.ep ∧ (t.tap v).holdEnd = none) ∧
      ((s.tap v).deferred = true → s.msixOn = true → s.msixMasked v = false → t.ep.sent = s.ep.sent ++ [⟨.msix v, { rid := s.ep.rid }⟩] ∧
        (t.tap v).holdEnd = if s.f (RIG_TAP_HOLDOFF v) = 0 then none else some (s.mc + 200 * s.f (RIG_TAP_HOLDOFF v))))) ∧
  (∀ (v : Fin 64) (s : State),
    (s.on dHOST = false → exec (.msixUnmask v) s = .next s) ∧
    (s.on dHOST = true → ∃ t, exec (.msixUnmask v) s = .next t ∧ t.msixWord (16 * v + 12) = 0 ∧
      (s.ep.pba.contains v.val = true → s.ep.msixEn = true → s.ep.funcMask = false →
        t.ep.sent = s.ep.sent ++ [⟨.msix v, { rid := s.ep.rid }⟩] ∧ t.ep.pba = s.ep.pba.erase v) ∧
      ((s.ep.pba.contains v.val = false ∨ s.ep.msixEn = false ∨ s.ep.funcMask = true) →
        t.ep.sent = s.ep.sent ∧ t.ep.pba = s.ep.pba))) ∧
  (∀ (req : Fin 4) (val : Word) (s : State), s.reaches RIG_SWPULSE →
    ∃ t, exec (.softwarePulse req val) s = .next t ∧ t = { s with rig.sched := t.rig.sched } ∧
      ∀ k, k < 8 → val.getLsbD k = true → (0x248 + k, s.mc + 1) ∈ t.rig.sched) ∧
  (∀ (src m : Nat) (s : State), (src, m) ∈ s.rig.sched → m ≤ s.mc → srcAssigned src = true →
    mget (pulsesDue s).rig.pulsed src 0 = s.mc + 1 ∧ (src, m) ∉ (pulsesDue s).rig.sched) ∧
  (∀ (req : Fin 4) (val : Word) (s : State), s.reaches RIG_CLR →
    ∃ t, exec (.rigClr req val) s = .next t ∧ SameRegs s t [RIG_DLYINFO, RIG_CWDROP, RIG_LANECNT 0, RIG_LANECNT 1,
        RIG_LANECNT 2, RIG_LANECNT 3] ∧ t = { s with regs := t.regs } ∧
      t.f RIG_DLYINFO_COUNT = (if val.getLsbD 0 = true then min (s.noted RIG_DLYINFO_COUNT) 0xFFFF
        else s.f RIG_DLYINFO_COUNT) ∧
      t.f RIG_DLYINFO_ENTRY = (if val.getLsbD 0 = true ∧ s.noted RIG_DLYINFO_COUNT = 0 then 0 else s.f RIG_DLYINFO_ENTRY) ∧
      t.f RIG_CWDROP_COUNT = (if val.getLsbD 1 = true then min (s.noted RIG_CWDROP_COUNT) 0xFFFFFFFF
        else s.f RIG_CWDROP_COUNT) ∧
      ∀ k, k < 4 → t.f (RIG_LANECNT_COUNT k) = if val.getLsbD 2 = true then min (s.noted (RIG_LANECNT_COUNT k)) 0xFFFFFFFF
        else s.f (RIG_LANECNT_COUNT k)) ∧
  (∀ (req : Fin 4) (v : Fin 64) (s : State), s.reaches RIG_TAPCLR →
    ∃ t, exec (.tapClear req v) s = .next t ∧ OnlyRegs s t [RIG_TAP v] ∧
      t.f (RIG_TAP_COUNT v) = min (s.noted (RIG_TAP_COUNT v)) 0xFFFF ∧
      t.f (RIG_TAP_HOLDOFF v) = s.f (RIG_TAP_HOLDOFF v)) ∧
  (∀ (req : Fin 4) (val : Word) (s : State) (n : Nat), s.reaches RIG_CWRD →
    n = (s.f RIG_CWWR_WR + 2 ^ 32 - val.toNat) % 2 ^ 32 →
    (s.f RIG_CWLEN_LEN < n → ∃ t, exec (.cwrdWrite req val) s = .next t ∧ Refused req RIG_CWRD s t) ∧
    (n ≤ s.f RIG_CWLEN_LEN → ∃ t, exec (.cwrdWrite req val) s = .next t ∧ t.reg RIG_CWRD = val ∧
      OnlyRegs s t [RIG_CWRD])) ∧
  (∀ (req : Fin 4) (s : State) (len base : Nat), s.reaches RIG_CWCFG → len = s.f RIG_CWLEN_LEN →
    base = s.f RIG_CWBASE_BASE →
    (s.flag RIG_CWCFG_EN = true → exec (.captureWriterEnable req) s = .next s) ∧
    (s.flag RIG_CWCFG_EN = false → len ≠ 0 → len % 256 = 0 → base % 256 = 0 → base + len ≤ 262144 →
      ∃ t, exec (.captureWriterEnable req) s = .next t ∧ t.f RIG_CWCFG_EN = 1 ∧ t.f RIG_CWWR_WR = 0 ∧
        t.f RIG_CWRD_RD = 0 ∧ OnlyRegs s t [RIG_CWCFG, RIG_CWWR, RIG_CWRD]) ∧
    (s.flag RIG_CWCFG_EN = false → (len = 0 ∨ len % 256 ≠ 0 ∨ base % 256 ≠ 0 ∨ 262144 < base + len) →
      ∃ u t, exec (.captureWriterEnable req) s = .next t ∧ u.f RIG_STATUS_CFGERR = 1 ∧ OnlyNoted s u [RIG_STATUS] ∧
        Refused reqCheck RIG_CWCFG u t))

/-- At the last beat of a burst or on an idle bank the arbiter grants the oldest request of the highest class that has arrived
and whose window is open, for one burst (R359 to R361, R364), and a far access whose beat is granted has been served; a bank that is off, clears or is busy grants nothing (R347,
R352). The scrubber asks for a beat at its interval, and its beat corrects the words of its line that can be corrected (R351). A clear
ends at its time (R352, R353). ECC injection and the scrub interval are set (R354, R368), and the clears keep what falls in
their own cycle (R368, R371). -/
def Obligations.BanksGrantScrubAndClear : Prop :=
  (∀ (b : Fin 9) (q : Fin 4) (s : State) (now c : Nat) (l : List BankReq), s.ep.queue = [] → s.ep.held = [] → now = 4 * s.mc + q →
    c = (if now < (s.bank b).freeAt then now + 1 else now) →
    l = ((s.bank b).pend.filter fun x => decide (x.stamp ≤ now) && decide (c ≤ x.last.getD c)) →
    ((s.bankUp b = false ∨ now + 1 < (s.bank b).freeAt) → exec (.bankDecision b q) s = .next s) ∧
    (s.bankUp b = true → (s.bank b).freeAt ≤ now + 1 → l = [] →
      exec (.bankDecision b q) s = .next (s.modBank b fun y => { y with seen := now })) ∧
    (s.bankUp b = true → (s.bank b).freeAt ≤ now + 1 → l ≠ [] → ∃ x t, x ∈ l ∧ exec (.bankDecision b q) s = .next t ∧
      t = grant b c x (s.modBank b fun y => { y with seen := now, pend := y.pend.erase x }) ∧
      (∀ y ∈ l, classAt s b y.r ≤ classAt s b x.r ∧ (classAt s b y.r = classAt s b x.r → x.stamp ≤ y.stamp)) ∧
      (t.bank b).freeAt = c + burstLen s b x ∧
      (∀ e, x.use = .far e → x.beats = burstLen s b x → ∃ y ∈ (t.bank b).served, y.use = .far e ∧ y.first = some (x.first.getD c)) ∧
      (x.use = .occupy → t.mem = s.mem) ∧
      (x.use = .scrub → (t.bank b).line = ((s.bank b).line + 1) % (bankSize b / 16) ∧
        ∀ w ∈ wordsAt (eccSize b) (bankBase b + 16 * (s.bank b).line) 16, s.wordErr w = 1 → t.wordErr w = 0))) ∧
  (∀ (b : Fin 9) (s : State) (iv : Nat), iv = s.f SAG_SCRUB_INTERVAL →
    ((s.on (bankDom b) = false ∨ iv = 0 ∨ s.mc < (s.bank b).scrubAt.getD iv ∨ ∃ q ∈ (s.bank b).pend, q.use = .scrub) →
      exec (.scrub b) s = .next s) ∧
    (s.on (bankDom b) = true → iv ≠ 0 → (s.bank b).scrubAt.getD iv ≤ s.mc → (∀ q ∈ (s.bank b).pend, q.use ≠ .scrub) →
      ∃ t, exec (.scrub b) s = .next t ∧ t = { s with banks := t.banks } ∧ (t.bank b).scrubAt = some (s.mc + iv) ∧
        (t.bank b).pend = (s.bank b).pend ++ [{ r := 10, stamp := 4 * s.mc, order := (s.bank b).order, use := .scrub }])) ∧
  (∀ (b : Fin 9) (s : State) (i : Instr), (i = .bankClearEnd b ∨ b = 8 ∧ i = .sgsWipeEnd) →
    (s.flag (bitFld SAG_BUSY_CLEARING b) = true → (s.bank b).clearTo ≤ 4 * s.mc + 3 → ∃ t, exec i s = .next t ∧
      t.f (bitFld SAG_BUSY_CLEARING b) = 0 ∧ OnlyRegs s t [SAG_BUSY] ∧
      ∀ k : Fin 9, k ≠ b → t.f (bitFld SAG_BUSY_CLEARING k) = s.f (bitFld SAG_BUSY_CLEARING k)) ∧
    ((s.flag (bitFld SAG_BUSY_CLEARING b) = false ∨ 4 * s.mc + 3 < (s.bank b).clearTo) → exec i s = .next s)) ∧
  (∀ (req : Fin 4) (val : Word) (s : State), s.reaches SAG_ECCINJ →
    ((val.getLsbD 0 = false ∨ bitsOf val.toNat 8 4 < 8) → ∃ t, exec (.eccInject req val) s = .next t ∧
      t.f SAG_ECCINJ_ARM = val.toNat % 2 ∧ t.f SAG_ECCINJ_DOUBLE = bitsOf val.toNat 1 1 ∧
      t.f SAG_ECCINJ_BANK = bitsOf val.toNat 8 4 ∧ OnlyRegs s t [SAG_ECCINJ]) ∧
    (val.getLsbD 0 = true → 8 ≤ bitsOf val.toNat 8 4 → ∃ t, exec (.eccInject req val) s = .next t ∧
      Refused req SAG_ECCINJ s t)) ∧
  (∀ (req : Fin 4) (val : Word) (s : State), s.reaches SAG_SCRUB →
    ∃ t, exec (.scrubIntervalWrite req val) s = .next t ∧ t.f SAG_SCRUB_INTERVAL = val.toNat % 2 ^ 16 ∧
      t = { s with regs := t.regs, banks := t.banks } ∧ SameRegs s t [SAG_SCRUB] ∧
      ∀ b, b < 9 → t.bank b = { s.bank b with scrubAt := some (s.mc + val.toNat % 2 ^ 16) }) ∧
  (∀ (req : Fin 4) (val : Word) (s : State), s.reaches SAG_CLR →
    ∃ t, exec (.sagClr req val) s = .next t ∧ t = { s with regs := t.regs } ∧
      ∀ b, b < 9 → (val.getLsbD b = true → t.f (SAG_ECC_CORR b) = min (s.noted (SAG_ECC_CORR b)) 0xFFFF ∧
          t.f (SAG_ECC_UNC b) = min (s.noted (SAG_ECC_UNC b)) 0xFFF ∧
          (s.noted (SAG_ECC_UNC b) = 0 → t.f (SAG_ECC_REQ b) = 0)) ∧
        (val.getLsbD b = false → t.reg (SAG_ECC b) = s.reg (SAG_ECC b))) ∧
  (∀ (req : Fin 4) (val : Word) (s : State), s.reaches ARB_CLR →
    ∃ t, exec (.arbClr req val) s = .next t ∧ t = { s with regs := t.regs } ∧
      ∀ b, b < 7 → (val.getLsbD b = true → t.f (ARB_WAIT_DEAD b) = min (s.noted (ARB_WAIT_DEAD b)) 0xFFF ∧
          (s.noted (ARB_WAIT_MAXWAIT b) = 0 → t.f (ARB_WAIT_MAXWAIT b) = 0)) ∧
        (val.getLsbD b = false → t.reg (ARB_WAIT b) = s.reg (ARB_WAIT b)))

/-! ### Halyard -/

/-- Channels of Halyard: GO fetches the descriptor at HLY_CDESC unless its address is wrong, and is refused while the channel
works or BUSERR stands (R320 to R322); enabling and disabling, which may leave undefined only what its uncompleted descriptors were to write (R335, R336); a fetched descriptor is checked before it waits or
runs (R320, R321); a transfer starts at once or with its trigger (R324); and the oldest descriptor completes once all its
writes have been performed (R329). The registers of a channel change as R324, R334 and R343 say. -/
def Obligations.ChannelsWork : Prop :=
  (∀ (req : Fin 4) (c : Fin 32) (s : State) (a : Nat), s.reaches (HLY_CCTRL c) → a = s.f (HLY_CDESC_ADDR c) →
    (s.chSt c ∈ [2, 3, 4, 7] → ∃ t, exec (.dmaGo req c) s = .next t ∧ Refused req (HLY_CCTRL c) s t) ∧
    (s.chSt c ∈ [1, 5, 6] → s.busErr = true → ∃ t, exec (.dmaGo req c) s = .next t ∧ Refused req (HLY_CCTRL c) s t) ∧
    (s.chSt c ∈ [0, 1, 5, 6] → s.busErr = false → ∃ t, exec (.dmaGo req c) s = .next t ∧ t.mem = s.mem ∧
      (a % 32 = 0 → descRegion (hlyRegion a 32) = true → t.chSt c = 3 ∧ (t.chan c).want = some a ∧
        t.f (HLY_CERR_CODE c) = 0) ∧
      (a % 32 ≠ 0 → t.chSt c = 6 ∧ t.f (HLY_CERR_CODE c) = 1 ∧ t.f ⟨HLY_REJ, c, 1⟩ = 1) ∧
      (a % 32 = 0 → descRegion (hlyRegion a 32) = false → t.chSt c = 6 ∧ t.f (HLY_CERR_CODE c) = 2 ∧
        t.f ⟨HLY_REJ, c, 1⟩ = 1))) ∧
  (∀ (req : Fin 4) (c : Fin 32) (s : State), s.reaches (HLY_CCTRL c) →
    (s.chSt c = 7 → ∃ t, exec (.channelEnable req c) s = .next t ∧ Refused req (HLY_CCTRL c) s t) ∧
    (s.chSt c = 0 → ∃ t, exec (.channelEnable req c) s = .next t ∧ t.f (HLY_CCTRL_EN c) = 1 ∧ t.chSt c = 1 ∧
      t.f (HLY_CERR_CODE c) = 0 ∧ OnlyRegs s t [HLY_CCTRL c, HLY_CSTAT c, HLY_CERR c]) ∧
    (s.chSt c ≠ 0 → s.chSt c ≠ 7 → exec (.channelEnable req c) s = .next s) ∧
    (s.flag (HLY_CCTRL_EN c) = false → exec (.channelDisable req c) s = .next s) ∧
    (s.flag (HLY_CCTRL_EN c) = true → (∀ d ∈ (s.chan c).descs ++ (s.chan c).old, regRegion (hlyRegion d.dst d.len) = false) →
      ∃ t, exec (.channelDisable req c) s = .next t ∧ t.f (HLY_CCTRL_EN c) = 0 ∧ t.chSt c = 7 ∧
        t.f (HLY_CSTAT_TRIGPEND c) = 0 ∧ (t.chan c).descs = [] ∧ (t.chan c).want = none ∧ (t.chan c).got = none ∧
        (∀ a, (∀ d ∈ (s.chan c).descs ++ (s.chan c).old, ¬(d.dst ≤ a ∧ a < d.dst + d.len)) → t.byte a = s.byte a) ∧
        ∀ x ∈ t.hly.xacts, x.ch = c.val → x.kind ≠ .write → x.dead = true) ∧
    ((s.flag (HLY_CCTRL_EN c) = false ∨ s.chSt c ≠ 0 ∧ s.chSt c ≠ 7) → ∃ t, exec (.trigclr req c) s = .next t ∧
      OnlyRegs s t [HLY_CSTAT c] ∧ t.chSt c = s.chSt c ∧ t.f (HLY_CSTAT_TRIGPEND c) =
        if s.noted (HLY_CSTAT_TRIGPEND c) = 0 then 0 else s.f (HLY_CSTAT_TRIGPEND c))) ∧
  (∀ (c : Fin 32) (s : State),
    ((s.chSt c ≠ 7 ∨ s.inFlight c ≠ 0) → exec (.disableDrained c) s = .next s) ∧
    (s.chSt c = 7 → s.inFlight c = 0 → (∀ r ∈ (s.chan c).undef, regRegion (hlyRegion r.1 r.2) = false) →
      ∃ t, exec (.disableDrained c) s = .next t ∧ t.chSt c = 0 ∧ t.chan c = {} ∧ SameRegs s t [HLY_CSTAT c]) ∧
    ((s.chan c).got = none → exec (.descriptorFetch c) s = .next s) ∧
    (∀ a l d, (s.chan c).got = some (a, l) → d = readDesc a l → ∃ t, exec (.descriptorFetch c) s = .next t ∧
      (descCode d = 0 → t.chSt c = (if d.wait = true then 2 else 3) ∧ (t.chan c).descs = (s.chan c).descs ++ [{ d with num := s.hly.next }] ∧
        (t.chan c).got = none) ∧
      (descCode d ≠ 0 → t.chSt c = 6 ∧ t.f (HLY_CERR_CODE c) = descCode d ∧ t.f (HLY_CDESC_ADDR c) = a % 2 ^ 64 ∧
        t.f ⟨HLY_REJ, c, 1⟩ = 1 ∧ (t.chan c).descs = (s.chan c).descs ∧ (t.chan c).got = none)) ∧
    ((s.chan c).descs.find? (fun d => !d.going) = none → exec (.transferStart c) s = .next s) ∧
    (∀ d, (s.chan c).descs.find? (fun d => !d.going) = some d →
      ((s.chSt c ≠ 2 ∧ s.chSt c ≠ 3 ∨ d.wait = true ∧ s.flag (HLY_CSTAT_TRIGPEND c) = false) →
        exec (.transferStart c) s = .next s) ∧
      (s.chSt c ∈ [2, 3] → (d.wait = true → s.flag (HLY_CSTAT_TRIGPEND c) = true) →
        ∃ t, exec (.transferStart c) s = .next t ∧ t.chSt c = 3 ∧ t.f (HLY_CREM_BYTES c) = d.len % 2 ^ 32 ∧
          (d.wait = true → t.f (HLY_CSTAT_TRIGPEND c) = 0) ∧ { d with going := true } ∈ (t.chan c).descs)) ∧
    ((s.chan c).descs = [] → exec (.descriptorComplete c) s = .next s) ∧
    (∀ d l, (s.chan c).descs = d :: l →
      ((s.writesDone c d = false ∨ d.barrier = true ∧ d.lastW.isSome = true ∧ d.flushed ≠ 3 ∨ s.busErr = true) →
        exec (.descriptorComplete c) s = .next s) ∧
      (s.writesDone c d = true → (d.barrier = false ∨ d.lastW = none ∨ d.flushed = 3) → s.busErr = false →
        ∃ t, exec (.descriptorComplete c) s = .next t ∧ (t.chan c).descs = l ∧
          t.f (HLY_CLAST_ADDR c) = d.at_ % 2 ^ 64 ∧ t.f (HLY_CDESC_ADDR c) = d.next % 2 ^ 64 ∧
          t.f (HLY_CCNT_COUNT c) = (s.f (HLY_CCNT_COUNT c) + 1) % 2 ^ 32 ∧ t.mem = s.mem ∧
          (s.chSt c ≠ 6 → d.last = true → t.chSt c = 1) ∧
          (d.evt = true → (0x210 + c.val, s.mc + 1) ∈ t.rig.sched)))) ∧
  (∀ (req : Fin 4) (s : State),
    (s.reaches HLY_STATUS → ∃ u t, ReadsAs s u ∧ exec (.buserrClear req) s = .next t ∧
      (s.inFlightAll ≠ 0 → Refused req HLY_STATUS u t) ∧
      (s.inFlightAll = 0 → OnlyRegs u t [HLY_STATUS] ∧ t.f HLY_STATUS_MULTI = s.f HLY_STATUS_MULTI ∧
        t.f HLY_STATUS_BUSERR = if s.noted HLY_STATUS_BUSERR = 0 then 0 else s.f HLY_STATUS_BUSERR)) ∧
    (s.reaches HLY_BUSCNT → ∃ t, exec (.buscntClr req) s = .next t ∧ OnlyRegs s t [HLY_BUSCNT] ∧
      t.f HLY_BUSCNT_COUNT = min (s.noted HLY_BUSCNT_COUNT) 0xFFFF)) ∧
  (∀ (req : Fin 4) (c : Fin 32) (val : DWord) (cnt : Word) (s : State),
    (s.reaches (HLY_CDESC c) → (s.chSt c ∈ [0, 1, 5, 6] → ∃ t, exec (.cdescWrite req c val) s = .next t ∧
        t.f (HLY_CDESC_ADDR c) = val.toNat ∧ OnlyRegs s t [HLY_CDESC c, HLY_CDESC c + 4]) ∧
      (s.chSt c ∈ [2, 3, 4, 7] → ∃ t, exec (.cdescWrite req c val) s = .next t ∧ Refused req (HLY_CDESC c) s t)) ∧
    (s.reaches (HLY_CCNT c) → ∃ t, exec (.ccntWrite req c cnt) s = .next t ∧
      t.f (HLY_CCNT_COUNT c) = (cnt.toNat + s.noted (HLY_CCNT_COUNT c)) % 2 ^ 32 ∧ OnlyRegs s t [HLY_CCNT c]))

/-- Transactions of Halyard: one channel issues one in a Mast cycle, in turn (R326); the bytes that a read or a fetch returns
go to its descriptor, rearranged (R325, R327), a write puts its bytes into its bank or sends them to the host, and a flush
read lets its barrier go on (R330). An error of a completion, a timeout, or a write that touches a protected image is a bus
error, is recorded, stops the channels and undoes a completion of its Mast cycle (R331 to R333), and writes nothing (R134). One
channel's writes to one place are performed in the order in which they issued (R328). The model's choices: a transaction that a
bus error or a disable has orphaned ends without effect (log entry 42); the order inside a channel, nextXact (44); the error
reporting bits (94). -/
def Obligations.TransactionsReturn : Prop :=
  (∀ s : State,
    ((s.hly.issued = s.mc + 1 ∨ s.on dDMA = false ∨ ∀ c, c < 32 → s.canXact c = false) →
      exec .transactionIssue s = .next s) ∧
    (∀ c x, s.hly.issued ≠ s.mc + 1 → s.on dDMA = true →
      ((List.range 32).map fun i => (s.hly.lastC + 1 + i) % 32).find? s.canXact = some c → s.nextXact c = some x →
      ∃ t, exec .transactionIssue s = .next t ∧ t.hly.lastC = c ∧ t.hly.issued = s.mc + 1 ∧
        t.hly.next = s.hly.next + 1 ∧
        (x.addr < hostBit → t.hly.xacts = s.hly.xacts ++ [x] ∧ t.ep.sent = s.ep.sent) ∧
        (hostBit ≤ x.addr → s.hostErr = none → t.hly.xacts = s.hly.xacts ++ [x] ∧ (x.kind ≠ .write →
          t.ep.sent = s.ep.sent ++ [⟨.read x.id (x.addr - hostBit) x.len, { rid := s.ep.rid }⟩])) ∧
        (∀ k, hostBit ≤ x.addr → s.hostErr = some k → t.f HLY_STATUS_BUSERR = 1 ∧ t.f HLY_ERRINFO_KIND = k))) ∧
  (∀ (id : Nat) (status : Fin 4) (data : List Byte) (s : State),
    ((s.hly.xacts.find? fun x => x.id == id) = none → exec (.readReturn id status data) s = .next s ∧
      exec (.writePerformed id) s = .next s) ∧
    (∀ (x : Xact) (l : List Byte), (s.hly.xacts.find? fun x => x.id == id) = some x → x.dead = false → x.gone = false →
      (x.kind = .fetch ∨ x.kind = .read) →
      (hostBit ≤ x.addr ∧ status = 0 ∧ data.length = x.len ∧ l = data ∨
        0x80000000 ≤ x.addr ∧ x.addr < hostBit ∧ s.proxyWaits (x.addr - 0x80000000) = false ∧
          l = leBytes 8 (s.beat64 (x.addr - 0x80000000)).toNat ∨
        x.addr < 0x80000000 ∧ (∃ b, s.doneAt (.dma id) = some b ∧
          ∀ w ∈ wordsAt (eccSize b) x.addr x.len, s.wordErr w = 0) ∧ l = s.bytes x.addr x.len) →
      ∃ t, exec (.readReturn id status data) s = .next t ∧ t.hly.xacts = (s.hly.xacts.filter fun y => y.id != id) ∧ t.mem = s.mem ∧
        (x.kind = .fetch → (t.chan x.ch).got = some (x.addr, l)) ∧
        (x.kind = .read → ∀ d ∈ (s.chan x.ch).descs, d.num = x.desc → ∃ d' ∈ (t.chan x.ch).descs, d'.num = d.num ∧
          d'.data = d.data ++ [(x.dst, arrange d.swap l)])) ∧
    (∀ x : Xact, (s.hly.xacts.find? fun x => x.id == id) = some x → (x.dead = true ∨ x.gone = true) →
      (x.kind = .fetch ∨ x.kind = .read) → hostBit ≤ x.addr → status = 0 → data.length = x.len →
      exec (.readReturn id status data) s = .next { s with hly.xacts := s.hly.xacts.filter fun y => y.id != id }) ∧
    (∀ x : Xact, (s.hly.xacts.find? fun x => x.id == id) = some x → x.gone = false → x.kind ≠ .write →
      hostBit ≤ x.addr → status ≠ 0 → s.busErr = false →
      ∃ t, exec (.readReturn id status data) s = .next t ∧ t.f HLY_STATUS_BUSERR = 1 ∧
        t.f HLY_ERRINFO_KIND = (if status = 3 then 5 else 3) ∧ t.f HLY_ERRADDR_ADDR = x.addr % 2 ^ 64 ∧
        t.f HLY_ERRINFO_CH = x.ch % 32 ∧ t.mem = s.mem ∧ t.ep.aer = (if status = 3 then s.ep.aer.note 12 else s.ep.aer) ∧
        (s.hly.comps = [] → ∀ c, c < 32 → t.chSt c = if s.chSt c ∈ [2, 3, 4] then 5 else s.chSt c) ∧
        (∀ p own, s.hly.comps = [p] → p.ch < 32 → p.st < 8 → own = (p.desc.last || p.desc.barrier) →
          t.f (HLY_CLAST_ADDR p.ch) = p.last % 2 ^ 64 ∧
          (∀ c, c < 32 → c ≠ p.ch → t.chSt c = if s.chSt c ∈ [2, 3, 4] then 5 else s.chSt c) ∧
          (s.chSt p.ch ∈ [0, 7] → t.chSt p.ch = 7 ∧ (p.desc.dst, p.desc.len) ∈ (t.chan p.ch).undef) ∧
          (s.chSt p.ch ∉ [0, 7] → t.f (HLY_CCNT_COUNT p.ch) = (s.f (HLY_CCNT_COUNT p.ch) + (2 ^ 32 - 1)) % 2 ^ 32 ∧
            (own = true → t.chSt p.ch = if p.st ∈ [2, 3, 4] then 5 else p.st) ∧
            (own = false → t.chSt p.ch = if s.chSt p.ch ∈ [2, 3, 4] then 5 else s.chSt p.ch) ∧
            (own = true ∨ s.chSt p.ch ≠ 6 → t.f (HLY_CDESC_ADDR p.ch) = p.cdesc % 2 ^ 64)) ∧
          (p.desc.evt = true → s.rig.sched.Nodup → (0x210 + p.ch, s.mc + 1) ∉ t.rig.sched)))) ∧
  (∀ (id : Nat) (x : Xact) (s : State), (s.hly.xacts.find? fun x => x.id == id) = some x → x.kind = .write →
    (s.writeBefore x = true → exec (.writePerformed id) s = .next s) ∧
    (s.writeBefore x = false → hostBit ≤ x.addr → ∃ t, exec (.writePerformed id) s = .next t ∧
      t.hly.xacts = (s.hly.xacts.filter fun y => y.id != id) ∧ t.ep.sent = s.ep.sent ++ [⟨.write (x.addr - hostBit) x.data, { rid := s.ep.rid }⟩] ∧ t.mem = s.mem) ∧
    (s.writeBefore x = false → 0x80000000 ≤ x.addr → x.addr < hostBit →
      s.proxyWaits (x.addr - 0x80000000) = false → exec (.writePerformed id) s = .next (chanAdvance x.ch (freeXact x
        (regWrite64 3 (x.addr - 0x80000000) (BitVec.ofNat 64 (leNat x.data)) s)))) ∧
    (∀ b, s.writeBefore x = false → x.addr < 0x80000000 → s.doneAt (.dma id) = some b →
      s.guardedRange x.addr x.data.length = false →
      (∀ i, i < x.data.length → s.ttLocked (x.addr + i) 1 = false) →
      (∀ w ∈ wordsAt (eccSize b) x.addr x.data.length, s.wordErr w < 2) →
      ∃ t, exec (.writePerformed id) s = .next t ∧ t.hly.xacts = (s.hly.xacts.filter fun y => y.id != id) ∧
        ∀ a, t.byte a = if x.addr ≤ a ∧ a < x.addr + x.data.length then x.data.getD (a - x.addr) 0 else s.byte a) ∧
    (∀ b, s.writeBefore x = false → x.addr < 0x80000000 → s.doneAt (.dma id) = some b →
      s.guardedRange x.addr x.data.length = true →
      ∃ t, exec (.writePerformed id) s = .next t ∧ t.f HLY_STATUS_BUSERR = 1 ∧ t.mem = s.mem)) ∧
  (∀ (id : Nat) (x : Xact) (s : State),
    ((s.hly.xacts.find? fun x => x.id == id && x.kind == .flush) = some x → x.dead = false → x.gone = false →
      ∃ t, exec (.flushReturn id) s = .next t ∧ t.hly.xacts = (s.hly.xacts.filter fun y => y.id != id) ∧ t.mem = s.mem ∧
        ∀ d ∈ (s.chan x.ch).descs, d.num = x.desc → ∃ d' ∈ (t.chan x.ch).descs, d'.num = d.num ∧ d'.flushed = 3) ∧
    ((s.hly.xacts.find? fun x => x.id == id && x.kind != .write && decide (hostBit ≤ x.addr)) = some x →
      x.gone = false → s.busErr = false → ∃ t, exec (.completionTimeout id) s = .next t ∧ t.f HLY_STATUS_BUSERR = 1 ∧
        t.f HLY_ERRINFO_KIND = 4 ∧ t.f HLY_ERRADDR_ADDR = x.addr % 2 ^ 64 ∧ t.mem = s.mem ∧ t.ep.aer = s.ep.aer.note 14))

/-! ### The host link -/

/-- Host requests: a register read and write of BAR0, a BAR2 read and write, which wait at their bank and are performed as it
grants them, and an alias access, byte by byte (R346, R355, R356, R377 to R379); the data of a memory read in parts, and the
attributes of a request, come back in its completions (R373, R376); what comes before the endpoint answers, or in a wrong form, is
retried, unsupported or refused (R377, R384, R422). A full posted buffer holds further writes, and a BAR2 read that no bank grants
within 40 µs is aborted (R380). The configuration space (R374, R382), and the events that reset the endpoint or bring it up (R381,
R382). The model's choices: Unsupported Request where Memory Space Enable is 0, and the places of the bits of configuration
registers (log entry 45); the details of retries, resets and the FIFO (46, 47, 48); the order of alias accesses (49); error
reporting and where a read is cut (94); the link's rate and width (88). -/
def Obligations.HostRequestsAreAnswered : Prop :=
  (∀ (tag : Fin 256) (attr : ReqAttr) (a : Fin (2 ^ 25)) (len : Fin 4097) (s : State), 64 ≤ s.ep.mps →
    (s.hostUp = false → exec (.hostMemRead ⟨tag, attr⟩ a len) s = .next s) ∧
    (s.hostUp = true → s.ep.memEn = false → ∃ t, exec (.hostMemRead ⟨tag, attr⟩ a len) s = .next t ∧
      Completed attr { tag := tag, status := .ur } s t) ∧
    (s.hostUp = true → s.ep.memEn = true → s.ep.queue = [] → s.ep.held = [] → s.writesWait = false →
      (hostBank a = none → ∃ t, exec (.hostMemRead ⟨tag, attr⟩ a len) s = .next t ∧
        ReadAnswered tag a attr (List.replicate len 0) s t) ∧
      (∀ b, hostBank a = some b → s.on (bankDom b) = false → ∃ t, exec (.hostMemRead ⟨tag, attr⟩ a len) s = .next t ∧
        ReadAnswered tag a attr (List.replicate len 0xFF) s t) ∧
      (∀ b, hostBank a = some b → s.on (bankDom b) = true → ∃ t, exec (.hostMemRead ⟨tag, attr⟩ a len) s = .next t ∧
        mget t.ep.asked tag {} = attr ∧ AtBank b
          { r := hostReq b, stamp := 4 * s.mc, beats := linesOf a len, use := .hostRead tag a len s.mc false } s t))) ∧
  (∀ (b c a len tag since : Nat) (al : Bool) (q : BankReq) (s t : State), q.use = .hostRead tag a len since al →
    q.beats = 1 → q.done = 0 → q.acc = [] → q.bad = false → burstLen s b q = 1 → 16 ≤ s.ep.mps → 1 ≤ len →
    (al = true → len ≤ 8) → (al = false → a % 16 + len ≤ 16) →
    (∀ x, a ≤ x → x < a + len → s.wordErr (x / 8 * 8) = 0 ∧ s.wordErr (x / 4 * 4) = 0) → t = grant b c q s → t.mem = s.mem ∧
      ∃ l, t.ep.cpls = s.ep.cpls ++ [{ tag := tag, attr := mget s.ep.asked tag {}, data := l }] ∧ l.length = len ∧
        ∀ i, i < len → (al = false → l[i]? = some (s.byte (a + i))) ∧
          (al = true → hostBank (a + i) = none → l[i]? = some 0) ∧
          (∀ k, al = true → hostBank (a + i) = some k →
            l[i]? = some (if s.on (bankDom k) = true then s.byte (a + i) else 0xFF))) ∧
  (∀ (a : Fin (2 ^ 25)) (d : List (Option Byte)) (s : State),
    (s.hostUp = false → exec (.hostMemWrite a d) s = .next s) ∧
    (s.hostUp = true → s.ep.memEn = false → exec (.hostMemWrite a d) s = .next { s with ep.aer := s.ep.aer.note 20 }) ∧
    (s.hostUp = true → s.ep.memEn = true → s.ep.queue = [] → s.ep.held = [] →
      (32 ≤ s.postedWait → exec (.hostMemWrite a d) s = .next { s with ep.held := [.memWrite a d false] }) ∧
      (s.postedWait < 32 →
        (hostBank a = none → exec (.hostMemWrite a d) s = .next s) ∧
        (∀ b, hostBank a = some b → (b = 5 ∨ s.on (bankDom b) = false) →
          ∃ t, exec (.hostMemWrite a d) s = .next t ∧ Refused 0 (0x80000000 + a.val) s t) ∧
        (∀ b, hostBank a = some b → b ≠ 5 → s.on (bankDom b) = true → d ≠ [] →
          ∃ t, exec (.hostMemWrite a d) s = .next t ∧ AtBank b
            { r := hostReq b, stamp := 4 * s.mc, beats := linesOf a d.length, use := .hostWrite a d false } s t)))) ∧
  (∀ (b c a : Nat) (d : List (Option Byte)) (al : Bool) (q : BankReq) (s t : State), q.use = .hostWrite a d al →
    q.beats = 1 → q.done = 0 → burstLen s b q = 1 → 1 ≤ d.length →
    (al = true → d.length ≤ 8) → (al = false → a % 16 + d.length ≤ 16) →
    (∀ x, a ≤ x → x < a + d.length → s.wordErr (x / 8 * 8) < 2 ∧ s.wordErr (x / 4 * 4) < 2) → t = grant b c q s →
    t.ep = s.ep ∧ ∀ x, t.byte x =
      if a ≤ x ∧ x < a + d.length ∧ s.guarded x = false ∧ s.ttLocked x 1 = false ∧
        (al = true → ∃ k, hostBank x = some k ∧ k ≠ 5 ∧ s.on (bankDom k) = true)
      then (d.getD (x - a) none).getD (s.byte x) else s.byte x) ∧
  (∀ (tag : Fin 256) (attr : ReqAttr) (a : Fin (2 ^ 25)) (d : List (Option Byte)) (s : State) (n : Nat)
    (l : List (Option Byte)) (takes : Bool → Nat → Nat → Prop),
    (∀ w b i, takes w b i ↔ i < l.length ∧ hostBank (a.val + n + i) = some b ∧ s.on (bankDom b) = true ∧ (w = true → b ≠ 5)) →
    s.hostUp = true → s.ep.memEn = true → s.ep.queue = [] → s.ep.held = [] → 64 ≤ s.ep.mps → (n, l) = aliasBytes d →
    (aliasOk d = false →
      (s.postedWait < 32 → ∃ t, exec (.hostAliasAccess ⟨tag, attr⟩ true a d) s = .next t ∧
        Refused 0 (0x82000000 + a.val) s t) ∧
      ∃ t, exec (.hostAliasAccess ⟨tag, attr⟩ false a d) s = .next t ∧ Completed attr { tag := tag, status := .ur } s t) ∧
    (aliasOk d = true → (∀ b i, ¬takes true b i) → s.postedWait < 32 →
      ((∀ i, i < l.length → hostBank (a.val + n + i) = none) → exec (.hostAliasAccess ⟨tag, attr⟩ true a d) s = .next s) ∧
      ((∃ i, i < l.length ∧ hostBank (a.val + n + i) ≠ none) → ∃ t, exec (.hostAliasAccess ⟨tag, attr⟩ true a d) s = .next t ∧
        Refused 0 (0x82000000 + a.val) s t)) ∧
    (aliasOk d = true → (∀ b i, ¬takes false b i) → s.writesWait = false →
      ∃ t, exec (.hostAliasAccess ⟨tag, attr⟩ false a d) s = .next t ∧ ReadAnswered tag (a.val + n) attr
        ((List.range l.length).map fun i => if hostBank (a.val + n + i) = none then 0 else 0xFF) s t) ∧
    (∀ w b i, aliasOk d = true → takes w b i → (∀ j k, j < i → ¬takes w k j) →
      (w = true → s.postedWait < 32 → ∃ t, exec (.hostAliasAccess ⟨tag, attr⟩ true a d) s = .next t ∧
        AtBank b { r := hostReq b, stamp := 4 * s.mc, beats := 1, use := .hostWrite (a.val + n) l true } s t) ∧
      (w = false → s.writesWait = false → ∃ t, exec (.hostAliasAccess ⟨tag, attr⟩ false a d) s = .next t ∧
        mget t.ep.asked tag {} = attr ∧ AtBank b
          { r := hostReq b, stamp := 4 * s.mc, beats := 1, use := .hostRead tag (a.val + n) l.length s.mc true } s t))) ∧
  (∀ (tag : Fin 256) (s : State) (late : HostOp → Prop),
    (∀ o, late o ↔ ∃ a n since al, o = .memRead tag a n since al ∧ since + 8000 ≤ s.mc) →
    ((∃ o ∈ s.ep.queue ++ s.ep.held, late o) → ∃ t, exec (.hostReadTimeout tag) s = .next t ∧ t = { s with ep := t.ep } ∧
      t.ep.cpls = s.ep.cpls ++ [{ tag := tag, status := .ca, attr := mget s.ep.asked tag {} }] ∧ t.ep.aer = s.ep.aer.note 15 ∧
      (∀ o, o ∈ t.ep.queue ↔ o ∈ s.ep.queue ∧ ¬late o) ∧ ∀ o, o ∈ t.ep.held ↔ o ∈ s.ep.held ∧ ¬late o) ∧
    ((∀ o ∈ s.ep.queue ++ s.ep.held, ¬late o) → (∃ b q a n since al, b < 9 ∧ q ∈ (s.bank b).pend ∧ q.first = none ∧
        q.use = .hostRead tag a n since al ∧ since + 8000 ≤ s.mc) →
      ∃ t, exec (.hostReadTimeout tag) s = .next t ∧ t.mem = s.mem ∧ t.ep = { s.ep with
        cpls := s.ep.cpls ++ [{ tag := tag, status := .ca, attr := mget s.ep.asked tag {} }], asked := t.ep.asked
        aer := s.ep.aer.note 15 }) ∧
    ((∀ o ∈ s.ep.queue ++ s.ep.held, ¬late o) → (∀ b q a n since al, b < 9 → q ∈ (s.bank b).pend → q.first = none →
        q.use = .hostRead tag a n since al → s.mc < since + 8000) → exec (.hostReadTimeout tag) s = .next s)) ∧
  (∀ (tag : Fin 256) (attr : ReqAttr) (off : Fin (2 ^ 24)) (n : Fin 1025) (s : State) (good : Prop),
    (good ↔ n.val = 1 ∧ off.val % 4 = 0 ∨ n.val = 2 ∧ off.val % 8 = 0) →
    (s.hostUp = false → exec (.bar0ReadRequest ⟨tag, attr⟩ off n) s = .next s) ∧
    (s.hostUp = true → s.ep.memEn = false → ∃ t, exec (.bar0ReadRequest ⟨tag, attr⟩ off n) s = .next t ∧
      Completed attr { tag := tag, status := .ur } s t) ∧
    (s.hostUp = true → s.ep.memEn = true →
      (n.val = 0 → ∃ t, exec (.bar0ReadRequest ⟨tag, attr⟩ off n) s = .next t ∧
        Completed attr { tag := tag, data := List.replicate 4 0 } s t) ∧
      (n.val ≠ 0 → ¬good → ∃ t, exec (.bar0ReadRequest ⟨tag, attr⟩ off n) s = .next t ∧
        Completed attr { tag := tag, status := .ur } s t) ∧
      (good → s.ep.queue = [] → s.ep.held = [] → s.byProxy off = true → exec (.bar0ReadRequest ⟨tag, attr⟩ off n) s =
        .next { s with ep.queue := [.regRead tag off n], ep.asked := mset s.ep.asked tag attr {} }) ∧
      (good → s.ep.queue = [] → s.ep.held = [] → s.byProxy off = false → s.writesWait = false →
        (n.val = 1 → ∃ t, exec (.bar0ReadRequest ⟨tag, attr⟩ off n) s = .next t ∧
          Completed attr { tag := tag, data := leBytes 4 (readReg 0 off s).1.toNat } (readReg 0 off s).2 t) ∧
        (n.val = 2 → ∃ t, exec (.bar0ReadRequest ⟨tag, attr⟩ off n) s = .next t ∧
          Completed attr { tag := tag, data := leBytes 4 (s.seen off) ++ leBytes 4 (s.seen (off + 4)) } s t)))) ∧
  (∀ (off : Fin (2 ^ 24)) (l : List Word) (full : Bool) (s : State) (good : Prop),
    (good ↔ full = true ∧ (l.length = 1 ∧ off.val % 4 = 0 ∨ l.length = 2 ∧ off.val % 8 = 0)) →
    (s.hostUp = false → exec (.bar0WriteRequest off l full) s = .next s) ∧
    (s.hostUp = true → s.ep.memEn = false →
      exec (.bar0WriteRequest off l full) s = .next { s with ep.aer := s.ep.aer.note 20 }) ∧
    (s.hostUp = true → s.ep.memEn = true →
      (¬good → ∃ t, exec (.bar0WriteRequest off l full) s = .next t ∧ Refused 0 off s t) ∧
      (good → s.ep.queue = [] → s.ep.held = [] → s.postedWait < 32 →
        (s.byProxy off = true → exec (.bar0WriteRequest off l full) s =
          .next { s with ep.queue := [.regWrite off l] }) ∧
        (s.byProxy off = false →
          (∀ v, l = [v] → exec (.bar0WriteRequest off l full) s = .next (regWrite 0 off v s)) ∧
          (∀ v w, l = [v, w] →
            ((badRoute off v.toNat = false ∨ s.answers off = false) →
              exec (.bar0WriteRequest off l full) s = .next (regWrite 0 (off + 4) w (regWrite 0 off v s))) ∧
            (badRoute off v.toNat = true → s.answers off = true → ∃ t, exec (.bar0WriteRequest off l full) s = .next t ∧
              Refused 0 off s t)))))) ∧
  (∀ s : State, (s.ep.queue = [] → exec .fieldProxyAccess s = .next s) ∧
    (∀ tag off n l, s.ep.queue = .regRead tag off n :: l →
      ((s.answers off = false ∨ fieldReg off = false ∨ s.writesWait = true) → exec .fieldProxyAccess s = .next s) ∧
      (n = 1 → l = [] → s.ep.held = [] → s.answers off = true → fieldReg off = true → s.writesWait = false →
        ∃ x t, x = readReg 0 off { s with ep.queue := [] } ∧ exec .fieldProxyAccess s = .next t ∧
          Completed (mget s.ep.asked tag {}) { tag := tag, data := leBytes 4 x.1.toNat } x.2 t)) ∧
    (∀ off v l, s.ep.queue = .regWrite off v :: l →
      ((s.answers off = false ∨ fieldReg off = false) → exec .fieldProxyAccess s = .next s) ∧
      (s.answers off = true → fieldReg off = true →
        exec .fieldProxyAccess s = .next (hostGoOn (hostStores off v { s with ep.queue := l }))))) ∧
  (∀ (tag : Fin 256) (attr : ReqAttr) (id : Fin (2 ^ 16)) (r : CfgReg) (v : Option Word) (s u : State),
    u = { s with ep.rid := id } →
    ((s.on dHOST = false ∨ s.ep.linkUp = false) → exec (.configRequest ⟨tag, attr⟩ ⟨id, r⟩ v) s = .next s) ∧
    (s.on dHOST = true → s.ep.linkUp = true →
      (s.boot.answers = false → ∃ t, exec (.configRequest ⟨tag, attr⟩ ⟨id, r⟩ v) s = .next t ∧
        Completed attr { tag := tag, status := .crs } s t) ∧
      (s.boot.answers = true → v = none → ∃ t, exec (.configRequest ⟨tag, attr⟩ ⟨id, r⟩ v) s = .next t ∧
        Completed attr { tag := tag, data := leBytes 4 (s.cfgRead r) } s t) ∧
      (∀ w, s.boot.answers = true → v = some w →
        (r ∈ [.id, .classRev, .subsystem, .serialLo, .serialHi, .interrupt, .deviceCaps, .linkCaps, .msixTable, .msixPba,
            .pmCaps, .aer 0, .aer 6] →
          ∃ t, exec (.configRequest ⟨tag, attr⟩ ⟨id, r⟩ v) s = .next t ∧ Completed attr { tag := tag } u t) ∧
        (r = .command → ∃ t, exec (.configRequest ⟨tag, attr⟩ ⟨id, r⟩ v) s = .next t ∧
          Completed attr { tag := tag } { u with ep.memEn := w.getLsbD 1, ep.busMaster := w.getLsbD 2 } t) ∧
        (r = .pmControl → ∃ t, exec (.configRequest ⟨tag, attr⟩ ⟨id, r⟩ v) s = .next t ∧
          Completed attr { tag := tag }
            { u with ep.d3 := if w.toNat % 4 = 3 then true else if w.toNat % 4 = 0 then false else s.ep.d3 } t) ∧
        (∀ k, r = .bar k → ∃ t, exec (.configRequest ⟨tag, attr⟩ ⟨id, r⟩ v) s = .next t ∧
          Completed attr { tag := tag } { u with ep.bars := t.ep.bars } t ∧
          ∀ j, mget t.ep.bars j 0 = if j = k.val then w.toNat / 2 ^ barLow k.val * 2 ^ barLow k.val else mget s.ep.bars j 0) ∧
        (r = .linkControl → ∃ t, exec (.configRequest ⟨tag, attr⟩ ⟨id, r⟩ v) s = .next t ∧
          Completed attr { tag := tag } { u with ep.aspmL1 := w.getLsbD 1 } t) ∧
        (r = .aer 1 → ∃ t, exec (.configRequest ⟨tag, attr⟩ ⟨id, r⟩ v) s = .next t ∧
          Completed attr { tag := tag } { u with ep.aer.unc := s.ep.aer.unc &&& (~~~w).toNat } t) ∧
        (r = .aer 4 → ∃ t, exec (.configRequest ⟨tag, attr⟩ ⟨id, r⟩ v) s = .next t ∧
          Completed attr { tag := tag } { u with ep.aer.corr := s.ep.aer.corr &&& (~~~w).toNat } t) ∧
        (r = .msixControl → ∃ t, exec (.configRequest ⟨tag, attr⟩ ⟨id, r⟩ v) s = .next t ∧ t.ep.funcMask = w.getLsbD 14 ∧
          t.ep.msixEn = w.getLsbD 15 ∧ (s.ep.pba = [] → Completed attr { tag := tag }
            { u with ep.funcMask := w.getLsbD 14, ep.msixEn := w.getLsbD 15 } t)) ∧
        (r = .deviceControl → w.getLsbD 15 = false → ∃ t, exec (.configRequest ⟨tag, attr⟩ ⟨id, r⟩ v) s = .next t ∧
          Completed attr { tag := tag } { u with
            ep.mps := if bitsOf w.toNat 5 3 = 0 then 128 else 256
            ep.mrrs := 128 * 2 ^ min 5 (bitsOf w.toNat 12 3) } t) ∧
        (r = .deviceControl → w.getLsbD 15 = true → ∃ t, exec (.configRequest ⟨tag, attr⟩ ⟨id, r⟩ v) s = .next t ∧
          Completed attr { tag := tag } (hostReset 3 u) t)))) ∧
  (∀ (k : HostEvent) (s : State),
    (s.on dHOST = false → exec (.hostLinkReset k) s = .next s) ∧
    (s.on dHOST = true → ∃ t, exec (.hostLinkReset k) s = .next t ∧
      t.ep.linkUp = (s.ep.linkUp && k == .functionLevelReset) ∧ t.ep.memEn = false ∧ t.ep.busMaster = false ∧
      t.ep.d3 = false ∧ t.ep.queue = [] ∧ t.ep.held = [] ∧ t.mem = s.mem ∧
      (∀ b q tag a n since al, b < 9 → q ∈ (t.bank b).pend → q.use ≠ .hostRead tag a n since al) ∧
      (∀ x ∈ t.hly.xacts, x.addr < hostBit) ∧
      ((∃ x ∈ s.hly.xacts, hostBit ≤ x.addr ∧ x.gone = false) → t.f HLY_STATUS_BUSERR = 1 ∧
        (s.busErr = false → t.f HLY_ERRINFO_KIND = 6)) ∧
      ((∀ x ∈ s.hly.xacts, x.addr < hostBit) →
        t.ep = { linkUp := t.ep.linkUp, rate := s.ep.rate, lanes := s.ep.lanes, cpls := s.ep.cpls, sent := s.ep.sent,
                 aer := if k = .perst then {} else s.ep.aer } ∧
        (s.on 1 = true → t.faults = s.faults ++ [⟨0xA, 0, k.code, 0⟩])))) ∧
  (∀ s : State,
    exec .d3hotEntry s = .next (if s.on dHOST = true then { s with ep.d3 := true } else s) ∧
    (s.on dHOST = false → exec .pcieLinkUp s = .next s) ∧
    (s.on dHOST = true → ∃ t, exec .pcieLinkUp s = .next t ∧ t.ep.rate < 3 ∧ t.ep.lanes < 3 ∧
      t = { s with ep.linkUp := true, ep.rate := t.ep.rate, ep.lanes := t.ep.lanes, free := s.free + 2 }))

/-! ### The Lanyard port -/

/-- A transaction on the Lanyard port is acknowledged by the target's own address, for a write while it is not busy (R386); an
operation byte brings the status byte (R387). A request frame that is taken is answered with BAD_LENGTH where its length is
wrong, with BAD_CRC where its CRC is, with BAD_COMMAND for a code that R394 does not list, and with the response it had where it
repeats the last frame; any other waits for its command (R389 to R392). A response is read with the status byte before it, and
is consumed with its last byte (R387, R388). LAN_ALERT_N (R388), the mailbox bits (R401), and the log of 256 faults (R399). The
model's choices: an operation of the transport that is not selected does nothing, and the response of a request that was not
executed is not kept for a repetition (log entry 50). -/
def Obligations.LanyardPort : Prop :=
  (∀ (start : LanStart) (f : List Byte) (s : State),
    (∀ a, start = .i2c a → s.lan.spi = false → (s.lanServed = false ∨ a.toNat ≠ s.lanAddr ∨ s.lanBusy = true) →
      exec (.requestFrame ⟨start, f⟩) s = .next { s with lan.ack := false }) ∧
    (∀ op, start = .spi op → s.lan.spi = true →
      (s.lanServed = false → exec (.requestFrame ⟨start, f⟩) s = .next s) ∧
      (op = 0x03 → exec (.requestFrame ⟨start, f⟩) s = exec (.spiReadResponse f.length) s) ∧
      (op = 0x05 → exec (.requestFrame ⟨start, f⟩) s = exec (.spiReadStatus f.length) s) ∧
      (s.lanServed = true → op ≠ 0x03 → op ≠ 0x05 → (op ≠ 0x02 ∨ s.lanBusy = true) →
        exec (.requestFrame ⟨start, f⟩) s = .next { s with lan.outs := s.lan.outs ++ [[s.lanStatus]] })) ∧
    ((∃ a, start = .i2c a ∧ s.lan.spi = true) ∨ (∃ op, start = .spi op ∧ s.lan.spi = false) →
      exec (.requestFrame ⟨start, f⟩) s = .next s)) ∧
  (∀ (start : LanStart) (f : List Byte) (s v u : State) (whole crc : Prop), s.lanServed = true → s.lanBusy = false →
    ((∃ a, start = .i2c a ∧ s.lan.spi = false ∧ a.toNat = s.lanAddr ∧ v = { s with lan.ack := true }) ∨
      start = .spi 0x02 ∧ s.lan.spi = true ∧ v = { s with lan.outs := s.lan.outs ++ [[s.lanStatus]] }) →
    u = { v with lan.resp := none } →
    (whole ↔ 6 ≤ f.length ∧ frameLen f ≤ 1024 ∧ f.length = 6 + frameLen f) →
    (crc ↔ f = withCrc (f.take (f.length - 2))) →
    (¬whole → exec (.requestFrame ⟨start, f⟩) s = .next { u with lan.done := some (response f 2 []), lan.ran := false }) ∧
    (whole → ¬crc → exec (.requestFrame ⟨start, f⟩) s = .next { u with lan.done := some (response f 1 []), lan.ran := false }) ∧
    (∀ r, whole → crc → s.lan.last = some (f, r) →
      exec (.requestFrame ⟨start, f⟩) s = .next { u with lan.done := some r, lan.ran := false }) ∧
    (whole → crc → (∀ r, s.lan.last ≠ some (f, r)) →
      (cmdListed (frameByte f 0) = true → exec (.requestFrame ⟨start, f⟩) s = .next { u with lan.req := some f }) ∧
      (cmdListed (frameByte f 0) = false →
        exec (.requestFrame ⟨start, f⟩) s = .next { u with lan.done := some (response f 3 []), lan.ran := false }))) ∧
  (∀ (a : BitVec 7) (n : Nat) (s : State) (r : List Byte), r = s.lan.resp.getD [] →
    (s.lan.spi = true → exec (.i2cRead ⟨a, n⟩) s = .next s) ∧
    (s.lan.spi = false → (s.lanServed = false ∨ a.toNat ≠ s.lanAddr) →
      exec (.i2cRead ⟨a, n⟩) s = .next { s with lan.ack := false }) ∧
    (s.lan.spi = false → s.lanServed = true → a.toNat = s.lanAddr →
      (n = 0 → exec (.i2cRead ⟨a, n⟩) s = .next { s with lan.ack := true }) ∧
      (n ≠ 0 → exec (.i2cRead ⟨a, n⟩) s = .next { s with
        lan.ack := true
        lan.outs := s.lan.outs ++ [s.lanStatus :: (List.range (n - 1)).map fun i => r.getD i 0xFF]
        lan.resp := if r.length ≤ n - 1 then none else s.lan.resp })) ∧
    ((s.lanServed = false ∨ s.lan.spi = false) → exec (.spiReadResponse n) s = .next s ∧
      exec (.spiReadStatus n) s = .next s) ∧
    (s.lanServed = true → s.lan.spi = true → exec (.spiReadResponse n) s = .next { s with
        lan.outs := s.lan.outs ++ [s.lanStatus :: (List.range n).map fun i => r.getD i 0xFF]
        lan.resp := if r.length ≤ n then none else s.lan.resp } ∧
      exec (.spiReadStatus n) s = .next { s with lan.outs := s.lan.outs ++ [List.replicate (n + 1) s.lanStatus] })) ∧
  (∀ s : State, s.lanAlert = true ↔ s.lan.resp.isSome = true ∨ s.lan.logNew = true ∨ s.flag LAN_MBSTAT_H2M_FULL = true) ∧
  (∀ s : State, s.lanStatus.toNat = 0xA0 + 8 * s.lan.logNew.toNat + 4 * s.f LAN_MBSTAT_H2M_FULL +
    2 * s.lan.resp.isSome.toNat + s.lanBusy.toNat) ∧
  (∀ s : State, (s.lan.done = none → exec .responseReady s = .next s) ∧
    (∀ r, s.lan.done = some r → exec .responseReady s = .next { s with lan.done := none, lan.resp := some r })) ∧
  (∀ (req : Fin 4) (s : State), s.reaches LAN_MBCTL →
    ((s.flag LAN_MBSTAT_H2M_FULL = true ∨ s.f LAN_H2MLEN_LEN = 0) →
      ∃ t, exec (.h2mSend req) s = .next t ∧ Refused req LAN_MBCTL s t) ∧
    (s.flag LAN_MBSTAT_H2M_FULL = false → s.f LAN_H2MLEN_LEN ≠ 0 → ∃ t, exec (.h2mSend req) s = .next t ∧
      t.f LAN_MBSTAT_H2M_FULL = 1 ∧ t.f LAN_MBSTAT_M2H_FULL = s.f LAN_MBSTAT_M2H_FULL ∧ OnlyRegs s t [LAN_MBSTAT]) ∧
    (∃ t, exec (.m2hAck req) s = .next t ∧ t.f LAN_MBSTAT_M2H_FULL = 0 ∧
      t.f LAN_MBSTAT_H2M_FULL = s.f LAN_MBSTAT_H2M_FULL ∧ OnlyRegs s t [LAN_MBSTAT])) ∧
  (∀ s : State, ((s.faults = [] ∨ s.on 1 = false) → exec .faultLogEntry s = .next s) ∧
    (∀ x l, s.faults = x :: l → s.on 1 = true → exec .faultLogEntry s = .next { s with
      faults := l
      lan.log := (s.lan.log ++ [(⟨s.now, x⟩ : LogEntry)]).drop (s.lan.log.length - 255)
      lan.logNew := true }))

/-- Commands of the Lanyard port: each runs while a request with its code waits (R391, R400), is answered with BADARG for
parameters outside its ranges (R395 to R401, R436, R449), with DOMAIN_OFF where the domain is off (R402), and else with its
effect and data: GET_INFO and GET_STATUS (R394), registers (R395), memory once its bank has granted it (R357, R396), the log
(R399), domains and block resets (R397, R398), the certificate with the serial number and the mark key (R436), the attestation
(R449), and the mailbox (R401). The model's choices: MBOX_PUT keeps the bytes past its message, and BADARG comes before DENIED
(log entry 51); READ_MEM, WRITE_MEM and DOMAIN_SET wait in place (52); ATTEST on a lost key (84); what GET_STATUS and READ_REG
give of a cluster that is off (86); the order of the certificate's fields (95). -/
def Obligations.LanyardCommands : Prop :=
  (∀ (x : Nat × Instr) (s : State), x ∈ [(0x01, .getInfo), (0x02, .readReg), (0x03, .writeReg), (0x04, .readMem),
      (0x05, .writeMem), (0x10, .getStatus), (0x11, .readLog), (0x12, .clearLog), (0x20, .recInfo), (0x21, .recWrite),
      (0x22, .recFinish), (0x30, .domainSet), (0x31, .blockReset), (0x40, .getCert), (0x41, .attest), (0x50, .mboxGet),
      (0x51, .mboxPut)] → (∀ f, ¬s.asks x.1 f) → exec x.2 s = .next s) ∧
  (∀ (f : List Byte) (x : Nat × Instr) (s : State), x ∈ [(0x01, Instr.getInfo), (0x10, .getStatus), (0x12, .clearLog),
      (0x20, .recInfo), (0x22, .recFinish), (0x50, .mboxGet)] → s.asks x.1 f → payload f ≠ [] →
    ∃ t, exec x.2 s = .next t ∧ Answered f 4 [] s t) ∧
  (∀ (f p : List Byte) (s : State), p = payload f →
    (s.asks 0x01 f → p = [] → ∃ t, exec .getInfo s = .next t ∧ Answered f 0 (leBytes 4 (s.live GLB_ID).toNat ++
      leBytes 2 1 ++ leBytes 2 1024 ++ leBytes 1 s.lc ++ leBytes 1 0 ++ leBytes 2 s.domains ++
      leBytes 2 s.lan.log.length) s t) ∧
    (s.asks 0x10 f → p = [] → ∃ t, exec .getStatus s = .next t ∧ Answered f 0 (leBytes 2 s.domains ++
      leBytes 4 (s.statusSeen MST_STATUS) ++ leBytes 4 (s.statusSeen KLN_STATUS) ++ leBytes 4 (s.statusSeen HLY_STATUS) ++
      (List.range 17).flatMap fun e => leBytes 1 (s.statusSeen (COIL_STATUS e))) s t) ∧
    (∀ o, s.answers o = false → s.statusSeen o = 0xFFFFFFFF) ∧ (∀ o, s.answers o = true → s.statusSeen o = (s.live o).toNat) ∧
    (s.asks 0x12 f → p = [] → ∃ t, exec .clearLog s = .next t ∧
      Answered f 0 [] { s with lan.log := [], lan.logNew := false } t) ∧
    (s.asks 0x20 f → p = [] → ∃ t, exec .recInfo s = .next t ∧ Answered f 0 (s.slotInfo 0 ++ s.slotInfo 1)
      { s with
        boot.awake := true
        flashOut := s.flashOut ++ (if s.boot.awake = true then [] else [⟨0xAB, none⟩]) ++
          [⟨0x0B, some 0⟩, ⟨0x0B, some 0x100000⟩] } t)) ∧
  (∀ (f p : List Byte) (s : State) (off n : Nat), s.asks 0x02 f → p = payload f → off = leField p 0 4 → n = leField p 4 2 →
    ((p.length ≠ 6 ∨ off % 2 ≠ 0 ∨ n = 0 ∨ 512 < n ∨ 0x1000000 < off + 2 * n) →
      ∃ t, exec .readReg s = .next t ∧ Answered f 4 [] s t) ∧
    (p.length = 6 → off % 2 = 0 → n ≠ 0 → n ≤ 512 → off + 2 * n ≤ 0x1000000 →
      ((∃ i, i < 2 * n ∧ s.proxyWaits ((off + i) / 4 * 4) = true) → exec .readReg s = .next s) ∧
      ((∀ i, i < 2 * n → s.proxyWaits ((off + i) / 4 * 4) = false) →
        (s.answers (off / 4 * 4) = false → ∃ t, exec .readReg s = .next t ∧ Answered f 6 [] s t) ∧
        ((∃ i, i < n ∧ s.answers ((off + 2 * i) / 4 * 4) = false) → ∃ u t, exec .readReg s = .next t ∧
          u = { s with kln.shadows := u.kln.shadows } ∧ Answered f 6 [] u t) ∧
        (n = 1 → s.answers (off / 4 * 4) = true → ∃ t, exec .readReg s = .next t ∧
          Answered f 0 (leBytes 2 (readHalf off s).1.toNat) (readHalf off s).2 t) ∧
        ((∀ i, i < n → s.answers ((off + 2 * i) / 4 * 4) = true) → ∃ u t l, exec .readReg s = .next t ∧
          l.length = 2 * n ∧ u = { s with kln.shadows := u.kln.shadows } ∧ Answered f 0 l u t)))) ∧
  (∀ (f p : List Byte) (s : State) (off n : Nat), s.asks 0x03 f → p = payload f → off = leField p 0 4 →
    n = (p.length - 4) / 4 →
    ((p.length < 8 ∨ p.length % 4 ≠ 0 ∨ off % 4 ≠ 0 ∨ 0x1000000 < off + 4 * n) →
      ∃ t, exec .writeReg s = .next t ∧ Answered f 4 [] s t) ∧
    (8 ≤ p.length → p.length % 4 = 0 → off % 4 = 0 → off + 4 * n ≤ 0x1000000 →
      ((∃ i, i < 4 * n ∧ s.proxyWaits ((off + i) / 4 * 4) = true) → exec .writeReg s = .next s) ∧
      ((∀ i, i < 4 * n → s.proxyWaits ((off + i) / 4 * 4) = false) →
        (s.answers off = false → ∃ t, exec .writeReg s = .next t ∧ Answered f 6 [] s t) ∧
        (n = 1 → s.answers off = true →
          exec .writeReg s = .next (lanFinish 0 [] (regWrite 1 off (BitVec.ofNat 32 (leField p 4 4)) s)))))) ∧
  (∀ (f p : List Byte) (s : State) (a n : Nat), s.asks 0x04 f → p = payload f → a = leField p 0 8 → n = leField p 8 4 →
    ((p.length ≠ 12 ∨ a % 8 ≠ 0 ∨ n % 8 ≠ 0 ∨ n = 0 ∨ 1024 < n ∨ lanBank false a n = none) →
      ∃ t, exec .readMem s = .next t ∧ Answered f 4 [] s t) ∧
    (∀ b, p.length = 12 → a % 8 = 0 → n % 8 = 0 → n ≠ 0 → n ≤ 1024 → lanBank false a n = some b →
      (s.on (bankDom b) = false → ∃ t, exec .readMem s = .next t ∧ Answered f 6 [] s t) ∧
      (s.on (bankDom b) = true → s.doneAt (.mgmt 0) ≠ some b →
        ((∃ q ∈ (s.bank b).pend ++ (s.bank b).served, q.use = .mgmt 0) → exec .readMem s = .next s) ∧
        ((∀ q ∈ (s.bank b).pend ++ (s.bank b).served, q.use ≠ .mgmt 0) → ∃ t, exec .readMem s = .next t ∧
          AtBank b { r := 7, stamp := 4 * s.mc, beats := linesOf a n, use := .mgmt 0 } s t)) ∧
      (s.on (bankDom b) = true → s.doneAt (.mgmt 0) = some b → (∀ w ∈ wordsAt (eccSize b) a n, s.wordErr w < 2) →
        ∃ u t, exec .readMem s = .next t ∧ u = { s with banks := u.banks, regs := u.regs, hwNow := u.hwNow } ∧
          Answered f 0 (s.bytes a n) u t) ∧
      (s.on (bankDom b) = true → s.doneAt (.mgmt 0) = some b → (∃ w ∈ wordsAt (eccSize b) a n, s.wordErr w = 2) →
        ∃ u t, exec .readMem s = .next t ∧ u.mem = s.mem ∧ u.lan = s.lan ∧ Answered f 8 [] u t))) ∧
  (∀ (f p : List Byte) (s : State) (a n : Nat), s.asks 0x05 f → p = payload f → a = leField p 0 8 → n = p.length - 8 →
    ((p.length < 16 ∨ n % 8 ≠ 0 ∨ 1016 < n ∨ a % 8 ≠ 0 ∨ lanBank true a n = none) →
      ∃ t, exec .writeMem s = .next t ∧ Answered f 4 [] s t) ∧
    (∀ b, 16 ≤ p.length → n % 8 = 0 → n ≤ 1016 → a % 8 = 0 → lanBank true a n = some b →
      (s.on (bankDom b) = false → ∃ t, exec .writeMem s = .next t ∧ Answered f 6 [] s t) ∧
      (s.on (bankDom b) = true → s.doneAt (.mgmt 0) ≠ some b →
        ((∃ q ∈ (s.bank b).pend ++ (s.bank b).served, q.use = .mgmt 0) → exec .writeMem s = .next s) ∧
        ((∀ q ∈ (s.bank b).pend ++ (s.bank b).served, q.use ≠ .mgmt 0) → ∃ t, exec .writeMem s = .next t ∧
          AtBank b { r := 7, stamp := 4 * s.mc, beats := linesOf a n, use := .mgmt 0 } s t)) ∧
      (s.on (bankDom b) = true → s.doneAt (.mgmt 0) = some b → (∀ w ∈ wordsAt (eccSize b) a n, s.wordErr w < 2) →
        ∃ u t, exec .writeMem s = .next t ∧ u.lan = s.lan ∧ Answered f 0 [] u t ∧ ∀ x, u.byte x =
          if a ≤ x ∧ x < a + n ∧ s.guarded x = false ∧ s.ttLocked x 1 = false then p.getD (8 + (x - a)) 0 else s.byte x))) ∧
  (∀ (f p : List Byte) (s : State) (a n : Nat), s.asks 0x11 f → p = payload f → a = leField p 0 2 → n = leField p 2 2 →
    ((p.length ≠ 4 ∨ n = 0 ∨ 64 < n ∨ s.lan.log.length < a + n) → ∃ t, exec .readLog s = .next t ∧ Answered f 4 [] s t) ∧
    (p.length = 4 → n ≠ 0 → n ≤ 64 → a + n ≤ s.lan.log.length → ∃ t, exec .readLog s = .next t ∧
      Answered f 0 (((s.lan.log.drop a).take n).flatMap fun e => leBytes 8 e.time.toNat ++ leBytes 1 e.fault.cls ++
        leBytes 1 e.fault.unit ++ leBytes 2 e.fault.code ++ leBytes 4 e.fault.detail) { s with lan.logNew := false } t)) ∧
  (∀ (f p : List Byte) (s : State) (mask val set : Nat), s.asks 0x30 f → p = payload f → mask = leField p 0 2 →
    val = leField p 2 2 → set = s.setAfter mask val →
    ((p.length ≠ 4 ∨ 2 ^ 15 ≤ mask ∨ 2 ^ 15 ≤ val) → ∃ t, exec .domainSet s = .next t ∧ Answered f 4 [] s t) ∧
    (p.length = 4 → mask < 2 ^ 15 → val < 2 ^ 15 → s.switching = true → exec .domainSet s = .next s) ∧
    (p.length = 4 → mask < 2 ^ 15 → val < 2 ^ 15 → s.switching = false → (set % 4 ≠ 3 ∨ domSetOk set = false) →
      ∃ t, exec .domainSet s = .next t ∧ Answered f 4 [] s t) ∧
    (p.length = 4 → mask < 2 ^ 15 → val < 2 ^ 15 → set % 4 = 3 → domSetOk set = true →
      (s.switching = false → switchSeq s.domains set ≠ [] → exec .domainSet s = .next { s with
        pwr.seq := switchSeq s.domains set
        pwr.began := none
        lan.switching := true }) ∧
      (s.switching = false → switchSeq s.domains set = [] → ∃ t, exec .domainSet s = .next t ∧
        Answered f 0 (leBytes 2 s.domains) { s with pwr.seq := [], pwr.began := none } t))) ∧
  (∀ (f p : List Byte) (s : State) (c : Nat), s.asks 0x31 f → p = payload f → c = leField p 0 1 →
    ((p.length ≠ 1 ∨ c = 0 ∨ 14 < c) → ∃ t, exec .blockReset s = .next t ∧ Answered f 4 [] s t) ∧
    (p.length = 1 → 1 ≤ c → c ≤ 14 →
      (s.on (blockDom c) = false → ∃ t, exec .blockReset s = .next t ∧ Answered f 6 [] s t) ∧
      (s.on (blockDom c) = true → ∃ t, exec .blockReset s = .next t ∧
        Answered f 0 [] (askReplay [c] [] (resetBlock c s)) t))) ∧
  (∀ (f p : List Byte) (s : State) (o n : Nat), s.asks 0x40 f → p = payload f → o = leField p 0 2 → n = leField p 2 2 →
    ((p.length ≠ 4 ∨ n = 0 ∨ 1024 < n ∨ certLen < o + n) → ∃ t, exec .getCert s = .next t ∧
      Answered f 4 [] s t) ∧
    (p.length = 4 → n ≠ 0 → n ≤ 1024 → o + n ≤ certLen → ∃ t, exec .getCert s = .next t ∧
      Answered f 0 ((List.range n).map fun i => certAt (o + i)) s t)) ∧
  (certLen ≤ 2048 ∧ ∃ a k, a + 16 ≤ k ∧ k + 65 ≤ certLen ∧ certAt k = 0x04 ∧
    (∀ i, i < 64 → certAt (k + 1 + i) = markPublic.getD i 0) ∧
    ∀ i d, i < 16 → d = bitsOf Config.serial.toNat (4 * (15 - i)) 4 →
      (certAt (a + i)).toNat = if d < 10 then 0x30 + d else 0x37 + d) ∧
  (∀ (f p b : List Byte) (s : State) (sel : Nat), s.asks 0x41 f → p = payload f → sel = leField p 32 4 →
    b = s.attestBody (p.take 32) sel →
    ((p.length ≠ 36 ∨ 32 ≤ sel) → ∃ t, exec .attest s = .next t ∧ Answered f 4 [] s t) ∧
    (p.length = 36 → sel < 32 →
      ((s.lc = 4 ∨ s.flag VLT_STATUS_KEYLOST = true) → ∃ t, exec .attest s = .next t ∧ Answered f 5 [] s t) ∧
      (s.lc ≠ 4 → s.flag VLT_STATUS_KEYLOST = false →
        (s.bankUp 8 = false → exec .attest s = .next s) ∧
        (s.bankUp 8 = true → s.markHalf = none → ∃ t, exec .attest s = .next t ∧ Answered f 5 [] s t) ∧
        (∀ half, s.bankUp 8 = true → s.markHalf = some half → half.length = 32 → ∃ k u t, exec .attest s = .next t ∧
          0 < k ∧ k < p256N ∧ Answered f 0 (b ++ ecdsaSign (beNat half) k (sha256 b)) u t ∧
          u = { s with mem := u.mem, upset := u.upset, regs := u.regs, free := u.free, banks := u.banks } ∧ SameRegs s u [SAG_ECCINJ] ∧
          ∀ a, u.byte a = if sgsBase ≤ a ∧ a < sgsBase + 32 then 0 else s.byte a)))) ∧
  (∀ (f p : List Byte) (s : State), s.asks 0x50 f → payload f = [] →
    (s.flag LAN_MBSTAT_H2M_FULL = false → ∃ t, exec .mboxGet s = .next t ∧ Answered f 0 [0] s t) ∧
    (s.flag LAN_MBSTAT_H2M_FULL = true → p = (List.range 16).flatMap (fun k => leBytes 4 (s.reg (LAN_H2M k)).toNat) →
      ∃ u t, exec .mboxGet s = .next t ∧ u.f LAN_MBSTAT_H2M_FULL = 0 ∧ OnlyRegs s u [LAN_MBSTAT] ∧
        Answered f 0 (leBytes 1 (s.f LAN_H2MLEN_LEN) ++ p.take (s.f LAN_H2MLEN_LEN)) u t)) ∧
  (∀ (f p : List Byte) (s : State), s.asks 0x51 f → p = payload f →
    ((p = [] ∨ 64 < p.length) → ∃ t, exec .mboxPut s = .next t ∧ Answered f 4 [] s t) ∧
    (p ≠ [] → p.length ≤ 64 → s.flag LAN_MBSTAT_M2H_FULL = true → ∃ t, exec .mboxPut s = .next t ∧ Answered f 7 [] s t) ∧
    (p ≠ [] → p.length ≤ 64 → s.flag LAN_MBSTAT_M2H_FULL = false → ∃ u t, exec .mboxPut s = .next t ∧
      Answered f 0 [] u t ∧ u.f LAN_MBSTAT_M2H_FULL = 1 ∧ u.f LAN_M2HLEN_LEN = p.length ∧ u = { s with regs := u.regs } ∧
      ∀ i, i < 64 → bitsOf (u.reg (LAN_M2H (i / 4))).toNat (8 * (i % 4)) 8 =
        if i < p.length then (p.getD i 0).toNat else bitsOf (s.reg (LAN_M2H (i / 4))).toNat (8 * (i % 4)) 8))

/-- Writing a record (R426 to R429): REC_WRITE at offset 0 opens a session on the target slot, later data join it unless they
overlap or do not fit, and REC_FINISH ends it, in the slot good or bad. Sectors are erased in ascending order, and the oldest
bytes are programmed page by page from the staging buffer in SGM; a failure of the flash fails the session. No other byte of the
flash changes. The model's choices: the commands noted and the order by pages (log entry 55), an empty slot as SEQ 0 (54), a
restart that computes the target again (52), and the places of the staging buffer (96). -/
def Obligations.RecordsAreWritten : Prop :=
  (∀ (f p l : List Byte) (s : State) (off : Nat), s.asks 0x21 f → p = payload f → off = leField p 0 4 → l = p.drop 4 →
    ((p.length < 12 ∨ 1016 < p.length - 4 ∨ off % 8 ≠ 0) →
      ∃ t, exec .recWrite s = .next t ∧ Answered f 4 [] s t) ∧
    (12 ≤ p.length → p.length - 4 ≤ 1016 → off % 8 = 0 → s.bankUp 7 = false → exec .recWrite s = .next s) ∧
    (12 ≤ p.length → p.length - 4 ≤ 1016 → off % 8 = 0 → s.bankUp 7 = true →
      (s.recPermitted = false → ∃ t, exec .recWrite s = .next t ∧ Answered f 5 [] s t) ∧
      (s.recPermitted = true → off = 0 → (∀ w ∈ wordsAt 8 (sgmBase + 0x10000) l.length, s.wordErr w < 2) →
        ∃ u t, exec .recWrite s = .next t ∧ Answered f 0 [] u t ∧ SameRegs s u [SAG_ECCINJ, SAG_ECC 7, SAG_STATUS] ∧
        (∀ a, u.byte a = if sgmBase + 0x10000 ≤ a ∧ a < sgmBase + 0x10000 + l.length
          then l.getD (a - (sgmBase + 0x10000)) 0 else s.byte a) ∧
        u = { s with
          boot := u.boot
          mem := u.mem, upset := u.upset, regs := u.regs, hwNow := u.hwNow, banks := u.banks
          lan.session := some { slot := s.targetSlot, buf := [(0, l.length)], got := [(0, l.length)] }
          flashOut := s.flashOut ++ [⟨0x06, none⟩, ⟨0x20, some (s.targetSlot * 0x100000)⟩] }) ∧
      (s.recPermitted = true → off ≠ 0 → s.lan.session = none → ∃ t, exec .recWrite s = .next t ∧ Answered f 5 [] s t) ∧
      (∀ x, s.recPermitted = true → off ≠ 0 → s.lan.session = some x →
        (x.failed = true → ∃ t, exec .recWrite s = .next t ∧ Answered f 9 [] s t) ∧
        (x.failed = false → (1048576 < off + l.length ∨ ∃ q ∈ x.got, overlap off l.length q.1 q.2 = true) →
          ∃ t, exec .recWrite s = .next t ∧ Answered f 4 [] s t) ∧
        (x.failed = false → off + l.length ≤ 1048576 → (∀ q ∈ x.got, overlap off l.length q.1 q.2 = false) →
          (65536 < (x.buf.map fun q => q.2).sum + l.length → ∃ t, exec .recWrite s = .next t ∧
            Answered f 5 [] s t) ∧
          (∀ place : Nat → Nat, (∀ i, place i = sgmBase + 0x10000 + (x.head + (x.buf.map fun q => q.2).sum + i) % 65536) →
            (x.buf.map fun q => q.2).sum + l.length ≤ 65536 → (∀ i, i < l.length → s.wordErr (place i / 8 * 8) < 2) →
            ∃ u t, exec .recWrite s = .next t ∧ Answered f 0 [] u t ∧ SameRegs s u [SAG_ECCINJ, SAG_ECC 7, SAG_STATUS] ∧
            (∀ i, i < l.length → u.byte (place i) = l.getD i 0) ∧
            (∀ a, (∀ i, i < l.length → a ≠ place i) → u.byte a = s.byte a) ∧
            u = { s with
              mem := u.mem, upset := u.upset, regs := u.regs, hwNow := u.hwNow, banks := u.banks
              lan.session := some { x with buf := x.buf ++ [(off, l.length)], got := x.got ++ [(off, l.length)] } }))))) ∧
  (∀ (f : List Byte) (s : State), s.asks 0x22 f → payload f = [] →
    ((s.recPermitted = false ∨ s.lan.session = none) → ∃ t, exec .recFinish s = .next t ∧ Answered f 5 [] s t) ∧
    (∀ x n, s.recPermitted = true → s.lan.session = some x → n = (if s.applied.isSome = true then s.f GLB_BOOTSEQ_SEQ else 0) →
      (x.failed = true → ∃ t, exec .recFinish s = .next t ∧ Answered f 9 [] s t) ∧
      (x.failed = false → (x.erased ≠ 256 ∨ x.buf ≠ []) → ∃ t, exec .recFinish s = .next t ∧ Answered f 5 [] s t) ∧
      (∀ good : Prop, (good ↔ s.headerOk x.slot = true ∧ s.bodyOk x.slot = true ∧ s.digestOk x.slot = true ∧
          n < s.recSeq x.slot) → x.failed = false → x.erased = 256 → x.buf = [] →
        (good → ∃ u t, exec .recFinish s = .next t ∧ Answered f 0 [] u t ∧
          u = { s with boot := u.boot, lan.session := none, flashOut := u.flashOut } ∧ u.boot.goodS.testBit x.slot = true) ∧
        (¬good → ∃ u t, exec .recFinish s = .next t ∧ Answered f 5 [] u t ∧
          u = { s with boot := u.boot, lan.session := none, flashOut := u.flashOut } ∧ u.boot.badS.testBit x.slot = true)))) ∧
  (∀ (ok : Bool) (s : State),
    (s.lan.session = none → exec (.sectorEraseEnd ok) s = .next s ∧ exec (.pageProgramEnd ok) s = .next s) ∧
    (∀ x lo, s.lan.session = some x → lo = x.slot * 0x100000 + 4096 * x.erased →
      ((x.failed = true ∨ 256 ≤ x.erased ∨ s.boot.suspended = true) → exec (.sectorEraseEnd ok) s = .next s) ∧
      (x.failed = false → x.erased < 256 → s.boot.suspended = false → ok = false → ∃ t, exec (.sectorEraseEnd ok) s = .next t ∧
        t.lan.session = some { x with failed := true, buf := [] } ∧ t.boot.badS.testBit x.slot = true ∧ t.flash = s.flash) ∧
      (x.failed = false → x.erased < 256 → s.boot.suspended = false → ok = true →
        ∃ t, exec (.sectorEraseEnd ok) s = .next t ∧ t = { s with
          flash := t.flash
          lan.session := some { x with erased := x.erased + 1 }
          flashOut := s.flashOut ++ ⟨0x05, none⟩ ::
            if x.erased < 255 then [⟨0x06, none⟩, ⟨0x20, some (lo + 4096)⟩] else [] } ∧
        ∀ a, t.flashByte a = if lo ≤ a ∧ a < lo + 4096 then 0xFF else s.flashByte a)) ∧
    (∀ x, s.lan.session = some x → x.buf = [] → exec (.pageProgramEnd ok) s = .next s) ∧
    (∀ x o k r n, s.lan.session = some x → x.buf = (o, k) :: r → n = min k (256 - o % 256) →
      ((x.failed = true ∨ x.erased ≤ o / 4096 ∨ s.boot.suspended = true ∨ s.bankUp 7 = false) → exec (.pageProgramEnd ok) s = .next s) ∧
      (x.failed = false → o / 4096 < x.erased → s.boot.suspended = false → s.bankUp 7 = true → ok = false →
        ∃ t, exec (.pageProgramEnd ok) s = .next t ∧
        t.lan.session = some { x with failed := true, buf := [] } ∧ t.boot.badS.testBit x.slot = true ∧ t.flash = s.flash) ∧
      (∀ place : Nat → Nat, (∀ i, place i = sgmBase + 0x10000 + (x.head + i) % 65536) →
        x.failed = false → o / 4096 < x.erased → s.boot.suspended = false → s.bankUp 7 = true → ok = true →
        (∀ i, i < n → s.wordErr (place i / 8 * 8) < 2) →
        ∃ t, exec (.pageProgramEnd ok) s = .next t ∧ SameRegs s t [SAG_ECC 7, SAG_STATUS] ∧ t = { s with
          flash := t.flash
          regs := t.regs, hwNow := t.hwNow, banks := t.banks
          flashOut := s.flashOut ++ [⟨0x06, none⟩, ⟨0x02, some (x.slot * 0x100000 + o)⟩, ⟨0x05, none⟩]
          lan.session := some { x with head := x.head + n, buf := if n < k then (o + n, k - n) :: r else r } } ∧
        ∀ a, t.flashByte a = if x.slot * 0x100000 + o ≤ a ∧ a < x.slot * 0x100000 + o + n
          then s.byte (place (a - (x.slot * 0x100000 + o))) else s.flashByte a)))

/-! ### Start-up, the vault and the compatibility window -/

/-- Start-up: MGMT_START takes the straps, switches on HOST and KILN, and loads a record only in PROVISIONED and FIELD (R385,
R416, R420, R421). The valid headers give the order of the slots, the higher SEQ first (R416); pass 1 notes the hash of each
chunk, and chooses a slot or goes on to the next; where none remains the device runs with retry status ended (R416, R422). Pass
2 switches on the record's domains, waits for them, compares each chunk with its hash, applies its items in order and is
aborted where a chunk differs (R416 to R418); then come the commits, RUN, and DONE (R417). A replay suspends what the flash
does, fails where the digest is wrong, and ends with the commits of its blocks (R425, R431). An item waits for the grant of its
bank (R357) and for the Stay link (R502). The model's choices: the waits and the end at a bad chunk (log entry 53), ties (54), the
noted flash commands (55), the places in SGM (82, 96), and misread bytes (87). -/
def Obligations.StartUpAndReplay : Prop :=
  (∀ (spi : Bool) (a : Fin 8) (s : State),
    ((s.on 1 = false ∨ s.boot.phase ≠ .start) → exec (.mgmtStart spi a) s = .next s) ∧
    (s.on 1 = true → s.boot.phase = .start → ∃ t, exec (.mgmtStart spi a) s = .next t ∧ t.mem = s.mem ∧
      t.lan = { spi := spi, addr := a, outs := s.lan.outs } ∧ t.pwr.seq = switchSeq s.domains (s.domains ||| 0xC) ∧
      t.f VLT_LCSTAT_RESULT = 0 ∧ t.f VLT_LCSTAT_AUTHFAIL = 0 ∧ t.f VLT_STATUS_BUSY = 0 ∧ t.f VLT_STATUS_AUTHLOCK = 0 ∧
      t.flag VLT_STATUS_KEYLOST = s.markHalf.isNone ∧ t.f GLB_BOOTSEQ_SEQ = 0 ∧ t.f GLB_BOOT_DONE = 0 ∧
      ((s.lc = 1 ∨ s.lc = 2) → t.boot = { phase := .headers } ∧ t.f GLB_BOOT_RESULT = 0) ∧
      (s.lc ≠ 1 → s.lc ≠ 2 → t.boot = { phase := .run, answers := true } ∧ t.f GLB_BOOT_RESULT = 4))) ∧
  (∀ (s : State) (l : List Nat) (sent : List FlashCmd), l = (if s.recSeq 0 < s.recSeq 1 then [1, 0] else [0, 1]) →
    sent = s.flashOut ++ (if s.boot.awake = true then [] else [⟨0xAB, none⟩]) ++ [⟨0x0B, some 0⟩, ⟨0x0B, some 0x100000⟩] →
    (s.boot.phase ≠ .headers → exec .recordHeadersRead s = .next s) ∧
    (s.boot.phase = .headers → l.filter s.headerOk = [] → ∃ t, exec .recordHeadersRead s = .next t ∧
      t.f GLB_BOOT_RESULT = 3 ∧ t.boot.phase = .run ∧ t.boot.answers = true ∧ t.boot.best = (l.filter s.recMagic).head? ∧
      t = { s with regs := t.regs, boot := t.boot, flashOut := sent } ∧ SameRegs s t [GLB_BOOT]) ∧
    (∀ x r, s.boot.phase = .headers → l.filter s.headerOk = x :: r → exec .recordHeadersRead s = .next { s with
      boot.phase := .pass1
      boot.slot := x
      boot.order := r
      boot.at_ := 0
      boot.asked := false
      boot.awake := true
      boot.best := (l.filter s.recMagic).head?
      flashOut := sent })) ∧
  (∀ (s : State) (x h : Nat), x = s.boot.slot → h = sgmBase + hashAt 0 →
    ((s.boot.phase ≠ .pass1 ∨ s.bankUp 7 = false) → exec .pass1Complete s = .next s) ∧
    (s.boot.phase = .pass1 → s.bankUp 7 = true → ∃ t, exec .pass1Complete s = .next t ∧
      (∀ a, t.byte a = if h ≤ a ∧ a < h + 32 * s.chunks x
        then (sha256 (s.chunkBytes x ((a - h) / 32))).getD ((a - h) % 32) 0 else s.byte a) ∧
      (s.digestOk x = true → s.bodyOk x = true → t.boot.phase = .pass2 ∧ t.boot.chunk = 0 ∧
        t = { s with
          boot := t.boot, mem := t.mem, upset := t.upset, regs := t.regs, banks := t.banks
          flashOut := s.flashOut ++ (if s.boot.awake = true then [] else [⟨0xAB, none⟩]) ++ [⟨0x0B, some (x * 0x100000 + 256)⟩] } ∧
        SameRegs s t [SAG_ECCINJ] ∧ t.boot.slot = x ∧ t.boot.order = s.boot.order ∧ t.boot.answers = true ∧
        t.boot.header = s.recBytes x 0 256 ∧ t.boot.goodS.testBit x = true ∧
        (s.boot.answers = false → t.boot.subvid = s.recNat x 18 2 ∧ t.boot.subid = s.recNat x 20 2)) ∧
      ((s.digestOk x = false ∨ s.bodyOk x = false) → t.boot.badS.testBit x = true ∧
        (∀ y r, s.boot.order = y :: r → t.boot.phase = .pass1 ∧ t.boot.slot = y ∧ t.boot.order = r) ∧
        (s.boot.order = [] → t.boot.phase = .run ∧ t.f GLB_BOOT_RESULT = 3 ∧ t.boot.answers = true)))) ∧
  (∀ (misread : List (Nat × Byte)) (n x c : Nat) (s : State), x = s.boot.slot → c = s.boot.chunk →
    (∀ a, sgmBase + hashAt c ≤ a → a < sgmBase + hashAt (c + n) → s.wordErr (a / 8 * 8) = 0) →
    ∃ b t, checkChunks misread n s = (b, t) ∧
      t = { s with boot.chunk := t.boot.chunk, boot.awake := t.boot.awake, flashOut := t.flashOut, banks := t.banks } ∧ (b = true → t.boot.chunk = c + n) ∧
      (b = true ↔ ∀ k, c ≤ k → k < c + n →
        sha256 ((s.asRead x misread).chunkBytes x k) = s.bytes (sgmBase + hashAt k) 32)) ∧
  (∀ (s : State) (bad : List (Fin (2 ^ 20) × Byte)) (l : List (Nat × Byte)) (x doms : Nat),
    l = (bad.map fun p => (p.1.val, p.2)) → x = s.boot.slot → doms = s.recDomains x →
    ((s.boot.phase ≠ .pass2 ∨ s.switching = true ∨ s.bankUp 7 = false) → exec (.recordApply bad) s = .next s) ∧
    (s.boot.phase = .pass2 → s.switching = false → s.bankUp 7 = true →
      (s.boot.asked = false → switchSeq s.domains (s.domains ||| doms) = [] → exec (.recordApply bad) s =
        exec (.recordApply bad) { s with pwr.began := none, boot.asked := true }) ∧
      (s.boot.asked = false → switchSeq s.domains (s.domains ||| doms) ≠ [] → exec (.recordApply bad) s = .next { s with
        pwr.seq := switchSeq s.domains (s.domains ||| doms)
        pwr.began := none
        boot.asked := true }) ∧
      (s.boot.asked = true → s.setReady doms = false → exec (.recordApply bad) s = .next s) ∧
      (s.boot.asked = true → s.setReady doms = true →
        (s.boot.waitFor = none →
          (∀ b t, (s.items x).drop s.boot.at_ = [] → checkChunks l (s.chunks x - s.boot.chunk) s = (b, t) →
            exec (.recordApply bad) s = .next (if b = true then { t with boot.phase := .commits } else abortLoad t)) ∧
          (∀ n it r b t, (s.items x).drop s.boot.at_ = (n, it) :: r →
            checkChunks l (n / 4096 + 1 - s.boot.chunk) s = (b, t) →
            (b = false → exec (.recordApply bad) s = .next (abortLoad t)) ∧
            (b = true → t.itemReady it = false → exec (.recordApply bad) s = .next (askItem it t)) ∧
            (b = true → t.itemReady it = true → exec (.recordApply bad) s =
              .next (applyItems l r (applyItem x true it { takeItem it t with boot.at_ := s.boot.at_ + 1 }))))) ∧
        (∀ e, s.boot.waitFor = some e →
          ((s.eng e).check.isSome = true → exec (.recordApply bad) s = .next s) ∧
          ((s.eng e).check.isSome = false → exec (.recordApply bad) s = exec (.recordApply bad)
            (if s.f (COIL_LDSTAT_CODE e) = 0 then { s with boot.waitFor := none }
              else { s with boot.waitFor := none }.setF GLB_BOOT_CHECKFAIL 1)))))) ∧
  (∀ (s : State) (it : RecItem), (∀ off v, it = .reg off v → askItem it s = s ∧ takeItem it s = s ∧
      (s.itemReady it = true ↔ s.proxyWaits off = false)) ∧
    (∀ a n, it = .fw a n → s.itemReady it = true ∧ takeItem it s = s) ∧
    ∀ first a d, it = .mem first a d →
      ((bankOf a = none ∨ ∃ b, bankOf a = some b ∧ s.on (bankDom b) = false) → s.itemReady it = true ∧ takeItem it s = s) ∧
      ∀ b, bankOf a = some b → s.on (bankDom b) = true → (s.itemReady it = true ↔ s.doneAt (.mgmt 1) = some b) ∧
        (∀ q, q ∈ ((takeItem it s).bank b).served ↔ q ∈ (s.bank b).served ∧ q.use ≠ .mgmt 1) ∧
        ((∃ q ∈ (s.bank b).pend ++ (s.bank b).served, q.use = .mgmt 1) → askItem it s = s) ∧
        ((∀ q ∈ (s.bank b).pend ++ (s.bank b).served, q.use ≠ .mgmt 1) →
          AtBank b { r := 7, stamp := 4 * s.mc, beats := linesOf a d.length, use := .mgmt 1 } s (askItem it s))) ∧
  (∀ (g : State → State) (s t : State), t = g s → (t.refusals ≤ s.refusals → loaderWrite g s = t) ∧
    (s.refusals < t.refusals → OnlyRegs t (loaderWrite g s) [GLB_BOOT] ∧
      (loaderWrite g s).f GLB_BOOT_REFUSED = min (t.f GLB_BOOT_REFUSED + (t.refusals - s.refusals)) 0xFF)) ∧
  (∀ (x off v : Nat) (fw : Bool) (s t : State), t = loaderWrite (regWrite 1 off (BitVec.ofNat 32 v)) s →
    (loadEntry off v = none → applyItem x fw (.reg off v) s = t) ∧
    ∀ e, loadEntry off v = some e → applyItem x fw (.reg off v) s = { t with boot.waitFor := some e }) ∧
  (∀ (s : State) (p : Nat → Bool), s.commitWaits p = true ↔ ∃ off ∈ commitOffs, p off = true ∧ s.proxyWaits off = true) ∧
  (∀ s t : State, t = abortLoad s → (∀ a, bankBase 4 ≤ a → a < bankBase 4 + bankSize 4 → t.byte a = 0) ∧
    t.pwr.seq = switchSeq s.domains (s.domains &&& 7) ∧ t.boot.fw = none ∧ t.boot.header = [] ∧
    t.f GLB_BOOT_REFUSED = 0 ∧ t.f GLB_BOOT_CHECKFAIL = 0 ∧ t.boot.badS.testBit s.boot.slot = true) ∧
  (∀ (s t : State) (x : Nat), t = loadDone s → x = s.boot.slot → t.f GLB_BOOT_DONE = 1 ∧ t.f GLB_BOOT_ACTIVE = x % 2 ∧
    t.f GLB_BOOTSEQ_SEQ = s.recSeq x ∧ t.f GLB_BOOT_RESULT = (if s.boot.best = some x then 1 else 2) ∧
    t.f GLB_BOOT_FWREC = s.boot.fw.isSome.toNat ∧ t.boot = { s.boot with phase := .ended } ∧ t.mem = s.mem ∧
    SameRegs s t [GLB_BOOT, GLB_BOOTSEQ]) ∧
  (∀ s : State, (s.boot.phase ≠ .commits → s.boot.phase ≠ .run → exec .bootDone s = .next s) ∧
    (s.boot.phase = .commits → s.commitWaits (fun _ => true) = true → exec .bootDone s = .next s) ∧
    (∀ u v, s.boot.phase = .commits → s.commitWaits (fun _ => true) = false → u = commitAll (fun _ => true) s →
      v = (if u.flag MST_CTRL_RUN = true then u else loaderWrite (setField 1 MST_CTRL_RUN 1) u) →
      ((u.boot.header.getD 6 0).toNat.testBit 0 = false → exec .bootDone s = .next (loadDone u)) ∧
      ((u.boot.header.getD 6 0).toNat.testBit 0 = true → exec .bootDone s = .next { v with boot.phase := .run })) ∧
    (s.boot.phase = .run → s.f GLB_BOOT_RESULT ≠ 0 → ∃ t, exec .bootDone s = .next t ∧ t.f GLB_BOOT_DONE = 1 ∧
      t = { s with regs := t.regs, boot.phase := .ended } ∧ SameRegs s t [GLB_BOOT]) ∧
    (s.boot.phase = .run → s.f GLB_BOOT_RESULT = 0 →
      (s.flag MST_CTRL_RUN = true → s.running = false → exec .bootDone s = .next s) ∧
      (s.flag MST_CTRL_RUN = false ∨ s.running = true → exec .bootDone s = .next (loadDone
        (loaderWrite (setField 1 KLN_CTRL_RUN 1) (loaderWrite (regWrite64 1 KLN_FIRST (s.now + 51200)) s)))))) ∧
  (∀ (bad : List (Fin (2 ^ 20) × Byte)) (s : State),
    (s.boot.replays = [] → exec (.replay bad) s = .next s) ∧
    (∀ r l x v k, s.boot.replays = r :: l → x = s.f GLB_BOOT_ACTIVE →
      v = s.asRead x (bad.map fun p => (p.1.val, p.2)) → k = s.boot.replayAt.getD 0 →
      (s.boot.replayAt = none → v.digestOk x = false → ∃ t, exec (.replay bad) s = .next t ∧
        t.f GLB_BOOT_REPLAYFAIL = 1 ∧ SameRegs s t [GLB_BOOT] ∧ t = { s with
          regs := t.regs
          hwNow := t.hwNow
          boot.replays := l
          boot.replayAt := none
          boot.suspended := false
          boot.awake := true
          flashOut := t.flashOut }) ∧
      ((s.boot.replayAt.isSome = true ∨ v.digestOk x = true) →
        (s.setReady (r.2.foldl (fun v d => v ||| 2 ^ d) 0 &&& s.domains) = false → exec (.replay bad) s = .next s) ∧
        (s.setReady (r.2.foldl (fun v d => v ||| 2 ^ d) 0 &&& s.domains) = true → s.boot.waitFor = none →
          ∃ u w, u = { s with
              boot.replayAt := some k, boot.awake := true, boot.suspended := s.flashBusy || s.boot.suspended
              flashOut := s.flashOut ++ (if s.flashBusy = true ∧ s.boot.suspended = false then [⟨0x75, none⟩] else []) ++
                (if s.boot.awake = true then [] else [⟨0xAB, none⟩]) ++ [⟨0x0B, some (x * 0x100000)⟩] } ∧
            w = { u with
              boot.replays := l, boot.replayAt := none, boot.suspended := false
              flashOut := u.flashOut ++ if u.boot.suspended = true then [⟨0x7A, none⟩] else [] } ∧
            (∀ it m, (v.replayItems r x).drop k = it :: m → u.itemReady it = false →
              exec (.replay bad) s = .next (askItem it u)) ∧
            ((v.replayItems r x).drop k = [] → s.commitWaits (inReplay r) = true → exec (.replay bad) s = .next u) ∧
            ((v.replayItems r x).drop k = [] → s.commitWaits (inReplay r) = false →
              exec (.replay bad) s = .next (commitAll (inReplay r) w))))))

/-- The vault: GO by the management controller begins a transition, and holds what it uses (R445, R452); its steps give
RESULT, blow the fuse group of the target unless it does not read back, end BUSY, and count failures up to the lock at 16 (R442, R443, R445, R447). A trip
sets its live bits; an enabled one its sticky bit, erases the wrap key, wipes SGS, aborts a transition and is logged (R440,
R441, R448, R452). VLT_TAMPEN cannot be written from FIELD on (R442, R452). The model's choices: a trip
while MGMT is off acts on SGS, the transition and the log later (log entry 57); what a fuse failure leaves programmed, and the GO
bit of VLT_LCCMD (56). -/
def Obligations.VaultTransitions : Prop :=
  (∀ (req : Fin 4) (g : Fin 8) (s : State), s.reaches VLT_LCCMD →
    ((req ≠ 1 ∨ s.flag VLT_STATUS_BUSY = true) → ∃ t, exec (.lifecycleGo req g) s = .next t ∧ Refused req VLT_LCCMD s t) ∧
    (req = 1 → s.flag VLT_STATUS_BUSY = false → ∃ t, exec (.lifecycleGo req g) s = .next t ∧
      t.f VLT_STATUS_BUSY = 1 ∧ SameRegs s t [VLT_STATUS] ∧
      t = { s with
        regs := t.regs
        vault.go := some (g.val, s.vault.held)
        vault.held := []
        vault.aborted := false })) ∧
  (∀ (dfail sfail begun : Bool) (s : State),
    (s.vault.go = none → exec (.lifecycleComplete dfail sfail begun) s = .next s) ∧
    (∀ (g : Nat) (h : SMap Word) (code : Nat), s.vault.go = some (g, h) →
      code = (if s.vault.aborted = true ∧ begun = false then 7 else if s.lcCheck g h ≠ 1 then s.lcCheck g h
        else if g = 1 ∧ dfail = true ∨ sfail = true then 6 else 1) →
      ∃ t, exec (.lifecycleComplete dfail sfail begun) s = .next t ∧ t.f VLT_LCSTAT_RESULT = code ∧
        t.f VLT_STATUS_BUSY = 0 ∧ t.vault.go = none ∧ t.vault.aborted = false ∧
        t.f VLT_LCSTAT_AUTHFAIL = (if code = 3 ∨ code = 4 then min 16 (s.f VLT_LCSTAT_AUTHFAIL + 1)
          else if code = 1 then 0 else s.f VLT_LCSTAT_AUTHFAIL) ∧
        ((code = 3 ∨ code = 4) → 15 ≤ s.f VLT_LCSTAT_AUTHFAIL → t.f VLT_STATUS_AUTHLOCK = 1) ∧
        (code ≠ 1 → t.mem = s.mem ∧ t.vault = { s.vault with go := none, aborted := false, digest := t.vault.digest } ∧
          (∀ i, s.vault.digest.testBit i = true → t.vault.digest.testBit i = true) ∧
          (∀ i, t.vault.digest.testBit i = true →
            s.vault.digest.testBit i = true ∨ (leNat (heldBytes h (VLT_DIG 0) 8)).testBit i = true) ∧
          (code ≠ 6 ∨ g ≠ 1 → t.vault.digest = s.vault.digest)) ∧
        (code = 1 → t.vault.f0 = (s.vault.f0 || g == 1) ∧ t.vault.f1 = (s.vault.f1 || g == 2) ∧
          t.vault.f2 = (s.vault.f2 || g == 3) ∧ t.vault.f3 = (s.vault.f3 || g == 4) ∧
          (2 ≤ g → t.f VLT_TAMPEN_EN = 31) ∧ (g = 4 → t.vault.key = 0 ∧ t.vault.wrapped = s.vault.wrapped.map fun _ => 0xFF) ∧
          (g = 1 → t.vault.digest = s.vault.digest ||| leNat (heldBytes h (VLT_DIG 0) 8)) ∧
          (s.on 1 = true → t.flag (bitFld SAG_BUSY_CLEARING 8) = true)))) ∧
  (∀ (m : Fin 32) (s : State) (new act : Nat), new = m.val &&& (31 - s.f VLT_TAMPSTAT_LIVE) →
    act = new &&& s.f VLT_TAMPEN_EN →
    (s.on 0 = false → exec (.tamperTrip m) s = .next s) ∧
    (s.on 0 = true → ∃ t, exec (.tamperTrip m) s = .next t ∧
      t.f VLT_TAMPSTAT_LIVE = (s.f VLT_TAMPSTAT_LIVE ||| m.val) ∧ t.f VLT_TAMPSTAT_STICKY = (s.f VLT_TAMPSTAT_STICKY ||| act) ∧
      (act = 0 → OnlyRegs s t [VLT_TAMPSTAT]) ∧
      (act ≠ 0 → t.vault.key = 0 ∧
        (s.on 1 = false → t.vault.tripOff = true ∧ t.mem = s.mem) ∧
        (s.on 1 = true → t.flag (bitFld SAG_BUSY_CLEARING 8) = true ∧
          t.vault.aborted = (s.vault.aborted || s.flag VLT_STATUS_BUSY) ∧
          t.faults = s.faults ++ ((List.range 5).filter act.testBit).map fun k => ⟨9, k, 0, 0⟩)))) ∧
  (∀ (req : Fin 4) (m : Fin 32) (s : State), s.reaches VLT_TAMPEN →
    ((req ≠ 1 ∨ 2 ≤ s.lc) → ∃ t, exec (.tampenWrite req m) s = .next t ∧ Refused req VLT_TAMPEN s t) ∧
    (req = 1 → s.lc < 2 → ∃ t, exec (.tampenWrite req m) s = .next t ∧ t.f VLT_TAMPEN_EN = m.val ∧
      (m.val &&& (31 - s.f VLT_TAMPEN_EN) &&& s.f VLT_TAMPSTAT_LIVE = 0 → OnlyRegs s t [VLT_TAMPEN]) ∧
      (m.val &&& (31 - s.f VLT_TAMPEN_EN) &&& s.f VLT_TAMPSTAT_LIVE ≠ 0 → t.vault.key = 0 ∧
        t.flag (bitFld SAG_BUSY_CLEARING 8) = true))) ∧
  (∀ (m : Fin 32) (s : State), ∃ t, exec (.tamperSensorRelease m) s = .next t ∧
    t.f VLT_TAMPSTAT_LIVE = (s.f VLT_TAMPSTAT_LIVE &&& (31 - m.val)) ∧
    t.f VLT_TAMPSTAT_STICKY = s.f VLT_TAMPSTAT_STICKY ∧ OnlyRegs s t [VLT_TAMPSTAT])

/-- Timers of the compatibility window: one is enabled where its bank is and its engine is idle, else REJ and GLB_WERR are set
(R403); disabling one stops it, but what the present boundary was to issue still issues; FLUSH waits for the next boundary, and
a bank that is disabled stops its four timers with PWRLOSS, and they issue no more (R406). At B + 2 mc a channel issues one
action for each of its times in the window, by its settings at B, as output or pulse, in the name of the timer's engine (R404,
R405, R408). The model's choice: a disable of a bank acts where EN was 0 already (log entry 22). -/
def Obligations.LegacyTimers : Prop :=
  (∀ (req : Fin 4) (n : Fin 16) (s : State) (b k : Nat), b = n.val / 4 → k = n.val % 4 → s.reaches (LGC_TCTRL b k) →
    (s.flag (LGC_TCTRL_EN b k) = true → exec (.legacyTimerEnable req n) s = .next s) ∧
    (s.flag (LGC_TCTRL_EN b k) = false → s.flag (LGC_BCTRL_EN b) = true → s.on (dCL b) = true → s.engState n = 1 →
      ∃ t, exec (.legacyTimerEnable req n) s = .next t ∧ t.f (LGC_TCTRL_EN b k) = 1 ∧ OnlyRegs s t [LGC_TCTRL b k]) ∧
    (s.flag (LGC_TCTRL_EN b k) = false →
      (s.flag (LGC_BCTRL_EN b) = false ∨ s.on (dCL b) = false ∨ s.engState n ≠ 1) →
      ∃ u t, exec (.legacyTimerEnable req n) s = .next t ∧ u.f (LGC_TSTAT_REJ b k) = 1 ∧ OnlyNoted s u [LGC_TSTAT b k] ∧
        Refused reqCheck (LGC_TCTRL b k) u t) ∧
    (s.flag (LGC_TCTRL_EN b k) = false → exec (.legacyTimerDisable req n) s = .next s) ∧
    (s.flag (LGC_TCTRL_EN b k) = true → ∃ t, exec (.legacyTimerDisable req n) s = .next t ∧
      t.f (LGC_TCTRL_EN b k) = 0 ∧ t.f (LGC_TSTAT_STARTED b k) = 0 ∧ SameRegs s t [LGC_TCTRL b k, LGC_TSTAT b k] ∧
      t = { s with regs := t.regs, lgc.starts := t.lgc.starts } ∧ t.lgc.win = s.lgc.win ∧
      ∀ x, mget t.lgc.starts x 0 = if x = n.val then 0 else mget s.lgc.starts x 0) ∧
    (exec (.flush req n) s = .next { s with
      lgc.flush := if s.lgc.flush.contains n.val = true then s.lgc.flush else s.lgc.flush ++ [n.val] })) ∧
  (∀ (req : Fin 4) (b : Fin 4) (s : State), s.reaches (LGC_BCTRL b) →
    ∃ t, exec (.legacyBankDisable req b) s = .next t ∧ t.f (LGC_BCTRL_EN b) = 0 ∧
      t = { s with regs := t.regs, hwNow := t.hwNow, lgc := t.lgc } ∧ t.lgc.flush = s.lgc.flush ∧
      (∀ k, k < 4 → t.f (LGC_TCTRL_EN b k) = 0 ∧ t.f (LGC_TSTAT_STARTED b k) = 0 ∧ t.f (LGC_TSTAT_PWRLOSS b k) = 1) ∧
      t.lgc.win = (s.lgc.win.map fun w => { w with jobs := w.jobs.filter fun j => j.timer / 4 != b.val }) ∧
      ∀ c : Fin 4, c ≠ b → t.reg (LGC_BCTRL c) = s.reg (LGC_BCTRL c) ∧
        ∀ k, k < 4 → t.reg (LGC_TCTRL c k) = s.reg (LGC_TCTRL c k) ∧ t.reg (LGC_TSTAT c k) = s.reg (LGC_TSTAT c k)) ∧
  (∀ s : State, (s.lgc.win = none → exec .legacyIssue s = .next s) ∧
    (∀ w, s.lgc.win = some w → s.mc < w.mc + 2 → exec .legacyIssue s = .next s) ∧
    (∀ w, s.lgc.win = some w → w.mc + 2 ≤ s.mc → w.jobs = [] → w.flush = [] →
      exec .legacyIssue s = .next { s with lgc.win := none }) ∧
    (∀ (w : LegWin) (j : LegJob) (k x : Nat), s.lgc.win = some w → w.mc + 2 ≤ s.mc → w.jobs = [j] → w.flush = [] →
      j.ch < 16 → x = (w.at_ + fc (256 * 200) - j.start).toNat / 256 →
      ((j.mode = 0 ∨ 3 < j.mode) → exec .legacyIssue s = .next { s with lgc.win := none }) ∧
      ((j.mode = 1 ∨ j.mode = 3 ∨ j.mode = 2 ∧ k = 0) → w.period ≤ j.per → x ≤ k * j.per + j.delay →
        k * j.per + j.delay < x + w.period →
        exec .legacyIssue s = .next (handOn j.timer j.timer s.mc (w.at_ + fc 512)
          { time := j.start + fc (256 * (k * j.per + j.delay)), port := j.ch, code := if j.mode = 3 then 0x03 else 0x04,
            tag := 0x800 + j.ch, param := if j.mode = 3 then 0 else 256 * j.width }
          { s with lgc.win := none }))))
/-! ### Forestay -/

/-- Forestay links: a link that the configuration allows comes up, but not on a comma of its own direction (R453); one that
goes down loses its queues and its delay, and FA takes its reference and ALIGNED with it (R453, R460, R461). In each frame slot
CALT, CALR, CALH, TREE and messages go out in their places, each as its 8 symbols (R454 to R456, R463). A frame with a wrong comma
or CRC carries nothing, and the eighth in a row takes the link down (R453, R454). A received frame carries a depth (R463); CALR, the
next CALT and its CALH complete a calibration set, which gives DELAY and on FA the offset, or LINKERR (R458, R475), with which the
device joins its parent and becomes ALIGNED (R459 to R461); TREE is summed at the root (R463); an event is scheduled, forwarded and
delivered once (R464). EN = 0 ends all of it (R474). The model's choices: the values of the comma symbols, and the slots that go by on
a link of the root that is down (log entry 97). -/
def Obligations.ForestayLinks : Prop :=
  (∀ (x : Fin 3) (own : Bool) (s : State) (may : Prop), (may ↔ s.frsEn = true ∧ (x = 0 ∧ s.isRoot = false ∨
      x = 1 ∧ s.flag FRS_CFG_FBEN = true ∨ x = 2 ∧ s.flag FRS_CFG_FCEN = true)) →
    (¬may → exec (.linkUp x own) s = .next s) ∧
    (may → own = true → ∃ t, exec (.linkUp x own) s = .next t ∧ t.f FRS_STATUS_LINKERR = 1 ∧ OnlyNoted s t [FRS_STATUS]) ∧
    (may → own = false → ∃ t, exec (.linkUp x own) s = .next t ∧ t.linkOn x = true ∧ t.flink x = {} ∧
      t = { s with regs := t.regs, frs.links := t.frs.links } ∧ SameRegs s t [FRS_STATUS] ∧
      ∀ y, y < 3 → y ≠ x.val → t.linkOn y = s.linkOn y ∧ t.flink y = s.flink y)) ∧
  (∀ (x : Fin 3) (s : State),
    (s.linkOn x = false → exec (.linkDown x) s = .next s) ∧
    (s.linkOn x = true → ∃ t, exec (.linkDown x) s = .next t ∧ t.linkOn x = false ∧ t.f (FRS_DELAY_DELAY x) = 0 ∧
      t.flink x = { slot := (s.flink x).slot } ∧ (∀ y, y ≠ x.val → t.flink y = s.flink y) ∧
      t.f FRS_STATUS_OPBUSY = (if (t.flink 1).ops = [] ∧ (t.flink 2).ops = [] then 0 else s.f FRS_STATUS_OPBUSY) ∧
      (x = 0 → t.f FRS_STATUS_ALIGNED = 0 ∧ t.frs.offN = 0 ∧ t.frs.goodN = 0 ∧ t.frs.again = true) ∧
      ((x ≠ 0 ∨ s.f MST_STATUS_REF_ACTIVE ≠ 4) → t = { s with regs := t.regs, frs := t.frs } ∧
        SameRegs s t [FRS_STATUS, FRS_DELAY x]) ∧
      (x = 0 → s.f MST_STATUS_REF_ACTIVE = 4 → t.refValid = false ∧ (s.flag MST_STATUS_HOLDOVER = false →
        t.f MST_STATUS_HOLDOVER = 1 ∧ t.f MST_STATUS_REFLOST = 1 ∧ t.f MST_STATUS_LOCKED = 0)))) ∧
  (∀ (x : Fin 3) (fine : Fin 256) (s : State) (n : Nat) (l : FLink), l = s.flink x → n = l.slot →
    (s.linkOn x = false → s.isRoot = false → exec (.frameSlot x fine) s = .next s) ∧
    (s.linkOn x = false → s.isRoot = true → s.frsEn = true → (x = 1 ∧ s.flag FRS_CFG_FBEN = true ∨ x = 2 ∧ s.flag FRS_CFG_FCEN = true) →
      ∃ t, exec (.frameSlot x fine) s = .next t ∧ t.flink x = { l with slot := (n + 1) % 1024 } ∧ t.frs.sent = s.frs.sent ∧
        (∀ y, y ≠ x.val → t.flink y = s.flink y) ∧ t = { s with regs := t.regs, frs := t.frs } ∧ (n ≠ 1016 → t.regs = s.regs)) ∧
    (s.linkOn x = true → ∃ t ty pay frame, exec (.frameSlot x fine) s = .next t ∧
      t.frs.sent = s.frs.sent ++ [(x.val, frame)] ∧ FrameOf (if x = 0 then 0x3C else 0xBC) ty (min s.frs.depth 31) pay frame ∧
      (t.flink x).slot = (n + 1) % 1024 ∧
      (∀ y, y ≠ x.val → t.flink y = s.flink y) ∧ t = { s with regs := t.regs, frs := t.frs } ∧
      (n % 32 = 0 → ty = 1 ∧ pay = (s.pinTime fine).toNat % 2 ^ 32 ∧ (t.flink x).sentT = some (s.pinTime fine)) ∧
      (n % 32 = 8 → ty = 2 ∧ pay = (l.gotT.getD 0).toNat % 2 ^ 32) ∧
      (n % 32 = 16 → ty = 7 ∧ pay = (l.sentT.getD 0).toNat / 2 ^ 32) ∧
      (n % 32 = 24 → (x = 0 → n / 32 = 31 → ty = 6 ∧ pay = s.treeSum) ∧ ((x ≠ 0 ∨ n / 32 ≠ 31) → ty = 0 ∧ pay = 0)) ∧
      (n % 8 ≠ 0 →
        (∀ a r, l.ops = a :: r → (ty, pay) = a ∧ (t.flink x).ops = r ∧ (t.flink x).evs = l.evs ∧
          t.f FRS_STATUS_OPBUSY = if (t.flink 1).ops = [] ∧ (t.flink 2).ops = [] then 0 else s.f FRS_STATUS_OPBUSY) ∧
        (∀ v r, l.ops = [] → l.evs = v :: r → ty = 3 ∧ pay = v ∧ (t.flink x).evs = r) ∧
        (l.ops = [] → l.evs = [] → ty = 0 ∧ pay = 0)))) ∧
  (∀ (x : Fin 3) (fine : Fin 256) (s : State), s.isRoot = true → (s.flink x).slot = 1016 →
    (s.linkOn x = true ∨ s.frsEn = true ∧ (x = 1 ∧ s.flag FRS_CFG_FBEN = true ∨ x = 2 ∧ s.flag FRS_CFG_FCEN = true)) →
    ∃ u, exec (.frameSlot x fine) s = .next u ∧ u.f FRS_TREE_COUNT = bitsOf s.treeSum 0 6 ∧ u.f FRS_TREE_ALIGNED = bitsOf s.treeSum 6 6 ∧
      u.f FRS_TREE_DEPTHMAX = bitsOf s.treeSum 12 5) ∧
  (∀ (x : Fin 3) (h : FrsHead) (pay : Word) (fine : Fin 256) (s : State) (c : Nat × Nat × Instr),
    c ∈ [(1, pay.toNat, Instr.calt x h pay fine), (2, pay.toNat, .calr x h pay), (7, pay.toNat, .calh x h pay),
      (6, pay.toNat, .tree x h pay), (0, 0, .idle x h), (3, pay.toNat, .event x h pay), (4, pay.toNat, .opstart x h pay),
      (5, pay.toNat, .opcont x h pay)] →
    (s.linkOn x = false → exec c.2.2 s = .next s) ∧
    (s.linkOn x = true → ¬GoodFrame x c.1 h c.2.1 →
      ((s.flink x).bad < 7 → ∃ t, exec c.2.2 s = .next t ∧ t = { s with frs.links := t.frs.links } ∧
        t.flink x = { s.flink x with bad := (s.flink x).bad + 1 } ∧ ∀ y, y ≠ x.val → t.flink y = s.flink y) ∧
      (7 ≤ (s.flink x).bad → exec c.2.2 s = exec (.linkDown x) s))) ∧
  (∀ (x : Fin 3) (h : FrsHead) (pay : Word) (fine : Fin 256) (s : State) (l : FLink) (d : Nat), s.linkOn x = true →
    l = { s.flink x with bad := 0 } → d = h.depth →
    (GoodFrame x 1 h pay.toNat → ∃ t, exec (.calt x h pay fine) s = .next t ∧ DepthFrom x d s t ∧
      t = { s with regs := t.regs, frs := t.frs } ∧ SameRegs s t [FRS_STATUS] ∧ t.flink x = { l with
        gotLow := some pay.toNat, gotT := some (s.pinTime fine), peerT2 := none
        pair := l.peerT2.bind fun t2 => l.ansT1.map fun t1 => (t1, t2) } ∧
      ∀ y, y ≠ x.val → t.flink y = s.flink y) ∧
    (GoodFrame x 2 h pay.toNat → ∃ t, exec (.calr x h pay) s = .next t ∧ DepthFrom x d s t ∧
      t = { s with regs := t.regs, frs := t.frs } ∧ SameRegs s t [FRS_STATUS] ∧
      t.flink x = { l with peerT2 := l.sentT.map fun _ => pay.toNat, ansT1 := l.sentT } ∧
      ∀ y, y ≠ x.val → t.flink y = s.flink y) ∧
    (GoodFrame x 0 h 0 → ∃ t, exec (.idle x h) s = .next t ∧ DepthFrom x d s t ∧ t = { s with regs := t.regs, frs := t.frs } ∧
      SameRegs s t [FRS_STATUS] ∧ t.flink x = l ∧ ∀ y, y ≠ x.val → t.flink y = s.flink y) ∧
    (GoodFrame x 6 h pay.toNat → ∃ t, exec (.tree x h pay) s = .next t ∧ DepthFrom x d s t ∧
      t = { s with regs := t.regs, frs := t.frs } ∧ (∀ y, y ≠ x.val → t.flink y = s.flink y) ∧
      (x = 0 → t.flink x = l) ∧ (x ≠ 0 → t.flink x = { l with tree := some pay.toNat }) ∧
      (x ≠ 0 → s.isRoot = true → t.f FRS_TREE_COUNT = bitsOf t.treeSum 0 6 ∧ t.f FRS_TREE_ALIGNED = bitsOf t.treeSum 6 6 ∧
        t.f FRS_TREE_DEPTHMAX = bitsOf t.treeSum 12 5))) ∧
  (∀ (x : Fin 3) (h : FrsHead) (pay : Word) (s : State) (l : FLink) (d : Nat), s.linkOn x = true →
    l = { s.flink x with bad := 0 } → d = h.depth → GoodFrame x 7 h pay.toNat →
    ((l.pair = none ∨ l.gotLow = none ∨ l.gotT = none) → ∃ t, exec (.calh x h pay) s = .next t ∧ DepthFrom x d s t ∧
      t = { s with regs := t.regs, frs := t.frs } ∧ t.flink x = l ∧ ∀ y, y ≠ x.val → t.flink y = s.flink y) ∧
    (∀ (t1 t3 t4 : Time) (t2 lo : Nat) (w half : Int), l.pair = some (t1, t2) → l.gotLow = some lo →
      l.gotT = some t4 → t3 = BitVec.ofNat 64 (pay.toNat * 2 ^ 32 + lo) →
      (w - ((t3.toNat : Int) - t2)) % 2 ^ 32 = 0 → -(2 ^ 31) ≤ w → w < 2 ^ 31 → half = ((t4 - t1).toInt - w) * 32 →
      (2560 * 64 < half → ∃ t, exec (.calh x h pay) s = .next t ∧ t.f FRS_STATUS_LINKERR = 1 ∧ t.linkOn x = false) ∧
      (half ≤ 2560 * 64 → x ≠ 0 → ∃ t, exec (.calh x h pay) s = .next t ∧ t.f (FRS_DELAY_DELAY x) = ofSigned 32 half ∧
        t.flink x = { l with pair := none } ∧ t = { s with regs := t.regs, frs := t.frs } ∧ SameRegs s t [FRS_DELAY x]) ∧
      (∀ (ofs : Int) (joins : Prop), half ≤ 2560 * 64 → x = 0 → ofs = (t3 - t4).toInt * 64 + half + toSigned 32 (s.f FRS_ASYM_A) →
        (joins ↔ s.flag FRS_CFG_FOLLOW = true ∧ s.frsEn = true ∧ s.f MST_STATUS_REF_ACTIVE = 4 ∧ s.flag MST_STATUS_LOCKED = true ∧
          2 ≤ s.frs.offN ∧ (s.flag FRS_STATUS_FOLLOWING = true → s.frs.again = true)) →
        ∃ t, exec (.calh x h pay) s = .next t ∧ t.f (FRS_DELAY_DELAY 0) = ofSigned 32 half ∧ t.frs.offN = s.frs.offN + 1 ∧
          t.f FRS_OFFSET_OFS = ofSigned 32 (max (-(2 ^ 31)) (min (2 ^ 31 - 1) ofs)) ∧
          (¬joins → t.f FRS_STATUS_FOLLOWING = s.f FRS_STATUS_FOLLOWING ∧ t.f MST_CTRL_RUN = s.f MST_CTRL_RUN) ∧
          (joins → s.flag MST_CTRL_RUN = false → t.f FRS_STATUS_FOLLOWING = 1 ∧ t.f MST_CTRL_RUN = 1) ∧
          (joins → s.flag MST_CTRL_RUN = true → ofs.natAbs ≤ 51200 * 64 → t.f FRS_STATUS_FOLLOWING = 1 ∧ t.now = s.now) ∧
          (joins → s.flag MST_CTRL_RUN = true → 51200 * 64 < ofs.natAbs → t.f FRS_STATUS_JOINERR = 1 ∧
            t.f FRS_STATUS_FOLLOWING = 0 ∧ t.f FRS_STATUS_ALIGNED = 0 ∧ t.now = s.now) ∧
          (163 < ofs.natAbs → t.f FRS_STATUS_ALIGNED = 0) ∧
          (ofs.natAbs ≤ 81 → 15 ≤ s.frs.goodN → t.flag FRS_STATUS_FOLLOWING = true → t.f FRS_STATUS_ALIGNED = 1)))) ∧
  (∀ (x : Fin 3) (h : FrsHead) (pay : Word) (s : State) (c : Time), s.linkOn x = true → GoodFrame x 3 h pay.toNat →
    c = s.nearCycle (pay.toNat % 2 ^ 24) →
    ∃ t, exec (.event x h pay) s = .next t ∧ DepthFrom x h.depth s t ∧ t = { s with regs := t.regs, hwNow := t.hwNow, frs := t.frs } ∧
      t.frs.evs = s.frs.evs ++ [(bitsOf pay.toNat 24 3, if future s.now c = true then s.now + 256 else c)] ∧
      (future s.now c = true → t.f FRS_STATUS_EVLATE = 1) ∧ t.flink x = { s.flink x with bad := 0 } ∧
      ∀ y, y < 3 → y ≠ x.val →
        (s.linkOn y = false → t.flink y = s.flink y) ∧
        (s.linkOn y = true → (s.flink y).evs.length < 16 →
          t.flink y = { s.flink y with evs := (s.flink y).evs ++ [pay.toNat] }) ∧
        (s.linkOn y = true → 16 ≤ (s.flink y).evs.length → t.flink y = s.flink y ∧ t.f FRS_STATUS_EVDROP = 1)) ∧
  (∀ (k : Fin 8) (s : State) (due : Nat × Time → Prop), (∀ e, due e ↔ e.1 = k.val ∧ reached e.2 s.now = true) →
    ((∀ e ∈ s.frs.evs, ¬due e) → exec (.eventDelivery k) s = .next s) ∧
    ((∃ e ∈ s.frs.evs, due e) → ∃ u, exec (.eventDelivery k) s = .next (pulse (0x230 + k) u) ∧
      u = { s with frs.evs := u.frs.evs } ∧ ∀ e, e ∈ u.frs.evs ↔ e ∈ s.frs.evs ∧ ¬due e)) ∧
  (∀ (req : Fin 4) (s : State), s.reaches FRS_CTRL → ∃ t, exec (.forestayDisable req) s = .next t ∧
    t.f FRS_CTRL_EN = 0 ∧ t.f FRS_STATUS_LINKUP = 0 ∧ t.f FRS_STATUS_FOLLOWING = 0 ∧ t.f FRS_STATUS_ALIGNED = 0 ∧
    t.f FRS_STATUS_OPBUSY = 0 ∧ t.frs.links = [] ∧ t.frs.evs = [] ∧ t.frs.ops = [] ∧ t.mem = s.mem)

/-- Global operations: the root issues one where all that R466 asks holds, with the next SEQ, in six frames on FB and FC, else
OPREJ and GLB_WERR are set (R466, R467, R477). OPSTART begins the reception of one and the fifth OPCONT ends it, both forwarded
(R455, R457, R467); it is held, or is skipped (R468). At its time, those of one time in the order of their arrival (R468), TICKSTART
begins tick N where none runs (R469), ACTION issues its record in the name of the port's owner (R470), SNAPSHOT records the time, the
tick that the cycle begins and the ring (R471), and RESET resets the blocks named whose domains are on (R472). The model's choices: a
TICKSTART while ticks run and an ACTION for a port without an engine as owner are skipped, and RESET passes over code 9 and blocks that
are off (log entry 58); operations of other devices, and an ACTION while the timebase is stopped, are not counted (97). -/
def Obligations.ForestayOperations : Prop :=
  (∀ (req : Fin 4) (k : Fin 8) (s : State) (T : Time) (mask arg seq : Nat) (may : Prop), s.reaches FRS_OPCMD →
    T = opTime k (fc (s.f FRS_OPTIME_T)) → mask = s.f FRS_OPMASK_MASK → arg = s.f FRS_OPARG_ARG →
    seq = (s.f FRS_OPSTAT_SEQ + 1) % 256 →
    (may ↔ s.isRoot = true ∧ s.frsEn = true ∧ s.flag FRS_STATUS_TREEERR = false ∧ s.flag FRS_STATUS_OPBUSY = false ∧
      s.pendingOps.length < 8 ∧ opValid k arg = true ∧ mask ≠ 0 ∧
      0 ≤ (T - (s.now + fc (10240 + 10752 * s.f FRS_TREE_DEPTHMAX + opLead k))).toInt) →
    (¬may → ∃ u t, exec (.operationGo req k) s = .next t ∧ u.f FRS_STATUS_OPREJ = 1 ∧ u.f FRS_OPCMD_KIND = k.val ∧
      OnlyNoted s u [FRS_STATUS, FRS_OPCMD] ∧ Refused req FRS_OPCMD u t) ∧
    (may → ∃ t, exec (.operationGo req k) s = .next t ∧ t.f FRS_OPSTAT_SEQ = seq ∧ OpArrived seq k mask arg T s t ∧
      (∀ y, y = 1 ∨ y = 2 → (s.linkOn y = false → t.flink y = s.flink y) ∧ (s.linkOn y = true →
        t.flink y = { s.flink y with ops := (s.flink y).ops ++
          [(4, seq + k.val * 2 ^ 8 + (mask % 2 ^ 16) * 2 ^ 16), (5, mask / 2 ^ 16 + (T.toNat % 2 ^ 16) * 2 ^ 16),
           (5, bitsOf T.toNat 16 32), (5, bitsOf T.toNat 48 16 + (arg % 2 ^ 16) * 2 ^ 16), (5, bitsOf arg 16 32),
           (5, bitsOf arg 48 16)] })) ∧
      t.f FRS_STATUS_OPBUSY = if (t.flink 1).ops = [] ∧ (t.flink 2).ops = [] then 0 else 1)) ∧
  (∀ (x : Fin 3) (h : FrsHead) (pay : Word) (s : State), s.linkOn x = true → GoodFrame x 4 h pay.toNat →
    ∃ t, exec (.opstart x h pay) s = .next t ∧ DepthFrom x h.depth s t ∧ t = { s with regs := t.regs, frs := t.frs } ∧
      SameRegs s t [FRS_STATUS] ∧ t.flink x = { s.flink x with bad := 0, rx := [pay.toNat] } ∧
      ∀ y, y < 3 → y ≠ x.val → t.flink y = if s.linkOn y = true
        then { s.flink y with ops := (s.flink y).ops ++ [(4, pay.toNat)] } else s.flink y) ∧
  (∀ (x : Fin 3) (h : FrsHead) (pay : Word) (s : State) (l : List Nat), s.linkOn x = true → GoodFrame x 5 h pay.toNat →
    l = (s.flink x).rx → ∃ t, exec (.opcont x h pay) s = .next t ∧ DepthFrom x h.depth s t ∧
      (∀ y, y < 3 → y ≠ x.val → t.flink y = if s.linkOn y = true
        then { s.flink y with ops := (s.flink y).ops ++ [(5, pay.toNat)] } else s.flink y) ∧
      (l = [] → t.flink x = { s.flink x with bad := 0 } ∧ t = { s with regs := t.regs, frs := t.frs } ∧
        SameRegs s t [FRS_STATUS]) ∧
      (l ≠ [] → l.length ≠ 5 → t.flink x = { s.flink x with bad := 0, rx := l ++ [pay.toNat] } ∧
        t = { s with regs := t.regs, frs := t.frs } ∧ SameRegs s t [FRS_STATUS]) ∧
      (∀ a b c e g seq kind mask arg : Nat, l = [a, b, c, e, g] → seq = bitsOf a 0 8 → kind = bitsOf a 8 3 →
        mask = bitsOf a 16 16 + bitsOf b 0 16 * 2 ^ 16 →
        arg = bitsOf e 16 16 + g * 2 ^ 16 + bitsOf pay.toNat 0 16 * 2 ^ 48 →
        t.flink x = { s.flink x with bad := 0, rx := [] } ∧ t.f FRS_OPSTAT_LAST = seq ∧ OpArrived seq kind mask arg
          (opTime kind (fc (bitsOf b 16 16 + c * 2 ^ 16 + bitsOf e 0 16 * 2 ^ 48))) s t)) ∧
  (∀ (s : State) (k : Nat) (o : FrsOp), s.dueOp k = some o → o ∈ s.frs.ops ∧ o.kind = k ∧
    o.mask.testBit (s.f FRS_CFG_NODE) = true ∧ (k = 2 → o.due ≤ s.mc) ∧ (k ≠ 2 → s.dueFc o.time = true ∧
      ∀ p ∈ s.frs.ops.takeWhile (· != o), p.mask.testBit (s.f FRS_CFG_NODE) = true → p.kind ≠ 2 → p.time ≠ o.time)) ∧
  (∀ (s u : State) (o : FrsOp), u = { s with frs.ops := s.frs.ops.erase o } →
    (s.dueOp 1 = none → exec .tickstart s = .next s) ∧
    (s.dueOp 1 = some o → (s.running = false ∨ s.flag KLN_CTRL_RUN = true ∨ s.ticking = true) →
      ∃ t, exec .tickstart s = .next t ∧ t.f FRS_STATUS_OPSKIP = 1 ∧
        t.f FRS_OPSTAT_SKIPCNT = min (s.f FRS_OPSTAT_SKIPCNT + 1) 0xFF ∧ OnlyNoted u t [FRS_STATUS, FRS_OPSTAT]) ∧
    (s.dueOp 1 = some o → s.running = true → s.flag KLN_CTRL_RUN = false → s.ticking = false →
      exec .tickstart s = .next (boundary o.time o.arg (u.setF KLN_CTRL_RUN 1)))) ∧
  (∀ (s u : State) (o : FrsOp) (a : Action), u = { s with frs.ops := s.frs.ops.erase o } →
    a = mkAction o.time (BitVec.ofNat 64 o.arg) →
    (s.dueOp 2 = none → exec .action s = .next s) ∧
    (s.dueOp 2 = some o → (95 < a.port ∨ s.f (GLB_PORTOWN_TYPE a.port) ≠ 1) →
      ∃ t, exec .action s = .next t ∧ t.f FRS_STATUS_OPSKIP = 1 ∧ OnlyNoted u t [FRS_STATUS, FRS_OPSTAT]) ∧
    (s.dueOp 2 = some o → a.port ≤ 95 → s.f (GLB_PORTOWN_TYPE a.port) = 1 → s.running = false → exec .action s = .next u) ∧
    (∀ n, s.dueOp 2 = some o → a.port ≤ 95 → s.f (GLB_PORTOWN_TYPE a.port) = 1 → s.running = true →
      n = s.f (GLB_PORTOWN_INDEX a.port) →
      exec .action s = .next (handOn n n s.mc s.now a u))) ∧
  (∀ (s u : State) (o : FrsOp), u = { s with frs.ops := s.frs.ops.erase o } →
    (s.dueOp 3 = none → exec .snapshot s = .next s) ∧
    (s.dueOp 3 = some o → ∃ v, exec .snapshot s =
        .next (if o.arg.testBit 3 = true then pulse (0x230 + o.arg % 8) v else v) ∧
      OnlyRegs u v [FRS_SNAPTIME, FRS_SNAPTIME + 4, FRS_SNAPTICK, FRS_SNAPTICK + 4, FRS_SNAPTTIME, FRS_SNAPTTIME + 4,
        FRS_SNAPCW, FRS_SNAPSEQ] ∧
      v.f FRS_SNAPTIME_T = o.time.toNat ∧
      (s.boundaryBy s.now = none → v.f FRS_SNAPTICK_TICK = s.f KLN_TICKCNT_COUNT ∧ v.f FRS_SNAPTTIME_TTIME = s.f KLN_TICKTIME_TIME) ∧
      (∀ b, s.boundaryBy s.now = some b → v.f FRS_SNAPTICK_TICK = s.tickAfter ∧ v.f FRS_SNAPTTIME_TTIME = b.toNat) ∧ v.f FRS_SNAPCW_WR = s.f RIG_CWWR_WR ∧
      v.f FRS_SNAPSEQ_SEQ = o.seq % 256)) ∧
  (∀ (s u : State) (o : FrsOp), u = { s with frs.ops := s.frs.ops.erase o } →
    (s.dueOp 4 = none → exec .reset s = .next s) ∧
    (s.dueOp 4 = some o → ∃ l : List Nat, exec .reset s = .next (blockReset l u) ∧ l.Pairwise (· < ·) ∧
      ∀ c, c ∈ l ↔ o.arg.testBit c = true ∧ 1 ≤ c ∧ c ≤ 14 ∧ c ≠ 9 ∧ s.on (blockDom c) = true))

/-! ### Supplies, domains and the Stay link -/

/-- Supplies, resets and power domains: a supply that is lost takes down what it supplies, VCORE, VIO and VAON the whole device,
VAON the key too (R437, R481, R485, R491, R498, R499); 200 µs of good supplies with SYS_RESET_N high, and wake, start it again
(R352, R483, R498, R500). A switch sequence takes one domain after the other, a domain on after its supplies and requirements, off
after 2 µs, and fails after 1 ms (R486, R488, R489). GLB_PWRCTL and GLB_BLKRST are refused for anything else (R487, R501, R507). The
pins show the states of R504. The model's choices: domains are switched one by one, HOST and LVDS go off with VPCIE and VLVDS, and
SYS_RESET is first the fall of its pin, next its rise (log entry 70); the blocks of the domains (71). -/
def Obligations.PowerAndResets : Prop :=
  (∀ (k : Fin 6) (s u : State), u = { s with pwr.sup := setBits s.pwr.sup k 1 0 } →
    (s.pwr.sup.testBit k = true → exec (.supplyChange k 0) s = .next s) ∧
    (s.pwr.sup.testBit k = false → exec (.supplyChange k 1) s = .next s) ∧
    (s.pwr.sup.testBit k = false → ∃ t, exec (.supplyChange k 0) s = .next t ∧ t.mem = s.mem ∧
      (∀ j, t.pwr.sup.testBit j = (s.pwr.sup.testBit j || j == k.val)) ∧
      (k.val = 4 → t.f GLB_PWRSTAT_ON = (s.domains ||| 1) ∧ t.pwr.standby = !(s.pwr.sup.testBit 0 && s.pwr.sup.testBit 1)) ∧
      (k.val ≠ 4 → t.regs = s.regs ∧ t.pwr.standby = s.pwr.standby) ∧
      t.pwr.okAt = if t.mainOk = true ∧ t.on 1 = false ∧ s.pwr.okAt = none ∧ t.pwr.standby = false then some s.mc
        else s.pwr.okAt) ∧
    (s.pwr.sup.testBit k = true →
      (k.val = 2 → ∃ t, exec (.supplyChange k 1) s = .next t ∧ t.on dLVDS = false ∧ t.pwr.sup = u.pwr.sup ∧
        (s.on dLVDS = false → t = u) ∧ (s.on dLVDS = true → ∀ p : Fin 96, 64 ≤ p.val → (t.port p).queue = [])) ∧
      (k.val = 3 → ∃ t, exec (.supplyChange k 1) s = .next t ∧ t.on dHOST = false ∧ t.pwr.sup = u.pwr.sup ∧
        (s.on dHOST = false → t = u) ∧ (s.on dHOST = true → t.ep.linkUp = false)) ∧
      (k.val = 5 → ∃ t, exec (.supplyChange k 1) s = .next t ∧ t.pwr.sup = u.pwr.sup ∧ (s.phys 12 = false → t = u) ∧
        (s.phys 12 = true → t.pwr.phys = 0 ∧ t.pwr.notice = s.linked)) ∧
      ((k.val < 2 ∨ k.val = 4) → ∃ t, exec (.supplyChange k 1) s = .next t ∧ t.pwr.sup = u.pwr.sup ∧ t.pwr.okAt = none ∧
        t.pwr.sysRst = false ∧ t.pwr.sysLow = s.pwr.sysLow ∧ t.flash = s.flash ∧ t.pending = s.pending ∧ (s.on 1 = true → t.mem = [] ∧ t.sendq = [] ∧ t.engines = []) ∧
        (k.val ≠ 4 → t.pwr.standby = s.pwr.sup.testBit 4 ∧ (s.on 1 = true → t.f GLB_PWRSTAT_ON = 1)) ∧
        (k.val = 4 → t.f GLB_PWRSTAT_ON = 0 ∧ t.vault.key = 0 ∧ t.f VLT_TAMPEN_EN = 31 ∧
          t.f VLT_TAMPSTAT_STICKY = 0 ∧ t.pwr.vaonOff = true))) ∧
    (k.val = 5 → s.phys 12 = true → ∃ t, exec (.supplyChange k 2) s = .next t ∧ t.f FLD_STATUS_UVWARN = 1 ∧
      OnlyNoted s t [FLD_STATUS]) ∧
    ((k.val ≠ 5 ∨ s.phys 12 = false) → exec (.supplyChange k 2) s = .next s) ∧
    (k.val = 5 → s.pwr.lockout = false → ∃ t, exec (.supplyChange k 3) s = .next t ∧ t.pwr.lockout = true ∧
      t.pwr.ovlo = true ∧ (s.phys 12 = true → t.pwr.phys = 0)) ∧
    ((k.val ≠ 5 ∨ s.pwr.lockout = true) → exec (.supplyChange k 3) s = .next s) ∧
    exec (.supplyChange k 4) s = .next (if k.val = 5 then { s with pwr.lockout := false } else s)) ∧
  (∀ s : State, ∃ u, exec .shutdownNotice s = .next (hostGoOn u) ∧ (s.pwr.notice = false → u = s) ∧
    (s.pwr.notice = true → s.on 12 = false → u = { s with pwr.notice := false }) ∧
    (s.pwr.notice = true → s.on 12 = true → u.pwr.notice = false ∧ u.f GLB_PWRSTAT_ON = s.domains % 2 ^ 12 ∧
      u.f STY_STATUS_FLDLOST = 1 ∧ u.f STY_STATUS_LINK = 0 ∧ u.f MST_STATUS_FLD_ALIGNED = 0 ∧
      u.f MST_STATUS_FLD_ALIGNLOSS = 1 ∧ u.sendq = [] ∧ u.stay.proxy = [])) ∧
  (∀ s : State, ((s.pwr.okAt = none ∨ (∃ m, s.pwr.okAt = some m ∧ s.mc < m + 40000) ∨ s.on 1 = true) →
      exec .powerOnReset s = .next s) ∧
    (∀ m, s.pwr.okAt = some m → m + 40000 ≤ s.mc → s.on 1 = false → ∃ t, exec .powerOnReset s = .next t ∧
      t.f GLB_PWRSTAT_ON = 3 ∧ t.f GLB_RSTCAUSE_CAUSE = (if s.pwr.sysRst = true then 2 else 1) ∧
      (s.pwr.vaonOff = true → t.f GLB_RSTCAUSE_VAONLOST = 1) ∧ t.pwr.okAt = none ∧ t.pwr.sysRst = false ∧
      t.pwr.vaonOff = false ∧ ∀ b, b = 7 ∨ b = 8 → t.flag (bitFld SAG_BUSY_CLEARING b) = true ∧
        ∀ a, bankBase b ≤ a → a < bankBase b + bankSize b → t.byte a = 0)) ∧
  (∀ (s : State) (main : Prop), (main ↔ ∀ k ∈ [0, 1, 4], s.pwr.sup.testBit k = true) → (s.mainOk = true ↔ main ∧ s.pwr.sysLow = false) ∧
    (s.pwr.sysLow = false → ∃ t, exec .sysReset s = .next t ∧ t.pwr.sysLow = true ∧ t.pwr.okAt = none ∧
      (t.pwr.sysRst = true ↔ main ∨ s.pwr.sysRst = true) ∧ (s.linked = true → t.pwr.phys = 0) ∧
      t.pending = s.pending ∧ t.flash = s.flash ∧ (s.on 1 = true → t.f GLB_PWRSTAT_ON = 1 ∧ t.mem = [])) ∧
    (s.pwr.sysLow = true → (main → s.on 1 = false → s.pwr.standby = false →
        exec .sysReset s = .next { s with pwr.sysLow := false, pwr.okAt := some s.mc }) ∧
      ((¬main ∨ s.on 1 = true ∨ s.pwr.standby = true) → exec .sysReset s = .next { s with pwr.sysLow := false })) ∧
    exec .wake s = .next (if s.pwr.standby = true ∧ s.mainOk = true
      then { s with pwr.standby := false, pwr.okAt := some s.mc } else s)) ∧
  (∀ (s : State) (d : Nat) (l : List (Nat × Bool)),
    ((∀ e r, s.pwr.seq = (e, true) :: r → s.pwr.began.isSome = true) → exec .domainSwitchOn s = .next s) ∧
    (s.pwr.seq = (d, true) :: l → s.pwr.began = none →
      (d ≠ 12 → exec .domainSwitchOn s = .next { s with pwr.began := some s.mc }) ∧
      (d = 12 → ∃ t, exec .domainSwitchOn s = .next t ∧ t.pwr.began = some s.mc ∧ t.pwr.seq = s.pwr.seq ∧
        t.pwr.phys = 0 ∧ t.sheaves = [] ∧ t.mem = s.mem ∧ ∀ p : Fin 64, (t.port p).queue = [])) ∧
    ((∀ e r, s.pwr.seq = (e, true) :: r → s.pwr.began = none) → exec .domainDeclaredOn s = .next s ∧
      exec .domainFail s = .next s) ∧
    (∀ m, s.pwr.seq = (d, true) :: l → s.pwr.began = some m →
      ((s.supplied d = false ∨ ∃ e ∈ domReq d, s.domains.testBit e = false) → exec .domainDeclaredOn s = .next s) ∧
      (d < 15 → s.supplied d = true → (∀ e ∈ domReq d, s.domains.testBit e = true) →
        ∃ t, exec .domainDeclaredOn s = .next t ∧ t.on d = true ∧ t.phys d = true ∧ t.pwr.seq = l ∧ t.pwr.began = none ∧
          (∀ e, e ≠ d → t.on e = s.on e) ∧
          (∀ b, b < 9 → bankDom b = d → t.flag (bitFld SAG_BUSY_CLEARING b) = true) ∧
          (∀ f, l = [] → s.lan.switching = true → s.lan.req = some f →
            t.lan.done = some (response f 0 (leBytes 2 t.domains)) ∧ t.lan.switching = false)) ∧
      (s.mc < m + 200000 → exec .domainFail s = .next s) ∧
      (m + 200000 ≤ s.mc → ∃ t, exec .domainFail s = .next t ∧ t.f GLB_PWRSTAT_FAIL = 1 ∧ t.pwr.seq = [] ∧
        t.pwr.began = none ∧ SameRegs s t [GLB_PWRSTAT] ∧ t.domains = s.domains ∧ t.mem = s.mem ∧
        (∀ f, s.lan.switching = true → s.lan.req = some f →
          t.lan.done = some (response f 0 (leBytes 2 s.domains)) ∧ t.lan.switching = false)))) ∧
  (∀ (s : State) (d : Nat) (l : List (Nat × Bool)),
    ((∀ e r, s.pwr.seq = (e, false) :: r → s.pwr.began.isSome = true) → exec .domainSwitchOff s = .next (hostGoOn s)) ∧
    (s.pwr.seq = (d, false) :: l → s.pwr.began = none → ∃ u, exec .domainSwitchOff s = .next (hostGoOn u) ∧
      u.pwr.began = some s.mc ∧ u.pwr.seq = s.pwr.seq ∧ u.on d = false ∧ (∀ e, e ≠ d → u.on e = s.on e) ∧
      (s.on d = false → u = { s with pwr.began := some s.mc }) ∧
      (s.on d = true → ∀ b, b < 9 → bankDom b = d → ∀ a, bankBase b ≤ a → a < bankBase b + bankSize b → u.byte a = 0)) ∧
    ((∀ e r, s.pwr.seq = (e, false) :: r → s.pwr.began = none) → exec .domainDeclaredOff s = .next s) ∧
    (∀ m, s.pwr.seq = (d, false) :: l → s.pwr.began = some m →
      (s.mc < m + 400 → exec .domainDeclaredOff s = .next s) ∧
      (m + 400 ≤ s.mc → (s.lan.switching = false ∨ l ≠ []) →
        exec .domainDeclaredOff s = .next { s with pwr.seq := l, pwr.began := none }) ∧
      (∀ f, m + 400 ≤ s.mc → l = [] → s.lan.switching = true → s.lan.req = some f → ∃ t,
        exec .domainDeclaredOff s = .next t ∧
        Answered f 0 (leBytes 2 s.domains) { s with pwr.seq := [], pwr.began := none } t))) ∧
  (∀ (req : Fin 4) (v : Word) (s : State) (mask set : Nat), s.reaches GLB_PWRCTL → mask = bitsOf v.toNat 16 15 →
    set = s.setAfter mask (bitsOf v.toNat 0 15) →
    ((req ≠ 0 ∨ s.switching = true ∨ mask % 16 ≠ 0 ∨ domSetOk set = false) →
      ∃ t, exec (.pwrctlWrite req v) s = .next t ∧ Refused req GLB_PWRCTL s t) ∧
    (req = 0 → s.switching = false → mask % 16 = 0 → domSetOk set = true →
      (switchSeq s.domains set ≠ [] ∨ s.lan.switching = false) →
      exec (.pwrctlWrite req v) s = .next { s with pwr.seq := switchSeq s.domains set, pwr.began := none })) ∧
  (∀ (req : Fin 4) (v : Word) (s : State) (c : Nat), s.reaches GLB_BLKRST → c = v.toNat % 16 →
    ((c = 0 ∨ c = 15 ∨ c = 6 ∨ s.on (blockDom c) = false) →
      ∃ t, exec (.blkrstWrite req v) s = .next t ∧ Refused req GLB_BLKRST s t) ∧
    (1 ≤ c → c ≤ 14 → c ≠ 6 → s.on (blockDom c) = true → ∃ t, exec (.blkrstWrite req v) s = .next t ∧
      t = askReplay [c] [] (resetBlock c s) ∧
      (c ≤ 4 → ∀ i, i < 4 → t.eng (4 * (c - 1) + i) = {}) ∧
      (∀ p : Fin 96, (c = 12 ∧ p.val < 32 ∨ c = 13 ∧ 32 ≤ p.val ∧ p.val < 64 ∨ c = 7 ∧ 64 ≤ p.val) →
        (t.port p).queue = [] ∧ t.reg (PRT_CTRL p) = resetWord (PRT_CTRL p)))) ∧
  (∀ (v : Fin 256) (s : State), (s.phys 12 = false → exec (.vfieldMeasure v) s = .next s) ∧
    (s.phys 12 = true → ∃ t, exec (.vfieldMeasure v) s = .next t ∧ t.f FLD_STATUS_VFLD = v.val ∧ OnlyRegs s t [FLD_STATUS])) ∧
  (∀ s : State, s.misoPin = .hiZ ∧
    (s.on 1 = true → s.flashCsPin = .driven true ∧ s.flashClockPins = .driven false ∧ s.lanPins = .input ∧ s.inputPins = .input) ∧
    (s.on 1 = false → s.flashCsPin = .hiZ ∧ s.flashClockPins = .hiZ ∧ s.lanPins = .hiZ ∧ s.inputPins = .hiZ) ∧
    s.alertPin = (if s.on 1 = true ∧ s.lanAlert = true then .driven false else .released) ∧
    (∀ x : Fin 3, s.frsPins x = if s.on dFRST = false then .hiZ else if s.frsEn = true ∧ (x = 0 ∧ s.isRoot = false ∨
      x = 1 ∧ s.flag FRS_CFG_FBEN = true ∨ x = 2 ∧ s.flag FRS_CFG_FCEN = true) then .sending else .txOff) ∧
    ∀ p, p < 96 → s.phys (portDom p) = false → s.portPins p = if p < 64 then .pulled false else .hiZ)

/-- The Stay link delivers a record no earlier than 16 mc, on the return direction 22 mc, after its slot (R16, R77), and passes
records on in the order of their numbers: the next one at once, one that follows a gap later, and a duplicate never; after 5 µs a
record is passed on past the gap, and no end holds an unacknowledged record longer than 2 µs (R494). A failed lane is reported, then
goes out of use in both directions, and its unacknowledged records are sent again, so that none is lost (R495, R497). The loss of the
link clears the field domains and discards what waits (R490 to R492); LOSSTO later every field port discards its queue (R492, R502).
While the link retrains no other loss counts; retraining ends with the lanes that trained, and what waited in the proxy is performed,
or the link is lost after 50 µs (R502). The model's choices: LANE_FAIL on a failed lane or after a loss (log entry 62); numbers given
up that still come (61); the field copy that runs on (63); the fixed 16 and 22 mc (31); records on a lost link count nowhere (93). -/
def Obligations.StayLinkRecords : Prop :=
  (∀ (ret ack : Bool) (seq : Fin 4096) (s : State) (d : StayDir), d = s.stayDir ret →
    ((s.linked = false ∨ ∀ r ∈ d.flight, r.seq ≠ seq.val) → exec (.stayRecordReceive ret seq ack) s = .next s) ∧
    (∀ r, (d.flight.find? fun y => y.seq == seq.val) = some r → s.mc < r.sent + (if ret = true then 22 else 16) →
      exec (.stayRecordReceive ret seq ack) s = .next s) ∧
    (∀ (r : StayRec) (x : StayDir), s.linked = true → (d.flight.find? fun y => y.seq == seq.val) = some r →
      r.sent + (if ret = true then 22 else 16) ≤ s.mc →
      x = (if ack = true then { d with flight := d.flight.erase r } else d) →
      (seq.val = d.expect → d.wait = [] → exec (.stayRecordReceive ret seq ack) s =
        .next (passOn r (s.setDir ret { x with expect := (seq.val + 1) % 4096 }))) ∧
      (∀ q m, seq.val = d.expect → d.wait = [(q, m)] → q.seq = (seq.val + 1) % 4096 → q.seq < 4096 →
        exec (.stayRecordReceive ret seq ack) s = .next (passOn q ((passOn r s).setDir ret
          { x with expect := (seq.val + 2) % 4096, wait := [] }))) ∧
      (seq.val ≠ d.expect → seq.val ∈ d.gaps → exec (.stayRecordReceive ret seq ack) s =
        .next (passOn r (s.setDir ret { x with gaps := d.gaps.erase seq.val }))) ∧
      (seq.val ≠ d.expect → seq.val ∉ d.gaps →
        ((∃ p ∈ d.wait, p.1.seq = seq.val) ∨ 2048 ≤ (seq.val + 4096 - d.expect) % 4096) →
        exec (.stayRecordReceive ret seq ack) s = .next (s.setDir ret x)) ∧
      (seq.val ≠ d.expect → seq.val ∉ d.gaps → (∀ p ∈ d.wait, p.1.seq ≠ seq.val) →
        (seq.val + 4096 - d.expect) % 4096 < 2048 →
        exec (.stayRecordReceive ret seq ack) s = .next (s.setDir ret { x with wait := d.wait ++ [(r, s.mc)] })))) ∧
  (∀ (s : State) (x : StayRec) (t : State), t = passOn x s →
    (∀ a, x.load = .act a → t.transit = s.transit ++ [⟨a, max s.mc (x.sent + 22)⟩]) ∧
    (∀ r, x.load = .cap r → mget t.rig.lanes r.lane [] = mget s.rig.lanes r.lane [] ++ [r]) ∧
    (∀ y, x.load = .tooth y → t.toothPath = s.toothPath ++ [y])) ∧
  (∀ (ret : Bool) (s : State) (d : StayDir), d = s.stayDir ret →
    ((∀ p ∈ d.wait, s.mc < p.2 + 1000) → exec (.sequenceWaitExpiry ret) s = .next s) ∧
    (∀ q m k, d.wait = [(q, m)] → m + 1000 ≤ s.mc → q.seq < 4096 → d.expect < 4096 →
      k = (q.seq + 4096 - d.expect) % 4096 →
      exec (.sequenceWaitExpiry ret) s = .next (passOn q (s.setDir ret { d with
        expect := (q.seq + 1) % 4096
        gaps := d.gaps ++ (List.range k).map fun i => (d.expect + i) % 4096
        wait := [] })))) ∧
  (∀ (ret : Bool) (k : Fin 4) (s : State) (use : Nat),
    use = (if ret = true then s.f STY_STATUS_RXUSE else s.f STY_STATUS_TXUSE) →
    ((s.linked = false ∨ use.testBit k = false ∨ (ret, k.val) ∈ s.stay.failing) → exec (.laneFail ret k) s = .next s) ∧
    (s.linked = true → use.testBit k = true → (ret, k.val) ∉ s.stay.failing → ∃ u, exec (.laneFail ret k) s =
        .next (logFault 3 k 0 0 (pulse 0x241 u)) ∧ u.f STY_STATUS_LANEFAIL = 1 ∧
      u.f STY_ERRCNT_FAILS = min (s.f STY_ERRCNT_FAILS + 1) 0xFF ∧ SameRegs s u [STY_STATUS, STY_ERRCNT] ∧
      u = { s with regs := u.regs, hwNow := u.hwNow, stay.failing := s.stay.failing ++ [(ret, k.val)] })) ∧
  (∀ s : State, ∃ t, exec .threeLaneStart s = .next t ∧ t.stay.failing = [] ∧
    t = { s with regs := t.regs, hwNow := t.hwNow, stay := t.stay } ∧ SameRegs s t [STY_STATUS, STY_ERRCNT] ∧
    (s.stay.failing = [] → t = s) ∧
    (∀ f ∈ s.stay.failing, (false, f.2) ∈ t.stay.outs ∧ (true, f.2) ∈ t.stay.outs ∧ (f.2 < 4 →
      (t.f STY_STATUS_RXUSE).testBit f.2 = false ∧ (t.f STY_STATUS_TXUSE).testBit f.2 = false)) ∧
    (∀ (ret : Bool) (x : StayRec), x ∈ (t.stayDir ret).again ++ (t.stayDir ret).flight ↔
      x ∈ (s.stayDir ret).again ++ (s.stayDir ret).flight) ∧
    (∀ ret k, s.stay.failing = [(ret, k)] → (∀ d, (t.stayDir d).again = (s.stayDir d).again ++
        (s.stayDir d).flight.filter (fun r => r.lane == k)) ∧
      t.f STY_ERRCNT_RESEND = min (s.f STY_ERRCNT_RESEND +
        ((s.stay.cmd.flight ++ s.stay.ret.flight).filter fun r => r.lane == k).length) 0xFFFF)) ∧
  (∀ s : State, ∃ t, exec .mastCycle s = .next t ∧ ∀ ret x, x ∈ (t.stayDir ret).flight ↔
    x ∈ (s.stayDir ret).flight ∧ s.mc + 1 ≤ x.sent + 400) ∧
  (∀ s : State, s.stay.trainAt.isSome = true → exec .stayLinkLoss s = .next (hostGoOn s)) ∧
  (∀ (s : State) (i : Instr), (i = .stayLinkLoss ∧ s.stay.trainAt = none ∨
      i = .retrainTimeout ∧ ∃ m, s.stay.trainAt = some m ∧ m + 10000 ≤ s.mc) →
    (s.on dFCORE = false → exec i s = .next (hostGoOn s)) ∧
    (s.on dFCORE = true → ∃ u, exec i s = .next (hostGoOn u) ∧ u.f GLB_PWRSTAT_ON = s.domains % 2 ^ 12 ∧
      u.f STY_STATUS_FLDLOST = 1 ∧ u.f STY_STATUS_LINK = 0 ∧ u.f MST_STATUS_FLD_ALIGNED = 0 ∧
      u.f MST_STATUS_FLD_ALIGNLOSS = 1 ∧ u.sendq = [] ∧ u.rig.fapply = [] ∧ u.stay.proxy = [] ∧ u.stay.trainAt = none ∧
      (∀ ret, u.stayDir ret = { expect := (s.stayDir ret).expect, wait := (s.stayDir ret).wait, gaps := (s.stayDir ret).gaps }) ∧
      u.teeth = [] ∧ (∀ n, n < 8 → u.f (SHV_CTRL_EN n) = 0) ∧ u.mem = s.mem ∧
      (s.stay.proxy ≠ [] → u.f GLB_WERR_WERR = 1) ∧
      (s.phys dFCORE = true → u.stay.lostAt = some s.mc ∧ u.kln.copy = s.kln.copy.or (some (s.now, s.running))) ∧
      (s.phys dFCORE = false → u.stay.lostAt = s.stay.lostAt ∧ u.kln.copy = s.kln.copy))) ∧
  (∀ s : State, ((s.stay.lostAt = none ∨ (∃ m, s.stay.lostAt = some m ∧ s.mc < m + 200 * s.f FLD_CFG_LOSSTO) ∨
      s.phys dFCORE = false) → exec .lossTimeout s = .next s) ∧
    (∀ m, s.stay.lostAt = some m → m + 200 * s.f FLD_CFG_LOSSTO ≤ s.mc → s.phys dFCORE = true →
      ∃ t, exec .lossTimeout s = .next t ∧ t.stay.lostAt = none ∧ t.f FLD_STATUS_LOSSHIT = 1 ∧ t.mem = s.mem ∧
        ∀ p, (64 ≤ p ∨ s.phys (portDom p) = false → t.port p = s.port p) ∧
          (p < 64 → s.phys (portDom p) = true → (t.port p).queue = [] ∧ (t.port p).pulseEnd = none ∧
            (s.flag FLD_CFG_LOSSACT = false → (t.port p).out = false ∧ (t.port p).drv = false)))) ∧
  (∀ (tx rx : Fin 16) (s : State),
    ((s.stay.trainAt = none ∨ tx = 0 ∨ rx = 0) → exec (.retrainEnd tx rx) s = .next s) ∧
    (s.stay.trainAt.isSome = true → tx ≠ 0 → rx ≠ 0 → ∃ u, exec (.retrainEnd tx rx) s = .next (hostGoOn
        (s.stay.proxy.foldl (fun v w => regWrite w.1 w.2.1 w.2.2 v) u)) ∧
      u.f STY_STATUS_TXUSE = tx.val ∧ u.f STY_STATUS_RXUSE = rx.val ∧ u.f STY_STATUS_LINK = 1 ∧ SameRegs s u [STY_STATUS] ∧
      u = { s with
        regs := u.regs
        stay.outs := u.stay.outs
        stay.trainAt := none
        stay.lostAt := none
        stay.proxy := [] } ∧
      ∀ k, k < 4 → ((false, k) ∈ u.stay.outs ↔ tx.val.testBit k = false) ∧ ((true, k) ∈ u.stay.outs ↔ rx.val.testBit k = false))) ∧
  (∀ s : State, (s.stay.trainAt = none ∨ ∃ m, s.stay.trainAt = some m ∧ s.mc < m + 10000) →
    exec .retrainTimeout s = .next (hostGoOn s))

/-! ### The block as a whole -/

/-- A step takes the command at the front of the queue and runs it with the rest of the queue (spec/opcode_table.json,
spec/95_what_each_step_holds.md; log entries 1 and 2). -/
def Obligations.StepRunsFrontCommand : Prop :=
  ∀ (c : Instr) (rest : List Instr) (s : State), s.pending = c :: rest → step s = exec c { s with pending := rest }

/-- On an empty queue the block idles (the model's choice, log entry 1). -/
def Obligations.EmptyQueueIdles : Prop := ∀ s : State, s.pending = [] → step s = .next s

/-- At reset the domains AON and MGMT alone are on, the timebase, the ticks and every engine's program are off, no port has an
owner, GLB_ID shows the part and its stepping, banks SGM and SGS
clear, and no command waits (R3, R9, R352, R483, R507). -/
def Obligations.ResetValues : Prop :=
  State.reset.f GLB_PWRSTAT_ON = 3 ∧ State.reset.f GLB_ID_PART = 0x6480 ∧ State.reset.f GLB_ID_STEPPING = 0xB0 ∧
  State.reset.f MST_CTRL_RUN = 0 ∧ State.reset.f KLN_CTRL_RUN = 0 ∧ State.reset.ticking = false ∧
  (∀ p : Fin 96, State.reset.f (GLB_PORTOWN_TYPE p) = 0 ∧ State.reset.f (PRT_CTRL_EN p) = 0 ∧ State.reset.port p = {}) ∧
  (∀ e : Fin 17, (State.reset.eng e).run = none ∧ State.reset.engState e = 0) ∧
  State.reset.flag (bitFld SAG_BUSY_CLEARING 7) = true ∧ State.reset.flag (bitFld SAG_BUSY_CLEARING 8) = true ∧
  State.reset.mem = [] ∧ State.reset.pending = []

/-- The memory of State.reset is in its canonical form: keys rise and no listed byte reads as an unlisted one (R352, R9). -/
def Obligations.ResetMemoryCanonical : Prop := Memory.wf State.reset.mem

/-- Every step keeps the canonical form of the memory, whatever command it runs: equal contents of the banks are equal data,
and an unlisted byte reads 0 as the clear of R352 leaves it (R344, R350, R352). -/
def Obligations.StepsKeepMemoryCanonical : Prop :=
  ∀ s t : State, Memory.wf s.mem → step s = .next t → Memory.wf t.mem

/-- Every Coil instruction whose fields are valid decodes from its own word: no field of the encoding is lost (R97 to R100,
R102 to R104, R108, R111 to R113, R116). -/
def Obligations.CoilDecodeOfEncode : Prop := ∀ c : Coil, coilValid c = true → coilDecode (coilEncode c) = some c

/-- A word is an instruction only when it is that instruction's encoding, with every field valid and every bit that the
format marks as zero 0; only the shifts by an immediate leave a field, rb, open. So every word has at most one meaning, and any
other word is ILLEGAL (R97 to R100). -/
def Obligations.CoilWordsHaveOneMeaning : Prop :=
  ∀ (w : Nat) (c : Coil), coilDecode w = some c ↔ coilEncode c = formatWord w ∧ coilValid c = true
end

