-- ==== Sys2Proof/Laws/Map.lean ====
section
/-! SUPPORT. Laws of sparse maps: what a key reads as after a change, and that every change keeps the canonical form. -/

namespace Sys2Proof.Machine

variable {α : Type}

theorem mget_mput_same (m : SMap α) (k : Nat) (v d : α) : mget (mput m k v) k d = v := by
  induction m with
  | nil => simp [mput, mget]
  | cons p m ih => obtain ⟨k', v'⟩ := p; simp only [mput]; split <;> [skip; split] <;> simp_all [mget]

theorem mget_mput_ne (m : SMap α) {k k' : Nat} (v d : α) (h : k' ≠ k) : mget (mput m k v) k' d = mget m k' d := by
  induction m with
  | nil => simp [mput, mget, h.symm]
  | cons p m ih => obtain ⟨j, v'⟩ := p; simp only [mput]; split <;> [skip; split] <;> simp_all [mget] <;> grind

theorem mget_merase_ne (m : SMap α) {k k' : Nat} (d : α) (h : k' ≠ k) : mget (merase m k) k' d = mget m k' d := by
  induction m with
  | nil => rfl
  | cons p m ih =>
    obtain ⟨j, v'⟩ := p
    simp only [merase, List.filter] at ih ⊢
    split <;> simp_all [mget]
    grind

theorem mget_merase_same (m : SMap α) (k : Nat) (d : α) : mget (merase m k) k d = d := by
  induction m with
  | nil => rfl
  | cons p m ih =>
    obtain ⟨j, v'⟩ := p
    simp only [merase, List.filter] at ih ⊢
    split <;> simp_all [mget]

theorem mrising_le (m : SMap α) {b c : Nat} (h : mrising b m = true) (hc : c ≤ b) : mrising c m = true := by
  cases m with
  | nil => rfl
  | cons p m => simp_all [mrising]; omega

theorem mrising_mput (m : SMap α) {k b : Nat} (v : α) (h : mrising b m = true) (hb : b ≤ k) :
    mrising b (mput m k v) = true := by
  induction m generalizing b with
  | nil => simp [mput, mrising, hb]
  | cons p m ih =>
    obtain ⟨j, v'⟩ := p
    simp only [mrising, Bool.and_eq_true, decide_eq_true_eq] at h
    simp only [mput]; split <;> [skip; split] <;> simp [mrising]
    · subst_vars; exact ⟨hb, h.2⟩
    · exact ⟨hb, by omega, h.2⟩
    · exact ⟨h.1, ih h.2 (by omega)⟩

theorem mrising_filter (m : SMap α) {b : Nat} (q : Nat × α → Bool) (h : mrising b m = true) :
    mrising b (m.filter q) = true := by
  induction m generalizing b with
  | nil => rfl
  | cons p m ih =>
    obtain ⟨j, v'⟩ := p
    simp only [mrising, Bool.and_eq_true, decide_eq_true_eq] at h
    simp only [List.filter]; split
    · simp [mrising, h.1, ih h.2]
    · exact mrising_le _ (ih h.2) (by omega)

variable [DecidableEq α]

theorem mnodefault_mput (m : SMap α) (k : Nat) (v d : α) (h : mnodefault d m = true) (hv : v ≠ d) :
    mnodefault d (mput m k v) = true := by
  induction m with
  | nil => simp [mput, mnodefault, hv]
  | cons p m ih =>
    obtain ⟨j, v'⟩ := p
    simp only [mnodefault, List.all_cons, Bool.and_eq_true, decide_eq_true_eq] at h ih
    simp only [mput]; split <;> [skip; split] <;>
      simp only [mnodefault, List.all_cons, Bool.and_eq_true, decide_eq_true_eq]
    · exact ⟨hv, h.2⟩
    · exact ⟨hv, h.1, h.2⟩
    · exact ⟨h.1, ih h.2⟩

theorem mnodefault_filter (m : SMap α) (q : Nat × α → Bool) (d : α) (h : mnodefault d m = true) :
    mnodefault d (m.filter q) = true := by
  simp only [mnodefault, List.all_eq_true] at h ⊢
  exact fun p hp => h p (List.mem_of_mem_filter hp)

/-- Setting a key keeps the canonical form. -/
theorem mwf_mset (m : SMap α) (k : Nat) (v d : α) (h : mwf d m = true) : mwf d (mset m k v d) = true := by
  simp only [mwf, Bool.and_eq_true] at h ⊢
  unfold mset
  split
  · exact ⟨mrising_filter m _ h.1, mnodefault_filter m _ d h.2⟩
  · exact ⟨mrising_mput m v h.1 (Nat.zero_le _), mnodefault_mput m k v d h.2 ‹_›⟩

/-- Dropping a range of keys keeps the canonical form. -/
theorem mwf_mclear (m : SMap α) (lo hi : Nat) (d : α) (h : mwf d m = true) : mwf d (mclear m lo hi) = true := by
  simp only [mwf, Bool.and_eq_true] at h ⊢
  exact ⟨mrising_filter m _ h.1, mnodefault_filter m _ d h.2⟩

/-- The key that was set reads as the value. -/
theorem mget_mset_same (m : SMap α) (k : Nat) (v d : α) : mget (mset m k v d) k d = v := by
  unfold mset
  split
  · rw [mget_merase_same]; exact (‹v = d›).symm
  · exact mget_mput_same m k v d

/-- Every other key reads as before. -/
theorem mget_mset_ne (m : SMap α) {k k' : Nat} (v d e : α) (h : k' ≠ k) : mget (mset m k v d) k' e = mget m k' e := by
  unfold mset; split
  · exact mget_merase_ne m e h
  · exact mget_mput_ne m v e h

end Sys2Proof.Machine
end

