-- ==== Sys2Proof/Laws/State.lean ====
section
/-! SUPPORT. What each update of the state leaves as it is, field by field, and what it sets. -/

namespace Sys2Proof.Machine

open Sys2Proof

@[simp] theorem State.setReg_staged (s : State) (a : Nat) (v : Word) : (s.setReg a v).staged = s.staged := (rfl)
@[simp] theorem State.setReg_hwNow (s : State) (a : Nat) (v : Word) : (s.setReg a v).hwNow = s.hwNow := (rfl)
@[simp] theorem State.setReg_mem (s : State) (a : Nat) (v : Word) : (s.setReg a v).mem = s.mem := (rfl)
@[simp] theorem State.setReg_upset (s : State) (a : Nat) (v : Word) : (s.setReg a v).upset = s.upset := (rfl)
@[simp] theorem State.setReg_banks (s : State) (a : Nat) (v : Word) : (s.setReg a v).banks = s.banks := (rfl)
@[simp] theorem State.setReg_kln (s : State) (a : Nat) (v : Word) : (s.setReg a v).kln = s.kln := (rfl)
@[simp] theorem State.setReg_rig (s : State) (a : Nat) (v : Word) : (s.setReg a v).rig = s.rig := (rfl)
@[simp] theorem State.setReg_ports (s : State) (a : Nat) (v : Word) : (s.setReg a v).ports = s.ports := (rfl)
@[simp] theorem State.setReg_engines (s : State) (a : Nat) (v : Word) : (s.setReg a v).engines = s.engines := (rfl)
@[simp] theorem State.setReg_spare (s : State) (a : Nat) (v : Word) : (s.setReg a v).spare = s.spare := (rfl)
@[simp] theorem State.setReg_locks (s : State) (a : Nat) (v : Word) : (s.setReg a v).locks = s.locks := (rfl)
@[simp] theorem State.setReg_lockNow (s : State) (a : Nat) (v : Word) : (s.setReg a v).lockNow = s.lockNow := (rfl)
@[simp] theorem State.setReg_ticks (s : State) (a : Nat) (v : Word) : (s.setReg a v).ticks = s.ticks := (rfl)
@[simp] theorem State.setReg_wheels (s : State) (a : Nat) (v : Word) : (s.setReg a v).wheels = s.wheels := (rfl)
@[simp] theorem State.setReg_vr (s : State) (a : Nat) (v : Word) : (s.setReg a v).vr = s.vr := (rfl)
@[simp] theorem State.setReg_teeth (s : State) (a : Nat) (v : Word) : (s.setReg a v).teeth = s.teeth := (rfl)
@[simp] theorem State.setReg_toothPath (s : State) (a : Nat) (v : Word) : (s.setReg a v).toothPath = s.toothPath := (rfl)
@[simp] theorem State.setReg_sheaves (s : State) (a : Nat) (v : Word) : (s.setReg a v).sheaves = s.sheaves := (rfl)
@[simp] theorem State.setReg_hly (s : State) (a : Nat) (v : Word) : (s.setReg a v).hly = s.hly := (rfl)
@[simp] theorem State.setReg_lgc (s : State) (a : Nat) (v : Word) : (s.setReg a v).lgc = s.lgc := (rfl)
@[simp] theorem State.setReg_frs (s : State) (a : Nat) (v : Word) : (s.setReg a v).frs = s.frs := (rfl)
@[simp] theorem State.setReg_faults (s : State) (a : Nat) (v : Word) : (s.setReg a v).faults = s.faults := (rfl)
@[simp] theorem State.setReg_sendq (s : State) (a : Nat) (v : Word) : (s.setReg a v).sendq = s.sendq := (rfl)
@[simp] theorem State.setReg_transit (s : State) (a : Nat) (v : Word) : (s.setReg a v).transit = s.transit := (rfl)
@[simp] theorem State.setReg_ep (s : State) (a : Nat) (v : Word) : (s.setReg a v).ep = s.ep := (rfl)
@[simp] theorem State.setReg_stay (s : State) (a : Nat) (v : Word) : (s.setReg a v).stay = s.stay := (rfl)
@[simp] theorem State.setReg_pwr (s : State) (a : Nat) (v : Word) : (s.setReg a v).pwr = s.pwr := (rfl)
@[simp] theorem State.setReg_flash (s : State) (a : Nat) (v : Word) : (s.setReg a v).flash = s.flash := (rfl)
@[simp] theorem State.setReg_flashOut (s : State) (a : Nat) (v : Word) : (s.setReg a v).flashOut = s.flashOut := (rfl)
@[simp] theorem State.setReg_boot (s : State) (a : Nat) (v : Word) : (s.setReg a v).boot = s.boot := (rfl)
@[simp] theorem State.setReg_vault (s : State) (a : Nat) (v : Word) : (s.setReg a v).vault = s.vault := (rfl)
@[simp] theorem State.setReg_lan (s : State) (a : Nat) (v : Word) : (s.setReg a v).lan = s.lan := (rfl)
@[simp] theorem State.setReg_free (s : State) (a : Nat) (v : Word) : (s.setReg a v).free = s.free := (rfl)
@[simp] theorem State.setReg_pending (s : State) (a : Nat) (v : Word) : (s.setReg a v).pending = s.pending := (rfl)
@[simp] theorem State.setReg_now (s : State) (a : Nat) (v : Word) : (s.setReg a v).now = s.now := (rfl)
@[simp] theorem State.setReg_mc (s : State) (a : Nat) (v : Word) : (s.setReg a v).mc = s.mc := (rfl)
@[simp] theorem State.setReg_eng (s : State) (a : Nat) (v : Word) (i : Nat) : (s.setReg a v).eng i = s.eng i := (rfl)
@[simp] theorem State.setReg_port (s : State) (a : Nat) (v : Word) (i : Nat) : (s.setReg a v).port i = s.port i := (rfl)
@[simp] theorem State.setReg_bank (s : State) (a : Nat) (v : Word) (i : Nat) : (s.setReg a v).bank i = s.bank i := (rfl)
@[simp] theorem State.setReg_wheel (s : State) (a : Nat) (v : Word) (i : Nat) : (s.setReg a v).wheel i = s.wheel i := (rfl)
@[simp] theorem State.setReg_sheave (s : State) (a : Nat) (v : Word) (i : Nat) : (s.setReg a v).sheave i = s.sheave i := (rfl)
@[simp] theorem State.setReg_chan (s : State) (a : Nat) (v : Word) (i : Nat) : (s.setReg a v).chan i = s.chan i := (rfl)
@[simp] theorem State.setReg_byte (s : State) (a : Nat) (v : Word) (i : Nat) : (s.setReg a v).byte i = s.byte i := (rfl)
@[simp] theorem State.setReg_stg (s : State) (a : Nat) (v : Word) (i : Nat) : (s.setReg a v).stg i = s.stg i := (rfl)
@[simp] theorem State.setReg_noted (s : State) (a : Nat) (v : Word) (H : Fld) : (s.setReg a v).noted H = s.noted H := (rfl)

@[simp] theorem State.setStg_regs (s : State) (a : Nat) (v : Word) : (s.setStg a v).regs = s.regs := (rfl)
@[simp] theorem State.setStg_hwNow (s : State) (a : Nat) (v : Word) : (s.setStg a v).hwNow = s.hwNow := (rfl)
@[simp] theorem State.setStg_mem (s : State) (a : Nat) (v : Word) : (s.setStg a v).mem = s.mem := (rfl)
@[simp] theorem State.setStg_upset (s : State) (a : Nat) (v : Word) : (s.setStg a v).upset = s.upset := (rfl)
@[simp] theorem State.setStg_banks (s : State) (a : Nat) (v : Word) : (s.setStg a v).banks = s.banks := (rfl)
@[simp] theorem State.setStg_kln (s : State) (a : Nat) (v : Word) : (s.setStg a v).kln = s.kln := (rfl)
@[simp] theorem State.setStg_rig (s : State) (a : Nat) (v : Word) : (s.setStg a v).rig = s.rig := (rfl)
@[simp] theorem State.setStg_ports (s : State) (a : Nat) (v : Word) : (s.setStg a v).ports = s.ports := (rfl)
@[simp] theorem State.setStg_engines (s : State) (a : Nat) (v : Word) : (s.setStg a v).engines = s.engines := (rfl)
@[simp] theorem State.setStg_spare (s : State) (a : Nat) (v : Word) : (s.setStg a v).spare = s.spare := (rfl)
@[simp] theorem State.setStg_locks (s : State) (a : Nat) (v : Word) : (s.setStg a v).locks = s.locks := (rfl)
@[simp] theorem State.setStg_lockNow (s : State) (a : Nat) (v : Word) : (s.setStg a v).lockNow = s.lockNow := (rfl)
@[simp] theorem State.setStg_ticks (s : State) (a : Nat) (v : Word) : (s.setStg a v).ticks = s.ticks := (rfl)
@[simp] theorem State.setStg_wheels (s : State) (a : Nat) (v : Word) : (s.setStg a v).wheels = s.wheels := (rfl)
@[simp] theorem State.setStg_vr (s : State) (a : Nat) (v : Word) : (s.setStg a v).vr = s.vr := (rfl)
@[simp] theorem State.setStg_teeth (s : State) (a : Nat) (v : Word) : (s.setStg a v).teeth = s.teeth := (rfl)
@[simp] theorem State.setStg_toothPath (s : State) (a : Nat) (v : Word) : (s.setStg a v).toothPath = s.toothPath := (rfl)
@[simp] theorem State.setStg_sheaves (s : State) (a : Nat) (v : Word) : (s.setStg a v).sheaves = s.sheaves := (rfl)
@[simp] theorem State.setStg_hly (s : State) (a : Nat) (v : Word) : (s.setStg a v).hly = s.hly := (rfl)
@[simp] theorem State.setStg_lgc (s : State) (a : Nat) (v : Word) : (s.setStg a v).lgc = s.lgc := (rfl)
@[simp] theorem State.setStg_frs (s : State) (a : Nat) (v : Word) : (s.setStg a v).frs = s.frs := (rfl)
@[simp] theorem State.setStg_faults (s : State) (a : Nat) (v : Word) : (s.setStg a v).faults = s.faults := (rfl)
@[simp] theorem State.setStg_sendq (s : State) (a : Nat) (v : Word) : (s.setStg a v).sendq = s.sendq := (rfl)
@[simp] theorem State.setStg_transit (s : State) (a : Nat) (v : Word) : (s.setStg a v).transit = s.transit := (rfl)
@[simp] theorem State.setStg_ep (s : State) (a : Nat) (v : Word) : (s.setStg a v).ep = s.ep := (rfl)
@[simp] theorem State.setStg_stay (s : State) (a : Nat) (v : Word) : (s.setStg a v).stay = s.stay := (rfl)
@[simp] theorem State.setStg_pwr (s : State) (a : Nat) (v : Word) : (s.setStg a v).pwr = s.pwr := (rfl)
@[simp] theorem State.setStg_flash (s : State) (a : Nat) (v : Word) : (s.setStg a v).flash = s.flash := (rfl)
@[simp] theorem State.setStg_flashOut (s : State) (a : Nat) (v : Word) : (s.setStg a v).flashOut = s.flashOut := (rfl)
@[simp] theorem State.setStg_boot (s : State) (a : Nat) (v : Word) : (s.setStg a v).boot = s.boot := (rfl)
@[simp] theorem State.setStg_vault (s : State) (a : Nat) (v : Word) : (s.setStg a v).vault = s.vault := (rfl)
@[simp] theorem State.setStg_lan (s : State) (a : Nat) (v : Word) : (s.setStg a v).lan = s.lan := (rfl)
@[simp] theorem State.setStg_free (s : State) (a : Nat) (v : Word) : (s.setStg a v).free = s.free := (rfl)
@[simp] theorem State.setStg_pending (s : State) (a : Nat) (v : Word) : (s.setStg a v).pending = s.pending := (rfl)
@[simp] theorem State.setStg_now (s : State) (a : Nat) (v : Word) : (s.setStg a v).now = s.now := (rfl)
@[simp] theorem State.setStg_mc (s : State) (a : Nat) (v : Word) : (s.setStg a v).mc = s.mc := (rfl)
@[simp] theorem State.setStg_eng (s : State) (a : Nat) (v : Word) (i : Nat) : (s.setStg a v).eng i = s.eng i := (rfl)
@[simp] theorem State.setStg_port (s : State) (a : Nat) (v : Word) (i : Nat) : (s.setStg a v).port i = s.port i := (rfl)
@[simp] theorem State.setStg_bank (s : State) (a : Nat) (v : Word) (i : Nat) : (s.setStg a v).bank i = s.bank i := (rfl)
@[simp] theorem State.setStg_wheel (s : State) (a : Nat) (v : Word) (i : Nat) : (s.setStg a v).wheel i = s.wheel i := (rfl)
@[simp] theorem State.setStg_sheave (s : State) (a : Nat) (v : Word) (i : Nat) : (s.setStg a v).sheave i = s.sheave i := (rfl)
@[simp] theorem State.setStg_chan (s : State) (a : Nat) (v : Word) (i : Nat) : (s.setStg a v).chan i = s.chan i := (rfl)
@[simp] theorem State.setStg_byte (s : State) (a : Nat) (v : Word) (i : Nat) : (s.setStg a v).byte i = s.byte i := (rfl)
@[simp] theorem State.setStg_reg (s : State) (a : Nat) (v : Word) (i : Nat) : (s.setStg a v).reg i = s.reg i := (rfl)
@[simp] theorem State.setStg_f (s : State) (a : Nat) (v : Word) (H : Fld) : (s.setStg a v).f H = s.f H := (rfl)
@[simp] theorem State.setStg_flag (s : State) (a : Nat) (v : Word) (H : Fld) : (s.setStg a v).flag H = s.flag H := (rfl)
@[simp] theorem State.setStg_noted (s : State) (a : Nat) (v : Word) (H : Fld) : (s.setStg a v).noted H = s.noted H := (rfl)

@[simp] theorem State.note_regs (s : State) (G : Fld) : (s.note G).regs = s.regs := (rfl)
@[simp] theorem State.note_staged (s : State) (G : Fld) : (s.note G).staged = s.staged := (rfl)
@[simp] theorem State.note_mem (s : State) (G : Fld) : (s.note G).mem = s.mem := (rfl)
@[simp] theorem State.note_upset (s : State) (G : Fld) : (s.note G).upset = s.upset := (rfl)
@[simp] theorem State.note_banks (s : State) (G : Fld) : (s.note G).banks = s.banks := (rfl)
@[simp] theorem State.note_kln (s : State) (G : Fld) : (s.note G).kln = s.kln := (rfl)
@[simp] theorem State.note_rig (s : State) (G : Fld) : (s.note G).rig = s.rig := (rfl)
@[simp] theorem State.note_ports (s : State) (G : Fld) : (s.note G).ports = s.ports := (rfl)
@[simp] theorem State.note_engines (s : State) (G : Fld) : (s.note G).engines = s.engines := (rfl)
@[simp] theorem State.note_spare (s : State) (G : Fld) : (s.note G).spare = s.spare := (rfl)
@[simp] theorem State.note_locks (s : State) (G : Fld) : (s.note G).locks = s.locks := (rfl)
@[simp] theorem State.note_lockNow (s : State) (G : Fld) : (s.note G).lockNow = s.lockNow := (rfl)
@[simp] theorem State.note_ticks (s : State) (G : Fld) : (s.note G).ticks = s.ticks := (rfl)
@[simp] theorem State.note_wheels (s : State) (G : Fld) : (s.note G).wheels = s.wheels := (rfl)
@[simp] theorem State.note_vr (s : State) (G : Fld) : (s.note G).vr = s.vr := (rfl)
@[simp] theorem State.note_teeth (s : State) (G : Fld) : (s.note G).teeth = s.teeth := (rfl)
@[simp] theorem State.note_toothPath (s : State) (G : Fld) : (s.note G).toothPath = s.toothPath := (rfl)
@[simp] theorem State.note_sheaves (s : State) (G : Fld) : (s.note G).sheaves = s.sheaves := (rfl)
@[simp] theorem State.note_hly (s : State) (G : Fld) : (s.note G).hly = s.hly := (rfl)
@[simp] theorem State.note_lgc (s : State) (G : Fld) : (s.note G).lgc = s.lgc := (rfl)
@[simp] theorem State.note_frs (s : State) (G : Fld) : (s.note G).frs = s.frs := (rfl)
@[simp] theorem State.note_faults (s : State) (G : Fld) : (s.note G).faults = s.faults := (rfl)
@[simp] theorem State.note_sendq (s : State) (G : Fld) : (s.note G).sendq = s.sendq := (rfl)
@[simp] theorem State.note_transit (s : State) (G : Fld) : (s.note G).transit = s.transit := (rfl)
@[simp] theorem State.note_ep (s : State) (G : Fld) : (s.note G).ep = s.ep := (rfl)
@[simp] theorem State.note_stay (s : State) (G : Fld) : (s.note G).stay = s.stay := (rfl)
@[simp] theorem State.note_pwr (s : State) (G : Fld) : (s.note G).pwr = s.pwr := (rfl)
@[simp] theorem State.note_flash (s : State) (G : Fld) : (s.note G).flash = s.flash := (rfl)
@[simp] theorem State.note_flashOut (s : State) (G : Fld) : (s.note G).flashOut = s.flashOut := (rfl)
@[simp] theorem State.note_boot (s : State) (G : Fld) : (s.note G).boot = s.boot := (rfl)
@[simp] theorem State.note_vault (s : State) (G : Fld) : (s.note G).vault = s.vault := (rfl)
@[simp] theorem State.note_lan (s : State) (G : Fld) : (s.note G).lan = s.lan := (rfl)
@[simp] theorem State.note_free (s : State) (G : Fld) : (s.note G).free = s.free := (rfl)
@[simp] theorem State.note_pending (s : State) (G : Fld) : (s.note G).pending = s.pending := (rfl)
@[simp] theorem State.note_now (s : State) (G : Fld) : (s.note G).now = s.now := (rfl)
@[simp] theorem State.note_mc (s : State) (G : Fld) : (s.note G).mc = s.mc := (rfl)
@[simp] theorem State.note_eng (s : State) (G : Fld) (i : Nat) : (s.note G).eng i = s.eng i := (rfl)
@[simp] theorem State.note_port (s : State) (G : Fld) (i : Nat) : (s.note G).port i = s.port i := (rfl)
@[simp] theorem State.note_bank (s : State) (G : Fld) (i : Nat) : (s.note G).bank i = s.bank i := (rfl)
@[simp] theorem State.note_wheel (s : State) (G : Fld) (i : Nat) : (s.note G).wheel i = s.wheel i := (rfl)
@[simp] theorem State.note_sheave (s : State) (G : Fld) (i : Nat) : (s.note G).sheave i = s.sheave i := (rfl)
@[simp] theorem State.note_chan (s : State) (G : Fld) (i : Nat) : (s.note G).chan i = s.chan i := (rfl)
@[simp] theorem State.note_byte (s : State) (G : Fld) (i : Nat) : (s.note G).byte i = s.byte i := (rfl)
@[simp] theorem State.note_reg (s : State) (G : Fld) (i : Nat) : (s.note G).reg i = s.reg i := (rfl)
@[simp] theorem State.note_stg (s : State) (G : Fld) (i : Nat) : (s.note G).stg i = s.stg i := (rfl)
@[simp] theorem State.note_f (s : State) (G : Fld) (H : Fld) : (s.note G).f H = s.f H := (rfl)
@[simp] theorem State.note_flag (s : State) (G : Fld) (H : Fld) : (s.note G).flag H = s.flag H := (rfl)

@[simp] theorem State.draw_regs (s : State) : (s.draw).regs = s.regs := (rfl)
@[simp] theorem State.draw_staged (s : State) : (s.draw).staged = s.staged := (rfl)
@[simp] theorem State.draw_hwNow (s : State) : (s.draw).hwNow = s.hwNow := (rfl)
@[simp] theorem State.draw_mem (s : State) : (s.draw).mem = s.mem := (rfl)
@[simp] theorem State.draw_upset (s : State) : (s.draw).upset = s.upset := (rfl)
@[simp] theorem State.draw_banks (s : State) : (s.draw).banks = s.banks := (rfl)
@[simp] theorem State.draw_kln (s : State) : (s.draw).kln = s.kln := (rfl)
@[simp] theorem State.draw_rig (s : State) : (s.draw).rig = s.rig := (rfl)
@[simp] theorem State.draw_ports (s : State) : (s.draw).ports = s.ports := (rfl)
@[simp] theorem State.draw_engines (s : State) : (s.draw).engines = s.engines := (rfl)
@[simp] theorem State.draw_spare (s : State) : (s.draw).spare = s.spare := (rfl)
@[simp] theorem State.draw_locks (s : State) : (s.draw).locks = s.locks := (rfl)
@[simp] theorem State.draw_lockNow (s : State) : (s.draw).lockNow = s.lockNow := (rfl)
@[simp] theorem State.draw_ticks (s : State) : (s.draw).ticks = s.ticks := (rfl)
@[simp] theorem State.draw_wheels (s : State) : (s.draw).wheels = s.wheels := (rfl)
@[simp] theorem State.draw_vr (s : State) : (s.draw).vr = s.vr := (rfl)
@[simp] theorem State.draw_teeth (s : State) : (s.draw).teeth = s.teeth := (rfl)
@[simp] theorem State.draw_toothPath (s : State) : (s.draw).toothPath = s.toothPath := (rfl)
@[simp] theorem State.draw_sheaves (s : State) : (s.draw).sheaves = s.sheaves := (rfl)
@[simp] theorem State.draw_hly (s : State) : (s.draw).hly = s.hly := (rfl)
@[simp] theorem State.draw_lgc (s : State) : (s.draw).lgc = s.lgc := (rfl)
@[simp] theorem State.draw_frs (s : State) : (s.draw).frs = s.frs := (rfl)
@[simp] theorem State.draw_faults (s : State) : (s.draw).faults = s.faults := (rfl)
@[simp] theorem State.draw_sendq (s : State) : (s.draw).sendq = s.sendq := (rfl)
@[simp] theorem State.draw_transit (s : State) : (s.draw).transit = s.transit := (rfl)
@[simp] theorem State.draw_ep (s : State) : (s.draw).ep = s.ep := (rfl)
@[simp] theorem State.draw_stay (s : State) : (s.draw).stay = s.stay := (rfl)
@[simp] theorem State.draw_pwr (s : State) : (s.draw).pwr = s.pwr := (rfl)
@[simp] theorem State.draw_flash (s : State) : (s.draw).flash = s.flash := (rfl)
@[simp] theorem State.draw_flashOut (s : State) : (s.draw).flashOut = s.flashOut := (rfl)
@[simp] theorem State.draw_boot (s : State) : (s.draw).boot = s.boot := (rfl)
@[simp] theorem State.draw_vault (s : State) : (s.draw).vault = s.vault := (rfl)
@[simp] theorem State.draw_lan (s : State) : (s.draw).lan = s.lan := (rfl)
@[simp] theorem State.draw_pending (s : State) : (s.draw).pending = s.pending := (rfl)
@[simp] theorem State.draw_now (s : State) : (s.draw).now = s.now := (rfl)
@[simp] theorem State.draw_mc (s : State) : (s.draw).mc = s.mc := (rfl)
@[simp] theorem State.draw_eng (s : State) (i : Nat) : (s.draw).eng i = s.eng i := (rfl)
@[simp] theorem State.draw_port (s : State) (i : Nat) : (s.draw).port i = s.port i := (rfl)
@[simp] theorem State.draw_bank (s : State) (i : Nat) : (s.draw).bank i = s.bank i := (rfl)
@[simp] theorem State.draw_wheel (s : State) (i : Nat) : (s.draw).wheel i = s.wheel i := (rfl)
@[simp] theorem State.draw_sheave (s : State) (i : Nat) : (s.draw).sheave i = s.sheave i := (rfl)
@[simp] theorem State.draw_chan (s : State) (i : Nat) : (s.draw).chan i = s.chan i := (rfl)
@[simp] theorem State.draw_byte (s : State) (i : Nat) : (s.draw).byte i = s.byte i := (rfl)
@[simp] theorem State.draw_reg (s : State) (i : Nat) : (s.draw).reg i = s.reg i := (rfl)
@[simp] theorem State.draw_stg (s : State) (i : Nat) : (s.draw).stg i = s.stg i := (rfl)
@[simp] theorem State.draw_f (s : State) (H : Fld) : (s.draw).f H = s.f H := (rfl)
@[simp] theorem State.draw_flag (s : State) (H : Fld) : (s.draw).flag H = s.flag H := (rfl)
@[simp] theorem State.draw_noted (s : State) (H : Fld) : (s.draw).noted H = s.noted H := (rfl)

@[simp] theorem State.setPort_regs (s : State) (p : Nat) (x : Port) : (s.setPort p x).regs = s.regs := (rfl)
@[simp] theorem State.setPort_staged (s : State) (p : Nat) (x : Port) : (s.setPort p x).staged = s.staged := (rfl)
@[simp] theorem State.setPort_hwNow (s : State) (p : Nat) (x : Port) : (s.setPort p x).hwNow = s.hwNow := (rfl)
@[simp] theorem State.setPort_mem (s : State) (p : Nat) (x : Port) : (s.setPort p x).mem = s.mem := (rfl)
@[simp] theorem State.setPort_upset (s : State) (p : Nat) (x : Port) : (s.setPort p x).upset = s.upset := (rfl)
@[simp] theorem State.setPort_banks (s : State) (p : Nat) (x : Port) : (s.setPort p x).banks = s.banks := (rfl)
@[simp] theorem State.setPort_kln (s : State) (p : Nat) (x : Port) : (s.setPort p x).kln = s.kln := (rfl)
@[simp] theorem State.setPort_rig (s : State) (p : Nat) (x : Port) : (s.setPort p x).rig = s.rig := (rfl)
@[simp] theorem State.setPort_engines (s : State) (p : Nat) (x : Port) : (s.setPort p x).engines = s.engines := (rfl)
@[simp] theorem State.setPort_spare (s : State) (p : Nat) (x : Port) : (s.setPort p x).spare = s.spare := (rfl)
@[simp] theorem State.setPort_locks (s : State) (p : Nat) (x : Port) : (s.setPort p x).locks = s.locks := (rfl)
@[simp] theorem State.setPort_lockNow (s : State) (p : Nat) (x : Port) : (s.setPort p x).lockNow = s.lockNow := (rfl)
@[simp] theorem State.setPort_ticks (s : State) (p : Nat) (x : Port) : (s.setPort p x).ticks = s.ticks := (rfl)
@[simp] theorem State.setPort_wheels (s : State) (p : Nat) (x : Port) : (s.setPort p x).wheels = s.wheels := (rfl)
@[simp] theorem State.setPort_vr (s : State) (p : Nat) (x : Port) : (s.setPort p x).vr = s.vr := (rfl)
@[simp] theorem State.setPort_teeth (s : State) (p : Nat) (x : Port) : (s.setPort p x).teeth = s.teeth := (rfl)
@[simp] theorem State.setPort_toothPath (s : State) (p : Nat) (x : Port) : (s.setPort p x).toothPath = s.toothPath := (rfl)
@[simp] theorem State.setPort_sheaves (s : State) (p : Nat) (x : Port) : (s.setPort p x).sheaves = s.sheaves := (rfl)
@[simp] theorem State.setPort_hly (s : State) (p : Nat) (x : Port) : (s.setPort p x).hly = s.hly := (rfl)
@[simp] theorem State.setPort_lgc (s : State) (p : Nat) (x : Port) : (s.setPort p x).lgc = s.lgc := (rfl)
@[simp] theorem State.setPort_frs (s : State) (p : Nat) (x : Port) : (s.setPort p x).frs = s.frs := (rfl)
@[simp] theorem State.setPort_faults (s : State) (p : Nat) (x : Port) : (s.setPort p x).faults = s.faults := (rfl)
@[simp] theorem State.setPort_sendq (s : State) (p : Nat) (x : Port) : (s.setPort p x).sendq = s.sendq := (rfl)
@[simp] theorem State.setPort_transit (s : State) (p : Nat) (x : Port) : (s.setPort p x).transit = s.transit := (rfl)
@[simp] theorem State.setPort_ep (s : State) (p : Nat) (x : Port) : (s.setPort p x).ep = s.ep := (rfl)
@[simp] theorem State.setPort_stay (s : State) (p : Nat) (x : Port) : (s.setPort p x).stay = s.stay := (rfl)
@[simp] theorem State.setPort_pwr (s : State) (p : Nat) (x : Port) : (s.setPort p x).pwr = s.pwr := (rfl)
@[simp] theorem State.setPort_flash (s : State) (p : Nat) (x : Port) : (s.setPort p x).flash = s.flash := (rfl)
@[simp] theorem State.setPort_flashOut (s : State) (p : Nat) (x : Port) : (s.setPort p x).flashOut = s.flashOut := (rfl)
@[simp] theorem State.setPort_boot (s : State) (p : Nat) (x : Port) : (s.setPort p x).boot = s.boot := (rfl)
@[simp] theorem State.setPort_vault (s : State) (p : Nat) (x : Port) : (s.setPort p x).vault = s.vault := (rfl)
@[simp] theorem State.setPort_lan (s : State) (p : Nat) (x : Port) : (s.setPort p x).lan = s.lan := (rfl)
@[simp] theorem State.setPort_free (s : State) (p : Nat) (x : Port) : (s.setPort p x).free = s.free := (rfl)
@[simp] theorem State.setPort_pending (s : State) (p : Nat) (x : Port) : (s.setPort p x).pending = s.pending := (rfl)
@[simp] theorem State.setPort_now (s : State) (p : Nat) (x : Port) : (s.setPort p x).now = s.now := (rfl)
@[simp] theorem State.setPort_mc (s : State) (p : Nat) (x : Port) : (s.setPort p x).mc = s.mc := (rfl)
@[simp] theorem State.setPort_eng (s : State) (p : Nat) (x : Port) (i : Nat) : (s.setPort p x).eng i = s.eng i := (rfl)
@[simp] theorem State.setPort_bank (s : State) (p : Nat) (x : Port) (i : Nat) : (s.setPort p x).bank i = s.bank i := (rfl)
@[simp] theorem State.setPort_wheel (s : State) (p : Nat) (x : Port) (i : Nat) : (s.setPort p x).wheel i = s.wheel i := (rfl)
@[simp] theorem State.setPort_sheave (s : State) (p : Nat) (x : Port) (i : Nat) : (s.setPort p x).sheave i = s.sheave i := (rfl)
@[simp] theorem State.setPort_chan (s : State) (p : Nat) (x : Port) (i : Nat) : (s.setPort p x).chan i = s.chan i := (rfl)
@[simp] theorem State.setPort_byte (s : State) (p : Nat) (x : Port) (i : Nat) : (s.setPort p x).byte i = s.byte i := (rfl)
@[simp] theorem State.setPort_reg (s : State) (p : Nat) (x : Port) (i : Nat) : (s.setPort p x).reg i = s.reg i := (rfl)
@[simp] theorem State.setPort_stg (s : State) (p : Nat) (x : Port) (i : Nat) : (s.setPort p x).stg i = s.stg i := (rfl)
@[simp] theorem State.setPort_f (s : State) (p : Nat) (x : Port) (H : Fld) : (s.setPort p x).f H = s.f H := (rfl)
@[simp] theorem State.setPort_flag (s : State) (p : Nat) (x : Port) (H : Fld) : (s.setPort p x).flag H = s.flag H := (rfl)
@[simp] theorem State.setPort_noted (s : State) (p : Nat) (x : Port) (H : Fld) : (s.setPort p x).noted H = s.noted H := (rfl)

@[simp] theorem State.modPort_regs (s : State) (p : Nat) (f : Port → Port) : (s.modPort p f).regs = s.regs := (rfl)
@[simp] theorem State.modPort_staged (s : State) (p : Nat) (f : Port → Port) : (s.modPort p f).staged = s.staged := (rfl)
@[simp] theorem State.modPort_hwNow (s : State) (p : Nat) (f : Port → Port) : (s.modPort p f).hwNow = s.hwNow := (rfl)
@[simp] theorem State.modPort_mem (s : State) (p : Nat) (f : Port → Port) : (s.modPort p f).mem = s.mem := (rfl)
@[simp] theorem State.modPort_upset (s : State) (p : Nat) (f : Port → Port) : (s.modPort p f).upset = s.upset := (rfl)
@[simp] theorem State.modPort_banks (s : State) (p : Nat) (f : Port → Port) : (s.modPort p f).banks = s.banks := (rfl)
@[simp] theorem State.modPort_kln (s : State) (p : Nat) (f : Port → Port) : (s.modPort p f).kln = s.kln := (rfl)
@[simp] theorem State.modPort_rig (s : State) (p : Nat) (f : Port → Port) : (s.modPort p f).rig = s.rig := (rfl)
@[simp] theorem State.modPort_engines (s : State) (p : Nat) (f : Port → Port) : (s.modPort p f).engines = s.engines := (rfl)
@[simp] theorem State.modPort_spare (s : State) (p : Nat) (f : Port → Port) : (s.modPort p f).spare = s.spare := (rfl)
@[simp] theorem State.modPort_locks (s : State) (p : Nat) (f : Port → Port) : (s.modPort p f).locks = s.locks := (rfl)
@[simp] theorem State.modPort_lockNow (s : State) (p : Nat) (f : Port → Port) : (s.modPort p f).lockNow = s.lockNow := (rfl)
@[simp] theorem State.modPort_ticks (s : State) (p : Nat) (f : Port → Port) : (s.modPort p f).ticks = s.ticks := (rfl)
@[simp] theorem State.modPort_wheels (s : State) (p : Nat) (f : Port → Port) : (s.modPort p f).wheels = s.wheels := (rfl)
@[simp] theorem State.modPort_vr (s : State) (p : Nat) (f : Port → Port) : (s.modPort p f).vr = s.vr := (rfl)
@[simp] theorem State.modPort_teeth (s : State) (p : Nat) (f : Port → Port) : (s.modPort p f).teeth = s.teeth := (rfl)
@[simp] theorem State.modPort_toothPath (s : State) (p : Nat) (f : Port → Port) : (s.modPort p f).toothPath = s.toothPath := (rfl)
@[simp] theorem State.modPort_sheaves (s : State) (p : Nat) (f : Port → Port) : (s.modPort p f).sheaves = s.sheaves := (rfl)
@[simp] theorem State.modPort_hly (s : State) (p : Nat) (f : Port → Port) : (s.modPort p f).hly = s.hly := (rfl)
@[simp] theorem State.modPort_lgc (s : State) (p : Nat) (f : Port → Port) : (s.modPort p f).lgc = s.lgc := (rfl)
@[simp] theorem State.modPort_frs (s : State) (p : Nat) (f : Port → Port) : (s.modPort p f).frs = s.frs := (rfl)
@[simp] theorem State.modPort_faults (s : State) (p : Nat) (f : Port → Port) : (s.modPort p f).faults = s.faults := (rfl)
@[simp] theorem State.modPort_sendq (s : State) (p : Nat) (f : Port → Port) : (s.modPort p f).sendq = s.sendq := (rfl)
@[simp] theorem State.modPort_transit (s : State) (p : Nat) (f : Port → Port) : (s.modPort p f).transit = s.transit := (rfl)
@[simp] theorem State.modPort_ep (s : State) (p : Nat) (f : Port → Port) : (s.modPort p f).ep = s.ep := (rfl)
@[simp] theorem State.modPort_stay (s : State) (p : Nat) (f : Port → Port) : (s.modPort p f).stay = s.stay := (rfl)
@[simp] theorem State.modPort_pwr (s : State) (p : Nat) (f : Port → Port) : (s.modPort p f).pwr = s.pwr := (rfl)
@[simp] theorem State.modPort_flash (s : State) (p : Nat) (f : Port → Port) : (s.modPort p f).flash = s.flash := (rfl)
@[simp] theorem State.modPort_flashOut (s : State) (p : Nat) (f : Port → Port) : (s.modPort p f).flashOut = s.flashOut := (rfl)
@[simp] theorem State.modPort_boot (s : State) (p : Nat) (f : Port → Port) : (s.modPort p f).boot = s.boot := (rfl)
@[simp] theorem State.modPort_vault (s : State) (p : Nat) (f : Port → Port) : (s.modPort p f).vault = s.vault := (rfl)
@[simp] theorem State.modPort_lan (s : State) (p : Nat) (f : Port → Port) : (s.modPort p f).lan = s.lan := (rfl)
@[simp] theorem State.modPort_free (s : State) (p : Nat) (f : Port → Port) : (s.modPort p f).free = s.free := (rfl)
@[simp] theorem State.modPort_pending (s : State) (p : Nat) (f : Port → Port) : (s.modPort p f).pending = s.pending := (rfl)
@[simp] theorem State.modPort_now (s : State) (p : Nat) (f : Port → Port) : (s.modPort p f).now = s.now := (rfl)
@[simp] theorem State.modPort_mc (s : State) (p : Nat) (f : Port → Port) : (s.modPort p f).mc = s.mc := (rfl)
@[simp] theorem State.modPort_eng (s : State) (p : Nat) (f : Port → Port) (i : Nat) : (s.modPort p f).eng i = s.eng i := (rfl)
@[simp] theorem State.modPort_bank (s : State) (p : Nat) (f : Port → Port) (i : Nat) : (s.modPort p f).bank i = s.bank i := (rfl)
@[simp] theorem State.modPort_wheel (s : State) (p : Nat) (f : Port → Port) (i : Nat) : (s.modPort p f).wheel i = s.wheel i := (rfl)
@[simp] theorem State.modPort_sheave (s : State) (p : Nat) (f : Port → Port) (i : Nat) : (s.modPort p f).sheave i = s.sheave i := (rfl)
@[simp] theorem State.modPort_chan (s : State) (p : Nat) (f : Port → Port) (i : Nat) : (s.modPort p f).chan i = s.chan i := (rfl)
@[simp] theorem State.modPort_byte (s : State) (p : Nat) (f : Port → Port) (i : Nat) : (s.modPort p f).byte i = s.byte i := (rfl)
@[simp] theorem State.modPort_reg (s : State) (p : Nat) (f : Port → Port) (i : Nat) : (s.modPort p f).reg i = s.reg i := (rfl)
@[simp] theorem State.modPort_stg (s : State) (p : Nat) (f : Port → Port) (i : Nat) : (s.modPort p f).stg i = s.stg i := (rfl)
@[simp] theorem State.modPort_f (s : State) (p : Nat) (f : Port → Port) (H : Fld) : (s.modPort p f).f H = s.f H := (rfl)
@[simp] theorem State.modPort_flag (s : State) (p : Nat) (f : Port → Port) (H : Fld) : (s.modPort p f).flag H = s.flag H := (rfl)
@[simp] theorem State.modPort_noted (s : State) (p : Nat) (f : Port → Port) (H : Fld) : (s.modPort p f).noted H = s.noted H := (rfl)

@[simp] theorem State.setByte_regs (s : State) (a : Nat) (v : Byte) : (s.setByte a v).regs = s.regs := (rfl)
@[simp] theorem State.setByte_staged (s : State) (a : Nat) (v : Byte) : (s.setByte a v).staged = s.staged := (rfl)
@[simp] theorem State.setByte_hwNow (s : State) (a : Nat) (v : Byte) : (s.setByte a v).hwNow = s.hwNow := (rfl)
@[simp] theorem State.setByte_upset (s : State) (a : Nat) (v : Byte) : (s.setByte a v).upset = s.upset := (rfl)
@[simp] theorem State.setByte_banks (s : State) (a : Nat) (v : Byte) : (s.setByte a v).banks = s.banks := (rfl)
@[simp] theorem State.setByte_kln (s : State) (a : Nat) (v : Byte) : (s.setByte a v).kln = s.kln := (rfl)
@[simp] theorem State.setByte_rig (s : State) (a : Nat) (v : Byte) : (s.setByte a v).rig = s.rig := (rfl)
@[simp] theorem State.setByte_ports (s : State) (a : Nat) (v : Byte) : (s.setByte a v).ports = s.ports := (rfl)
@[simp] theorem State.setByte_engines (s : State) (a : Nat) (v : Byte) : (s.setByte a v).engines = s.engines := (rfl)
@[simp] theorem State.setByte_spare (s : State) (a : Nat) (v : Byte) : (s.setByte a v).spare = s.spare := (rfl)
@[simp] theorem State.setByte_locks (s : State) (a : Nat) (v : Byte) : (s.setByte a v).locks = s.locks := (rfl)
@[simp] theorem State.setByte_lockNow (s : State) (a : Nat) (v : Byte) : (s.setByte a v).lockNow = s.lockNow := (rfl)
@[simp] theorem State.setByte_ticks (s : State) (a : Nat) (v : Byte) : (s.setByte a v).ticks = s.ticks := (rfl)
@[simp] theorem State.setByte_wheels (s : State) (a : Nat) (v : Byte) : (s.setByte a v).wheels = s.wheels := (rfl)
@[simp] theorem State.setByte_vr (s : State) (a : Nat) (v : Byte) : (s.setByte a v).vr = s.vr := (rfl)
@[simp] theorem State.setByte_teeth (s : State) (a : Nat) (v : Byte) : (s.setByte a v).teeth = s.teeth := (rfl)
@[simp] theorem State.setByte_toothPath (s : State) (a : Nat) (v : Byte) : (s.setByte a v).toothPath = s.toothPath := (rfl)
@[simp] theorem State.setByte_sheaves (s : State) (a : Nat) (v : Byte) : (s.setByte a v).sheaves = s.sheaves := (rfl)
@[simp] theorem State.setByte_hly (s : State) (a : Nat) (v : Byte) : (s.setByte a v).hly = s.hly := (rfl)
@[simp] theorem State.setByte_lgc (s : State) (a : Nat) (v : Byte) : (s.setByte a v).lgc = s.lgc := (rfl)
@[simp] theorem State.setByte_frs (s : State) (a : Nat) (v : Byte) : (s.setByte a v).frs = s.frs := (rfl)
@[simp] theorem State.setByte_faults (s : State) (a : Nat) (v : Byte) : (s.setByte a v).faults = s.faults := (rfl)
@[simp] theorem State.setByte_sendq (s : State) (a : Nat) (v : Byte) : (s.setByte a v).sendq = s.sendq := (rfl)
@[simp] theorem State.setByte_transit (s : State) (a : Nat) (v : Byte) : (s.setByte a v).transit = s.transit := (rfl)
@[simp] theorem State.setByte_ep (s : State) (a : Nat) (v : Byte) : (s.setByte a v).ep = s.ep := (rfl)
@[simp] theorem State.setByte_stay (s : State) (a : Nat) (v : Byte) : (s.setByte a v).stay = s.stay := (rfl)
@[simp] theorem State.setByte_pwr (s : State) (a : Nat) (v : Byte) : (s.setByte a v).pwr = s.pwr := (rfl)
@[simp] theorem State.setByte_flash (s : State) (a : Nat) (v : Byte) : (s.setByte a v).flash = s.flash := (rfl)
@[simp] theorem State.setByte_flashOut (s : State) (a : Nat) (v : Byte) : (s.setByte a v).flashOut = s.flashOut := (rfl)
@[simp] theorem State.setByte_boot (s : State) (a : Nat) (v : Byte) : (s.setByte a v).boot = s.boot := (rfl)
@[simp] theorem State.setByte_vault (s : State) (a : Nat) (v : Byte) : (s.setByte a v).vault = s.vault := (rfl)
@[simp] theorem State.setByte_lan (s : State) (a : Nat) (v : Byte) : (s.setByte a v).lan = s.lan := (rfl)
@[simp] theorem State.setByte_free (s : State) (a : Nat) (v : Byte) : (s.setByte a v).free = s.free := (rfl)
@[simp] theorem State.setByte_pending (s : State) (a : Nat) (v : Byte) : (s.setByte a v).pending = s.pending := (rfl)
@[simp] theorem State.setByte_now (s : State) (a : Nat) (v : Byte) : (s.setByte a v).now = s.now := (rfl)
@[simp] theorem State.setByte_mc (s : State) (a : Nat) (v : Byte) : (s.setByte a v).mc = s.mc := (rfl)
@[simp] theorem State.setByte_eng (s : State) (a : Nat) (v : Byte) (i : Nat) : (s.setByte a v).eng i = s.eng i := (rfl)
@[simp] theorem State.setByte_port (s : State) (a : Nat) (v : Byte) (i : Nat) : (s.setByte a v).port i = s.port i := (rfl)
@[simp] theorem State.setByte_bank (s : State) (a : Nat) (v : Byte) (i : Nat) : (s.setByte a v).bank i = s.bank i := (rfl)
@[simp] theorem State.setByte_wheel (s : State) (a : Nat) (v : Byte) (i : Nat) : (s.setByte a v).wheel i = s.wheel i := (rfl)
@[simp] theorem State.setByte_sheave (s : State) (a : Nat) (v : Byte) (i : Nat) : (s.setByte a v).sheave i = s.sheave i := (rfl)
@[simp] theorem State.setByte_chan (s : State) (a : Nat) (v : Byte) (i : Nat) : (s.setByte a v).chan i = s.chan i := (rfl)
@[simp] theorem State.setByte_reg (s : State) (a : Nat) (v : Byte) (i : Nat) : (s.setByte a v).reg i = s.reg i := (rfl)
@[simp] theorem State.setByte_stg (s : State) (a : Nat) (v : Byte) (i : Nat) : (s.setByte a v).stg i = s.stg i := (rfl)
@[simp] theorem State.setByte_f (s : State) (a : Nat) (v : Byte) (H : Fld) : (s.setByte a v).f H = s.f H := (rfl)
@[simp] theorem State.setByte_flag (s : State) (a : Nat) (v : Byte) (H : Fld) : (s.setByte a v).flag H = s.flag H := (rfl)
@[simp] theorem State.setByte_noted (s : State) (a : Nat) (v : Byte) (H : Fld) : (s.setByte a v).noted H = s.noted H := (rfl)

@[simp] theorem State.modBank_regs (s : State) (b : Nat) (f : Bank → Bank) : (s.modBank b f).regs = s.regs := (rfl)
@[simp] theorem State.modBank_staged (s : State) (b : Nat) (f : Bank → Bank) : (s.modBank b f).staged = s.staged := (rfl)
@[simp] theorem State.modBank_hwNow (s : State) (b : Nat) (f : Bank → Bank) : (s.modBank b f).hwNow = s.hwNow := (rfl)
@[simp] theorem State.modBank_mem (s : State) (b : Nat) (f : Bank → Bank) : (s.modBank b f).mem = s.mem := (rfl)
@[simp] theorem State.modBank_upset (s : State) (b : Nat) (f : Bank → Bank) : (s.modBank b f).upset = s.upset := (rfl)
@[simp] theorem State.modBank_kln (s : State) (b : Nat) (f : Bank → Bank) : (s.modBank b f).kln = s.kln := (rfl)
@[simp] theorem State.modBank_rig (s : State) (b : Nat) (f : Bank → Bank) : (s.modBank b f).rig = s.rig := (rfl)
@[simp] theorem State.modBank_ports (s : State) (b : Nat) (f : Bank → Bank) : (s.modBank b f).ports = s.ports := (rfl)
@[simp] theorem State.modBank_engines (s : State) (b : Nat) (f : Bank → Bank) : (s.modBank b f).engines = s.engines := (rfl)
@[simp] theorem State.modBank_spare (s : State) (b : Nat) (f : Bank → Bank) : (s.modBank b f).spare = s.spare := (rfl)
@[simp] theorem State.modBank_locks (s : State) (b : Nat) (f : Bank → Bank) : (s.modBank b f).locks = s.locks := (rfl)
@[simp] theorem State.modBank_lockNow (s : State) (b : Nat) (f : Bank → Bank) : (s.modBank b f).lockNow = s.lockNow := (rfl)
@[simp] theorem State.modBank_ticks (s : State) (b : Nat) (f : Bank → Bank) : (s.modBank b f).ticks = s.ticks := (rfl)
@[simp] theorem State.modBank_wheels (s : State) (b : Nat) (f : Bank → Bank) : (s.modBank b f).wheels = s.wheels := (rfl)
@[simp] theorem State.modBank_vr (s : State) (b : Nat) (f : Bank → Bank) : (s.modBank b f).vr = s.vr := (rfl)
@[simp] theorem State.modBank_teeth (s : State) (b : Nat) (f : Bank → Bank) : (s.modBank b f).teeth = s.teeth := (rfl)
@[simp] theorem State.modBank_toothPath (s : State) (b : Nat) (f : Bank → Bank) : (s.modBank b f).toothPath = s.toothPath := (rfl)
@[simp] theorem State.modBank_sheaves (s : State) (b : Nat) (f : Bank → Bank) : (s.modBank b f).sheaves = s.sheaves := (rfl)
@[simp] theorem State.modBank_hly (s : State) (b : Nat) (f : Bank → Bank) : (s.modBank b f).hly = s.hly := (rfl)
@[simp] theorem State.modBank_lgc (s : State) (b : Nat) (f : Bank → Bank) : (s.modBank b f).lgc = s.lgc := (rfl)
@[simp] theorem State.modBank_frs (s : State) (b : Nat) (f : Bank → Bank) : (s.modBank b f).frs = s.frs := (rfl)
@[simp] theorem State.modBank_faults (s : State) (b : Nat) (f : Bank → Bank) : (s.modBank b f).faults = s.faults := (rfl)
@[simp] theorem State.modBank_sendq (s : State) (b : Nat) (f : Bank → Bank) : (s.modBank b f).sendq = s.sendq := (rfl)
@[simp] theorem State.modBank_transit (s : State) (b : Nat) (f : Bank → Bank) : (s.modBank b f).transit = s.transit := (rfl)
@[simp] theorem State.modBank_ep (s : State) (b : Nat) (f : Bank → Bank) : (s.modBank b f).ep = s.ep := (rfl)
@[simp] theorem State.modBank_stay (s : State) (b : Nat) (f : Bank → Bank) : (s.modBank b f).stay = s.stay := (rfl)
@[simp] theorem State.modBank_pwr (s : State) (b : Nat) (f : Bank → Bank) : (s.modBank b f).pwr = s.pwr := (rfl)
@[simp] theorem State.modBank_flash (s : State) (b : Nat) (f : Bank → Bank) : (s.modBank b f).flash = s.flash := (rfl)
@[simp] theorem State.modBank_flashOut (s : State) (b : Nat) (f : Bank → Bank) : (s.modBank b f).flashOut = s.flashOut := (rfl)
@[simp] theorem State.modBank_boot (s : State) (b : Nat) (f : Bank → Bank) : (s.modBank b f).boot = s.boot := (rfl)
@[simp] theorem State.modBank_vault (s : State) (b : Nat) (f : Bank → Bank) : (s.modBank b f).vault = s.vault := (rfl)
@[simp] theorem State.modBank_lan (s : State) (b : Nat) (f : Bank → Bank) : (s.modBank b f).lan = s.lan := (rfl)
@[simp] theorem State.modBank_free (s : State) (b : Nat) (f : Bank → Bank) : (s.modBank b f).free = s.free := (rfl)
@[simp] theorem State.modBank_pending (s : State) (b : Nat) (f : Bank → Bank) : (s.modBank b f).pending = s.pending := (rfl)
@[simp] theorem State.modBank_now (s : State) (b : Nat) (f : Bank → Bank) : (s.modBank b f).now = s.now := (rfl)
@[simp] theorem State.modBank_mc (s : State) (b : Nat) (f : Bank → Bank) : (s.modBank b f).mc = s.mc := (rfl)
@[simp] theorem State.modBank_eng (s : State) (b : Nat) (f : Bank → Bank) (i : Nat) : (s.modBank b f).eng i = s.eng i := (rfl)
@[simp] theorem State.modBank_port (s : State) (b : Nat) (f : Bank → Bank) (i : Nat) : (s.modBank b f).port i = s.port i := (rfl)
@[simp] theorem State.modBank_wheel (s : State) (b : Nat) (f : Bank → Bank) (i : Nat) : (s.modBank b f).wheel i = s.wheel i := (rfl)
@[simp] theorem State.modBank_sheave (s : State) (b : Nat) (f : Bank → Bank) (i : Nat) : (s.modBank b f).sheave i = s.sheave i := (rfl)
@[simp] theorem State.modBank_chan (s : State) (b : Nat) (f : Bank → Bank) (i : Nat) : (s.modBank b f).chan i = s.chan i := (rfl)
@[simp] theorem State.modBank_byte (s : State) (b : Nat) (f : Bank → Bank) (i : Nat) : (s.modBank b f).byte i = s.byte i := (rfl)
@[simp] theorem State.modBank_reg (s : State) (b : Nat) (f : Bank → Bank) (i : Nat) : (s.modBank b f).reg i = s.reg i := (rfl)
@[simp] theorem State.modBank_stg (s : State) (b : Nat) (f : Bank → Bank) (i : Nat) : (s.modBank b f).stg i = s.stg i := (rfl)
@[simp] theorem State.modBank_f (s : State) (b : Nat) (f : Bank → Bank) (H : Fld) : (s.modBank b f).f H = s.f H := (rfl)
@[simp] theorem State.modBank_flag (s : State) (b : Nat) (f : Bank → Bank) (H : Fld) : (s.modBank b f).flag H = s.flag H := (rfl)
@[simp] theorem State.modBank_noted (s : State) (b : Nat) (f : Bank → Bank) (H : Fld) : (s.modBank b f).noted H = s.noted H := (rfl)

@[simp] theorem State.setEng_regs (s : State) (e : Nat) (x : Engine) : (s.setEng e x).regs = s.regs := (rfl)
@[simp] theorem State.setEng_staged (s : State) (e : Nat) (x : Engine) : (s.setEng e x).staged = s.staged := (rfl)
@[simp] theorem State.setEng_hwNow (s : State) (e : Nat) (x : Engine) : (s.setEng e x).hwNow = s.hwNow := (rfl)
@[simp] theorem State.setEng_mem (s : State) (e : Nat) (x : Engine) : (s.setEng e x).mem = s.mem := (rfl)
@[simp] theorem State.setEng_upset (s : State) (e : Nat) (x : Engine) : (s.setEng e x).upset = s.upset := (rfl)
@[simp] theorem State.setEng_banks (s : State) (e : Nat) (x : Engine) : (s.setEng e x).banks = s.banks := (rfl)
@[simp] theorem State.setEng_kln (s : State) (e : Nat) (x : Engine) : (s.setEng e x).kln = s.kln := (rfl)
@[simp] theorem State.setEng_rig (s : State) (e : Nat) (x : Engine) : (s.setEng e x).rig = s.rig := (rfl)
@[simp] theorem State.setEng_ports (s : State) (e : Nat) (x : Engine) : (s.setEng e x).ports = s.ports := (rfl)
@[simp] theorem State.setEng_spare (s : State) (e : Nat) (x : Engine) : (s.setEng e x).spare = s.spare := (rfl)
@[simp] theorem State.setEng_locks (s : State) (e : Nat) (x : Engine) : (s.setEng e x).locks = s.locks := (rfl)
@[simp] theorem State.setEng_lockNow (s : State) (e : Nat) (x : Engine) : (s.setEng e x).lockNow = s.lockNow := (rfl)
@[simp] theorem State.setEng_ticks (s : State) (e : Nat) (x : Engine) : (s.setEng e x).ticks = s.ticks := (rfl)
@[simp] theorem State.setEng_wheels (s : State) (e : Nat) (x : Engine) : (s.setEng e x).wheels = s.wheels := (rfl)
@[simp] theorem State.setEng_vr (s : State) (e : Nat) (x : Engine) : (s.setEng e x).vr = s.vr := (rfl)
@[simp] theorem State.setEng_teeth (s : State) (e : Nat) (x : Engine) : (s.setEng e x).teeth = s.teeth := (rfl)
@[simp] theorem State.setEng_toothPath (s : State) (e : Nat) (x : Engine) : (s.setEng e x).toothPath = s.toothPath := (rfl)
@[simp] theorem State.setEng_sheaves (s : State) (e : Nat) (x : Engine) : (s.setEng e x).sheaves = s.sheaves := (rfl)
@[simp] theorem State.setEng_hly (s : State) (e : Nat) (x : Engine) : (s.setEng e x).hly = s.hly := (rfl)
@[simp] theorem State.setEng_lgc (s : State) (e : Nat) (x : Engine) : (s.setEng e x).lgc = s.lgc := (rfl)
@[simp] theorem State.setEng_frs (s : State) (e : Nat) (x : Engine) : (s.setEng e x).frs = s.frs := (rfl)
@[simp] theorem State.setEng_faults (s : State) (e : Nat) (x : Engine) : (s.setEng e x).faults = s.faults := (rfl)
@[simp] theorem State.setEng_sendq (s : State) (e : Nat) (x : Engine) : (s.setEng e x).sendq = s.sendq := (rfl)
@[simp] theorem State.setEng_transit (s : State) (e : Nat) (x : Engine) : (s.setEng e x).transit = s.transit := (rfl)
@[simp] theorem State.setEng_ep (s : State) (e : Nat) (x : Engine) : (s.setEng e x).ep = s.ep := (rfl)
@[simp] theorem State.setEng_stay (s : State) (e : Nat) (x : Engine) : (s.setEng e x).stay = s.stay := (rfl)
@[simp] theorem State.setEng_pwr (s : State) (e : Nat) (x : Engine) : (s.setEng e x).pwr = s.pwr := (rfl)
@[simp] theorem State.setEng_flash (s : State) (e : Nat) (x : Engine) : (s.setEng e x).flash = s.flash := (rfl)
@[simp] theorem State.setEng_flashOut (s : State) (e : Nat) (x : Engine) : (s.setEng e x).flashOut = s.flashOut := (rfl)
@[simp] theorem State.setEng_boot (s : State) (e : Nat) (x : Engine) : (s.setEng e x).boot = s.boot := (rfl)
@[simp] theorem State.setEng_vault (s : State) (e : Nat) (x : Engine) : (s.setEng e x).vault = s.vault := (rfl)
@[simp] theorem State.setEng_lan (s : State) (e : Nat) (x : Engine) : (s.setEng e x).lan = s.lan := (rfl)
@[simp] theorem State.setEng_free (s : State) (e : Nat) (x : Engine) : (s.setEng e x).free = s.free := (rfl)
@[simp] theorem State.setEng_pending (s : State) (e : Nat) (x : Engine) : (s.setEng e x).pending = s.pending := (rfl)
@[simp] theorem State.setEng_now (s : State) (e : Nat) (x : Engine) : (s.setEng e x).now = s.now := (rfl)
@[simp] theorem State.setEng_mc (s : State) (e : Nat) (x : Engine) : (s.setEng e x).mc = s.mc := (rfl)
@[simp] theorem State.setEng_port (s : State) (e : Nat) (x : Engine) (i : Nat) : (s.setEng e x).port i = s.port i := (rfl)
@[simp] theorem State.setEng_bank (s : State) (e : Nat) (x : Engine) (i : Nat) : (s.setEng e x).bank i = s.bank i := (rfl)
@[simp] theorem State.setEng_wheel (s : State) (e : Nat) (x : Engine) (i : Nat) : (s.setEng e x).wheel i = s.wheel i := (rfl)
@[simp] theorem State.setEng_sheave (s : State) (e : Nat) (x : Engine) (i : Nat) : (s.setEng e x).sheave i = s.sheave i := (rfl)
@[simp] theorem State.setEng_chan (s : State) (e : Nat) (x : Engine) (i : Nat) : (s.setEng e x).chan i = s.chan i := (rfl)
@[simp] theorem State.setEng_byte (s : State) (e : Nat) (x : Engine) (i : Nat) : (s.setEng e x).byte i = s.byte i := (rfl)
@[simp] theorem State.setEng_reg (s : State) (e : Nat) (x : Engine) (i : Nat) : (s.setEng e x).reg i = s.reg i := (rfl)
@[simp] theorem State.setEng_stg (s : State) (e : Nat) (x : Engine) (i : Nat) : (s.setEng e x).stg i = s.stg i := (rfl)
@[simp] theorem State.setEng_f (s : State) (e : Nat) (x : Engine) (H : Fld) : (s.setEng e x).f H = s.f H := (rfl)
@[simp] theorem State.setEng_flag (s : State) (e : Nat) (x : Engine) (H : Fld) : (s.setEng e x).flag H = s.flag H := (rfl)
@[simp] theorem State.setEng_noted (s : State) (e : Nat) (x : Engine) (H : Fld) : (s.setEng e x).noted H = s.noted H := (rfl)

@[simp] theorem State.modEng_regs (s : State) (e : Nat) (f : Engine → Engine) : (s.modEng e f).regs = s.regs := (rfl)
@[simp] theorem State.modEng_staged (s : State) (e : Nat) (f : Engine → Engine) : (s.modEng e f).staged = s.staged := (rfl)
@[simp] theorem State.modEng_hwNow (s : State) (e : Nat) (f : Engine → Engine) : (s.modEng e f).hwNow = s.hwNow := (rfl)
@[simp] theorem State.modEng_mem (s : State) (e : Nat) (f : Engine → Engine) : (s.modEng e f).mem = s.mem := (rfl)
@[simp] theorem State.modEng_upset (s : State) (e : Nat) (f : Engine → Engine) : (s.modEng e f).upset = s.upset := (rfl)
@[simp] theorem State.modEng_banks (s : State) (e : Nat) (f : Engine → Engine) : (s.modEng e f).banks = s.banks := (rfl)
@[simp] theorem State.modEng_kln (s : State) (e : Nat) (f : Engine → Engine) : (s.modEng e f).kln = s.kln := (rfl)
@[simp] theorem State.modEng_rig (s : State) (e : Nat) (f : Engine → Engine) : (s.modEng e f).rig = s.rig := (rfl)
@[simp] theorem State.modEng_ports (s : State) (e : Nat) (f : Engine → Engine) : (s.modEng e f).ports = s.ports := (rfl)
@[simp] theorem State.modEng_spare (s : State) (e : Nat) (f : Engine → Engine) : (s.modEng e f).spare = s.spare := (rfl)
@[simp] theorem State.modEng_locks (s : State) (e : Nat) (f : Engine → Engine) : (s.modEng e f).locks = s.locks := (rfl)
@[simp] theorem State.modEng_lockNow (s : State) (e : Nat) (f : Engine → Engine) : (s.modEng e f).lockNow = s.lockNow := (rfl)
@[simp] theorem State.modEng_ticks (s : State) (e : Nat) (f : Engine → Engine) : (s.modEng e f).ticks = s.ticks := (rfl)
@[simp] theorem State.modEng_wheels (s : State) (e : Nat) (f : Engine → Engine) : (s.modEng e f).wheels = s.wheels := (rfl)
@[simp] theorem State.modEng_vr (s : State) (e : Nat) (f : Engine → Engine) : (s.modEng e f).vr = s.vr := (rfl)
@[simp] theorem State.modEng_teeth (s : State) (e : Nat) (f : Engine → Engine) : (s.modEng e f).teeth = s.teeth := (rfl)
@[simp] theorem State.modEng_toothPath (s : State) (e : Nat) (f : Engine → Engine) : (s.modEng e f).toothPath = s.toothPath := (rfl)
@[simp] theorem State.modEng_sheaves (s : State) (e : Nat) (f : Engine → Engine) : (s.modEng e f).sheaves = s.sheaves := (rfl)
@[simp] theorem State.modEng_hly (s : State) (e : Nat) (f : Engine → Engine) : (s.modEng e f).hly = s.hly := (rfl)
@[simp] theorem State.modEng_lgc (s : State) (e : Nat) (f : Engine → Engine) : (s.modEng e f).lgc = s.lgc := (rfl)
@[simp] theorem State.modEng_frs (s : State) (e : Nat) (f : Engine → Engine) : (s.modEng e f).frs = s.frs := (rfl)
@[simp] theorem State.modEng_faults (s : State) (e : Nat) (f : Engine → Engine) : (s.modEng e f).faults = s.faults := (rfl)
@[simp] theorem State.modEng_sendq (s : State) (e : Nat) (f : Engine → Engine) : (s.modEng e f).sendq = s.sendq := (rfl)
@[simp] theorem State.modEng_transit (s : State) (e : Nat) (f : Engine → Engine) : (s.modEng e f).transit = s.transit := (rfl)
@[simp] theorem State.modEng_ep (s : State) (e : Nat) (f : Engine → Engine) : (s.modEng e f).ep = s.ep := (rfl)
@[simp] theorem State.modEng_stay (s : State) (e : Nat) (f : Engine → Engine) : (s.modEng e f).stay = s.stay := (rfl)
@[simp] theorem State.modEng_pwr (s : State) (e : Nat) (f : Engine → Engine) : (s.modEng e f).pwr = s.pwr := (rfl)
@[simp] theorem State.modEng_flash (s : State) (e : Nat) (f : Engine → Engine) : (s.modEng e f).flash = s.flash := (rfl)
@[simp] theorem State.modEng_flashOut (s : State) (e : Nat) (f : Engine → Engine) : (s.modEng e f).flashOut = s.flashOut := (rfl)
@[simp] theorem State.modEng_boot (s : State) (e : Nat) (f : Engine → Engine) : (s.modEng e f).boot = s.boot := (rfl)
@[simp] theorem State.modEng_vault (s : State) (e : Nat) (f : Engine → Engine) : (s.modEng e f).vault = s.vault := (rfl)
@[simp] theorem State.modEng_lan (s : State) (e : Nat) (f : Engine → Engine) : (s.modEng e f).lan = s.lan := (rfl)
@[simp] theorem State.modEng_free (s : State) (e : Nat) (f : Engine → Engine) : (s.modEng e f).free = s.free := (rfl)
@[simp] theorem State.modEng_pending (s : State) (e : Nat) (f : Engine → Engine) : (s.modEng e f).pending = s.pending := (rfl)
@[simp] theorem State.modEng_now (s : State) (e : Nat) (f : Engine → Engine) : (s.modEng e f).now = s.now := (rfl)
@[simp] theorem State.modEng_mc (s : State) (e : Nat) (f : Engine → Engine) : (s.modEng e f).mc = s.mc := (rfl)
@[simp] theorem State.modEng_port (s : State) (e : Nat) (f : Engine → Engine) (i : Nat) : (s.modEng e f).port i = s.port i := (rfl)
@[simp] theorem State.modEng_bank (s : State) (e : Nat) (f : Engine → Engine) (i : Nat) : (s.modEng e f).bank i = s.bank i := (rfl)
@[simp] theorem State.modEng_wheel (s : State) (e : Nat) (f : Engine → Engine) (i : Nat) : (s.modEng e f).wheel i = s.wheel i := (rfl)
@[simp] theorem State.modEng_sheave (s : State) (e : Nat) (f : Engine → Engine) (i : Nat) : (s.modEng e f).sheave i = s.sheave i := (rfl)
@[simp] theorem State.modEng_chan (s : State) (e : Nat) (f : Engine → Engine) (i : Nat) : (s.modEng e f).chan i = s.chan i := (rfl)
@[simp] theorem State.modEng_byte (s : State) (e : Nat) (f : Engine → Engine) (i : Nat) : (s.modEng e f).byte i = s.byte i := (rfl)
@[simp] theorem State.modEng_reg (s : State) (e : Nat) (f : Engine → Engine) (i : Nat) : (s.modEng e f).reg i = s.reg i := (rfl)
@[simp] theorem State.modEng_stg (s : State) (e : Nat) (f : Engine → Engine) (i : Nat) : (s.modEng e f).stg i = s.stg i := (rfl)
@[simp] theorem State.modEng_f (s : State) (e : Nat) (f : Engine → Engine) (H : Fld) : (s.modEng e f).f H = s.f H := (rfl)
@[simp] theorem State.modEng_flag (s : State) (e : Nat) (f : Engine → Engine) (H : Fld) : (s.modEng e f).flag H = s.flag H := (rfl)
@[simp] theorem State.modEng_noted (s : State) (e : Nat) (f : Engine → Engine) (H : Fld) : (s.modEng e f).noted H = s.noted H := (rfl)

@[simp] theorem State.setWheel_regs (s : State) (w : Nat) (x : Tracker) : (s.setWheel w x).regs = s.regs := (rfl)
@[simp] theorem State.setWheel_staged (s : State) (w : Nat) (x : Tracker) : (s.setWheel w x).staged = s.staged := (rfl)
@[simp] theorem State.setWheel_hwNow (s : State) (w : Nat) (x : Tracker) : (s.setWheel w x).hwNow = s.hwNow := (rfl)
@[simp] theorem State.setWheel_mem (s : State) (w : Nat) (x : Tracker) : (s.setWheel w x).mem = s.mem := (rfl)
@[simp] theorem State.setWheel_upset (s : State) (w : Nat) (x : Tracker) : (s.setWheel w x).upset = s.upset := (rfl)
@[simp] theorem State.setWheel_banks (s : State) (w : Nat) (x : Tracker) : (s.setWheel w x).banks = s.banks := (rfl)
@[simp] theorem State.setWheel_kln (s : State) (w : Nat) (x : Tracker) : (s.setWheel w x).kln = s.kln := (rfl)
@[simp] theorem State.setWheel_rig (s : State) (w : Nat) (x : Tracker) : (s.setWheel w x).rig = s.rig := (rfl)
@[simp] theorem State.setWheel_ports (s : State) (w : Nat) (x : Tracker) : (s.setWheel w x).ports = s.ports := (rfl)
@[simp] theorem State.setWheel_engines (s : State) (w : Nat) (x : Tracker) : (s.setWheel w x).engines = s.engines := (rfl)
@[simp] theorem State.setWheel_spare (s : State) (w : Nat) (x : Tracker) : (s.setWheel w x).spare = s.spare := (rfl)
@[simp] theorem State.setWheel_locks (s : State) (w : Nat) (x : Tracker) : (s.setWheel w x).locks = s.locks := (rfl)
@[simp] theorem State.setWheel_lockNow (s : State) (w : Nat) (x : Tracker) : (s.setWheel w x).lockNow = s.lockNow := (rfl)
@[simp] theorem State.setWheel_ticks (s : State) (w : Nat) (x : Tracker) : (s.setWheel w x).ticks = s.ticks := (rfl)
@[simp] theorem State.setWheel_vr (s : State) (w : Nat) (x : Tracker) : (s.setWheel w x).vr = s.vr := (rfl)
@[simp] theorem State.setWheel_teeth (s : State) (w : Nat) (x : Tracker) : (s.setWheel w x).teeth = s.teeth := (rfl)
@[simp] theorem State.setWheel_toothPath (s : State) (w : Nat) (x : Tracker) : (s.setWheel w x).toothPath = s.toothPath := (rfl)
@[simp] theorem State.setWheel_sheaves (s : State) (w : Nat) (x : Tracker) : (s.setWheel w x).sheaves = s.sheaves := (rfl)
@[simp] theorem State.setWheel_hly (s : State) (w : Nat) (x : Tracker) : (s.setWheel w x).hly = s.hly := (rfl)
@[simp] theorem State.setWheel_lgc (s : State) (w : Nat) (x : Tracker) : (s.setWheel w x).lgc = s.lgc := (rfl)
@[simp] theorem State.setWheel_frs (s : State) (w : Nat) (x : Tracker) : (s.setWheel w x).frs = s.frs := (rfl)
@[simp] theorem State.setWheel_faults (s : State) (w : Nat) (x : Tracker) : (s.setWheel w x).faults = s.faults := (rfl)
@[simp] theorem State.setWheel_sendq (s : State) (w : Nat) (x : Tracker) : (s.setWheel w x).sendq = s.sendq := (rfl)
@[simp] theorem State.setWheel_transit (s : State) (w : Nat) (x : Tracker) : (s.setWheel w x).transit = s.transit := (rfl)
@[simp] theorem State.setWheel_ep (s : State) (w : Nat) (x : Tracker) : (s.setWheel w x).ep = s.ep := (rfl)
@[simp] theorem State.setWheel_stay (s : State) (w : Nat) (x : Tracker) : (s.setWheel w x).stay = s.stay := (rfl)
@[simp] theorem State.setWheel_pwr (s : State) (w : Nat) (x : Tracker) : (s.setWheel w x).pwr = s.pwr := (rfl)
@[simp] theorem State.setWheel_flash (s : State) (w : Nat) (x : Tracker) : (s.setWheel w x).flash = s.flash := (rfl)
@[simp] theorem State.setWheel_flashOut (s : State) (w : Nat) (x : Tracker) : (s.setWheel w x).flashOut = s.flashOut := (rfl)
@[simp] theorem State.setWheel_boot (s : State) (w : Nat) (x : Tracker) : (s.setWheel w x).boot = s.boot := (rfl)
@[simp] theorem State.setWheel_vault (s : State) (w : Nat) (x : Tracker) : (s.setWheel w x).vault = s.vault := (rfl)
@[simp] theorem State.setWheel_lan (s : State) (w : Nat) (x : Tracker) : (s.setWheel w x).lan = s.lan := (rfl)
@[simp] theorem State.setWheel_free (s : State) (w : Nat) (x : Tracker) : (s.setWheel w x).free = s.free := (rfl)
@[simp] theorem State.setWheel_pending (s : State) (w : Nat) (x : Tracker) : (s.setWheel w x).pending = s.pending := (rfl)
@[simp] theorem State.setWheel_now (s : State) (w : Nat) (x : Tracker) : (s.setWheel w x).now = s.now := (rfl)
@[simp] theorem State.setWheel_mc (s : State) (w : Nat) (x : Tracker) : (s.setWheel w x).mc = s.mc := (rfl)
@[simp] theorem State.setWheel_eng (s : State) (w : Nat) (x : Tracker) (i : Nat) : (s.setWheel w x).eng i = s.eng i := (rfl)
@[simp] theorem State.setWheel_port (s : State) (w : Nat) (x : Tracker) (i : Nat) : (s.setWheel w x).port i = s.port i := (rfl)
@[simp] theorem State.setWheel_bank (s : State) (w : Nat) (x : Tracker) (i : Nat) : (s.setWheel w x).bank i = s.bank i := (rfl)
@[simp] theorem State.setWheel_sheave (s : State) (w : Nat) (x : Tracker) (i : Nat) : (s.setWheel w x).sheave i = s.sheave i := (rfl)
@[simp] theorem State.setWheel_chan (s : State) (w : Nat) (x : Tracker) (i : Nat) : (s.setWheel w x).chan i = s.chan i := (rfl)
@[simp] theorem State.setWheel_byte (s : State) (w : Nat) (x : Tracker) (i : Nat) : (s.setWheel w x).byte i = s.byte i := (rfl)
@[simp] theorem State.setWheel_reg (s : State) (w : Nat) (x : Tracker) (i : Nat) : (s.setWheel w x).reg i = s.reg i := (rfl)
@[simp] theorem State.setWheel_stg (s : State) (w : Nat) (x : Tracker) (i : Nat) : (s.setWheel w x).stg i = s.stg i := (rfl)
@[simp] theorem State.setWheel_f (s : State) (w : Nat) (x : Tracker) (H : Fld) : (s.setWheel w x).f H = s.f H := (rfl)
@[simp] theorem State.setWheel_flag (s : State) (w : Nat) (x : Tracker) (H : Fld) : (s.setWheel w x).flag H = s.flag H := (rfl)
@[simp] theorem State.setWheel_noted (s : State) (w : Nat) (x : Tracker) (H : Fld) : (s.setWheel w x).noted H = s.noted H := (rfl)

@[simp] theorem State.modWheel_regs (s : State) (w : Nat) (f : Tracker → Tracker) : (s.modWheel w f).regs = s.regs := (rfl)
@[simp] theorem State.modWheel_staged (s : State) (w : Nat) (f : Tracker → Tracker) : (s.modWheel w f).staged = s.staged := (rfl)
@[simp] theorem State.modWheel_hwNow (s : State) (w : Nat) (f : Tracker → Tracker) : (s.modWheel w f).hwNow = s.hwNow := (rfl)
@[simp] theorem State.modWheel_mem (s : State) (w : Nat) (f : Tracker → Tracker) : (s.modWheel w f).mem = s.mem := (rfl)
@[simp] theorem State.modWheel_upset (s : State) (w : Nat) (f : Tracker → Tracker) : (s.modWheel w f).upset = s.upset := (rfl)
@[simp] theorem State.modWheel_banks (s : State) (w : Nat) (f : Tracker → Tracker) : (s.modWheel w f).banks = s.banks := (rfl)
@[simp] theorem State.modWheel_kln (s : State) (w : Nat) (f : Tracker → Tracker) : (s.modWheel w f).kln = s.kln := (rfl)
@[simp] theorem State.modWheel_rig (s : State) (w : Nat) (f : Tracker → Tracker) : (s.modWheel w f).rig = s.rig := (rfl)
@[simp] theorem State.modWheel_ports (s : State) (w : Nat) (f : Tracker → Tracker) : (s.modWheel w f).ports = s.ports := (rfl)
@[simp] theorem State.modWheel_engines (s : State) (w : Nat) (f : Tracker → Tracker) : (s.modWheel w f).engines = s.engines := (rfl)
@[simp] theorem State.modWheel_spare (s : State) (w : Nat) (f : Tracker → Tracker) : (s.modWheel w f).spare = s.spare := (rfl)
@[simp] theorem State.modWheel_locks (s : State) (w : Nat) (f : Tracker → Tracker) : (s.modWheel w f).locks = s.locks := (rfl)
@[simp] theorem State.modWheel_lockNow (s : State) (w : Nat) (f : Tracker → Tracker) : (s.modWheel w f).lockNow = s.lockNow := (rfl)
@[simp] theorem State.modWheel_ticks (s : State) (w : Nat) (f : Tracker → Tracker) : (s.modWheel w f).ticks = s.ticks := (rfl)
@[simp] theorem State.modWheel_vr (s : State) (w : Nat) (f : Tracker → Tracker) : (s.modWheel w f).vr = s.vr := (rfl)
@[simp] theorem State.modWheel_teeth (s : State) (w : Nat) (f : Tracker → Tracker) : (s.modWheel w f).teeth = s.teeth := (rfl)
@[simp] theorem State.modWheel_toothPath (s : State) (w : Nat) (f : Tracker → Tracker) : (s.modWheel w f).toothPath = s.toothPath := (rfl)
@[simp] theorem State.modWheel_sheaves (s : State) (w : Nat) (f : Tracker → Tracker) : (s.modWheel w f).sheaves = s.sheaves := (rfl)
@[simp] theorem State.modWheel_hly (s : State) (w : Nat) (f : Tracker → Tracker) : (s.modWheel w f).hly = s.hly := (rfl)
@[simp] theorem State.modWheel_lgc (s : State) (w : Nat) (f : Tracker → Tracker) : (s.modWheel w f).lgc = s.lgc := (rfl)
@[simp] theorem State.modWheel_frs (s : State) (w : Nat) (f : Tracker → Tracker) : (s.modWheel w f).frs = s.frs := (rfl)
@[simp] theorem State.modWheel_faults (s : State) (w : Nat) (f : Tracker → Tracker) : (s.modWheel w f).faults = s.faults := (rfl)
@[simp] theorem State.modWheel_sendq (s : State) (w : Nat) (f : Tracker → Tracker) : (s.modWheel w f).sendq = s.sendq := (rfl)
@[simp] theorem State.modWheel_transit (s : State) (w : Nat) (f : Tracker → Tracker) : (s.modWheel w f).transit = s.transit := (rfl)
@[simp] theorem State.modWheel_ep (s : State) (w : Nat) (f : Tracker → Tracker) : (s.modWheel w f).ep = s.ep := (rfl)
@[simp] theorem State.modWheel_stay (s : State) (w : Nat) (f : Tracker → Tracker) : (s.modWheel w f).stay = s.stay := (rfl)
@[simp] theorem State.modWheel_pwr (s : State) (w : Nat) (f : Tracker → Tracker) : (s.modWheel w f).pwr = s.pwr := (rfl)
@[simp] theorem State.modWheel_flash (s : State) (w : Nat) (f : Tracker → Tracker) : (s.modWheel w f).flash = s.flash := (rfl)
@[simp] theorem State.modWheel_flashOut (s : State) (w : Nat) (f : Tracker → Tracker) : (s.modWheel w f).flashOut = s.flashOut := (rfl)
@[simp] theorem State.modWheel_boot (s : State) (w : Nat) (f : Tracker → Tracker) : (s.modWheel w f).boot = s.boot := (rfl)
@[simp] theorem State.modWheel_vault (s : State) (w : Nat) (f : Tracker → Tracker) : (s.modWheel w f).vault = s.vault := (rfl)
@[simp] theorem State.modWheel_lan (s : State) (w : Nat) (f : Tracker → Tracker) : (s.modWheel w f).lan = s.lan := (rfl)
@[simp] theorem State.modWheel_free (s : State) (w : Nat) (f : Tracker → Tracker) : (s.modWheel w f).free = s.free := (rfl)
@[simp] theorem State.modWheel_pending (s : State) (w : Nat) (f : Tracker → Tracker) : (s.modWheel w f).pending = s.pending := (rfl)
@[simp] theorem State.modWheel_now (s : State) (w : Nat) (f : Tracker → Tracker) : (s.modWheel w f).now = s.now := (rfl)
@[simp] theorem State.modWheel_mc (s : State) (w : Nat) (f : Tracker → Tracker) : (s.modWheel w f).mc = s.mc := (rfl)
@[simp] theorem State.modWheel_eng (s : State) (w : Nat) (f : Tracker → Tracker) (i : Nat) : (s.modWheel w f).eng i = s.eng i := (rfl)
@[simp] theorem State.modWheel_port (s : State) (w : Nat) (f : Tracker → Tracker) (i : Nat) : (s.modWheel w f).port i = s.port i := (rfl)
@[simp] theorem State.modWheel_bank (s : State) (w : Nat) (f : Tracker → Tracker) (i : Nat) : (s.modWheel w f).bank i = s.bank i := (rfl)
@[simp] theorem State.modWheel_sheave (s : State) (w : Nat) (f : Tracker → Tracker) (i : Nat) : (s.modWheel w f).sheave i = s.sheave i := (rfl)
@[simp] theorem State.modWheel_chan (s : State) (w : Nat) (f : Tracker → Tracker) (i : Nat) : (s.modWheel w f).chan i = s.chan i := (rfl)
@[simp] theorem State.modWheel_byte (s : State) (w : Nat) (f : Tracker → Tracker) (i : Nat) : (s.modWheel w f).byte i = s.byte i := (rfl)
@[simp] theorem State.modWheel_reg (s : State) (w : Nat) (f : Tracker → Tracker) (i : Nat) : (s.modWheel w f).reg i = s.reg i := (rfl)
@[simp] theorem State.modWheel_stg (s : State) (w : Nat) (f : Tracker → Tracker) (i : Nat) : (s.modWheel w f).stg i = s.stg i := (rfl)
@[simp] theorem State.modWheel_f (s : State) (w : Nat) (f : Tracker → Tracker) (H : Fld) : (s.modWheel w f).f H = s.f H := (rfl)
@[simp] theorem State.modWheel_flag (s : State) (w : Nat) (f : Tracker → Tracker) (H : Fld) : (s.modWheel w f).flag H = s.flag H := (rfl)
@[simp] theorem State.modWheel_noted (s : State) (w : Nat) (f : Tracker → Tracker) (H : Fld) : (s.modWheel w f).noted H = s.noted H := (rfl)

@[simp] theorem State.setVr_regs (s : State) (p : Nat) (x : VrFront) : (s.setVr p x).regs = s.regs := (rfl)
@[simp] theorem State.setVr_staged (s : State) (p : Nat) (x : VrFront) : (s.setVr p x).staged = s.staged := (rfl)
@[simp] theorem State.setVr_hwNow (s : State) (p : Nat) (x : VrFront) : (s.setVr p x).hwNow = s.hwNow := (rfl)
@[simp] theorem State.setVr_mem (s : State) (p : Nat) (x : VrFront) : (s.setVr p x).mem = s.mem := (rfl)
@[simp] theorem State.setVr_upset (s : State) (p : Nat) (x : VrFront) : (s.setVr p x).upset = s.upset := (rfl)
@[simp] theorem State.setVr_banks (s : State) (p : Nat) (x : VrFront) : (s.setVr p x).banks = s.banks := (rfl)
@[simp] theorem State.setVr_kln (s : State) (p : Nat) (x : VrFront) : (s.setVr p x).kln = s.kln := (rfl)
@[simp] theorem State.setVr_rig (s : State) (p : Nat) (x : VrFront) : (s.setVr p x).rig = s.rig := (rfl)
@[simp] theorem State.setVr_ports (s : State) (p : Nat) (x : VrFront) : (s.setVr p x).ports = s.ports := (rfl)
@[simp] theorem State.setVr_engines (s : State) (p : Nat) (x : VrFront) : (s.setVr p x).engines = s.engines := (rfl)
@[simp] theorem State.setVr_spare (s : State) (p : Nat) (x : VrFront) : (s.setVr p x).spare = s.spare := (rfl)
@[simp] theorem State.setVr_locks (s : State) (p : Nat) (x : VrFront) : (s.setVr p x).locks = s.locks := (rfl)
@[simp] theorem State.setVr_lockNow (s : State) (p : Nat) (x : VrFront) : (s.setVr p x).lockNow = s.lockNow := (rfl)
@[simp] theorem State.setVr_ticks (s : State) (p : Nat) (x : VrFront) : (s.setVr p x).ticks = s.ticks := (rfl)
@[simp] theorem State.setVr_wheels (s : State) (p : Nat) (x : VrFront) : (s.setVr p x).wheels = s.wheels := (rfl)
@[simp] theorem State.setVr_teeth (s : State) (p : Nat) (x : VrFront) : (s.setVr p x).teeth = s.teeth := (rfl)
@[simp] theorem State.setVr_toothPath (s : State) (p : Nat) (x : VrFront) : (s.setVr p x).toothPath = s.toothPath := (rfl)
@[simp] theorem State.setVr_sheaves (s : State) (p : Nat) (x : VrFront) : (s.setVr p x).sheaves = s.sheaves := (rfl)
@[simp] theorem State.setVr_hly (s : State) (p : Nat) (x : VrFront) : (s.setVr p x).hly = s.hly := (rfl)
@[simp] theorem State.setVr_lgc (s : State) (p : Nat) (x : VrFront) : (s.setVr p x).lgc = s.lgc := (rfl)
@[simp] theorem State.setVr_frs (s : State) (p : Nat) (x : VrFront) : (s.setVr p x).frs = s.frs := (rfl)
@[simp] theorem State.setVr_faults (s : State) (p : Nat) (x : VrFront) : (s.setVr p x).faults = s.faults := (rfl)
@[simp] theorem State.setVr_sendq (s : State) (p : Nat) (x : VrFront) : (s.setVr p x).sendq = s.sendq := (rfl)
@[simp] theorem State.setVr_transit (s : State) (p : Nat) (x : VrFront) : (s.setVr p x).transit = s.transit := (rfl)
@[simp] theorem State.setVr_ep (s : State) (p : Nat) (x : VrFront) : (s.setVr p x).ep = s.ep := (rfl)
@[simp] theorem State.setVr_stay (s : State) (p : Nat) (x : VrFront) : (s.setVr p x).stay = s.stay := (rfl)
@[simp] theorem State.setVr_pwr (s : State) (p : Nat) (x : VrFront) : (s.setVr p x).pwr = s.pwr := (rfl)
@[simp] theorem State.setVr_flash (s : State) (p : Nat) (x : VrFront) : (s.setVr p x).flash = s.flash := (rfl)
@[simp] theorem State.setVr_flashOut (s : State) (p : Nat) (x : VrFront) : (s.setVr p x).flashOut = s.flashOut := (rfl)
@[simp] theorem State.setVr_boot (s : State) (p : Nat) (x : VrFront) : (s.setVr p x).boot = s.boot := (rfl)
@[simp] theorem State.setVr_vault (s : State) (p : Nat) (x : VrFront) : (s.setVr p x).vault = s.vault := (rfl)
@[simp] theorem State.setVr_lan (s : State) (p : Nat) (x : VrFront) : (s.setVr p x).lan = s.lan := (rfl)
@[simp] theorem State.setVr_free (s : State) (p : Nat) (x : VrFront) : (s.setVr p x).free = s.free := (rfl)
@[simp] theorem State.setVr_pending (s : State) (p : Nat) (x : VrFront) : (s.setVr p x).pending = s.pending := (rfl)
@[simp] theorem State.setVr_now (s : State) (p : Nat) (x : VrFront) : (s.setVr p x).now = s.now := (rfl)
@[simp] theorem State.setVr_mc (s : State) (p : Nat) (x : VrFront) : (s.setVr p x).mc = s.mc := (rfl)
@[simp] theorem State.setVr_eng (s : State) (p : Nat) (x : VrFront) (i : Nat) : (s.setVr p x).eng i = s.eng i := (rfl)
@[simp] theorem State.setVr_port (s : State) (p : Nat) (x : VrFront) (i : Nat) : (s.setVr p x).port i = s.port i := (rfl)
@[simp] theorem State.setVr_bank (s : State) (p : Nat) (x : VrFront) (i : Nat) : (s.setVr p x).bank i = s.bank i := (rfl)
@[simp] theorem State.setVr_wheel (s : State) (p : Nat) (x : VrFront) (i : Nat) : (s.setVr p x).wheel i = s.wheel i := (rfl)
@[simp] theorem State.setVr_sheave (s : State) (p : Nat) (x : VrFront) (i : Nat) : (s.setVr p x).sheave i = s.sheave i := (rfl)
@[simp] theorem State.setVr_chan (s : State) (p : Nat) (x : VrFront) (i : Nat) : (s.setVr p x).chan i = s.chan i := (rfl)
@[simp] theorem State.setVr_byte (s : State) (p : Nat) (x : VrFront) (i : Nat) : (s.setVr p x).byte i = s.byte i := (rfl)
@[simp] theorem State.setVr_reg (s : State) (p : Nat) (x : VrFront) (i : Nat) : (s.setVr p x).reg i = s.reg i := (rfl)
@[simp] theorem State.setVr_stg (s : State) (p : Nat) (x : VrFront) (i : Nat) : (s.setVr p x).stg i = s.stg i := (rfl)
@[simp] theorem State.setVr_f (s : State) (p : Nat) (x : VrFront) (H : Fld) : (s.setVr p x).f H = s.f H := (rfl)
@[simp] theorem State.setVr_flag (s : State) (p : Nat) (x : VrFront) (H : Fld) : (s.setVr p x).flag H = s.flag H := (rfl)
@[simp] theorem State.setVr_noted (s : State) (p : Nat) (x : VrFront) (H : Fld) : (s.setVr p x).noted H = s.noted H := (rfl)

@[simp] theorem State.setSheave_regs (s : State) (u : Nat) (x : Sheave) : (s.setSheave u x).regs = s.regs := (rfl)
@[simp] theorem State.setSheave_staged (s : State) (u : Nat) (x : Sheave) : (s.setSheave u x).staged = s.staged := (rfl)
@[simp] theorem State.setSheave_hwNow (s : State) (u : Nat) (x : Sheave) : (s.setSheave u x).hwNow = s.hwNow := (rfl)
@[simp] theorem State.setSheave_mem (s : State) (u : Nat) (x : Sheave) : (s.setSheave u x).mem = s.mem := (rfl)
@[simp] theorem State.setSheave_upset (s : State) (u : Nat) (x : Sheave) : (s.setSheave u x).upset = s.upset := (rfl)
@[simp] theorem State.setSheave_banks (s : State) (u : Nat) (x : Sheave) : (s.setSheave u x).banks = s.banks := (rfl)
@[simp] theorem State.setSheave_kln (s : State) (u : Nat) (x : Sheave) : (s.setSheave u x).kln = s.kln := (rfl)
@[simp] theorem State.setSheave_rig (s : State) (u : Nat) (x : Sheave) : (s.setSheave u x).rig = s.rig := (rfl)
@[simp] theorem State.setSheave_ports (s : State) (u : Nat) (x : Sheave) : (s.setSheave u x).ports = s.ports := (rfl)
@[simp] theorem State.setSheave_engines (s : State) (u : Nat) (x : Sheave) : (s.setSheave u x).engines = s.engines := (rfl)
@[simp] theorem State.setSheave_spare (s : State) (u : Nat) (x : Sheave) : (s.setSheave u x).spare = s.spare := (rfl)
@[simp] theorem State.setSheave_locks (s : State) (u : Nat) (x : Sheave) : (s.setSheave u x).locks = s.locks := (rfl)
@[simp] theorem State.setSheave_lockNow (s : State) (u : Nat) (x : Sheave) : (s.setSheave u x).lockNow = s.lockNow := (rfl)
@[simp] theorem State.setSheave_ticks (s : State) (u : Nat) (x : Sheave) : (s.setSheave u x).ticks = s.ticks := (rfl)
@[simp] theorem State.setSheave_wheels (s : State) (u : Nat) (x : Sheave) : (s.setSheave u x).wheels = s.wheels := (rfl)
@[simp] theorem State.setSheave_vr (s : State) (u : Nat) (x : Sheave) : (s.setSheave u x).vr = s.vr := (rfl)
@[simp] theorem State.setSheave_teeth (s : State) (u : Nat) (x : Sheave) : (s.setSheave u x).teeth = s.teeth := (rfl)
@[simp] theorem State.setSheave_toothPath (s : State) (u : Nat) (x : Sheave) : (s.setSheave u x).toothPath = s.toothPath := (rfl)
@[simp] theorem State.setSheave_hly (s : State) (u : Nat) (x : Sheave) : (s.setSheave u x).hly = s.hly := (rfl)
@[simp] theorem State.setSheave_lgc (s : State) (u : Nat) (x : Sheave) : (s.setSheave u x).lgc = s.lgc := (rfl)
@[simp] theorem State.setSheave_frs (s : State) (u : Nat) (x : Sheave) : (s.setSheave u x).frs = s.frs := (rfl)
@[simp] theorem State.setSheave_faults (s : State) (u : Nat) (x : Sheave) : (s.setSheave u x).faults = s.faults := (rfl)
@[simp] theorem State.setSheave_sendq (s : State) (u : Nat) (x : Sheave) : (s.setSheave u x).sendq = s.sendq := (rfl)
@[simp] theorem State.setSheave_transit (s : State) (u : Nat) (x : Sheave) : (s.setSheave u x).transit = s.transit := (rfl)
@[simp] theorem State.setSheave_ep (s : State) (u : Nat) (x : Sheave) : (s.setSheave u x).ep = s.ep := (rfl)
@[simp] theorem State.setSheave_stay (s : State) (u : Nat) (x : Sheave) : (s.setSheave u x).stay = s.stay := (rfl)
@[simp] theorem State.setSheave_pwr (s : State) (u : Nat) (x : Sheave) : (s.setSheave u x).pwr = s.pwr := (rfl)
@[simp] theorem State.setSheave_flash (s : State) (u : Nat) (x : Sheave) : (s.setSheave u x).flash = s.flash := (rfl)
@[simp] theorem State.setSheave_flashOut (s : State) (u : Nat) (x : Sheave) : (s.setSheave u x).flashOut = s.flashOut := (rfl)
@[simp] theorem State.setSheave_boot (s : State) (u : Nat) (x : Sheave) : (s.setSheave u x).boot = s.boot := (rfl)
@[simp] theorem State.setSheave_vault (s : State) (u : Nat) (x : Sheave) : (s.setSheave u x).vault = s.vault := (rfl)
@[simp] theorem State.setSheave_lan (s : State) (u : Nat) (x : Sheave) : (s.setSheave u x).lan = s.lan := (rfl)
@[simp] theorem State.setSheave_free (s : State) (u : Nat) (x : Sheave) : (s.setSheave u x).free = s.free := (rfl)
@[simp] theorem State.setSheave_pending (s : State) (u : Nat) (x : Sheave) : (s.setSheave u x).pending = s.pending := (rfl)
@[simp] theorem State.setSheave_now (s : State) (u : Nat) (x : Sheave) : (s.setSheave u x).now = s.now := (rfl)
@[simp] theorem State.setSheave_mc (s : State) (u : Nat) (x : Sheave) : (s.setSheave u x).mc = s.mc := (rfl)
@[simp] theorem State.setSheave_eng (s : State) (u : Nat) (x : Sheave) (i : Nat) : (s.setSheave u x).eng i = s.eng i := (rfl)
@[simp] theorem State.setSheave_port (s : State) (u : Nat) (x : Sheave) (i : Nat) : (s.setSheave u x).port i = s.port i := (rfl)
@[simp] theorem State.setSheave_bank (s : State) (u : Nat) (x : Sheave) (i : Nat) : (s.setSheave u x).bank i = s.bank i := (rfl)
@[simp] theorem State.setSheave_wheel (s : State) (u : Nat) (x : Sheave) (i : Nat) : (s.setSheave u x).wheel i = s.wheel i := (rfl)
@[simp] theorem State.setSheave_chan (s : State) (u : Nat) (x : Sheave) (i : Nat) : (s.setSheave u x).chan i = s.chan i := (rfl)
@[simp] theorem State.setSheave_byte (s : State) (u : Nat) (x : Sheave) (i : Nat) : (s.setSheave u x).byte i = s.byte i := (rfl)
@[simp] theorem State.setSheave_reg (s : State) (u : Nat) (x : Sheave) (i : Nat) : (s.setSheave u x).reg i = s.reg i := (rfl)
@[simp] theorem State.setSheave_stg (s : State) (u : Nat) (x : Sheave) (i : Nat) : (s.setSheave u x).stg i = s.stg i := (rfl)
@[simp] theorem State.setSheave_f (s : State) (u : Nat) (x : Sheave) (H : Fld) : (s.setSheave u x).f H = s.f H := (rfl)
@[simp] theorem State.setSheave_flag (s : State) (u : Nat) (x : Sheave) (H : Fld) : (s.setSheave u x).flag H = s.flag H := (rfl)
@[simp] theorem State.setSheave_noted (s : State) (u : Nat) (x : Sheave) (H : Fld) : (s.setSheave u x).noted H = s.noted H := (rfl)

@[simp] theorem State.modSheave_regs (s : State) (u : Nat) (f : Sheave → Sheave) : (s.modSheave u f).regs = s.regs := (rfl)
@[simp] theorem State.modSheave_staged (s : State) (u : Nat) (f : Sheave → Sheave) : (s.modSheave u f).staged = s.staged := (rfl)
@[simp] theorem State.modSheave_hwNow (s : State) (u : Nat) (f : Sheave → Sheave) : (s.modSheave u f).hwNow = s.hwNow := (rfl)
@[simp] theorem State.modSheave_mem (s : State) (u : Nat) (f : Sheave → Sheave) : (s.modSheave u f).mem = s.mem := (rfl)
@[simp] theorem State.modSheave_upset (s : State) (u : Nat) (f : Sheave → Sheave) : (s.modSheave u f).upset = s.upset := (rfl)
@[simp] theorem State.modSheave_banks (s : State) (u : Nat) (f : Sheave → Sheave) : (s.modSheave u f).banks = s.banks := (rfl)
@[simp] theorem State.modSheave_kln (s : State) (u : Nat) (f : Sheave → Sheave) : (s.modSheave u f).kln = s.kln := (rfl)
@[simp] theorem State.modSheave_rig (s : State) (u : Nat) (f : Sheave → Sheave) : (s.modSheave u f).rig = s.rig := (rfl)
@[simp] theorem State.modSheave_ports (s : State) (u : Nat) (f : Sheave → Sheave) : (s.modSheave u f).ports = s.ports := (rfl)
@[simp] theorem State.modSheave_engines (s : State) (u : Nat) (f : Sheave → Sheave) : (s.modSheave u f).engines = s.engines := (rfl)
@[simp] theorem State.modSheave_spare (s : State) (u : Nat) (f : Sheave → Sheave) : (s.modSheave u f).spare = s.spare := (rfl)
@[simp] theorem State.modSheave_locks (s : State) (u : Nat) (f : Sheave → Sheave) : (s.modSheave u f).locks = s.locks := (rfl)
@[simp] theorem State.modSheave_lockNow (s : State) (u : Nat) (f : Sheave → Sheave) : (s.modSheave u f).lockNow = s.lockNow := (rfl)
@[simp] theorem State.modSheave_ticks (s : State) (u : Nat) (f : Sheave → Sheave) : (s.modSheave u f).ticks = s.ticks := (rfl)
@[simp] theorem State.modSheave_wheels (s : State) (u : Nat) (f : Sheave → Sheave) : (s.modSheave u f).wheels = s.wheels := (rfl)
@[simp] theorem State.modSheave_vr (s : State) (u : Nat) (f : Sheave → Sheave) : (s.modSheave u f).vr = s.vr := (rfl)
@[simp] theorem State.modSheave_teeth (s : State) (u : Nat) (f : Sheave → Sheave) : (s.modSheave u f).teeth = s.teeth := (rfl)
@[simp] theorem State.modSheave_toothPath (s : State) (u : Nat) (f : Sheave → Sheave) : (s.modSheave u f).toothPath = s.toothPath := (rfl)
@[simp] theorem State.modSheave_hly (s : State) (u : Nat) (f : Sheave → Sheave) : (s.modSheave u f).hly = s.hly := (rfl)
@[simp] theorem State.modSheave_lgc (s : State) (u : Nat) (f : Sheave → Sheave) : (s.modSheave u f).lgc = s.lgc := (rfl)
@[simp] theorem State.modSheave_frs (s : State) (u : Nat) (f : Sheave → Sheave) : (s.modSheave u f).frs = s.frs := (rfl)
@[simp] theorem State.modSheave_faults (s : State) (u : Nat) (f : Sheave → Sheave) : (s.modSheave u f).faults = s.faults := (rfl)
@[simp] theorem State.modSheave_sendq (s : State) (u : Nat) (f : Sheave → Sheave) : (s.modSheave u f).sendq = s.sendq := (rfl)
@[simp] theorem State.modSheave_transit (s : State) (u : Nat) (f : Sheave → Sheave) : (s.modSheave u f).transit = s.transit := (rfl)
@[simp] theorem State.modSheave_ep (s : State) (u : Nat) (f : Sheave → Sheave) : (s.modSheave u f).ep = s.ep := (rfl)
@[simp] theorem State.modSheave_stay (s : State) (u : Nat) (f : Sheave → Sheave) : (s.modSheave u f).stay = s.stay := (rfl)
@[simp] theorem State.modSheave_pwr (s : State) (u : Nat) (f : Sheave → Sheave) : (s.modSheave u f).pwr = s.pwr := (rfl)
@[simp] theorem State.modSheave_flash (s : State) (u : Nat) (f : Sheave → Sheave) : (s.modSheave u f).flash = s.flash := (rfl)
@[simp] theorem State.modSheave_flashOut (s : State) (u : Nat) (f : Sheave → Sheave) : (s.modSheave u f).flashOut = s.flashOut := (rfl)
@[simp] theorem State.modSheave_boot (s : State) (u : Nat) (f : Sheave → Sheave) : (s.modSheave u f).boot = s.boot := (rfl)
@[simp] theorem State.modSheave_vault (s : State) (u : Nat) (f : Sheave → Sheave) : (s.modSheave u f).vault = s.vault := (rfl)
@[simp] theorem State.modSheave_lan (s : State) (u : Nat) (f : Sheave → Sheave) : (s.modSheave u f).lan = s.lan := (rfl)
@[simp] theorem State.modSheave_free (s : State) (u : Nat) (f : Sheave → Sheave) : (s.modSheave u f).free = s.free := (rfl)
@[simp] theorem State.modSheave_pending (s : State) (u : Nat) (f : Sheave → Sheave) : (s.modSheave u f).pending = s.pending := (rfl)
@[simp] theorem State.modSheave_now (s : State) (u : Nat) (f : Sheave → Sheave) : (s.modSheave u f).now = s.now := (rfl)
@[simp] theorem State.modSheave_mc (s : State) (u : Nat) (f : Sheave → Sheave) : (s.modSheave u f).mc = s.mc := (rfl)
@[simp] theorem State.modSheave_eng (s : State) (u : Nat) (f : Sheave → Sheave) (i : Nat) : (s.modSheave u f).eng i = s.eng i := (rfl)
@[simp] theorem State.modSheave_port (s : State) (u : Nat) (f : Sheave → Sheave) (i : Nat) : (s.modSheave u f).port i = s.port i := (rfl)
@[simp] theorem State.modSheave_bank (s : State) (u : Nat) (f : Sheave → Sheave) (i : Nat) : (s.modSheave u f).bank i = s.bank i := (rfl)
@[simp] theorem State.modSheave_wheel (s : State) (u : Nat) (f : Sheave → Sheave) (i : Nat) : (s.modSheave u f).wheel i = s.wheel i := (rfl)
@[simp] theorem State.modSheave_chan (s : State) (u : Nat) (f : Sheave → Sheave) (i : Nat) : (s.modSheave u f).chan i = s.chan i := (rfl)
@[simp] theorem State.modSheave_byte (s : State) (u : Nat) (f : Sheave → Sheave) (i : Nat) : (s.modSheave u f).byte i = s.byte i := (rfl)
@[simp] theorem State.modSheave_reg (s : State) (u : Nat) (f : Sheave → Sheave) (i : Nat) : (s.modSheave u f).reg i = s.reg i := (rfl)
@[simp] theorem State.modSheave_stg (s : State) (u : Nat) (f : Sheave → Sheave) (i : Nat) : (s.modSheave u f).stg i = s.stg i := (rfl)
@[simp] theorem State.modSheave_f (s : State) (u : Nat) (f : Sheave → Sheave) (H : Fld) : (s.modSheave u f).f H = s.f H := (rfl)
@[simp] theorem State.modSheave_flag (s : State) (u : Nat) (f : Sheave → Sheave) (H : Fld) : (s.modSheave u f).flag H = s.flag H := (rfl)
@[simp] theorem State.modSheave_noted (s : State) (u : Nat) (f : Sheave → Sheave) (H : Fld) : (s.modSheave u f).noted H = s.noted H := (rfl)

@[simp] theorem State.setChan_regs (s : State) (c : Nat) (x : Chan) : (s.setChan c x).regs = s.regs := (rfl)
@[simp] theorem State.setChan_staged (s : State) (c : Nat) (x : Chan) : (s.setChan c x).staged = s.staged := (rfl)
@[simp] theorem State.setChan_hwNow (s : State) (c : Nat) (x : Chan) : (s.setChan c x).hwNow = s.hwNow := (rfl)
@[simp] theorem State.setChan_mem (s : State) (c : Nat) (x : Chan) : (s.setChan c x).mem = s.mem := (rfl)
@[simp] theorem State.setChan_upset (s : State) (c : Nat) (x : Chan) : (s.setChan c x).upset = s.upset := (rfl)
@[simp] theorem State.setChan_banks (s : State) (c : Nat) (x : Chan) : (s.setChan c x).banks = s.banks := (rfl)
@[simp] theorem State.setChan_kln (s : State) (c : Nat) (x : Chan) : (s.setChan c x).kln = s.kln := (rfl)
@[simp] theorem State.setChan_rig (s : State) (c : Nat) (x : Chan) : (s.setChan c x).rig = s.rig := (rfl)
@[simp] theorem State.setChan_ports (s : State) (c : Nat) (x : Chan) : (s.setChan c x).ports = s.ports := (rfl)
@[simp] theorem State.setChan_engines (s : State) (c : Nat) (x : Chan) : (s.setChan c x).engines = s.engines := (rfl)
@[simp] theorem State.setChan_spare (s : State) (c : Nat) (x : Chan) : (s.setChan c x).spare = s.spare := (rfl)
@[simp] theorem State.setChan_locks (s : State) (c : Nat) (x : Chan) : (s.setChan c x).locks = s.locks := (rfl)
@[simp] theorem State.setChan_lockNow (s : State) (c : Nat) (x : Chan) : (s.setChan c x).lockNow = s.lockNow := (rfl)
@[simp] theorem State.setChan_ticks (s : State) (c : Nat) (x : Chan) : (s.setChan c x).ticks = s.ticks := (rfl)
@[simp] theorem State.setChan_wheels (s : State) (c : Nat) (x : Chan) : (s.setChan c x).wheels = s.wheels := (rfl)
@[simp] theorem State.setChan_vr (s : State) (c : Nat) (x : Chan) : (s.setChan c x).vr = s.vr := (rfl)
@[simp] theorem State.setChan_teeth (s : State) (c : Nat) (x : Chan) : (s.setChan c x).teeth = s.teeth := (rfl)
@[simp] theorem State.setChan_toothPath (s : State) (c : Nat) (x : Chan) : (s.setChan c x).toothPath = s.toothPath := (rfl)
@[simp] theorem State.setChan_sheaves (s : State) (c : Nat) (x : Chan) : (s.setChan c x).sheaves = s.sheaves := (rfl)
@[simp] theorem State.setChan_lgc (s : State) (c : Nat) (x : Chan) : (s.setChan c x).lgc = s.lgc := (rfl)
@[simp] theorem State.setChan_frs (s : State) (c : Nat) (x : Chan) : (s.setChan c x).frs = s.frs := (rfl)
@[simp] theorem State.setChan_faults (s : State) (c : Nat) (x : Chan) : (s.setChan c x).faults = s.faults := (rfl)
@[simp] theorem State.setChan_sendq (s : State) (c : Nat) (x : Chan) : (s.setChan c x).sendq = s.sendq := (rfl)
@[simp] theorem State.setChan_transit (s : State) (c : Nat) (x : Chan) : (s.setChan c x).transit = s.transit := (rfl)
@[simp] theorem State.setChan_ep (s : State) (c : Nat) (x : Chan) : (s.setChan c x).ep = s.ep := (rfl)
@[simp] theorem State.setChan_stay (s : State) (c : Nat) (x : Chan) : (s.setChan c x).stay = s.stay := (rfl)
@[simp] theorem State.setChan_pwr (s : State) (c : Nat) (x : Chan) : (s.setChan c x).pwr = s.pwr := (rfl)
@[simp] theorem State.setChan_flash (s : State) (c : Nat) (x : Chan) : (s.setChan c x).flash = s.flash := (rfl)
@[simp] theorem State.setChan_flashOut (s : State) (c : Nat) (x : Chan) : (s.setChan c x).flashOut = s.flashOut := (rfl)
@[simp] theorem State.setChan_boot (s : State) (c : Nat) (x : Chan) : (s.setChan c x).boot = s.boot := (rfl)
@[simp] theorem State.setChan_vault (s : State) (c : Nat) (x : Chan) : (s.setChan c x).vault = s.vault := (rfl)
@[simp] theorem State.setChan_lan (s : State) (c : Nat) (x : Chan) : (s.setChan c x).lan = s.lan := (rfl)
@[simp] theorem State.setChan_free (s : State) (c : Nat) (x : Chan) : (s.setChan c x).free = s.free := (rfl)
@[simp] theorem State.setChan_pending (s : State) (c : Nat) (x : Chan) : (s.setChan c x).pending = s.pending := (rfl)
@[simp] theorem State.setChan_now (s : State) (c : Nat) (x : Chan) : (s.setChan c x).now = s.now := (rfl)
@[simp] theorem State.setChan_mc (s : State) (c : Nat) (x : Chan) : (s.setChan c x).mc = s.mc := (rfl)
@[simp] theorem State.setChan_eng (s : State) (c : Nat) (x : Chan) (i : Nat) : (s.setChan c x).eng i = s.eng i := (rfl)
@[simp] theorem State.setChan_port (s : State) (c : Nat) (x : Chan) (i : Nat) : (s.setChan c x).port i = s.port i := (rfl)
@[simp] theorem State.setChan_bank (s : State) (c : Nat) (x : Chan) (i : Nat) : (s.setChan c x).bank i = s.bank i := (rfl)
@[simp] theorem State.setChan_wheel (s : State) (c : Nat) (x : Chan) (i : Nat) : (s.setChan c x).wheel i = s.wheel i := (rfl)
@[simp] theorem State.setChan_sheave (s : State) (c : Nat) (x : Chan) (i : Nat) : (s.setChan c x).sheave i = s.sheave i := (rfl)
@[simp] theorem State.setChan_byte (s : State) (c : Nat) (x : Chan) (i : Nat) : (s.setChan c x).byte i = s.byte i := (rfl)
@[simp] theorem State.setChan_reg (s : State) (c : Nat) (x : Chan) (i : Nat) : (s.setChan c x).reg i = s.reg i := (rfl)
@[simp] theorem State.setChan_stg (s : State) (c : Nat) (x : Chan) (i : Nat) : (s.setChan c x).stg i = s.stg i := (rfl)
@[simp] theorem State.setChan_f (s : State) (c : Nat) (x : Chan) (H : Fld) : (s.setChan c x).f H = s.f H := (rfl)
@[simp] theorem State.setChan_flag (s : State) (c : Nat) (x : Chan) (H : Fld) : (s.setChan c x).flag H = s.flag H := (rfl)
@[simp] theorem State.setChan_noted (s : State) (c : Nat) (x : Chan) (H : Fld) : (s.setChan c x).noted H = s.noted H := (rfl)

@[simp] theorem State.modChan_regs (s : State) (c : Nat) (f : Chan → Chan) : (s.modChan c f).regs = s.regs := (rfl)
@[simp] theorem State.modChan_staged (s : State) (c : Nat) (f : Chan → Chan) : (s.modChan c f).staged = s.staged := (rfl)
@[simp] theorem State.modChan_hwNow (s : State) (c : Nat) (f : Chan → Chan) : (s.modChan c f).hwNow = s.hwNow := (rfl)
@[simp] theorem State.modChan_mem (s : State) (c : Nat) (f : Chan → Chan) : (s.modChan c f).mem = s.mem := (rfl)
@[simp] theorem State.modChan_upset (s : State) (c : Nat) (f : Chan → Chan) : (s.modChan c f).upset = s.upset := (rfl)
@[simp] theorem State.modChan_banks (s : State) (c : Nat) (f : Chan → Chan) : (s.modChan c f).banks = s.banks := (rfl)
@[simp] theorem State.modChan_kln (s : State) (c : Nat) (f : Chan → Chan) : (s.modChan c f).kln = s.kln := (rfl)
@[simp] theorem State.modChan_rig (s : State) (c : Nat) (f : Chan → Chan) : (s.modChan c f).rig = s.rig := (rfl)
@[simp] theorem State.modChan_ports (s : State) (c : Nat) (f : Chan → Chan) : (s.modChan c f).ports = s.ports := (rfl)
@[simp] theorem State.modChan_engines (s : State) (c : Nat) (f : Chan → Chan) : (s.modChan c f).engines = s.engines := (rfl)
@[simp] theorem State.modChan_spare (s : State) (c : Nat) (f : Chan → Chan) : (s.modChan c f).spare = s.spare := (rfl)
@[simp] theorem State.modChan_locks (s : State) (c : Nat) (f : Chan → Chan) : (s.modChan c f).locks = s.locks := (rfl)
@[simp] theorem State.modChan_lockNow (s : State) (c : Nat) (f : Chan → Chan) : (s.modChan c f).lockNow = s.lockNow := (rfl)
@[simp] theorem State.modChan_ticks (s : State) (c : Nat) (f : Chan → Chan) : (s.modChan c f).ticks = s.ticks := (rfl)
@[simp] theorem State.modChan_wheels (s : State) (c : Nat) (f : Chan → Chan) : (s.modChan c f).wheels = s.wheels := (rfl)
@[simp] theorem State.modChan_vr (s : State) (c : Nat) (f : Chan → Chan) : (s.modChan c f).vr = s.vr := (rfl)
@[simp] theorem State.modChan_teeth (s : State) (c : Nat) (f : Chan → Chan) : (s.modChan c f).teeth = s.teeth := (rfl)
@[simp] theorem State.modChan_toothPath (s : State) (c : Nat) (f : Chan → Chan) : (s.modChan c f).toothPath = s.toothPath := (rfl)
@[simp] theorem State.modChan_sheaves (s : State) (c : Nat) (f : Chan → Chan) : (s.modChan c f).sheaves = s.sheaves := (rfl)
@[simp] theorem State.modChan_lgc (s : State) (c : Nat) (f : Chan → Chan) : (s.modChan c f).lgc = s.lgc := (rfl)
@[simp] theorem State.modChan_frs (s : State) (c : Nat) (f : Chan → Chan) : (s.modChan c f).frs = s.frs := (rfl)
@[simp] theorem State.modChan_faults (s : State) (c : Nat) (f : Chan → Chan) : (s.modChan c f).faults = s.faults := (rfl)
@[simp] theorem State.modChan_sendq (s : State) (c : Nat) (f : Chan → Chan) : (s.modChan c f).sendq = s.sendq := (rfl)
@[simp] theorem State.modChan_transit (s : State) (c : Nat) (f : Chan → Chan) : (s.modChan c f).transit = s.transit := (rfl)
@[simp] theorem State.modChan_ep (s : State) (c : Nat) (f : Chan → Chan) : (s.modChan c f).ep = s.ep := (rfl)
@[simp] theorem State.modChan_stay (s : State) (c : Nat) (f : Chan → Chan) : (s.modChan c f).stay = s.stay := (rfl)
@[simp] theorem State.modChan_pwr (s : State) (c : Nat) (f : Chan → Chan) : (s.modChan c f).pwr = s.pwr := (rfl)
@[simp] theorem State.modChan_flash (s : State) (c : Nat) (f : Chan → Chan) : (s.modChan c f).flash = s.flash := (rfl)
@[simp] theorem State.modChan_flashOut (s : State) (c : Nat) (f : Chan → Chan) : (s.modChan c f).flashOut = s.flashOut := (rfl)
@[simp] theorem State.modChan_boot (s : State) (c : Nat) (f : Chan → Chan) : (s.modChan c f).boot = s.boot := (rfl)
@[simp] theorem State.modChan_vault (s : State) (c : Nat) (f : Chan → Chan) : (s.modChan c f).vault = s.vault := (rfl)
@[simp] theorem State.modChan_lan (s : State) (c : Nat) (f : Chan → Chan) : (s.modChan c f).lan = s.lan := (rfl)
@[simp] theorem State.modChan_free (s : State) (c : Nat) (f : Chan → Chan) : (s.modChan c f).free = s.free := (rfl)
@[simp] theorem State.modChan_pending (s : State) (c : Nat) (f : Chan → Chan) : (s.modChan c f).pending = s.pending := (rfl)
@[simp] theorem State.modChan_now (s : State) (c : Nat) (f : Chan → Chan) : (s.modChan c f).now = s.now := (rfl)
@[simp] theorem State.modChan_mc (s : State) (c : Nat) (f : Chan → Chan) : (s.modChan c f).mc = s.mc := (rfl)
@[simp] theorem State.modChan_eng (s : State) (c : Nat) (f : Chan → Chan) (i : Nat) : (s.modChan c f).eng i = s.eng i := (rfl)
@[simp] theorem State.modChan_port (s : State) (c : Nat) (f : Chan → Chan) (i : Nat) : (s.modChan c f).port i = s.port i := (rfl)
@[simp] theorem State.modChan_bank (s : State) (c : Nat) (f : Chan → Chan) (i : Nat) : (s.modChan c f).bank i = s.bank i := (rfl)
@[simp] theorem State.modChan_wheel (s : State) (c : Nat) (f : Chan → Chan) (i : Nat) : (s.modChan c f).wheel i = s.wheel i := (rfl)
@[simp] theorem State.modChan_sheave (s : State) (c : Nat) (f : Chan → Chan) (i : Nat) : (s.modChan c f).sheave i = s.sheave i := (rfl)
@[simp] theorem State.modChan_byte (s : State) (c : Nat) (f : Chan → Chan) (i : Nat) : (s.modChan c f).byte i = s.byte i := (rfl)
@[simp] theorem State.modChan_reg (s : State) (c : Nat) (f : Chan → Chan) (i : Nat) : (s.modChan c f).reg i = s.reg i := (rfl)
@[simp] theorem State.modChan_stg (s : State) (c : Nat) (f : Chan → Chan) (i : Nat) : (s.modChan c f).stg i = s.stg i := (rfl)
@[simp] theorem State.modChan_f (s : State) (c : Nat) (f : Chan → Chan) (H : Fld) : (s.modChan c f).f H = s.f H := (rfl)
@[simp] theorem State.modChan_flag (s : State) (c : Nat) (f : Chan → Chan) (H : Fld) : (s.modChan c f).flag H = s.flag H := (rfl)
@[simp] theorem State.modChan_noted (s : State) (c : Nat) (f : Chan → Chan) (H : Fld) : (s.modChan c f).noted H = s.noted H := (rfl)

@[simp] theorem State.modLink_regs (s : State) (k : Nat) (f : FLink → FLink) : (s.modLink k f).regs = s.regs := (rfl)
@[simp] theorem State.modLink_staged (s : State) (k : Nat) (f : FLink → FLink) : (s.modLink k f).staged = s.staged := (rfl)
@[simp] theorem State.modLink_hwNow (s : State) (k : Nat) (f : FLink → FLink) : (s.modLink k f).hwNow = s.hwNow := (rfl)
@[simp] theorem State.modLink_mem (s : State) (k : Nat) (f : FLink → FLink) : (s.modLink k f).mem = s.mem := (rfl)
@[simp] theorem State.modLink_upset (s : State) (k : Nat) (f : FLink → FLink) : (s.modLink k f).upset = s.upset := (rfl)
@[simp] theorem State.modLink_banks (s : State) (k : Nat) (f : FLink → FLink) : (s.modLink k f).banks = s.banks := (rfl)
@[simp] theorem State.modLink_kln (s : State) (k : Nat) (f : FLink → FLink) : (s.modLink k f).kln = s.kln := (rfl)
@[simp] theorem State.modLink_rig (s : State) (k : Nat) (f : FLink → FLink) : (s.modLink k f).rig = s.rig := (rfl)
@[simp] theorem State.modLink_ports (s : State) (k : Nat) (f : FLink → FLink) : (s.modLink k f).ports = s.ports := (rfl)
@[simp] theorem State.modLink_engines (s : State) (k : Nat) (f : FLink → FLink) : (s.modLink k f).engines = s.engines := (rfl)
@[simp] theorem State.modLink_spare (s : State) (k : Nat) (f : FLink → FLink) : (s.modLink k f).spare = s.spare := (rfl)
@[simp] theorem State.modLink_locks (s : State) (k : Nat) (f : FLink → FLink) : (s.modLink k f).locks = s.locks := (rfl)
@[simp] theorem State.modLink_lockNow (s : State) (k : Nat) (f : FLink → FLink) : (s.modLink k f).lockNow = s.lockNow := (rfl)
@[simp] theorem State.modLink_ticks (s : State) (k : Nat) (f : FLink → FLink) : (s.modLink k f).ticks = s.ticks := (rfl)
@[simp] theorem State.modLink_wheels (s : State) (k : Nat) (f : FLink → FLink) : (s.modLink k f).wheels = s.wheels := (rfl)
@[simp] theorem State.modLink_vr (s : State) (k : Nat) (f : FLink → FLink) : (s.modLink k f).vr = s.vr := (rfl)
@[simp] theorem State.modLink_teeth (s : State) (k : Nat) (f : FLink → FLink) : (s.modLink k f).teeth = s.teeth := (rfl)
@[simp] theorem State.modLink_toothPath (s : State) (k : Nat) (f : FLink → FLink) : (s.modLink k f).toothPath = s.toothPath := (rfl)
@[simp] theorem State.modLink_sheaves (s : State) (k : Nat) (f : FLink → FLink) : (s.modLink k f).sheaves = s.sheaves := (rfl)
@[simp] theorem State.modLink_hly (s : State) (k : Nat) (f : FLink → FLink) : (s.modLink k f).hly = s.hly := (rfl)
@[simp] theorem State.modLink_lgc (s : State) (k : Nat) (f : FLink → FLink) : (s.modLink k f).lgc = s.lgc := (rfl)
@[simp] theorem State.modLink_faults (s : State) (k : Nat) (f : FLink → FLink) : (s.modLink k f).faults = s.faults := (rfl)
@[simp] theorem State.modLink_sendq (s : State) (k : Nat) (f : FLink → FLink) : (s.modLink k f).sendq = s.sendq := (rfl)
@[simp] theorem State.modLink_transit (s : State) (k : Nat) (f : FLink → FLink) : (s.modLink k f).transit = s.transit := (rfl)
@[simp] theorem State.modLink_ep (s : State) (k : Nat) (f : FLink → FLink) : (s.modLink k f).ep = s.ep := (rfl)
@[simp] theorem State.modLink_stay (s : State) (k : Nat) (f : FLink → FLink) : (s.modLink k f).stay = s.stay := (rfl)
@[simp] theorem State.modLink_pwr (s : State) (k : Nat) (f : FLink → FLink) : (s.modLink k f).pwr = s.pwr := (rfl)
@[simp] theorem State.modLink_flash (s : State) (k : Nat) (f : FLink → FLink) : (s.modLink k f).flash = s.flash := (rfl)
@[simp] theorem State.modLink_flashOut (s : State) (k : Nat) (f : FLink → FLink) : (s.modLink k f).flashOut = s.flashOut := (rfl)
@[simp] theorem State.modLink_boot (s : State) (k : Nat) (f : FLink → FLink) : (s.modLink k f).boot = s.boot := (rfl)
@[simp] theorem State.modLink_vault (s : State) (k : Nat) (f : FLink → FLink) : (s.modLink k f).vault = s.vault := (rfl)
@[simp] theorem State.modLink_lan (s : State) (k : Nat) (f : FLink → FLink) : (s.modLink k f).lan = s.lan := (rfl)
@[simp] theorem State.modLink_free (s : State) (k : Nat) (f : FLink → FLink) : (s.modLink k f).free = s.free := (rfl)
@[simp] theorem State.modLink_pending (s : State) (k : Nat) (f : FLink → FLink) : (s.modLink k f).pending = s.pending := (rfl)
@[simp] theorem State.modLink_now (s : State) (k : Nat) (f : FLink → FLink) : (s.modLink k f).now = s.now := (rfl)
@[simp] theorem State.modLink_mc (s : State) (k : Nat) (f : FLink → FLink) : (s.modLink k f).mc = s.mc := (rfl)
@[simp] theorem State.modLink_eng (s : State) (k : Nat) (f : FLink → FLink) (i : Nat) : (s.modLink k f).eng i = s.eng i := (rfl)
@[simp] theorem State.modLink_port (s : State) (k : Nat) (f : FLink → FLink) (i : Nat) : (s.modLink k f).port i = s.port i := (rfl)
@[simp] theorem State.modLink_bank (s : State) (k : Nat) (f : FLink → FLink) (i : Nat) : (s.modLink k f).bank i = s.bank i := (rfl)
@[simp] theorem State.modLink_wheel (s : State) (k : Nat) (f : FLink → FLink) (i : Nat) : (s.modLink k f).wheel i = s.wheel i := (rfl)
@[simp] theorem State.modLink_sheave (s : State) (k : Nat) (f : FLink → FLink) (i : Nat) : (s.modLink k f).sheave i = s.sheave i := (rfl)
@[simp] theorem State.modLink_chan (s : State) (k : Nat) (f : FLink → FLink) (i : Nat) : (s.modLink k f).chan i = s.chan i := (rfl)
@[simp] theorem State.modLink_byte (s : State) (k : Nat) (f : FLink → FLink) (i : Nat) : (s.modLink k f).byte i = s.byte i := (rfl)
@[simp] theorem State.modLink_reg (s : State) (k : Nat) (f : FLink → FLink) (i : Nat) : (s.modLink k f).reg i = s.reg i := (rfl)
@[simp] theorem State.modLink_stg (s : State) (k : Nat) (f : FLink → FLink) (i : Nat) : (s.modLink k f).stg i = s.stg i := (rfl)
@[simp] theorem State.modLink_f (s : State) (k : Nat) (f : FLink → FLink) (H : Fld) : (s.modLink k f).f H = s.f H := (rfl)
@[simp] theorem State.modLink_flag (s : State) (k : Nat) (f : FLink → FLink) (H : Fld) : (s.modLink k f).flag H = s.flag H := (rfl)
@[simp] theorem State.modLink_noted (s : State) (k : Nat) (f : FLink → FLink) (H : Fld) : (s.modLink k f).noted H = s.noted H := (rfl)

@[simp] theorem State.setTap_regs (s : State) (v : Nat) (x : Tap) : (s.setTap v x).regs = s.regs := (rfl)
@[simp] theorem State.setTap_staged (s : State) (v : Nat) (x : Tap) : (s.setTap v x).staged = s.staged := (rfl)
@[simp] theorem State.setTap_hwNow (s : State) (v : Nat) (x : Tap) : (s.setTap v x).hwNow = s.hwNow := (rfl)
@[simp] theorem State.setTap_mem (s : State) (v : Nat) (x : Tap) : (s.setTap v x).mem = s.mem := (rfl)
@[simp] theorem State.setTap_upset (s : State) (v : Nat) (x : Tap) : (s.setTap v x).upset = s.upset := (rfl)
@[simp] theorem State.setTap_banks (s : State) (v : Nat) (x : Tap) : (s.setTap v x).banks = s.banks := (rfl)
@[simp] theorem State.setTap_kln (s : State) (v : Nat) (x : Tap) : (s.setTap v x).kln = s.kln := (rfl)
@[simp] theorem State.setTap_ports (s : State) (v : Nat) (x : Tap) : (s.setTap v x).ports = s.ports := (rfl)
@[simp] theorem State.setTap_engines (s : State) (v : Nat) (x : Tap) : (s.setTap v x).engines = s.engines := (rfl)
@[simp] theorem State.setTap_spare (s : State) (v : Nat) (x : Tap) : (s.setTap v x).spare = s.spare := (rfl)
@[simp] theorem State.setTap_locks (s : State) (v : Nat) (x : Tap) : (s.setTap v x).locks = s.locks := (rfl)
@[simp] theorem State.setTap_lockNow (s : State) (v : Nat) (x : Tap) : (s.setTap v x).lockNow = s.lockNow := (rfl)
@[simp] theorem State.setTap_ticks (s : State) (v : Nat) (x : Tap) : (s.setTap v x).ticks = s.ticks := (rfl)
@[simp] theorem State.setTap_wheels (s : State) (v : Nat) (x : Tap) : (s.setTap v x).wheels = s.wheels := (rfl)
@[simp] theorem State.setTap_vr (s : State) (v : Nat) (x : Tap) : (s.setTap v x).vr = s.vr := (rfl)
@[simp] theorem State.setTap_teeth (s : State) (v : Nat) (x : Tap) : (s.setTap v x).teeth = s.teeth := (rfl)
@[simp] theorem State.setTap_toothPath (s : State) (v : Nat) (x : Tap) : (s.setTap v x).toothPath = s.toothPath := (rfl)
@[simp] theorem State.setTap_sheaves (s : State) (v : Nat) (x : Tap) : (s.setTap v x).sheaves = s.sheaves := (rfl)
@[simp] theorem State.setTap_hly (s : State) (v : Nat) (x : Tap) : (s.setTap v x).hly = s.hly := (rfl)
@[simp] theorem State.setTap_lgc (s : State) (v : Nat) (x : Tap) : (s.setTap v x).lgc = s.lgc := (rfl)
@[simp] theorem State.setTap_frs (s : State) (v : Nat) (x : Tap) : (s.setTap v x).frs = s.frs := (rfl)
@[simp] theorem State.setTap_faults (s : State) (v : Nat) (x : Tap) : (s.setTap v x).faults = s.faults := (rfl)
@[simp] theorem State.setTap_sendq (s : State) (v : Nat) (x : Tap) : (s.setTap v x).sendq = s.sendq := (rfl)
@[simp] theorem State.setTap_transit (s : State) (v : Nat) (x : Tap) : (s.setTap v x).transit = s.transit := (rfl)
@[simp] theorem State.setTap_ep (s : State) (v : Nat) (x : Tap) : (s.setTap v x).ep = s.ep := (rfl)
@[simp] theorem State.setTap_stay (s : State) (v : Nat) (x : Tap) : (s.setTap v x).stay = s.stay := (rfl)
@[simp] theorem State.setTap_pwr (s : State) (v : Nat) (x : Tap) : (s.setTap v x).pwr = s.pwr := (rfl)
@[simp] theorem State.setTap_flash (s : State) (v : Nat) (x : Tap) : (s.setTap v x).flash = s.flash := (rfl)
@[simp] theorem State.setTap_flashOut (s : State) (v : Nat) (x : Tap) : (s.setTap v x).flashOut = s.flashOut := (rfl)
@[simp] theorem State.setTap_boot (s : State) (v : Nat) (x : Tap) : (s.setTap v x).boot = s.boot := (rfl)
@[simp] theorem State.setTap_vault (s : State) (v : Nat) (x : Tap) : (s.setTap v x).vault = s.vault := (rfl)
@[simp] theorem State.setTap_lan (s : State) (v : Nat) (x : Tap) : (s.setTap v x).lan = s.lan := (rfl)
@[simp] theorem State.setTap_free (s : State) (v : Nat) (x : Tap) : (s.setTap v x).free = s.free := (rfl)
@[simp] theorem State.setTap_pending (s : State) (v : Nat) (x : Tap) : (s.setTap v x).pending = s.pending := (rfl)
@[simp] theorem State.setTap_now (s : State) (v : Nat) (x : Tap) : (s.setTap v x).now = s.now := (rfl)
@[simp] theorem State.setTap_mc (s : State) (v : Nat) (x : Tap) : (s.setTap v x).mc = s.mc := (rfl)
@[simp] theorem State.setTap_eng (s : State) (v : Nat) (x : Tap) (i : Nat) : (s.setTap v x).eng i = s.eng i := (rfl)
@[simp] theorem State.setTap_port (s : State) (v : Nat) (x : Tap) (i : Nat) : (s.setTap v x).port i = s.port i := (rfl)
@[simp] theorem State.setTap_bank (s : State) (v : Nat) (x : Tap) (i : Nat) : (s.setTap v x).bank i = s.bank i := (rfl)
@[simp] theorem State.setTap_wheel (s : State) (v : Nat) (x : Tap) (i : Nat) : (s.setTap v x).wheel i = s.wheel i := (rfl)
@[simp] theorem State.setTap_sheave (s : State) (v : Nat) (x : Tap) (i : Nat) : (s.setTap v x).sheave i = s.sheave i := (rfl)
@[simp] theorem State.setTap_chan (s : State) (v : Nat) (x : Tap) (i : Nat) : (s.setTap v x).chan i = s.chan i := (rfl)
@[simp] theorem State.setTap_byte (s : State) (v : Nat) (x : Tap) (i : Nat) : (s.setTap v x).byte i = s.byte i := (rfl)
@[simp] theorem State.setTap_reg (s : State) (v : Nat) (x : Tap) (i : Nat) : (s.setTap v x).reg i = s.reg i := (rfl)
@[simp] theorem State.setTap_stg (s : State) (v : Nat) (x : Tap) (i : Nat) : (s.setTap v x).stg i = s.stg i := (rfl)
@[simp] theorem State.setTap_f (s : State) (v : Nat) (x : Tap) (H : Fld) : (s.setTap v x).f H = s.f H := (rfl)
@[simp] theorem State.setTap_flag (s : State) (v : Nat) (x : Tap) (H : Fld) : (s.setTap v x).flag H = s.flag H := (rfl)
@[simp] theorem State.setTap_noted (s : State) (v : Nat) (x : Tap) (H : Fld) : (s.setTap v x).noted H = s.noted H := (rfl)

@[simp] theorem setArmed_regs (s : State) (a v : Nat) : ((setArmed a v s)).regs = s.regs := (rfl)
@[simp] theorem setArmed_staged (s : State) (a v : Nat) : ((setArmed a v s)).staged = s.staged := (rfl)
@[simp] theorem setArmed_hwNow (s : State) (a v : Nat) : ((setArmed a v s)).hwNow = s.hwNow := (rfl)
@[simp] theorem setArmed_mem (s : State) (a v : Nat) : ((setArmed a v s)).mem = s.mem := (rfl)
@[simp] theorem setArmed_upset (s : State) (a v : Nat) : ((setArmed a v s)).upset = s.upset := (rfl)
@[simp] theorem setArmed_banks (s : State) (a v : Nat) : ((setArmed a v s)).banks = s.banks := (rfl)
@[simp] theorem setArmed_rig (s : State) (a v : Nat) : ((setArmed a v s)).rig = s.rig := (rfl)
@[simp] theorem setArmed_ports (s : State) (a v : Nat) : ((setArmed a v s)).ports = s.ports := (rfl)
@[simp] theorem setArmed_engines (s : State) (a v : Nat) : ((setArmed a v s)).engines = s.engines := (rfl)
@[simp] theorem setArmed_spare (s : State) (a v : Nat) : ((setArmed a v s)).spare = s.spare := (rfl)
@[simp] theorem setArmed_locks (s : State) (a v : Nat) : ((setArmed a v s)).locks = s.locks := (rfl)
@[simp] theorem setArmed_lockNow (s : State) (a v : Nat) : ((setArmed a v s)).lockNow = s.lockNow := (rfl)
@[simp] theorem setArmed_ticks (s : State) (a v : Nat) : ((setArmed a v s)).ticks = s.ticks := (rfl)
@[simp] theorem setArmed_wheels (s : State) (a v : Nat) : ((setArmed a v s)).wheels = s.wheels := (rfl)
@[simp] theorem setArmed_vr (s : State) (a v : Nat) : ((setArmed a v s)).vr = s.vr := (rfl)
@[simp] theorem setArmed_teeth (s : State) (a v : Nat) : ((setArmed a v s)).teeth = s.teeth := (rfl)
@[simp] theorem setArmed_toothPath (s : State) (a v : Nat) : ((setArmed a v s)).toothPath = s.toothPath := (rfl)
@[simp] theorem setArmed_sheaves (s : State) (a v : Nat) : ((setArmed a v s)).sheaves = s.sheaves := (rfl)
@[simp] theorem setArmed_hly (s : State) (a v : Nat) : ((setArmed a v s)).hly = s.hly := (rfl)
@[simp] theorem setArmed_lgc (s : State) (a v : Nat) : ((setArmed a v s)).lgc = s.lgc := (rfl)
@[simp] theorem setArmed_frs (s : State) (a v : Nat) : ((setArmed a v s)).frs = s.frs := (rfl)
@[simp] theorem setArmed_faults (s : State) (a v : Nat) : ((setArmed a v s)).faults = s.faults := (rfl)
@[simp] theorem setArmed_sendq (s : State) (a v : Nat) : ((setArmed a v s)).sendq = s.sendq := (rfl)
@[simp] theorem setArmed_transit (s : State) (a v : Nat) : ((setArmed a v s)).transit = s.transit := (rfl)
@[simp] theorem setArmed_ep (s : State) (a v : Nat) : ((setArmed a v s)).ep = s.ep := (rfl)
@[simp] theorem setArmed_stay (s : State) (a v : Nat) : ((setArmed a v s)).stay = s.stay := (rfl)
@[simp] theorem setArmed_pwr (s : State) (a v : Nat) : ((setArmed a v s)).pwr = s.pwr := (rfl)
@[simp] theorem setArmed_flash (s : State) (a v : Nat) : ((setArmed a v s)).flash = s.flash := (rfl)
@[simp] theorem setArmed_flashOut (s : State) (a v : Nat) : ((setArmed a v s)).flashOut = s.flashOut := (rfl)
@[simp] theorem setArmed_boot (s : State) (a v : Nat) : ((setArmed a v s)).boot = s.boot := (rfl)
@[simp] theorem setArmed_vault (s : State) (a v : Nat) : ((setArmed a v s)).vault = s.vault := (rfl)
@[simp] theorem setArmed_lan (s : State) (a v : Nat) : ((setArmed a v s)).lan = s.lan := (rfl)
@[simp] theorem setArmed_free (s : State) (a v : Nat) : ((setArmed a v s)).free = s.free := (rfl)
@[simp] theorem setArmed_pending (s : State) (a v : Nat) : ((setArmed a v s)).pending = s.pending := (rfl)
@[simp] theorem setArmed_eng (s : State) (a v : Nat) (i : Nat) : ((setArmed a v s)).eng i = s.eng i := (rfl)
@[simp] theorem setArmed_port (s : State) (a v : Nat) (i : Nat) : ((setArmed a v s)).port i = s.port i := (rfl)
@[simp] theorem setArmed_bank (s : State) (a v : Nat) (i : Nat) : ((setArmed a v s)).bank i = s.bank i := (rfl)
@[simp] theorem setArmed_wheel (s : State) (a v : Nat) (i : Nat) : ((setArmed a v s)).wheel i = s.wheel i := (rfl)
@[simp] theorem setArmed_sheave (s : State) (a v : Nat) (i : Nat) : ((setArmed a v s)).sheave i = s.sheave i := (rfl)
@[simp] theorem setArmed_chan (s : State) (a v : Nat) (i : Nat) : ((setArmed a v s)).chan i = s.chan i := (rfl)
@[simp] theorem setArmed_byte (s : State) (a v : Nat) (i : Nat) : ((setArmed a v s)).byte i = s.byte i := (rfl)
@[simp] theorem setArmed_reg (s : State) (a v : Nat) (i : Nat) : ((setArmed a v s)).reg i = s.reg i := (rfl)
@[simp] theorem setArmed_stg (s : State) (a v : Nat) (i : Nat) : ((setArmed a v s)).stg i = s.stg i := (rfl)
@[simp] theorem setArmed_f (s : State) (a v : Nat) (H : Fld) : ((setArmed a v s)).f H = s.f H := (rfl)
@[simp] theorem setArmed_flag (s : State) (a v : Nat) (H : Fld) : ((setArmed a v s)).flag H = s.flag H := (rfl)
@[simp] theorem setArmed_noted (s : State) (a v : Nat) (H : Fld) : ((setArmed a v s)).noted H = s.noted H := (rfl)

@[simp] theorem setShadow_regs (s : State) (q a : Nat) (x : Shadow) : ((setShadow q a x s)).regs = s.regs := (rfl)
@[simp] theorem setShadow_staged (s : State) (q a : Nat) (x : Shadow) : ((setShadow q a x s)).staged = s.staged := (rfl)
@[simp] theorem setShadow_hwNow (s : State) (q a : Nat) (x : Shadow) : ((setShadow q a x s)).hwNow = s.hwNow := (rfl)
@[simp] theorem setShadow_mem (s : State) (q a : Nat) (x : Shadow) : ((setShadow q a x s)).mem = s.mem := (rfl)
@[simp] theorem setShadow_upset (s : State) (q a : Nat) (x : Shadow) : ((setShadow q a x s)).upset = s.upset := (rfl)
@[simp] theorem setShadow_banks (s : State) (q a : Nat) (x : Shadow) : ((setShadow q a x s)).banks = s.banks := (rfl)
@[simp] theorem setShadow_rig (s : State) (q a : Nat) (x : Shadow) : ((setShadow q a x s)).rig = s.rig := (rfl)
@[simp] theorem setShadow_ports (s : State) (q a : Nat) (x : Shadow) : ((setShadow q a x s)).ports = s.ports := (rfl)
@[simp] theorem setShadow_engines (s : State) (q a : Nat) (x : Shadow) : ((setShadow q a x s)).engines = s.engines := (rfl)
@[simp] theorem setShadow_spare (s : State) (q a : Nat) (x : Shadow) : ((setShadow q a x s)).spare = s.spare := (rfl)
@[simp] theorem setShadow_locks (s : State) (q a : Nat) (x : Shadow) : ((setShadow q a x s)).locks = s.locks := (rfl)
@[simp] theorem setShadow_lockNow (s : State) (q a : Nat) (x : Shadow) : ((setShadow q a x s)).lockNow = s.lockNow := (rfl)
@[simp] theorem setShadow_ticks (s : State) (q a : Nat) (x : Shadow) : ((setShadow q a x s)).ticks = s.ticks := (rfl)
@[simp] theorem setShadow_wheels (s : State) (q a : Nat) (x : Shadow) : ((setShadow q a x s)).wheels = s.wheels := (rfl)
@[simp] theorem setShadow_vr (s : State) (q a : Nat) (x : Shadow) : ((setShadow q a x s)).vr = s.vr := (rfl)
@[simp] theorem setShadow_teeth (s : State) (q a : Nat) (x : Shadow) : ((setShadow q a x s)).teeth = s.teeth := (rfl)
@[simp] theorem setShadow_toothPath (s : State) (q a : Nat) (x : Shadow) : ((setShadow q a x s)).toothPath = s.toothPath := (rfl)
@[simp] theorem setShadow_sheaves (s : State) (q a : Nat) (x : Shadow) : ((setShadow q a x s)).sheaves = s.sheaves := (rfl)
@[simp] theorem setShadow_hly (s : State) (q a : Nat) (x : Shadow) : ((setShadow q a x s)).hly = s.hly := (rfl)
@[simp] theorem setShadow_lgc (s : State) (q a : Nat) (x : Shadow) : ((setShadow q a x s)).lgc = s.lgc := (rfl)
@[simp] theorem setShadow_frs (s : State) (q a : Nat) (x : Shadow) : ((setShadow q a x s)).frs = s.frs := (rfl)
@[simp] theorem setShadow_faults (s : State) (q a : Nat) (x : Shadow) : ((setShadow q a x s)).faults = s.faults := (rfl)
@[simp] theorem setShadow_sendq (s : State) (q a : Nat) (x : Shadow) : ((setShadow q a x s)).sendq = s.sendq := (rfl)
@[simp] theorem setShadow_transit (s : State) (q a : Nat) (x : Shadow) : ((setShadow q a x s)).transit = s.transit := (rfl)
@[simp] theorem setShadow_ep (s : State) (q a : Nat) (x : Shadow) : ((setShadow q a x s)).ep = s.ep := (rfl)
@[simp] theorem setShadow_stay (s : State) (q a : Nat) (x : Shadow) : ((setShadow q a x s)).stay = s.stay := (rfl)
@[simp] theorem setShadow_pwr (s : State) (q a : Nat) (x : Shadow) : ((setShadow q a x s)).pwr = s.pwr := (rfl)
@[simp] theorem setShadow_flash (s : State) (q a : Nat) (x : Shadow) : ((setShadow q a x s)).flash = s.flash := (rfl)
@[simp] theorem setShadow_flashOut (s : State) (q a : Nat) (x : Shadow) : ((setShadow q a x s)).flashOut = s.flashOut := (rfl)
@[simp] theorem setShadow_boot (s : State) (q a : Nat) (x : Shadow) : ((setShadow q a x s)).boot = s.boot := (rfl)
@[simp] theorem setShadow_vault (s : State) (q a : Nat) (x : Shadow) : ((setShadow q a x s)).vault = s.vault := (rfl)
@[simp] theorem setShadow_lan (s : State) (q a : Nat) (x : Shadow) : ((setShadow q a x s)).lan = s.lan := (rfl)
@[simp] theorem setShadow_free (s : State) (q a : Nat) (x : Shadow) : ((setShadow q a x s)).free = s.free := (rfl)
@[simp] theorem setShadow_pending (s : State) (q a : Nat) (x : Shadow) : ((setShadow q a x s)).pending = s.pending := (rfl)
@[simp] theorem setShadow_eng (s : State) (q a : Nat) (x : Shadow) (i : Nat) : ((setShadow q a x s)).eng i = s.eng i := (rfl)
@[simp] theorem setShadow_port (s : State) (q a : Nat) (x : Shadow) (i : Nat) : ((setShadow q a x s)).port i = s.port i := (rfl)
@[simp] theorem setShadow_bank (s : State) (q a : Nat) (x : Shadow) (i : Nat) : ((setShadow q a x s)).bank i = s.bank i := (rfl)
@[simp] theorem setShadow_wheel (s : State) (q a : Nat) (x : Shadow) (i : Nat) : ((setShadow q a x s)).wheel i = s.wheel i := (rfl)
@[simp] theorem setShadow_sheave (s : State) (q a : Nat) (x : Shadow) (i : Nat) : ((setShadow q a x s)).sheave i = s.sheave i := (rfl)
@[simp] theorem setShadow_chan (s : State) (q a : Nat) (x : Shadow) (i : Nat) : ((setShadow q a x s)).chan i = s.chan i := (rfl)
@[simp] theorem setShadow_byte (s : State) (q a : Nat) (x : Shadow) (i : Nat) : ((setShadow q a x s)).byte i = s.byte i := (rfl)
@[simp] theorem setShadow_reg (s : State) (q a : Nat) (x : Shadow) (i : Nat) : ((setShadow q a x s)).reg i = s.reg i := (rfl)
@[simp] theorem setShadow_stg (s : State) (q a : Nat) (x : Shadow) (i : Nat) : ((setShadow q a x s)).stg i = s.stg i := (rfl)
@[simp] theorem setShadow_f (s : State) (q a : Nat) (x : Shadow) (H : Fld) : ((setShadow q a x s)).f H = s.f H := (rfl)
@[simp] theorem setShadow_flag (s : State) (q a : Nat) (x : Shadow) (H : Fld) : ((setShadow q a x s)).flag H = s.flag H := (rfl)
@[simp] theorem setShadow_noted (s : State) (q a : Nat) (x : Shadow) (H : Fld) : ((setShadow q a x s)).noted H = s.noted H := (rfl)

@[simp] theorem State.setReg64_staged (s : State) (a v : Nat) : (s.setReg64 a v).staged = s.staged := by simp [State.setReg64]
@[simp] theorem State.setReg64_hwNow (s : State) (a v : Nat) : (s.setReg64 a v).hwNow = s.hwNow := by simp [State.setReg64]
@[simp] theorem State.setReg64_mem (s : State) (a v : Nat) : (s.setReg64 a v).mem = s.mem := by simp [State.setReg64]
@[simp] theorem State.setReg64_upset (s : State) (a v : Nat) : (s.setReg64 a v).upset = s.upset := by simp [State.setReg64]
@[simp] theorem State.setReg64_banks (s : State) (a v : Nat) : (s.setReg64 a v).banks = s.banks := by simp [State.setReg64]
@[simp] theorem State.setReg64_kln (s : State) (a v : Nat) : (s.setReg64 a v).kln = s.kln := by simp [State.setReg64]
@[simp] theorem State.setReg64_rig (s : State) (a v : Nat) : (s.setReg64 a v).rig = s.rig := by simp [State.setReg64]
@[simp] theorem State.setReg64_ports (s : State) (a v : Nat) : (s.setReg64 a v).ports = s.ports := by simp [State.setReg64]
@[simp] theorem State.setReg64_engines (s : State) (a v : Nat) : (s.setReg64 a v).engines = s.engines := by simp [State.setReg64]
@[simp] theorem State.setReg64_spare (s : State) (a v : Nat) : (s.setReg64 a v).spare = s.spare := by simp [State.setReg64]
@[simp] theorem State.setReg64_locks (s : State) (a v : Nat) : (s.setReg64 a v).locks = s.locks := by simp [State.setReg64]
@[simp] theorem State.setReg64_lockNow (s : State) (a v : Nat) : (s.setReg64 a v).lockNow = s.lockNow := by simp [State.setReg64]
@[simp] theorem State.setReg64_ticks (s : State) (a v : Nat) : (s.setReg64 a v).ticks = s.ticks := by simp [State.setReg64]
@[simp] theorem State.setReg64_wheels (s : State) (a v : Nat) : (s.setReg64 a v).wheels = s.wheels := by simp [State.setReg64]
@[simp] theorem State.setReg64_vr (s : State) (a v : Nat) : (s.setReg64 a v).vr = s.vr := by simp [State.setReg64]
@[simp] theorem State.setReg64_teeth (s : State) (a v : Nat) : (s.setReg64 a v).teeth = s.teeth := by simp [State.setReg64]
@[simp] theorem State.setReg64_toothPath (s : State) (a v : Nat) : (s.setReg64 a v).toothPath = s.toothPath := by simp [State.setReg64]
@[simp] theorem State.setReg64_sheaves (s : State) (a v : Nat) : (s.setReg64 a v).sheaves = s.sheaves := by simp [State.setReg64]
@[simp] theorem State.setReg64_hly (s : State) (a v : Nat) : (s.setReg64 a v).hly = s.hly := by simp [State.setReg64]
@[simp] theorem State.setReg64_lgc (s : State) (a v : Nat) : (s.setReg64 a v).lgc = s.lgc := by simp [State.setReg64]
@[simp] theorem State.setReg64_frs (s : State) (a v : Nat) : (s.setReg64 a v).frs = s.frs := by simp [State.setReg64]
@[simp] theorem State.setReg64_faults (s : State) (a v : Nat) : (s.setReg64 a v).faults = s.faults := by simp [State.setReg64]
@[simp] theorem State.setReg64_sendq (s : State) (a v : Nat) : (s.setReg64 a v).sendq = s.sendq := by simp [State.setReg64]
@[simp] theorem State.setReg64_transit (s : State) (a v : Nat) : (s.setReg64 a v).transit = s.transit := by simp [State.setReg64]
@[simp] theorem State.setReg64_ep (s : State) (a v : Nat) : (s.setReg64 a v).ep = s.ep := by simp [State.setReg64]
@[simp] theorem State.setReg64_stay (s : State) (a v : Nat) : (s.setReg64 a v).stay = s.stay := by simp [State.setReg64]
@[simp] theorem State.setReg64_pwr (s : State) (a v : Nat) : (s.setReg64 a v).pwr = s.pwr := by simp [State.setReg64]
@[simp] theorem State.setReg64_flash (s : State) (a v : Nat) : (s.setReg64 a v).flash = s.flash := by simp [State.setReg64]
@[simp] theorem State.setReg64_flashOut (s : State) (a v : Nat) : (s.setReg64 a v).flashOut = s.flashOut := by simp [State.setReg64]
@[simp] theorem State.setReg64_boot (s : State) (a v : Nat) : (s.setReg64 a v).boot = s.boot := by simp [State.setReg64]
@[simp] theorem State.setReg64_vault (s : State) (a v : Nat) : (s.setReg64 a v).vault = s.vault := by simp [State.setReg64]
@[simp] theorem State.setReg64_lan (s : State) (a v : Nat) : (s.setReg64 a v).lan = s.lan := by simp [State.setReg64]
@[simp] theorem State.setReg64_free (s : State) (a v : Nat) : (s.setReg64 a v).free = s.free := by simp [State.setReg64]
@[simp] theorem State.setReg64_pending (s : State) (a v : Nat) : (s.setReg64 a v).pending = s.pending := by simp [State.setReg64]
@[simp] theorem State.setReg64_now (s : State) (a v : Nat) : (s.setReg64 a v).now = s.now := by simp [State.setReg64]
@[simp] theorem State.setReg64_mc (s : State) (a v : Nat) : (s.setReg64 a v).mc = s.mc := by simp [State.setReg64]
@[simp] theorem State.setReg64_eng (s : State) (a v : Nat) (i : Nat) : (s.setReg64 a v).eng i = s.eng i := by simp [State.setReg64]
@[simp] theorem State.setReg64_port (s : State) (a v : Nat) (i : Nat) : (s.setReg64 a v).port i = s.port i := by simp [State.setReg64]
@[simp] theorem State.setReg64_bank (s : State) (a v : Nat) (i : Nat) : (s.setReg64 a v).bank i = s.bank i := by simp [State.setReg64]
@[simp] theorem State.setReg64_wheel (s : State) (a v : Nat) (i : Nat) : (s.setReg64 a v).wheel i = s.wheel i := by simp [State.setReg64]
@[simp] theorem State.setReg64_sheave (s : State) (a v : Nat) (i : Nat) : (s.setReg64 a v).sheave i = s.sheave i := by simp [State.setReg64]
@[simp] theorem State.setReg64_chan (s : State) (a v : Nat) (i : Nat) : (s.setReg64 a v).chan i = s.chan i := by simp [State.setReg64]
@[simp] theorem State.setReg64_byte (s : State) (a v : Nat) (i : Nat) : (s.setReg64 a v).byte i = s.byte i := by simp [State.setReg64]
@[simp] theorem State.setReg64_stg (s : State) (a v : Nat) (i : Nat) : (s.setReg64 a v).stg i = s.stg i := by simp [State.setReg64]
@[simp] theorem State.setReg64_noted (s : State) (a v : Nat) (H : Fld) : (s.setReg64 a v).noted H = s.noted H := by simp [State.setReg64]

@[simp] theorem State.setF_staged (s : State) (G : Fld) (v : Nat) : (s.setF G v).staged = s.staged := by unfold State.setF; split <;> simp
@[simp] theorem State.setF_hwNow (s : State) (G : Fld) (v : Nat) : (s.setF G v).hwNow = s.hwNow := by unfold State.setF; split <;> simp
@[simp] theorem State.setF_mem (s : State) (G : Fld) (v : Nat) : (s.setF G v).mem = s.mem := by unfold State.setF; split <;> simp
@[simp] theorem State.setF_upset (s : State) (G : Fld) (v : Nat) : (s.setF G v).upset = s.upset := by unfold State.setF; split <;> simp
@[simp] theorem State.setF_banks (s : State) (G : Fld) (v : Nat) : (s.setF G v).banks = s.banks := by unfold State.setF; split <;> simp
@[simp] theorem State.setF_kln (s : State) (G : Fld) (v : Nat) : (s.setF G v).kln = s.kln := by unfold State.setF; split <;> simp
@[simp] theorem State.setF_rig (s : State) (G : Fld) (v : Nat) : (s.setF G v).rig = s.rig := by unfold State.setF; split <;> simp
@[simp] theorem State.setF_ports (s : State) (G : Fld) (v : Nat) : (s.setF G v).ports = s.ports := by unfold State.setF; split <;> simp
@[simp] theorem State.setF_engines (s : State) (G : Fld) (v : Nat) : (s.setF G v).engines = s.engines := by unfold State.setF; split <;> simp
@[simp] theorem State.setF_spare (s : State) (G : Fld) (v : Nat) : (s.setF G v).spare = s.spare := by unfold State.setF; split <;> simp
@[simp] theorem State.setF_locks (s : State) (G : Fld) (v : Nat) : (s.setF G v).locks = s.locks := by unfold State.setF; split <;> simp
@[simp] theorem State.setF_lockNow (s : State) (G : Fld) (v : Nat) : (s.setF G v).lockNow = s.lockNow := by unfold State.setF; split <;> simp
@[simp] theorem State.setF_ticks (s : State) (G : Fld) (v : Nat) : (s.setF G v).ticks = s.ticks := by unfold State.setF; split <;> simp
@[simp] theorem State.setF_wheels (s : State) (G : Fld) (v : Nat) : (s.setF G v).wheels = s.wheels := by unfold State.setF; split <;> simp
@[simp] theorem State.setF_vr (s : State) (G : Fld) (v : Nat) : (s.setF G v).vr = s.vr := by unfold State.setF; split <;> simp
@[simp] theorem State.setF_teeth (s : State) (G : Fld) (v : Nat) : (s.setF G v).teeth = s.teeth := by unfold State.setF; split <;> simp
@[simp] theorem State.setF_toothPath (s : State) (G : Fld) (v : Nat) : (s.setF G v).toothPath = s.toothPath := by unfold State.setF; split <;> simp
@[simp] theorem State.setF_sheaves (s : State) (G : Fld) (v : Nat) : (s.setF G v).sheaves = s.sheaves := by unfold State.setF; split <;> simp
@[simp] theorem State.setF_hly (s : State) (G : Fld) (v : Nat) : (s.setF G v).hly = s.hly := by unfold State.setF; split <;> simp
@[simp] theorem State.setF_lgc (s : State) (G : Fld) (v : Nat) : (s.setF G v).lgc = s.lgc := by unfold State.setF; split <;> simp
@[simp] theorem State.setF_frs (s : State) (G : Fld) (v : Nat) : (s.setF G v).frs = s.frs := by unfold State.setF; split <;> simp
@[simp] theorem State.setF_faults (s : State) (G : Fld) (v : Nat) : (s.setF G v).faults = s.faults := by unfold State.setF; split <;> simp
@[simp] theorem State.setF_sendq (s : State) (G : Fld) (v : Nat) : (s.setF G v).sendq = s.sendq := by unfold State.setF; split <;> simp
@[simp] theorem State.setF_transit (s : State) (G : Fld) (v : Nat) : (s.setF G v).transit = s.transit := by unfold State.setF; split <;> simp
@[simp] theorem State.setF_ep (s : State) (G : Fld) (v : Nat) : (s.setF G v).ep = s.ep := by unfold State.setF; split <;> simp
@[simp] theorem State.setF_stay (s : State) (G : Fld) (v : Nat) : (s.setF G v).stay = s.stay := by unfold State.setF; split <;> simp
@[simp] theorem State.setF_pwr (s : State) (G : Fld) (v : Nat) : (s.setF G v).pwr = s.pwr := by unfold State.setF; split <;> simp
@[simp] theorem State.setF_flash (s : State) (G : Fld) (v : Nat) : (s.setF G v).flash = s.flash := by unfold State.setF; split <;> simp
@[simp] theorem State.setF_flashOut (s : State) (G : Fld) (v : Nat) : (s.setF G v).flashOut = s.flashOut := by unfold State.setF; split <;> simp
@[simp] theorem State.setF_boot (s : State) (G : Fld) (v : Nat) : (s.setF G v).boot = s.boot := by unfold State.setF; split <;> simp
@[simp] theorem State.setF_vault (s : State) (G : Fld) (v : Nat) : (s.setF G v).vault = s.vault := by unfold State.setF; split <;> simp
@[simp] theorem State.setF_lan (s : State) (G : Fld) (v : Nat) : (s.setF G v).lan = s.lan := by unfold State.setF; split <;> simp
@[simp] theorem State.setF_free (s : State) (G : Fld) (v : Nat) : (s.setF G v).free = s.free := by unfold State.setF; split <;> simp
@[simp] theorem State.setF_pending (s : State) (G : Fld) (v : Nat) : (s.setF G v).pending = s.pending := by unfold State.setF; split <;> simp
@[simp] theorem State.setF_now (s : State) (G : Fld) (v : Nat) : (s.setF G v).now = s.now := by unfold State.setF; split <;> simp
@[simp] theorem State.setF_mc (s : State) (G : Fld) (v : Nat) : (s.setF G v).mc = s.mc := by unfold State.setF; split <;> simp
@[simp] theorem State.setF_eng (s : State) (G : Fld) (v : Nat) (i : Nat) : (s.setF G v).eng i = s.eng i := by unfold State.setF; split <;> simp
@[simp] theorem State.setF_port (s : State) (G : Fld) (v : Nat) (i : Nat) : (s.setF G v).port i = s.port i := by unfold State.setF; split <;> simp
@[simp] theorem State.setF_bank (s : State) (G : Fld) (v : Nat) (i : Nat) : (s.setF G v).bank i = s.bank i := by unfold State.setF; split <;> simp
@[simp] theorem State.setF_wheel (s : State) (G : Fld) (v : Nat) (i : Nat) : (s.setF G v).wheel i = s.wheel i := by unfold State.setF; split <;> simp
@[simp] theorem State.setF_sheave (s : State) (G : Fld) (v : Nat) (i : Nat) : (s.setF G v).sheave i = s.sheave i := by unfold State.setF; split <;> simp
@[simp] theorem State.setF_chan (s : State) (G : Fld) (v : Nat) (i : Nat) : (s.setF G v).chan i = s.chan i := by unfold State.setF; split <;> simp
@[simp] theorem State.setF_byte (s : State) (G : Fld) (v : Nat) (i : Nat) : (s.setF G v).byte i = s.byte i := by unfold State.setF; split <;> simp
@[simp] theorem State.setF_stg (s : State) (G : Fld) (v : Nat) (i : Nat) : (s.setF G v).stg i = s.stg i := by unfold State.setF; split <;> simp
@[simp] theorem State.setF_noted (s : State) (G : Fld) (v : Nat) (H : Fld) : (s.setF G v).noted H = s.noted H := by unfold State.setF; split <;> simp

@[simp] theorem State.raise_staged (s : State) (G : Fld) : (s.raise G).staged = s.staged := by simp [State.raise]
@[simp] theorem State.raise_mem (s : State) (G : Fld) : (s.raise G).mem = s.mem := by simp [State.raise]
@[simp] theorem State.raise_upset (s : State) (G : Fld) : (s.raise G).upset = s.upset := by simp [State.raise]
@[simp] theorem State.raise_banks (s : State) (G : Fld) : (s.raise G).banks = s.banks := by simp [State.raise]
@[simp] theorem State.raise_kln (s : State) (G : Fld) : (s.raise G).kln = s.kln := by simp [State.raise]
@[simp] theorem State.raise_rig (s : State) (G : Fld) : (s.raise G).rig = s.rig := by simp [State.raise]
@[simp] theorem State.raise_ports (s : State) (G : Fld) : (s.raise G).ports = s.ports := by simp [State.raise]
@[simp] theorem State.raise_engines (s : State) (G : Fld) : (s.raise G).engines = s.engines := by simp [State.raise]
@[simp] theorem State.raise_spare (s : State) (G : Fld) : (s.raise G).spare = s.spare := by simp [State.raise]
@[simp] theorem State.raise_locks (s : State) (G : Fld) : (s.raise G).locks = s.locks := by simp [State.raise]
@[simp] theorem State.raise_lockNow (s : State) (G : Fld) : (s.raise G).lockNow = s.lockNow := by simp [State.raise]
@[simp] theorem State.raise_ticks (s : State) (G : Fld) : (s.raise G).ticks = s.ticks := by simp [State.raise]
@[simp] theorem State.raise_wheels (s : State) (G : Fld) : (s.raise G).wheels = s.wheels := by simp [State.raise]
@[simp] theorem State.raise_vr (s : State) (G : Fld) : (s.raise G).vr = s.vr := by simp [State.raise]
@[simp] theorem State.raise_teeth (s : State) (G : Fld) : (s.raise G).teeth = s.teeth := by simp [State.raise]
@[simp] theorem State.raise_toothPath (s : State) (G : Fld) : (s.raise G).toothPath = s.toothPath := by simp [State.raise]
@[simp] theorem State.raise_sheaves (s : State) (G : Fld) : (s.raise G).sheaves = s.sheaves := by simp [State.raise]
@[simp] theorem State.raise_hly (s : State) (G : Fld) : (s.raise G).hly = s.hly := by simp [State.raise]
@[simp] theorem State.raise_lgc (s : State) (G : Fld) : (s.raise G).lgc = s.lgc := by simp [State.raise]
@[simp] theorem State.raise_frs (s : State) (G : Fld) : (s.raise G).frs = s.frs := by simp [State.raise]
@[simp] theorem State.raise_faults (s : State) (G : Fld) : (s.raise G).faults = s.faults := by simp [State.raise]
@[simp] theorem State.raise_sendq (s : State) (G : Fld) : (s.raise G).sendq = s.sendq := by simp [State.raise]
@[simp] theorem State.raise_transit (s : State) (G : Fld) : (s.raise G).transit = s.transit := by simp [State.raise]
@[simp] theorem State.raise_ep (s : State) (G : Fld) : (s.raise G).ep = s.ep := by simp [State.raise]
@[simp] theorem State.raise_stay (s : State) (G : Fld) : (s.raise G).stay = s.stay := by simp [State.raise]
@[simp] theorem State.raise_pwr (s : State) (G : Fld) : (s.raise G).pwr = s.pwr := by simp [State.raise]
@[simp] theorem State.raise_flash (s : State) (G : Fld) : (s.raise G).flash = s.flash := by simp [State.raise]
@[simp] theorem State.raise_flashOut (s : State) (G : Fld) : (s.raise G).flashOut = s.flashOut := by simp [State.raise]
@[simp] theorem State.raise_boot (s : State) (G : Fld) : (s.raise G).boot = s.boot := by simp [State.raise]
@[simp] theorem State.raise_vault (s : State) (G : Fld) : (s.raise G).vault = s.vault := by simp [State.raise]
@[simp] theorem State.raise_lan (s : State) (G : Fld) : (s.raise G).lan = s.lan := by simp [State.raise]
@[simp] theorem State.raise_free (s : State) (G : Fld) : (s.raise G).free = s.free := by simp [State.raise]
@[simp] theorem State.raise_pending (s : State) (G : Fld) : (s.raise G).pending = s.pending := by simp [State.raise]
@[simp] theorem State.raise_now (s : State) (G : Fld) : (s.raise G).now = s.now := by simp [State.raise]
@[simp] theorem State.raise_mc (s : State) (G : Fld) : (s.raise G).mc = s.mc := by simp [State.raise]
@[simp] theorem State.raise_eng (s : State) (G : Fld) (i : Nat) : (s.raise G).eng i = s.eng i := by simp [State.raise]
@[simp] theorem State.raise_port (s : State) (G : Fld) (i : Nat) : (s.raise G).port i = s.port i := by simp [State.raise]
@[simp] theorem State.raise_bank (s : State) (G : Fld) (i : Nat) : (s.raise G).bank i = s.bank i := by simp [State.raise]
@[simp] theorem State.raise_wheel (s : State) (G : Fld) (i : Nat) : (s.raise G).wheel i = s.wheel i := by simp [State.raise]
@[simp] theorem State.raise_sheave (s : State) (G : Fld) (i : Nat) : (s.raise G).sheave i = s.sheave i := by simp [State.raise]
@[simp] theorem State.raise_chan (s : State) (G : Fld) (i : Nat) : (s.raise G).chan i = s.chan i := by simp [State.raise]
@[simp] theorem State.raise_byte (s : State) (G : Fld) (i : Nat) : (s.raise G).byte i = s.byte i := by simp [State.raise]
@[simp] theorem State.raise_stg (s : State) (G : Fld) (i : Nat) : (s.raise G).stg i = s.stg i := by simp [State.raise]

@[simp] theorem State.bump_staged (s : State) (G : Fld) : (s.bump G).staged = s.staged := by simp [State.bump]
@[simp] theorem State.bump_mem (s : State) (G : Fld) : (s.bump G).mem = s.mem := by simp [State.bump]
@[simp] theorem State.bump_upset (s : State) (G : Fld) : (s.bump G).upset = s.upset := by simp [State.bump]
@[simp] theorem State.bump_banks (s : State) (G : Fld) : (s.bump G).banks = s.banks := by simp [State.bump]
@[simp] theorem State.bump_kln (s : State) (G : Fld) : (s.bump G).kln = s.kln := by simp [State.bump]
@[simp] theorem State.bump_rig (s : State) (G : Fld) : (s.bump G).rig = s.rig := by simp [State.bump]
@[simp] theorem State.bump_ports (s : State) (G : Fld) : (s.bump G).ports = s.ports := by simp [State.bump]
@[simp] theorem State.bump_engines (s : State) (G : Fld) : (s.bump G).engines = s.engines := by simp [State.bump]
@[simp] theorem State.bump_spare (s : State) (G : Fld) : (s.bump G).spare = s.spare := by simp [State.bump]
@[simp] theorem State.bump_locks (s : State) (G : Fld) : (s.bump G).locks = s.locks := by simp [State.bump]
@[simp] theorem State.bump_lockNow (s : State) (G : Fld) : (s.bump G).lockNow = s.lockNow := by simp [State.bump]
@[simp] theorem State.bump_ticks (s : State) (G : Fld) : (s.bump G).ticks = s.ticks := by simp [State.bump]
@[simp] theorem State.bump_wheels (s : State) (G : Fld) : (s.bump G).wheels = s.wheels := by simp [State.bump]
@[simp] theorem State.bump_vr (s : State) (G : Fld) : (s.bump G).vr = s.vr := by simp [State.bump]
@[simp] theorem State.bump_teeth (s : State) (G : Fld) : (s.bump G).teeth = s.teeth := by simp [State.bump]
@[simp] theorem State.bump_toothPath (s : State) (G : Fld) : (s.bump G).toothPath = s.toothPath := by simp [State.bump]
@[simp] theorem State.bump_sheaves (s : State) (G : Fld) : (s.bump G).sheaves = s.sheaves := by simp [State.bump]
@[simp] theorem State.bump_hly (s : State) (G : Fld) : (s.bump G).hly = s.hly := by simp [State.bump]
@[simp] theorem State.bump_lgc (s : State) (G : Fld) : (s.bump G).lgc = s.lgc := by simp [State.bump]
@[simp] theorem State.bump_frs (s : State) (G : Fld) : (s.bump G).frs = s.frs := by simp [State.bump]
@[simp] theorem State.bump_faults (s : State) (G : Fld) : (s.bump G).faults = s.faults := by simp [State.bump]
@[simp] theorem State.bump_sendq (s : State) (G : Fld) : (s.bump G).sendq = s.sendq := by simp [State.bump]
@[simp] theorem State.bump_transit (s : State) (G : Fld) : (s.bump G).transit = s.transit := by simp [State.bump]
@[simp] theorem State.bump_ep (s : State) (G : Fld) : (s.bump G).ep = s.ep := by simp [State.bump]
@[simp] theorem State.bump_stay (s : State) (G : Fld) : (s.bump G).stay = s.stay := by simp [State.bump]
@[simp] theorem State.bump_pwr (s : State) (G : Fld) : (s.bump G).pwr = s.pwr := by simp [State.bump]
@[simp] theorem State.bump_flash (s : State) (G : Fld) : (s.bump G).flash = s.flash := by simp [State.bump]
@[simp] theorem State.bump_flashOut (s : State) (G : Fld) : (s.bump G).flashOut = s.flashOut := by simp [State.bump]
@[simp] theorem State.bump_boot (s : State) (G : Fld) : (s.bump G).boot = s.boot := by simp [State.bump]
@[simp] theorem State.bump_vault (s : State) (G : Fld) : (s.bump G).vault = s.vault := by simp [State.bump]
@[simp] theorem State.bump_lan (s : State) (G : Fld) : (s.bump G).lan = s.lan := by simp [State.bump]
@[simp] theorem State.bump_free (s : State) (G : Fld) : (s.bump G).free = s.free := by simp [State.bump]
@[simp] theorem State.bump_pending (s : State) (G : Fld) : (s.bump G).pending = s.pending := by simp [State.bump]
@[simp] theorem State.bump_now (s : State) (G : Fld) : (s.bump G).now = s.now := by simp [State.bump]
@[simp] theorem State.bump_mc (s : State) (G : Fld) : (s.bump G).mc = s.mc := by simp [State.bump]
@[simp] theorem State.bump_eng (s : State) (G : Fld) (i : Nat) : (s.bump G).eng i = s.eng i := by simp [State.bump]
@[simp] theorem State.bump_port (s : State) (G : Fld) (i : Nat) : (s.bump G).port i = s.port i := by simp [State.bump]
@[simp] theorem State.bump_bank (s : State) (G : Fld) (i : Nat) : (s.bump G).bank i = s.bank i := by simp [State.bump]
@[simp] theorem State.bump_wheel (s : State) (G : Fld) (i : Nat) : (s.bump G).wheel i = s.wheel i := by simp [State.bump]
@[simp] theorem State.bump_sheave (s : State) (G : Fld) (i : Nat) : (s.bump G).sheave i = s.sheave i := by simp [State.bump]
@[simp] theorem State.bump_chan (s : State) (G : Fld) (i : Nat) : (s.bump G).chan i = s.chan i := by simp [State.bump]
@[simp] theorem State.bump_byte (s : State) (G : Fld) (i : Nat) : (s.bump G).byte i = s.byte i := by simp [State.bump]
@[simp] theorem State.bump_stg (s : State) (G : Fld) (i : Nat) : (s.bump G).stg i = s.stg i := by simp [State.bump]

@[simp] theorem State.clearCnt_staged (s : State) (G : Fld) : (s.clearCnt G).staged = s.staged := by simp [State.clearCnt]
@[simp] theorem State.clearCnt_hwNow (s : State) (G : Fld) : (s.clearCnt G).hwNow = s.hwNow := by simp [State.clearCnt]
@[simp] theorem State.clearCnt_mem (s : State) (G : Fld) : (s.clearCnt G).mem = s.mem := by simp [State.clearCnt]
@[simp] theorem State.clearCnt_upset (s : State) (G : Fld) : (s.clearCnt G).upset = s.upset := by simp [State.clearCnt]
@[simp] theorem State.clearCnt_banks (s : State) (G : Fld) : (s.clearCnt G).banks = s.banks := by simp [State.clearCnt]
@[simp] theorem State.clearCnt_kln (s : State) (G : Fld) : (s.clearCnt G).kln = s.kln := by simp [State.clearCnt]
@[simp] theorem State.clearCnt_rig (s : State) (G : Fld) : (s.clearCnt G).rig = s.rig := by simp [State.clearCnt]
@[simp] theorem State.clearCnt_ports (s : State) (G : Fld) : (s.clearCnt G).ports = s.ports := by simp [State.clearCnt]
@[simp] theorem State.clearCnt_engines (s : State) (G : Fld) : (s.clearCnt G).engines = s.engines := by simp [State.clearCnt]
@[simp] theorem State.clearCnt_spare (s : State) (G : Fld) : (s.clearCnt G).spare = s.spare := by simp [State.clearCnt]
@[simp] theorem State.clearCnt_locks (s : State) (G : Fld) : (s.clearCnt G).locks = s.locks := by simp [State.clearCnt]
@[simp] theorem State.clearCnt_lockNow (s : State) (G : Fld) : (s.clearCnt G).lockNow = s.lockNow := by simp [State.clearCnt]
@[simp] theorem State.clearCnt_ticks (s : State) (G : Fld) : (s.clearCnt G).ticks = s.ticks := by simp [State.clearCnt]
@[simp] theorem State.clearCnt_wheels (s : State) (G : Fld) : (s.clearCnt G).wheels = s.wheels := by simp [State.clearCnt]
@[simp] theorem State.clearCnt_vr (s : State) (G : Fld) : (s.clearCnt G).vr = s.vr := by simp [State.clearCnt]
@[simp] theorem State.clearCnt_teeth (s : State) (G : Fld) : (s.clearCnt G).teeth = s.teeth := by simp [State.clearCnt]
@[simp] theorem State.clearCnt_toothPath (s : State) (G : Fld) : (s.clearCnt G).toothPath = s.toothPath := by simp [State.clearCnt]
@[simp] theorem State.clearCnt_sheaves (s : State) (G : Fld) : (s.clearCnt G).sheaves = s.sheaves := by simp [State.clearCnt]
@[simp] theorem State.clearCnt_hly (s : State) (G : Fld) : (s.clearCnt G).hly = s.hly := by simp [State.clearCnt]
@[simp] theorem State.clearCnt_lgc (s : State) (G : Fld) : (s.clearCnt G).lgc = s.lgc := by simp [State.clearCnt]
@[simp] theorem State.clearCnt_frs (s : State) (G : Fld) : (s.clearCnt G).frs = s.frs := by simp [State.clearCnt]
@[simp] theorem State.clearCnt_faults (s : State) (G : Fld) : (s.clearCnt G).faults = s.faults := by simp [State.clearCnt]
@[simp] theorem State.clearCnt_sendq (s : State) (G : Fld) : (s.clearCnt G).sendq = s.sendq := by simp [State.clearCnt]
@[simp] theorem State.clearCnt_transit (s : State) (G : Fld) : (s.clearCnt G).transit = s.transit := by simp [State.clearCnt]
@[simp] theorem State.clearCnt_ep (s : State) (G : Fld) : (s.clearCnt G).ep = s.ep := by simp [State.clearCnt]
@[simp] theorem State.clearCnt_stay (s : State) (G : Fld) : (s.clearCnt G).stay = s.stay := by simp [State.clearCnt]
@[simp] theorem State.clearCnt_pwr (s : State) (G : Fld) : (s.clearCnt G).pwr = s.pwr := by simp [State.clearCnt]
@[simp] theorem State.clearCnt_flash (s : State) (G : Fld) : (s.clearCnt G).flash = s.flash := by simp [State.clearCnt]
@[simp] theorem State.clearCnt_flashOut (s : State) (G : Fld) : (s.clearCnt G).flashOut = s.flashOut := by simp [State.clearCnt]
@[simp] theorem State.clearCnt_boot (s : State) (G : Fld) : (s.clearCnt G).boot = s.boot := by simp [State.clearCnt]
@[simp] theorem State.clearCnt_vault (s : State) (G : Fld) : (s.clearCnt G).vault = s.vault := by simp [State.clearCnt]
@[simp] theorem State.clearCnt_lan (s : State) (G : Fld) : (s.clearCnt G).lan = s.lan := by simp [State.clearCnt]
@[simp] theorem State.clearCnt_free (s : State) (G : Fld) : (s.clearCnt G).free = s.free := by simp [State.clearCnt]
@[simp] theorem State.clearCnt_pending (s : State) (G : Fld) : (s.clearCnt G).pending = s.pending := by simp [State.clearCnt]
@[simp] theorem State.clearCnt_now (s : State) (G : Fld) : (s.clearCnt G).now = s.now := by simp [State.clearCnt]
@[simp] theorem State.clearCnt_mc (s : State) (G : Fld) : (s.clearCnt G).mc = s.mc := by simp [State.clearCnt]
@[simp] theorem State.clearCnt_eng (s : State) (G : Fld) (i : Nat) : (s.clearCnt G).eng i = s.eng i := by simp [State.clearCnt]
@[simp] theorem State.clearCnt_port (s : State) (G : Fld) (i : Nat) : (s.clearCnt G).port i = s.port i := by simp [State.clearCnt]
@[simp] theorem State.clearCnt_bank (s : State) (G : Fld) (i : Nat) : (s.clearCnt G).bank i = s.bank i := by simp [State.clearCnt]
@[simp] theorem State.clearCnt_wheel (s : State) (G : Fld) (i : Nat) : (s.clearCnt G).wheel i = s.wheel i := by simp [State.clearCnt]
@[simp] theorem State.clearCnt_sheave (s : State) (G : Fld) (i : Nat) : (s.clearCnt G).sheave i = s.sheave i := by simp [State.clearCnt]
@[simp] theorem State.clearCnt_chan (s : State) (G : Fld) (i : Nat) : (s.clearCnt G).chan i = s.chan i := by simp [State.clearCnt]
@[simp] theorem State.clearCnt_byte (s : State) (G : Fld) (i : Nat) : (s.clearCnt G).byte i = s.byte i := by simp [State.clearCnt]
@[simp] theorem State.clearCnt_stg (s : State) (G : Fld) (i : Nat) : (s.clearCnt G).stg i = s.stg i := by simp [State.clearCnt]
@[simp] theorem State.clearCnt_noted (s : State) (G : Fld) (H : Fld) : (s.clearCnt G).noted H = s.noted H := by simp [State.clearCnt]

@[simp] theorem werr_staged (s : State) (q a : Nat) : ((werr q a s)).staged = s.staged := by simp [werr]
@[simp] theorem werr_mem (s : State) (q a : Nat) : ((werr q a s)).mem = s.mem := by simp [werr]
@[simp] theorem werr_upset (s : State) (q a : Nat) : ((werr q a s)).upset = s.upset := by simp [werr]
@[simp] theorem werr_banks (s : State) (q a : Nat) : ((werr q a s)).banks = s.banks := by simp [werr]
@[simp] theorem werr_kln (s : State) (q a : Nat) : ((werr q a s)).kln = s.kln := by simp [werr]
@[simp] theorem werr_rig (s : State) (q a : Nat) : ((werr q a s)).rig = s.rig := by simp [werr]
@[simp] theorem werr_ports (s : State) (q a : Nat) : ((werr q a s)).ports = s.ports := by simp [werr]
@[simp] theorem werr_engines (s : State) (q a : Nat) : ((werr q a s)).engines = s.engines := by simp [werr]
@[simp] theorem werr_spare (s : State) (q a : Nat) : ((werr q a s)).spare = s.spare := by simp [werr]
@[simp] theorem werr_locks (s : State) (q a : Nat) : ((werr q a s)).locks = s.locks := by simp [werr]
@[simp] theorem werr_lockNow (s : State) (q a : Nat) : ((werr q a s)).lockNow = s.lockNow := by simp [werr]
@[simp] theorem werr_ticks (s : State) (q a : Nat) : ((werr q a s)).ticks = s.ticks := by simp [werr]
@[simp] theorem werr_wheels (s : State) (q a : Nat) : ((werr q a s)).wheels = s.wheels := by simp [werr]
@[simp] theorem werr_vr (s : State) (q a : Nat) : ((werr q a s)).vr = s.vr := by simp [werr]
@[simp] theorem werr_teeth (s : State) (q a : Nat) : ((werr q a s)).teeth = s.teeth := by simp [werr]
@[simp] theorem werr_toothPath (s : State) (q a : Nat) : ((werr q a s)).toothPath = s.toothPath := by simp [werr]
@[simp] theorem werr_sheaves (s : State) (q a : Nat) : ((werr q a s)).sheaves = s.sheaves := by simp [werr]
@[simp] theorem werr_hly (s : State) (q a : Nat) : ((werr q a s)).hly = s.hly := by simp [werr]
@[simp] theorem werr_lgc (s : State) (q a : Nat) : ((werr q a s)).lgc = s.lgc := by simp [werr]
@[simp] theorem werr_frs (s : State) (q a : Nat) : ((werr q a s)).frs = s.frs := by simp [werr]
@[simp] theorem werr_faults (s : State) (q a : Nat) : ((werr q a s)).faults = s.faults := by simp [werr]
@[simp] theorem werr_sendq (s : State) (q a : Nat) : ((werr q a s)).sendq = s.sendq := by simp [werr]
@[simp] theorem werr_transit (s : State) (q a : Nat) : ((werr q a s)).transit = s.transit := by simp [werr]
@[simp] theorem werr_ep (s : State) (q a : Nat) : ((werr q a s)).ep = s.ep := by simp [werr]
@[simp] theorem werr_stay (s : State) (q a : Nat) : ((werr q a s)).stay = s.stay := by simp [werr]
@[simp] theorem werr_pwr (s : State) (q a : Nat) : ((werr q a s)).pwr = s.pwr := by simp [werr]
@[simp] theorem werr_flash (s : State) (q a : Nat) : ((werr q a s)).flash = s.flash := by simp [werr]
@[simp] theorem werr_flashOut (s : State) (q a : Nat) : ((werr q a s)).flashOut = s.flashOut := by simp [werr]
@[simp] theorem werr_boot (s : State) (q a : Nat) : ((werr q a s)).boot = s.boot := by simp [werr]
@[simp] theorem werr_vault (s : State) (q a : Nat) : ((werr q a s)).vault = s.vault := by simp [werr]
@[simp] theorem werr_lan (s : State) (q a : Nat) : ((werr q a s)).lan = s.lan := by simp [werr]
@[simp] theorem werr_free (s : State) (q a : Nat) : ((werr q a s)).free = s.free := by simp [werr]
@[simp] theorem werr_pending (s : State) (q a : Nat) : ((werr q a s)).pending = s.pending := by simp [werr]
@[simp] theorem werr_now (s : State) (q a : Nat) : ((werr q a s)).now = s.now := by simp [werr]
@[simp] theorem werr_mc (s : State) (q a : Nat) : ((werr q a s)).mc = s.mc := by simp [werr]
@[simp] theorem werr_eng (s : State) (q a : Nat) (i : Nat) : ((werr q a s)).eng i = s.eng i := by simp [werr]
@[simp] theorem werr_port (s : State) (q a : Nat) (i : Nat) : ((werr q a s)).port i = s.port i := by simp [werr]
@[simp] theorem werr_bank (s : State) (q a : Nat) (i : Nat) : ((werr q a s)).bank i = s.bank i := by simp [werr]
@[simp] theorem werr_wheel (s : State) (q a : Nat) (i : Nat) : ((werr q a s)).wheel i = s.wheel i := by simp [werr]
@[simp] theorem werr_sheave (s : State) (q a : Nat) (i : Nat) : ((werr q a s)).sheave i = s.sheave i := by simp [werr]
@[simp] theorem werr_chan (s : State) (q a : Nat) (i : Nat) : ((werr q a s)).chan i = s.chan i := by simp [werr]
@[simp] theorem werr_byte (s : State) (q a : Nat) (i : Nat) : ((werr q a s)).byte i = s.byte i := by simp [werr]
@[simp] theorem werr_stg (s : State) (q a : Nat) (i : Nat) : ((werr q a s)).stg i = s.stg i := by simp [werr]

@[simp] theorem logFault_regs (s : State) (a b c d : Nat) : ((logFault a b c d s)).regs = s.regs := by unfold logFault; split <;> exact (rfl)
@[simp] theorem logFault_staged (s : State) (a b c d : Nat) : ((logFault a b c d s)).staged = s.staged := by unfold logFault; split <;> exact (rfl)
@[simp] theorem logFault_hwNow (s : State) (a b c d : Nat) : ((logFault a b c d s)).hwNow = s.hwNow := by unfold logFault; split <;> exact (rfl)
@[simp] theorem logFault_mem (s : State) (a b c d : Nat) : ((logFault a b c d s)).mem = s.mem := by unfold logFault; split <;> exact (rfl)
@[simp] theorem logFault_upset (s : State) (a b c d : Nat) : ((logFault a b c d s)).upset = s.upset := by unfold logFault; split <;> exact (rfl)
@[simp] theorem logFault_banks (s : State) (a b c d : Nat) : ((logFault a b c d s)).banks = s.banks := by unfold logFault; split <;> exact (rfl)
@[simp] theorem logFault_kln (s : State) (a b c d : Nat) : ((logFault a b c d s)).kln = s.kln := by unfold logFault; split <;> exact (rfl)
@[simp] theorem logFault_rig (s : State) (a b c d : Nat) : ((logFault a b c d s)).rig = s.rig := by unfold logFault; split <;> exact (rfl)
@[simp] theorem logFault_ports (s : State) (a b c d : Nat) : ((logFault a b c d s)).ports = s.ports := by unfold logFault; split <;> exact (rfl)
@[simp] theorem logFault_engines (s : State) (a b c d : Nat) : ((logFault a b c d s)).engines = s.engines := by unfold logFault; split <;> exact (rfl)
@[simp] theorem logFault_spare (s : State) (a b c d : Nat) : ((logFault a b c d s)).spare = s.spare := by unfold logFault; split <;> exact (rfl)
@[simp] theorem logFault_locks (s : State) (a b c d : Nat) : ((logFault a b c d s)).locks = s.locks := by unfold logFault; split <;> exact (rfl)
@[simp] theorem logFault_lockNow (s : State) (a b c d : Nat) : ((logFault a b c d s)).lockNow = s.lockNow := by unfold logFault; split <;> exact (rfl)
@[simp] theorem logFault_ticks (s : State) (a b c d : Nat) : ((logFault a b c d s)).ticks = s.ticks := by unfold logFault; split <;> exact (rfl)
@[simp] theorem logFault_wheels (s : State) (a b c d : Nat) : ((logFault a b c d s)).wheels = s.wheels := by unfold logFault; split <;> exact (rfl)
@[simp] theorem logFault_vr (s : State) (a b c d : Nat) : ((logFault a b c d s)).vr = s.vr := by unfold logFault; split <;> exact (rfl)
@[simp] theorem logFault_teeth (s : State) (a b c d : Nat) : ((logFault a b c d s)).teeth = s.teeth := by unfold logFault; split <;> exact (rfl)
@[simp] theorem logFault_toothPath (s : State) (a b c d : Nat) : ((logFault a b c d s)).toothPath = s.toothPath := by unfold logFault; split <;> exact (rfl)
@[simp] theorem logFault_sheaves (s : State) (a b c d : Nat) : ((logFault a b c d s)).sheaves = s.sheaves := by unfold logFault; split <;> exact (rfl)
@[simp] theorem logFault_hly (s : State) (a b c d : Nat) : ((logFault a b c d s)).hly = s.hly := by unfold logFault; split <;> exact (rfl)
@[simp] theorem logFault_lgc (s : State) (a b c d : Nat) : ((logFault a b c d s)).lgc = s.lgc := by unfold logFault; split <;> exact (rfl)
@[simp] theorem logFault_frs (s : State) (a b c d : Nat) : ((logFault a b c d s)).frs = s.frs := by unfold logFault; split <;> exact (rfl)
@[simp] theorem logFault_sendq (s : State) (a b c d : Nat) : ((logFault a b c d s)).sendq = s.sendq := by unfold logFault; split <;> exact (rfl)
@[simp] theorem logFault_transit (s : State) (a b c d : Nat) : ((logFault a b c d s)).transit = s.transit := by unfold logFault; split <;> exact (rfl)
@[simp] theorem logFault_ep (s : State) (a b c d : Nat) : ((logFault a b c d s)).ep = s.ep := by unfold logFault; split <;> exact (rfl)
@[simp] theorem logFault_stay (s : State) (a b c d : Nat) : ((logFault a b c d s)).stay = s.stay := by unfold logFault; split <;> exact (rfl)
@[simp] theorem logFault_pwr (s : State) (a b c d : Nat) : ((logFault a b c d s)).pwr = s.pwr := by unfold logFault; split <;> exact (rfl)
@[simp] theorem logFault_flash (s : State) (a b c d : Nat) : ((logFault a b c d s)).flash = s.flash := by unfold logFault; split <;> exact (rfl)
@[simp] theorem logFault_flashOut (s : State) (a b c d : Nat) : ((logFault a b c d s)).flashOut = s.flashOut := by unfold logFault; split <;> exact (rfl)
@[simp] theorem logFault_boot (s : State) (a b c d : Nat) : ((logFault a b c d s)).boot = s.boot := by unfold logFault; split <;> exact (rfl)
@[simp] theorem logFault_vault (s : State) (a b c d : Nat) : ((logFault a b c d s)).vault = s.vault := by unfold logFault; split <;> exact (rfl)
@[simp] theorem logFault_lan (s : State) (a b c d : Nat) : ((logFault a b c d s)).lan = s.lan := by unfold logFault; split <;> exact (rfl)
@[simp] theorem logFault_free (s : State) (a b c d : Nat) : ((logFault a b c d s)).free = s.free := by unfold logFault; split <;> exact (rfl)
@[simp] theorem logFault_pending (s : State) (a b c d : Nat) : ((logFault a b c d s)).pending = s.pending := by unfold logFault; split <;> exact (rfl)
@[simp] theorem logFault_now (s : State) (a b c d : Nat) : ((logFault a b c d s)).now = s.now := by unfold logFault; split <;> exact (rfl)
@[simp] theorem logFault_mc (s : State) (a b c d : Nat) : ((logFault a b c d s)).mc = s.mc := by unfold logFault; split <;> exact (rfl)
@[simp] theorem logFault_eng (s : State) (a b c d : Nat) (i : Nat) : ((logFault a b c d s)).eng i = s.eng i := by unfold logFault; split <;> exact (rfl)
@[simp] theorem logFault_port (s : State) (a b c d : Nat) (i : Nat) : ((logFault a b c d s)).port i = s.port i := by unfold logFault; split <;> exact (rfl)
@[simp] theorem logFault_bank (s : State) (a b c d : Nat) (i : Nat) : ((logFault a b c d s)).bank i = s.bank i := by unfold logFault; split <;> exact (rfl)
@[simp] theorem logFault_wheel (s : State) (a b c d : Nat) (i : Nat) : ((logFault a b c d s)).wheel i = s.wheel i := by unfold logFault; split <;> exact (rfl)
@[simp] theorem logFault_sheave (s : State) (a b c d : Nat) (i : Nat) : ((logFault a b c d s)).sheave i = s.sheave i := by unfold logFault; split <;> exact (rfl)
@[simp] theorem logFault_chan (s : State) (a b c d : Nat) (i : Nat) : ((logFault a b c d s)).chan i = s.chan i := by unfold logFault; split <;> exact (rfl)
@[simp] theorem logFault_byte (s : State) (a b c d : Nat) (i : Nat) : ((logFault a b c d s)).byte i = s.byte i := by unfold logFault; split <;> exact (rfl)
@[simp] theorem logFault_reg (s : State) (a b c d : Nat) (i : Nat) : ((logFault a b c d s)).reg i = s.reg i := by unfold logFault; split <;> exact (rfl)
@[simp] theorem logFault_stg (s : State) (a b c d : Nat) (i : Nat) : ((logFault a b c d s)).stg i = s.stg i := by unfold logFault; split <;> exact (rfl)
@[simp] theorem logFault_f (s : State) (a b c d : Nat) (H : Fld) : ((logFault a b c d s)).f H = s.f H := by unfold logFault; split <;> exact (rfl)
@[simp] theorem logFault_flag (s : State) (a b c d : Nat) (H : Fld) : ((logFault a b c d s)).flag H = s.flag H := by unfold logFault; split <;> exact (rfl)
@[simp] theorem logFault_noted (s : State) (a b c d : Nat) (H : Fld) : ((logFault a b c d s)).noted H = s.noted H := by unfold logFault; split <;> exact (rfl)

/-! ### What an update sets -/

@[simp] theorem State.setReg_reg_same (s : State) (a : Nat) (v : Word) : (s.setReg a v).reg a = v :=
  mget_mset_same _ _ _ _
theorem State.setReg_reg_ne (s : State) {a b : Nat} (v : Word) (h : b ≠ a) : (s.setReg a v).reg b = s.reg b :=
  mget_mset_ne _ _ _ _ h
@[simp] theorem State.setStg_stg_same (s : State) (a : Nat) (v : Word) : (s.setStg a v).stg a = v :=
  mget_mset_same _ _ _ _
theorem State.setStg_stg_ne (s : State) {a b : Nat} (v : Word) (h : b ≠ a) : (s.setStg a v).stg b = s.stg b :=
  mget_mset_ne _ _ _ _ h
@[simp] theorem State.setByte_byte_same (s : State) (a : Nat) (v : Byte) : (s.setByte a v).byte a = v :=
  mget_mset_same _ _ _ _
theorem State.setByte_byte_ne (s : State) {a b : Nat} (v : Byte) (h : b ≠ a) : (s.setByte a v).byte b = s.byte b :=
  mget_mset_ne _ _ _ _ h
@[simp] theorem State.setEng_eng_same (s : State) (e : Nat) (x : Engine) : (s.setEng e x).eng e = x :=
  mget_mset_same _ _ _ _
theorem State.setEng_eng_ne (s : State) {e i : Nat} (x : Engine) (h : i ≠ e) : (s.setEng e x).eng i = s.eng i :=
  mget_mset_ne _ _ _ _ h
@[simp] theorem State.modEng_eng_same (s : State) (e : Nat) (f : Engine → Engine) : (s.modEng e f).eng e = f (s.eng e) :=
  mget_mset_same _ _ _ _
theorem State.modEng_eng_ne (s : State) {e i : Nat} (f : Engine → Engine) (h : i ≠ e) :
    (s.modEng e f).eng i = s.eng i := mget_mset_ne _ _ _ _ h
@[simp] theorem State.setPort_port_same (s : State) (p : Nat) (x : Port) : (s.setPort p x).port p = x :=
  mget_mset_same _ _ _ _
theorem State.setPort_port_ne (s : State) {p i : Nat} (x : Port) (h : i ≠ p) : (s.setPort p x).port i = s.port i :=
  mget_mset_ne _ _ _ _ h
@[simp] theorem State.modPort_port_same (s : State) (p : Nat) (f : Port → Port) : (s.modPort p f).port p = f (s.port p) :=
  mget_mset_same _ _ _ _
theorem State.modPort_port_ne (s : State) {p i : Nat} (f : Port → Port) (h : i ≠ p) :
    (s.modPort p f).port i = s.port i := mget_mset_ne _ _ _ _ h
@[simp] theorem State.modBank_bank_same (s : State) (b : Nat) (f : Bank → Bank) : (s.modBank b f).bank b = f (s.bank b) :=
  mget_mset_same _ _ _ _
theorem State.modBank_bank_ne (s : State) {b i : Nat} (f : Bank → Bank) (h : i ≠ b) :
    (s.modBank b f).bank i = s.bank i := mget_mset_ne _ _ _ _ h
@[simp] theorem State.modWheel_wheel_same (s : State) (w : Nat) (f : Tracker → Tracker) :
    (s.modWheel w f).wheel w = f (s.wheel w) := mget_mset_same _ _ _ _
theorem State.modWheel_wheel_ne (s : State) {w i : Nat} (f : Tracker → Tracker) (h : i ≠ w) :
    (s.modWheel w f).wheel i = s.wheel i := mget_mset_ne _ _ _ _ h
@[simp] theorem State.modSheave_sheave_same (s : State) (u : Nat) (f : Sheave → Sheave) :
    (s.modSheave u f).sheave u = f (s.sheave u) := mget_mset_same _ _ _ _
theorem State.modSheave_sheave_ne (s : State) {u i : Nat} (f : Sheave → Sheave) (h : i ≠ u) :
    (s.modSheave u f).sheave i = s.sheave i := mget_mset_ne _ _ _ _ h
@[simp] theorem State.modChan_chan_same (s : State) (c : Nat) (f : Chan → Chan) :
    (s.modChan c f).chan c = f (s.chan c) := mget_mset_same _ _ _ _
theorem State.modChan_chan_ne (s : State) {c i : Nat} (f : Chan → Chan) (h : i ≠ c) :
    (s.modChan c f).chan i = s.chan i := mget_mset_ne _ _ _ _ h
@[simp] theorem setArmed_armedAt_same (s : State) (a v : Nat) : (setArmed a v s).armedAt a = v :=
  mget_mset_same _ _ _ _
@[simp] theorem setShadow_shadow_same (s : State) (q a : Nat) (x : Shadow) : (setShadow q a x s).shadow q a = x :=
  mget_mset_same _ _ _ _

/-! ### Register fields -/

theorem bitsOf_lt (v lo w : Nat) : bitsOf v lo w < 2 ^ w := Nat.mod_lt _ (Nat.two_pow_pos w)

theorem bitsOf_testBit (v lo w i : Nat) : (bitsOf v lo w).testBit i = (decide (i < w) && v.testBit (lo + i)) := by
  simp [bitsOf, Nat.testBit_mod_two_pow, Nat.testBit_shiftRight]

/-- Replacing a field is clearing its bits and putting the new ones in. -/
theorem setBits_eq (v lo w x : Nat) :
    setBits v lo w x = v / 2 ^ (lo + w) * 2 ^ (lo + w) + (x % 2 ^ w) * 2 ^ lo + v % 2 ^ lo := by
  have h1 : v / 2 ^ lo = v / 2 ^ (lo + w) * 2 ^ w + v / 2 ^ lo % 2 ^ w := by
    rw [Nat.pow_add, ← Nat.div_div_eq_div_mul]; exact (Nat.div_add_mod' _ _).symm
  have h2 : v = (v / 2 ^ (lo + w) * 2 ^ w + v / 2 ^ lo % 2 ^ w) * 2 ^ lo + v % 2 ^ lo := by
    rw [← h1]; exact (Nat.div_add_mod' _ _).symm
  simp only [setBits, bitsOf, Nat.shiftRight_eq_div_pow, Nat.shiftLeft_eq]
  have h3 : v / 2 ^ (lo + w) * 2 ^ (lo + w) = v / 2 ^ (lo + w) * 2 ^ w * 2 ^ lo := by
    rw [Nat.pow_add]; ring
  rw [h3]
  rw [Nat.add_mul] at h2
  omega

theorem setBits_testBit (v lo w x i : Nat) : (setBits v lo w x).testBit i =
    if i < lo then v.testBit i else if i < lo + w then x.testBit (i - lo) else v.testBit i := by
  have ha : (x % 2 ^ w) * 2 ^ lo + v % 2 ^ lo < 2 ^ (lo + w) := by
    have h1 : x % 2 ^ w < 2 ^ w := Nat.mod_lt _ (Nat.two_pow_pos w)
    have h2 : v % 2 ^ lo < 2 ^ lo := Nat.mod_lt _ (Nat.two_pow_pos lo)
    calc (x % 2 ^ w) * 2 ^ lo + v % 2 ^ lo < (x % 2 ^ w) * 2 ^ lo + 2 ^ lo := by omega
      _ = (x % 2 ^ w + 1) * 2 ^ lo := by ring
      _ ≤ 2 ^ w * 2 ^ lo := Nat.mul_le_mul_right _ h1
      _ = 2 ^ (lo + w) := by rw [Nat.pow_add]; ring
  have hb : v % 2 ^ lo < 2 ^ lo := Nat.mod_lt _ (Nat.two_pow_pos lo)
  rw [setBits_eq, Nat.add_assoc, Nat.mul_comm (v / _), Nat.mul_comm (x % _)] at *
  rw [Nat.testBit_two_pow_mul_add _ (by rwa [Nat.mul_comm] at ha ⊢), Nat.testBit_two_pow_mul_add _ hb]
  by_cases h1 : i < lo
  · simp [h1, show i < lo + w by omega, Nat.testBit_mod_two_pow]
  · by_cases h2 : i < lo + w
    · simp [h1, h2, Nat.testBit_mod_two_pow, show i - lo < w by omega]
    · simp [h1, h2, Nat.testBit_div_two_pow, show i - (lo + w) + (lo + w) = i by omega]

theorem setBits_lt {v lo w x : Nat} (h : lo + w ≤ 32) (hv : v < 2 ^ 32) : setBits v lo w x < 2 ^ 32 := by
  apply Nat.lt_pow_two_of_testBit
  intro i hi
  rw [setBits_testBit, if_neg (by omega), if_neg (by omega)]
  exact Nat.testBit_lt_two_pow (Nat.lt_of_lt_of_le hv (Nat.pow_le_pow_right (by decide) hi))

theorem bitsOf_setBits_same (v lo w x : Nat) : bitsOf (setBits v lo w x) lo w = x % 2 ^ w := by
  apply Nat.eq_of_testBit_eq; intro i
  rw [bitsOf_testBit, setBits_testBit, Nat.testBit_mod_two_pow]
  by_cases h : i < w <;> simp [h]

theorem bitsOf_setBits_disjoint (v lo w x : Nat) {lo' w' : Nat} (h : lo' + w' ≤ lo ∨ lo + w ≤ lo') :
    bitsOf (setBits v lo w x) lo' w' = bitsOf v lo' w' := by
  apply Nat.eq_of_testBit_eq; intro i
  rw [bitsOf_testBit, bitsOf_testBit, setBits_testBit]
  by_cases hi : i < w'
  · simp only [hi, decide_true, Bool.true_and]
    split
    · rfl
    · rw [if_neg (by omega)]
  · simp [hi]

/-- A field that was set reads as the value it was given. -/
theorem State.setF_f_same (s : State) (F : Fld) (v : Nat) (h : F.lo + F.w ≤ 32) : (s.setF F v).f F = v % 2 ^ F.w := by
  simp only [State.setF, State.f, h, if_true, State.setReg_reg_same, BitVec.toNat_ofNat]
  rw [Nat.mod_eq_of_lt (setBits_lt h (s.reg F.off).isLt), bitsOf_setBits_same]

/-- A field of another register, or of other bits of the same one, stays. -/
theorem State.setF_f_ne (s : State) (F G : Fld) (v : Nat) (hF : F.lo + F.w ≤ 32) (hG : G.lo + G.w ≤ 32)
    (h : G.off ≠ F.off ∨ G.lo + G.w ≤ F.lo ∨ F.lo + F.w ≤ G.lo) : (s.setF F v).f G = s.f G := by
  simp only [State.setF, State.f, hF, hG, if_true]
  by_cases ho : G.off = F.off
  · rw [ho, State.setReg_reg_same, BitVec.toNat_ofNat, Nat.mod_eq_of_lt (setBits_lt hF (s.reg F.off).isLt),
      bitsOf_setBits_disjoint _ _ _ _ (h.resolve_left (by simp [ho]))]
  · rw [State.setReg_reg_ne s _ ho]

theorem State.setF_reg_ne (s : State) (F : Fld) {a : Nat} (v : Nat) (hF : F.lo + F.w ≤ 32) (h : a ≠ F.off) :
    (s.setF F v).reg a = s.reg a := by simp [State.setF, hF, State.setReg_reg_ne s _ h]

theorem State.f_lt (s : State) (F : Fld) : s.f F < 2 ^ F.w := by
  unfold State.f; split <;> exact bitsOf_lt _ _ _

/-- A status bit that hardware raises reads 1. -/
theorem State.raise_f_same (s : State) (F : Fld) (h : F.lo + F.w ≤ 32) (hw : 0 < F.w) : (s.raise F).f F = 1 := by
  rw [State.raise, State.note_f, State.setF_f_same s F 1 h, Nat.mod_eq_of_lt (Nat.one_lt_two_pow (by omega))]

/-- A count goes up by one and stops at its greatest value (R15). -/
theorem State.bump_f_same (s : State) (F : Fld) (h : F.lo + F.w ≤ 32) : (s.bump F).f F = min (s.f F + 1) (2 ^ F.w - 1) := by
  have := Nat.two_pow_pos F.w
  rw [State.bump, State.note_f, State.setF_f_same s F _ h, fmax, Nat.mod_eq_of_lt (by omega)]


end Sys2Proof.Machine
end

