-- ==== Sys2Proof/Laws/Memory.lean ====
section
/-! SUPPORT. What every operation of the model does to the bytes of the banks: X_mem says that operation X leaves all of
them as they are, X_wf that it keeps the canonical form of the memory. -/

set_option linter.all false

namespace Sys2Proof.Machine

open Sys2Proof Reg

theorem ite_mem {c : Prop} [Decidable c] {a b : State} {m : List Host.Cell} (ha : a.mem = m) (hb : b.mem = m) :
    (if c then a else b).mem = m := by split <;> assumption

theorem ite_wf {c : Prop} [Decidable c] {a b : State} (ha : Memory.wf a.mem) (hb : Memory.wf b.mem) :
    Memory.wf (if c then a else b).mem := by split <;> assumption

theorem foldl_mem {α : Type} (l : List α) (g : State → α → State) {s : State} {m : List Host.Cell} (hs : s.mem = m)
    (h : ∀ t a, t.mem = m → (g t a).mem = m) : (l.foldl g s).mem = m := by
  induction l generalizing s with
  | nil => exact hs
  | cons a l ih => exact ih (h _ _ hs)

theorem foldl_wf {α : Type} (l : List α) (g : State → α → State) {s : State} (hs : Memory.wf s.mem)
    (h : ∀ t a, Memory.wf t.mem → Memory.wf (g t a).mem) : Memory.wf (l.foldl g s).mem := by
  induction l generalizing s with
  | nil => exact hs
  | cons a l ih => exact ih (h _ _ hs)

theorem foldl_inv {α β : Type} (P : β → Prop) (l : List α) (g : β → α → β) {b : β} (hb : P b)
    (h : ∀ b a, P b → P (g b a)) : P (l.foldl g b) := by
  induction l generalizing b with
  | nil => exact hb
  | cons a l ih => exact ih (h _ _ hb)

@[simp] theorem hostSend_mem (r : HostReq) (s : State) :
    (hostSend r s).mem = s.mem := by simp [hostSend, apply_ite State.mem]

theorem State.setByte_wf (s : State) (a : Nat) (v : Byte) (h : Memory.wf s.mem) : Memory.wf (s.setByte a v).mem :=
  mwf_mset _ _ _ _ h

theorem State.poke_wf (s : State) (a : Nat) (l : List Byte) (h : Memory.wf s.mem) : Memory.wf (s.poke a l).mem := by
  induction l generalizing s a with
  | nil => exact h
  | cons b l ih => exact ih _ _ (mwf_mset _ _ _ _ h)

@[simp] theorem countCorr_mem (b : Nat) (s : State) :
    (countCorr b s).mem = s.mem := by simp [countCorr, apply_ite State.mem]

@[simp] theorem countUnc_mem (b r w : Nat) (s : State) :
    (countUnc b r w s).mem = s.mem := by simp [countUnc, apply_ite State.mem]

@[simp] theorem readWordErr_mem (b r : Nat) (s : State) (w : Nat) :
    (readWordErr b r s w).mem = s.mem := by
  unfold readWordErr
  (try dsimp only)
  repeat' (first
    | (simp; done) | (simp [*]; done)
    | with_reducible refine ite_mem ?_ ?_ | (with_reducible refine foldl_mem _ _ ?_ (fun _ _ _ => ?_)) | split | simp)

@[simp] theorem bankRead_mem (b r a n : Nat) (s : State) :
    (bankRead b r a n s).2.2.mem = s.mem := by
  unfold bankRead
  (try dsimp only)
  repeat' (first
    | (simp; done) | (simp [*]; done)
    | with_reducible refine ite_mem ?_ ?_ | (with_reducible refine foldl_mem _ _ ?_ (fun _ _ _ => ?_)) | split | simp)

@[simp] theorem inject_mem (b w : Nat) (s : State) :
    (inject b w s).mem = s.mem := by simp [inject, apply_ite State.mem]

theorem setBytes_wf (l : List (Nat × Byte)) (s : State) (h : Memory.wf s.mem) :
    Memory.wf (l.foldl (fun (s : State) q => s.setByte q.1 q.2) s).mem :=
  foldl_wf _ _ h fun t a ht => State.setByte_wf t a.1 a.2 ht

theorem writeWord_wf (b r a : Nat) (d : List (Option Byte)) (s : State) (w : Nat) (h : Memory.wf s.mem) :
    Memory.wf (writeWord b r a d s w).mem := by
  simp only [writeWord]
  split
  · simpa using setBytes_wf _ s h
  · split
    · exact h
    · split
      · exact setBytes_wf _ s h
      · simpa using setBytes_wf _ { s with upset := mset s.upset w 0 0 } h
      · simpa using h

theorem bankWrite_wf (b r a : Nat) (d : List (Option Byte)) (s : State) (h : Memory.wf s.mem) :
    Memory.wf (bankWrite b r a d s).mem := by
  unfold bankWrite
  (try dsimp only)
  repeat' (first | with_reducible assumption | with_reducible refine ite_wf ?_ ?_ | with_reducible apply writeWord_wf | (simp; with_reducible assumption) | (with_reducible refine foldl_wf _ _ ?_ (fun _ _ _ => ?_)) | split | simp)

theorem zeroBank_wf (b : Nat) (s : State) (h : Memory.wf s.mem) : Memory.wf (zeroBank b s).mem :=
  mwf_mclear _ _ _ _ h

theorem startClear_wf (b : Nat) (s : State) (h : Memory.wf s.mem) :
    Memory.wf (startClear b s).mem := by
  unfold startClear
  (try dsimp only)
  repeat' (first | with_reducible assumption | with_reducible refine ite_wf ?_ ?_ | with_reducible apply zeroBank_wf | (simp; with_reducible assumption) | (with_reducible refine foldl_wf _ _ ?_ (fun _ _ _ => ?_)) | split | simp)

@[simp] theorem postReq_mem (b : Nat) (q : BankReq) (s : State) :
    (postReq b q s).mem = s.mem := by simp [postReq, apply_ite State.mem]

@[simp] theorem ownerBeats_mem (b a n : Nat) (s : State) :
    (ownerBeats b a n s).mem = s.mem := by simp [ownerBeats, apply_ite State.mem]

@[simp] theorem scrubLine_mem (b a : Nat) (s : State) :
    (scrubLine b a s).mem = s.mem := by
  unfold scrubLine
  (try dsimp only)
  repeat' (first
    | (simp; done) | (simp [*]; done)
    | with_reducible refine ite_mem ?_ ?_ | (with_reducible refine foldl_mem _ _ ?_ (fun _ _ _ => ?_)) | split | simp)

theorem traceWrite_wf (e : Nat) (s : State) (h : Memory.wf s.mem) :
    Memory.wf (traceWrite e s).mem := by
  unfold traceWrite
  (try dsimp only)
  repeat' (first | with_reducible assumption | with_reducible refine ite_wf ?_ ?_ | with_reducible apply bankWrite_wf | (simp; with_reducible assumption) | (with_reducible refine foldl_wf _ _ ?_ (fun _ _ _ => ?_)) | split | simp)

theorem dryLine_wf (e : Nat) (s : State) (h : Memory.wf s.mem) :
    Memory.wf (dryLine e s).mem := by
  unfold dryLine
  (try dsimp only)
  repeat' (first | with_reducible assumption | with_reducible refine ite_wf ?_ ?_ | with_reducible apply bankWrite_wf | (simp; with_reducible assumption) | (with_reducible refine foldl_wf _ _ ?_ (fun _ _ _ => ?_)) | split | simp)

@[simp] theorem complete_mem (c : Cpl) (s : State) :
    (complete c s).mem = s.mem := by simp [complete, apply_ite State.mem]

@[simp] theorem completeRead_mem (a : Nat) (c : Cpl) (s : State) :
    (completeRead a c s).mem = s.mem := rfl

@[simp] theorem aerNote_mem (k : Nat) (s : State) :
    (aerNote k s).mem = s.mem := rfl

@[simp] theorem hostGet_mem (a n : Nat) (s : State) : (hostGet a n s).2.2.mem = s.mem := by
  unfold hostGet; split
  · rfl
  · split <;> simp

theorem hostPut_wf (b a : Nat) (d : List (Option Byte)) (al : Bool) (x : BankReq × State) (h : Memory.wf x.2.mem) :
    Memory.wf (hostPut b a d al x).2.mem := by
  simp only [hostPut]
  exact bankWrite_wf _ _ _ _ _ (by split <;> simpa using h)

theorem aliasPut_wf (a : Nat) (d : List (Option Byte)) (x : BankReq × State) (h : Memory.wf x.2.mem) :
    Memory.wf (aliasPut a d x).2.mem := by
  unfold aliasPut
  split
  · exact h
  · split
    · exact hostPut_wf _ _ _ _ _ h
    · show Memory.wf (if x.1.bad then x.2 else werr 0 (bar2Ref a true) x.2).mem
      split <;> simpa using h

theorem performBeats_wf (b n : Nat) (q : BankReq) (s : State) (h : Memory.wf s.mem) :
    Memory.wf (performBeats b n q s).2.mem := by
  unfold performBeats
  split
  · split
    · refine foldl_inv (fun x : BankReq × State => Memory.wf x.2.mem) _ _ h fun x i hx => ?_
      simpa using hx
    · refine foldl_inv (fun x : BankReq × State => Memory.wf x.2.mem) _ _ h fun x i hx => ?_
      simpa using hx
  · split
    · exact foldl_inv (fun x : BankReq × State => Memory.wf x.2.mem) _ _ h fun x i hx => aliasPut_wf _ _ _ hx
    · exact foldl_inv (fun x : BankReq × State => Memory.wf x.2.mem) _ _ h fun x i hx => hostPut_wf _ _ _ _ _ hx
  · exact traceWrite_wf _ _ h
  · exact foldl_wf _ _ h fun t a ht => dryLine_wf _ _ ht
  · exact bankWrite_wf _ _ _ _ _ h
  · extract_lets x s1
    have h1 : Memory.wf s1.mem := by simpa [s1] using h
    simpa using h1
  · exact h

@[simp] theorem tracePost_mem (e c : Nat) (s : State) :
    (tracePost e c s).mem = s.mem := by simp [tracePost, apply_ite State.mem]

@[simp] theorem finishReq_mem (b : Nat) (q : BankReq) (s : State) :
    (finishReq b q s).mem = s.mem := by
  unfold finishReq
  (try dsimp only)
  repeat' (first
    | (simp; done) | (simp [*]; done)
    | with_reducible refine ite_mem ?_ ?_ | (with_reducible refine foldl_mem _ _ ?_ (fun _ _ _ => ?_)) | split | simp)

@[simp] theorem noteWait_mem (b r w : Nat) (s : State) :
    (noteWait b r w s).mem = s.mem := by simp [noteWait, apply_ite State.mem]

theorem grant_wf (b c : Nat) (q : BankReq) (s : State) (h : Memory.wf s.mem) :
    Memory.wf (grant b c q s).mem := by
  unfold grant
  (try dsimp only)
  repeat' (first | with_reducible assumption | with_reducible refine ite_wf ?_ ?_ | with_reducible apply performBeats_wf | (simp; with_reducible assumption) | (with_reducible refine foldl_wf _ _ ?_ (fun _ _ _ => ?_)) | split | simp)

theorem bankDecide_wf (b now : Nat) (s : State) (h : Memory.wf s.mem) :
    Memory.wf (bankDecide b now s).mem := by
  unfold bankDecide
  (try dsimp only)
  repeat' (first | with_reducible assumption | with_reducible refine ite_wf ?_ ?_ | with_reducible apply grant_wf | (simp; with_reducible assumption) | (with_reducible refine foldl_wf _ _ ?_ (fun _ _ _ => ?_)) | split | simp)

@[simp] theorem withdraw_mem (b : Nat) (p : BankReq → Bool) (s : State) :
    (withdraw b p s).mem = s.mem := by simp [withdraw, apply_ite State.mem]

@[simp] theorem engWithdraw_mem (e : Nat) (s : State) :
    (engWithdraw e s).mem = s.mem := by simp [engWithdraw, apply_ite State.mem]

@[simp] theorem scrub_mem (b : Nat) (s : State) :
    (scrub b s).mem = s.mem := by simp [scrub, apply_ite State.mem]

@[simp] theorem clearEnd_mem (b : Nat) (s : State) :
    (clearEnd b s).mem = s.mem := by simp [clearEnd, apply_ite State.mem]

@[simp] theorem dropPulse_mem (e : Nat) (s : State) :
    (dropPulse e s).mem = s.mem := by simp [dropPulse, apply_ite State.mem]

@[simp] theorem enterRoute_mem (e v : Nat) (s : State) :
    (enterRoute e v s).mem = s.mem := by simp [enterRoute, apply_ite State.mem]

@[simp] theorem enterField_mem (e v : Nat) (s : State) :
    (enterField e v s).mem = s.mem := by simp [enterField, apply_ite State.mem]

@[simp] theorem pulse_mem (src : Nat) (s : State) :
    (pulse src s).mem = s.mem := by
  unfold pulse
  (try dsimp only)
  repeat' (first
    | (simp; done) | (simp [*]; done)
    | with_reducible refine ite_mem ?_ ?_ | (with_reducible refine foldl_mem _ _ ?_ (fun _ _ _ => ?_)) | split | simp)

@[simp] theorem pulseAt_mem (src m : Nat) (s : State) :
    (pulseAt src m s).mem = s.mem := by simp [pulseAt, apply_ite State.mem]

@[simp] theorem pulsesDue_mem (s : State) :
    (pulsesDue s).mem = s.mem := by
  unfold pulsesDue
  (try dsimp only)
  repeat' (first
    | (simp; done) | (simp [*]; done)
    | with_reducible refine ite_mem ?_ ?_ | (with_reducible refine foldl_mem _ _ ?_ (fun _ _ _ => ?_)) | split | simp)

@[simp] theorem pulseArrives_mem (s : State) (r : Nat × List Nat) : (pulseArrives s r).mem = s.mem := by
  unfold pulseArrives
  extract_lets v d
  exact ite_mem (dropPulse_mem _ _) rfl

@[simp] theorem pulsesArrive_mem (s : State) : (pulsesArrive s).mem = s.mem :=
  foldl_mem _ _ rfl fun t r ht => (pulseArrives_mem t r).trans ht

@[simp] theorem cutPulses_mem (s : State) :
    (cutPulses s).mem = s.mem := by simp [cutPulses, apply_ite State.mem]

@[simp] theorem portError_mem (p : Nat) (s : State) :
    (portError p s).mem = s.mem := by simp [portError, apply_ite State.mem]

@[simp] theorem portFlag_mem (p : Nat) (F : Fld) (s : State) :
    (portFlag p F s).mem = s.mem := by simp [portFlag, apply_ite State.mem]

@[simp] theorem capDrop_mem (p : Nat) (s : State) :
    (capDrop p s).mem = s.mem := by simp [capDrop, apply_ite State.mem]

@[simp] theorem captureOn_mem (lane p ty : Nat) (t : Time) (edge : Bool) (aux : Nat) (s : State) :
    (captureOn lane p ty t edge aux s).mem = s.mem := by simp [captureOn, apply_ite State.mem]

@[simp] theorem capture_mem (p ty : Nat) (t : Time) (edge : Bool) (aux : Nat) (s : State) :
    (capture p ty t edge aux s).mem = s.mem := by simp [capture, apply_ite State.mem]

@[simp] theorem rawChange_mem (p : Nat) (l : Bool) (stamp : Time) (s : State) :
    (rawChange p l stamp s).mem = s.mem := by simp [rawChange, apply_ite State.mem]

@[simp] theorem outEdge_mem (p : Nat) (t : Time) (out drv : Bool) (s : State) :
    (outEdge p t out drv s).mem = s.mem := by simp [outEdge, apply_ite State.mem]

@[simp] theorem outChange_mem (p : Nat) (t : Time) (out drv : Bool) (s : State) :
    (outChange p t out drv s).mem = s.mem := by
  unfold outChange
  (try dsimp only)
  repeat' (first
    | (simp; done) | (simp [*]; done)
    | with_reducible refine ite_mem ?_ ?_ | (with_reducible refine foldl_mem _ _ ?_ (fun _ _ _ => ?_)) | split | simp)

@[simp] theorem outApply_mem (p : Nat) (t : Time) (out drv : Bool) (s : State) :
    (outApply p t out drv s).mem = s.mem := by
  unfold outApply
  (try dsimp only)
  repeat' (first
    | (simp; done) | (simp [*]; done)
    | with_reducible refine ite_mem ?_ ?_ | (with_reducible refine foldl_mem _ _ ?_ (fun _ _ _ => ?_)) | split | simp)

@[simp] theorem outGroup_mem (p : Nat) (t : Time) (out drv : Bool) (s : State) :
    (outGroup p t out drv s).mem = s.mem := by simp [outGroup, apply_ite State.mem]

@[simp] theorem outAction_mem (p code : Nat) (t : Time) (width : Nat) (s : State) :
    (outAction p code t width s).mem = s.mem := by simp [outAction, apply_ite State.mem]

@[simp] theorem toRest_mem (p : Nat) (t : Time) (s : State) :
    (toRest p t s).mem = s.mem := by simp [toRest, apply_ite State.mem]

@[simp] theorem lateOut_mem (p : Nat) (t : Time) (o : LateOut) (s : State) :
    (lateOut p t o s).mem = s.mem := by
  unfold lateOut
  (try dsimp only)
  repeat' (first
    | (simp; done) | (simp [*]; done)
    | with_reducible refine ite_mem ?_ ?_ | (with_reducible refine foldl_mem _ _ ?_ (fun _ _ _ => ?_)) | split | simp)

@[simp] theorem settleN_mem (p n : Nat) (s : State) : (settleN p n s).mem = s.mem := by
  induction n generalizing s with
  | zero => rfl
  | succ n ih =>
    simp only [settleN]
    split
    · rfl
    · exact ite_mem rfl (by simp [ih])

@[simp] theorem outSettle_mem (p : Nat) (s : State) :
    (outSettle p s).mem = s.mem := by
  unfold outSettle
  (try dsimp only)
  repeat' (first
    | (simp; done) | (simp [*]; done)
    | with_reducible refine ite_mem ?_ ?_ | (with_reducible refine foldl_mem _ _ ?_ (fun _ _ _ => ?_)) | split | simp)

@[simp] theorem outLater_mem (p : Nat) (t : Time) (o : LateOut) (s : State) :
    (outLater p t o s).mem = s.mem := by simp [outLater, apply_ite State.mem]

@[simp] theorem portsSettle_mem (s : State) :
    (portsSettle s).mem = s.mem := by
  unfold portsSettle
  (try dsimp only)
  repeat' (first
    | (simp; done) | (simp [*]; done)
    | with_reducible refine ite_mem ?_ ?_ | (with_reducible refine foldl_mem _ _ ?_ (fun _ _ _ => ?_)) | split | simp)

@[simp] theorem ctrApply_mem (p r : Nat) (ch : CtrChg) (s : State) :
    (ctrApply p r ch s).mem = s.mem := by simp [ctrApply, apply_ite State.mem]

@[simp] theorem stepAt_mem (p b : Nat) (c : StepCause) (s : State) :
    (stepAt p b c s).mem = s.mem := by simp [stepAt, apply_ite State.mem]

@[simp] theorem ctrLink_mem (j b csrc : Nat) (s : State) :
    (ctrLink j b csrc s).mem = s.mem := by
  unfold ctrLink
  (try dsimp only)
  repeat' (first
    | (simp; done) | (simp [*]; done)
    | with_reducible refine ite_mem ?_ ?_ | (with_reducible refine foldl_mem _ _ ?_ (fun _ _ _ => ?_)) | split | simp)

@[simp] theorem ctrOut_mem (p code : Nat) (t : Time) (s : State) :
    (ctrOut p code t s).mem = s.mem := by simp [ctrOut, apply_ite State.mem]

@[simp] theorem matchEvent_mem (p b : Nat) (t : Time) (s : State) :
    (matchEvent p b t s).mem = s.mem := by simp [matchEvent, apply_ite State.mem]

@[simp] theorem zeroEvent_mem (p b : Nat) (t : Time) (s : State) :
    (zeroEvent p b t s).mem = s.mem := by simp [zeroEvent, apply_ite State.mem]

@[simp] theorem counterClose_mem (p : Nat) (s : State) :
    (counterClose p s).mem = s.mem := by
  unfold counterClose
  (try dsimp only)
  repeat' (first
    | (simp; done) | (simp [*]; done)
    | with_reducible refine ite_mem ?_ ?_ | (with_reducible refine foldl_mem _ _ ?_ (fun _ _ _ => ?_)) | split | simp)

@[simp] theorem closeBelow_mem (n p : Nat) (s : State) : (closeBelow n p s).mem = s.mem := by
  induction n generalizing p s with
  | zero => rfl
  | succ n ih => unfold closeBelow; split <;> simp [ih]

theorem counterStep_wf (p : Nat) (s : State) (h : Memory.wf s.mem) : Memory.wf (counterStep p s).mem := by
  simpa [counterStep] using h

@[simp] theorem countLate_mem (p : Nat) (s : State) :
    (countLate p s).mem = s.mem := by simp [countLate, apply_ite State.mem]

@[simp] theorem qDrop_mem (p : Nat) (s : State) :
    (qDrop p s).mem = s.mem := by simp [qDrop, apply_ite State.mem]

@[simp] theorem badCode_mem (p : Nat) (s : State) :
    (badCode p s).mem = s.mem := by simp [badCode, apply_ite State.mem]

@[simp] theorem retMiss_mem (p : Nat) (s : State) :
    (retMiss p s).mem = s.mem := by simp [retMiss, apply_ite State.mem]

@[simp] theorem arrive_mem (p : Nat) (a : Action) (s : State) :
    (arrive p a s).mem = s.mem := by simp [arrive, apply_ite State.mem]

@[simp] theorem retime_mem (p : Nat) (a : Action) (s : State) :
    (retime p a s).mem = s.mem := by
  unfold retime
  (try dsimp only)
  repeat' (first
    | (simp; done) | (simp [*]; done)
    | with_reducible refine ite_mem ?_ ?_ | (with_reducible refine foldl_mem _ _ ?_ (fun _ _ _ => ?_)) | split | simp)

@[simp] theorem cancel_mem (p : Nat) (a : Action) (s : State) :
    (cancel p a s).mem = s.mem := by simp [cancel, apply_ite State.mem]

@[simp] theorem actEffect_mem (p : Nat) (a : Action) (t : Time) (s : State) :
    (actEffect p a t s).mem = s.mem := by
  unfold actEffect
  (try dsimp only)
  repeat' (first
    | (simp; done) | (simp [*]; done)
    | with_reducible refine ite_mem ?_ ?_ | (with_reducible refine foldl_mem _ _ ?_ (fun _ _ _ => ?_)) | split | simp)

@[simp] theorem runEntry_mem (p : Nat) (e : QEntry) (s : State) :
    (runEntry p e s).mem = s.mem := by simp [runEntry, apply_ite State.mem]

@[simp] theorem runAction_mem (code p : Nat) (s : State) :
    (runAction code p s).mem = s.mem := by
  unfold runAction
  (try dsimp only)
  repeat' (first
    | (simp; done) | (simp [*]; done)
    | with_reducible refine ite_mem ?_ ?_ | (with_reducible refine foldl_mem _ _ ?_ (fun _ _ _ => ?_)) | split | simp)

@[simp] theorem pulseEnd_mem (p : Nat) (s : State) :
    (pulseEnd p s).mem = s.mem := by
  unfold pulseEnd
  (try dsimp only)
  repeat' (first
    | (simp; done) | (simp [*]; done)
    | with_reducible refine ite_mem ?_ ?_ | (with_reducible refine foldl_mem _ _ ?_ (fun _ _ _ => ?_)) | split | simp)

@[simp] theorem heldEdge_mem (p : Nat) (s : State) :
    (heldEdge p s).mem = s.mem := by
  unfold heldEdge
  (try dsimp only)
  repeat' (first
    | (simp; done) | (simp [*]; done)
    | with_reducible refine ite_mem ?_ ?_ | (with_reducible refine foldl_mem _ _ ?_ (fun _ _ _ => ?_)) | split | simp)

@[simp] theorem inputEdge_mem (p : Nat) (lvl : Bool) (fine : Nat) (s : State) :
    (inputEdge p lvl fine s).mem = s.mem := by simp [inputEdge, apply_ite State.mem]

@[simp] theorem captureEdge_mem (p : Nat) (e : RawEdge) (s : State) :
    (captureEdge p e s).mem = s.mem := by simp [captureEdge, apply_ite State.mem]

@[simp] theorem ownErr_mem (ty idx port : Nat) (s : State) :
    (ownErr ty idx port s).mem = s.mem := by simp [ownErr, apply_ite State.mem]

@[simp] theorem sendRecord_mem (ready : Nat) (a : Action) (s : State) :
    (sendRecord ready a s).1.mem = s.mem := by
  unfold sendRecord
  (try dsimp only)
  repeat' (first
    | (simp; done) | (simp [*]; done)
    | with_reducible refine ite_mem ?_ ?_ | (with_reducible refine foldl_mem _ _ ?_ (fun _ _ _ => ?_)) | split | simp)

@[simp] theorem recDrop_mem (e : Nat) (s : State) :
    (recDrop e s).mem = s.mem := by simp [recDrop, apply_ite State.mem]

@[simp] theorem handOn_mem (e n ready : Nat) (t : Time) (a : Action) (s : State) :
    (handOn e n ready t a s).mem = s.mem := by simp [handOn, apply_ite State.mem]

@[simp] theorem handBatch_mem (e n ready : Nat) (t : Time) (batch : List Action) (s : State) :
    (handBatch e n ready t batch s).mem = s.mem := by
  unfold handBatch
  (try dsimp only)
  repeat' (first
    | (simp; done) | (simp [*]; done)
    | with_reducible refine ite_mem ?_ ?_ | (with_reducible refine foldl_mem _ _ ?_ (fun _ _ _ => ?_)) | split | simp)

@[simp] theorem takeTransit_mem (t : Transit) (s : State) :
    (takeTransit t s).mem = s.mem := by simp [takeTransit, apply_ite State.mem]

@[simp] theorem traceEntry_mem (e pcw ecyc data kind : Nat) (s : State) :
    (traceEntry e pcw ecyc data kind s).mem = s.mem := by simp [traceEntry, apply_ite State.mem]

@[simp] theorem lockAnswer_mem (q : LockReq) (v : Nat) (s : State) :
    (lockAnswer q v s).mem = s.mem := by
  unfold lockAnswer
  (try dsimp only)
  repeat' (first
    | (simp; done) | (simp [*]; done)
    | with_reducible refine ite_mem ?_ ?_ | (with_reducible refine foldl_mem _ _ ?_ (fun _ _ _ => ?_)) | split | simp)

@[simp] theorem lockServe_mem (l : List LockReq) (x : Lock) (s : State) : (lockServe l x s).2.mem = s.mem := by
  induction l generalizing x s with
  | nil => rfl
  | cons q l ih => simp [lockServe, ih]

@[simp] theorem lockAsk_mem (q : LockReq) (s : State) :
    (lockAsk q s).mem = s.mem := by simp [lockAsk, apply_ite State.mem]

@[simp] theorem lockAbandon_mem (c : Option Nat) (n k : Nat) (s : State) :
    (lockAbandon c n k s).mem = s.mem := by simp [lockAbandon, apply_ite State.mem]

@[simp] theorem releaseLocks_mem (c : Option Nat) (n : Nat) (s : State) :
    (releaseLocks c n s).mem = s.mem := by
  unfold releaseLocks
  (try dsimp only)
  repeat' (first
    | (simp; done) | (simp [*]; done)
    | with_reducible refine ite_mem ?_ ?_ | (with_reducible refine foldl_mem _ _ ?_ (fun _ _ _ => ?_)) | split | simp)

@[simp] theorem dropFar_mem (e : Nat) (s : State) :
    (dropFar e s).mem = s.mem := by
  unfold dropFar
  (try dsimp only)
  repeat' (first
    | (simp; done) | (simp [*]; done)
    | with_reducible refine ite_mem ?_ ?_ | (with_reducible refine foldl_mem _ _ ?_ (fun _ _ _ => ?_)) | split | simp)

@[simp] theorem leaveStandin_mem (st : EngState) (s : State) :
    (leaveStandin st s).mem = s.mem := by
  unfold leaveStandin
  (try dsimp only)
  repeat' (first
    | (simp; done) | (simp [*]; done)
    | with_reducible refine ite_mem ?_ ?_ | (with_reducible refine foldl_mem _ _ ?_ (fun _ _ _ => ?_)) | split | simp)

@[simp] theorem endStandin_mem (s : State) :
    (endStandin s).mem = s.mem := by simp [endStandin, apply_ite State.mem]

@[simp] theorem engineFault_mem (e code pcw ecyc t0 : Nat) (r : Option Run) (take : Bool) (s : State) :
    (engineFault e code pcw ecyc t0 r take s).mem = s.mem := by simp [engineFault, apply_ite State.mem]

@[simp] theorem runFault_mem (e : Nat) (r : Run) (code d : Nat) (s : State) :
    (runFault e r code d s).mem = s.mem := by simp [runFault, apply_ite State.mem]

@[simp] theorem engineReset_mem (e : Nat) (s : State) :
    (engineReset e s).mem = s.mem := by
  unfold engineReset
  (try dsimp only)
  repeat' (first
    | (simp; done) | (simp [*]; done)
    | with_reducible refine ite_mem ?_ ?_ | (with_reducible refine foldl_mem _ _ ?_ (fun _ _ _ => ?_)) | split | simp)

@[simp] theorem startRun_mem (e : Nat) (r : Run) (s : State) :
    (startRun e r s).mem = s.mem := by simp [startRun, apply_ite State.mem]

@[simp] theorem fetch_mem (e : Nat) (r : Run) (s : State) :
    (fetch e r s).2.mem = s.mem := by
  unfold fetch
  (try dsimp only)
  repeat' (first
    | (simp; done) | (simp [*]; done)
    | (have := bankRead_mem_eq ‹_›; simp_all; done) | (rw [← bankRead_mem_eq ‹_›]) | with_reducible refine ite_mem ?_ ?_ | (with_reducible refine foldl_mem _ _ ?_ (fun _ _ _ => ?_)) | split | simp)

@[simp] theorem advance_mem (e : Nat) (r : Run) (n a : Nat) (s : State) :
    (advance e r n a s).mem = s.mem := by simp [advance, apply_ite State.mem]

@[simp] theorem advanceNext_mem (e : Nat) (r : Run) (c : Coil) (s : State) :
    (advanceNext e r c s).mem = s.mem := by simp [advanceNext, apply_ite State.mem]

@[simp] theorem writeRd_mem (e : Nat) (r : Run) (c : Coil) (rd : Nat) (v : DWord) (s : State) :
    (writeRd e r c rd v s).mem = s.mem := by simp [writeRd, apply_ite State.mem]

@[simp] theorem setEstat_mem (e bit : Nat) (s : State) :
    (setEstat e bit s).mem = s.mem := by simp [setEstat, apply_ite State.mem]

@[simp] theorem nearBeat_mem (e c0 : Nat) (s : State) :
    (nearBeat e c0 s).mem = s.mem := by simp [nearBeat, apply_ite State.mem]

@[simp] theorem doLd_mem (e : Nat) (r : Run) (c : Coil) (rd ra size : Nat) (sgn pair rot : Bool) (off : Nat) (s : State) :
    (doLd e r c rd ra size sgn pair rot off s).mem = s.mem := by
  unfold doLd
  (try dsimp only)
  repeat' (first
    | (simp; done) | (simp [*]; done)
    | (have := bankRead_mem_eq ‹_›; simp_all; done) | (rw [← bankRead_mem_eq ‹_›]) | with_reducible refine ite_mem ?_ ?_ | (with_reducible refine foldl_mem _ _ ?_ (fun _ _ _ => ?_)) | split | simp)

theorem doSt_wf (e : Nat) (r : Run) (c : Coil) (rs ra size : Nat) (pair rot : Bool) (off : Nat) (s : State) (h : Memory.wf s.mem) :
    Memory.wf (doSt e r c rs ra size pair rot off s).mem := by
  unfold doSt
  (try dsimp only)
  repeat' (first | with_reducible assumption | with_reducible refine ite_wf ?_ ?_ | with_reducible apply bankWrite_wf | (simp; with_reducible assumption) | (with_reducible refine foldl_wf _ _ ?_ (fun _ _ _ => ?_)) | split | simp)

@[simp] theorem doFar_mem (e : Nat) (r : Run) (store : Bool) (rg ra size : Nat) (sgn pair : Bool) (lim off : Nat) (s : State) :
    (doFar e r store rg ra size sgn pair lim off s).mem = s.mem := by
  unfold doFar
  (try dsimp only)
  repeat' (first
    | (simp; done) | (simp [*]; done)
    | with_reducible refine ite_mem ?_ ?_ | (with_reducible refine foldl_mem _ _ ?_ (fun _ _ _ => ?_)) | split | simp)

@[simp] theorem addRecord_mem (e : Nat) (r : Run) (c : Coil) (a : Action) (s : State) :
    (addRecord e r c a s).mem = s.mem := by simp [addRecord, apply_ite State.mem]

@[simp] theorem doLoop_mem (e : Nat) (r : Run) (c : Coil) (ra mx len : Nat) (s : State) :
    (doLoop e r c ra mx len s).mem = s.mem := by simp [doLoop, apply_ite State.mem]

@[simp] theorem dryWrite_mem (e n : Nat) (batch : List Action) (s : State) :
    (dryWrite e n batch s).mem = s.mem := by simp [dryWrite, apply_ite State.mem]

@[simp] theorem afterDetached_mem (r : Run) (s : State) :
    (afterDetached r s).mem = s.mem := by
  unfold afterDetached
  (try dsimp only)
  repeat' (first
    | (simp; done) | (simp [*]; done)
    | with_reducible refine ite_mem ?_ ?_ | (with_reducible refine foldl_mem _ _ ?_ (fun _ _ _ => ?_)) | split | simp)

@[simp] theorem doSeal_mem (e : Nat) (r : Run) (s : State) :
    (doSeal e r s).mem = s.mem := by simp [doSeal, apply_ite State.mem]

@[simp] theorem doRet_mem (e : Nat) (r : Run) (c : Coil) (s : State) :
    (doRet e r c s).mem = s.mem := by
  unfold doRet
  (try dsimp only)
  repeat' (first
    | (simp; done) | (simp [*]; done)
    | with_reducible refine ite_mem ?_ ?_ | (with_reducible refine foldl_mem _ _ ?_ (fun _ _ _ => ?_)) | split | simp)

theorem coilRun_wf (e : Nat) (r : Run) (c : Coil) (s : State) (h : Memory.wf s.mem) :
    Memory.wf (coilRun e r c s).mem := by
  unfold coilRun
  (try dsimp only)
  repeat' (first | with_reducible assumption | with_reducible refine ite_wf ?_ ?_ | with_reducible apply doSt_wf | (simp; with_reducible assumption) | (with_reducible refine foldl_wf _ _ ?_ (fun _ _ _ => ?_)) | split | simp)

theorem coilStep_wf (e : Nat) (c : Coil) (s : State) (h : Memory.wf s.mem) :
    Memory.wf (coilStep e c s).mem := by
  unfold coilStep
  (try dsimp only)
  repeat' (first | with_reducible assumption | with_reducible refine ite_wf ?_ ?_ | with_reducible apply coilRun_wf | (simp; with_reducible assumption) | (with_reducible refine foldl_wf _ _ ?_ (fun _ _ _ => ?_)) | split | simp)

@[simp] theorem setChSt_mem (c v : Nat) (s : State) :
    (setChSt c v s).mem = s.mem := by simp [setChSt, apply_ite State.mem]

@[simp] theorem rejectDesc_mem (c code at_ : Nat) (s : State) :
    (rejectDesc c code at_ s).mem = s.mem := by simp [rejectDesc, apply_ite State.mem]

@[simp] theorem beginFetch_mem (c at_ : Nat) (s : State) :
    (beginFetch c at_ s).mem = s.mem := by simp [beginFetch, apply_ite State.mem]

@[simp] theorem dmaGo_mem (req c : Nat) (s : State) :
    (dmaGo req c s).mem = s.mem := by simp [dmaGo, apply_ite State.mem]

@[simp] theorem chanEnable_mem (req c : Nat) (s : State) :
    (chanEnable req c s).mem = s.mem := by
  unfold chanEnable
  (try dsimp only)
  repeat' (first
    | (simp; done) | (simp [*]; done)
    | with_reducible refine ite_mem ?_ ?_ | (with_reducible refine foldl_mem _ _ ?_ (fun _ _ _ => ?_)) | split | simp)

@[simp] theorem modDesc_mem (c num : Nat) (f : Desc → Desc) (s : State) :
    (modDesc c num f s).mem = s.mem := by simp [modDesc, apply_ite State.mem]

@[simp] theorem uncount_mem (p : DmaComp) (s : State) :
    (uncount p s).mem = s.mem := by
  unfold uncount
  (try dsimp only)
  repeat' (first
    | (simp; done) | (simp [*]; done)
    | with_reducible refine ite_mem ?_ ?_ | (with_reducible refine foldl_mem _ _ ?_ (fun _ _ _ => ?_)) | split | simp)

@[simp] theorem undoComp_mem (s : State) (p : DmaComp) :
    (undoComp s p).mem = s.mem := by
  unfold undoComp
  extract_lets c s1 s2 own s3 s4
  have h1 : s1.mem = s.mem := uncount_mem _ _
  have h3 : s3.mem = s.mem := ite_mem (by simp [s2, h1]) (by simp [s2, h1])
  have h4 : s4.mem = s.mem := ite_mem (by simp [h3]) h3
  exact ite_mem (by simp [h1]) (by simp [h4])

@[simp] theorem undoComps_mem (s : State) : (undoComps s).mem = s.mem := by
  unfold undoComps
  exact foldl_mem _ _ rfl fun t p ht => (undoComp_mem t p).trans ht

@[simp] theorem busError_mem (x : Xact) (kind addr : Nat) (s : State) :
    (busError x kind addr s).mem = s.mem := by
  unfold busError
  (try dsimp only)
  repeat' (first
    | (simp; done) | (simp [*]; done)
    | with_reducible refine ite_mem ?_ ?_ | (with_reducible refine foldl_mem _ _ ?_ (fun _ _ _ => ?_)) | split | simp)

@[simp] theorem noteIssue_mem (x : Xact) (s : State) :
    (noteIssue x s).mem = s.mem := by
  unfold noteIssue
  (try dsimp only)
  repeat' (first
    | (simp; done) | (simp [*]; done)
    | (have := fetch_mem_eq ‹_›; simp_all; done) | (rw [← fetch_mem_eq ‹_›]) | with_reducible refine ite_mem ?_ ?_ | (with_reducible refine foldl_mem _ _ ?_ (fun _ _ _ => ?_)) | split | simp)

@[simp] theorem handXact_mem (x : Xact) (s : State) :
    (handXact x s).mem = s.mem := by
  unfold handXact
  (try dsimp only)
  repeat' (first
    | (simp; done) | (simp [*]; done)
    | (have := fetch_mem_eq ‹_›; simp_all; done) | (rw [← fetch_mem_eq ‹_›]) | with_reducible refine ite_mem ?_ ?_ | (with_reducible refine foldl_mem _ _ ?_ (fun _ _ _ => ?_)) | split | simp)

@[simp] theorem xactIssue_mem (s : State) :
    (xactIssue s).mem = s.mem := by
  unfold xactIssue
  (try dsimp only)
  repeat' (first
    | (simp; done) | (simp [*]; done)
    | with_reducible refine ite_mem ?_ ?_ | (with_reducible refine foldl_mem _ _ ?_ (fun _ _ _ => ?_)) | split | simp)

@[simp] theorem chanAdvance_mem (c : Nat) (s : State) :
    (chanAdvance c s).mem = s.mem := by
  unfold chanAdvance
  (try dsimp only)
  repeat' (first
    | (simp; done) | (simp [*]; done)
    | (have := fetch_mem_eq ‹_›; simp_all; done) | (rw [← fetch_mem_eq ‹_›]) | with_reducible refine ite_mem ?_ ?_ | (with_reducible refine foldl_mem _ _ ?_ (fun _ _ _ => ?_)) | split | simp)

@[simp] theorem dataBack_mem (x : Xact) (l : List Byte) (s : State) :
    (dataBack x l s).mem = s.mem := by
  unfold dataBack
  (try dsimp only)
  repeat' (first
    | (simp; done) | (simp [*]; done)
    | (have := fetch_mem_eq ‹_›; simp_all; done) | (rw [← fetch_mem_eq ‹_›]) | with_reducible refine ite_mem ?_ ?_ | (with_reducible refine foldl_mem _ _ ?_ (fun _ _ _ => ?_)) | split | simp)

@[simp] theorem freeXact_mem (x : Xact) (s : State) :
    (freeXact x s).mem = s.mem := by simp [freeXact, apply_ite State.mem]

@[simp] theorem descFetch_mem (c : Nat) (s : State) :
    (descFetch c s).mem = s.mem := by
  unfold descFetch
  (try dsimp only)
  repeat' (first
    | (simp; done) | (simp [*]; done)
    | with_reducible refine ite_mem ?_ ?_ | (with_reducible refine foldl_mem _ _ ?_ (fun _ _ _ => ?_)) | split | simp)

@[simp] theorem xferStart_mem (c : Nat) (s : State) :
    (xferStart c s).mem = s.mem := by
  unfold xferStart
  (try dsimp only)
  repeat' (first
    | (simp; done) | (simp [*]; done)
    | with_reducible refine ite_mem ?_ ?_ | (with_reducible refine foldl_mem _ _ ?_ (fun _ _ _ => ?_)) | split | simp)

@[simp] theorem descComplete_mem (c : Nat) (s : State) :
    (descComplete c s).mem = s.mem := by
  unfold descComplete
  (try dsimp only)
  repeat' (first
    | (simp; done) | (simp [*]; done)
    | with_reducible refine ite_mem ?_ ?_ | (with_reducible refine foldl_mem _ _ ?_ (fun _ _ _ => ?_)) | split | simp)

@[simp] theorem dmaTrigger_mem (c : Nat) (s : State) :
    (dmaTrigger c s).mem = s.mem := by simp [dmaTrigger, apply_ite State.mem]

@[simp] theorem trigClr_mem (c : Nat) (s : State) :
    (trigClr c s).mem = s.mem := by simp [trigClr, apply_ite State.mem]

theorem drawBytes_wf (a n : Nat) (s : State) (h : Memory.wf s.mem) : Memory.wf (drawBytes a n s).mem := by
  induction n generalizing a s with
  | zero => exact h
  | succ n ih => exact ih _ _ (mwf_mset _ _ _ _ h)

@[simp] theorem undefReg_mem (off : Nat) (s : State) :
    (undefReg off s).mem = s.mem := by
  unfold undefReg
  (try dsimp only)
  repeat' (first
    | (simp; done) | (simp [*]; done)
    | with_reducible refine ite_mem ?_ ?_ | (with_reducible refine foldl_mem _ _ ?_ (fun _ _ _ => ?_)) | split | simp)

@[simp] theorem undefRegs_mem (off n : Nat) (s : State) :
    (undefRegs off n s).mem = s.mem := by
  unfold undefRegs
  (try dsimp only)
  repeat' (first
    | (simp; done) | (simp [*]; done)
    | with_reducible refine ite_mem ?_ ?_ | (with_reducible refine foldl_mem _ _ ?_ (fun _ _ _ => ?_)) | split | simp)

theorem undefRange_wf (a n : Nat) (s : State) (h : Memory.wf s.mem) : Memory.wf (undefRange a n s).mem := by
  unfold undefRange
  generalize hlyRegion a n = r
  exact ite_wf h (ite_wf (by rw [undefRegs_mem]; exact h) (drawBytes_wf _ _ _ h))

theorem chanDisable_wf (c : Nat) (s : State) (h : Memory.wf s.mem) :
    Memory.wf (chanDisable c s).mem := by
  unfold chanDisable
  (try dsimp only)
  repeat' (first | with_reducible assumption | with_reducible refine ite_wf ?_ ?_ | with_reducible apply undefRange_wf | (simp; with_reducible assumption) | (with_reducible refine foldl_wf _ _ ?_ (fun _ _ _ => ?_)) | split | simp)

theorem disableDrained_wf (c : Nat) (s : State) (h : Memory.wf s.mem) :
    Memory.wf (disableDrained c s).mem := by
  unfold disableDrained
  (try dsimp only)
  repeat' (first | with_reducible assumption | with_reducible refine ite_wf ?_ ?_ | with_reducible apply undefRange_wf | (simp; with_reducible assumption) | (with_reducible refine foldl_wf _ _ ?_ (fun _ _ _ => ?_)) | split | simp)

@[simp] theorem busErrClear_mem (req : Nat) (s : State) :
    (busErrClear req s).mem = s.mem := by simp [busErrClear, apply_ite State.mem]

@[simp] theorem cdescWrite_mem (req c v : Nat) (s : State) :
    (cdescWrite req c v s).mem = s.mem := by simp [cdescWrite, apply_ite State.mem]

@[simp] theorem ccntWrite_mem (c v : Nat) (s : State) :
    (ccntWrite c v s).mem = s.mem := by simp [ccntWrite, apply_ite State.mem]

theorem cctrlWrite_wf (req c v : Nat) (s : State) (h : Memory.wf s.mem) :
    Memory.wf (cctrlWrite req c v s).mem := by
  unfold cctrlWrite
  (try dsimp only)
  repeat' (first | with_reducible assumption | with_reducible refine ite_wf ?_ ?_ | with_reducible apply chanDisable_wf | (simp; with_reducible assumption) | (with_reducible refine foldl_wf _ _ ?_ (fun _ _ _ => ?_)) | split | simp)

@[simp] theorem lgcStop_mem (n : Nat) (s : State) :
    (lgcStop n s).mem = s.mem := by simp [lgcStop, apply_ite State.mem]

@[simp] theorem lgcEnable_mem (n : Nat) (idle : Bool) (s : State) :
    (lgcEnable n idle s).mem = s.mem := by simp [lgcEnable, apply_ite State.mem]

@[simp] theorem lgcDisable_mem (n : Nat) (s : State) :
    (lgcDisable n s).mem = s.mem := by simp [lgcDisable, apply_ite State.mem]

@[simp] theorem lgcFlush_mem (n : Nat) (s : State) :
    (lgcFlush n s).mem = s.mem := by simp [lgcFlush, apply_ite State.mem]

@[simp] theorem lgcTimersOff_mem (b : Nat) (s : State) :
    (lgcTimersOff b s).mem = s.mem := by
  unfold lgcTimersOff
  (try dsimp only)
  repeat' (first
    | (simp; done) | (simp [*]; done)
    | with_reducible refine ite_mem ?_ ?_ | (with_reducible refine foldl_mem _ _ ?_ (fun _ _ _ => ?_)) | split | simp)

@[simp] theorem lgcBankOff_mem (b : Nat) (s : State) :
    (lgcBankOff b s).mem = s.mem := by simp [lgcBankOff, apply_ite State.mem]

@[simp] theorem lgcBoundary_mem (B : Time) (P : Nat) (s : State) :
    (lgcBoundary B P s).mem = s.mem := by
  unfold lgcBoundary
  (try dsimp only)
  repeat' (first
    | (simp; done) | (simp [*]; done)
    | with_reducible refine ite_mem ?_ ?_ | (with_reducible refine foldl_mem _ _ ?_ (fun _ _ _ => ?_)) | split | simp)

@[simp] theorem lgcChannel_mem (w : LegWin) (now : Time) (j : LegJob) (s : State) :
    (lgcChannel w now j s).mem = s.mem := by
  unfold lgcChannel
  (try dsimp only)
  repeat' (first
    | (simp; done) | (simp [*]; done)
    | with_reducible refine ite_mem ?_ ?_ | (with_reducible refine foldl_mem _ _ ?_ (fun _ _ _ => ?_)) | split | simp)

@[simp] theorem lgcIssue_mem (s : State) :
    (lgcIssue s).mem = s.mem := by
  unfold lgcIssue
  (try dsimp only)
  repeat' (first
    | (simp; done) | (simp [*]; done)
    | with_reducible refine ite_mem ?_ ?_ | (with_reducible refine foldl_mem _ _ ?_ (fun _ _ _ => ?_)) | split | simp)

@[simp] theorem lgcCapture_mem (r : CapRec) (s : State) :
    (lgcCapture r s).mem = s.mem := by
  unfold lgcCapture
  (try dsimp only)
  repeat' (first
    | (simp; done) | (simp [*]; done)
    | with_reducible refine ite_mem ?_ ?_ | (with_reducible refine foldl_mem _ _ ?_ (fun _ _ _ => ?_)) | split | simp)

@[simp] theorem shvPulse_mem (u k b : Nat) (s : State) :
    (shvPulse u k b s).mem = s.mem := by simp [shvPulse, apply_ite State.mem]

@[simp] theorem shvRec_mem (u ty : Nat) (t : Time) (port : Nat) (edge : Bool) (aux : Nat) (s : State) :
    (shvRec u ty t port edge aux s).mem = s.mem := by simp [shvRec, apply_ite State.mem]

@[simp] theorem shvErr_mem (u code : Nat) (t : Time) (s : State) :
    (shvErr u code t s).mem = s.mem := by simp [shvErr, apply_ite State.mem]

@[simp] theorem compareStep_mem (u c p q : Nat) (d : Int) (t : Time) (b : Nat) (s : State) :
    (compareStep u c p q d t b s).mem = s.mem := by simp [compareStep, apply_ite State.mem]

@[simp] theorem step48_mem (u : Nat) (d : Int) (t : Time) (b : Nat) (s : State) :
    (step48 u d t b s).mem = s.mem := by
  unfold step48
  (try dsimp only)
  repeat' (first
    | (simp; done) | (simp [*]; done)
    | with_reducible refine ite_mem ?_ ?_ | (with_reducible refine foldl_mem _ _ ?_ (fun _ _ _ => ?_)) | split | simp)

@[simp] theorem illegalStep_mem (u b : Nat) (s : State) :
    (illegalStep u b s).mem = s.mem := by simp [illegalStep, apply_ite State.mem]

@[simp] theorem loadPos_mem (u v : Nat) (s : State) :
    (loadPos u v s).mem = s.mem := by simp [loadPos, apply_ite State.mem]

@[simp] theorem applyWrites_mem (u : Nat) (s : State) :
    (applyWrites u s).mem = s.mem := by
  unfold applyWrites
  (try dsimp only)
  repeat' (first
    | (simp; done) | (simp [*]; done)
    | with_reducible refine ite_mem ?_ ?_ | (with_reducible refine foldl_mem _ _ ?_ (fun _ _ _ => ?_)) | split | simp)

@[simp] theorem speedWindow_mem (u : Nat) (s : State) :
    (speedWindow u s).mem = s.mem := by
  unfold speedWindow
  (try dsimp only)
  repeat' (first
    | (simp; done) | (simp [*]; done)
    | with_reducible refine ite_mem ?_ ?_ | (with_reducible refine foldl_mem _ _ ?_ (fun _ _ _ => ?_)) | split | simp)

@[simp] theorem unitTick_mem (u : Nat) (B : Time) (s : State) :
    (unitTick u B s).mem = s.mem := by simp [unitTick, apply_ite State.mem]

@[simp] theorem sheaveTick_mem (B : Time) (s : State) :
    (sheaveTick B s).mem = s.mem := by
  unfold sheaveTick
  (try dsimp only)
  repeat' (first
    | (simp; done) | (simp [*]; done)
    | with_reducible refine ite_mem ?_ ?_ | (with_reducible refine foldl_mem _ _ ?_ (fun _ _ _ => ?_)) | split | simp)

@[simp] theorem beforeSample_mem (u : Nat) (s : State) :
    (beforeSample u s).mem = s.mem := by
  unfold beforeSample
  (try dsimp only)
  repeat' (first
    | (simp; done) | (simp [*]; done)
    | with_reducible refine ite_mem ?_ ?_ | (with_reducible refine foldl_mem _ _ ?_ (fun _ _ _ => ?_)) | split | simp)

@[simp] theorem driftCheck_mem (u : Nat) (b : Nat) (s : State) :
    (driftCheck u b s).mem = s.mem := by simp [driftCheck, apply_ite State.mem]

@[simp] theorem indexEdge_mem (u : Nat) (t : Time) (b : Nat) (s : State) :
    (indexEdge u t b s).mem = s.mem := by simp [indexEdge, apply_ite State.mem]

@[simp] theorem quadAt_mem (u b : Nat) (es : List ShvEdge) (s : State) :
    (quadAt u b es s).mem = s.mem := by
  unfold quadAt
  (try dsimp only)
  repeat' (first
    | (simp; done) | (simp [*]; done)
    | with_reducible refine ite_mem ?_ ?_ | (with_reducible refine foldl_mem _ _ ?_ (fun _ _ _ => ?_)) | split | simp)

@[simp] theorem quadSample_mem (u : Nat) (s : State) :
    (quadSample u s).mem = s.mem := by
  unfold quadSample
  (try dsimp only)
  repeat' (first
    | (simp; done) | (simp [*]; done)
    | with_reducible refine ite_mem ?_ ?_ | (with_reducible refine foldl_mem _ _ ?_ (fun _ _ _ => ?_)) | split | simp)

@[simp] theorem scAdapt_mem (u : Nat) (l : ShvLine) (s : State) :
    (scAdapt u l s).mem = s.mem := by simp [scAdapt, apply_ite State.mem]

@[simp] theorem lineStep_mem (u p : Nat) (d : Int) (sn cs : Int) (s : State) :
    (lineStep u p d sn cs s).mem = s.mem := by
  unfold lineStep
  (try dsimp only)
  repeat' (first
    | (simp; done) | (simp [*]; done)
    | with_reducible refine ite_mem ?_ ?_ | (with_reducible refine foldl_mem _ _ ?_ (fun _ _ _ => ?_)) | split | simp)

@[simp] theorem countOnlyEntry_mem (u : Nat) (s : State) :
    (countOnlyEntry u s).mem = s.mem := by simp [countOnlyEntry, apply_ite State.mem]

@[simp] theorem amplitude_mem (u r b : Nat) (s : State) :
    (amplitude u r b s).mem = s.mem := by simp [amplitude, apply_ite State.mem]

@[simp] theorem sincosPair_mem (u : Nat) (sn cs : Int) (s : State) :
    (sincosPair u sn cs s).mem = s.mem := by simp [sincosPair, apply_ite State.mem]

@[simp] theorem comparatorSample_mem (u : Nat) (sneg clow : Bool) (s : State) :
    (comparatorSample u sneg clow s).mem = s.mem := by simp [comparatorSample, apply_ite State.mem]

@[simp] theorem ssiClock_mem (u : Nat) (lvl : Bool) (s : State) :
    (ssiClock u lvl s).mem = s.mem := by simp [ssiClock, apply_ite State.mem]

@[simp] theorem ssiMiss_mem (u code : Nat) (F : Fld) (s : State) :
    (ssiMiss u code F s).mem = s.mem := by simp [ssiMiss, apply_ite State.mem]

@[simp] theorem ssiStart_mem (u : Nat) (s : State) :
    (ssiStart u s).mem = s.mem := by
  unfold ssiStart
  (try dsimp only)
  repeat' (first
    | (simp; done) | (simp [*]; done)
    | with_reducible refine ite_mem ?_ ?_ | (with_reducible refine foldl_mem _ _ ?_ (fun _ _ _ => ?_)) | split | simp)

@[simp] theorem ssiBoundary_mem (u : Nat) (s : State) :
    (ssiBoundary u s).mem = s.mem := by
  unfold ssiBoundary
  (try dsimp only)
  repeat' (first
    | (simp; done) | (simp [*]; done)
    | with_reducible refine ite_mem ?_ ?_ | (with_reducible refine foldl_mem _ _ ?_ (fun _ _ _ => ?_)) | split | simp)

@[simp] theorem ssiRun_mem (s : State) :
    (ssiRun s).mem = s.mem := by
  unfold ssiRun
  (try dsimp only)
  repeat' (first
    | (simp; done) | (simp [*]; done)
    | with_reducible refine ite_mem ?_ ?_ | (with_reducible refine foldl_mem _ _ ?_ (fun _ _ _ => ?_)) | split | simp)

@[simp] theorem ssiTake_mem (u n w : Nat) (t0 : Time) (s : State) :
    (ssiTake u n w t0 s).mem = s.mem := by simp [ssiTake, apply_ite State.mem]

@[simp] theorem ssiRecord_mem (u : Nat) (t0 : Time) (s : State) :
    (ssiRecord u t0 s).mem = s.mem := by simp [ssiRecord, apply_ite State.mem]

@[simp] theorem ssiEnd_mem (u : Nat) (bits : DWord) (s : State) : (ssiEnd u bits s).mem = s.mem := by
  unfold ssiEnd
  split
  · rfl
  · extract_lets l v n k t0 s1 s2 data g w
    refine ite_mem rfl ?_
    have h2 : s2.mem = s.mem := by simp [s2, s1]
    exact ite_mem (by simpa using h2) (by simpa using h2)

@[simp] theorem positionLoad_mem (u v : Nat) (s : State) :
    (positionLoad u v s).mem = s.mem := by simp [positionLoad, apply_ite State.mem]

@[simp] theorem compareValue_mem (u c v : Nat) (s : State) :
    (compareValue u c v s).mem = s.mem := by simp [compareValue, apply_ite State.mem]

@[simp] theorem standstill_mem (u : Nat) (s : State) :
    (standstill u s).mem = s.mem := by
  unfold standstill
  (try dsimp only)
  repeat' (first
    | (simp; done) | (simp [*]; done)
    | with_reducible refine ite_mem ?_ ?_ | (with_reducible refine foldl_mem _ _ ?_ (fun _ _ _ => ?_)) | split | simp)

@[simp] theorem sheaveHalt_mem (u : Nat) (s : State) :
    (sheaveHalt u s).mem = s.mem := by simp [sheaveHalt, apply_ite State.mem]

@[simp] theorem sheavesHalt_mem (s : State) :
    (sheavesHalt s).mem = s.mem := by
  unfold sheavesHalt
  (try dsimp only)
  repeat' (first
    | (simp; done) | (simp [*]; done)
    | with_reducible refine ite_mem ?_ ?_ | (with_reducible refine foldl_mem _ _ ?_ (fun _ _ _ => ?_)) | split | simp)

@[simp] theorem sheaveEnable_mem (u : Nat) (s : State) :
    (sheaveEnable u s).mem = s.mem := by simp [sheaveEnable, apply_ite State.mem]

@[simp] theorem sheaveStop_mem (u : Nat) (s : State) :
    (sheaveStop u s).mem = s.mem := by simp [sheaveStop, apply_ite State.mem]

@[simp] theorem sheaveOwners_mem (s : State) :
    (sheaveOwners s).mem = s.mem := by
  unfold sheaveOwners
  (try dsimp only)
  repeat' (first
    | (simp; done) | (simp [*]; done)
    | with_reducible refine ite_mem ?_ ?_ | (with_reducible refine foldl_mem _ _ ?_ (fun _ _ _ => ?_)) | split | simp)

@[simp] theorem shvClr_mem (u v : Nat) (s : State) :
    (shvClr u v s).mem = s.mem := by simp [shvClr, apply_ite State.mem]

@[simp] theorem sheaveApplied_mem (u oldWin oldCpr : Nat) (s : State) :
    (sheaveApplied u oldWin oldCpr s).mem = s.mem := by simp [sheaveApplied, apply_ite State.mem]

@[simp] theorem timebaseLoad_mem (t : Time) (s : State) :
    (timebaseLoad t s).mem = s.mem := by simp [timebaseLoad, apply_ite State.mem]

@[simp] theorem sheaveBoundary_mem (s : State) :
    (sheaveBoundary s).mem = s.mem := by
  unfold sheaveBoundary
  (try dsimp only)
  repeat' (first
    | (simp; done) | (simp [*]; done)
    | with_reducible refine ite_mem ?_ ?_ | (with_reducible refine foldl_mem _ _ ?_ (fun _ _ _ => ?_)) | split | simp)

@[simp] theorem countOn_mem (s : State) :
    (countOn s).mem = s.mem := by simp [countOn, apply_ite State.mem]

@[simp] theorem mastCycle_mem (s : State) :
    (mastCycle s).mem = s.mem := by simp [mastCycle, apply_ite State.mem]

@[simp] theorem timebaseStart_mem (s : State) :
    (timebaseStart s).mem = s.mem := by simp [timebaseStart, apply_ite State.mem]

@[simp] theorem timebaseStop_mem (req : Nat) (s : State) :
    (timebaseStop req s).mem = s.mem := by simp [timebaseStop, apply_ite State.mem]

@[simp] theorem referenceLost_mem (s : State) :
    (referenceLost s).mem = s.mem := by simp [referenceLost, apply_ite State.mem]

@[simp] theorem referenceValid_mem (s : State) :
    (referenceValid s).mem = s.mem := by simp [referenceValid, apply_ite State.mem]

@[simp] theorem refselApplied_mem (old : Nat) (s : State) :
    (refselApplied old s).mem = s.mem := by simp [refselApplied, apply_ite State.mem]

@[simp] theorem pllLock_mem (s : State) :
    (pllLock s).mem = s.mem := by simp [pllLock, apply_ite State.mem]

@[simp] theorem ppsEdge_mem (rising : Bool) (fine : Nat) (s : State) :
    (ppsEdge rising fine s).mem = s.mem := by simp [ppsEdge, apply_ite State.mem]

@[simp] theorem fieldRealign_mem (resid : Int) (s : State) :
    (fieldRealign resid s).mem = s.mem := by simp [fieldRealign, apply_ite State.mem]

@[simp] theorem setDepth_mem (d : Nat) (s : State) :
    (setDepth d s).mem = s.mem := by simp [setDepth, apply_ite State.mem]

@[simp] theorem opBusyEnd_mem (s : State) :
    (opBusyEnd s).mem = s.mem := by simp [opBusyEnd, apply_ite State.mem]

@[simp] theorem linkOff_mem (x : Nat) (s : State) :
    (linkOff x s).mem = s.mem := by simp [linkOff, apply_ite State.mem]

@[simp] theorem linkUp_mem (x : Nat) (own : Bool) (s : State) :
    (linkUp x own s).mem = s.mem := by simp [linkUp, apply_ite State.mem]

@[simp] theorem frsDisable_mem (s : State) :
    (frsDisable s).mem = s.mem := by simp [frsDisable, apply_ite State.mem]

@[simp] theorem frsEnable_mem (s : State) :
    (frsEnable s).mem = s.mem := by simp [frsEnable, apply_ite State.mem]

@[simp] theorem treeReport_mem (s : State) :
    (treeReport s).mem = s.mem := by simp [treeReport, apply_ite State.mem]

@[simp] theorem sendFrame_mem (x ty pay : Nat) (s : State) :
    (sendFrame x ty pay s).mem = s.mem := by simp [sendFrame, apply_ite State.mem]

@[simp] theorem queueEvent_mem (x pay : Nat) (s : State) :
    (queueEvent x pay s).mem = s.mem := by simp [queueEvent, apply_ite State.mem]

@[simp] theorem queueOp_mem (x ty pay : Nat) (s : State) :
    (queueOp x ty pay s).mem = s.mem := by simp [queueOp, apply_ite State.mem]

@[simp] theorem otherLinks_mem (x : Nat) (f : Nat → State → State) (s : State) (hf : ∀ k t, (f k t).mem = t.mem) :
    (otherLinks x f s).mem = s.mem := foldl_mem _ _ rfl fun t a ht => (hf a t).trans ht

@[simp] theorem messageSlot_mem (x : Nat) (s : State) :
    (messageSlot x s).mem = s.mem := by
  unfold messageSlot
  (try dsimp only)
  repeat' (first
    | (simp; done) | (simp [*]; done)
    | with_reducible refine ite_mem ?_ ?_ | (with_reducible refine foldl_mem _ _ ?_ (fun _ _ _ => ?_)) | split | simp)

@[simp] theorem frameSlot_mem (x fine : Nat) (s : State) :
    (frameSlot x fine s).mem = s.mem := by
  unfold frameSlot
  (try dsimp only)
  repeat' (first
    | (simp; done) | (simp [*]; done)
    | with_reducible refine ite_mem ?_ ?_ | (with_reducible refine foldl_mem _ _ ?_ (fun _ _ _ => ?_)) | split | simp)

@[simp] theorem frsJoin_mem (offset : Int) (s : State) :
    (frsJoin offset s).mem = s.mem := by simp [frsJoin, apply_ite State.mem]

@[simp] theorem frsAlign_mem (offset : Int) (s : State) :
    (frsAlign offset s).mem = s.mem := by simp [frsAlign, apply_ite State.mem]

@[simp] theorem offsetCompute_mem (x : Nat) (t1 : Time) (t2 : Nat) (t3 t4 : Time) (s : State) :
    (offsetCompute x t1 t2 t3 t4 s).mem = s.mem := by simp [offsetCompute, apply_ite State.mem]

@[simp] theorem pllLocks_mem (s : State) :
    (pllLocks s).mem = s.mem := by simp [pllLocks, apply_ite State.mem]

@[simp] theorem gotDepth_mem (x depth : Nat) (s : State) :
    (gotDepth x depth s).mem = s.mem := by simp [gotDepth, apply_ite State.mem]

@[simp] theorem frameBad_mem (x : Nat) (s : State) :
    (frameBad x s).mem = s.mem := by simp [frameBad, apply_ite State.mem]

@[simp] theorem onLink_mem (x ty : Nat) (h : FrsHead) (pay : Nat) (f : State → State) (s : State) (hf : ∀ t, (f t).mem = t.mem) :
    (onLink x ty h pay f s).mem = s.mem := by unfold onLink; split_ifs <;> simp [hf]

@[simp] theorem rxCalt_mem (x : Nat) (h : FrsHead) (pay fine : Nat) (s : State) :
    (rxCalt x h pay fine s).mem = s.mem := by simp [rxCalt, apply_ite State.mem]

@[simp] theorem rxCalr_mem (x : Nat) (h : FrsHead) (pay : Nat) (s : State) :
    (rxCalr x h pay s).mem = s.mem := by simp [rxCalr, apply_ite State.mem]

@[simp] theorem rxCalh_mem (x : Nat) (h : FrsHead) (pay : Nat) (s : State) : (rxCalh x h pay s).mem = s.mem := by
  unfold rxCalh
  refine onLink_mem _ _ _ _ _ _ fun t => ?_
  extract_lets l
  split <;> simp

@[simp] theorem rxTree_mem (x : Nat) (h : FrsHead) (pay : Nat) (s : State) :
    (rxTree x h pay s).mem = s.mem := by simp [rxTree, apply_ite State.mem]

@[simp] theorem rxIdle_mem (x : Nat) (h : FrsHead) (s : State) :
    (rxIdle x h s).mem = s.mem := by simp [rxIdle, apply_ite State.mem]

@[simp] theorem forestayOut_mem (k : Nat) (s : State) :
    (forestayOut k s).mem = s.mem := by simp [forestayOut, apply_ite State.mem]

@[simp] theorem rxEvent_mem (x : Nat) (h : FrsHead) (pay : Nat) (s : State) :
    (rxEvent x h pay s).mem = s.mem := by simp [rxEvent, apply_ite State.mem]

@[simp] theorem eventDelivery_mem (k : Nat) (s : State) :
    (eventDelivery k s).mem = s.mem := by simp [eventDelivery, apply_ite State.mem]

@[simp] theorem opSkip_mem (s : State) :
    (opSkip s).mem = s.mem := by simp [opSkip, apply_ite State.mem]

@[simp] theorem opArrive_mem (seq kind mask arg : Nat) (t : Time) (s : State) :
    (opArrive seq kind mask arg t s).mem = s.mem := by simp [opArrive, apply_ite State.mem]

@[simp] theorem operationGo_mem (req kind : Nat) (s : State) :
    (operationGo req kind s).mem = s.mem := by
  unfold operationGo
  (try dsimp only)
  repeat' (first
    | (simp; done) | (simp [*]; done)
    | with_reducible refine ite_mem ?_ ?_ | (with_reducible refine foldl_mem _ _ ?_ (fun _ _ _ => ?_)) | split | simp)

@[simp] theorem rxOpStart_mem (x : Nat) (h : FrsHead) (pay : Nat) (s : State) :
    (rxOpStart x h pay s).mem = s.mem := by simp [rxOpStart, apply_ite State.mem]

@[simp] theorem opComplete_mem (l : List Nat) (s : State) :
    (opComplete l s).mem = s.mem := by
  unfold opComplete
  (try dsimp only)
  repeat' (first
    | (simp; done) | (simp [*]; done)
    | with_reducible refine ite_mem ?_ ?_ | (with_reducible refine foldl_mem _ _ ?_ (fun _ _ _ => ?_)) | split | simp)

@[simp] theorem rxOpCont_mem (x : Nat) (h : FrsHead) (pay : Nat) (s : State) :
    (rxOpCont x h pay s).mem = s.mem := by simp [rxOpCont, apply_ite State.mem]

@[simp] theorem takeOp_mem (o : FrsOp) (s : State) :
    (takeOp o s).mem = s.mem := by simp [takeOp, apply_ite State.mem]

@[simp] theorem frsSnapshot_mem (s : State) :
    (frsSnapshot s).mem = s.mem := by
  unfold frsSnapshot
  (try dsimp only)
  repeat' (first
    | (simp; done) | (simp [*]; done)
    | with_reducible refine ite_mem ?_ ?_ | (with_reducible refine foldl_mem _ _ ?_ (fun _ _ _ => ?_)) | split | simp)

@[simp] theorem whlPulse_mem (w k : Nat) (s : State) :
    (whlPulse w k s).mem = s.mem := by simp [whlPulse, apply_ite State.mem]

@[simp] theorem whlDrop_mem (w : Nat) (s : State) :
    (whlDrop w s).mem = s.mem := by simp [whlDrop, apply_ite State.mem]

@[simp] theorem whlRec_mem (w ty : Nat) (t : Time) (port : Nat) (edge : Bool) (aux : Nat) (s : State) :
    (whlRec w ty t port edge aux s).mem = s.mem := by simp [whlRec, apply_ite State.mem]

@[simp] theorem whlSend_mem (w : Nat) (a : Action) (s : State) :
    (whlSend w a s).1.mem = s.mem := by
  unfold whlSend
  (try dsimp only)
  repeat' (first
    | (simp; done) | (simp [*]; done)
    | (have := sendRecord_mem_eq ‹_›; simp_all; done) | (rw [← sendRecord_mem_eq ‹_›]) | with_reducible refine ite_mem ?_ ?_ | (with_reducible refine foldl_mem _ _ ?_ (fun _ _ _ => ?_)) | split | simp)

@[simp] theorem State.modSlot_mem (s : State) (w k : Nat) (f : WSlot → WSlot) :
    (State.modSlot s w k f).mem = s.mem := by simp [State.modSlot, apply_ite State.mem]

@[simp] theorem flipParity_mem (w k : Nat) (s : State) :
    (flipParity w k s).mem = s.mem := by simp [flipParity, apply_ite State.mem]

@[simp] theorem setSlotSt_mem (w k v : Nat) (s : State) :
    (setSlotSt w k v s).mem = s.mem := by simp [setSlotSt, apply_ite State.mem]

@[simp] theorem cancelSlot_mem (w k : Nat) (t : Time) (s : State) :
    (cancelSlot w k t s).mem = s.mem := by simp [cancelSlot, apply_ite State.mem]

@[simp] theorem clearSlot_mem (w k : Nat) (wait : Option Nat) (s : State) :
    (clearSlot w k wait s).mem = s.mem := by simp [clearSlot, apply_ite State.mem]

@[simp] theorem clearEn_mem (w k : Nat) (s : State) :
    (clearEn w k s).mem = s.mem := by simp [clearEn, apply_ite State.mem]

@[simp] theorem skipSlot_mem (w k : Nat) (beg : Nat) (t : Time) (s : State) :
    (skipSlot w k beg t s).mem = s.mem := by simp [skipSlot, apply_ite State.mem]

@[simp] theorem issueAt_mem (w k : Nat) (tb tp : Time) (s : State) :
    (issueAt w k tb tp s).mem = s.mem := by simp [issueAt, apply_ite State.mem]

@[simp] theorem issueSlot_mem (w k : Nat) (tp : Time) (s : State) :
    (issueSlot w k tp s).mem = s.mem := by simp [issueSlot, apply_ite State.mem]

@[simp] theorem retimeBeg_mem (w k : Nat) (t : Time) (s : State) :
    (retimeBeg w k t s).mem = s.mem := by simp [retimeBeg, apply_ite State.mem]

@[simp] theorem retimeEnd_mem (w k : Nat) (t : Time) (s : State) :
    (retimeEnd w k t s).mem = s.mem := by simp [retimeEnd, apply_ite State.mem]

@[simp] theorem repredictEnd_mem (w k : Nat) (tp : Time) (s : State) :
    (repredictEnd w k tp s).mem = s.mem := by simp [repredictEnd, apply_ite State.mem]

@[simp] theorem repredictSlot_mem (w k : Nat) (tp : Time) (s : State) :
    (repredictSlot w k tp s).mem = s.mem := by simp [repredictSlot, apply_ite State.mem]

@[simp] theorem passSlot_mem (w k p q : Nat) (s : State) :
    (passSlot w k p q s).mem = s.mem := by simp [passSlot, apply_ite State.mem]

@[simp] theorem slotsTooth_mem (w : Nat) (prev : Option Nat) (live : Bool) (tp : Time) (s : State) :
    (slotsTooth w prev live tp s).mem = s.mem := by
  unfold slotsTooth
  (try dsimp only)
  repeat' (first
    | (simp; done) | (simp [*]; done)
    | with_reducible refine ite_mem ?_ ?_ | (with_reducible refine foldl_mem _ _ ?_ (fun _ _ _ => ?_)) | split | simp)

@[simp] theorem haltSlot_mem (w k : Nat) (t : Time) (s : State) :
    (haltSlot w k t s).mem = s.mem := by simp [haltSlot, apply_ite State.mem]

@[simp] theorem reverseSlot_mem (w k : Nat) (tp : Time) (s : State) :
    (reverseSlot w k tp s).mem = s.mem := by simp [reverseSlot, apply_ite State.mem]

@[simp] theorem eachSlot_mem (f : Nat → State → State) (s : State) (hf : ∀ k t, (f k t).mem = t.mem) :
    (eachSlot f s).mem = s.mem := foldl_mem _ _ rfl fun t a ht => (hf a t).trans ht

@[simp] theorem slotCommit_mem (w k : Nat) (s : State) :
    (slotCommit w k s).mem = s.mem := by simp [slotCommit, apply_ite State.mem]

@[simp] theorem occurrenceBegin_mem (w k : Nat) (s : State) :
    (occurrenceBegin w k s).mem = s.mem := by simp [occurrenceBegin, apply_ite State.mem]

@[simp] theorem occurrenceEnd_mem (w k : Nat) (s : State) :
    (occurrenceEnd w k s).mem = s.mem := by simp [occurrenceEnd, apply_ite State.mem]

@[simp] theorem slotFollow_mem (w k : Nat) (tp : Time) (s : State) :
    (slotFollow w k tp s).mem = s.mem := by
  unfold slotFollow
  (try dsimp only)
  repeat' (first
    | (simp; done) | (simp [*]; done)
    | with_reducible refine ite_mem ?_ ?_ | (with_reducible refine foldl_mem _ _ ?_ (fun _ _ _ => ?_)) | split | simp)

@[simp] theorem slotCheck_mem (w k : Nat) (s : State) :
    (slotCheck w k s).mem = s.mem := by simp [slotCheck, apply_ite State.mem]

@[simp] theorem setWhlState_mem (w v : Nat) (t : Time) (s : State) :
    (setWhlState w v t s).mem = s.mem := by simp [setWhlState, apply_ite State.mem]

@[simp] theorem restartEst_mem (w : Nat) (s : State) :
    (restartEst w s).mem = s.mem := by simp [restartEst, apply_ite State.mem]

@[simp] theorem syncLoss_mem (w cause final : Nat) (t : Time) (s : State) :
    (syncLoss w cause final t s).mem = s.mem := by simp [syncLoss, apply_ite State.mem]

@[simp] theorem pushEst_mem (w : Nat) (t : Time) (p : Nat) (acc : Bool) (s : State) :
    (pushEst w t p acc s).mem = s.mem := by simp [pushEst, apply_ite State.mem]

@[simp] theorem acceptTooth_mem (w : Nat) (t : Time) (rev acc : Bool) (s : State) :
    (acceptTooth w t rev acc s).mem = s.mem := by
  unfold acceptTooth
  (try dsimp only)
  repeat' (first
    | (simp; done) | (simp [*]; done)
    | with_reducible refine ite_mem ?_ ?_ | (with_reducible refine foldl_mem _ _ ?_ (fun _ _ _ => ?_)) | split | simp)

@[simp] theorem keepTooth_mem (w : Nat) (t : Time) (p : Option Nat) (s : State) :
    (keepTooth w t p s).mem = s.mem := by simp [keepTooth, apply_ite State.mem]

@[simp] theorem assignPos_mem (w p : Nat) (s : State) :
    (assignPos w p s).mem = s.mem := by simp [assignPos, apply_ite State.mem]

@[simp] theorem confirmSync_mem (w : Nat) (tp : Time) (s : State) :
    (confirmSync w tp s).mem = s.mem := by simp [confirmSync, apply_ite State.mem]

theorem phaseSync_mem_eq {w : Nat} {level : Bool} {tp : Time} {s t : State} (h : phaseSync w level tp s = some t) :
    t.mem = s.mem := by
  unfold phaseSync at h
  extract_lets n x p q half q' s1 at h
  split at h
  · rw [Option.some.injEq] at h; rw [← h]; simp [s1]
  · rw [Option.ite_none_right_eq_some] at h; rw [Option.some.injEq] at h; rw [h.2]
  · rw [Option.some.injEq] at h; rw [h]

theorem snd_ite_mem {c : Prop} [Decidable c] {a b : Nat × State} {m : List Host.Cell} (ha : a.2.mem = m)
    (hb : b.2.mem = m) : (if c then a else b).2.mem = m := by split <;> assumption

@[simp] theorem gapSync_mem (w : Nat) (e : Option Nat) (level skip : Bool) (tp : Time) (s : State) :
    (gapSync w e level skip tp s).2.mem = s.mem := by
  unfold gapSync
  extract_lets x long
  split
  · exact ite_mem (by simp) rfl
  · split
    rename_i q tlong hq
    extract_lets s1
    have h1 : s1.mem = s.mem := by simp [s1]
    refine snd_ite_mem h1 (snd_ite_mem h1 (snd_ite_mem h1 (snd_ite_mem ?_ (by simpa using h1))))
    split
    · rename_i h; exact (phaseSync_mem_eq h).trans h1
    · exact h1

@[simp] theorem restartEdges_mem (w : Nat) (t : Time) (s : State) :
    (restartEdges w t s).mem = s.mem := by simp [restartEdges, apply_ite State.mem]

@[simp] theorem cycleAt_mem (w p : Nat) (t : Time) (s : State) :
    (cycleAt w p t s).mem = s.mem := by
  unfold cycleAt
  (try dsimp only)
  repeat' (first
    | (simp; done) | (simp [*]; done)
    | with_reducible refine ite_mem ?_ ?_ | (with_reducible refine foldl_mem _ _ ?_ (fun _ _ _ => ?_)) | split | simp)

@[simp] theorem placeTooth_mem (w : Nat) (s : State) (h : Time × Option Nat) :
    (placeTooth w s h).mem = s.mem := by simp [placeTooth, apply_ite State.mem]

@[simp] theorem refRule_mem (w i : Nat) (done : Bool) (tp : Time) (s : State) :
    (refRule w i done tp s).2.mem = s.mem := by
  unfold refRule
  (try dsimp only)
  repeat' (first
    | (simp; done) | (simp [*]; done)
    | with_reducible refine ite_mem ?_ ?_ | (with_reducible refine foldl_mem _ _ ?_ (fun _ _ _ => ?_)) | split | simp)

@[simp] theorem lossAtTooth_mem (w cause : Nat) (tp t : Time) (s : State) :
    (lossAtTooth w cause tp t s).mem = s.mem := by
  unfold lossAtTooth
  extract_lets s1 before s2
  have h2 : s2.mem = s.mem := by simp [s2, s1]
  rw [acceptTooth_mem]
  exact ite_mem (by rw [refRule_mem, h2]) h2

@[simp] theorem refSync_mem (w : Nat) (t tp : Time) (s : State) :
    (refSync w t tp s).2.mem = s.mem := by
  unfold refSync
  (try dsimp only)
  repeat' (first
    | (simp; done) | (simp [*]; done)
    | (have := refRule_mem_eq ‹_›; simp_all; done) | (rw [← refRule_mem_eq ‹_›]) | with_reducible refine ite_mem ?_ ?_ | (with_reducible refine foldl_mem _ _ ?_ (fun _ _ _ => ?_)) | split | simp)

@[simp] theorem edgeNumber_mem (w : Nat) (t : Time) (s : State) :
    (edgeNumber w t s).2.mem = s.mem := by
  unfold edgeNumber
  (try dsimp only)
  repeat' (first
    | (simp; done) | (simp [*]; done)
    | with_reducible refine ite_mem ?_ ?_ | (with_reducible refine foldl_mem _ _ ?_ (fun _ _ _ => ?_)) | split | simp)

@[simp] theorem ttRequest_mem (w : Nat) (s : State) :
    (ttRequest w s).mem = s.mem := by simp [ttRequest, apply_ite State.mem]

@[simp] theorem ttRead_mem (w i n : Nat) (s : State) :
    (ttRead w i n s).2.2.mem = s.mem := by simp [ttRead, apply_ite State.mem]

@[simp] theorem readPrimary_mem (w : Nat) (use : Bool) (tp : Time) (k : State → State) (s : State) (hk : ∀ t, (k t).mem = t.mem) :
    (readPrimary w use tp k s).mem = s.mem := by
  unfold readPrimary
  simp only
  split_ifs <;> simp [hk]

@[simp] theorem phaseMeasure_mem (w j : Nat) (t : Time) (hi lo : Time × Nat) (tp : Time) (s : State) :
    (phaseMeasure w j t hi lo tp s).mem = s.mem := by simp [phaseMeasure, apply_ite State.mem]

@[simp] theorem closeEdges_mem (w : Nat) (tp : Time) (s : State) :
    (closeEdges w tp s).mem = s.mem := by
  unfold closeEdges
  (try dsimp only)
  repeat' (first
    | (simp; done) | (simp [*]; done)
    | (have := edgeNumber_mem_eq ‹_›; simp_all; done) | (rw [← edgeNumber_mem_eq ‹_›]) | with_reducible refine ite_mem ?_ ?_ | (with_reducible refine foldl_mem _ _ ?_ (fun _ _ _ => ?_)) | split | simp)

@[simp] theorem lateRefLoss_mem (w i : Nat) (tp : Time) (s : State) :
    (lateRefLoss w i tp s).mem = s.mem := by simp [lateRefLoss, apply_ite State.mem]

@[simp] theorem lateRef_mem (w i : Nat) (tp : Time) (s : State) :
    (lateRef w i tp s).mem = s.mem := by simp [lateRef, apply_ite State.mem]

@[simp] theorem slotApply_mem (w k : Nat) (tp : Time) (s : State) :
    (slotApply w k tp s).mem = s.mem := by simp [slotApply, apply_ite State.mem]

@[simp] theorem secondary_mem (w : Nat) (t tp : Time) (s : State) :
    (secondary w t tp s).mem = s.mem := by simp [secondary, apply_ite State.mem]

@[simp] theorem countCycle_mem (w : Nat) (t : Time) (s : State) :
    (countCycle w t s).mem = s.mem := by
  unfold countCycle
  (try dsimp only)
  repeat' (first
    | (simp; done) | (simp [*]; done)
    | with_reducible refine ite_mem ?_ ?_ | (with_reducible refine foldl_mem _ _ ?_ (fun _ _ _ => ?_)) | split | simp)

@[simp] theorem closeAtTooth_mem (w : Nat) (t tp : Time) (s : State) :
    (closeAtTooth w t tp s).mem = s.mem := by simp [closeAtTooth, apply_ite State.mem]

theorem learnTooth_wf (w : Nat) (s : State) (h : Memory.wf s.mem) :
    Memory.wf (learnTooth w s).mem := by
  unfold learnTooth
  (try dsimp only)
  repeat' (first | with_reducible assumption | with_reducible refine ite_wf ?_ ?_ | with_reducible apply bankWrite_wf | (simp; with_reducible assumption) | (with_reducible refine foldl_wf _ _ ?_ (fun _ _ _ => ?_)) | split | simp)

@[simp] theorem reverseTooth_mem (w : Nat) (t tp : Time) (s : State) :
    (reverseTooth w t tp s).mem = s.mem := by simp [reverseTooth, apply_ite State.mem]

theorem forwardTooth_wf (w : Nat) (t tp : Time) (level skip acc : Bool) (s : State) (h : Memory.wf s.mem) :
    Memory.wf (forwardTooth w t tp level skip acc s).mem := by
  unfold forwardTooth
  (try dsimp only)
  repeat' (first | with_reducible assumption | with_reducible refine ite_wf ?_ ?_ | with_reducible apply learnTooth_wf | (simp; with_reducible assumption) | (with_reducible refine foldl_wf _ _ ?_ (fun _ _ _ => ?_)) | split | simp)

theorem primary_wf (w : Nat) (t : Time) (level : Bool) (tp : Time) (s : State) (h : Memory.wf s.mem) :
    Memory.wf (primary w t level tp s).mem := by
  unfold primary
  (try dsimp only)
  repeat' (first | with_reducible assumption | with_reducible refine ite_wf ?_ ?_ | with_reducible apply forwardTooth_wf | (simp; with_reducible assumption) | (with_reducible refine foldl_wf _ _ ?_ (fun _ _ _ => ?_)) | split | simp)

@[simp] theorem toothArrival_mem (w : Nat) (s : State) :
    (toothArrival w s).mem = s.mem := by
  unfold toothArrival
  (try dsimp only)
  repeat' (first
    | (simp; done) | (simp [*]; done)
    | with_reducible refine ite_mem ?_ ?_ | (with_reducible refine foldl_mem _ _ ?_ (fun _ _ _ => ?_)) | split | simp)

theorem toothProcess_wf (w : Nat) (s : State) (h : Memory.wf s.mem) :
    Memory.wf (toothProcess w s).mem := by
  unfold toothProcess
  (try dsimp only)
  repeat' (first | with_reducible assumption | with_reducible refine ite_wf ?_ ?_ | with_reducible apply primary_wf | (simp; with_reducible assumption) | (with_reducible refine foldl_wf _ _ ?_ (fun _ _ _ => ?_)) | split | simp)

@[simp] theorem stall_mem (w : Nat) (s : State) :
    (stall w s).mem = s.mem := by
  unfold stall
  (try dsimp only)
  repeat' (first
    | (simp; done) | (simp [*]; done)
    | with_reducible refine ite_mem ?_ ?_ | (with_reducible refine foldl_mem _ _ ?_ (fun _ _ _ => ?_)) | split | simp)

@[simp] theorem whlEnable_mem (w : Nat) (s : State) :
    (whlEnable w s).mem = s.mem := by simp [whlEnable, apply_ite State.mem]

@[simp] theorem whlDisable_mem (w : Nat) (s : State) :
    (whlDisable w s).mem = s.mem := by simp [whlDisable, apply_ite State.mem]

@[simp] theorem resync_mem (w : Nat) (s : State) :
    (resync w s).mem = s.mem := by simp [resync, apply_ite State.mem]

@[simp] theorem whlClr_mem (w v : Nat) (s : State) :
    (whlClr w v s).mem = s.mem := by simp [whlClr, apply_ite State.mem]

theorem ttWrite_wf (req r i v : Nat) (s : State) (h : Memory.wf s.mem) :
    Memory.wf (ttWrite req r i v s).mem := by
  unfold ttWrite
  (try dsimp only)
  repeat' (first | with_reducible assumption | with_reducible refine ite_wf ?_ ?_ | with_reducible apply bankWrite_wf | (simp; with_reducible assumption) | (with_reducible refine foldl_wf _ _ ?_ (fun _ _ _ => ?_)) | split | simp)

@[simp] theorem vrArm_mem (p peak fine : Nat) (s : State) :
    (vrArm p peak fine s).mem = s.mem := by simp [vrArm, apply_ite State.mem]

@[simp] theorem vrZero_mem (p fine : Nat) (s : State) :
    (vrZero p fine s).mem = s.mem := by simp [vrZero, apply_ite State.mem]

@[simp] theorem toothForm_mem (p w ready : Nat) (e : RawEdge) (s : State) :
    (toothForm p w ready e s).mem = s.mem := by simp [toothForm, apply_ite State.mem]

@[simp] theorem sheaveForm_mem (p u : Nat) (e : RawEdge) (filt : Nat) (near : Bool) (s : State) :
    (sheaveForm p u e filt near s).mem = s.mem := by simp [sheaveForm, apply_ite State.mem]

@[simp] theorem edgeQualify_mem (p : Nat) (s : State) :
    (edgeQualify p s).mem = s.mem := by
  unfold edgeQualify
  (try dsimp only)
  repeat' (first
    | (simp; done) | (simp [*]; done)
    | with_reducible refine ite_mem ?_ ?_ | (with_reducible refine foldl_mem _ _ ?_ (fun _ _ _ => ?_)) | split | simp)

@[simp] theorem armAct_mem (p k : Nat) (s : State) :
    (armAct p k s).mem = s.mem := by
  unfold armAct
  (try dsimp only)
  repeat' (first
    | (simp; done) | (simp [*]; done)
    | with_reducible refine ite_mem ?_ ?_ | (with_reducible refine foldl_mem _ _ ?_ (fun _ _ _ => ?_)) | split | simp)

@[simp] theorem armPulse_mem (p : Nat) (s : State) :
    (armPulse p s).mem = s.mem := by
  unfold armPulse
  (try dsimp only)
  repeat' (first
    | (simp; done) | (simp [*]; done)
    | with_reducible refine ite_mem ?_ ?_ | (with_reducible refine foldl_mem _ _ ?_ (fun _ _ _ => ?_)) | split | simp)

@[simp] theorem portEnable_mem (p : Nat) (s : State) :
    (portEnable p s).mem = s.mem := by simp [portEnable, apply_ite State.mem]

@[simp] theorem dropQueue_mem (p : Nat) (s : State) :
    (dropQueue p s).mem = s.mem := by simp [dropQueue, apply_ite State.mem]

@[simp] theorem portDisable_mem (p : Nat) (s : State) :
    (portDisable p s).mem = s.mem := by simp [portDisable, apply_ite State.mem]

@[simp] theorem portCtrl_mem (p v : Nat) (s : State) :
    (portCtrl p v s).mem = s.mem := by simp [portCtrl, apply_ite State.mem]

@[simp] theorem prtClr_mem (p v : Nat) (s : State) :
    (prtClr p v s).mem = s.mem := by simp [prtClr, apply_ite State.mem]

@[simp] theorem pinFollow_mem (p : Nat) (shown : Option Bool) (s : State) :
    (pinFollow p shown s).mem = s.mem := by simp [pinFollow, apply_ite State.mem]

@[simp] theorem overcurrentOff_mem (p : Nat) (s : State) :
    (overcurrentOff p s).mem = s.mem := by simp [overcurrentOff, apply_ite State.mem]

@[simp] theorem ocpClear_mem (p : Nat) (s : State) :
    (ocpClear p s).mem = s.mem := by simp [ocpClear, apply_ite State.mem]

@[simp] theorem shedTop_mem (n : Nat) (s : State) : (shedTop n s).mem = s.mem := by
  induction n generalizing s with
  | zero => rfl
  | succ n ih => rw [shedTop, ih]; split <;> simp

@[simp] theorem loadShed_mem (hot : List Nat) (more : Nat) (s : State) :
    (loadShed hot more s).mem = s.mem := by
  unfold loadShed
  (try dsimp only)
  repeat' (first
    | (simp; done) | (simp [*]; done)
    | with_reducible refine ite_mem ?_ ?_ | (with_reducible refine foldl_mem _ _ ?_ (fun _ _ _ => ?_)) | split | simp)

@[simp] theorem sendMsix_mem (v : Nat) (s : State) :
    (sendMsix v s).mem = s.mem := by simp [sendMsix, apply_ite State.mem]

@[simp] theorem tapSend_mem (v : Nat) (s : State) :
    (tapSend v s).mem = s.mem := by simp [tapSend, apply_ite State.mem]

@[simp] theorem tapRequest_mem (v : Nat) (s : State) :
    (tapRequest v s).mem = s.mem := by simp [tapRequest, apply_ite State.mem]

@[simp] theorem tapPulse_mem (v : Nat) (s : State) :
    (tapPulse v s).mem = s.mem := by simp [tapPulse, apply_ite State.mem]

@[simp] theorem holdoffEnd_mem (v : Nat) (s : State) :
    (holdoffEnd v s).mem = s.mem := by
  unfold holdoffEnd
  (try dsimp only)
  repeat' (first
    | (simp; done) | (simp [*]; done)
    | with_reducible refine ite_mem ?_ ?_ | (with_reducible refine foldl_mem _ _ ?_ (fun _ _ _ => ?_)) | split | simp)

@[simp] theorem sendPending_mem (v : Nat) (s : State) :
    (sendPending v s).mem = s.mem := by simp [sendPending, apply_ite State.mem]

@[simp] theorem msixWrite_mem (off : Nat) (w : Word) (s : State) :
    (msixWrite off w s).mem = s.mem := by simp [msixWrite, apply_ite State.mem]

@[simp] theorem msixUnmask_mem (v : Nat) (s : State) :
    (msixUnmask v s).mem = s.mem := by simp [msixUnmask, apply_ite State.mem]

@[simp] theorem eventInput_mem (n k : Nat) (s : State) :
    (eventInput n k s).mem = s.mem := by simp [eventInput, apply_ite State.mem]

@[simp] theorem armInput_mem (p : Nat) (s : State) :
    (armInput p s).mem = s.mem := by simp [armInput, apply_ite State.mem]

@[simp] theorem deliver_mem (d : Nat) (s : State) :
    (deliver d s).mem = s.mem := by simp [deliver, apply_ite State.mem]

@[simp] theorem routeDelivery_mem (e : Nat) (s : State) :
    (routeDelivery e s).mem = s.mem := by
  unfold routeDelivery
  (try dsimp only)
  repeat' (first
    | (simp; done) | (simp [*]; done)
    | with_reducible refine ite_mem ?_ ?_ | (with_reducible refine foldl_mem _ _ ?_ (fun _ _ _ => ?_)) | split | simp)

@[simp] theorem routesApplied_mem (old : Nat → Nat) (s : State) :
    (routesApplied old s).mem = s.mem := by
  unfold routesApplied
  (try dsimp only)
  repeat' (first
    | (simp; done) | (simp [*]; done)
    | with_reducible refine ite_mem ?_ ?_ | (with_reducible refine foldl_mem _ _ ?_ (fun _ _ _ => ?_)) | split | simp)

@[simp] theorem fieldRouteApply_mem (s : State) :
    (fieldRouteApply s).mem = s.mem := by
  unfold fieldRouteApply
  (try dsimp only)
  repeat' (first
    | (simp; done) | (simp [*]; done)
    | with_reducible refine ite_mem ?_ ?_ | (with_reducible refine foldl_mem _ _ ?_ (fun _ _ _ => ?_)) | split | simp)

@[simp] theorem softwarePulse_mem (v : Nat) (s : State) :
    (softwarePulse v s).mem = s.mem := by
  unfold softwarePulse
  (try dsimp only)
  repeat' (first
    | (simp; done) | (simp [*]; done)
    | with_reducible refine ite_mem ?_ ?_ | (with_reducible refine foldl_mem _ _ ?_ (fun _ _ _ => ?_)) | split | simp)

@[simp] theorem rigClr_mem (v : Nat) (s : State) :
    (rigClr v s).mem = s.mem := by
  unfold rigClr
  (try dsimp only)
  repeat' (first
    | (simp; done) | (simp [*]; done)
    | with_reducible refine ite_mem ?_ ?_ | (with_reducible refine foldl_mem _ _ ?_ (fun _ _ _ => ?_)) | split | simp)

@[simp] theorem tapClear_mem (v : Nat) (s : State) :
    (tapClear v s).mem = s.mem := by simp [tapClear, apply_ite State.mem]

@[simp] theorem cwrdWrite_mem (req v : Nat) (s : State) :
    (cwrdWrite req v s).mem = s.mem := by simp [cwrdWrite, apply_ite State.mem]

@[simp] theorem cwEnable_mem (s : State) :
    (cwEnable s).mem = s.mem := by simp [cwEnable, apply_ite State.mem]

@[simp] theorem capRemove_mem (k : Nat) (r : CapRec) (s : State) :
    (capRemove k r s).mem = s.mem := by
  unfold capRemove
  (try dsimp only)
  repeat' (first
    | (simp; done) | (simp [*]; done)
    | with_reducible refine ite_mem ?_ ?_ | (with_reducible refine foldl_mem _ _ ?_ (fun _ _ _ => ?_)) | split | simp)

@[simp] theorem capOverflow_mem (r : CapRec) (s : State) :
    (capOverflow r s).mem = s.mem := by
  unfold capOverflow
  (try dsimp only)
  repeat' (first
    | (simp; done) | (simp [*]; done)
    | with_reducible refine ite_mem ?_ ?_ | (with_reducible refine foldl_mem _ _ ?_ (fun _ _ _ => ?_)) | split | simp)

theorem capStore_wf (r : CapRec) (s : State) (h : Memory.wf s.mem) :
    Memory.wf (capStore r s).mem := by
  unfold capStore
  (try dsimp only)
  repeat' (first | with_reducible assumption | with_reducible refine ite_wf ?_ ?_ | with_reducible apply bankWrite_wf | (simp; with_reducible assumption) | (with_reducible refine foldl_wf _ _ ?_ (fun _ _ _ => ?_)) | split | simp)

theorem capTake_wf (owner k : Nat) (s : State) (h : Memory.wf s.mem) :
    Memory.wf (capTake owner k s).mem := by
  unfold capTake
  (try dsimp only)
  repeat' (first | with_reducible assumption | with_reducible refine ite_wf ?_ ?_ | with_reducible apply capStore_wf | (simp; with_reducible assumption) | (with_reducible refine foldl_wf _ _ ?_ (fun _ _ _ => ?_)) | split | simp)

theorem captureSlot_wf (owner : Nat) (s : State) (h : Memory.wf s.mem) :
    Memory.wf (captureSlot owner s).mem := by
  unfold captureSlot
  (try dsimp only)
  repeat' (first | with_reducible assumption | with_reducible refine ite_wf ?_ ?_ | with_reducible apply capTake_wf | (simp; with_reducible assumption) | (with_reducible refine foldl_wf _ _ ?_ (fun _ _ _ => ?_)) | split | simp)

@[simp] theorem notifyTick_mem (s : State) :
    (notifyTick s).mem = s.mem := by simp [notifyTick, apply_ite State.mem]

@[simp] theorem setLanes_mem (tx rx : Nat) (s : State) :
    (setLanes tx rx s).mem = s.mem := by simp [setLanes, apply_ite State.mem]

@[simp] theorem commandSlot_mem (owner : Nat) (s : State) :
    (commandSlot owner s).mem = s.mem := by simp [commandSlot, apply_ite State.mem]

@[simp] theorem takeField_mem (r : CapRec) (s : State) :
    (takeField r s).mem = s.mem := by
  unfold takeField
  (try dsimp only)
  repeat' (first
    | (simp; done) | (simp [*]; done)
    | with_reducible refine ite_mem ?_ ?_ | (with_reducible refine foldl_mem _ _ ?_ (fun _ _ _ => ?_)) | split | simp)

@[simp] theorem sendReturn_mem (k : Nat) (x : StayLoad) (s : State) :
    (sendReturn k x s).mem = s.mem := by simp [sendReturn, apply_ite State.mem]

@[simp] theorem sendCapture_mem (owner c k : Nat) (s : State) :
    (sendCapture owner c k s).1.mem = s.mem := by
  unfold sendCapture
  (try dsimp only)
  repeat' (first
    | (simp; done) | (simp [*]; done)
    | with_reducible refine ite_mem ?_ ?_ | (with_reducible refine foldl_mem _ _ ?_ (fun _ _ _ => ?_)) | split | simp)

@[simp] theorem returnLane_mem (owner next : Nat) (use : List Nat) (s : State) (k : Nat) :
    (returnLane owner next use s k).mem = s.mem := by
  unfold returnLane
  (try dsimp only)
  repeat' (first
    | (simp; done) | (simp [*]; done)
    | (have := sendCapture_mem_eq ‹_›; simp_all; done) | (rw [← sendCapture_mem_eq ‹_›]) | with_reducible refine ite_mem ?_ ?_ | (with_reducible refine foldl_mem _ _ ?_ (fun _ _ _ => ?_)) | split | simp)

@[simp] theorem returnSlot_mem (owner : Nat) (s : State) :
    (returnSlot owner s).mem = s.mem := by
  unfold returnSlot
  (try dsimp only)
  repeat' (first
    | (simp; done) | (simp [*]; done)
    | with_reducible refine ite_mem ?_ ?_ | (with_reducible refine foldl_mem _ _ ?_ (fun _ _ _ => ?_)) | split | simp)

@[simp] theorem passOn_mem (r : StayRec) (s : State) :
    (passOn r s).mem = s.mem := by
  unfold passOn
  (try dsimp only)
  repeat' (first
    | (simp; done) | (simp [*]; done)
    | with_reducible refine ite_mem ?_ ?_ | (with_reducible refine foldl_mem _ _ ?_ (fun _ _ _ => ?_)) | split | simp)

@[simp] theorem State.setDir_mem (s : State) (ret : Bool) (d : StayDir) :
    (State.setDir s ret d).mem = s.mem := by simp [State.setDir, apply_ite State.mem]

@[simp] theorem drainWait_mem (ret : Bool) (n : Nat) (s : State) : (drainWait ret n s).mem = s.mem := by
  induction n generalizing s with
  | zero => rfl
  | succ n ih => simp only [drainWait]; split <;> simp [ih]

@[simp] theorem stayReceive_mem (ret : Bool) (seq : Nat) (ack : Bool) (s : State) :
    (stayReceive ret seq ack s).mem = s.mem := by
  unfold stayReceive
  (try dsimp only)
  repeat' (first
    | (simp; done) | (simp [*]; done)
    | with_reducible refine ite_mem ?_ ?_ | (with_reducible refine foldl_mem _ _ ?_ (fun _ _ _ => ?_)) | split | simp)

@[simp] theorem waitExpiry_mem (ret : Bool) (s : State) :
    (waitExpiry ret s).mem = s.mem := by
  unfold waitExpiry
  (try dsimp only)
  repeat' (first
    | (simp; done) | (simp [*]; done)
    | with_reducible refine ite_mem ?_ ?_ | (with_reducible refine foldl_mem _ _ ?_ (fun _ _ _ => ?_)) | split | simp)

@[simp] theorem laneFail_mem (ret : Bool) (k : Nat) (s : State) :
    (laneFail ret k s).mem = s.mem := by simp [laneFail, apply_ite State.mem]

@[simp] theorem resendLane_mem (k : Nat) (ret : Bool) (s : State) :
    (resendLane k ret s).mem = s.mem := by
  unfold resendLane
  (try dsimp only)
  repeat' (first
    | (simp; done) | (simp [*]; done)
    | with_reducible refine ite_mem ?_ ?_ | (with_reducible refine foldl_mem _ _ ?_ (fun _ _ _ => ?_)) | split | simp)

@[simp] theorem dropLane_mem (s : State) (f : Bool × Nat) :
    (dropLane s f).mem = s.mem := by
  unfold dropLane
  (try dsimp only)
  repeat' (first
    | (simp; done) | (simp [*]; done)
    | with_reducible refine ite_mem ?_ ?_ | (with_reducible refine foldl_mem _ _ ?_ (fun _ _ _ => ?_)) | split | simp)

@[simp] theorem threeLaneStart_mem (s : State) :
    (threeLaneStart s).mem = s.mem := by
  unfold threeLaneStart
  (try dsimp only)
  repeat' (first
    | (simp; done) | (simp [*]; done)
    | with_reducible refine ite_mem ?_ ?_ | (with_reducible refine foldl_mem _ _ ?_ (fun _ _ _ => ?_)) | split | simp)

@[simp] theorem discardRec_mem (s : State) (a : Action) :
    (discardRec s a).mem = s.mem := by simp [discardRec, apply_ite State.mem]

@[simp] theorem fieldGone_mem (s : State) :
    (fieldGone s).mem = s.mem := by simp [fieldGone, apply_ite State.mem]

@[simp] theorem dropLink_mem (s : State) :
    (dropLink s).mem = s.mem := by
  unfold dropLink
  (try dsimp only)
  repeat' (first
    | (simp; done) | (simp [*]; done)
    | with_reducible refine ite_mem ?_ ?_ | (with_reducible refine foldl_mem _ _ ?_ (fun _ _ _ => ?_)) | split | simp)

@[simp] theorem sheavesStop_mem (s : State) :
    (sheavesStop s).mem = s.mem := by
  unfold sheavesStop
  (try dsimp only)
  repeat' (first
    | (simp; done) | (simp [*]; done)
    | with_reducible refine ite_mem ?_ ?_ | (with_reducible refine foldl_mem _ _ ?_ (fun _ _ _ => ?_)) | split | simp)

@[simp] theorem refuseProxy_mem (s : State) :
    (refuseProxy s).mem = s.mem := by
  unfold refuseProxy
  (try dsimp only)
  repeat' (first
    | (simp; done) | (simp [*]; done)
    | with_reducible refine ite_mem ?_ ?_ | (with_reducible refine foldl_mem _ _ ?_ (fun _ _ _ => ?_)) | split | simp)

@[simp] theorem linkGone_mem (s : State) :
    (linkGone s).mem = s.mem := by
  unfold linkGone
  (try dsimp only)
  repeat' (first
    | (simp; done) | (simp [*]; done)
    | with_reducible refine ite_mem ?_ ?_ | (with_reducible refine foldl_mem _ _ ?_ (fun _ _ _ => ?_)) | split | simp)

@[simp] theorem linkLoss_mem (s : State) :
    (linkLoss s).mem = s.mem := by simp [linkLoss, apply_ite State.mem]

@[simp] theorem lossLevel_mem (p : Nat) (s : State) :
    (lossLevel p s).mem = s.mem := by simp [lossLevel, apply_ite State.mem]

@[simp] theorem lossTimeout_mem (s : State) :
    (lossTimeout s).mem = s.mem := by
  unfold lossTimeout
  (try dsimp only)
  repeat' (first
    | (simp; done) | (simp [*]; done)
    | with_reducible refine ite_mem ?_ ?_ | (with_reducible refine foldl_mem _ _ ?_ (fun _ _ _ => ?_)) | split | simp)

@[simp] theorem retrainTimeout_mem (s : State) :
    (retrainTimeout s).mem = s.mem := by
  unfold retrainTimeout
  (try dsimp only)
  repeat' (first
    | (simp; done) | (simp [*]; done)
    | with_reducible refine ite_mem ?_ ?_ | (with_reducible refine foldl_mem _ _ ?_ (fun _ _ _ => ?_)) | split | simp)

theorem slotStart_wf (s : State) (h : Memory.wf s.mem) :
    Memory.wf (slotStart s).mem := by
  unfold slotStart
  (try dsimp only)
  repeat' (first | with_reducible assumption | with_reducible refine ite_wf ?_ ?_ | with_reducible apply captureSlot_wf | (simp; with_reducible assumption) | (with_reducible refine foldl_wf _ _ ?_ (fun _ _ _ => ?_)) | split | simp)

@[simp] theorem checkImage_mem (e base : Nat) (s : State) :
    (checkImage e base s).2.2.2.mem = s.mem := by
  unfold checkImage
  (try dsimp only)
  repeat' (first
    | (simp; done) | (simp [*]; done)
    | (have := bankRead_mem_eq ‹_›; simp_all; done) | (rw [← bankRead_mem_eq ‹_›]) | with_reducible refine ite_mem ?_ ?_ | (with_reducible refine foldl_mem _ _ ?_ (fun _ _ _ => ?_)) | split | simp)

@[simp] theorem checkEnd_mem (e : Nat) (s : State) :
    (checkEnd e s).mem = s.mem := by
  unfold checkEnd
  (try dsimp only)
  repeat' (first
    | (simp; done) | (simp [*]; done)
    | (have := checkImage_mem_eq ‹_›; simp_all; done) | (rw [← checkImage_mem_eq ‹_›]) | with_reducible refine ite_mem ?_ ?_ | (with_reducible refine foldl_mem _ _ ?_ (fun _ _ _ => ?_)) | split | simp)

@[simp] theorem loadCmd_mem (req e : Nat) (s : State) :
    (loadCmd req e s).mem = s.mem := by simp [loadCmd, apply_ite State.mem]

@[simp] theorem rejectCmd_mem (e : Nat) (s : State) :
    (rejectCmd e s).mem = s.mem := by simp [rejectCmd, apply_ite State.mem]

@[simp] theorem beginImage_mem (e : Nat) (i : Image) (st : EngState) (s : State) :
    (beginImage e i st s).mem = s.mem := by simp [beginImage, apply_ite State.mem]

@[simp] theorem cmdStart_mem (e p : Nat) (s : State) :
    (cmdStart e p s).mem = s.mem := by
  unfold cmdStart
  (try dsimp only)
  repeat' (first
    | (simp; done) | (simp [*]; done)
    | with_reducible refine ite_mem ?_ ?_ | (with_reducible refine foldl_mem _ _ ?_ (fun _ _ _ => ?_)) | split | simp)

theorem dropProgram_wf (e : Nat) (s : State) (h : Memory.wf s.mem) :
    Memory.wf (dropProgram e s).mem := by
  unfold dropProgram
  (try dsimp only)
  repeat' (first | with_reducible assumption | with_reducible refine ite_wf ?_ ?_ | (simp; with_reducible assumption) | (with_reducible refine foldl_wf _ _ ?_ (fun _ _ _ => ?_)) | split | simp)

theorem cmdStop_wf (e : Nat) (s : State) (h : Memory.wf s.mem) :
    Memory.wf (cmdStop e s).mem := by
  unfold cmdStop
  (try dsimp only)
  repeat' (first | with_reducible assumption | with_reducible refine ite_wf ?_ ?_ | with_reducible apply dropProgram_wf | (simp; with_reducible assumption) | (with_reducible refine foldl_wf _ _ ?_ (fun _ _ _ => ?_)) | split | simp)

@[simp] theorem cmdResume_mem (e : Nat) (s : State) :
    (cmdResume e s).mem = s.mem := by simp [cmdResume, apply_ite State.mem]

theorem applyCmd_wf (e cmd p : Nat) (s : State) (h : Memory.wf s.mem) :
    Memory.wf (applyCmd e cmd p s).mem := by
  unfold applyCmd
  (try dsimp only)
  repeat' (first | with_reducible assumption | with_reducible refine ite_wf ?_ ?_ | with_reducible apply cmdStop_wf | (simp; with_reducible assumption) | (with_reducible refine foldl_wf _ _ ?_ (fun _ _ _ => ?_)) | split | simp)

theorem prepTick_wf (e : Nat) (s : State) (h : Memory.wf s.mem) :
    Memory.wf (prepTick e s).mem := by
  unfold prepTick
  (try dsimp only)
  repeat' (first | with_reducible assumption | with_reducible refine ite_wf ?_ ?_ | (simp; with_reducible assumption) | (with_reducible refine foldl_wf _ _ ?_ (fun _ _ _ => ?_)) | split | simp)

theorem prepTicks_wf (s : State) (h : Memory.wf s.mem) :
    Memory.wf (prepTicks s).mem := by
  unfold prepTicks
  (try dsimp only)
  repeat' (first | with_reducible assumption | with_reducible refine ite_wf ?_ ?_ | with_reducible apply prepTick_wf | (simp; with_reducible assumption) | (with_reducible refine foldl_wf _ _ ?_ (fun _ _ _ => ?_)) | split | simp)

@[simp] theorem beginRun_mem (e : Nat) (r : Run) (s : State) :
    (beginRun e r s).mem = s.mem := by simp [beginRun, apply_ite State.mem]

@[simp] theorem tickStart_mem (s : State) :
    (tickStart s).mem = s.mem := by
  unfold tickStart
  (try dsimp only)
  repeat' (first
    | (simp; done) | (simp [*]; done)
    | with_reducible refine ite_mem ?_ ?_ | (with_reducible refine foldl_mem _ _ ?_ (fun _ _ _ => ?_)) | split | simp)

@[simp] theorem overrun_mem (e : Nat) (s : State) :
    (overrun e s).mem = s.mem := by
  unfold overrun
  (try dsimp only)
  repeat' (first
    | (simp; done) | (simp [*]; done)
    | with_reducible refine ite_mem ?_ ?_ | (with_reducible refine foldl_mem _ _ ?_ (fun _ _ _ => ?_)) | split | simp)

@[simp] theorem watchdog_mem (e : Nat) (s : State) :
    (watchdog e s).mem = s.mem := by
  unfold watchdog
  (try dsimp only)
  repeat' (first
    | (simp; done) | (simp [*]; done)
    | with_reducible refine ite_mem ?_ ?_ | (with_reducible refine foldl_mem _ _ ?_ (fun _ _ _ => ?_)) | split | simp)

@[simp] theorem takeover_mem (e : Nat) (s : State) :
    (takeover e s).mem = s.mem := by
  unfold takeover
  (try dsimp only)
  repeat' (first
    | (simp; done) | (simp [*]; done)
    | with_reducible refine ite_mem ?_ ?_ | (with_reducible refine foldl_mem _ _ ?_ (fun _ _ _ => ?_)) | split | simp)

@[simp] theorem detachedRun_mem (recovery : Bool) (s : State) :
    (detachedRun recovery s).mem = s.mem := by
  unfold detachedRun
  (try dsimp only)
  repeat' (first
    | (simp; done) | (simp [*]; done)
    | with_reducible refine ite_mem ?_ ?_ | (with_reducible refine foldl_mem _ _ ?_ (fun _ _ _ => ?_)) | split | simp)

@[simp] theorem holdNow_mem (e : Nat) (s : State) :
    (holdNow e s).mem = s.mem := by simp [holdNow, apply_ite State.mem]

@[simp] theorem coilHold_mem (req e : Nat) (on : Bool) (s : State) :
    (coilHold req e on s).mem = s.mem := by simp [coilHold, apply_ite State.mem]

theorem coilStepReq_wf (req e : Nat) (s : State) (h : Memory.wf s.mem) :
    Memory.wf (coilStepReq req e s).mem := by
  unfold coilStepReq
  (try dsimp only)
  repeat' (first | with_reducible assumption | with_reducible refine ite_wf ?_ ?_ | (simp; with_reducible assumption) | (with_reducible refine foldl_wf _ _ ?_ (fun _ _ _ => ?_)) | split | simp)

@[simp] theorem checkpointWrite_mem (req e n : Nat) (v : DWord) (s : State) :
    (checkpointWrite req e n v s).mem = s.mem := by simp [checkpointWrite, apply_ite State.mem]

@[simp] theorem lockForce_mem (n : Nat) (s : State) :
    (lockForce n s).mem = s.mem := by
  unfold lockForce
  (try dsimp only)
  repeat' (first
    | (simp; done) | (simp [*]; done)
    | with_reducible refine ite_mem ?_ ?_ | (with_reducible refine foldl_mem _ _ ?_ (fun _ _ _ => ?_)) | split | simp)

@[simp] theorem coilClr_mem (e : Nat) (v : Nat) (s : State) :
    (coilClr e v s).mem = s.mem := by simp [coilClr, apply_ite State.mem]

theorem engineOff_wf (e : Nat) (abort : Bool) (s : State) (h : Memory.wf s.mem) :
    Memory.wf (engineOff e abort s).mem := by
  unfold engineOff
  (try dsimp only)
  repeat' (first | with_reducible assumption | with_reducible refine ite_wf ?_ ?_ | with_reducible apply dropProgram_wf | (simp; with_reducible assumption) | (with_reducible refine foldl_wf _ _ ?_ (fun _ _ _ => ?_)) | split | simp)

@[simp] theorem clearRange_mem (lo hi : Nat) (s : State) :
    (clearRange lo hi s).mem = s.mem := by simp [clearRange, apply_ite State.mem]

@[simp] theorem loseReq_mem (b : Nat) (q : BankReq) (s : State) :
    (loseReq b q s).mem = s.mem := by
  unfold loseReq
  (try dsimp only)
  repeat' (first
    | (simp; done) | (simp [*]; done)
    | with_reducible refine ite_mem ?_ ?_ | (with_reducible refine foldl_mem _ _ ?_ (fun _ _ _ => ?_)) | split | simp)

theorem loseBank_wf (b : Nat) (s : State) (h : Memory.wf s.mem) :
    Memory.wf (loseBank b s).mem := by
  unfold loseBank
  (try dsimp only)
  repeat' (first | with_reducible assumption | with_reducible refine ite_wf ?_ ?_ | with_reducible apply zeroBank_wf | (simp; with_reducible assumption) | (with_reducible refine foldl_wf _ _ ?_ (fun _ _ _ => ?_)) | split | simp)

@[simp] theorem hostReset_mem (code : Nat) (s : State) :
    (hostReset code s).mem = s.mem := by
  unfold hostReset
  (try dsimp only)
  repeat' (first
    | (simp; done) | (simp [*]; done)
    | with_reducible refine ite_mem ?_ ?_ | (with_reducible refine foldl_mem _ _ ?_ (fun _ _ _ => ?_)) | split | simp)

@[simp] theorem resetPort_mem (p : Nat) (s : State) :
    (resetPort p s).mem = s.mem := by simp [resetPort, apply_ite State.mem]

@[simp] theorem resetPorts_mem (lo n : Nat) (s : State) :
    (resetPorts lo n s).mem = s.mem := by
  unfold resetPorts
  (try dsimp only)
  repeat' (first
    | (simp; done) | (simp [*]; done)
    | with_reducible refine ite_mem ?_ ?_ | (with_reducible refine foldl_mem _ _ ?_ (fun _ _ _ => ?_)) | split | simp)

theorem resetEngine_wf (e : Nat) (s : State) (h : Memory.wf s.mem) :
    Memory.wf (resetEngine e s).mem := by
  unfold resetEngine
  (try dsimp only)
  repeat' (first | with_reducible assumption | with_reducible refine ite_wf ?_ ?_ | with_reducible apply engineOff_wf | (simp; with_reducible assumption) | (with_reducible refine foldl_wf _ _ ?_ (fun _ _ _ => ?_)) | split | simp)

theorem resetCluster_wf (n : Nat) (s : State) (h : Memory.wf s.mem) :
    Memory.wf (resetCluster n s).mem := by
  unfold resetCluster
  (try dsimp only)
  repeat' (first | with_reducible assumption | with_reducible refine ite_wf ?_ ?_ | with_reducible apply resetEngine_wf | (simp; with_reducible assumption) | (with_reducible refine foldl_wf _ _ ?_ (fun _ _ _ => ?_)) | split | simp)

theorem clusterOff_wf (n : Nat) (s : State) (h : Memory.wf s.mem) :
    Memory.wf (clusterOff n s).mem := by
  unfold clusterOff
  (try dsimp only)
  repeat' (first | with_reducible assumption | with_reducible refine ite_wf ?_ ?_ | with_reducible apply engineOff_wf | (simp; with_reducible assumption) | (with_reducible refine foldl_wf _ _ ?_ (fun _ _ _ => ?_)) | split | simp)

theorem resetDma_wf (s : State) (h : Memory.wf s.mem) :
    Memory.wf (resetDma s).mem := by
  unfold resetDma
  (try dsimp only)
  repeat' (first | with_reducible assumption | with_reducible refine ite_wf ?_ ?_ | with_reducible apply chanDisable_wf | (simp; with_reducible assumption) | (with_reducible refine foldl_wf _ _ ?_ (fun _ _ _ => ?_)) | split | simp)

@[simp] theorem resetStay_mem (s : State) :
    (resetStay s).mem = s.mem := by simp [resetStay, apply_ite State.mem]

@[simp] theorem resetForestay_mem (s : State) :
    (resetForestay s).mem = s.mem := by simp [resetForestay, apply_ite State.mem]

@[simp] theorem resetWheels_mem (s : State) :
    (resetWheels s).mem = s.mem := by
  unfold resetWheels
  (try dsimp only)
  repeat' (first
    | (simp; done) | (simp [*]; done)
    | with_reducible refine ite_mem ?_ ?_ | (with_reducible refine foldl_mem _ _ ?_ (fun _ _ _ => ?_)) | split | simp)

@[simp] theorem resetSheaves_mem (s : State) :
    (resetSheaves s).mem = s.mem := by
  unfold resetSheaves
  (try dsimp only)
  repeat' (first
    | (simp; done) | (simp [*]; done)
    | with_reducible refine ite_mem ?_ ?_ | (with_reducible refine foldl_mem _ _ ?_ (fun _ _ _ => ?_)) | split | simp)

@[simp] theorem resetLegacy_mem (s : State) :
    (resetLegacy s).mem = s.mem := by
  unfold resetLegacy
  (try dsimp only)
  repeat' (first
    | (simp; done) | (simp [*]; done)
    | with_reducible refine ite_mem ?_ ?_ | (with_reducible refine foldl_mem _ _ ?_ (fun _ _ _ => ?_)) | split | simp)

theorem resetBlock_wf (code : Nat) (s : State) (h : Memory.wf s.mem) :
    Memory.wf (resetBlock code s).mem := by
  unfold resetBlock
  (try dsimp only)
  repeat' (first | with_reducible assumption | with_reducible refine ite_wf ?_ ?_ | with_reducible apply resetCluster_wf | with_reducible apply resetDma_wf | (simp; with_reducible assumption) | (with_reducible refine foldl_wf _ _ ?_ (fun _ _ _ => ?_)) | split | simp)

@[simp] theorem clearDomain_mem (d : Nat) (s : State) :
    (clearDomain d s).mem = s.mem := by
  unfold clearDomain
  (try dsimp only)
  repeat' (first
    | (simp; done) | (simp [*]; done)
    | with_reducible refine ite_mem ?_ ?_ | (with_reducible refine foldl_mem _ _ ?_ (fun _ _ _ => ?_)) | split | simp)

@[simp] theorem losePorts_mem (lo n : Nat) (s : State) :
    (losePorts lo n s).mem = s.mem := by
  unfold losePorts
  (try dsimp only)
  repeat' (first
    | (simp; done) | (simp [*]; done)
    | with_reducible refine ite_mem ?_ ?_ | (with_reducible refine foldl_mem _ _ ?_ (fun _ _ _ => ?_)) | split | simp)

theorem stopDomain_wf (d : Nat) (s : State) (h : Memory.wf s.mem) :
    Memory.wf (stopDomain d s).mem := by
  unfold stopDomain
  (try dsimp only)
  repeat' (first | with_reducible assumption | with_reducible refine ite_wf ?_ ?_ | with_reducible apply clusterOff_wf | with_reducible apply resetDma_wf | (simp; with_reducible assumption) | (with_reducible refine foldl_wf _ _ ?_ (fun _ _ _ => ?_)) | split | simp)

theorem domainOff_wf (d : Nat) (s : State) (h : Memory.wf s.mem) :
    Memory.wf (domainOff d s).mem := by
  unfold domainOff
  (try dsimp only)
  repeat' (first | with_reducible assumption | with_reducible refine ite_wf ?_ ?_ | with_reducible apply loseBank_wf | with_reducible apply stopDomain_wf | (simp; with_reducible assumption) | (with_reducible refine foldl_wf _ _ ?_ (fun _ _ _ => ?_)) | split | simp)

@[simp] theorem arm_mem (off : Nat) (s : State) :
    (arm off s).mem = s.mem := by simp [arm, apply_ite State.mem]

@[simp] theorem applyWord_mem (s : State) (off : Nat) :
    (applyWord s off).mem = s.mem := by simp [applyWord, apply_ite State.mem]

@[simp] theorem applyFields_mem (lo hi : Nat) (s : State) :
    (applyFields lo hi s).mem = s.mem := by
  unfold applyFields
  (try dsimp only)
  repeat' (first
    | (simp; done) | (simp [*]; done)
    | with_reducible refine ite_mem ?_ ?_ | (with_reducible refine foldl_mem _ _ ?_ (fun _ _ _ => ?_)) | split | simp)

@[simp] theorem applyBlock_mem (tp : Time) (off : Nat) (s : State) :
    (applyBlock tp off s).mem = s.mem := by
  unfold applyBlock
  (try dsimp only)
  repeat' (first
    | (simp; done) | (simp [*]; done)
    | with_reducible refine ite_mem ?_ ?_ | (with_reducible refine foldl_mem _ _ ?_ (fun _ _ _ => ?_)) | split | simp)

theorem applyCommand_wf (e : Nat) (s : State) (h : Memory.wf s.mem) :
    Memory.wf (applyCommand e s).mem := by
  unfold applyCommand
  (try dsimp only)
  repeat' (first | with_reducible assumption | with_reducible refine ite_wf ?_ ?_ | with_reducible apply applyCmd_wf | (simp; with_reducible assumption) | (with_reducible refine foldl_wf _ _ ?_ (fun _ _ _ => ?_)) | split | simp)

theorem commitNoTick_wf (off : Nat) (s : State) (h : Memory.wf s.mem) :
    Memory.wf (commitNoTick off s).mem := by
  unfold commitNoTick
  (try dsimp only)
  repeat' (first | with_reducible assumption | with_reducible refine ite_wf ?_ ?_ | with_reducible apply applyCommand_wf | (simp; with_reducible assumption) | (with_reducible refine foldl_wf _ _ ?_ (fun _ _ _ => ?_)) | split | simp)

@[simp] theorem withholdKln_mem (s : State) :
    (withholdKln s).mem = s.mem := by simp [withholdKln, apply_ite State.mem]

theorem applyAll_wf (B : Time) (s : State) (h : Memory.wf s.mem) :
    Memory.wf (applyAll B s).mem := by
  unfold applyAll
  (try dsimp only)
  repeat' (first | with_reducible assumption | with_reducible refine ite_wf ?_ ?_ | with_reducible apply applyCommand_wf | (simp; with_reducible assumption) | (with_reducible refine foldl_wf _ _ ?_ (fun _ _ _ => ?_)) | split | simp)

@[simp] theorem boundaryRegs_mem (B : Time) (n : Nat) (s : State) :
    (boundaryRegs B n s).mem = s.mem := by simp [boundaryRegs, apply_ite State.mem]

@[simp] theorem boundaryWalk_mem (B : Time) (n : Nat) (s : State) :
    (boundaryWalk B n s).mem = s.mem := by simp [boundaryWalk, apply_ite State.mem]

theorem boundary_wf (B : Time) (n : Nat) (s : State) (h : Memory.wf s.mem) : Memory.wf (boundary B n s).mem := by
  have h1 : Memory.wf (boundaryRegs B n s).mem := by simpa using h
  have h2 : Memory.wf (boundaryWalk B n (if (boundaryRegs B n s).flag KLN_CTRL_HOLD then boundaryRegs B n s
      else applyAll B (boundaryRegs B n s))).mem := by
    rw [boundaryWalk_mem]
    exact ite_wf h1 (applyAll_wf _ _ h1)
  obtain ⟨t, P, e, e'⟩ : ∃ t P, boundary B n s = pulseAt 0x238 (t.mc + 1) t ∧
      t = lgcBoundary B P (sheaveTick B (notifyTick (prepTicks _))) := ⟨_, _, rfl, rfl⟩
  rw [e, pulseAt_mem, e', lgcBoundary_mem, sheaveTick_mem, notifyTick_mem]
  exact prepTicks_wf _ h2

theorem tickBoundary_wf (s : State) (h : Memory.wf s.mem) :
    Memory.wf (tickBoundary s).mem := by
  unfold tickBoundary
  (try dsimp only)
  repeat' (first | with_reducible assumption | with_reducible refine ite_wf ?_ ?_ | with_reducible apply boundary_wf | (simp; with_reducible assumption) | (with_reducible refine foldl_wf _ _ ?_ (fun _ _ _ => ?_)) | split | simp)

@[simp] theorem rearm_mem (s : State) :
    (rearm s).mem = s.mem := by simp [rearm, apply_ite State.mem]

@[simp] theorem tickingEnd_mem (s : State) :
    (tickingEnd s).mem = s.mem := by simp [tickingEnd, apply_ite State.mem]

@[simp] theorem virtualBoundary_mem (s : State) :
    (virtualBoundary s).mem = s.mem := by simp [virtualBoundary, apply_ite State.mem]

@[simp] theorem ticksStart_mem (req : Nat) (s : State) : (ticksStart req s).mem = s.mem := by
  unfold ticksStart
  refine ite_mem rfl (ite_mem (by simp) ?_)
  extract_lets s1 f d x1 x2
  have h1 : s1.mem = s.mem := by simp [s1]
  exact ite_mem h1 (ite_mem h1 (by simpa [x2] using h1))

@[simp] theorem ticksStop_mem (s : State) :
    (ticksStop s).mem = s.mem := by simp [ticksStop, apply_ite State.mem]

@[simp] theorem kilnHold_mem (on : Bool) (s : State) :
    (kilnHold on s).mem = s.mem := by simp [kilnHold, apply_ite State.mem]

@[simp] theorem slotTableWrite_mem (req k n v : Nat) (s : State) :
    (slotTableWrite req k n v s).mem = s.mem := by simp [slotTableWrite, apply_ite State.mem]

@[simp] theorem lanFinish_mem (status : Nat) (pay : List Byte) (s : State) :
    (lanFinish status pay s).mem = s.mem := by
  unfold lanFinish
  (try dsimp only)
  repeat' (first
    | (simp; done) | (simp [*]; done)
    | with_reducible refine ite_mem ?_ ?_ | (with_reducible refine foldl_mem _ _ ?_ (fun _ _ _ => ?_)) | split | simp)

@[simp] theorem lanAnswer_mem (r : List Byte) (s : State) :
    (lanAnswer r s).mem = s.mem := by simp [lanAnswer, apply_ite State.mem]

@[simp] theorem attestDenied_mem (s : State) :
    (attestDenied s).mem = s.mem := by
  unfold attestDenied
  (try dsimp only)
  repeat' (first
    | (simp; done) | (simp [*]; done)
    | with_reducible refine ite_mem ?_ ?_ | (with_reducible refine foldl_mem _ _ ?_ (fun _ _ _ => ?_)) | split | simp)

@[simp] theorem drawWide_mem (n : Nat) (s : State) : (drawWide n s).2.mem = s.mem := by
  induction n generalizing s with
  | zero => rfl
  | succ n ih => simp [drawWide, ih]

@[simp] theorem newChal_mem (s : State) :
    (newChal s).mem = s.mem := by
  unfold newChal
  (try dsimp only)
  repeat' (first
    | (simp; done) | (simp [*]; done)
    | with_reducible refine ite_mem ?_ ?_ | (with_reducible refine foldl_mem _ _ ?_ (fun _ _ _ => ?_)) | split | simp)

theorem wipeSgs_wf (s : State) (h : Memory.wf s.mem) :
    Memory.wf (wipeSgs s).mem := by
  unfold wipeSgs
  (try dsimp only)
  repeat' (first | with_reducible assumption | with_reducible refine ite_wf ?_ ?_ | with_reducible apply startClear_wf | (simp; with_reducible assumption) | (with_reducible refine foldl_wf _ _ ?_ (fun _ _ _ => ?_)) | split | simp)

theorem tamperRespond_wf (m : Nat) (s : State) (h : Memory.wf s.mem) :
    Memory.wf (tamperRespond m s).mem := by
  unfold tamperRespond
  (try dsimp only)
  repeat' (first | with_reducible assumption | with_reducible refine ite_wf ?_ ?_ | with_reducible apply wipeSgs_wf | (simp; with_reducible assumption) | (with_reducible refine foldl_wf _ _ ?_ (fun _ _ _ => ?_)) | split | simp)

theorem tamperTrip_wf (m : Nat) (s : State) (h : Memory.wf s.mem) :
    Memory.wf (tamperTrip m s).mem := by
  unfold tamperTrip
  (try dsimp only)
  repeat' (first | with_reducible assumption | with_reducible refine ite_wf ?_ ?_ | with_reducible apply tamperRespond_wf | (simp; with_reducible assumption) | (with_reducible refine foldl_wf _ _ ?_ (fun _ _ _ => ?_)) | split | simp)

@[simp] theorem tamperRelease_mem (m : Nat) (s : State) :
    (tamperRelease m s).mem = s.mem := by simp [tamperRelease, apply_ite State.mem]

theorem setTampen_wf (v : Nat) (s : State) (h : Memory.wf s.mem) :
    Memory.wf (setTampen v s).mem := by
  unfold setTampen
  (try dsimp only)
  repeat' (first | with_reducible assumption | with_reducible refine ite_wf ?_ ?_ | with_reducible apply tamperRespond_wf | (simp; with_reducible assumption) | (with_reducible refine foldl_wf _ _ ?_ (fun _ _ _ => ?_)) | split | simp)

theorem tampenWrite_wf (req v : Nat) (s : State) (h : Memory.wf s.mem) :
    Memory.wf (tampenWrite req v s).mem := by
  unfold tampenWrite
  (try dsimp only)
  repeat' (first | with_reducible assumption | with_reducible refine ite_wf ?_ ?_ | with_reducible apply setTampen_wf | (simp; with_reducible assumption) | (with_reducible refine foldl_wf _ _ ?_ (fun _ _ _ => ?_)) | split | simp)

@[simp] theorem lifecycleGo_mem (req v : Nat) (s : State) :
    (lifecycleGo req v s).mem = s.mem := by simp [lifecycleGo, apply_ite State.mem]

@[simp] theorem blowGroup_mem (target : Nat) (s : State) :
    (blowGroup target s).mem = s.mem := by
  unfold blowGroup
  (try dsimp only)
  repeat' (first
    | (simp; done) | (simp [*]; done)
    | with_reducible refine ite_mem ?_ ?_ | (with_reducible refine foldl_mem _ _ ?_ (fun _ _ _ => ?_)) | split | simp)

@[simp] theorem freeGroup_mem (target : Nat) (s : State) :
    (freeGroup target s).mem = s.mem := by simp [freeGroup, apply_ite State.mem]

@[simp] theorem freeDigest_mem (dig : Nat) (s : State) :
    (freeDigest dig s).mem = s.mem := by simp [freeDigest, apply_ite State.mem]

@[simp] theorem lcResult_mem (code : Nat) (s : State) :
    (lcResult code s).mem = s.mem := by simp [lcResult, apply_ite State.mem]

theorem lcEffects_wf (target : Nat) (s : State) (h : Memory.wf s.mem) :
    Memory.wf (lcEffects target s).mem := by
  unfold lcEffects
  (try dsimp only)
  repeat' (first | with_reducible assumption | with_reducible refine ite_wf ?_ ?_ | with_reducible apply setTampen_wf | with_reducible apply wipeSgs_wf | (simp; with_reducible assumption) | (with_reducible refine foldl_wf _ _ ?_ (fun _ _ _ => ?_)) | split | simp)

theorem lifecycleComplete_wf (dfail sfail begun : Bool) (s : State) (h : Memory.wf s.mem) :
    Memory.wf (lifecycleComplete dfail sfail begun s).mem := by
  unfold lifecycleComplete
  (try dsimp only)
  repeat' (first | with_reducible assumption | with_reducible refine ite_wf ?_ ?_ | with_reducible apply lcEffects_wf | (simp; with_reducible assumption) | (with_reducible refine foldl_wf _ _ ?_ (fun _ _ _ => ?_)) | split | simp)

@[simp] theorem freeScrap_mem (s : State) :
    (freeScrap s).mem = s.mem := by simp [freeScrap, apply_ite State.mem]

theorem lcInterrupted_wf (s : State) (h : Memory.wf s.mem) :
    Memory.wf (lcInterrupted s).mem := by
  unfold lcInterrupted
  (try dsimp only)
  repeat' (first | with_reducible assumption | with_reducible refine ite_wf ?_ ?_ | with_reducible apply setTampen_wf | (simp; with_reducible assumption) | (with_reducible refine foldl_wf _ _ ?_ (fun _ _ _ => ?_)) | split | simp)

@[simp] theorem vaultStart_mem (s : State) : (vaultStart s).mem = s.mem := by
  have key : ∃ (t u : State) (l : List Nat), t.mem = s.mem ∧ u.mem = t.mem ∧
      vaultStart s = if t.vault.tripOff then l.foldl (fun s k => logFault 9 k 0 0 s) u else t := by
    refine ⟨_, _, _, ?_, ?_, rfl⟩
    · simp
    · rfl
  obtain ⟨t, u, l, ht, hu, e⟩ := key
  rw [e]
  exact ite_mem (foldl_mem _ _ (hu.trans ht) fun v k hv => by simpa using hv) ht

@[simp] theorem requestSwitch_mem (target : Nat) (s : State) :
    (requestSwitch target s).mem = s.mem := by simp [requestSwitch, apply_ite State.mem]

@[simp] theorem askReplay_mem (codes doms : List Nat) (s : State) :
    (askReplay codes doms s).mem = s.mem := by simp [askReplay, apply_ite State.mem]

@[simp] theorem switchEnd_mem (s : State) :
    (switchEnd s).mem = s.mem := by simp [switchEnd, apply_ite State.mem]

@[simp] theorem nextSwitch_mem (s : State) :
    (nextSwitch s).mem = s.mem := by simp [nextSwitch, apply_ite State.mem]

theorem fieldDieOff_wf (s : State) (h : Memory.wf s.mem) : Memory.wf (fieldDieOff s).mem := by
  simp only [fieldDieOff, clearDomain_mem]
  exact stopDomain_wf 14 _ (stopDomain_wf 13 _ h)

theorem domainSwitchOn_wf (s : State) (h : Memory.wf s.mem) :
    Memory.wf (domainSwitchOn s).mem := by
  unfold domainSwitchOn
  (try dsimp only)
  repeat' (first | with_reducible assumption | with_reducible refine ite_wf ?_ ?_ | with_reducible apply fieldDieOff_wf | (simp; with_reducible assumption) | (with_reducible refine foldl_wf _ _ ?_ (fun _ _ _ => ?_)) | split | simp)

theorem declareOn_wf (d : Nat) (s : State) (h : Memory.wf s.mem) : Memory.wf (declareOn d s).mem := by
  have key : ∃ t u : State, Memory.wf t.mem ∧ u.mem = t.mem ∧ declareOn d s =
      if d = 12 then (if u.pwr.ovlo then { u.raise FLD_STATUS_OVLO with pwr.ovlo := false } else u) else t := by
    refine ⟨_, _, ?_, ?_, rfl⟩
    · exact ite_wf (foldl_wf _ _ (by simpa using h) fun t b ht => startClear_wf _ _ ht)
        (foldl_wf _ _ (by simpa using h) fun t b ht => startClear_wf _ _ ht)
    · simp
  obtain ⟨t, u, ht, hu, e⟩ := key
  rw [e]
  exact ite_wf (ite_wf (by simpa [hu] using ht) (by rw [hu]; exact ht)) ht

theorem domainDeclaredOn_wf (s : State) (h : Memory.wf s.mem) :
    Memory.wf (domainDeclaredOn s).mem := by
  unfold domainDeclaredOn
  (try dsimp only)
  repeat' (first | with_reducible assumption | with_reducible refine ite_wf ?_ ?_ | with_reducible apply declareOn_wf | (simp; with_reducible assumption) | (with_reducible refine foldl_wf _ _ ?_ (fun _ _ _ => ?_)) | split | simp)

theorem domainSwitchOff_wf (s : State) (h : Memory.wf s.mem) :
    Memory.wf (domainSwitchOff s).mem := by
  unfold domainSwitchOff
  (try dsimp only)
  repeat' (first | with_reducible assumption | with_reducible refine ite_wf ?_ ?_ | with_reducible apply domainOff_wf | (simp; with_reducible assumption) | (with_reducible refine foldl_wf _ _ ?_ (fun _ _ _ => ?_)) | split | simp)

@[simp] theorem domainDeclaredOff_mem (s : State) :
    (domainDeclaredOff s).mem = s.mem := by
  unfold domainDeclaredOff
  (try dsimp only)
  repeat' (first
    | (simp; done) | (simp [*]; done)
    | with_reducible refine ite_mem ?_ ?_ | (with_reducible refine foldl_mem _ _ ?_ (fun _ _ _ => ?_)) | split | simp)

@[simp] theorem domainFail_mem (s : State) :
    (domainFail s).mem = s.mem := by
  unfold domainFail
  (try dsimp only)
  repeat' (first
    | (simp; done) | (simp [*]; done)
    | with_reducible refine ite_mem ?_ ?_ | (with_reducible refine foldl_mem _ _ ?_ (fun _ _ _ => ?_)) | split | simp)

@[simp] theorem pwrctlWrite_mem (req v : Nat) (s : State) :
    (pwrctlWrite req v s).mem = s.mem := by simp [pwrctlWrite, apply_ite State.mem]

theorem mainOff_wf (s : State) : Memory.wf (mainOff s).mem := by
  simp only [mainOff, State.setF_mem]; rfl

theorem fieldDown_wf (s : State) (h : Memory.wf s.mem) :
    Memory.wf (fieldDown s).mem := by
  unfold fieldDown
  (try dsimp only)
  repeat' (first | with_reducible assumption | with_reducible refine ite_wf ?_ ?_ | with_reducible apply fieldDieOff_wf | (simp; with_reducible assumption) | (with_reducible refine foldl_wf _ _ ?_ (fun _ _ _ => ?_)) | split | simp)

@[simp] theorem supplyValid_mem (k : Nat) (s : State) :
    (supplyValid k s).mem = s.mem := by simp [supplyValid, apply_ite State.mem]

@[simp] theorem vaonLost_mem (s : State) :
    (vaonLost s).mem = s.mem := by simp [vaonLost, apply_ite State.mem]

theorem supplyInvalid_wf (k : Nat) (s : State) (h : Memory.wf s.mem) :
    Memory.wf (supplyInvalid k s).mem := by
  unfold supplyInvalid
  (try dsimp only)
  repeat' (first | with_reducible assumption | with_reducible refine ite_wf ?_ ?_ | with_reducible apply domainOff_wf | with_reducible apply fieldDown_wf | with_reducible apply mainOff_wf | (simp; with_reducible assumption) | (with_reducible refine foldl_wf _ _ ?_ (fun _ _ _ => ?_)) | split | simp)

theorem supplyChange_wf (k ev : Nat) (s : State) (h : Memory.wf s.mem) :
    Memory.wf (supplyChange k ev s).mem := by
  unfold supplyChange
  (try dsimp only)
  repeat' (first | with_reducible assumption | with_reducible refine ite_wf ?_ ?_ | with_reducible apply fieldDown_wf | with_reducible apply supplyInvalid_wf | (simp; with_reducible assumption) | (with_reducible refine foldl_wf _ _ ?_ (fun _ _ _ => ?_)) | split | simp)

@[simp] theorem shutdownNotice_mem (s : State) :
    (shutdownNotice s).mem = s.mem := by simp [shutdownNotice, apply_ite State.mem]

theorem powerOnReset_wf (s : State) (h : Memory.wf s.mem) :
    Memory.wf (powerOnReset s).mem := by
  unfold powerOnReset
  (try dsimp only)
  repeat' (first | with_reducible assumption | with_reducible refine ite_wf ?_ ?_ | with_reducible apply startClear_wf | (simp; with_reducible assumption) | (with_reducible refine foldl_wf _ _ ?_ (fun _ _ _ => ?_)) | split | simp)

theorem sysFall_wf (s : State) (h : Memory.wf s.mem) :
    Memory.wf (sysFall s).mem := by
  unfold sysFall
  (try dsimp only)
  repeat' (first | with_reducible assumption | with_reducible refine ite_wf ?_ ?_ | with_reducible apply fieldDieOff_wf | with_reducible apply mainOff_wf | (simp; with_reducible assumption) | split | simp)

@[simp] theorem sysRise_mem (s : State) :
    (sysRise s).mem = s.mem := by
  unfold sysRise
  (try dsimp only)
  exact ite_mem rfl rfl

theorem sysReset_wf (s : State) (h : Memory.wf s.mem) : Memory.wf (sysReset s).mem :=
  ite_wf (by simpa using h) (sysFall_wf _ h)

@[simp] theorem wake_mem (s : State) :
    (wake s).mem = s.mem := by simp [wake, apply_ite State.mem]

@[simp] theorem vfieldMeasure_mem (v : Nat) (s : State) :
    (vfieldMeasure v s).mem = s.mem := by simp [vfieldMeasure, apply_ite State.mem]

theorem blockReset_wf (codes : List Nat) (s : State) (h : Memory.wf s.mem) :
    Memory.wf (blockReset codes s).mem := by
  unfold blockReset
  (try dsimp only)
  repeat' (first | with_reducible assumption | with_reducible refine ite_wf ?_ ?_ | with_reducible apply resetBlock_wf | (simp; with_reducible assumption) | (with_reducible refine foldl_wf _ _ ?_ (fun _ _ _ => ?_)) | split | simp)

theorem blkrstWrite_wf (req v : Nat) (s : State) (h : Memory.wf s.mem) :
    Memory.wf (blkrstWrite req v s).mem := by
  unfold blkrstWrite
  (try dsimp only)
  repeat' (first | with_reducible assumption | with_reducible refine ite_wf ?_ ?_ | with_reducible apply blockReset_wf | (simp; with_reducible assumption) | (with_reducible refine foldl_wf _ _ ?_ (fun _ _ _ => ?_)) | split | simp)

@[simp] theorem latch_mem (req q : Nat) (s : State) :
    (latch req q s).mem = s.mem := by simp [latch, apply_ite State.mem]

@[simp] theorem readReg_mem (req off : Nat) (s : State) :
    (readReg req off s).2.mem = s.mem := by
  unfold readReg
  (try dsimp only)
  repeat' (first
    | (simp; done) | (simp [*]; done)
    | with_reducible refine ite_mem ?_ ?_ | (with_reducible refine foldl_mem _ _ ?_ (fun _ _ _ => ?_)) | split | simp)

@[simp] theorem readHalf_mem (off : Nat) (s : State) :
    (readHalf off s).2.mem = s.mem := by
  unfold readHalf
  (try dsimp only)
  repeat' (first
    | (simp; done) | (simp [*]; done)
    | with_reducible refine ite_mem ?_ ?_ | (with_reducible refine foldl_mem _ _ ?_ (fun _ _ _ => ?_)) | split | simp)

@[simp] theorem genWrite_mem (req off : Nat) (v : Word) (enabled : Bool) (s : State) :
    (genWrite req off v enabled s).mem = s.mem := by
  unfold genWrite
  (try dsimp only)
  repeat' (first
    | (simp; done) | (simp [*]; done)
    | with_reducible refine ite_mem ?_ ?_ | (with_reducible refine foldl_mem _ _ ?_ (fun _ _ _ => ?_)) | split | simp)

@[simp] theorem checkedWrite_mem (req off : Nat) (v : Word) (enabled ok : Bool) (s : State) :
    (checkedWrite req off v enabled ok s).mem = s.mem := by simp [checkedWrite, apply_ite State.mem]

@[simp] theorem rdmodeWrite_mem (v : Nat) (s : State) :
    (rdmodeWrite v s).mem = s.mem := by simp [rdmodeWrite, apply_ite State.mem]

@[simp] theorem werrClr_mem (s : State) :
    (werrClr s).mem = s.mem := by simp [werrClr, apply_ite State.mem]

@[simp] theorem ownerrClr_mem (s : State) :
    (ownerrClr s).mem = s.mem := by simp [ownerrClr, apply_ite State.mem]

theorem writeGlb_wf (req off : Nat) (v : Word) (s : State) (h : Memory.wf s.mem) :
    Memory.wf (writeGlb req off v s).mem := by
  unfold writeGlb
  (try dsimp only)
  repeat' (first | with_reducible assumption | with_reducible refine ite_wf ?_ ?_ | with_reducible apply blkrstWrite_wf | (simp; with_reducible assumption) | (with_reducible refine foldl_wf _ _ ?_ (fun _ _ _ => ?_)) | split | simp)

@[simp] theorem writeMst_mem (req off : Nat) (v : Word) (s : State) :
    (writeMst req off v s).mem = s.mem := by simp [writeMst, apply_ite State.mem]

@[simp] theorem writeRig_mem (req off : Nat) (v : Word) (s : State) :
    (writeRig req off v s).mem = s.mem := by simp [writeRig, apply_ite State.mem]

theorem writeHly_wf (req off : Nat) (v : Word) (s : State) (h : Memory.wf s.mem) :
    Memory.wf (writeHly req off v s).mem := by
  unfold writeHly
  (try dsimp only)
  repeat' (first | with_reducible assumption | with_reducible refine ite_wf ?_ ?_ | with_reducible apply cctrlWrite_wf | (simp; with_reducible assumption) | (with_reducible refine foldl_wf _ _ ?_ (fun _ _ _ => ?_)) | split | simp)

@[simp] theorem scrubWrite_mem (v : Nat) (s : State) :
    (scrubWrite v s).mem = s.mem := by
  unfold scrubWrite
  (try dsimp only)
  repeat' (first
    | (simp; done) | (simp [*]; done)
    | with_reducible refine ite_mem ?_ ?_ | (with_reducible refine foldl_mem _ _ ?_ (fun _ _ _ => ?_)) | split | simp)

@[simp] theorem sagClr_mem (v : Nat) (s : State) :
    (sagClr v s).mem = s.mem := by
  unfold sagClr
  (try dsimp only)
  repeat' (first
    | (simp; done) | (simp [*]; done)
    | with_reducible refine ite_mem ?_ ?_ | (with_reducible refine foldl_mem _ _ ?_ (fun _ _ _ => ?_)) | split | simp)

@[simp] theorem arbClr_mem (v : Nat) (s : State) :
    (arbClr v s).mem = s.mem := by
  unfold arbClr
  (try dsimp only)
  repeat' (first
    | (simp; done) | (simp [*]; done)
    | with_reducible refine ite_mem ?_ ?_ | (with_reducible refine foldl_mem _ _ ?_ (fun _ _ _ => ?_)) | split | simp)

@[simp] theorem eccInject_mem (req : Nat) (v : Word) (s : State) :
    (eccInject req v s).mem = s.mem := by simp [eccInject, apply_ite State.mem]

@[simp] theorem writeSag_mem (req off : Nat) (v : Word) (s : State) :
    (writeSag req off v s).mem = s.mem := by simp [writeSag, apply_ite State.mem]

@[simp] theorem writeWhl_mem (req off : Nat) (v : Word) (s : State) :
    (writeWhl req off v s).mem = s.mem := by simp [writeWhl, apply_ite State.mem]

@[simp] theorem writeShv_mem (req off : Nat) (v : Word) (s : State) :
    (writeShv req off v s).mem = s.mem := by simp [writeShv, apply_ite State.mem]

@[simp] theorem writeSty_mem (req off : Nat) (v : Word) (s : State) :
    (writeSty req off v s).mem = s.mem := by simp [writeSty, apply_ite State.mem]

@[simp] theorem reread_mem (p : Nat) (s : State) :
    (reread p s).mem = s.mem := by simp [reread, apply_ite State.mem]

@[simp] theorem iocfgWrite_mem (req p : Nat) (v : Word) (s : State) :
    (iocfgWrite req p v s).mem = s.mem := by simp [iocfgWrite, apply_ite State.mem]

@[simp] theorem prtCctrl_mem (req p : Nat) (v : Word) (s : State) :
    (prtCctrl req p v s).mem = s.mem := by simp [prtCctrl, apply_ite State.mem]

@[simp] theorem prtStatus_mem (req p : Nat) (v : Word) (s : State) :
    (prtStatus req p v s).mem = s.mem := by simp [prtStatus, apply_ite State.mem]

@[simp] theorem writePrt_mem (req off : Nat) (v : Word) (s : State) :
    (writePrt req off v s).mem = s.mem := by simp [writePrt, apply_ite State.mem]

@[simp] theorem barredCtrl_mem (req : Nat) (v : Word) (s : State) :
    (barredCtrl req v s).mem = s.mem := by simp [barredCtrl, apply_ite State.mem]

theorem coilCtrl_wf (req e : Nat) (v : Word) (s : State) (h : Memory.wf s.mem) :
    Memory.wf (coilCtrl req e v s).mem := by
  unfold coilCtrl
  (try dsimp only)
  repeat' (first | with_reducible assumption | with_reducible refine ite_wf ?_ ?_ | with_reducible apply coilStepReq_wf | (simp; with_reducible assumption) | (with_reducible refine foldl_wf _ _ ?_ (fun _ _ _ => ?_)) | split | simp)

theorem writeCoil_wf (req off : Nat) (v : Word) (s : State) (h : Memory.wf s.mem) :
    Memory.wf (writeCoil req off v s).mem := by
  unfold writeCoil
  (try dsimp only)
  repeat' (first | with_reducible assumption | with_reducible refine ite_wf ?_ ?_ | with_reducible apply coilCtrl_wf | (simp; with_reducible assumption) | (with_reducible refine foldl_wf _ _ ?_ (fun _ _ _ => ?_)) | split | simp)

@[simp] theorem frsCfg_mem (req : Nat) (v : Word) (s : State) :
    (frsCfg req v s).mem = s.mem := by simp [frsCfg, apply_ite State.mem]

@[simp] theorem writeFrs_mem (req off : Nat) (v : Word) (s : State) :
    (writeFrs req off v s).mem = s.mem := by simp [writeFrs, apply_ite State.mem]

theorem writeVlt_wf (req off : Nat) (v : Word) (s : State) (h : Memory.wf s.mem) :
    Memory.wf (writeVlt req off v s).mem := by
  unfold writeVlt
  (try dsimp only)
  repeat' (first | with_reducible assumption | with_reducible refine ite_wf ?_ ?_ | with_reducible apply tampenWrite_wf | (simp; with_reducible assumption) | (with_reducible refine foldl_wf _ _ ?_ (fun _ _ _ => ?_)) | split | simp)

@[simp] theorem writeLgc_mem (req off : Nat) (v : Word) (s : State) :
    (writeLgc req off v s).mem = s.mem := by simp [writeLgc, apply_ite State.mem]

@[simp] theorem mailboxCtl_mem (req : Nat) (v : Word) (s : State) :
    (mailboxCtl req v s).mem = s.mem := by simp [mailboxCtl, apply_ite State.mem]

@[simp] theorem writeLan_mem (req off : Nat) (v : Word) (s : State) :
    (writeLan req off v s).mem = s.mem := by simp [writeLan, apply_ite State.mem]

theorem putWord_wf (req off : Nat) (v : Word) (s : State) (h : Memory.wf s.mem) :
    Memory.wf (putWord req off v s).mem := by
  unfold putWord
  (try dsimp only)
  repeat' (first | with_reducible assumption | with_reducible refine ite_wf ?_ ?_ | with_reducible apply writeCoil_wf | with_reducible apply writeGlb_wf | with_reducible apply writeHly_wf | with_reducible apply writeVlt_wf | (simp; with_reducible assumption) | (with_reducible refine foldl_wf _ _ ?_ (fun _ _ _ => ?_)) | split | simp)

@[simp] theorem writeWide_mem (req q : Nat) (m v : DWord) (s : State) :
    (writeWide req q m v s).mem = s.mem := by
  unfold writeWide
  (try dsimp only)
  repeat' (first
    | (simp; done) | (simp [*]; done)
    | with_reducible refine ite_mem ?_ ?_ | (with_reducible refine foldl_mem _ _ ?_ (fun _ _ _ => ?_)) | split | simp)

@[simp] theorem latchedWrite_mem (req q : Nat) (hi : Bool) (v : Word) (s : State) :
    (latchedWrite req q hi v s).mem = s.mem := by simp [latchedWrite, apply_ite State.mem]

theorem regWrite_wf (req off : Nat) (v : Word) (s : State) (h : Memory.wf s.mem) :
    Memory.wf (regWrite req off v s).mem := by
  unfold regWrite
  (try dsimp only)
  repeat' (first | with_reducible assumption | with_reducible refine ite_wf ?_ ?_ | with_reducible apply putWord_wf | (simp; with_reducible assumption) | (with_reducible refine foldl_wf _ _ ?_ (fun _ _ _ => ?_)) | split | simp)

theorem regWrite64_wf (req off : Nat) (v : DWord) (s : State) (h : Memory.wf s.mem) :
    Memory.wf (regWrite64 req off v s).mem := by
  unfold regWrite64
  (try dsimp only)
  repeat' (first | with_reducible assumption | with_reducible refine ite_wf ?_ ?_ | with_reducible apply regWrite_wf | (simp; with_reducible assumption) | (with_reducible refine foldl_wf _ _ ?_ (fun _ _ _ => ?_)) | split | simp)

theorem softWrite_wf (req off : Nat) (v : Word) (s : State) (h : Memory.wf s.mem) :
    Memory.wf (softWrite req off v s).mem := by
  unfold softWrite
  (try dsimp only)
  repeat' (first | with_reducible assumption | with_reducible refine ite_wf ?_ ?_ | with_reducible apply regWrite_wf | (simp; with_reducible assumption) | (with_reducible refine foldl_wf _ _ ?_ (fun _ _ _ => ?_)) | split | simp)

theorem setField_wf (req : Nat) (F : Fld) (v : Nat) (s : State) (h : Memory.wf s.mem) :
    Memory.wf (setField req F v s).mem := by
  unfold setField
  (try dsimp only)
  repeat' (first | with_reducible assumption | with_reducible refine ite_wf ?_ ?_ | with_reducible apply softWrite_wf | (simp; with_reducible assumption) | (with_reducible refine foldl_wf _ _ ?_ (fun _ _ _ => ?_)) | split | simp)

@[simp] theorem takeServed_mem (b : Nat) (u : BankUse) (s : State) :
    (takeServed b u s).mem = s.mem := by simp [takeServed, apply_ite State.mem]

theorem unlocked_wf (req b r a : Nat) (l : List Byte) (s : State) (h : Memory.wf s.mem) :
    Memory.wf (unlocked req b r a l s).mem := by
  unfold unlocked
  (try dsimp only)
  repeat' (first | with_reducible assumption | with_reducible refine ite_wf ?_ ?_ | with_reducible apply bankWrite_wf | (simp; with_reducible assumption) | (with_reducible refine foldl_wf _ _ ?_ (fun _ _ _ => ?_)) | split | simp)

@[simp] theorem xactReturn_mem (x : Xact) (kind addr : Nat) (l : List Byte) (s : State) :
    (xactReturn x kind addr l s).mem = s.mem := by
  unfold xactReturn
  (try dsimp only)
  repeat' (first
    | (simp; done) | (simp [*]; done)
    | with_reducible refine ite_mem ?_ ?_ | (with_reducible refine foldl_mem _ _ ?_ (fun _ _ _ => ?_)) | split | simp)

@[simp] theorem readReturn_mem (id status : Nat) (data : List Byte) (s : State) :
    (readReturn id status data s).mem = s.mem := by
  unfold readReturn
  (try dsimp only)
  repeat' (first
    | (simp; done) | (simp [*]; done)
    | (have := bankRead_mem_eq ‹_›; simp_all; done) | (rw [← bankRead_mem_eq ‹_›]) | with_reducible refine ite_mem ?_ ?_ | (with_reducible refine foldl_mem _ _ ?_ (fun _ _ _ => ?_)) | split | simp)

@[simp] theorem xactWritten_mem (x : Xact) (kind addr : Nat) (s : State) :
    (xactWritten x kind addr s).mem = s.mem := by simp [xactWritten, apply_ite State.mem]

theorem writePerformed_wf (id : Nat) (s : State) (h : Memory.wf s.mem) :
    Memory.wf (writePerformed id s).mem := by
  unfold writePerformed
  (try dsimp only)
  repeat' (first | with_reducible assumption | with_reducible refine ite_wf ?_ ?_ | with_reducible apply regWrite64_wf | with_reducible apply unlocked_wf | (simp; with_reducible assumption) | (with_reducible refine foldl_wf _ _ ?_ (fun _ _ _ => ?_)) | split | simp)

@[simp] theorem flushReturn_mem (id : Nat) (s : State) :
    (flushReturn id s).mem = s.mem := by
  unfold flushReturn
  (try dsimp only)
  repeat' (first
    | (simp; done) | (simp [*]; done)
    | with_reducible refine ite_mem ?_ ?_ | (with_reducible refine foldl_mem _ _ ?_ (fun _ _ _ => ?_)) | split | simp)

@[simp] theorem completionTimeout_mem (id : Nat) (s : State) :
    (completionTimeout id s).mem = s.mem := by
  unfold completionTimeout
  (try dsimp only)
  repeat' (first
    | (simp; done) | (simp [*]; done)
    | with_reducible refine ite_mem ?_ ?_ | (with_reducible refine foldl_mem _ _ ?_ (fun _ _ _ => ?_)) | split | simp)

@[simp] theorem farEnd_mem (e : Nat) (r : Run) (g n : Nat) (s : State) :
    (farEnd e r g n s).mem = s.mem := by simp [farEnd, apply_ite State.mem]

@[simp] theorem farLoaded_mem (e : Nat) (r : Run) (f : Far) (g n v : Nat) (s : State) :
    (farLoaded e r f g n v s).mem = s.mem := by simp [farLoaded, apply_ite State.mem]

theorem farRegister_wf (e : Nat) (r : Run) (f : Far) (g n : Nat) (s : State) (h : Memory.wf s.mem) :
    Memory.wf (farRegister e r f g n s).mem := by
  unfold farRegister
  (try dsimp only)
  repeat' (first | with_reducible assumption | with_reducible refine ite_wf ?_ ?_ | with_reducible apply regWrite_wf | with_reducible apply regWrite64_wf | (simp; with_reducible assumption) | (with_reducible refine foldl_wf _ _ ?_ (fun _ _ _ => ?_)) | split | simp)

theorem farBank_wf (e b : Nat) (r : Run) (f : Far) (g n : Nat) (s : State) (h : Memory.wf s.mem) :
    Memory.wf (farBank e b r f g n s).mem := by
  unfold farBank
  (try dsimp only)
  repeat' (first | with_reducible assumption | with_reducible refine ite_wf ?_ ?_ | with_reducible apply unlocked_wf | (simp; with_reducible assumption) | (with_reducible refine foldl_wf _ _ ?_ (fun _ _ _ => ?_)) | split | simp)

theorem farGrant_wf (e g n : Nat) (s : State) (h : Memory.wf s.mem) :
    Memory.wf (farGrant e g n s).mem := by
  unfold farGrant
  (try dsimp only)
  repeat' (first | with_reducible assumption | with_reducible refine ite_wf ?_ ?_ | with_reducible apply farBank_wf | with_reducible apply farRegister_wf | (simp; with_reducible assumption) | (with_reducible refine foldl_wf _ _ ?_ (fun _ _ _ => ?_)) | split | simp)

@[simp] theorem farWithdraw_mem (e : Nat) (s : State) :
    (farWithdraw e s).mem = s.mem := by
  unfold farWithdraw
  (try dsimp only)
  repeat' (first
    | (simp; done) | (simp [*]; done)
    | with_reducible refine ite_mem ?_ ?_ | (with_reducible refine foldl_mem _ _ ?_ (fun _ _ _ => ?_)) | split | simp)

@[simp] theorem hostRegs_mem (off n : Nat) (s : State) :
    (hostRegs off n s).2.mem = s.mem := by
  unfold hostRegs
  (try dsimp only)
  repeat' (first
    | (simp; done) | (simp [*]; done)
    | (have := readReg_mem_eq ‹_›; simp_all; done) | (rw [← readReg_mem_eq ‹_›]) | with_reducible refine ite_mem ?_ ?_ | (with_reducible refine foldl_mem _ _ ?_ (fun _ _ _ => ?_)) | split | simp)

theorem storeEach_wf (off : Nat) (l : List Word) (s : State) (h : Memory.wf s.mem) : Memory.wf (storeEach off l s).mem := by
  induction l generalizing off s with
  | nil => exact h
  | cons v l ih => exact ih _ _ (regWrite_wf _ _ _ _ h)

theorem hostStores_wf (off : Nat) (l : List Word) (s : State) (h : Memory.wf s.mem) : Memory.wf (hostStores off l s).mem :=
  ite_wf (by simpa using h) (storeEach_wf _ _ _ h)

@[simp] theorem postAlias_mem (a : Nat) (d : List (Option Byte)) (s : State) :
    (postAlias a d s).mem = s.mem := by
  unfold postAlias
  (try dsimp only)
  repeat' (first
    | (simp; done) | (simp [*]; done)
    | with_reducible refine ite_mem ?_ ?_ | (with_reducible refine foldl_mem _ _ ?_ (fun _ _ _ => ?_)) | split | simp)

@[simp] theorem postWrite_mem (a : Nat) (d : List (Option Byte)) (al : Bool) (s : State) :
    (postWrite a d al s).mem = s.mem := by
  unfold postWrite
  (try dsimp only)
  repeat' (first
    | (simp; done) | (simp [*]; done)
    | with_reducible refine ite_mem ?_ ?_ | (with_reducible refine foldl_mem _ _ ?_ (fun _ _ _ => ?_)) | split | simp)

@[simp] theorem postRead_mem (tag a len since : Nat) (al : Bool) (s : State) :
    (postRead tag a len since al s).mem = s.mem := by
  unfold postRead
  (try dsimp only)
  repeat' (first
    | (simp; done) | (simp [*]; done)
    | with_reducible refine ite_mem ?_ ?_ | (with_reducible refine foldl_mem _ _ ?_ (fun _ _ _ => ?_)) | split | simp)

theorem hostDo_wf (o : HostOp) (s : State) (h : Memory.wf s.mem) :
    Memory.wf (hostDo o s).mem := by
  unfold hostDo
  (try dsimp only)
  repeat' (first | with_reducible assumption | with_reducible refine ite_wf ?_ ?_ | with_reducible apply hostStores_wf | with_reducible apply regWrite_wf | (simp; with_reducible assumption) | (with_reducible refine foldl_wf _ _ ?_ (fun _ _ _ => ?_)) | split | simp)

theorem drainHost_wf (n : Nat) (s : State) (h : Memory.wf s.mem) : Memory.wf (drainHost n s).mem := by
  induction n generalizing s with
  | zero => exact h
  | succ n ih =>
    simp only [drainHost]
    split
    · exact h
    · split
      · exact ih _ (hostDo_wf _ _ h)
      · exact h

theorem admitHost_wf (n : Nat) (s : State) (h : Memory.wf s.mem) : Memory.wf (admitHost n s).mem := by
  induction n generalizing s with
  | zero => exact h
  | succ n ih =>
    simp only [admitHost]
    split
    · exact h
    · exact ite_wf h (ih _ (drainHost_wf _ _ h))

theorem hostGoOn_wf (s : State) (h : Memory.wf s.mem) : Memory.wf (hostGoOn s).mem :=
  admitHost_wf _ _ (drainHost_wf _ _ h)

@[simp] theorem asking_mem (tag : Nat) (attr : ReqAttr) (s : State) :
    (asking tag attr s).mem = s.mem := by simp [asking, apply_ite State.mem]

theorem hostTake_wf (tag : Option Nat) (o : HostOp) (s : State) (h : Memory.wf s.mem) :
    Memory.wf (hostTake tag o s).mem := by
  unfold hostTake
  (try dsimp only)
  repeat' (first | with_reducible assumption | with_reducible refine ite_wf ?_ ?_ | with_reducible apply hostGoOn_wf | (simp; with_reducible assumption) | (with_reducible refine foldl_wf _ _ ?_ (fun _ _ _ => ?_)) | split | simp)

theorem bar0Read_wf (tag off n : Nat) (s : State) (h : Memory.wf s.mem) :
    Memory.wf (bar0Read tag off n s).mem := by
  unfold bar0Read
  (try dsimp only)
  repeat' (first | with_reducible assumption | with_reducible refine ite_wf ?_ ?_ | with_reducible apply hostTake_wf | (simp; with_reducible assumption) | (with_reducible refine foldl_wf _ _ ?_ (fun _ _ _ => ?_)) | split | simp)

theorem bar0Write_wf (off : Nat) (l : List Word) (full : Bool) (s : State) (h : Memory.wf s.mem) :
    Memory.wf (bar0Write off l full s).mem := by
  unfold bar0Write
  (try dsimp only)
  repeat' (first | with_reducible assumption | with_reducible refine ite_wf ?_ ?_ | with_reducible apply hostTake_wf | with_reducible apply regWrite_wf | (simp; with_reducible assumption) | (with_reducible refine foldl_wf _ _ ?_ (fun _ _ _ => ?_)) | split | simp)

theorem hostMemRead_wf (tag a len : Nat) (s : State) (h : Memory.wf s.mem) :
    Memory.wf (hostMemRead tag a len s).mem := by
  unfold hostMemRead
  (try dsimp only)
  repeat' (first | with_reducible assumption | with_reducible refine ite_wf ?_ ?_ | with_reducible apply hostTake_wf | (simp; with_reducible assumption) | (with_reducible refine foldl_wf _ _ ?_ (fun _ _ _ => ?_)) | split | simp)

theorem hostMemWrite_wf (a : Nat) (d : List (Option Byte)) (s : State) (h : Memory.wf s.mem) :
    Memory.wf (hostMemWrite a d s).mem := by
  unfold hostMemWrite
  (try dsimp only)
  repeat' (first | with_reducible assumption | with_reducible refine ite_wf ?_ ?_ | with_reducible apply hostTake_wf | (simp; with_reducible assumption) | (with_reducible refine foldl_wf _ _ ?_ (fun _ _ _ => ?_)) | split | simp)

theorem hostAlias_wf (tag : Nat) (write : Bool) (a : Nat) (d : List (Option Byte)) (s : State) (h : Memory.wf s.mem) :
    Memory.wf (hostAlias tag write a d s).mem := by
  unfold hostAlias
  (try dsimp only)
  repeat' (first | with_reducible assumption | with_reducible refine ite_wf ?_ ?_ | with_reducible apply hostTake_wf | (simp; with_reducible assumption) | (with_reducible refine foldl_wf _ _ ?_ (fun _ _ _ => ?_)) | split | simp)

theorem proxyAccess_wf (s : State) (h : Memory.wf s.mem) :
    Memory.wf (proxyAccess s).mem := by
  unfold proxyAccess
  (try dsimp only)
  repeat' (first | with_reducible assumption | with_reducible refine ite_wf ?_ ?_ | with_reducible apply hostDo_wf | with_reducible apply hostGoOn_wf | with_reducible apply regWrite_wf | (simp; with_reducible assumption) | (with_reducible refine foldl_wf _ _ ?_ (fun _ _ _ => ?_)) | split | simp)

theorem bankDecision_wf (b q : Nat) (s : State) (h : Memory.wf s.mem) :
    Memory.wf (bankDecision b q s).mem := by
  unfold bankDecision
  (try dsimp only)
  repeat' (first | with_reducible assumption | with_reducible refine ite_wf ?_ ?_ | with_reducible apply bankDecide_wf | with_reducible apply hostGoOn_wf | (simp; with_reducible assumption) | (with_reducible refine foldl_wf _ _ ?_ (fun _ _ _ => ?_)) | split | simp)

@[simp] theorem hostReadTimeout_mem (tag : Nat) (s : State) :
    (hostReadTimeout tag s).mem = s.mem := by
  unfold hostReadTimeout
  (try dsimp only)
  repeat' (first
    | (simp; done) | (simp [*]; done)
    | with_reducible refine ite_mem ?_ ?_ | (with_reducible refine foldl_mem _ _ ?_ (fun _ _ _ => ?_)) | split | simp)

@[simp] theorem cfgWrite_mem (r : CfgReg) (v : Nat) (s : State) :
    (cfgWrite r v s).mem = s.mem := by
  unfold cfgWrite
  (try dsimp only)
  repeat' (first
    | (simp; done) | (simp [*]; done)
    | with_reducible refine ite_mem ?_ ?_ | (with_reducible refine foldl_mem _ _ ?_ (fun _ _ _ => ?_)) | split | simp)

@[simp] theorem configRequest_mem (tag : Nat) (attr : ReqAttr) (routing : Fin (2 ^ 16)) (r : CfgReg) (v : Option Word) (s : State) :
    (configRequest tag attr routing r v s).mem = s.mem := by
  unfold configRequest
  (try dsimp only)
  repeat' (first
    | (simp; done) | (simp [*]; done)
    | with_reducible refine ite_mem ?_ ?_ | (with_reducible refine foldl_mem _ _ ?_ (fun _ _ _ => ?_)) | split | simp)

@[simp] theorem hostLinkReset_mem (k : Nat) (s : State) :
    (hostLinkReset k s).mem = s.mem := by simp [hostLinkReset, apply_ite State.mem]

@[simp] theorem pcieLinkUp_mem (s : State) :
    (pcieLinkUp s).mem = s.mem := by simp [pcieLinkUp, apply_ite State.mem]

@[simp] theorem d3hotEntry_mem (s : State) :
    (d3hotEntry s).mem = s.mem := by simp [d3hotEntry, apply_ite State.mem]

@[simp] theorem setFlash_mem (a : Nat) (v : Byte) (s : State) :
    (setFlash a v s).mem = s.mem := by simp [setFlash, apply_ite State.mem]

@[simp] theorem flashSend_mem (l : List (Nat × Option Nat)) (s : State) :
    (flashSend l s).mem = s.mem := by simp [flashSend, apply_ite State.mem]

@[simp] theorem eraseSend_mem (a : Nat) (s : State) : (eraseSend a s).mem = s.mem := (rfl)

@[simp] theorem State.asRead_mem (s : State) (x : Nat) (misread : List (Nat × Byte)) :
    (State.asRead s x misread).mem = s.mem := by
  unfold State.asRead
  (try dsimp only)
  repeat' (first
    | (simp; done) | (simp [*]; done)
    | with_reducible refine ite_mem ?_ ?_ | (with_reducible refine foldl_mem _ _ ?_ (fun _ _ _ => ?_)) | split | simp)

@[simp] theorem flashRead_mem (l : List Nat) (s : State) :
    (flashRead l s).mem = s.mem := by simp [flashRead, apply_ite State.mem]

theorem mgmtStore_wf (a : Nat) (l : List Byte) (s : State) (h : Memory.wf s.mem) :
    Memory.wf (mgmtStore a l s).mem := by
  unfold mgmtStore
  (try dsimp only)
  repeat' (first | with_reducible assumption | with_reducible refine ite_wf ?_ ?_ | with_reducible apply bankWrite_wf | (simp; with_reducible assumption) | (with_reducible refine foldl_wf _ _ ?_ (fun _ _ _ => ?_)) | split | simp)

theorem mgmtPut_wf (a : Nat) (l : List Byte) (s : State) (h : Memory.wf s.mem) :
    Memory.wf (mgmtPut a l s).mem := by
  unfold mgmtPut
  (try dsimp only)
  repeat' (first | with_reducible assumption | with_reducible refine ite_wf ?_ ?_ | with_reducible apply mgmtStore_wf | (simp; with_reducible assumption) | (with_reducible refine foldl_wf _ _ ?_ (fun _ _ _ => ?_)) | split | simp)

theorem loaderWrite_mem (f : State → State) (s : State) : (loaderWrite f s).mem = (f s).mem := by
  simp only [loaderWrite]; split <;> simp
theorem loaderWrite_wf (f : State → State) (s : State) (h : Memory.wf (f s).mem) : Memory.wf (loaderWrite f s).mem := by
  rw [loaderWrite_mem]; exact h

theorem memItem_wf (first : Bool) (a : Nat) (l : List Byte) (s : State) (h : Memory.wf s.mem) :
    Memory.wf (memItem first a l s).mem := by
  unfold memItem
  extract_lets on old no s1 s2
  have h1 : Memory.wf s1.mem := ite_wf (by simpa [loaderWrite_mem] using h) h
  exact ite_wf (mgmtStore_wf _ _ _ h1) h1

@[simp] theorem mgmtAsk_mem (k b a n : Nat) (s : State) :
    (mgmtAsk k b a n s).mem = s.mem := by simp [mgmtAsk, apply_ite State.mem]

theorem sgmPut_wf (off : Nat) (l : List Byte) (s : State) (h : Memory.wf s.mem) :
    Memory.wf (sgmPut off l s).mem :=
  bankWrite_wf _ _ _ _ _ (by simpa using h)

@[simp] theorem sgmGet_mem (off n : Nat) (s : State) : (sgmGet off n s).2.2.mem = s.mem := by
  simp [sgmGet]

@[simp] theorem askItem_mem (it : RecItem) (s : State) :
    (askItem it s).mem = s.mem := by
  unfold askItem
  (try dsimp only)
  repeat' (first
    | (simp; done) | (simp [*]; done)
    | with_reducible refine ite_mem ?_ ?_ | (with_reducible refine foldl_mem _ _ ?_ (fun _ _ _ => ?_)) | split | simp)

@[simp] theorem takeItem_mem (it : RecItem) (s : State) :
    (takeItem it s).mem = s.mem := by
  unfold takeItem
  (try dsimp only)
  repeat' (first
    | (simp; done) | (simp [*]; done)
    | with_reducible refine ite_mem ?_ ?_ | (with_reducible refine foldl_mem _ _ ?_ (fun _ _ _ => ?_)) | split | simp)

theorem applyItem_wf (x : Nat) (fw : Bool) (it : RecItem) (s : State) (h : Memory.wf s.mem) :
    Memory.wf (applyItem x fw it s).mem := by
  unfold applyItem
  split
  · extract_lets s1
    have h1 : Memory.wf s1.mem := loaderWrite_wf _ _ (regWrite_wf _ _ _ _ h)
    split <;> exact h1
  · exact memItem_wf _ _ _ _ h
  · exact ite_wf h (ite_wf (sgmPut_wf _ _ _ h) (by simpa using h))

theorem checkWait_mem_eq {note : Bool} {s t : State} (h : checkWait note s = some t) : t.mem = s.mem := by
  unfold checkWait at h
  split at h
  · simp_all
  · split at h
    · simp_all
    · simp only [Option.some.injEq] at h; subst h; split <;> simp

theorem commitAll_wf (p : Nat → Bool) (s : State) (h : Memory.wf s.mem) :
    Memory.wf (commitAll p s).mem :=
  foldl_wf _ _ h fun _ _ ht => ite_wf (regWrite_wf _ _ _ _ ht) ht

@[simp] theorem mgmtStart_mem (spi : Bool) (a : Nat) (s : State) :
    (mgmtStart spi a s).mem = s.mem := by simp [mgmtStart, apply_ite State.mem]

@[simp] theorem tryNext_mem (s : State) :
    (tryNext s).mem = s.mem := by
  unfold tryNext
  (try dsimp only)
  repeat' (first
    | (simp; done) | (simp [*]; done)
    | with_reducible refine ite_mem ?_ ?_ | (with_reducible refine foldl_mem _ _ ?_ (fun _ _ _ => ?_)) | split | simp)

@[simp] theorem headersRead_mem (s : State) :
    (headersRead s).mem = s.mem := by simp [headersRead, apply_ite State.mem]

@[simp] theorem markBad_mem (x : Nat) (s : State) :
    (markBad x s).mem = s.mem := by simp [markBad, apply_ite State.mem]

@[simp] theorem markGood_mem (x : Nat) (s : State) :
    (markGood x s).mem = s.mem := by simp [markGood, apply_ite State.mem]

theorem hashChunks_wf (x : Nat) (s : State) (h : Memory.wf s.mem) :
    Memory.wf (hashChunks x s).mem := by
  unfold hashChunks
  (try dsimp only)
  repeat' (first | with_reducible assumption | with_reducible refine ite_wf ?_ ?_ | with_reducible apply sgmPut_wf | (simp; with_reducible assumption) | (with_reducible refine foldl_wf _ _ ?_ (fun _ _ _ => ?_)) | split | simp)

theorem pass1Complete_wf (s : State) (h : Memory.wf s.mem) :
    Memory.wf (pass1Complete s).mem := by
  unfold pass1Complete
  (try dsimp only)
  repeat' (first | with_reducible assumption | with_reducible refine ite_wf ?_ ?_ | with_reducible apply hashChunks_wf | (simp; with_reducible assumption) | (with_reducible refine foldl_wf _ _ ?_ (fun _ _ _ => ?_)) | split | simp)

theorem abortLoad_wf (s : State) (h : Memory.wf s.mem) :
    Memory.wf (abortLoad s).mem := by
  unfold abortLoad
  (try dsimp only)
  repeat' (first | with_reducible assumption | with_reducible refine ite_wf ?_ ?_ | with_reducible apply zeroBank_wf | (simp; with_reducible assumption) | (with_reducible refine foldl_wf _ _ ?_ (fun _ _ _ => ?_)) | split | simp)

@[simp] theorem checkChunk_mem (misread : List (Nat × Byte)) (s : State) :
    (checkChunk misread s).2.mem = s.mem := by simp [checkChunk, apply_ite State.mem]

theorem checkChunks_mem (misread : List (Nat × Byte)) (n : Nat) (s : State) : (checkChunks misread n s).2.mem = s.mem := by
  induction n generalizing s with
  | zero => rfl
  | succ n ih =>
    have h := checkChunk_mem misread s
    simp only [checkChunks]
    split <;> (rename_i e; rw [e] at h; simp only at h)
    · rw [ih, h]
    · exact h
theorem checkChunks_mem_eq {misread : List (Nat × Byte)} {n : Nat} {s t : State} {b : Bool}
    (h : checkChunks misread n s = (b, t)) : t.mem = s.mem := by
  have e := checkChunks_mem misread n s
  rw [h] at e
  exact e

theorem applyItems_wf (misread : List (Nat × Byte)) (l : List (Nat × RecItem)) (s : State) (h : Memory.wf s.mem) :
    Memory.wf (applyItems misread l s).mem := by
  induction l generalizing s with
  | nil =>
    simp only [applyItems]
    split
    · exact h
    · rename_i t ht
      have h' : Memory.wf t.mem := (checkWait_mem_eq ht).symm ▸ h
      split <;> (rename_i e; have h'' := (checkChunks_mem_eq e).symm ▸ h') <;>
        first | exact h'' | exact abortLoad_wf _ h''
  | cons p l ih =>
    obtain ⟨last, it⟩ := p
    simp only [applyItems]
    split
    · exact h
    · rename_i t ht
      have h' : Memory.wf t.mem := (checkWait_mem_eq ht).symm ▸ h
      split <;> (rename_i e; have h'' := (checkChunks_mem_eq e).symm ▸ h') <;>
        first | exact abortLoad_wf _ h'' | exact ite_wf (ih _ (applyItem_wf _ _ _ _ (by simpa using h''))) (by simpa using h'')

theorem recordApply_wf (misread : List (Nat × Byte)) (s : State) (h : Memory.wf s.mem) :
    Memory.wf (recordApply misread s).mem := by
  simp only [recordApply]
  refine ite_wf h ?_
  have h' : Memory.wf (if s.boot.asked = true then s else
      { requestSwitch (s.domains ||| s.recDomains s.boot.slot) s with boot.asked := true }).mem := ite_wf h h
  exact ite_wf h' (applyItems_wf _ _ _ h')

@[simp] theorem loadDone_mem (s : State) :
    (loadDone s).mem = s.mem := by simp [loadDone, apply_ite State.mem]

theorem bootDone_wf (s : State) (h : Memory.wf s.mem) : Memory.wf (bootDone s).mem := by
  unfold bootDone
  split
  · refine ite_wf h ?_
    extract_lets s1 s2
    have h1 : Memory.wf s1.mem := commitAll_wf _ _ h
    have h2 : Memory.wf s2.mem := ite_wf h1 (loaderWrite_wf _ _ (setField_wf _ _ _ _ h1))
    exact ite_wf (by simpa using h1) h2
  · refine ite_wf (by simpa using h) (ite_wf h ?_)
    rw [loadDone_mem]
    exact loaderWrite_wf _ _ (setField_wf _ _ _ _ (loaderWrite_wf _ _ (regWrite64_wf _ _ _ _ h)))
  · exact h

@[simp] theorem replayRead_mem (x : Nat) (s : State) :
    (replayRead x s).mem = s.mem := by
  unfold replayRead
  (try dsimp only)
  repeat' (first
    | (simp; done) | (simp [*]; done)
    | with_reducible refine ite_mem ?_ ?_ | (with_reducible refine foldl_mem _ _ ?_ (fun _ _ _ => ?_)) | split | simp)

@[simp] theorem replayEnd_mem (s : State) :
    (replayEnd s).mem = s.mem := by simp [replayEnd, apply_ite State.mem]

theorem replayOn_wf (r : List Nat × List Nat) (l : List RecItem) (s : State) (h : Memory.wf s.mem) :
    Memory.wf (replayOn r l s).mem := by
  induction l generalizing s with
  | nil =>
    simp only [replayOn]
    split
    · exact h
    · rename_i t ht
      have h' : Memory.wf t.mem := (checkWait_mem_eq ht).symm ▸ h
      exact ite_wf h' (commitAll_wf _ _ (by simpa using h'))
  | cons it l ih =>
    simp only [replayOn]
    split
    · exact h
    · rename_i t ht
      have h' : Memory.wf t.mem := (checkWait_mem_eq ht).symm ▸ h
      refine ite_wf (by simpa using h') (ih _ ?_)
      rw [State.setF_mem]
      exact applyItem_wf _ _ _ _ (by simpa using h')

theorem replay_wf (misread : List (Nat × Byte)) (s : State) (h : Memory.wf s.mem) : Memory.wf (replay misread s).mem := by
  simp only [replay]
  split
  · exact h
  · refine ite_wf (by simpa using h) (ite_wf h (replayOn_wf _ _ _ (by simpa using h)))

@[simp] theorem forgetSlot_mem (x : Nat) (s : State) :
    (forgetSlot x s).mem = s.mem := by simp [forgetSlot, apply_ite State.mem]

theorem stagePut_wf (k : Nat) (l : List Byte) (s : State) (h : Memory.wf s.mem) : Memory.wf (stagePut k l s).mem :=
  foldl_inv (fun x : List Byte × State => Memory.wf x.2.mem) _ _ h fun _ _ hb => sgmPut_wf _ _ _ hb

@[simp] theorem stageGet_mem (k n : Nat) (s : State) : (stageGet k n s).2.mem = s.mem :=
  foldl_inv (fun x : List Byte × State => x.2.mem = s.mem) _ _ rfl fun _ _ hb => (sgmGet_mem _ _ _).trans hb

theorem recStore_wf (x : RecSession) (off : Nat) (l : List Byte) (s : State) (h : Memory.wf s.mem) :
    Memory.wf (recStore x off l s).2.mem := by
  unfold recStore
  split
  · exact h
  · split
    · exact h
    · exact stagePut_wf _ _ _ h

theorem recWrite_wf (off : Nat) (l : List Byte) (s : State) (h : Memory.wf s.mem) :
    Memory.wf (recWrite off l s).2.mem := by
  unfold recWrite
  (try dsimp only)
  repeat' (first | with_reducible assumption | with_reducible apply recStore_wf | (simp; with_reducible assumption) | split)

@[simp] theorem recFinish_mem (s : State) :
    (recFinish s).2.mem = s.mem := by
  unfold recFinish
  (try dsimp only)
  repeat' (first
    | (simp; done) | (simp [*]; done)
    | with_reducible refine ite_mem ?_ ?_ | (with_reducible refine foldl_mem _ _ ?_ (fun _ _ _ => ?_)) | split | simp)

@[simp] theorem flashFail_mem (x : RecSession) (s : State) :
    (flashFail x s).mem = s.mem := by simp [flashFail, apply_ite State.mem]

@[simp] theorem sectorErased_mem (ok : Bool) (s : State) :
    (sectorErased ok s).mem = s.mem := by
  unfold sectorErased
  (try dsimp only)
  repeat' (first
    | (simp; done) | (simp [*]; done)
    | with_reducible refine ite_mem ?_ ?_ | (with_reducible refine foldl_mem _ _ ?_ (fun _ _ _ => ?_)) | split | simp)

@[simp] theorem pageProgrammed_mem (ok : Bool) (s : State) :
    (pageProgrammed ok s).mem = s.mem := by
  unfold pageProgrammed
  (try dsimp only)
  repeat' (first
    | (simp; done) | (simp [*]; done)
    | with_reducible refine ite_mem ?_ ?_ | (with_reducible refine foldl_mem _ _ ?_ (fun _ _ _ => ?_)) | split | simp)

@[simp] theorem acceptFrame_mem (f : List Byte) (s : State) :
    (acceptFrame f s).mem = s.mem := by
  unfold acceptFrame
  (try dsimp only)
  repeat' (first
    | (simp; done) | (simp [*]; done)
    | with_reducible refine ite_mem ?_ ?_ | (with_reducible refine foldl_mem _ _ ?_ (fun _ _ _ => ?_)) | split | simp)

@[simp] theorem responseReady_mem (s : State) :
    (responseReady s).mem = s.mem := by
  unfold responseReady
  (try dsimp only)
  repeat' (first
    | (simp; done) | (simp [*]; done)
    | with_reducible refine ite_mem ?_ ?_ | (with_reducible refine foldl_mem _ _ ?_ (fun _ _ _ => ?_)) | split | simp)

@[simp] theorem readResponse_mem (n : Nat) (s : State) :
    (readResponse n s).2.mem = s.mem := by simp [readResponse, apply_ite State.mem]

@[simp] theorem lanOut_mem (l : List Byte) (s : State) :
    (lanOut l s).mem = s.mem := by simp [lanOut, apply_ite State.mem]

@[simp] theorem i2cRead_mem (addr n : Nat) (s : State) :
    (i2cRead addr n s).mem = s.mem := by simp [i2cRead, apply_ite State.mem]

@[simp] theorem spiReadResponse_mem (n : Nat) (s : State) :
    (spiReadResponse n s).mem = s.mem := by simp [spiReadResponse, apply_ite State.mem]

@[simp] theorem spiReadStatus_mem (n : Nat) (s : State) :
    (spiReadStatus n s).mem = s.mem := by simp [spiReadStatus, apply_ite State.mem]

@[simp] theorem requestFrame_mem (start : LanStart) (f : List Byte) (s : State) :
    (requestFrame start f s).mem = s.mem := by
  unfold requestFrame
  (try dsimp only)
  repeat' (first
    | (simp; done) | (simp [*]; done)
    | with_reducible refine ite_mem ?_ ?_ | (with_reducible refine foldl_mem _ _ ?_ (fun _ _ _ => ?_)) | split | simp)

@[simp] theorem lanRun_mem (cmd : Nat) (body : List Byte → State → State) (s : State) (hb : ∀ p t, (body p t).mem = t.mem) :
    (lanRun cmd body s).mem = s.mem := by unfold lanRun; split <;> [(split <;> simp [hb]); rfl]
theorem lanRun_wf (cmd : Nat) (body : List Byte → State → State) (s : State) (h : Memory.wf s.mem)
    (hb : ∀ p t, Memory.wf t.mem → Memory.wf (body p t).mem) : Memory.wf (lanRun cmd body s).mem := by
  unfold lanRun; split <;> [(split <;> first | exact hb _ _ h | exact h); exact h]

@[simp] theorem getInfo_mem (s : State) : (getInfo s).mem = s.mem := by
  unfold getInfo
  exact lanRun_mem _ _ _ fun p t => by
    (try dsimp only)
    repeat' (first | (simp; done) | (with_reducible refine ite_mem ?_ ?_) | split)

@[simp] theorem readHalves_mem (n off : Nat) (acc : List Byte) (s : State) : (readHalves n off acc s).2.mem = s.mem := by
  induction n generalizing off acc s with
  | zero => rfl
  | succ n ih => simp only [readHalves]; split <;> simp [ih]

@[simp] theorem lanReadReg_mem (s : State) : (lanReadReg s).mem = s.mem := by
  unfold lanReadReg
  refine lanRun_mem _ _ _ fun p t => ?_
  extract_lets off n
  refine ite_mem (by simp) (ite_mem rfl ?_)
  have h := readHalves_mem n off [] t
  split <;> (rename_i e; rw [e] at h; simpa using h)

theorem writeRegs_wf (n off : Nat) (l : List Byte) (s : State) (h : Memory.wf s.mem) : Memory.wf (writeRegs n off l s).2.mem := by
  induction n generalizing off l s with
  | zero => exact h
  | succ n ih =>
    simp only [writeRegs]
    split
    · exact h
    · exact ih _ _ _ (regWrite_wf _ _ _ _ h)

theorem lanWriteReg_wf (s : State) (h : Memory.wf s.mem) : Memory.wf (lanWriteReg s).mem := by
  unfold lanWriteReg
  refine lanRun_wf _ _ _ h fun p t ht => ?_
  repeat' (first | with_reducible assumption | with_reducible apply writeRegs_wf | (simp; with_reducible assumption) | split | simp)

@[simp] theorem lanReadMem_mem (s : State) : (lanReadMem s).mem = s.mem := by
  unfold lanReadMem
  refine lanRun_mem _ _ _ fun p t => ?_
  extract_lets a n
  refine ite_mem (by simp) ?_
  split
  · simp
  · refine ite_mem (by simp) (ite_mem (by simp) ?_)
    split
    rename_i d bad u e
    have h := congrArg (fun x => x.2.2.mem) e
    simp only [bankRead_mem, takeServed_mem] at h
    simp [← h]

theorem lanWriteMem_wf (s : State) (h : Memory.wf s.mem) : Memory.wf (lanWriteMem s).mem := by
  unfold lanWriteMem
  refine lanRun_wf _ _ _ h fun p t ht => ?_
  (try dsimp only)
  repeat' (first | with_reducible assumption | with_reducible apply mgmtPut_wf | (simp; with_reducible assumption) | split | simp)

@[simp] theorem getStatus_mem (s : State) : (getStatus s).mem = s.mem := by
  unfold getStatus
  exact lanRun_mem _ _ _ fun p t => by
    (try dsimp only)
    repeat' (first | (simp; done) | (with_reducible refine ite_mem ?_ ?_) | split)

@[simp] theorem readLog_mem (s : State) : (readLog s).mem = s.mem := by
  unfold readLog
  exact lanRun_mem _ _ _ fun p t => by
    (try dsimp only)
    repeat' (first | (simp; done) | (with_reducible refine ite_mem ?_ ?_) | split)

@[simp] theorem clearLog_mem (s : State) : (clearLog s).mem = s.mem := by
  unfold clearLog
  exact lanRun_mem _ _ _ fun p t => by
    (try dsimp only)
    repeat' (first | (simp; done) | (with_reducible refine ite_mem ?_ ?_) | split)

@[simp] theorem faultLogEntry_mem (s : State) :
    (faultLogEntry s).mem = s.mem := by
  unfold faultLogEntry
  (try dsimp only)
  repeat' (first
    | (simp; done) | (simp [*]; done)
    | with_reducible refine ite_mem ?_ ?_ | (with_reducible refine foldl_mem _ _ ?_ (fun _ _ _ => ?_)) | split | simp)

@[simp] theorem recInfo_mem (s : State) : (recInfo s).mem = s.mem := by
  unfold recInfo
  exact lanRun_mem _ _ _ fun p t => by
    (try dsimp only)
    repeat' (first | (simp; done) | (with_reducible refine ite_mem ?_ ?_) | split)

theorem lanRecWrite_wf (s : State) (h : Memory.wf s.mem) : Memory.wf (lanRecWrite s).mem := by
  unfold lanRecWrite
  refine lanRun_wf _ _ _ h fun p t ht => ?_
  refine ite_wf (by simpa using ht) (ite_wf ht ?_)
  simpa using recWrite_wf _ _ _ ht

@[simp] theorem lanRecFinish_mem (s : State) : (lanRecFinish s).mem = s.mem := by
  unfold lanRecFinish
  exact lanRun_mem _ _ _ fun p t => by
    (try dsimp only)
    repeat' (first | (simp; done) | (with_reducible refine ite_mem ?_ ?_) | split)

@[simp] theorem domainSet_mem (s : State) : (domainSet s).mem = s.mem := by
  unfold domainSet
  exact lanRun_mem _ _ _ fun p t => by
    (try dsimp only)
    repeat' (first | (simp; done) | (with_reducible refine ite_mem ?_ ?_) | split)

theorem lanBlockReset_wf (s : State) (h : Memory.wf s.mem) : Memory.wf (lanBlockReset s).mem := by
  unfold lanBlockReset
  refine lanRun_wf _ _ _ h fun p t ht => ?_
  repeat' (first | with_reducible assumption | with_reducible apply blockReset_wf | (simp; with_reducible assumption) | split | simp)

@[simp] theorem getCert_mem (s : State) : (getCert s).mem = s.mem := by
  unfold getCert
  exact lanRun_mem _ _ _ fun p t => by
    (try dsimp only)
    repeat' (first | (simp; done) | (with_reducible refine ite_mem ?_ ?_) | split)

theorem sgsUse_wf (half : List Byte) (s : State) (h : Memory.wf s.mem) : Memory.wf (sgsUse half s).mem := by
  have hp : ∀ (l : List Byte) (t : State), Memory.wf t.mem →
      Memory.wf (bankWrite 8 0 sgsBase (l.map some) (ownerBeats 8 sgsBase l.length t)).mem :=
    fun l t ht => bankWrite_wf _ _ _ _ _ (by simpa using ht)
  exact hp _ _ (hp _ _ h)

theorem attest_wf (s : State) (h : Memory.wf s.mem) : Memory.wf (attest s).mem := by
  unfold attest
  refine lanRun_wf _ _ _ h fun p t ht => ?_
  repeat' (first | with_reducible assumption | with_reducible apply sgsUse_wf | (simp; with_reducible assumption) | split | simp)

@[simp] theorem mboxGet_mem (s : State) : (mboxGet s).mem = s.mem := by
  unfold mboxGet
  exact lanRun_mem _ _ _ fun p t => by
    (try dsimp only)
    repeat' (first | (simp; done) | (with_reducible refine ite_mem ?_ ?_) | split)

@[simp] theorem mboxPut_mem (s : State) : (mboxPut s).mem = s.mem := by
  unfold mboxPut
  refine lanRun_mem _ _ _ fun p t => ite_mem (by simp) (ite_mem (by simp) ?_)
  extract_lets old new s1
  have h1 : s1.mem = t.mem := foldl_mem _ _ rfl fun u k hu => by simpa using hu
  simpa using h1

theorem frsTickStart_wf (s : State) (h : Memory.wf s.mem) :
    Memory.wf (frsTickStart s).mem := by
  unfold frsTickStart
  (try dsimp only)
  repeat' (first | with_reducible assumption | with_reducible refine ite_wf ?_ ?_ | with_reducible apply boundary_wf | (simp; with_reducible assumption) | (with_reducible refine foldl_wf _ _ ?_ (fun _ _ _ => ?_)) | split | simp)

@[simp] theorem frsAction_mem (s : State) :
    (frsAction s).mem = s.mem := by
  unfold frsAction
  (try dsimp only)
  repeat' (first
    | (simp; done) | (simp [*]; done)
    | with_reducible refine ite_mem ?_ ?_ | (with_reducible refine foldl_mem _ _ ?_ (fun _ _ _ => ?_)) | split | simp)

theorem frsReset_wf (s : State) (h : Memory.wf s.mem) :
    Memory.wf (frsReset s).mem := by
  unfold frsReset
  (try dsimp only)
  repeat' (first | with_reducible assumption | with_reducible refine ite_wf ?_ ?_ | with_reducible apply blockReset_wf | (simp; with_reducible assumption) | (with_reducible refine foldl_wf _ _ ?_ (fun _ _ _ => ?_)) | split | simp)

theorem runProxy_wf (s : State) (h : Memory.wf s.mem) :
    Memory.wf (runProxy s).mem := by
  unfold runProxy
  (try dsimp only)
  repeat' (first | with_reducible assumption | with_reducible refine ite_wf ?_ ?_ | with_reducible apply regWrite_wf | (simp; with_reducible assumption) | (with_reducible refine foldl_wf _ _ ?_ (fun _ _ _ => ?_)) | split | simp)

theorem retrainEnd_wf (tx rx : Nat) (s : State) (h : Memory.wf s.mem) :
    Memory.wf (retrainEnd tx rx s).mem := by
  unfold retrainEnd
  (try dsimp only)
  repeat' (first | with_reducible assumption | with_reducible refine ite_wf ?_ ?_ | with_reducible apply hostGoOn_wf | with_reducible apply runProxy_wf | (simp; with_reducible assumption) | (with_reducible refine foldl_wf _ _ ?_ (fun _ _ _ => ?_)) | split | simp)

theorem softWrite64_wf (req off : Nat) (v : DWord) (s : State) (h : Memory.wf s.mem) :
    Memory.wf (softWrite64 req off v s).mem := by
  unfold softWrite64
  (try dsimp only)
  repeat' (first | with_reducible assumption | with_reducible refine ite_wf ?_ ?_ | with_reducible apply regWrite64_wf | (simp; with_reducible assumption) | (with_reducible refine foldl_wf _ _ ?_ (fun _ _ _ => ?_)) | split | simp)

@[simp] theorem checkBeats_mem (s : State) :
    (checkBeats s).mem = s.mem := by
  unfold checkBeats
  (try dsimp only)
  repeat' (first
    | (simp; done) | (simp [*]; done)
    | with_reducible refine ite_mem ?_ ?_ | (with_reducible refine foldl_mem _ _ ?_ (fun _ _ _ => ?_)) | split | simp)

@[simp] theorem portArrival_mem (p : Nat) (ok : Nat → Bool) (f : Action → State → State) (s : State)
    (hf : ∀ a t, (f a t).mem = t.mem) : (portArrival p ok f s).mem = s.mem := by
  unfold portArrival; split <;> [rfl; (split <;> [rfl; (split <;> simp [hf])])]

@[simp] theorem actionArrival_mem (p : Nat) (s : State) :
    (actionArrival p s).mem = s.mem := by simp [actionArrival, apply_ite State.mem]

@[simp] theorem retimeArrival_mem (p : Nat) (s : State) :
    (retimeArrival p s).mem = s.mem := by simp [retimeArrival, apply_ite State.mem]

@[simp] theorem cancelArrival_mem (p : Nat) (s : State) :
    (cancelArrival p s).mem = s.mem := by simp [cancelArrival, apply_ite State.mem]

@[simp] theorem portInput_mem (p : Nat) (lvl : Bool) (fine : Nat) (s : State) :
    (portInput p lvl fine s).mem = s.mem := by simp [portInput, apply_ite State.mem]

@[simp] theorem State.withFetchWord_mem (s : State) (nbits w : Nat) :
    (State.withFetchWord s nbits w).mem = s.mem := by
  unfold State.withFetchWord
  (try dsimp only)
  repeat' (first
    | (simp; done) | (simp [*]; done)
    | with_reducible refine ite_mem ?_ ?_ | (with_reducible refine foldl_mem _ _ ?_ (fun _ _ _ => ?_)) | split | simp)

end Sys2Proof.Machine
end

