-- ==== Sys2Proof/Laws/Rows.lean ====
section
/-! SUPPORT. The rows of the register map that the commands write. -/

namespace Sys2Proof.Machine

open Sys2Proof Reg

theorem rowAt_GLB_RDMODE :
    rowAt (GLB_RDMODE) = some (⟨68, 1, 1, 1, 1, false, 65535, 0, 0, 0, 0⟩, 0) := by
  decide
theorem rowAt_GLB_WERR :
    rowAt (GLB_WERR) = some (⟨72, 1, 1, 1, 1, false, 0, 0, 0, 1, 0⟩, 0) := by
  decide
theorem rowAt_GLB_OWNERR :
    rowAt (GLB_OWNERR) = some (⟨128, 1, 1, 1, 1, false, 0, 0, 0, 0, 0⟩, 0) := by
  decide
theorem rowAt_GLB_PORTOWN (i : Fin 96) :
    rowAt (GLB_PORTOWN i) = some (⟨1024, 4, 96, 1, 1, false, 0, 799, 0, 0, 0⟩, 0) := by
  revert i; decide
theorem rowAt_GLB_PWRCTL :
    rowAt (GLB_PWRCTL) = some (⟨92, 1, 1, 1, 1, false, 0, 0, 0, 0, 0⟩, 0) := by
  decide
theorem rowAt_GLB_BLKRST :
    rowAt (GLB_BLKRST) = some (⟨100, 1, 1, 1, 1, false, 0, 0, 0, 0, 0⟩, 0) := by
  decide
theorem rowAt_MST_CTRL :
    rowAt (MST_CTRL) = some (⟨65536, 1, 1, 1, 1, false, 1, 6, 0, 0, 0⟩, 0) := by
  decide
theorem rowAt_MST_STATUS :
    rowAt (MST_STATUS) = some (⟨65540, 1, 1, 1, 1, false, 0, 0, 0, 52, 0⟩, 0) := by
  decide
theorem rowAt_KLN_CTRL :
    rowAt (KLN_CTRL) = some (⟨65664, 1, 1, 1, 1, false, 3, 0, 0, 0, 0⟩, 0) := by
  decide
theorem rowAt_KLN_PERIOD :
    rowAt (KLN_PERIOD) = some (⟨65672, 1, 1, 1, 1, false, 0, 4294967295, 0, 0, 2000⟩, 0) := by
  decide
theorem rowAt_RIG_TAP (i : Fin 64) :
    rowAt (RIG_TAP i) = some (⟨132096, 4, 64, 1, 1, false, 65535, 0, 0, 0, 0⟩, 0) := by
  revert i; decide
theorem rowAt_RIG_CWBASE :
    rowAt (RIG_CWBASE) = some (⟨131204, 1, 1, 1, 1, false, 0, 0, 262143, 0, 0⟩, 0) := by
  decide
theorem rowAt_RIG_SWPULSE :
    rowAt (RIG_SWPULSE) = some (⟨131076, 1, 1, 1, 1, false, 0, 0, 0, 0, 0⟩, 0) := by
  decide
theorem rowAt_RIG_CLR :
    rowAt (RIG_CLR) = some (⟨131084, 1, 1, 1, 1, false, 0, 0, 0, 0, 0⟩, 0) := by
  decide
theorem rowAt_RIG_TAPCLR :
    rowAt (RIG_TAPCLR) = some (⟨132352, 1, 1, 1, 1, false, 0, 0, 0, 0, 0⟩, 0) := by
  decide
theorem rowAt_RIG_CWRD :
    rowAt (RIG_CWRD) = some (⟨131220, 1, 1, 1, 1, false, 4294967295, 0, 0, 0, 0⟩, 0) := by
  decide
theorem rowAt_RIG_CWCFG :
    rowAt (RIG_CWCFG) = some (⟨131200, 1, 1, 1, 1, false, 1, 0, 0, 0, 0⟩, 0) := by
  decide
theorem rowAt_HLY_CCTRL (i : Fin 32) :
    rowAt (HLY_CCTRL i) = some (⟨200704, 64, 32, 1, 1, false, 1, 0, 0, 0, 0⟩, 0) := by
  revert i; decide
theorem rowAt_HLY_STATUS :
    rowAt (HLY_STATUS) = some (⟨196608, 1, 1, 1, 1, false, 0, 0, 0, 3, 0⟩, 0) := by
  decide
theorem rowAt_HLY_BUSCNT :
    rowAt (HLY_BUSCNT) = some (⟨196628, 1, 1, 1, 1, false, 0, 0, 0, 0, 0⟩, 0) := by
  decide
theorem rowAt_HLY_CCNT (i : Fin 32) :
    rowAt (HLY_CCNT i) = some (⟨200740, 64, 32, 1, 1, false, 4294967295, 0, 0, 0, 0⟩, 0) := by
  revert i; decide
theorem rowAt_SAG_ECCINJ :
    rowAt (SAG_ECCINJ) = some (⟨262148, 1, 1, 1, 1, false, 3843, 0, 0, 0, 0⟩, 0) := by
  decide
theorem rowAt_SAG_SCRUB :
    rowAt (SAG_SCRUB) = some (⟨262152, 1, 1, 1, 1, false, 65535, 0, 0, 0, 256⟩, 0) := by
  decide
theorem rowAt_SAG_CLR :
    rowAt (SAG_CLR) = some (⟨262156, 1, 1, 1, 1, false, 0, 0, 0, 0, 0⟩, 0) := by
  decide
theorem rowAt_ARB_CLR :
    rowAt (ARB_CLR) = some (⟨262436, 1, 1, 1, 1, false, 0, 0, 0, 0, 0⟩, 0) := by
  decide
theorem rowAt_WHL_CTRL (i : Fin 4) :
    rowAt (WHL_CTRL i) = some (⟨327680, 4096, 4, 1, 1, false, 1, 0, 0, 0, 0⟩, 0) := by
  revert i; decide
theorem rowAt_WHL_CLR (i : Fin 4) :
    rowAt (WHL_CLR i) = some (⟨327740, 4096, 4, 1, 1, false, 0, 0, 0, 0, 0⟩, 0) := by
  revert i; decide
theorem rowAt_SHV_CTRL (i : Fin 8) :
    rowAt (SHV_CTRL i) = some (⟨393216, 2048, 8, 1, 1, false, 1, 0, 0, 0, 0⟩, 0) := by
  revert i; decide
theorem rowAt_SHV_CLR (i : Fin 8) :
    rowAt (SHV_CLR i) = some (⟨393276, 2048, 8, 1, 1, false, 0, 0, 0, 0, 0⟩, 0) := by
  revert i; decide
theorem rowAt_PRT_CTRL (i : Fin 96) :
    rowAt (PRT_CTRL i) = some (⟨524288, 256, 96, 1, 1, false, 1, 0, 0, 0, 0⟩, 0) := by
  revert i; decide
theorem rowAt_PRT_CLR (i : Fin 96) :
    rowAt (PRT_CLR i) = some (⟨524340, 256, 96, 1, 1, false, 0, 0, 0, 0, 0⟩, 0) := by
  revert i; decide
theorem rowAt_PRT_CCTRL (i : Fin 96) :
    rowAt (PRT_CCTRL i) = some (⟨524416, 256, 96, 1, 1, false, 1, 63350, 0, 0, 0⟩, 0) := by
  revert i; decide
theorem rowAt_PRT_STATUS (i : Fin 96) :
    rowAt (PRT_STATUS i) = some (⟨524292, 256, 96, 1, 1, false, 0, 0, 0, 16711680, 0⟩, 0) := by
  revert i; decide
theorem rowAt_COIL_CTRL (i : Fin 17) :
    rowAt (COIL_CTRL i) = some (⟨589824, 1024, 17, 1, 1, false, 196864, 19, 0, 0, 16⟩, 0) := by
  revert i; decide
theorem rowAt_COIL_CKESTAT (i : Fin 17) :
    rowAt (COIL_CKESTAT i) = some (⟨590080, 1024, 17, 1, 1, false, 0, 0, 31, 0, 0⟩, 0) := by
  revert i; decide
theorem rowAt_COIL_LOCK (i : Fin 64) :
    rowAt (COIL_LOCK i) = some (⟨614400, 4, 64, 1, 1, false, 0, 0, 0, 0, 0⟩, 0) := by
  revert i; decide
theorem rowAt_COIL_CLR (i : Fin 17) :
    rowAt (COIL_CLR i) = some (⟨589876, 1024, 17, 1, 1, false, 0, 0, 0, 0, 0⟩, 0) := by
  revert i; decide
theorem rowAt_FRS_CTRL :
    rowAt (FRS_CTRL) = some (⟨655360, 1, 1, 1, 1, false, 1, 0, 0, 0, 0⟩, 0) := by
  decide
theorem rowAt_FRS_OPCMD :
    rowAt (FRS_OPCMD) = some (⟨655508, 1, 1, 1, 1, false, 7, 0, 0, 0, 0⟩, 0) := by
  decide
theorem rowAt_VLT_LCCMD :
    rowAt (VLT_LCCMD) = some (⟨720900, 1, 1, 1, 1, false, 0, 0, 0, 0, 0⟩, 0) := by
  decide
theorem rowAt_VLT_TAMPEN :
    rowAt (VLT_TAMPEN) = some (⟨720908, 1, 1, 1, 1, false, 31, 0, 0, 0, 31⟩, 0) := by
  decide
theorem rowAt_LAN_MBCTL :
    rowAt (LAN_MBCTL) = some (⟨983044, 1, 1, 1, 1, false, 0, 0, 0, 0, 0⟩, 0) := by
  decide
theorem rowAt_LGC_BCTRL (i : Fin 4) :
    rowAt (LGC_BCTRL i) = some (⟨786688, 256, 4, 1, 1, false, 1, 0, 0, 0, 0⟩, 0) := by
  revert i; decide
theorem rowAt_LGC_TCTRL (i : Fin 4) (j : Fin 4) :
    rowAt (LGC_TCTRL i j) = some (⟨786720, 256, 4, 32, 4, false, 1, 0, 0, 0, 0⟩, 0) := by
  revert i j; decide

end Sys2Proof.Machine
end

