-- ==== Sys2Proof/Laws/Writes.lean ====
section
/-! SUPPORT. Laws of register writes of software: from a row command to the write of its register. -/

namespace Sys2Proof.Machine

open Sys2Proof Reg

set_option linter.all false

/-- A write that reaches the block of a register that is no part of a wide quantity. -/
theorem softWrite_reaches {s : State} {off : Nat} (req : Nat) (v : Word) (h : s.reaches off) (hw : wideRw off = none) :
    softWrite req off v s = putWord req off v s := by
  simp [softWrite, regWrite, h.1, h.2, hw]

/-- A write to a block that does not answer is refused. -/
theorem softWrite_refused {s : State} {off : Nat} (req : Nat) (v : Word) (h : s.answers off = false)
    (hp : s.proxyWaits off = false) : softWrite req off v s = werr req off s := by
  simp [softWrite, regWrite, h, hp]

/-- A write to a block that answers, at an offset that holds no register. -/
theorem putWord_unassigned {off : Nat} (req : Nat) (v : Word) (s : State) (h : rowAt off = none)
    (hm : off / 0x10000 ≠ 14) : putWord req off v s = s := by
  simp [putWord, h, hm]

theorem wideRw_unassigned {off : Nat} (h : rowAt off = none) : wideRw off = none := by simp [wideRw, h]

/-! ### Reading a register after an update -/

/-- A narrow field is bits of its register. -/
theorem State.f_narrow (s : State) (F : Fld) (h : F.lo + F.w ≤ 32) : s.f F = bitsOf (s.reg F.off).toNat F.lo F.w := by
  simp [State.f, h]

theorem State.f_congr {s t : State} (F : Fld) (h : F.lo + F.w ≤ 32) (hr : t.reg F.off = s.reg F.off) : t.f F = s.f F := by
  rw [State.f_narrow _ _ h, State.f_narrow _ _ h, hr]

theorem State.setReg_f_ne (s : State) {a : Nat} (v : Word) (F : Fld) (h : F.lo + F.w ≤ 32) (ha : F.off ≠ a) :
    (s.setReg a v).f F = s.f F := State.f_congr F h (State.setReg_reg_ne s v ha)

theorem State.raise_reg_ne (s : State) (F : Fld) {a : Nat} (hF : F.lo + F.w ≤ 32) (h : a ≠ F.off) :
    (s.raise F).reg a = s.reg a := by rw [State.raise, State.note_reg, State.setF_reg_ne s F 1 hF h]

theorem State.bump_reg_ne (s : State) (F : Fld) {a : Nat} (hF : F.lo + F.w ≤ 32) (h : a ≠ F.off) :
    (s.bump F).reg a = s.reg a := by rw [State.bump, State.note_reg, State.setF_reg_ne s F _ hF h]

theorem State.clearCnt_reg_ne (s : State) (F : Fld) {a : Nat} (hF : F.lo + F.w ≤ 32) (h : a ≠ F.off) :
    (s.clearCnt F).reg a = s.reg a := by rw [State.clearCnt, State.setF_reg_ne s F _ hF h]

theorem State.raise_f_ne (s : State) (F G : Fld) (hF : F.lo + F.w ≤ 32) (hG : G.lo + G.w ≤ 32)
    (h : G.off ≠ F.off ∨ G.lo + G.w ≤ F.lo ∨ F.lo + F.w ≤ G.lo) : (s.raise F).f G = s.f G := by
  rw [State.raise, State.note_f, State.setF_f_ne s F G 1 hF hG h]

theorem State.bump_f_ne (s : State) (F G : Fld) (hF : F.lo + F.w ≤ 32) (hG : G.lo + G.w ≤ 32)
    (h : G.off ≠ F.off ∨ G.lo + G.w ≤ F.lo ∨ F.lo + F.w ≤ G.lo) : (s.bump F).f G = s.f G := by
  rw [State.bump, State.note_f, State.setF_f_ne s F G _ hF hG h]

theorem State.clearCnt_f_ne (s : State) (F G : Fld) (hF : F.lo + F.w ≤ 32) (hG : G.lo + G.w ≤ 32)
    (h : G.off ≠ F.off ∨ G.lo + G.w ≤ F.lo ∨ F.lo + F.w ≤ G.lo) : (s.clearCnt F).f G = s.f G := by
  rw [State.clearCnt, State.setF_f_ne s F G _ hF hG h]

theorem State.clearCnt_f_same (s : State) (F : Fld) (h : F.lo + F.w ≤ 32) :
    (s.clearCnt F).f F = min (s.noted F) (2 ^ F.w - 1) := by
  have := Nat.two_pow_pos F.w
  rw [State.clearCnt, State.setF_f_same s F _ h, fmax, Nat.mod_eq_of_lt (by omega)]

/-- The parts that the register operations leave alone. -/
theorem State.setReg_eq (s : State) (a : Nat) (v : Word) : s.setReg a v = { s with regs := (s.setReg a v).regs } := rfl
theorem State.note_eq (s : State) (F : Fld) : s.note F = { s with hwNow := (s.note F).hwNow } := rfl

theorem State.setReg64_eq (s : State) (a v : Nat) : s.setReg64 a v = { s with regs := (s.setReg64 a v).regs } := by
  unfold State.setReg64
  rw [State.setReg_eq (s.setReg _ _), State.setReg_eq s]

theorem State.setF_eq (s : State) (F : Fld) (v : Nat) : s.setF F v = { s with regs := (s.setF F v).regs } := by
  unfold State.setF
  by_cases h : F.lo + F.w ≤ 32
  · rw [if_pos h]; exact State.setReg_eq _ _ _
  · rw [if_neg h]; exact State.setReg64_eq _ _ _

theorem State.raise_eq (s : State) (F : Fld) : s.raise F = { s with regs := (s.raise F).regs, hwNow := (s.raise F).hwNow } := by
  unfold State.raise
  rw [State.note_eq, State.setF_eq]

theorem State.bump_eq (s : State) (F : Fld) : s.bump F = { s with regs := (s.bump F).regs, hwNow := (s.bump F).hwNow } := by
  unfold State.bump
  rw [State.note_eq, State.setF_eq]

theorem OnlyNoted.trans {s t u : State} {l : List Nat} (h : OnlyNoted s t l) (k : OnlyNoted t u l) : OnlyNoted s u l := by
  refine ⟨?_, fun o ho => (k.2 o ho).trans (h.2 o ho)⟩
  rw [k.1, h.1]

theorem OnlyRegs.trans {s t u : State} {l : List Nat} (h : OnlyRegs s t l) (k : OnlyRegs t u l) : OnlyRegs s u l := by
  refine ⟨?_, fun o ho => (k.2 o ho).trans (h.2 o ho)⟩
  rw [k.1, h.1]

theorem OnlyRegs.noted {s t : State} {l : List Nat} (h : OnlyRegs s t l) : OnlyNoted s t l := by
  refine ⟨?_, h.2⟩
  rw [h.1]

theorem setReg_onlyRegs (s : State) {a : Nat} (v : Word) {l : List Nat} (h : a ∈ l) : OnlyRegs s (s.setReg a v) l :=
  ⟨State.setReg_eq _ _ _, fun o ho => State.setReg_reg_ne s v (fun e => ho (e ▸ h))⟩

theorem setF_onlyRegs (s : State) (F : Fld) (v : Nat) {l : List Nat} (hF : F.lo + F.w ≤ 32) (h : F.off ∈ l) :
    OnlyRegs s (s.setF F v) l :=
  ⟨State.setF_eq _ _ _, fun o ho => State.setF_reg_ne s F v hF (fun e => ho (e ▸ h))⟩

theorem raise_onlyNoted (s : State) (F : Fld) {l : List Nat} (hF : F.lo + F.w ≤ 32) (h : F.off ∈ l) :
    OnlyNoted s (s.raise F) l :=
  ⟨State.raise_eq _ _, fun o ho => State.raise_reg_ne s F hF (fun e => ho (e ▸ h))⟩

theorem bump_onlyNoted (s : State) (F : Fld) {l : List Nat} (hF : F.lo + F.w ≤ 32) (h : F.off ∈ l) :
    OnlyNoted s (s.bump F) l :=
  ⟨State.bump_eq _ _, fun o ho => State.bump_reg_ne s F hF (fun e => ho (e ▸ h))⟩

/-- The refusal of a write (R383, R384). -/
theorem werr_refused (req off : Nat) (s : State) : Refused req off s (werr req off s) := by
  refine ⟨?_, ?_, ?_, ?_, ?_⟩
  · unfold werr
    rw [State.setReg_f_ne _ _ _ (by decide) (by decide), State.setF_f_ne _ _ _ _ (by decide) (by decide) (by decide),
      State.bump_f_ne _ _ _ (by decide) (by decide) (by decide), State.raise_f_same _ _ (by decide) (by decide)]
  · unfold werr
    rw [State.setReg_f_ne _ _ _ (by decide) (by decide), State.setF_f_ne _ _ _ _ (by decide) (by decide) (by decide),
      State.bump_f_same _ _ (by decide), State.raise_f_ne _ _ _ (by decide) (by decide) (by decide)]
    rfl
  · unfold werr
    rw [State.setReg_f_ne _ _ _ (by decide) (by decide), State.setF_f_same _ _ _ (by decide)]
    rfl
  · simp [werr]
  · exact (((raise_onlyNoted s _ (by decide) (by decide)).trans (bump_onlyNoted _ _ (by decide) (by decide))).trans
      (setF_onlyRegs _ _ _ (by decide) (by decide)).noted).trans (setReg_onlyRegs _ _ (by decide)).noted

end Sys2Proof.Machine
end

