-- ==== Sys2Proof/Laws/Engines.lean ====
section
/-! SUPPORT. What the shared operations of pulses, faults and instruction completion do. -/

namespace Sys2Proof.Machine

open Sys2Proof Reg

set_option linter.all false

/-! ### Frames of folds -/

/-- What every step of a fold keeps, the fold keeps. -/
theorem foldl_keep {α β γ : Type} (g : α → γ) (f : α → β → α) (h : ∀ s b, g (f s b) = g s) (l : List β) (s : α) :
    g (l.foldl f s) = g s := by
  induction l generalizing s with
  | nil => rfl
  | cons b l ih => rw [List.foldl_cons, ih, h]

/-! ### Pulses -/

/-- A dropped pulse leaves its flag and its count, and nothing else. -/
theorem dropPulse_onlyNoted (e : Nat) (s : State) : OnlyNoted s (dropPulse e s) [RIG_STATUS, RIG_DLYINFO] := by
  unfold dropPulse
  split
  · exact ((raise_onlyNoted s RIG_STATUS_DLYOVF (by decide) (by decide)).trans
      (bump_onlyNoted _ RIG_DLYINFO_COUNT (by decide) (by decide))).trans
      (setF_onlyRegs _ RIG_DLYINFO_ENTRY _ (by decide) (by decide)).noted
  · exact ⟨rfl, fun _ _ => rfl⟩

/-- From s to t only the matrix, the registers of dropped pulses and the notes of the present cycle may change. -/
def PulseOnly (s t : State) : Prop :=
  t = { s with rig := t.rig, regs := t.regs, hwNow := t.hwNow } ∧ SameRegs s t [RIG_STATUS, RIG_DLYINFO]

theorem PulseOnly.refl (s : State) : PulseOnly s s := ⟨rfl, fun _ _ => rfl⟩

theorem PulseOnly.trans {s t u : State} (h : PulseOnly s t) (k : PulseOnly t u) : PulseOnly s u := by
  refine ⟨?_, fun o ho => (k.2 o ho).trans (h.2 o ho)⟩
  rw [k.1, h.1]

theorem PulseOnly.rig {s t : State} (h : PulseOnly s t) (r : Rigging) : PulseOnly s { t with rig := r } := by
  refine ⟨?_, h.2⟩
  rw [h.1]

theorem OnlyNoted.pulse {s t : State} (h : OnlyNoted s t [RIG_STATUS, RIG_DLYINFO]) : PulseOnly s t := by
  refine ⟨?_, h.2⟩
  rw [h.1]

theorem foldl_pulseOnly {β : Type} (f : State → β → State) (h : ∀ s b, PulseOnly s (f s b)) (l : List β) (s : State) :
    PulseOnly s (l.foldl f s) := by
  induction l generalizing s with
  | nil => exact .refl s
  | cons b l ih => exact (h s b).trans (ih _)

theorem enterRoute_only (e v : Nat) (s : State) : PulseOnly s (enterRoute e v s) := by
  unfold enterRoute
  split
  · exact .refl s
  · dsimp only
    split
    · exact (PulseOnly.rig (.refl s) _).trans (dropPulse_onlyNoted _ _).pulse
    · exact PulseOnly.rig (.refl s) _

theorem enterField_only (e v : Nat) (s : State) : PulseOnly s (enterField e v s) := by
  unfold enterField
  dsimp only
  split
  · exact (PulseOnly.rig (.refl s) _).trans (dropPulse_onlyNoted _ _).pulse
  · exact PulseOnly.rig (.refl s) _

theorem pulse_only (src : Nat) (s : State) : PulseOnly s (pulse src s) := by
  unfold pulse
  split
  · exact .refl s
  · extract_lets _ u v
    have hu : PulseOnly s u := PulseOnly.rig (.refl s) _
    have hv : PulseOnly s v := by
      unfold v
      split
      · exact hu.trans (foldl_pulseOnly _ (fun t r => by split <;> [exact enterRoute_only _ _ _; exact .refl t]) _ _)
      · exact hu
    split
    · exact hv
    · exact hv.trans (foldl_pulseOnly _ (fun t r => by split <;> [exact enterField_only _ _ _; exact .refl t]) _ _)

theorem pulseAt_only (src m : Nat) (s : State) : PulseOnly s (pulseAt src m s) := by
  unfold pulseAt
  split
  · exact pulse_only src s
  · split
    · exact .refl s
    · exact PulseOnly.rig (.refl s) _

theorem PulseOnly.eng {s t : State} (h : PulseOnly s t) (e : Nat) : t.eng e = s.eng e := by rw [h.1]; rfl
theorem PulseOnly.mem {s t : State} (h : PulseOnly s t) : t.mem = s.mem := by rw [h.1]
theorem PulseOnly.reg {s t : State} (h : PulseOnly s t) {a : Nat} (h1 : a ≠ RIG_STATUS) (h2 : a ≠ RIG_DLYINFO) :
    t.reg a = s.reg a := h.2 a (by simp [h1, h2])

/-! ### Faults -/

theorem dropFar_eq (e : Nat) (s : State) : dropFar e s = { s with banks := (dropFar e s).banks } := by
  unfold dropFar
  dsimp only
  generalize List.range 9 = l
  induction l generalizing s with
  | nil => rfl
  | cons b l ih => rw [List.foldl_cons, ih]; rfl

theorem logFault_eq (c u k d : Nat) (s : State) : logFault c u k d s = { s with faults := (logFault c u k d s).faults } := by
  unfold logFault; split <;> rfl

theorem logFault_faults (c u k d : Nat) (s : State) :
    (logFault c u k d s).faults = if s.on 1 = true then s.faults ++ [⟨c, u, k, d % 2 ^ 32⟩] else s.faults := by
  unfold logFault; by_cases h : s.on 1 = true
  · rw [if_pos h, if_pos h]
  · rw [if_neg h, if_neg h]

theorem State.modEng_eq (s : State) (e : Nat) (f : Engine → Engine) : s.modEng e f = { s with engines := (s.modEng e f).engines } := rfl

theorem State.spare_reg (s : State) (sp : Spare) (o : Nat) : ({ s with spare := sp } : State).reg o = s.reg o := (rfl)
theorem State.spare_f (s : State) (sp : Spare) (F : Fld) : ({ s with spare := sp } : State).f F = s.f F := (rfl)

/-- The stop of a fault: what it does to the registers. -/
theorem faultRegs (e code pcw : Nat) (s : State) :
    let t := ((s.setF (COIL_FAULT_CODE e) code).setF (COIL_FAULT_PCW e) pcw).raise (COIL_FLAGS_FAULT e)
    t.f (COIL_FAULT_CODE e) = code % 16 ∧ t.f (COIL_FAULT_PCW e) = pcw % 2 ^ 16 ∧ t.f (COIL_FLAGS_FAULT e) = 1 ∧
    OnlyNoted s t [COIL_FAULT e, COIL_FLAGS e] := by
  have h1 : (COIL_FAULT_CODE e).lo + (COIL_FAULT_CODE e).w ≤ 32 := by show 0 + 4 ≤ 32; omega
  have h2 : (COIL_FAULT_PCW e).lo + (COIL_FAULT_PCW e).w ≤ 32 := by show 8 + 16 ≤ 32; omega
  have h3 : (COIL_FLAGS_FAULT e).lo + (COIL_FLAGS_FAULT e).w ≤ 32 := by show 2 + 1 ≤ 32; omega
  have h4 : COIL_FLAGS e ≠ COIL_FAULT e := by unfold COIL_FLAGS COIL_FAULT; omega
  intro t
  refine ⟨?_, ?_, ?_, ?_⟩
  · show State.f (State.raise _ _) _ = _
    rw [State.raise_f_ne _ _ _ h3 h1 (.inl h4.symm), State.setF_f_ne _ _ _ _ h2 h1 (by right; left; show 0 + 4 ≤ 8; omega),
      State.setF_f_same _ _ _ h1]
    rfl
  · show State.f (State.raise _ _) _ = _
    rw [State.raise_f_ne _ _ _ h3 h2 (.inl h4.symm), State.setF_f_same _ _ _ h2]
    rfl
  · exact State.raise_f_same _ _ h3 (by show 0 < 1; omega)
  · exact ((setF_onlyRegs s _ _ h1 (by simp [COIL_FAULT_CODE])).noted.trans
      (setF_onlyRegs _ _ _ h2 (by simp [COIL_FAULT_PCW])).noted).trans (raise_onlyNoted _ _ h3 (by simp [COIL_FLAGS_FAULT]))

end Sys2Proof.Machine
end

