-- ==== Sys2Proof/Tests/Slice0.lean ====
section
/-! SUPPORT. Tests: the checks of well-formed commands, Coil words written out from R97 to R122, and witnesses that the
hypotheses of the statements can be met. -/

namespace Sys2Proof.Tests

open Sys2Proof Sys2Proof.Machine Sys2Proof.Machine.Reg

/-! ### Ill-formed commands are refused by their checks -/

theorem test_wf_registerWrite : (Instr.registerWrite 0 ⟨2, by decide⟩ 0).wf = false := by decide
theorem test_wf_wideReadLatch : (Instr.wideReadLatch 0 ⟨1, by decide⟩).wf = false := by decide
theorem test_wf_wideWritePart : (Instr.wideWritePart 0 ⟨6, by decide⟩ 0).wf = false := by decide
theorem test_wf_commit : (Instr.commit 0 ⟨0x44, by decide⟩).wf = false := by decide
theorem test_wf_commitApply : (Instr.commitApplyNoTick ⟨0x44, by decide⟩).wf = false := by decide
theorem test_wf_farGrant : (Instr.farAccessGrant 0 0 0).wf = false := by decide
theorem test_wf_checkpoint : (Instr.checkpointWrite 0 0 0 (2 ^ 32)).wf = false := by decide
theorem test_wf_loadShed : (Instr.loadShed [3, 3] 0).wf = false := by decide
theorem test_wf_hostMemRead : (Instr.hostMemRead ⟨0, {}⟩ ⟨4095, by decide⟩ 2).wf = false := by decide
theorem test_wf_hostMemWrite : (Instr.hostMemWrite 0 []).wf = false := by decide
theorem test_wf_hostAlias : (Instr.hostAliasAccess ⟨0, {}⟩ true 0 []).wf = false := by decide
theorem test_wf_bar0Read : (Instr.bar0ReadRequest ⟨0, {}⟩ ⟨2, by decide⟩ 1).wf = false := by decide
theorem test_wf_bar0Write : (Instr.bar0WriteRequest 0 [] true).wf = false := by decide
theorem test_wf_requestFrame : (Instr.requestFrame ⟨.spi 2, []⟩).wf = false := by decide
theorem test_wf_tamperTrip : (Instr.tamperTrip 0).wf = false := by decide
theorem test_wf_tamperRelease : (Instr.tamperSensorRelease 0).wf = false := by decide
theorem test_wf_supply : (Instr.supplyChange 0 3).wf = false := by decide
theorem test_wf_readReturn (l : List Byte) (h : l.length = 4097) : (Instr.readReturn 0 0 l).wf = false := by
  simp [Instr.wf, Instr.coil, h]
/-- LD with SGN and SIZE 8 bytes is invalid (R104). -/
theorem test_wf_ld : (Instr.ld 0 1 2 3 true false false 0).wf = false := by decide
/-- LOOP with MAX 0 is invalid (R113), ACTP with a port above 95 (R116), MTS of another register than ESTAT (R122). -/
theorem test_wf_loop : (Instr.loop 0 1 0 1).wf = false := by decide
theorem test_wf_actp : (Instr.actp 0 1 2 96 1).wf = false := by decide
theorem test_wf_mts : (Instr.mts 0 1 0).wf = false := by decide

/-! ### Coil words -/

/-- ADD g3, g1, g2: op 0, rd 3 at [25:22], ra 1 at [21:18], rb 2 at [17:14], func 0x01 (R98 to R100). -/
theorem test_decode_add : coilDecode (3 * 2 ^ 22 + 1 * 2 ^ 18 + 2 * 2 ^ 14 + 0x01) = some (.alu .add 3 1 2) := by decide
/-- A bit that the format marks as zero makes the word ILLEGAL (R97). -/
theorem test_decode_illegal : coilDecode (3 * 2 ^ 22 + 1 * 2 ^ 18 + 2 * 2 ^ 14 + 2 ^ 8 + 0x01) = none := by decide
/-- The camera burst program of the Coil chapter, first half: its words as the table there prints them. -/
theorem test_decode_burst_start : [0xE0400002, 0xE0800003, 0x0088080C, 0x00448001, 0x22848000, 0x40EB0000].map coilDecode =
    [some (.mfs 1 2), some (.mfs 2 3), some (.shi .shli 2 2 8), some (.alu .add 1 1 2), some (.conl 10 0x48000),
     some (.ld 3 10 3 false false false 0)] := by decide
/-- The camera burst program, second half. -/
theorem test_decode_burst_loop : [0x84C01007, 0x412B4010, 0x02050001, 0xA2140000, 0x06A80020, 0xA8000000].map coilDecode =
    [some (.loop 3 4 7), some (.ld 4 10 3 false true false 16), some (.alu .add 8 1 4), some (.act 8 5),
     some (.imm .addi 10 10 32), some .seal] := by decide
/-- The words of all zeros and all ones and the unassigned op 0x0A are ILLEGAL (R97, R99). -/
theorem test_decode_none : [0x00000000, 0xFFFFFFFF, 0x0A * 2 ^ 26].map coilDecode = [none, none, none] := by decide

set_option Elab.async false

/-! ### States that meet the hypotheses of the statements
Each theorem hyp_X shows, clause by clause, states and operands that meet the hypotheses of the statement X together. -/

/-- Every domain is on, the Stay link has all its lanes, no bank clears, and the host link is up. -/
def up : State := { setLanes 15 15 ((State.reset.setF GLB_PWRSTAT_ON 0x7FFF).setReg SAG_BUSY 0) with
  pwr.phys := 0x7000
  kln.mc := 10000
  banks := []
  ep := { State.reset.ep with linkUp := true, memEn := true } }

/-- The timebase runs at the time 100000 fc. -/
def run : State := { up.setF MST_CTRL_RUN 1 with kln.count := 100000 }

/-- Ticks are issued, and the next boundary is at 99968 fc. -/
def tic : State := { (run.setF KLN_CTRL_RUN 1).setF KLN_STATUS_TICKING 1 with kln.next := 99968, kln.virt := 99968 }

/-- Bank b stands as x. -/
def bk (s : State) (b : Nat) (x : Bank) : State := { s with banks := [(b, x)] }

theorem hyp_RegisterWriteByAccessCode :
    (State.reset.answers KLN_PERIOD = false ∧ State.reset.proxyWaits KLN_PERIOD = false) ∧
    { up with stay.trainAt := some 9990 }.proxyWaits (PRT_CTRL 63) = true ∧
    (up.reaches 0xFFFC ∧ rowAt 0xFFFC = none ∧ 0xFFFC / 0x10000 ≠ 14) ∧
    up.reaches (RIG_TAP 0) ∧
    up.reaches (RIG_TAP 63) ∧
    (up.reaches KLN_PERIOD ∧ 100 ≤ (100 : Word).toNat ∧ (99 : Word).toNat < 100) ∧
    (up.reaches RIG_CWBASE ∧ up.flag RIG_CWCFG_EN = false) ∧
    ((up.setF RIG_CWCFG_EN 1).reaches RIG_CWBASE ∧ (up.setF RIG_CWCFG_EN 1).flag RIG_CWCFG_EN = true) ∧
    up.reaches MST_STATUS := by
  unfold State.reaches; decide +kernel

theorem hyp_WideReadsAndWrites :
    (up.answers MST_SET = true ∧ wideLow MST_SET = some MST_SET ∧ up.latchMode MST_SET = true) ∧
    (up.answers (MST_SET + 4) = true ∧ up.latchMode (MST_SET + 4) = true ∧ wideLow (MST_SET + 4) = some MST_SET) ∧
    wideLow MST_CTRL ≠ some MST_CTRL ∧
    State.reset.answers KLN_TICKCNT = false ∧
    (up.setF GLB_RDMODE_MODE 0xFFFF).latchMode MST_SET = false ∧
    (up.reaches MST_SET ∧ up.reaches (MST_SET + 4) ∧ up.latchMode MST_SET = true ∧ up.flag MST_CTRL_RUN = false) ∧
    ((up.setF GLB_RDMODE_MODE 0xFFFF).reaches MST_SET ∧ (up.setF GLB_RDMODE_MODE 0xFFFF).flag MST_CTRL_RUN = false) ∧
    up.reaches GLB_RDMODE := by
  unfold State.reaches; decide +kernel

theorem hyp_CommitsArmAndApply :
    ((commitRange 0x40).isSome = true ∧ up.reaches 0x40 ∧ up.armedAt 0x40 = 0) ∧
    ((commitRange 0x94040).isSome = true ∧ (setArmed 0x94040 1 up).reaches 0x94040 ∧
      (setArmed 0x94040 1 up).armedAt 0x94040 ≠ 0) ∧
    (commitRange 0x40040 = some (0x40000, 0x50000) ∧ up.armedAt 0x40040 < 2) ∧
    (commitRange 0xA0040 = some (0xA0000, 0xB0000) ∧ up.mc + 2 < (setArmed 0xA0040 10003 up).armedAt 0xA0040) ∧
    (tic.ticking = true ∧ (up.setF KLN_CTRL_HOLD 1).flag KLN_CTRL_HOLD = true ∧ State.reset.on (offDom 0x85F40) = false ∧
      (commitEngine 0x85F40).isSome = false) ∧
    (up.ticking = false ∧ up.flag KLN_CTRL_HOLD = false ∧
      ∀ o ∈ [GLB_COMMIT, KLN_COMMIT, RIG_COMMIT, 0x40040, 0x85F40, 0xA0040, 0x50040, 0x53040, 0x60040, 0x63840],
        2 ≤ (setArmed o 10002 up).armedAt o ∧ (setArmed o 10002 up).armedAt o ≤ up.mc + 2 ∧ (commitEngine o).isSome = false ∧
        up.on (offDom o) = true) ∧
    [GLB_COMMIT, KLN_COMMIT, RIG_COMMIT, 0x40040, 0x85F40, 0xA0040, 0x50040, 0x53040, 0x60040, 0x63840].map (fun o =>
      (commitRange o).map Prod.fst) = [some 0, some 0x10000, some 0x20000, some 0x40000, some 0x85F00, some 0xA0000, some 0x50000,
        some 0x53000, some 0x60000, some 0x63800] ∧
    ((∀ k, k < 8 → up.shvRuns k = false) ∧ up.kln.refWritten = false) ∧
    ((commitRange (COIL_COMMIT 0)).isSome = true ∧ (commitRange (COIL_COMMIT 16)).isSome = true ∧
      2 ≤ (setArmed (COIL_COMMIT 16) 2 State.reset).armedAt (COIL_COMMIT 16) ∧
      (setArmed (COIL_COMMIT 16) 2 State.reset).armedAt (COIL_COMMIT 16) ≤ State.reset.mc + 2 ∧ State.reset.ticking = false) ∧
    ((setArmed (COIL_COMMIT 0) 1 tic).kln.armed = [(COIL_COMMIT 0, 1)] ∧
      (setArmed (COIL_COMMIT 16) 1 tic).kln.armed = [(COIL_COMMIT 16, 1)]) := by
  unfold State.reaches; decide +kernel

theorem hyp_PortOwnerIsStaged :
    up.reaches (GLB_PORTOWN 0) ∧
    up.reaches (GLB_PORTOWN 95) ∧
    (bitsOf (0x10F : Word).toNat 8 2 = 1 ∧ bitsOf (0x10F : Word).toNat 0 5 < 16) ∧
    (bitsOf (0x203 : Word).toNat 8 2 = 2 ∧ bitsOf (0x203 : Word).toNat 0 5 < 4) ∧
    (bitsOf (0x307 : Word).toNat 8 2 = 3 ∧ bitsOf (0x307 : Word).toNat 0 5 < 8) ∧
    (bitsOf (0x110 : Word).toNat 8 2 = 1 ∧ 16 ≤ bitsOf (0x110 : Word).toNat 0 5) ∧
    (bitsOf (0x204 : Word).toNat 8 2 = 2 ∧ 4 ≤ bitsOf (0x204 : Word).toNat 0 5) ∧
    (bitsOf (0x308 : Word).toNat 8 2 = 3 ∧ 8 ≤ bitsOf (0x308 : Word).toNat 0 5) := by
  unfold State.reaches; decide +kernel

theorem hyp_ErrorRecordsClear :
    (up.reaches GLB_OWNERR ∧ up.noted GLB_OWNERR_COUNT = 0) ∧
    (up.note GLB_OWNERR_COUNT).noted GLB_OWNERR_COUNT ≠ 0 ∧
    (up.reaches GLB_WERR ∧ up.noted GLB_WERR_COUNT = 0) ∧
    (up.note GLB_WERR_COUNT).noted GLB_WERR_COUNT ≠ 0 := by
  unfold State.reaches; decide +kernel

theorem hyp_MastTimebase :
    up.flag MST_CTRL_RUN = false ∧
    (run.flag MST_CTRL_RUN = true ∧ run.kln.loadSet = false) ∧
    ({ run with kln.loadSet := true }.flag MST_CTRL_RUN = true ∧ run.ticking = false) ∧
    (up.sheaves = [] ∧ up.ep.queue = [] ∧ up.ep.held = [] ∧ up.rig.sched = [] ∧ up.rig.flight = [] ∧ up.ports = [] ∧
      (∀ e, e < 16 → (up.eng e).check = none) ∧ ∀ k, k < 8 → up.shvRuns k = false) ∧
    up.reaches MST_CTRL ∧
    run.reaches MST_CTRL ∧
    run.flag KLN_CTRL_RUN = false ∧
    (tic.reaches MST_CTRL ∧ tic.flag MST_CTRL_RUN = true ∧ tic.ticking = true) := by
  unfold State.reaches; decide +kernel

theorem hyp_ReferencesAndAlignment :
    up.flag MST_STATUS_HOLDOVER = false ∧
    (up.setF MST_STATUS_HOLDOVER 1).flag MST_STATUS_HOLDOVER = true ∧
    { up with kln.refGood := [2] }.refValid = false ∧
    { up with kln.refGood := [0] }.refValid = true ∧
    up.refValid = false ∧
    ((run.setF MST_CTRL_PPS_EN 1).running = true ∧ (run.setF MST_CTRL_PPS_EN 1).flag MST_CTRL_PPS_EN = true ∧
      (run.setF MST_CTRL_PPS_EN 1).flag MST_CTRL_PPS_EDGE = false) ∧
    (up.running = false ∧ run.flag MST_CTRL_PPS_EN = false) ∧
    (up.setF MST_STATUS_LOCKED 1).flag MST_STATUS_LOCKED = true ∧
    up.flag FRS_CFG_FOLLOW = false ∧
    (up.linked = true ∧ (-49 : Int).natAbs ≤ 49 ∧ 49 < (50 : Int).natAbs ∧ (50 : Int).natAbs < 32768) ∧
    State.reset.linked = false := by
  decide +kernel

theorem hyp_TicksStartAndStop :
    (tic.reaches KLN_CTRL ∧ tic.flag KLN_CTRL_RUN = true) ∧
    (up.reaches KLN_CTRL ∧ up.flag KLN_CTRL_RUN = false ∧ up.flag MST_CTRL_RUN = false) ∧
    ((tic.setF KLN_CTRL_RUN 0).reaches KLN_CTRL ∧ (tic.setF KLN_CTRL_RUN 0).ticking = true) ∧
    (run.reaches KLN_CTRL ∧ run.flag KLN_CTRL_RUN = false ∧ run.flag MST_CTRL_RUN = true ∧ run.ticking = false) ∧
    (1024 ≤ (fc ((run.setF KLN_FIRST_FIRST 101120).f KLN_FIRST_FIRST / 256 * 256) - run.nowSet).toNat ∧
      (fc ((run.setF KLN_FIRST_FIRST 101120).f KLN_FIRST_FIRST / 256 * 256) - run.nowSet).toNat < 2 ^ 63) ∧
    2 ^ 63 ≤ (fc (run.f KLN_FIRST_FIRST / 256 * 256) - run.nowSet).toNat ∧
    (fc ((run.setF KLN_FIRST_FIRST 100864).f KLN_FIRST_FIRST / 256 * 256) - run.nowSet).toNat < 1024 ∧
    ((tic.setF KLN_CTRL_RUN 0).flag KLN_CTRL_RUN = false ∧ (tic.setF KLN_CTRL_RUN 0).running = true ∧
      reached tic.kln.next tic.now = true) ∧
    (run.running = true ∧ reached { run with kln.virt := 100000 }.kln.virt run.now = true) ∧
    reached { run with kln.virt := 100001 }.kln.virt run.now = false := by
  unfold State.reaches; decide +kernel

theorem hyp_TickBoundaryBeginsATick :
    tic.boundaryDue = some 99968 ∧
    { run.setF KLN_CTRL_RUN 1 with kln.first := some 100000 }.boundaryDue = some 100000 ∧
    { run.setF KLN_CTRL_RUN 1 with kln.first := some 100001 }.boundaryDue = none ∧
    up.boundaryDue = none := by
  decide +kernel

theorem hyp_SlotTableWrite :
    (up.reaches (KLN_SLOT 0 1023) ∧ up.f KLN_SLOTSEL_ACTIVE = 0) ∧
    (up.reaches (KLN_SLOT 1 0) ∧ up.f KLN_SLOTSEL_ACTIVE ≠ 1) ∧
    (bitsOf (0x1B13 : Word).toNat 0 5 < 0x14 ∧ bitsOf (0x1B13 : Word).toNat 8 5 < 0x1C) ∧
    (bitsOf (0x1F1E : Word).toNat 0 5 = 0x1E ∧ bitsOf (0x1F1E : Word).toNat 8 5 = 0x1F) ∧
    (0x14 ≤ bitsOf (0x14 : Word).toNat 0 5 ∧ bitsOf (0x14 : Word).toNat 0 5 < 0x1E) ∧
    (0x1C ≤ bitsOf (0x1D00 : Word).toNat 8 5 ∧ bitsOf (0x1D00 : Word).toNat 8 5 < 0x1E) := by
  unfold State.reaches; decide +kernel

theorem hyp_SlotCarriesRecords :
    ({ run with kln.virt := 125600, kln.slotBase := 100000 }.nextSlot = some 100000 ∧ run.running = true ∧
      reached 100000 run.now = true ∧ run.linked = true) ∧
    { run with stay.trainAt := some 9990 }.linked = false ∧
    { run with kln.virt := 125600, kln.slotBase := 100000, kln.slotK := 22 }.nextSlot = some 124320 ∧
    reached 124320 run.now = false ∧
    { run with kln.virt := 125600, kln.slotBase := 100000, kln.slotK := 23 }.nextSlot = none ∧
    up.running = false := by
  decide +kernel

/-- A run whose next instruction issues at ec 8, at the word 32 bytes after the image's base. -/
def aRun (base : Nat) : Run := { tick := 5, ttime := 99968, period := 100, ec0 := 39000, time0 := 99968, det := false, pc := base + 32 }

/-- Engine e runs an image of 256 bytes at the base of its bank. -/
def running (e : Nat) (r : Run) : State :=
  tic.setEng e { st := .running, image := ⟨bankBase (e / 4 % 4), 256, 32, 200⟩, g := [(1, 64), (2, 5), (3, 0x80000000), (4, 0x3FFF0), (5, 0x3FFF8), (6, 96)], run := some r }

/-- CE16 stands in for engine 3. -/
def standin : State :=
  { tic.setEng 16 { st := .standin, image := ⟨0, 256, 32, 200⟩ } with
    spare := { standFor := some 3, nextRun := some (38000, 4, 99968, 100), recovery := true } }

theorem hyp_TickProgramsStart :
    { tic with kln.bmc := 9999 }.mc < 9999 + 2 ∧
    ({ tic with kln.bmc := 9998 }.kln.bmc + 2 ≤ tic.mc ∧ (tic.setEng 16 { toRun := true }).mc = tic.mc ∧
      ((tic.setEng 16 { toRun := true }).eng 16).toRun = true ∧ ((tic.setEng 16 { toRun := true }).eng 0).toRun = false ∧
      (∀ e, e < 17 → ((tic.setEng 16 { toRun := true }).eng e).ck.err < 2) ∧
      ∀ e, e < 17 → (tic.setEng 16 { toRun := true }).flag (COIL_CTRL_TRACE ((tic.setEng 16 { toRun := true }).rights e)) = false) ∧
    ({ tic with kln.bmc := 9998 }.kln.bmc + 2 ≤ tic.mc ∧ ((tic.setEng 15 { toRun := true, ck := { err := 2 } }).eng 15).toRun = true ∧
      2 ≤ ((tic.setEng 15 { toRun := true, ck := { err := 2 } }).eng 15).ck.err) := by
  decide +kernel

theorem hyp_OverrunAndWatchdog :
    ((running 0 (aRun 0)).overrunAt 0).isSome = true ∧
    ((running 16 { aRun 0 with ec0 := 39794, ec := 209, issued := true }).overrunAt 16).isSome = true ∧
    ((running 16 { aRun 0 with det := true, period := 16 }).overrunAt 16).isSome = true ∧
    (running 0 { aRun 0 with ec0 := 39795 }).overrunAt 0 = none ∧
    ((running 0 { aRun 0 with ec0 := 39992 }).watchAt 0).isSome = true ∧
    (running 0 { aRun 0 with ec0 := 39993 }).watchAt 0 = none ∧
    (running 0 { aRun 0 with issued := true }).watchAt 0 = none ∧
    ((running 0 { aRun 0 with issued := true, far := some ⟨false, 1, 2, false, false, 0x80000000, 39900, 8⟩ }).watchAt 0).isSome = true := by
  decide +kernel

/-- Engine 5 has tried lock 63, which engine 0 held, in the engine cycle of the reset of engine 0. -/
def tryBefore : State :=
  { (up.setEng 0 { resetAt := some 39996 }).setEng 5 { st := .running, run := some { aRun 0 with ec0 := 39992, ec := 12 } } with
    lockNow := [⟨40000, 63, 5, 5, some 4, false, { held := some 0 }⟩], locks := [(63, { held := some 0 })] }

theorem hyp_FaultedEngineIsReset :
    (((up.setEng 0 { resetAt := some 39999 }).eng 0).resetAt = some 39999 ∧ 39999 + 4 ≤ up.ecNow ∧
      (up.setEng 0 { resetAt := some 39999 }).lockNow = []) ∧
    ((tryBefore.eng 0).resetAt = some 39996 ∧ 39996 + 4 ≤ tryBefore.ecNow ∧
      tryBefore.lockNow = [⟨40000, 63, 5, 5, some 4, false, { held := some 0 }⟩] ∧ mget tryBefore.locks 63 {} = { held := some 0 } ∧
      ((tryBefore.eng 5).run.map fun y => y.ec0 + y.ec) = some (40000 + 4)) ∧
    (((up.setEng 16 { resetAt := some 40000 }).eng 16).resetAt = some 40000 ∧ up.ecNow < 40000 + 4) ∧
    (up.eng 0).resetAt = none ∧
    (standin.spare.standFor = some 3 ∧ 3 < 16) := by
  decide +kernel

theorem hyp_Takeover :
    ({ up with spare.taking := some (15, 39999), spare.taken := some (aRun 0) }.spare.taking = some (15, 39999) ∧
      { up with spare.taking := some (15, 39999), spare.taken := some (aRun 0) }.spare.taken = some (aRun 0) ∧
      (up.eng 15).resetAt = none ∧ 39999 + 4 ≤ up.ecNow ∧ (up.eng 15).ck.err < 2 ∧
      2 ≤ ((up.setEng 15 { ck := { err := 2 } }).eng 15).ck.err) ∧
    (up.spare.taking = none ∧ up.spare.taken = none) ∧
    ((up.setEng 0 { resetAt := some 39999 }).eng 0).resetAt.isSome = true ∧
    ({ up with spare.taking := some (15, 40000) }.spare.taking = some (15, 40000) ∧ up.ecNow < 40000 + 4) := by
  decide +kernel

theorem hyp_DetachedRunsStart :
    (standin.spare.nextRun = some (38000, 4, 99968, 100) ∧ 38000 + 8 ≤ standin.ecNow ∧ standin.spare.standFor.isSome = true ∧
      standin.spare.recovery = true ∧ standin.flag (COIL_CTRL_TRACE (standin.rights 16)) = false ∧ (standin.eng 16).ck.err < 2 ∧
      2 ≤ ((standin.modEng 16 fun x => { x with ck.err := 2 }).eng 16).ck.err) ∧
    ({ standin with spare := { standFor := some 3, nextRun := some (39995, 4, 99968, 100) } }.spare.nextRun =
        some (39995, 4, 99968, 100) ∧ 39995 + 8 ≤ standin.ecNow ∧
      { standin with spare := { standFor := some 3, nextRun := some (39995, 4, 99968, 100) } }.spare.recovery = false) := by
  decide +kernel

/-- An image of 40 bytes at the base of bank SGA0, its bytes written out from R132, with the CRC-32 of IEEE 802.3. -/
def imageAt0 : State := (up.setEng 0 { check := some (0, 9979) }).poke 0
  [17, 192, 128, 100, 1, 0, 0, 0, 40, 0, 0, 0, 32, 0, 0, 0, 232, 3, 0, 0, 0, 0, 0, 0, 235, 23, 8, 37]

/-- Engine e is in a state and has a pending image of 40 bytes with the budget 200. -/
def loaded (e : Nat) (st : EngState) : State := up.setEng e { st := st, pendImg := some ⟨0, 40, 32, 200⟩ }

theorem hyp_ProgramsAreCheckedFirst :
    (up.reaches (COIL_CTRL 15) ∧ up.engState 15 ≠ 0 ∧ (up.eng 15).check = none) ∧
    up.reaches (COIL_CTRL 16) ∧
    ((up.setEng 0 { check := some (0, 9979) }).reaches (COIL_CTRL 0) ∧
      ((up.setEng 0 { check := some (0, 9979) }).eng 0).check.isSome = true) ∧
    ((imageAt0.eng 0).check = some (0, 9979) ∧ (checkImage 0 0 imageAt0).1 = 0 ∧ (checkImage 0 0 imageAt0).2.2.1 = 5 ∧
      9979 + 5 + 16 ≤ imageAt0.mc) ∧
    imageAt0.mc < 9980 + 5 + 16 ∧
    (((up.setEng 4 { check := some (0, 9979) }).eng 4).check = some (0, 9979) ∧
      (checkImage 4 0 (up.setEng 4 { check := some (0, 9979) })).1 = 1) ∧
    (∀ st ∈ [EngState.idle, .running], ∀ e ∈ [0, 16],
      ((loaded e st).lgcHolds e = false ∧ ((loaded e st).eng e).pendImg = some ⟨0, 40, 32, 200⟩ ∧ ((loaded e st).eng e).check = none ∧
        200 + 64 ≤ 4 * 66 ∧ 4 * 65 < 200 + 64 ∧ (loaded e st).spare.standFor = none ∧
        ((loaded e st).engState e = 1 ∨ (loaded e st).engState e = 2))) ∧
    (({ loaded 3 .faulted with spare := standin.spare }.engState 3 = 4 ∧
      { loaded 3 .faulted with spare := standin.spare }.spare.standFor = some 3 ∧ (loaded 3 .faulted).spare.standFor ≠ some 3)) ∧
    ((loaded 0 .idle).setF (LGC_TCTRL_EN 0 0) 1).lgcHolds 0 = true ∧
    (State.reset.engState 0 = 0 ∧ standin.engState 16 = 6 ∧ (up.setEng 16 { st := .spare }).engState 16 = 5) := by
  unfold State.reaches; decide +kernel

theorem hyp_HoldStepAndCheckpoints :
    (up.reaches (COIL_CTRL 0) ∧ up.flag (COIL_CTRL_HOLD 0) = false) ∧
    ((up.setF (COIL_CTRL_HOLD 16) 1).reaches (COIL_CTRL 16) ∧ up.spare.standFor = none ∧
      (up.setF (COIL_CTRL_HOLD 16) 1).flag (COIL_CTRL_HOLD 16) = true) ∧
    (standin.reaches (COIL_CTRL 16) ∧ standin.spare.standFor.isSome = true ∧ standin.flag (COIL_CTRL_HOLD 16) = false ∧
      bitsOf (standin.stg (COIL_CTRL 16)).toNat 0 2 = 0) ∧
    bitsOf ((standin.setStg (COIL_CTRL 16) 1).stg (COIL_CTRL 16)).toNat 0 2 ≠ 0 ∧
    (up.reaches (COIL_CKESTAT 0) ∧ up.reaches (COIL_GREG 15 15) ∧ up.engState 0 ≠ 2 ∧ up.engState 0 ≠ 6) ∧
    ((running 0 (aRun 0)).reaches (COIL_CKESTAT 0) ∧ (running 0 (aRun 0)).engState 0 = 2) ∧
    (standin.reaches (COIL_GREG 16 1) ∧ standin.engState 16 = 6) ∧
    (up.reaches (COIL_LOCK 0) ∧ up.reaches (COIL_LOCK 63) ∧ up.lockReqs 0 = [] ∧
      (mget { up with locks := [(63, { held := some 3 })] }.locks 63 {}).held.isSome = true) ∧
    (up.reaches (COIL_CLR 0) ∧ up.reaches (COIL_CLR 16) ∧ up.noted (COIL_MAXEC_EC 0) = 0) ∧
    (up.note (COIL_MAXEC_EC 0)).noted (COIL_MAXEC_EC 0) ≠ 0 ∧
    ((loaded 0 .running).engState 0 = 2 ∧ ((loaded 0 .running).modEng 0 fun x => { x with held := true }).engState 0 = 3 ∧
      (loaded 15 .faulted).engState 15 = 4 ∧ (loaded 15 .faulted).spare.standFor ≠ some 15 ∧ (loaded 0 .running).lockNow = []) ∧
    (State.reset.engState 0 = 0 ∧ (loaded 0 .idle).engState 0 = 1 ∧ standin.spare.standFor = some 3) ∧
    (∀ s ∈ [{ loaded 3 .faulted with spare := { standFor := some 3 } }], s.lgcHolds 3 = false ∧ s.engState 3 = 4 ∧
      s.spare.standFor = some 3 ∧ s.spare.nextRun = none ∧ ((s.eng 16).run.map Run.det) ≠ some true ∧ s.on (dCL 0) = true ∧
      (s.setF (LGC_TCTRL_EN 0 3) 1).lgcHolds 3 = true) ∧
    (((standin.setEng 16 { run := some { aRun 0 with det := true } }).eng 16).run.map Run.det) = some true ∧
    standin.spare.nextRun.isSome = true := by
  unfold State.reaches; decide +kernel

/-- Engine 0 runs, and the word of the instruction c stands where it issues next. -/
def issuing (c : Coil) (r : Run) : State := (running 0 r).poke r.pc (leBytes 4 (coilEncode c))

/-- The state after the fetch of that word. -/
def fetched (c : Coil) (r : Run) : State := (fetch 0 r (issuing c r)).2

/-- What a register of engine 0 holds after the fetch. -/
def regOf (c : Coil) (r : Run) (i : Nat) : DWord := ((fetched c r).eng 0).r i

theorem issuing_issues {s : State} {c : Coil} {r : Run} (h : s.canIssue 0 = some r ∧ (fetch 0 r s).1 = .inr c) :
    s.issues 0 c r (fetch 0 r s).2 := ⟨h.1, Prod.ext h.2 rfl⟩

theorem hyp_AluResults : ∀ c ∈ [Coil.alu .add 1 1 2, .alu .sub 3 1 2, .alu .and 15 1 2, .alu .or 0 1 2, .alu .xor 3 3 3,
      .alu .andn 3 1 0, .alu .shl 3 1 2, .alu .shr 3 1 2, .alu .sar 3 1 2, .alu .ror 3 1 15, .alu .slt 3 1 2, .alu .sltu 3 1 2,
      .alu .minu 3 1 2, .alu .maxu 3 1 2, .alu .mins 3 1 2, .alu .maxs 3 1 2, .shi .shli 3 1 63, .shi .shri 3 1 0,
      .shi .sari 3 1 63, .shi .rori 3 1 1, .un .clz 3 0, .un .ctz 3 0, .un .popc 3 1],
    (issuing c (aRun 0)).issues 0 c (aRun 0) (fetched c (aRun 0)) :=
  fun c h => issuing_issues (by revert c; decide +kernel)

theorem hyp_MultiplyAndDivideResults : ∀ c ∈ [Coil.alu .mul 3 1 2, .alu .mulhu 3 1 2, .alu .mulhs 3 1 2, .alu .divu 3 1 2,
      .alu .divu 3 1 0, .alu .remu 3 1 2, .alu .remu 3 1 0],
    (issuing c (aRun 0)).issues 0 c (aRun 0) (fetched c (aRun 0)) :=
  fun c h => issuing_issues (by revert c; decide +kernel)

theorem hyp_ImmediateResults : ∀ c ∈ [Coil.imm .addi 3 1 0x20000, .imm .andi 3 1 0x3FFFF, .imm .ori 3 1 0x3FFFF,
      .imm .xori 3 1 0x3FFFF, .imm .slti 3 1 0x1FFFF, .imm .sltiu 3 1 0x20000, .conl 3 0x200000, .cons 3 0x3FFFFF],
    (issuing c (aRun 0)).issues 0 c (aRun 0) (fetched c (aRun 0)) :=
  fun c h => issuing_issues (by revert c; decide +kernel)

theorem hyp_NearLoads :
    (∀ c ∈ [Coil.ld 8 4 3 false true false 0, .ld 3 5 0 true false false 7, .ld 3 2 1 false false true 0,
        .ld 3 5 3 false false false 1, .ld 3 2 1 false false false 0],
      (issuing c (aRun 0)).issues 0 c (aRun 0) (fetched c (aRun 0)) ∧ coilValid c = true) ∧
    (regOf (.ld 8 4 3 false true false 0) (aRun 0) 4 = 0x3FFF0 ∧
      (fetched (.ld 8 4 3 false true false 0) (aRun 0)).inNear 0 0x3FFF0 16 = true ∧ 0x3FFF0 % 16 = 0 ∧
      ∀ w ∈ wordsAt (eccSize ((fetched (.ld 8 4 3 false true false 0) (aRun 0)).nearBank 0)) 0x3FFF0 16,
        (fetched (.ld 8 4 3 false true false 0) (aRun 0)).wordErr w < 2) ∧
    (regOf (.ld 3 5 0 true false false 7) (aRun 0) 5 + sext 13 7 = 0x3FFFF ∧
      (fetched (.ld 3 5 0 true false false 7) (aRun 0)).inNear 0 0x3FFFF 1 = true) ∧
    (regOf (.ld 3 5 3 false false false 1) (aRun 0) 5 + sext 13 1 = 0x3FFF9 ∧
      (fetched (.ld 3 5 3 false false false 1) (aRun 0)).inNear 0 0x3FFF9 8 = false) ∧
    (regOf (.ld 3 2 1 false false false 0) (aRun 0) 2 = 5 ∧ 5 % 2 ≠ 0 ∧
      (fetched (.ld 3 2 1 false false false 0) (aRun 0)).inNear 0 5 2 = true) ∧
    (∀ r ∈ [aRun 0, { aRun 0 with ec := 204 }, { aRun 0 with ec := 205 }],
      ({ issuing (.ld 3 5 3 false false false 0) r with upset := [(0x3FFF8, 3)] }.canIssue 0 = some r ∧
        (fetch 0 r { issuing (.ld 3 5 3 false false false 0) r with upset := [(0x3FFF8, 3)] }).1 = .inr (.ld 3 5 3 false false false 0) ∧
        0x3FFF8 ∈ wordsAt 8 0x3FFF8 8 ∧
        (fetch 0 r { issuing (.ld 3 5 3 false false false 0) r with upset := [(0x3FFF8, 3)] }).2.wordErr 0x3FFF8 = 2)) ∧
    (204 + 5 ≤ runLimit ((fetched (.ld 3 5 3 false false false 0) (aRun 0)).eng 0) (aRun 0) + 1 ∧
      runLimit ((fetched (.ld 3 5 3 false false false 0) (aRun 0)).eng 0) (aRun 0) + 1 < 205 + 5) :=
  ⟨fun c h => ⟨issuing_issues (by revert c; decide +kernel), by revert c; decide⟩, by decide +kernel⟩

theorem hyp_NearStores :
    (∀ c ∈ [Coil.st 8 4 3 true false 0, .st 3 4 0 false true 1, .st 3 1 3 false false 0, .st 3 5 3 false false 1, .st 3 4 1 false false 1],
      (issuing c (aRun 0)).issues 0 c (aRun 0) (fetched c (aRun 0))) ∧
    (regOf (.st 8 4 3 true false 0) (aRun 0) 4 = 0x3FFF0 ∧
      (fetched (.st 8 4 3 true false 0) (aRun 0)).inNear 0 0x3FFF0 16 = true ∧
      (fetched (.st 8 4 3 true false 0) (aRun 0)).guardedRange 0x3FFF0 16 = false ∧ 0x3FFF0 % 16 = 0 ∧
      ∀ x, x < 16 → ¬((fetched (.st 8 4 3 true false 0) (aRun 0)).wordErr ((0x3FFF0 + x) / 8 * 8) = 2)) ∧
    (regOf (.st 3 4 1 false false 1) (aRun 0) 4 + sext 13 1 = 0x3FFF1 ∧ 0x3FFF1 % 2 ≠ 0 ∧
      (fetched (.st 3 4 1 false false 1) (aRun 0)).inNear 0 0x3FFF1 2 = true ∧
      (fetched (.st 3 4 1 false false 1) (aRun 0)).guardedRange 0x3FFF1 2 = false) ∧
    (regOf (.st 3 4 0 false true 1) (aRun 0) 4 + sext 13 1 = 0x3FFF1 ∧
      { issuing (.st 3 4 0 false true 1) (aRun 0) with upset := [(0x3FFF0, 3)] }.canIssue 0 = some (aRun 0) ∧
      (fetch 0 (aRun 0) { issuing (.st 3 4 0 false true 1) (aRun 0) with upset := [(0x3FFF0, 3)] }).1 = .inr (.st 3 4 0 false true 1) ∧
      (fetch 0 (aRun 0) { issuing (.st 3 4 0 false true 1) (aRun 0) with upset := [(0x3FFF0, 3)] }).2.wordErr (0x3FFF1 / 8 * 8) = 2 ∧
      0x3FFF1 / 8 * 8 < 0x3FFF1 ∧ 0x3FFF1 + 1 < 0x3FFF1 / 8 * 8 + 8) ∧
    (regOf (.st 3 1 3 false false 0) (aRun 0) 1 = 64 ∧
      (fetched (.st 3 1 3 false false 0) (aRun 0)).guardedRange 64 8 = true) ∧
    (regOf (.st 3 5 3 false false 1) (aRun 0) 5 + sext 13 1 = 0x3FFF9 ∧
      (fetched (.st 3 5 3 false false 1) (aRun 0)).inNear 0 0x3FFF9 8 = false) :=
  ⟨fun c h => issuing_issues (by revert c; decide +kernel), by decide +kernel⟩

theorem hyp_FarAccessesAreRequested :
    (∀ c ∈ [Coil.ldf 3 0 3 false false 63 255, .stf 3 4 3 false 1 1, .ldf 2 0 3 false true 1 1, .stf 3 1 3 false 1 0,
        .ldf 3 3 2 false false 63 0],
      (issuing c (aRun 0)).issues 0 c (aRun 0) (fetched c (aRun 0))) ∧
    ((∀ k, k < accWidth 3 false → farByte false (2040 + k) = true) ∧ 2040 % accWidth 3 false = 0 ∧ bankOf 2040 = some 0) ∧
    (regOf (.stf 3 4 3 false 1 1) (aRun 0) 4 + 8 = 0x3FFF8 ∧ (∀ k, k < accWidth 3 false → farByte true (0x3FFF8 + k) = true) ∧
      (fetched (.stf 3 4 3 false 1 1) (aRun 0)).guardedRange 0x3FFF8 (accWidth 3 false) = false) ∧
    ((∀ k, k < accWidth 3 true → farByte false (8 + k) = true) ∧ 8 % accWidth 3 true ≠ 0) ∧
    (regOf (.stf 3 1 3 false 1 0) (aRun 0) 1 = 64 ∧ (fetched (.stf 3 1 3 false 1 0) (aRun 0)).guardedRange 64 (accWidth 3 false) = true) ∧
    (regOf (.ldf 3 3 2 false false 63 0) (aRun 0) 3 = 0x80000000 ∧ (∀ k, k < accWidth 2 false → farByte false (0x80000000 + k) = true) ∧
      0x80000000 % accWidth 2 false = 0) ∧
    farByte false 0xFFFFFFFF = false :=
  ⟨fun c h => issuing_issues (by revert c; decide +kernel), by decide +kernel⟩

/-- A load of the register at 0x00 waits, issued at the engine cycle 39008 with a window of 8. -/
def farRun : Run := { aRun 0 with far := some ⟨false, 1, 2, false, false, 0x80000000, 39008, 8⟩ }

/-- A far access of this kind and size to a register waits. -/
def atReg (store : Bool) (size off : Nat) : Run :=
  { aRun 0 with far := some ⟨store, 2, size, size == 2, false, 0x80000000 + off, 39008, 8⟩ }

/-- A far access of engine 0 to the place 64 of bank b has been granted at the engine cycle 39012. -/
def granted (store : Bool) (b : Nat) (pair : Bool) (bad : SMap Nat) : State :=
  { running 0 { aRun 0 with far := some ⟨store, 2, 3, false, pair, bankBase b + 64, 39008, 8⟩ } with
    upset := bad, banks := [(b, { served := [{ r := 1, first := some 39012, fin := 39013, use := .far 0 }] })] }

theorem hyp_FarAccessesEnd :
    (up.eng 0).run = none ∧
    (((running 0 (aRun 0)).eng 0).run = some (aRun 0) ∧ (aRun 0).far = none) ∧
    (((running 0 farRun).eng 0).run = some farRun ∧ farRun.far = some ⟨false, 1, 2, false, false, 0x80000000, 39008, 8⟩ ∧
      7 < 8 ∧ 39008 + 7 ≤ (running 0 farRun).ecNow) ∧
    (39008 + 8 ≤ (running 0 farRun).ecNow ∧ (running 0 farRun).servedAt (.far 0) = none) ∧
    (∀ p ∈ [(false, 2, 0), (false, 3, 0), (true, 2, KLN_PERIOD), (true, 3, MST_SET)],
      (atReg p.1 p.2.1 p.2.2).far = some ⟨p.1, 2, p.2.1, p.2.1 == 2, false, 0x80000000 + p.2.2, 39008, 8⟩ ∧
      (running 0 (atReg p.1 p.2.1 p.2.2)).readable p.2.2 = true ∧ (((running 0 (atReg p.1 p.2.1 p.2.2)).eng 0).run = some (atReg p.1 p.2.1 p.2.2)) ∧
      ((regWrite 2 p.2.2 5 (traceEntry 0 32 15 7 5 (running 0 (atReg p.1 p.2.1 p.2.2)))).eng 0).run.map Run.far =
        some (atReg p.1 p.2.1 p.2.2).far) ∧
    (∀ st ∈ [true, false], ∀ b ∈ [0, 1, 4, 6], ∀ pair ∈ [true, false],
      (granted st b pair []).servedAt (.far 0) = some b ∧
      (((granted st b pair []).bank b).served.find? (fun q => q.use == .far 0)).bind (·.first) = some 39012 ∧
      (∀ w ∈ wordsAt (eccSize b) (bankBase b + 64) 16, (granted st b pair []).wordErr w < 2) ∧
      (granted st b pair [(bankBase b + 64, 3)]).wordErr (bankBase b + 64) = 2 ∧
      (bankBase b + 64) ∈ wordsAt (eccSize b) (bankBase b + 64) 16) ∧
    (8 + 4 + 24 ≤ runLimit ((granted false 1 false []).eng 0) (aRun 0) + 1) := by
  refine ⟨?_, ?_, ?_, ?_, ?_, ?_, ?_⟩ <;> decide +kernel

theorem hyp_ControlFlow :
    (∀ c ∈ [Coil.br .beq 1 1 0x3FFFF, .br .bne 1 2 0, .br .blt 1 2 1, .br .bge 1 2 1, .br .bltu 2 1 1, .br .bgeu 1 1 1,
        .jmp 0x3FFFFFF, .call 0x3FFFFFF, .ret, .loop 1 4095 1023, .loop 0 1 1],
      (issuing c (aRun 0)).issues 0 c (aRun 0) (fetched c (aRun 0))) ∧
    (∀ c ∈ [Coil.call 8, .ret, .loop 1 1 1],
      (issuing c { aRun 0 with calls := [36, 36, 36, 36] }).issues 0 c { aRun 0 with calls := [36, 36, 36, 36] }
        (fetched c { aRun 0 with calls := [36, 36, 36, 36] })) ∧
    (∀ c ∈ [Coil.call 8, .loop 1 1 1],
      (issuing c { aRun 0 with calls := [36, 36, 36], loops := [⟨32, 60, 2, 0, 3⟩, ⟨32, 60, 2, 0, 0⟩, ⟨32, 60, 2, 0, 0⟩] }).issues 0 c
        { aRun 0 with calls := [36, 36, 36], loops := [⟨32, 60, 2, 0, 3⟩, ⟨32, 60, 2, 0, 0⟩, ⟨32, 60, 2, 0, 0⟩] }
        (fetched c { aRun 0 with calls := [36, 36, 36], loops := [⟨32, 60, 2, 0, 3⟩, ⟨32, 60, 2, 0, 0⟩, ⟨32, 60, 2, 0, 0⟩] })) ∧
    (issuing (.loop 1 1 8) { aRun 0 with loops := [⟨32, 60, 2, 0, 0⟩] }).issues 0 (.loop 1 1 8)
      { aRun 0 with loops := [⟨32, 60, 2, 0, 0⟩] } (fetched (.loop 1 1 8) { aRun 0 with loops := [⟨32, 60, 2, 0, 0⟩] }) ∧
    60 < (aRun 0).pc + 4 + 4 * 8 ∧
    ((∀ i ∈ [Instr.add 0 1 2 3, .seal 0, .ret 0], i.coil.isSome = true) ∧ up.canIssue 0 = none ∧
      (running 0 { aRun 0 with pc := 28 }).canIssue 0 = some { aRun 0 with pc := 28 } ∧
      (∀ p ∈ [252, 256], (running 0 { aRun 0 with pc := p }).canIssue 0 = some { aRun 0 with pc := p } ∧
        ((running 0 (aRun 0)).eng 0).image.base ≤ p ∧
        (p + 4 ≤ ((running 0 (aRun 0)).eng 0).image.base + ((running 0 (aRun 0)).eng 0).image.len ↔ p = 252))) ∧
    (∀ s ∈ [{ running 0 (aRun 0) with upset := [(32, 3)] }], s.canIssue 0 = some (aRun 0) ∧ 32 ∈ wordsAt 8 32 4 ∧ s.wordErr 32 = 2) ∧
    (coilDecode ((running 0 (aRun 0)).memNat 32 4) = none ∧ ∀ w ∈ wordsAt 8 32 4, (running 0 (aRun 0)).wordErr w < 2) :=
  ⟨fun c h => issuing_issues (by revert c; decide +kernel), fun c h => issuing_issues (by revert c; decide +kernel),
    fun c h => issuing_issues (by revert c; decide +kernel), issuing_issues (by decide +kernel), by decide, by decide +kernel⟩

/-- A batch of 64 records is full. -/
def full : Run := { aRun 0 with batch := List.replicate 64 {} }

theorem hyp_ActionsJoinTheBatch :
    (∀ c ∈ [Coil.act 2 1, .act 2 6, .actp 2 1 0 0, .actp 2 1 95 31],
      (issuing c (aRun 0)).issues 0 c (aRun 0) (fetched c (aRun 0))) ∧
    (issuing (.act 2 1) full).issues 0 (.act 2 1) full (fetched (.act 2 1) full) ∧
    (mkAction (regOf (.act 2 1) (aRun 0) 2) (regOf (.act 2 1) (aRun 0) 1)).port = 64 ∧
    (mkAction (regOf (.act 2 6) (aRun 0) 2) (regOf (.act 2 6) (aRun 0) 6)).port = 96 ∧
    full.batch.length = 64 :=
  ⟨fun c h => issuing_issues (by revert c; decide +kernel), issuing_issues (by decide +kernel), by decide +kernel⟩

theorem hyp_SealHandsOnTheBatch :
    ((issuing .seal full).issues 0 .seal full (fetched .seal full) ∧ full.det = false) ∧
    (fetched .seal full).flag (COIL_CTRL_DRY ((fetched .seal full).rights 0)) = false ∧
    (((issuing .seal full).setF (COIL_CTRL_DRY 0) 1).canIssue 0 = some full ∧
      (fetch 0 full ((issuing .seal full).setF (COIL_CTRL_DRY 0) 1)).1 = .inr .seal ∧
      (fetch 0 full ((issuing .seal full).setF (COIL_CTRL_DRY 0) 1)).2.flag (COIL_CTRL_DRY 0) = true ∧ full.batch[63]? = some ({} : Action)) ∧
    (up.ownerOf 64 ≠ 0 ∧ ∀ p ∈ [3, 64], (up.setF (GLB_PORTOWN_TYPE p) 1).ownerOf p = 0 ∧ up.on (portDom p) = true) ∧
    (up.sendq.filter fun x => x.act.owner == 0).length < 128 ∧
    128 ≤ (({ up with sendq := List.replicate 128 ⟨{ port := 3 }, 0⟩ } : State).sendq.filter fun x => x.act.owner == 0).length :=
  ⟨⟨issuing_issues (by decide +kernel), by decide⟩, by decide +kernel⟩

/-- In the same engine cycle engine 5 has made the request q. -/
def beside (q : LockReq) (c : Coil) : State :=
  { (issuing c (aRun 0)).setEng 5 { st := .running, run := some { aRun 0 with ec := 12 } } with lockNow := [q] }

theorem hyp_Locks_in_one_cycle :
    (∀ x ∈ [((⟨39008, 63, 5, 5, some 4, false, {}⟩ : LockReq), Coil.tryl 3 1 63),
        (⟨39008, 0, 5, 5, some 4, false, { held := some 0 }⟩, .unl 1 0)],
      (beside x.1 x.2).issues 0 x.2 (aRun 0) (fetch 0 (aRun 0) (beside x.1 x.2)).2 ∧
      (fetch 0 (aRun 0) (beside x.1 x.2)).2.lockReqs x.1.lock = [x.1] ∧ x.1.cyc = 39008 ∧ x.1.rd.isSome = true ∧ x.1.num = 5 ∧
      (fetch 0 (aRun 0) (beside x.1 x.2)).2.rights 0 = 0 ∧ x.1.was.aband = false ∧
      (((fetch 0 (aRun 0) (beside x.1 x.2)).2.eng 5).run.map fun y => y.ec0 + y.ec) = some (39008 + 4)) ∧
    39008 = (aRun 0).ec0 + (aRun 0).ec :=
  ⟨fun x h => ⟨issuing_issues (by revert x; decide +kernel), by revert x; decide +kernel⟩, by decide⟩

theorem hyp_Locks :
    (∀ c ∈ [Coil.tryl 3 1 63, .unl 1 0], (issuing c (aRun 0)).issues 0 c (aRun 0) (fetched c (aRun 0)) ∧
      (mget (fetched c (aRun 0)).locks 63 {}).held = none) ∧
    (∀ c ∈ [Coil.tryl 3 1 0, .unl 1 0], ∀ k ∈ [0, 1],
      { issuing c (aRun 0) with locks := [(0, { held := some k })] }.issues 0 c (aRun 0)
        (fetch 0 (aRun 0) { issuing c (aRun 0) with locks := [(0, { held := some k })] }).2) :=
  ⟨fun c h => ⟨issuing_issues (by revert c; decide +kernel), by revert c; decide +kernel⟩,
    fun c h k hk => issuing_issues (by revert c k; decide +kernel)⟩

theorem hyp_EventsAndSpecialRegisters :
    (∀ c ∈ [Coil.evo 255, .evc 255, .mfs 3 1, .mfs 3 4, .mfs 3 5, .mfs 3 8, .mfs 3 9, .mfs 3 10, .mfs 3 13, .mts 1 9],
      (issuing c (aRun 0)).issues 0 c (aRun 0) (fetched c (aRun 0))) ∧
    ((fetched (.evo 255) (aRun 0)).on dKILN = true ∧ (fetched (.evo 255) (aRun 0)).rights 0 < 16) :=
  ⟨fun c h => issuing_issues (by revert c; decide +kernel), by decide +kernel⟩

/-- Port p is enabled while the timebase runs, in an output mode, and stands as x. -/
def prt (p : Nat) (x : Port) : State :=
  { (run.setF (PRT_CTRL_EN p) 1).setF (PRT_IOCFG_MODE p) (if p < 64 then 2 else 1) with ports := [(p, x)] }

/-- The head entry of a port's queue executes at the time t with the action code c. -/
def due (c : Nat) (t : Time) : QEntry := ⟨{ code := c, time := t }, false, t⟩

theorem hyp_ActionsExecute :
    (∀ p ∈ [0, 63, 64, 95], ∀ c ∈ [0, 1, 2, 3, 4, 6, 7, 8, 9, 10, 11, 12, 13, 14, 16, 17],
      (prt p { queue := [due c 100255] }).dueHead p = some (due c 100255) ∧ (due c 100255).act.code = c) ∧
    (prt 0 { queue := [due 1 100256] }).dueHead 0 = none ∧
    ((prt 0 { queue := [due 1 100000], edge := some 99999 }).port 0).held = none ∧
    ((100000 - 99999 : Time).toNat < spacing 0 ∧ spacing 0 ≤ (100000 - 50000 : Time).toNat) ∧
    ((prt 95 { queue := [due 1 100000], held := some (100100, true, true) }).port 95).held = some (100100, true, true) ∧
    (((prt 3 { queue := [due 13 100000] }).port 3).snapMc ≠ some 10000 ∧
      (prt 3 { queue := [due 13 100000] }).mc = 10000) ∧
    8 ≤ ((prt 3 { queue := [due 13 100000], recs := List.replicate 8 {} }).port 3).recs.length ∧
    ((prt 3 {}).executes 3 (due 1 100000) = true ∧
      ((prt 3 {}).setF (PRT_POLICY_LATE 3) 1).executes 3 { due 1 100000 with late := true } = false) ∧
    ((prt 3 { queue := [due 1 100000, due 2 100000] }).moreOut 3 100000 = true ∧ (prt 3 {}).moreOut 3 100000 = false) := by
  decide +kernel

/-- A record that has come to its port. -/
def came (a : Action) (s : State) : State := { s with transit := [⟨a, 9999⟩] }

theorem hyp_RecordsArriveAtPorts :
    (∀ c ∈ [0, 1, 0x18, 0x19], ∀ p ∈ [0, 95],
      (came { code := c, port := p } up).nextFor p = some ⟨{ code := c, port := p }, 9999⟩ ∧
      (came { code := c, port := p } up).phys (portDom p) = true ∧ (came { code := c, port := p } up).portEn p = false) ∧
    ((came { code := 1, time := 100001, port := 3 } (prt 3 {})).nextFor 3 = some ⟨{ code := 1, time := 100001, port := 3 }, 9999⟩ ∧
      (prt 3 {}).portEn 3 = true ∧ (prt 3 {}).phys (portDom 3) = true ∧
      recordOk (came { code := 1, time := 100001, port := 3 } (prt 3 {})) 3 { code := 1, time := 100001, port := 3 } = true ∧
      future 100001 ((prt 3 {}).pnow 3) = true ∧ future 99000 ((prt 3 {}).pnow 3) = false ∧
      (prt 3 {}).flag (PRT_POLICY_LATE 3) = false ∧ ((prt 3 {}).setF (PRT_POLICY_LATE 3) 1).flag (PRT_POLICY_LATE 3) = true ∧
      ((prt 3 { queue := List.replicate 31 (due 1 100000) }).port 3).queue.length < 32 ∧
      32 ≤ ((prt 3 { queue := List.replicate 32 (due 1 100000) }).port 3).queue.length) ∧
    (∀ c ∈ [0x18, 0x19, 1], (came { code := c, port := 95 } State.reset).nextFor 95 = some ⟨{ code := c, port := 95 }, 9999⟩ ∨
      State.reset.phys (portDom 95) = false) ∧
    recordOk (came { code := 5, port := 3 } (prt 3 {})) 3 { code := 5, port := 3 } = false ∧
    ((came { code := 0x18, time := 100001, port := 3 } (prt 3 { queue := [due 1 101000] })).nextFor 3 =
        some ⟨{ code := 0x18, time := 100001, port := 3 }, 9999⟩ ∧
      ((prt 3 { queue := [due 1 101000] }).port 3).queue.find?
        ((came { code := 0x18, time := 100001, port := 3 } (prt 3 { queue := [due 1 101000] })).sees
          { code := 0x18, time := 100001, port := 3 }) = some (due 1 101000) ∧
      future 100001 ((prt 3 { queue := [due 1 101000] }).pnow 0) = true ∧
      future 99000 ((prt 3 { queue := [due 1 101000] }).pnow 0) = false) ∧
    ((prt 3 {}).port 3).queue.find? ((prt 3 {}).sees { code := 0x18, time := 100001, port := 3 }) = none ∧
    ((came { code := 0x19, port := 3 } (prt 3 { queue := [due 1 101000] })).port 3).queue.any
      ((came { code := 0x19, port := 3 } (prt 3 { queue := [due 1 101000] })).sees { code := 0x19, port := 3 }) = true ∧
    up.nextFor 0 = none ∧
    (((prt 3 { pulseEnd := some 100255 }).port 3).pulseEnd = some 100255 ∧ (prt 3 { pulseEnd := some 100255 }).prunning 3 = true ∧
      (prt 3 { pulseEnd := some 100255 }).pdue 3 100255 = true ∧ (prt 3 { pulseEnd := some 100255 }).pdue 3 100256 = false) ∧
    (((prt 3 { held := some (100255, true, false) }).port 3).held = some (100255, true, false) ∧ up.prunning 3 = false) := by
  decide +kernel

theorem hyp_EdgesAndCounters :
    (∀ p ∈ [0, 95], up.isVr p = false ∧ up.phys (portDom p) = true ∧ up.outMode p = false ∧ (up.port p).raw = none ∧
      ((!(up.port p).level) != up.flag (PRT_IOCFG_INV p)) ≠ (up.port p).level ∧
      ((!(up.port p).level) != (up.setF (PRT_IOCFG_INV p) 1).flag (PRT_IOCFG_INV p)) = (up.port p).level) ∧
    (prt 0 { raw := some ⟨true, 99990, 0, 9990, true⟩ }).outMode 0 = true ∧
    ((prt 0 { raw := some ⟨true, 99990, 0, 9990, true⟩ }).port 0).raw ≠ none ∧
    (State.reset.phys (portDom 95) = false ∧ State.reset.isVr 95 = false) ∧
    ((up.setF (PRT_IOCFG_MODE 7) 5).isVr 7 = true ∧ (up.setF (PRT_IOCFG_MODE 7) 5).phys (portDom 7) = true ∧
      ({ up.setF (PRT_IOCFG_MODE 7) 5 with vr := [(7, ⟨true, 9⟩)] }.vrOf 7).armed = true ∧ (up.vrOf 7).armed = false) ∧
    (((prt 95 { raw := some ⟨true, 99990, 0, 10000, true⟩ }).port 95).raw = some ⟨true, 99990, 0, 10000, true⟩ ∧
      10000 + (prt 95 { raw := some ⟨true, 99990, 0, 10000, true⟩ }).f (PRT_INCFG_FILT 95) ≤ 10000) ∧
    (((prt 95 {}).setF (PRT_CAPCFG_EDGE 95) 3).f (PRT_CAPCFG_EDGE 95)).testBit 0 = true ∧
    (((prt 95 {}).setF (PRT_CAPCFG_EDGE 95) 3).f (PRT_CAPCFG_EDGE 95)).testBit 1 = true ∧
    ((prt 95 {}).portEn 95 = true ∧ (prt 95 {}).prunning 95 = true ∧ (prt 95 {}).flag (PRT_CAPCFG_GATED 95) = false ∧
      ((prt 95 {}).port 95).stamped = none ∧ ((prt 95 {}).port 95).recs.length < 8 ∧
      (prt 95 { stamped := some 99900, recs := List.replicate 8 {} }).portEn 95 = true ∧
      ((prt 95 { stamped := some 99900, recs := List.replicate 8 {} }).port 95).stamped = some 99900 ∧
      (99990 - 99900 : Time).toNat < spacing 95 ∧ ¬(99990 - 99800 : Time).toNat < spacing 95 ∧
      8 ≤ ((prt 95 { stamped := some 99900, recs := List.replicate 8 {} }).port 95).recs.length ∧
      ((prt 95 {}).setF (PRT_CAPCFG_GATED 95) 1).flag (PRT_CAPCFG_GATED 95) = true ∧
      gateOpen 99990 [(99991, true)] = false ∧ gateOpen 99990 [(99990, true)] = true ∧
      ((prt 95 {}).setF MST_CTRL_RUN 0).prunning 95 = false) ∧
    ((prt 95 {}).linkedBelow 95 = none ∧ ((prt 95 {}).setF (PRT_CCTRL_CSRC 95) 4).linkedBelow 95 = some 88 ∧
      (((prt 95 {}).setF (PRT_CCTRL_CSRC 95) 5).setF (PRT_CCTRL_LSRC 95) 6).linkedBelow 95 = some 94) ∧
    (∀ k, k < 2 → up.mc + 1 ≤ ({ up with ports := [(0, { closed := 10001 }), (1, { closed := 10001 })] }.port k).closed) ∧
    ((prt 95 {}).mc < 10000 + ((prt 95 {}).setF (PRT_INCFG_FILT 95) 1).f (PRT_INCFG_FILT 95) ∧ (up.port 95).raw = none) ∧
    (up.mc + 1 ≤ ((prt 3 { closed := 10001 }).port 3).closed ∧ ((prt 3 { closed := 10000 }).port 3).closed ≤ up.mc) ∧
    (up.portEn 3 = false ∧ ∀ n ∈ [0, 1, 2], (((prt 3 { ctr := { run := true, cnt := n, act := 7 } }).port 3).snapFor 10000).ctr.cnt = n ∧
      (((prt 3 { ctr := { run := true, cnt := n, act := 7 } }).port 3).snapFor 10000).ctr.run = true ∧
      ctrDue ((prt 3 {}).f (PRT_CCTRL_CSRC 3)) ((prt 3 {}).f (PRT_CCTRL_LSRC 3)) ((prt 3 {}).f (PRT_ARMCFG_ARMFN 3)) 10001
        (((prt 3 { ctr := { run := true, cnt := n, act := 7 } }).port 3).snapFor 10000) = true) ∧
    (((prt 3 {}).port 3).snapFor 10000).ctr.run = false ∧
    ctrDue 1 0 0 10001 (((prt 3 { ctr := { run := true } }).port 3).snapFor 10000) = false ∧
    (((up.setF (PRT_CTRL_EN 3) 1).setF (PRT_CCTRL_ONESHOT 3) 1).flag (PRT_CCTRL_ONESHOT 3) = true ∧
      up.flag (PRT_CCTRL_ONESHOT 3) = false) ∧
    (∀ k ∈ [1, 2, 3, 4, 5, 6, 7], (((prt 63 { arm := [10000] }).setF (PRT_ARMCFG_ARMFN 63) k).port 63).arm = [10000] ∧
      ((prt 63 { arm := [10000] }).setF (PRT_ARMCFG_ARMFN 63) k).f (PRT_ARMCFG_ARMFN 63) = k ∧
      ((prt 63 { arm := [10000] }).setF (PRT_ARMCFG_ARMFN 63) k).portEn 63 = true ∧
      ((prt 63 { arm := [10000] }).setF (PRT_ARMCFG_ARMFN 63) k).phys (portDom 63) = true ∧
      ((prt 63 { arm := [10000] }).setF (PRT_ARMCFG_ARMFN 63) k).outMode 63 = true) ∧
    (future ((prt 63 {}).pclose 63 + fc (256 * 10000) - fc (256 * (prt 63 {}).mc)) ((prt 63 {}).pnow 63) = true ∧
      future ((prt 63 {}).pclose 63 + fc (256 * 9999) - fc (256 * (prt 63 {}).mc)) ((prt 63 {}).pnow 63) = false) := by
  decide +kernel

theorem hyp_PortRegistersAndDrivers :
    (up.reaches (PRT_CTRL 0) ∧ up.portEn 0 = false) ∧
    ((prt 95 {}).reaches (PRT_CTRL 95) ∧ (prt 95 {}).portEn 95 = true) ∧
    (up.reaches (PRT_CLR 0) ∧ up.reaches (PRT_CLR 95)) ∧
    (up.reaches (PRT_CNT 95) ∧ up.reaches (PRT_RLD 0) ∧ up.reaches (PRT_CMP 95)) ∧
    (up.reaches (PRT_CCTRL 63) ∧ cctrlOk 63 (up.stg (PRT_CCTRL 63)).toNat = true) ∧
    ((prt 63 { drv := true }).driving 63 = true ∧ (prt 63 { drv := true }).driving 62 = false) ∧
    (up.reaches (PRT_STATUS 63) ∧ up.noted (PRT_STATUS_OCP 63) = 0 ∧
      (up.note (PRT_STATUS_OCP 63)).noted (PRT_STATUS_OCP 63) ≠ 0) ∧
    ((prt 95 { pulseEnd := some 99000 }).port 95).acc = none ∧ ((prt 95 {}).port 95).later = [] ∧
    ∀ k : Fin 64, (63 : Fin 64) < k → (prt 63 { drv := true }).driving k = false := by
  unfold State.reaches; decide +kernel

/-- Tracker 3 of port 7 is enabled in the state SEEK, for a wheel of 60 positions, and stands as x. -/
def whl (x : Tracker) : State :=
  { (((((((((run.setF (WHL_CTRL_EN 3) 1).setF (WHL_STATUS_STATE 3) 1).setF (WHL_INPUT_PPORT 3) 7).setF (WHL_SYNCCFG_NM1 3) 59).setF
      (WHL_SYNCCFG_GAPR 3) 40).setF (WHL_SYNCCFG_CONFIRM 3) 1).setF (GLB_PORTOWN_TYPE 7) 2).setF (GLB_PORTOWN_INDEX 7) 3).setF
      (WHL_STALL_ABS 3) 1).setF (WHL_FILT_MINFRAC 3) 128 with wheels := [(3, x)] }

/-- A tooth of tracker 3. -/
def tooth (t : Time) : Tooth := ⟨7, t, false, 3, 0, 0⟩

theorem hyp_TeethAreProcessed :
    up.toothPath.find? (fun r => r.wheel == 3) = none ∧
    ({ up with toothPath := [tooth 5] } : State).toothPath.find? (fun r => r.wheel == 3 && decide (r.ready ≤ up.mc)) = some (tooth 5) ∧
    ({ up with toothPath := [{ tooth 5 with ready := 10001 }] } : State).toothPath.find?
      (fun r => r.wheel == 3 && decide (r.ready ≤ up.mc)) = none ∧
    ((whl {}).on dKILN = true ∧ (whl {}).whlEn 3 = true) ∧
    ((up.wheel 0).fifo = [] ∧ up.whlEn 0 = false) ∧
    (((whl { fifo := [(tooth 90000, 9980)] }).wheel 3).fifo = [(tooth 90000, 9980)] ∧ max (9980 + 20) (0 + 20) ≤ up.mc ∧
      up.mc < max (9981 + 20) (0 + 20) ∧
      (tooth 90000).port = (whl {}).f (WHL_INPUT_PPORT 3) ∧
      (whl {}).badWord (ttAddr ((whl {}).f (WHL_TTCFG_PBASE 3))) (4 * (whl {}).teethN 3) = false ∧
      (whl {}).whlState 3 ≠ 4 ∧ (whl {}).isReverse 3 false = false ∧ (whl {}).flag (WHL_STATUS_REVERSE 3) = false ∧
      ((whl {}).wheel 3).secs = [] ∧ ((whl {}).wheel 3).lastT = none) ∧
    { whl {} with upset := [(ttAddr 59, 3)] }.badWord (ttAddr ((whl {}).f (WHL_TTCFG_PBASE 3))) (4 * (whl {}).teethN 3) = true ∧
    (((whl { lastT := some 64401 }).wheel 3).lastT = some 64401 ∧ (90000 - 64401 : Time).toNat < 25600 ∧
      (whl { lastT := some 64401 }).dPred 3 = none) ∧
    ((whl { lastT := some 60000, hist := [(60000, 2), (30000, 1), (0, 0)], pos := some 2, a1 := 65536, a2 := 65536 }).dPred 3 = some 450000 ∧
      ((60001 - 60000 : Time).toNat * 256 : Int) < (whl {}).f (WHL_FILT_MINFRAC 3) * (450000 : Int) ∧
      (whl {}).f (WHL_FILT_MINFRAC 3) * (450000 : Int) ≤ ((285000 - 60000 : Time).toNat * 256 : Int)) ∧
    ((whl { stallT := some 0 }).stallAfter 3 = some 51200 ∧ ((whl { stallT := some 0 }).wheel 3).stallT = some 0 ∧
      (whl {}).running = true ∧ (whl {}).dueFc (0 + fc 51200 + fc (20480 + 256 * (whl {}).f (PRT_INCFG_FILT 7))) = true ∧
      (whl {}).whlState 3 ≠ 0 ∧ ((whl { stallT := some 0 }).wheel 3).seen = []) ∧
    (whl {}).dueFc (30000 + fc 51200 + fc (20480 + 256 * (whl {}).f (PRT_INCFG_FILT 7))) = false ∧
    (future 51201 (0 + fc 51200) = true ∧ future 51200 (0 + fc 51200) = false) ∧
    ((whl {}).setF (WHL_CFG_STALLKEEP 3) 1).flag (WHL_CFG_STALLKEEP 3) = true ∧
    (whl {}).flag (WHL_CFG_STALLKEEP 3) = false := by
  decide +kernel

/-- The state that a command leaves. -/
def left (i : Instr) (s : State) : State := match exec i s with | .next t => t | _ => State.reset

/-- Tracker 3 has a wheel of 4 positions, of which the last has no tooth, is in the state st, and stands as x with a tooth at 90000 fc to
process. -/
def gear (st : Nat) (x : Tracker) : State :=
  (((whl { x with fifo := [(tooth 90000, 9980)] }).setF (WHL_STATUS_STATE 3) st).setF (WHL_SYNCCFG_NM1 3) 3).poke (ttAddr 0)
    (leBytes 4 0x1010000 ++ leBytes 4 0x1010000 ++ leBytes 4 0x1010000 ++ leBytes 4 0x10000)

/-- The tracker in SYNC whose next tooth, at position 1, gives a valid estimate; its slot 0 drives port 7 with the settings cfg from
the angle beg on, ends at the angle 0, and stands as y in the state st. -/
def spin (st cfg beg : Nat) (y : WSlot) : State :=
  ((((((gear 3 { lastT := some 64400, prevE := some 25600, pos := some 0, hist := [(64400, 0), (38800, 2), (13200, 1)], a1 := 131072
                 a2 := 65536, recent := [(64400, some 0), (38800, some 2)], slots := [(0, y)], stallT := some 64400 }).setReg
    (WHL_EVCFG 3 0) (BitVec.ofNat 32 (0x701 + cfg))).setF (WHL_EVBEG_BEGIN 3 0) beg).setF (WHL_EVMAX_MAXDUR 3 0) 100000).setF
    (WHL_EVSTAT_STATE 3 0) st).setF (WHL_ISSUE_LOOKAHEAD 3) 2).setF (WHL_STATUS_ESTVALID 3) 1

/-- Tracker 3 has seen the teeth x, all but the last of the interval in which the edge of the secondary port 6 at 50000 fc falls. -/
def secEdge (mode : Nat) (t : Time) : State :=
  (((gear 3 { lastT := some 64400, recent := [(64400, some 0), (38800, some 2)], pos := some 0, secJ := 1 }).modWheel 3 fun x =>
    { x with fifo := [({ tooth t with port := 6 }, 9980)] }).setF (WHL_CFG_SECMODE 3) mode).setF (WHL_TTCFG_SBASE 3) 100

/-- The last accepted tooth came 25600 fc before the next, after an interval of b, at the position q. -/
def before (q : Option Nat) (b : Nat) : Tracker := { lastT := some 64400, prevE := some b, pos := q, recent := [(64400, q)] }

theorem accepts_gear {s : State} {p : Nat} {e : Option Nat} (h : (((s.wheel 3).fifo = [(tooth 90000, 9980)] ∧
      p = max (9980 + 20) (((s.wheel 3).lastP.getD 0) + 20) ∧ p ≤ s.mc ∧ s.whlEn 3 = true) ∧ 7 = s.f (WHL_INPUT_PPORT 3) ∧
      s.badWord (ttAddr (s.f (WHL_TTCFG_PBASE 3))) (4 * s.teethN 3) = false ∧ s.whlState 3 ≠ 4 ∧ s.isReverse 3 false = false ∧
      s.flag (WHL_STATUS_REVERSE 3) = false ∧ (s.wheel 3).secs = [] ∧ e = (s.wheel 3).lastT.map (fun u => (90000 - u).toNat)) ∧
      (e.all fun n : Nat => decide (25600 ≤ n) && ((s.dPred 3).all fun d => decide (s.f (WHL_FILT_MINFRAC 3) * d ≤ (n * 256 : Int)))) = true) :
    s.acceptsForward 3 (tooth 90000) p e := by
  obtain ⟨⟨⟨a, b, c, d⟩, p1, p2, p3, p4, p5, p6, p7⟩, h⟩ := h
  refine ⟨⟨9980, [], a, b, c, d⟩, p1, p2, p3, p4, p5, p6, p7, fun n hn => ?_⟩
  simp only [hn, Option.all_some, Bool.and_eq_true, decide_eq_true_eq] at h
  exact ⟨h.1, fun d hd => by simpa [hd] using h.2⟩

theorem hyp_TeethAreAccepted :
    (∀ s ∈ [gear 1 (before none 10240), gear 1 (before none 10241), gear 3 (before (some 1) 10240), gear 3 (before (some 2) 10241),
        gear 3 (before (some 1) 10241), gear 1 (before (some 2) 10240), gear 2 (before (some 2) 10240),
        (gear 3 { before (some 1) 1 with miss := some 0, refs := [89999] }), (gear 3 { before (some 2) 1 with refs := [89999] }),
        (gear 3 { before (some 1) 1 with refs := [89999] }), (gear 1 { before none 1 with refs := [89999] })],
      s.acceptsForward 3 (tooth 90000) 10000 (some 25600)) ∧
    (40 * 10240 ≤ 25600 * 16 ∧ 25600 * 16 < 40 * 10241 ∧
      ([0, 1, 2].map fun q => (gear 3 {}).nextPhys 3 q 4) = [(1, false), (2, false), (0, true)] ∧
      (gear 3 {}).flag (WHL_SYNCCFG_SYNCSRC 3) = false ∧ (gear 3 {}).flag (WHL_CFG_CYCLE2 3) = false ∧
      ((gear 3 {}).setF (WHL_SYNCCFG_SYNCSRC 3) 1).flag (WHL_SYNCCFG_SYNCSRC 3) = true ∧
      ((gear 3 {}).setF (WHL_CFG_CYCLE2 3) 1).flag (WHL_CFG_CYCLE2 3) = true ∧ (gear 1 {}).f (WHL_SYNCCFG_CONFIRM 3) = 1) ∧
    (reached ((gear 3 {}).refBy 3 0) ((gear 3 {}).timeOfMc 10000) = true ∧ future 90000 89999 = true ∧
      reached ((gear 3 {}).refBy 3 90000) ((gear 3 {}).timeOfMc 10000) = false) ∧
    (∀ s ∈ [((spin 1 0 0x2C000 {}).modWheel 3 fun x => { x with cyc := [102400, 102400] }).setF (WHL_LEARN_EN 3) 1],
      s.acceptsForward 3 (tooth 90000) 10000 (some 25600) ∧ s.flag (WHL_LEARN_EN 3) = true ∧
      ∀ t ∈ [left (.toothProcess 3) s], (t.wheel 3).cyc = [102400, 102400] ∧ t.whlState 3 = 3 ∧ (t.wheel 3).accl = false ∧
        2 ≤ (t.wheel 3).hist.length ∧ (t.wheel 3).pos = some 1 ∧ (s.ttPos 3 1).testBit 25 = false) ∧
    (∀ s ∈ [secEdge 2 50000], (s.wheel 3).fifo = [({ tooth 50000 with port := 6 }, 9980)] ∧ s.whlEn 3 = true ∧ (s.wheel 3).secs = [] ∧
      6 ≠ s.f (WHL_INPUT_PPORT 3) ∧ phaseMode (s.f (WHL_CFG_SECMODE 3)) = true ∧ s.flag (WHL_SYNCCFG_SYNCSRC 3) = false ∧
      s.whlState 3 = 3 ∧ closing 50000 (s.wheel 3).recent = some ((64400, some 0), (38800, some 2)) ∧
      s.badWord (ttAddr 0) (4 * 4) = false ∧ s.badWord (ttAddr 101) 4 = false ∧
      { s with upset := [(ttAddr 101, 3)] }.badWord (ttAddr 101) 4 = true ∧
      { s with upset := [(ttAddr 101, 3)] }.badWord (ttAddr 0) (4 * 4) = false ∧ ((s.wheel 3).numT.any fun u => future u 50000) = false) ∧
    (∀ s ∈ [secEdge 1 70000], s.f (WHL_CFG_SECMODE 3) = 1 ∧ (∀ h ∈ (s.wheel 3).recent, future h.1 70000 = false) ∧ (s.wheel 3).lostT = none) := by
  refine ⟨fun s h => accepts_gear ?_, ?_, ?_, fun s h => ⟨accepts_gear ?_, ?_⟩, ?_, ?_⟩
  all_goals (try revert s); decide +kernel

/-- The begin of an occurrence is queued for 134801 fc, and its end. -/
def queued (bc : Bool) : WSlot :=
  { bq := true, bc := bc, eq := true, tb := 134801, te := 171200, cfg := 0x703, beg := 0x2C000, maxd := 100000 }

/-- A record of tracker 3 for port 7 can be sent. -/
theorem hyp_SlotsAreIssued :
    (∀ s ∈ [spin 1 0 0x2C000 {}, spin 5 2 0x2C000 {}, spin 1 0 0x30001 {}, spin 1 0xFFFF0004 0x28000 {}, spin 1 0 0x18000 {},
        spin 2 2 0x2C000 (queued false), spin 2 2 0x2C000 { queued false with cfg := 0x707, beg := 0x18000 },
        spin 2 2 0x2C000 { queued false with cfg := 0xFFFF0707, beg := 0x28000 }, spin 3 2 0x2C000 (queued true),
        spin 4 2 0x2C000 { queued true with tb := 80000, bpass := true, maxd := 25000 }],
      s.acceptsForward 3 (tooth 90000) 10000 (some 25600) ∧ s.timeOfMc 10000 = 100000 ∧ s.running = true ∧ s.ownerOf 7 = 0x10 + 3 ∧
      s.on (portDom 7) = true ∧ ∀ t ∈ [left (.toothProcess 3) s], (t.wheel 3).pos = some 1 ∧ t.whlState 3 = 3 ∧ (t.wheel 3).valid = true ∧
        (t.sendq.filter fun x => x.act.owner == 0x10 + 3).length < 128) ∧
    ((queued false).freeBeg 100000 = true ∧ (queued true).freeBeg 100000 = false ∧ (queued true).freeEnd 100000 = true ∧
      { queued false with tb := 131744 }.freeBeg 100000 = false) ∧
    ((∀ t ∈ [left (.toothProcess 3) (spin 1 0 0x2C000 {})], t.ahead 3 65536 0x2C000 ≤ t.f (WHL_ISSUE_LOOKAHEAD 3) * 65536 ∧
        (commitHor 7 : Int) - sdiff (t.predAt 3 (t.ahead 3 65536 0x2C000)) 100000 ≤ 0) ∧
      (∀ t ∈ [left (.toothProcess 3) (spin 1 0 0x30001 {})], t.f (WHL_ISSUE_LOOKAHEAD 3) * 65536 < t.ahead 3 65536 0x30001) ∧
      (∀ t ∈ [left (.toothProcess 3) (spin 1 0xFFFF0004 0x28000 {})],
        0 < (commitHor 7 : Int) - sdiff (t.predAt 3 (t.ahead 3 65536 0x28000)) 100000 ∧
        firesLate t 3 0xFFFF0705 ((commitHor 7 : Int) - sdiff (t.predAt 3 (t.ahead 3 65536 0x28000)) 100000) = true) ∧
      firesLate (left (.toothProcess 3) (spin 1 0 0x18000 {})) 3 0x701 28944 = false) ∧
    ((sdiff (boundEnd ((left (.toothProcess 3) (spin 4 2 0x2C000 { queued true with tb := 80000, bpass := true, maxd := 25000 })).predAt 3 76800)
        80000 25000) 100000 < (commitHor 7 : Int)) ∧ (commitHor 7 : Int) ≤ sdiff (boundEnd 166800 134801 100000) 100000 ∧
      (left (.toothProcess 3) (spin 3 2 0x2C000 (queued true))).tol 3 ≤ (sdiff (166800 : Time) 171200).natAbs) ∧
    (∀ s ∈ [((spin 3 2 0x2C000 (queued true)).setF (WHL_CFG_SECMODE 3) 3).modWheel 3 fun x =>
        { x with fifo := [({ tooth 90000 with other := true }, 9980)] }], s.isReverse 3 true = true ∧ s.flag (WHL_STATUS_REVERSE 3) = false ∧
      (s.wheel 3).secs = [] ∧ s.badWord (ttAddr 0) 16 = false) := by
  refine ⟨fun s h => ⟨accepts_gear ?_, ?_⟩, ?_, ?_, ?_, ?_⟩
  all_goals (try revert s); decide +kernel

/-- A slot of tracker 3 in a state. -/
def slotIn (k st : Nat) (y : WSlot) : State := (whl { slots := [(k, y)] }).setF (WHL_EVSTAT_STATE 3 k) st

theorem hyp_SlotsAndTrackers :
    (((slotIn 63 2 { bq := true, tb := 131999 }).wheel 3).slot 63 = { bq := true, tb := 131999 } ∧
      (slotIn 63 2 { bq := true, tb := 131999 }).dueFc (131999 - fc (commitHor (evPort 0))) = true) ∧
    (slotIn 63 2 {}).dueFc (132000 - fc (commitHor (evPort 0))) = false ∧
    (((slotIn 0 3 { eq := true, te := 131999 }).wheel 3).slot 0).eq = true ∧
    ((slotIn 0 3 { bq := true, bc := true, tb := 100255 }).slotSt 3 0 = 3 ∧
      (((slotIn 0 3 { bq := true, bc := true, tb := 100255 }).wheel 3).slot 0).bc = true ∧
      (slotIn 0 3 {}).dueFc 100255 = true) ∧
    (slotIn 0 3 {}).dueFc 100256 = false ∧
    (((slotIn 0 4 { bc := true, tb := 100000, fin := 255 }).wheel 3).slot 0).endTime = 100255 ∧
    ((slotIn 0 4 {}).slotSt 3 0 = 4 ∧ evOnce 8 = true ∧ evOnce 0 = false) ∧
    (up.reaches (WHL_CTRL 0) ∧ up.whlEn 0 = false ∧ up.whlOk 0 = false) ∧
    (((whl {}).setF (WHL_CTRL_EN 3) 0).reaches (WHL_CTRL 3) ∧ ((whl {}).setF (WHL_CTRL_EN 3) 0).whlEn 3 = false ∧
      ((whl {}).setF (WHL_CTRL_EN 3) 0).whlOk 3 = true) ∧
    ((whl {}).reaches (WHL_CTRL 3) ∧ (whl {}).whlEn 3 = true) ∧
    (State.reset.on dKILN = false ∧ ((whl {}).setF (WHL_LEARN_EN 3) 1).ttLocked (ttAddr 59) 4 = true) ∧
    (up.on dKILN = true ∧ ((whl {}).setF (WHL_LEARN_EN 3) 1).ttLocked (ttAddr 60) 4 = false ∧ up.ttLocked (ttAddr 8191) 4 = false ∧
      up.bankUp 6 = true) ∧
    (up.setF (bitFld SAG_BUSY_CLEARING 6) 1).bankUp 6 = false ∧
    (up.reaches (WHL_CLR 0) ∧ up.reaches (WHL_CLR 3)) ∧
    (up.isVr 0 = false ∧ ((whl {}).setF (PRT_IOCFG_MODE 7) 5).isVr 7 = true ∧
      ((whl {}).setF (PRT_IOCFG_MODE 7) 5).phys (portDom 7) = true ∧
      (((whl {}).setF (PRT_IOCFG_MODE 7) 5).setF (WHL_VRCFG_VRMIN 3) 4).vrThr 7 < 16 * 5 ∧
      16 * 4 ≤ (((whl {}).setF (PRT_IOCFG_MODE 7) 5).setF (WHL_VRCFG_VRMIN 3) 4).vrThr 7 ∧
      (whl {}).ownerOf 7 = 0x10 + 3) := by
  unfold State.reaches; decide +kernel

/-- Sheave unit 7 is enabled in the mode m, with its ports 60 and 61, and stands as x. -/
def shv (m : Nat) (x : Sheave) : State :=
  { (((((run.setF (SHV_CTRL_EN 7) 1).setF (SHV_STATUS_RUNNING 7) 1).setF (SHV_CFG_MODE 7) m).setF (SHV_INPUT_APORT 7) 60).setF (SHV_INPUT_BPORT 7) 61).setF
      (SHV_SCLIM_AMAX 7) 0x3FFF with sheaves := [(7, x)], kln.count := 100352 }

/-- A serial frame of 9 bits that began in the Mast cycle f0, with a half period of 40 mc and a delay of 3 mc. -/
def frame_ (f0 : Nat) : State :=
  (((shv 2 { frame := some f0 }).setF (SHV_SSITIM_HALF 7) 40).setF (SHV_SSICFG_DBITS 7) 9).setF (SHV_SSICFG_DELAY 7) 3

/-- An index edge comes at the position 5003 of unit 7, whose turn has 1000 steps. -/
def indexed (x : Sheave) : State :=
  ((((shv 0 { x with edges := [⟨2, true, some 90000, 10000, 0⟩] }).setF (SHV_CFG_IDXEN 7) 1).setF (SHV_POS_POS 7) 5003).setF
    (SHV_CPR_CPR 7) 1000).setF (SHV_DRIFTTOL_TOL 7) 2

/-- Unit 7 nears the end of a line that adaptation has followed through 40 pairs. -/
def lined (x : Sheave) : State :=
  (((shv 1 { x with line := some ⟨false, 40, 3000, -2900, 3100, -3100, 100⟩ }).setF (SHV_SCADAPT_AUTO 7) 1).setF (SHV_SCADAPT_ADAPTK 7) 2).setF
    (SHV_POS_POS 7) 4090

theorem hyp_SheavePositions :
    (((shv 0 {}).sheave 7).load = none ∧ ((shv 0 {}).sheave 7).cmpw = [] ∧ (shv 0 {}).shvRuns 7 = true ∧
      (shv 0 {}).phys dFCORE = true ∧ (shv 0 {}).f (SHV_CFG_MODE 7) = 0) ∧
    (up.shvRuns 0 = false ∧ State.reset.phys dFCORE = false) ∧
    (((shv 0 { edges := [⟨0, true, some 90000, 10000, 0⟩] }).sheave 7).edges = [⟨0, true, some 90000, 10000, 0⟩] ∧
      10000 ≤ (shv 0 {}).mc ∧ true ≠ ((shv 0 {}).sheave 7).a ∧
      quadStep ((shv 0 {}).f (SHV_CFG_DECODE 7)) false false true false ≠ 0) ∧
    (((shv 0 { edges := [⟨0, true, some 90000, 10000, 0⟩, ⟨1, true, some 90000, 10000, 0⟩] }).sheave 7).edges.length = 2 ∧
      ((shv 0 {}).sheave 7).b = false) ∧
    ((shv 1 {}).f (SHV_CFG_MODE 7) = 1 ∧ (shv 1 {}).now.toNat / 256 % 20 = 12 ∧ (shv 1 {}).shvRuns 7 = true ∧
      ((shv 1 {}).sheave 7).lost = false ∧ (shv 1 {}).flag (SHV_STATUS_COUNTONLY 7) = false ∧
      (shv 1 {}).f (SHV_SCLIM_AMIN 7) ≤ roundSqrt (3 * 3 + 4 * 4) ∧ roundSqrt (3 * 3 + 4 * 4) ≤ (shv 1 {}).f (SHV_SCLIM_AMAX 7)) ∧
    run.now.toNat / 256 % 20 ≠ 12 ∧
    (((shv 1 { quad := 3, fresh := false }).setF (SHV_STATUS_COUNTONLY 7) 1).flag (SHV_STATUS_COUNTONLY 7) = true ∧
      ((shv 1 { quad := 3, fresh := false }).sheave 7).fresh = false ∧ ((shv 1 { quad := 3, fresh := false }).sheave 7).quad < 4 ∧
      quadrantOf false false = (3 + 1) % 4 ∧ quadrantOf true true = (3 + 3) % 4 ∧ quadrantOf false true = (3 + 2) % 4 ∧
      quadrantOf true false = 3) ∧
    ((shv 1 {}).sheave 7).fresh = true ∧
    (((shv 2 { starts := [10000] }).sheave 7).starts = [10000] ∧ 10000 ≤ (shv 2 {}).mc ∧ (shv 2 {}).f (SHV_CFG_MODE 7) = 2 ∧
      (shv 2 {}).shvRuns 7 = true ∧ ((shv 2 {}).sheave 7).frame = none ∧
      ((shv 2 {}).port ((shv 2 {}).f (SHV_INPUT_APORT 7))).level = false) ∧
    (∀ x ∈ [({ level := true } : Port), { told := [(9999, true), (10000, false), (10001, true)] }],
      ((x.told.find? fun q => decide (10000 ≤ q.1)).map fun q => !q.2).getD x.level = true) ∧
    (((shv 2 { starts := [10001], frame := some 9000 }).sheave 7).frame.isSome = true ∧ (shv 2 {}).mc < 10001) ∧
    (((shv 2 { frame := some 9000 }).sheave 7).frame = some 9000 ∧ 9000 + (shv 2 {}).ssiBusy 7 ≤ (shv 2 {}).mc ∧
      (shv 2 {}).f (SHV_SSICFG_CRCBITS 7) = 0 ∧ (shv 2 {}).flag (SHV_STATUS_POSVALID 7) = false) ∧
    (shv 2 {}).mc < 10001 + (shv 2 {}).ssiBusy 7 ∧ (2 : DWord) ≠ BitVec.ofNat 64 (bitsNat [false, true, true]) ∧
    (((shv 2 { frame := some 9000, first := false }).setF (SHV_STATUS_POSVALID 7) 1).flag (SHV_STATUS_POSVALID 7) = true ∧
      ((shv 2 { first := false }).sheave 7).first = false ∧ ((shv 2 { first := true }).sheave 7).first = true) ∧
    (((((shv 2 {}).setF (SHV_SSICFG_CRCBITS 7) 4).setF (SHV_SSICFG_DBITS 7) 4).setF (SHV_SSICRC_POLY 7) 3).f (SHV_SSICFG_CRCBITS 7) ≠ 0 ∧
      ssiCrc 4 3 false [false, false, false, true] ≠ bitsNat [false, false, false, true, false, false, false, false] % 2 ^ 4 ∧
      ssiCrc 4 3 false [false, false, false, true] = bitsNat [false, false, false, true, false, false, true, true] % 2 ^ 4) ∧
    (((frame_ 10000).sheave 7).frame = some 10000 ∧ 0 < (frame_ 10000).f (SHV_SSITIM_HALF 7) ∧
      (frame_ 10000).f (SHV_SSITIM_HALF 7) = 40 ∧ (frame_ 10000).ssiBits 7 = 9 ∧ (frame_ 10000).f (SHV_SSICFG_DELAY 7) = 3 ∧
      (∀ j ∈ [1, 2, 18, 19], (frame_ (10000 - j * 40)).mc = 10000 - j * 40 + j * 40) ∧
      ∀ k ∈ [1, 9], (frame_ (10000 - (2 * k * 40 + 3))).mc = 10000 - (2 * k * 40 + 3) + 2 * k * 40 + 3) ∧
    (((indexed {}).sheave 7).edges = [⟨2, true, some 90000, 10000, 0⟩] ∧ (indexed {}).shvRuns 7 = true ∧
      (indexed {}).flag (SHV_CFG_ZEDGE 7) = false ∧ (indexed {}).flag (SHV_CFG_IDXEN 7) = true ∧
      ((indexed {}).setF (SHV_CFG_ZEDGE 7) 1).flag (SHV_CFG_ZEDGE 7) = true ∧ (indexed {}).f (SHV_CFG_MODE 7) ≠ 2 ∧
      (indexed {}).flag (SHV_CFG_IDXGATE 7) = false ∧ (indexed {}).flag (SHV_STATUS_DRIFTVALID 7) = false ∧
      ((indexed {}).setF (SHV_STATUS_DRIFTVALID 7) 1).flag (SHV_STATUS_DRIFTVALID 7) = true ∧ (indexed {}).f (SHV_CPR_CPR 7) = 1000 ∧
      wrapDiff 48 (5003 - 1000) - roundAway (wrapDiff 48 (5003 - 1000)) 1000 * 1000 = 3 ∧ (indexed {}).f (SHV_DRIFTTOL_TOL 7) = 2) ∧
    (((lined {}).sheave 7).line.isSome = true ∧ (lined {}).flag (SHV_SCADAPT_AUTO 7) = true ∧ (shv 1 {}).flag (SHV_SCADAPT_AUTO 7) = false ∧
      (40 - 3000 : Int).natAbs ≠ 0 ∧ theta 7 40 3000 = 9 ∧ wrapDiff 12 (9 - 4090) = 15 ∧ 4090 / 4096 ≠ ofSigned 48 (4090 + 15) / 4096) ∧
    (((lined { badN := 3 }).sheave 7).badN = 3 ∧ ((lined { lost := true, goodN := 3 }).sheave 7).goodN = 3 ∧
      roundSqrt (0 : Nat) < ((lined {}).setF (SHV_SCLIM_AMIN 7) 1).f (SHV_SCLIM_AMIN 7)) ∧
    (1024 ≤ (1024 : Int).natAbs ∧ (205 : Int).natAbs < 1024 ∧ ((lined { fastN := 7 }).sheave 7).fastN = 7) := by
  (repeat' apply And.intro) <;> decide +kernel

theorem hyp_SheaveControl :
    ((shv 0 {}).reaches (SHV_CTRL 7) ∧ (shv 0 {}).shvEn 7 = true) ∧
    (up.reaches (SHV_CTRL 0) ∧ up.shvEn 0 = false ∧ up.shvOk 0 = false) ∧
    ((((((shv 0 {}).setF (SHV_CTRL_EN 7) 0).setF (GLB_PORTOWN_TYPE 60) 3).setF (GLB_PORTOWN_INDEX 60) 7).setF
        (GLB_PORTOWN_TYPE 61) 3).setF (GLB_PORTOWN_INDEX 61) 7).shvOk 7 = true ∧
    (((shv 2 { frame := some 9000 }).setF (SHV_CTRL_EN 7) 0).shvEn 7 = false ∧ ((shv 2 {}).setF (SHV_CTRL_EN 7) 0).shvRuns 7 = true ∧
      (shv 2 {}).phys dFCORE = true ∧ (shv 2 {}).ports = [] ∧ (shv 2 {}).ep.queue = [] ∧ (shv 2 {}).ep.held = [] ∧
      ∀ v, v < 7 → ((shv 2 { frame := some 9000 }).sheave v).frame = none) ∧
    ((shv 0 { load := some 5 }).sheave 7).load = some 5 ∧
    ((shv 2 {}).reaches (SHV_POS 7) ∧ (shv 2 {}).f (SHV_CFG_MODE 7) = 2 ∧ (shv 2 {}).shvRuns 7 = true) ∧
    (up.reaches (SHV_POS 0) ∧ up.shvRuns 0 = false) ∧
    (up.reaches (SHV_CMPVAL 0 0) ∧ up.reaches (SHV_CMPVAL 7 15)) ∧
    (((shv 0 { winAt := some 10000 }).sheave 7).winAt = some 10000 ∧ 10000 ≤ (shv 0 {}).mc ∧
      (shv 0 {}).flag (SHV_STATUS_STILL 7) = false) ∧
    ((shv 0 {}).mc < 10001 ∧ (up.sheave 0).winAt = none) ∧
    (((shv 0 { lastB := some 9800 }).sheave 7).lastB = some 9800 ∧
      ((shv 0 {}).setF (SHV_SPDCFG_STILL 7) 1).f (SHV_SPDCFG_STILL 7) = 1 ∧ 9800 + 200 * 1 ≤ (shv 0 {}).mc ∧
      (shv 0 {}).mc < 9801 + 200 * 1) ∧
    ((shv 0 {}).setF (SHV_STATUS_STILL 7) 1).flag (SHV_STATUS_STILL 7) = true ∧
    (up.reaches (SHV_CLR 0) ∧ up.reaches (SHV_CLR 7)) := by
  unfold State.reaches; decide +kernel

/-- A pulse of route entry 1023 is due, and the entry routes to the destination d. -/
def routed (d : Nat) : State :=
  { up.setReg64 (RIG_ROUTE 1023) (2 ^ 31 + d * 2 ^ 16) with rig.flight := [(1023, [10000])] }

/-- Messages may be sent, and vector 63 is not masked. -/
def msix : State := { up with ep.msixEn := true, ep.table := [(1020, 0)] }

theorem hyp_PulsesAreDelivered :
    (∀ d ∈ [0, 0x7F, 0x80, 0x9F, 0xA0, 0xFF, 0x100, 0x13F],
      takeDue (routed d).mc (mget (routed d).rig.flight 1023 []) = some [] ∧ rtDst ((routed d).reg64 (RIG_ROUTE 1023)) = d ∧
      mget (routed d).rig.reached d 0 ≠ (routed d).mc + 1) ∧
    mget { routed 0 with rig.reached := [(0, 10001)] }.rig.reached 0 0 = (routed 0).mc + 1 ∧
    (takeDue up.mc (mget { up with rig.fflight := [(0, [10000])] }.rig.flight 0 []) = none ∧
      takeDue up.mc (mget { up with rig.fflight := [(0, [10000])] }.rig.fflight 0 []) = some [] ∧
      rtDst (mget { up with rig.field := [(0, 0x80A50000)] }.rig.field 0 0).toNat = 0xA5) ∧
    (takeDue up.mc (mget { up with rig.flight := [(5, [10001])] }.rig.flight 5 []) = none ∧
      takeDue up.mc (mget up.rig.fflight 5 []) = none) ∧
    (standin.spare.standFor = some (24 / 8) ∧ standin.on (engDom 16) = true ∧ up.on (engDom 15) = true) ∧
    ((up.setF (HLY_CCTRL_EN 31) 1).flag (HLY_CCTRL_EN 31) = true ∧ up.on dDMA = true) ∧
    ((prt 95 {}).portEn 95 = true ∧ (prt 95 {}).phys (portDom 95) = true) ∧
    ((msix.tap 63).holdEnd = none ∧ msix.msixOn = true ∧ msix.msixMasked 63 = false ∧ msix.msixMasked 0 = true) ∧
    ({ msix with rig.taps := [(63, ⟨some 10001, false⟩)] }.tap 63).holdEnd.isSome = true ∧
    (up.rig.fapply = [] ∧ up.mc < 10001 ∧
      { up with rig.fapply := [(10000, [(0, 5)]), (10001, [])] }.rig.fapply = [(10000, [(0, 5)]), (10001, [])] ∧ 10000 ≤ up.mc ∧
      up.stay.trainAt = none ∧ up.linked = true ∧ up.phys dFCORE = true ∧ State.reset.linked = false ∧ State.reset.stay.trainAt = none ∧
      State.reset.on dFCORE = false ∧ { up with stay.trainAt := some 9990 }.stay.trainAt.isSome = true) ∧
    ((0x248, 10000) ∈ { up with rig.sched := [(0x248, 10000)] }.rig.sched ∧ 10000 ≤ up.mc ∧ srcAssigned 0x248 = true) ∧
    (({ msix with rig.taps := [(63, ⟨some 10000, true⟩)] }.tap 63).holdEnd = some 10000 ∧
      ({ msix with rig.taps := [(63, ⟨some 10000, true⟩)] }.tap 63).deferred = true ∧ (up.tap 0).holdEnd = none) ∧
    (State.reset.on dHOST = false ∧ up.on dHOST = true ∧ { msix with ep.pba := [63] }.ep.pba.contains 63 = true ∧
      msix.ep.funcMask = false ∧ up.ep.pba.contains 0 = false) ∧
    up.on dKILN = true := by
  decide +kernel

theorem hyp_PulsesAreDelivered_registers :
    (up.reaches RIG_SWPULSE ∧ (255 : Word).getLsbD 7 = true) ∧
    (up.reaches RIG_CLR ∧ up.reaches RIG_TAPCLR) ∧
    (up.reaches RIG_CWRD ∧ up.f RIG_CWLEN_LEN < (up.f RIG_CWWR_WR + 2 ^ 32 - (0xFFFBFFFF : Word).toNat) % 2 ^ 32 ∧
      (up.f RIG_CWWR_WR + 2 ^ 32 - (0xFFFC0000 : Word).toNat) % 2 ^ 32 ≤ up.f RIG_CWLEN_LEN) ∧
    (up.reaches RIG_CWCFG ∧ up.flag RIG_CWCFG_EN = false ∧ (up.setF RIG_CWLEN_LEN 0).f RIG_CWLEN_LEN = 0) ∧
    (((up.setF RIG_CWLEN_LEN 256).setF RIG_CWBASE_BASE 261888).f RIG_CWLEN_LEN ≠ 0 ∧
      ((up.setF RIG_CWLEN_LEN 256).setF RIG_CWBASE_BASE 261888).f RIG_CWBASE_BASE +
        ((up.setF RIG_CWLEN_LEN 256).setF RIG_CWBASE_BASE 261888).f RIG_CWLEN_LEN ≤ 262144) ∧
    (up.setF RIG_CWCFG_EN 1).flag RIG_CWCFG_EN = true := by
  unfold State.reaches; decide +kernel

/-- Two requests wait at bank b, which is free from the engine cycle f on. -/
def wants (b f : Nat) : State :=
  bk up b { pend := [{ r := 1, stamp := 39990, use := .far 0 }, { r := 0, stamp := 39995, use := .occupy }], freeAt := f }

theorem hyp_BanksGrantScrubAndClear :
    (up.ep.queue = [] ∧ up.ep.held = [] ∧ (up.bank 0).pend = [] ∧ State.reset.bankUp 0 = false) ∧
    ((wants 8 40001).bankUp 8 = true ∧ ((wants 8 40001).bank 8).freeAt ≤ 4 * (wants 8 40001).mc + 0 + 1 ∧
      (((wants 8 40001).bank 8).pend.filter fun x =>
        decide (x.stamp ≤ 4 * (wants 8 40001).mc + 0) && decide (40001 ≤ x.last.getD 40001)) ≠ []) ∧
    4 * (wants 8 40005).mc + 3 + 1 < ((wants 8 40005).bank 8).freeAt ∧
    (∀ x ∈ ((wants 0 40001).bank 0).pend, x.use = .far 0 → x.beats = burstLen (wants 0 40001) 0 x) ∧
    (up.on (bankDom 0) = true ∧ (up.setF SAG_SCRUB_INTERVAL 9999).f SAG_SCRUB_INTERVAL ≠ 0 ∧
      ((up.setF SAG_SCRUB_INTERVAL 10000).bank 0).scrubAt.getD 10000 ≤ (up.setF SAG_SCRUB_INTERVAL 10000).mc ∧
      (up.bank 0).pend = [] ∧ (up.bank 0).freeAt ≤ 4 * up.mc ∧ up.bankUp 0 = true) ∧
    (State.reset.on (bankDom 0) = false ∧ up.mc < ((up.setF SAG_SCRUB_INTERVAL 10001).bank 0).scrubAt.getD 10001 ∧
      (up.setF SAG_SCRUB_INTERVAL 0).f SAG_SCRUB_INTERVAL = 0 ∧
      ∃ q ∈ ((bk up 8 { pend := [{ r := 10, use := .scrub }] }).bank 8).pend, q.use = BankUse.scrub) ∧
    ({ up with upset := [(0, 1)] }.wordErr 0 = 1 ∧ 0 ∈ wordsAt (eccSize 0) (bankBase 0 + 16 * (up.bank 0).line) 16) ∧
    ((bk (up.setF (bitFld SAG_BUSY_CLEARING 8) 1) 8 { clearTo := 40003 }).flag (bitFld SAG_BUSY_CLEARING 8) = true ∧
      ((bk (up.setF (bitFld SAG_BUSY_CLEARING 8) 1) 8 { clearTo := 40003 }).bank 8).clearTo ≤ 4 * up.mc + 3) ∧
    (up.flag (bitFld SAG_BUSY_CLEARING 8) = false ∧ 4 * up.mc + 3 < ((bk up 0 { clearTo := 40004 }).bank 0).clearTo) ∧
    (up.reaches SAG_ECCINJ ∧ (0x701 : Word).getLsbD 0 = true ∧ bitsOf (0x701 : Word).toNat 8 4 < 8 ∧
      8 ≤ bitsOf (0x801 : Word).toNat 8 4 ∧ (0x801 : Word).getLsbD 0 = true) ∧
    (up.reaches SAG_SCRUB ∧ up.reaches SAG_CLR ∧ up.reaches ARB_CLR) := by
  unfold State.reaches; decide +kernel

/-- Channel 31 is in the state n of R334, and stands as x. -/
def chan (n : Nat) (x : Chan) : State :=
  { ((up.setF (HLY_CSTAT_STATE 31) n).setF (HLY_CCTRL_EN 31) 1).setF (HLY_CQUOTA_QUOTA 31) 8 with hly.chans := [(31, x)] }

/-- A descriptor at 0x100, written out from R318, that copies 8 bytes from 0x200 to 0x300 and is the last. -/
def descBytes : List Byte := [0, 2, 0, 0, 0, 0, 0, 0, 0, 3, 0, 0, 0, 0, 0, 0, 8, 0, 0, 0, 0x40, 0, 0, 0, 0, 0, 0, 0, 0, 0, 0, 0]

/-- That descriptor. -/
def aDesc : Desc := { num := 9, at_ := 0x100, src := 0x200, dst := 0x300, len := 8, ctrl := 0x40, next := 0 }

theorem hyp_ChannelsWork :
    (∀ n ∈ [2, 3, 4, 7], (chan n {}).reaches (HLY_CCTRL 31) ∧ (chan n {}).chSt 31 = n) ∧
    (∀ n ∈ [0, 1, 5, 6], (chan n {}).reaches (HLY_CCTRL 31) ∧ (chan n {}).chSt 31 = n ∧ (chan n {}).busErr = false) ∧
    ((chan 1 {}).setF HLY_STATUS_BUSERR 1).busErr = true ∧
    (up.f (HLY_CDESC_ADDR 0) % 32 = 0 ∧ descRegion (hlyRegion (up.f (HLY_CDESC_ADDR 0)) 32) = true ∧
      descRegion (hlyRegion 0x200000 32) = false ∧ descRegion (hlyRegion 0x17FFE0 32) = true ∧ 0x17FFE1 % 32 ≠ 0) ∧
    (up.chSt 0 = 0 ∧ up.reaches (HLY_CCTRL 0) ∧ up.flag (HLY_CCTRL_EN 0) = false) ∧
    (∀ d ∈ ((chan 5 { old := [{ aDesc with going := true }] }).chan 31).old, regRegion (hlyRegion d.dst d.len) = false) ∧
    ((chan 3 { descs := [aDesc] }).flag (HLY_CCTRL_EN 31) = true ∧
      ∀ d ∈ ((chan 3 { descs := [aDesc] }).chan 31).descs, regRegion (hlyRegion d.dst d.len) = false) ∧
    ((chan 7 {}).chSt 31 = 7 ∧ (chan 7 {}).inFlight 31 = 0 ∧ ((chan 7 {}).chan 31).undef = []) ∧
    { chan 7 {} with hly.xacts := [{ id := 0, ch := 31, kind := .read, addr := 0, len := 8 }] }.inFlight 31 ≠ 0 ∧
    (((chan 3 { got := some (0x100, descBytes) }).chan 31).got = some (0x100, descBytes) ∧ readDesc 0x100 descBytes = { aDesc with num := 0 } ∧
      descCode aDesc = 0 ∧ aDesc.wait = false ∧ descCode { aDesc with ctrl := 8 } ≠ 0 ∧ { aDesc with ctrl := 0x80 }.wait = true) ∧
    (up.chan 0).got = none ∧
    (((chan 3 { descs := [aDesc] }).chan 31).descs.find? (fun d => !d.going) = some aDesc ∧ (chan 3 {}).chSt 31 ∈ [2, 3]) ∧
    (((chan 2 { descs := [{ aDesc with ctrl := 0x80 }] }).chan 31).descs.find? (fun d => !d.going) = some { aDesc with ctrl := 0x80 } ∧
      (chan 2 {}).flag (HLY_CSTAT_TRIGPEND 31) = false ∧
      ((chan 2 {}).setF (HLY_CSTAT_TRIGPEND 31) 1).flag (HLY_CSTAT_TRIGPEND 31) = true) ∧
    (up.chan 0).descs.find? (fun d => !d.going) = none ∧
    (((chan 3 { descs := [{ aDesc with read := 8, going := true }] }).chan 31).descs = [{ aDesc with read := 8, going := true }] ∧
      (chan 3 { descs := [{ aDesc with read := 8, going := true }] }).writesDone 31 { aDesc with read := 8, going := true } = true ∧
      aDesc.barrier = false ∧ aDesc.last = true) ∧
    ((chan 3 { descs := [aDesc] }).writesDone 31 aDesc = false ∧ { aDesc with ctrl := 0x10 }.barrier = true) ∧
    (up.reaches HLY_STATUS ∧ up.inFlightAll = 0 ∧
      { up with hly.xacts := [{ id := 0, ch := 31, kind := .read, addr := 0, len := 8 }] }.inFlightAll ≠ 0) ∧
    (up.reaches HLY_BUSCNT ∧ up.reaches (HLY_CDESC 31) ∧ up.reaches (HLY_CCNT 0)) := by
  unfold State.reaches; decide +kernel

/-- One transaction is in flight on channel 31. -/
def flies (x : Xact) : State := { chan 3 { descs := [aDesc] } with hly.xacts := [x] }

/-- A read of 8 bytes from the address a for that descriptor. -/
def aRead (k : XKind) (a : Nat) : Xact := { id := 5, ch := 31, kind := k, addr := a, len := 8, dst := 0x300, desc := 0x100 }

/-- The transaction 5 has been performed by bank b. -/
def done (b : Nat) (s : State) : State := bk s b { served := [{ r := 3, fin := 40004, use := .dma 5 }] }

/-- A completion of channel 31 in the present Mast cycle. -/
def aComp : DmaComp := ⟨31, { aDesc with ctrl := 0x60 }, 0, 0x100, 3, 0, 0⟩

theorem hyp_TransactionsReturn :
    ({ up with hly.issued := 10001 }.hly.issued = up.mc + 1 ∧ State.reset.on dDMA = false ∧ ∀ c, c < 32 → up.canXact c = false) ∧
    ((chan 3 { want := some 0x17FFE0 }).hly.issued ≠ (chan 3 { want := some 0x17FFE0 }).mc + 1 ∧
      ((List.range 32).map fun i => ((chan 3 { want := some 0x17FFE0 }).hly.lastC + 1 + i) % 32).find?
        (chan 3 { want := some 0x17FFE0 }).canXact = some 31 ∧
      ((chan 3 { want := some 0x17FFE0 }).nextXact 31).isSome = true) ∧
    (((chan 3 { want := some hostBit }).nextXact 31).isSome = true ∧ (chan 3 {}).hostErr = some 7 ∧
      { chan 3 {} with ep.busMaster := true }.hostErr = none) ∧
    (up.hly.xacts.find? fun x => x.id == 5) = none ∧
    (∀ k ∈ [XKind.fetch, .read], ((flies (aRead k hostBit)).hly.xacts.find? fun x => x.id == 5) = some (aRead k hostBit)) ∧
    ((flies (aRead .read 0x80000000)).hly.xacts.find? (fun x => x.id == 5) = some (aRead .read 0x80000000) ∧
      (flies (aRead .read 0x80000000)).proxyWaits 0 = false) ∧
    ((done 0 (flies (aRead .read 0x200))).doneAt (.dma 5) = some 0 ∧
      ∀ w ∈ wordsAt (eccSize 0) 0x200 8, (done 0 (flies (aRead .read 0x200))).wordErr w = 0) ∧
    ((flies (aRead .read hostBit)).busErr = false ∧ (flies (aRead .read hostBit)).noted HLY_STATUS_BUSERR = 0) ∧
    (∀ a ∈ [hostBit, 0x80000000, 0x300], ((flies { aRead .write a with data := [1, 2, 3, 4, 5, 6, 7, 8] }).hly.xacts.find? fun x => x.id == 5) =
      some { aRead .write a with data := [1, 2, 3, 4, 5, 6, 7, 8] }) ∧
    ((done 0 (flies { aRead .write 0x300 with data := [1, 2, 3, 4, 5, 6, 7, 8] })).doneAt (.dma 5) = some 0 ∧
      (flies (aRead .write 0x300)).guardedRange 0x300 8 = false ∧ (∀ i, i < 8 → (flies (aRead .write 0x300)).ttLocked (0x300 + i) 1 = false) ∧
      ∀ w ∈ wordsAt (eccSize 0) 0x300 8, (flies (aRead .write 0x300)).wordErr w < 2) ∧
    ((flies (aRead .write 0x300)).writeBefore (aRead .write 0x300) = false ∧
      { up with hly.xacts := [{ aRead .write 0x300 with id := 4 }, aRead .write 0x308] }.writeBefore (aRead .write 0x308) = true) ∧
    ({ up with hly.comps := [aComp] }.hly.comps = [aComp] ∧ aComp.ch < 32 ∧ aComp.st < 8 ∧ aComp.desc.evt = true ∧
      (up.rig.sched).Nodup ∧ (aComp.desc.last || aComp.desc.barrier) = true ∧
      (({ aComp with desc := { aComp.desc with ctrl := 0 } }.desc.last || { aComp with desc := { aComp.desc with ctrl := 0 } }.desc.barrier) = false)) ∧
    ((chan 7 {}).chSt 31 ∈ [0, 7] ∧ (chan 6 {}).chSt 31 ∉ [0, 7]) ∧
    (∀ y ∈ [{ aRead .read hostBit with dead := true }, { aRead .fetch hostBit with gone := true }],
      (flies y).hly.xacts.find? (fun x => x.id == 5) = some y) ∧
    ((running 0 (aRun 0)).guardedRange 0xF8 8 = true ∧ (running 0 (aRun 0)).guardedRange 0x100 8 = false) ∧
    ((flies (aRead .flush hostBit)).hly.xacts.find? (fun x => x.id == 5 && x.kind == .flush) = some (aRead .flush hostBit) ∧
      (flies (aRead .flush hostBit)).hly.xacts.find? (fun x => x.id == 5 && x.kind != .write && decide (hostBit ≤ x.addr)) =
        some (aRead .flush hostBit) ∧ (aRead .flush hostBit).dead = false) := by
  decide +kernel

theorem hyp_HostRequestsAreAnswered :
    (State.reset.hostUp = false ∧ up.hostUp = true ∧ { up with ep.memEn := false }.hostUp = true ∧ up.ep.memEn = true ∧
      up.ep.queue = [] ∧ up.writesWait = false) ∧
    (hostBank 0x1FFFFFF = none ∧ hostBank 0 = some 0 ∧ hostBank 0x400000 = some 5 ∧
      (up.setF GLB_PWRSTAT_ON 0x7FEF).on (bankDom 0) = false) ∧
    (up.bankUp 0 = true ∧ (up.bank 0).pend = [] ∧ (up.bank 0).freeAt ≤ 4 * up.mc ∧ 0x3FFF0 % 16 + 16 ≤ 16 ∧
      burstLen up 0 { r := hostReq 0, use := .hostRead 1 0x3FFF0 16 10000 false } = 1 ∧ hostBank 0x3FFF0 = some 0 ∧
      ∀ w ∈ wordsAt (eccSize 0) 0x3FFF0 16, up.wordErr w = 0) ∧
    (aliasOk [none, some 1] = true ∧ aliasOk [some 1, none, some 1] = false ∧ (aliasBytes [none, some 1]).1 = 1 ∧
      (aliasBytes [none, some 1]).2.length = 1 ∧ hostBank (0 + 1) = some 0 ∧
      ∀ w ∈ wordsAt (eccSize 0) (0 + 1) 1, up.wordErr w = 0) ∧
    ({ up with ep.queue := [.memRead 1 0 4 2000 false] }.ep.queue = [.memRead 1 0 4 2000 false] ∧ 2000 + 8000 ≤ up.mc) ∧
    ((bk up 0 { pend := [{ r := 6, use := .hostRead 1 0 4 2000 false }] }).bank 0).pend.any
      (fun q => q.first == none && q.use == .hostRead 1 0 4 2000 false) = true ∧
    (up.byProxy (PRT_CTRL 0) = true ∧ up.byProxy 0 = false ∧ 0 % 8 = 0 ∧ 3 % 4 ≠ 0) ∧
    ({ up with ep.queue := [.regRead 1 (PRT_CTRL 0) 1] }.ep.queue = [.regRead 1 (PRT_CTRL 0) 1] ∧ up.answers (PRT_CTRL 0) = true ∧
      fieldReg (PRT_CTRL 0) = true ∧ fieldReg 0 = false ∧ State.reset.answers (PRT_CTRL 0) = false) ∧
    { up with ep.queue := [.regWrite (PRT_CTRL 0) [1]] }.ep.queue = [.regWrite (PRT_CTRL 0) [1]] ∧
    (up.on dHOST = true ∧ up.ep.linkUp = true ∧ up.boot.answers = false ∧ { up with boot.answers := true }.boot.answers = true ∧
      (0x8000 : Word).getLsbD 15 = true) ∧
    (State.reset.on dHOST = false ∧ ∀ x ∈ up.hly.xacts, x.addr < hostBit) ∧
    (up.ep.held = [] ∧ up.postedWait < 32 ∧
      32 ≤ (bk up 0 { pend := List.replicate 32 { r := 6, use := .hostWrite 0 [] false } }).postedWait) ∧
    (64 ≤ up.ep.mps ∧ State.reset.ep.memEn = false ∧ aliasBytes (List.replicate 8 (some 1)) = (0, List.replicate 8 (some 1)) ∧
      (∀ i, i < 4 → hostBank (0x1FFFFC + i) = none) ∧ hostBank (0x1FFFFC + 4) = some 6 ∧ up.on (bankDom 6) = true ∧
      hostBank (0x17FFFC + 3) = some 4 ∧ hostBank (0x17FFFC + 4) = none ∧ (∀ i, i < 8 → hostBank (0x180000 + i) = none) ∧
      hostBank 0x400000 = some 5 ∧ State.reset.on (bankDom 5) = false) ∧
    ({ up with ep.queue := [.memRead 1 0 4 2001 false], ep.held := [.memRead 1 0 4 2000 true] }.ep.held = [.memRead 1 0 4 2000 true] ∧
      up.mc < 2001 + 8000) ∧
    ({ up with ep.queue := [.regRead 1 (PRT_CTRL 0) 1], ep.held := [] }.writesWait = false ∧ up.answers (PRT_CTRL 0) = true) ∧
    ((0xFFFF7FFF : Word).getLsbD 15 = false ∧ (0xFFFFFFFF : Word).getLsbD 15 = true ∧ up.ep.pba = []) ∧
    ((flies (aRead .read hostBit)).on dHOST = true ∧ ∃ x ∈ (flies (aRead .read hostBit)).hly.xacts, hostBit ≤ x.addr ∧ x.gone = false) ∧
    (badRoute (RIG_ROUTE 1023) 0x1480000 = true ∧ badRoute (RIG_ROUTE 1023) 0x1470000 = false ∧ up.answers (RIG_ROUTE 1023) = true) := by
  refine ⟨?_, ?_, ?_, ?_, ?_, ?_⟩ <;> decide +kernel

/-- A request frame of the Lanyard port (R389). -/
def frame (cmd : Byte) (p : List Byte) : List Byte := withCrc ([cmd, 7] ++ leBytes 2 p.length ++ p)

/-- The request waits, while every domain is on and the port is served. -/
def ask (cmd : Byte) (p : List Byte) (s : State) : State := { s with lan.req := some (frame cmd p) }

/-- The management controller has started. -/
def served : State := { up with boot.phase := .run }

theorem hyp_LanyardPort :
    (State.reset.lanServed = false ∧ served.lanServed = true ∧ served.lanBusy = false ∧ (ask 1 [] served).lanBusy = true) ∧
    (6 ≤ (frame 1 []).length ∧ frameLen (frame 1 []) ≤ 1024 ∧ (frame 1 []).length = 6 + frameLen (frame 1 []) ∧
      frame 1 [] = withCrc ((frame 1 []).take ((frame 1 []).length - 2)) ∧ cmdListed (frameByte (frame 1 []) 0) = true ∧
      cmdListed (frameByte (frame 0x7F []) 0) = false) ∧
    (([1, 7, 0, 0, 0] : List Byte).length < 6 ∧
      ([1, 7, 0, 0, 0, 0] : List Byte) ≠ withCrc (([1, 7, 0, 0, 0, 0] : List Byte).take 4)) ∧
    ({ served with lan.last := some (frame 1 [], [5]) }.lan.last = some (frame 1 [], [5]) ∧ served.lan.last = none) ∧
    (served.lan.spi = false ∧ { served with lan.spi := true }.lan.spi = true ∧ (0x38 : BitVec 7).toNat = served.lanAddr ∧
      (0x38 : BitVec 7).toNat ≠ { served with lan.addr := 7 }.lanAddr) ∧
    (served.lan.done = none ∧ { served with lan.done := some [1] }.lan.done = some [1]) ∧
    (up.reaches LAN_MBCTL ∧ up.f LAN_H2MLEN_LEN = 0 ∧ (up.setF LAN_H2MLEN_LEN 64).f LAN_H2MLEN_LEN ≠ 0 ∧
      up.flag LAN_MBSTAT_H2M_FULL = false ∧ (up.setF LAN_MBSTAT_H2M_FULL 1).flag LAN_MBSTAT_H2M_FULL = true) ∧
    ({ up with faults := [⟨1, 0, 0, 0⟩] }.faults = [⟨1, 0, 0, 0⟩] ∧ up.on 1 = true ∧ up.faults = []) := by
  unfold State.reaches; decide +kernel

/-- Bank b has performed the access k of the management controller. -/
def mgDone (k b : Nat) (s : State) : State := bk s b { served := [{ r := 7, fin := 40004, use := .mgmt k }] }

theorem hyp_LanyardCommands :
    (∀ c ∈ [(0x01 : Byte), 0x02, 0x03, 0x04, 0x05, 0x10, 0x11, 0x12, 0x20, 0x21, 0x22, 0x30, 0x31, 0x40, 0x41, 0x50, 0x51],
      (ask c [] served).asks c.toNat (frame c []) ∧ payload (frame c []) = [] ∧
      (ask c [9] served).asks c.toNat (frame c [9]) ∧ payload (frame c [9]) = [9]) ∧
    served.lan.req = none ∧
    (payload (frame 0x02 [0, 0, 1, 0, 1, 0]) = [0, 0, 1, 0, 1, 0] ∧ leField [0, 0, 1, 0, 1, 0] 0 4 = KLN_CTRL - KLN_CTRL % 0x10000 ∧
      leField [0, 0, 1, 0, 1, 0] 4 2 = 1 ∧ (∀ i, i < 2 * 1 → served.proxyWaits ((0x10000 + i) / 4 * 4) = false) ∧
      served.answers (0x10000 / 4 * 4) = true ∧ State.reset.answers (0x10000 / 4 * 4) = false) ∧
    ({ served with stay.trainAt := some 9990 }.proxyWaits 0x80000 = true ∧ 0xFFFC00 + 2 * 512 ≤ 0x1000000) ∧
    (payload (frame 0x03 [0, 0, 1, 0, 1, 0, 0, 0]) = [0, 0, 1, 0, 1, 0, 0, 0] ∧ (8 - 4) / 4 = 1) ∧
    (payload (frame 0x04 (leBytes 8 0x3FC00 ++ leBytes 4 1024)) = leBytes 8 0x3FC00 ++ leBytes 4 1024 ∧
      leField (leBytes 8 0x3FC00 ++ leBytes 4 1024) 0 8 = 0x3FC00 ∧ leField (leBytes 8 0x3FC00 ++ leBytes 4 1024) 8 4 = 1024 ∧
      lanBank false 0x3FC00 1024 = some 0 ∧ lanBank false 0x3FC08 1024 = none ∧ served.bankUp 0 = true ∧
      (∀ w ∈ wordsAt (eccSize 0) 0x3FC00 1024, served.wordErr w = 0) ∧ { served with upset := [(0x3FC00, 3)] }.wordErr 0x3FC00 = 2) ∧
    (served.doneAt (.mgmt 0) ≠ some 0 ∧ ((served.bank 0).pend ++ (served.bank 0).served = []) ∧ (mgDone 0 0 served).doneAt (.mgmt 0) = some 0 ∧
      ∃ q ∈ ((bk served 0 { pend := [{ r := 7, use := .mgmt 0 }] }).bank 0).pend, q.use = BankUse.mgmt 0) ∧
    ((∃ i, i < 2 * 2 ∧ State.reset.answers ((0x10000 + 2 * i) / 4 * 4) = false) ∧
      (served.setF GLB_PWRSTAT_ON 0x7FEF).answers (COIL_STATUS 0) = false ∧ served.answers (COIL_STATUS 0) = true) := by
  unfold State.asks; decide +kernel

/-- The key register is zero, and the fuse array holds the number 5 wrapped under it. -/
def marked : State := { served with
  vault.key := 0
  vault.wrapped := [7, 58, 83, 149, 201, 29, 211, 164, 30, 186, 93, 137, 35, 101, 4, 223, 50, 113, 155, 110, 118, 17, 198, 32, 181,
    23, 127, 207, 225, 68, 193, 142, 177, 146, 64, 176, 188, 10, 55, 155] }

theorem hyp_LanyardCommands_attest : marked.markHalf = some (beBytes 32 5) ∧ (beBytes 32 5).length = 32 ∧ marked.bankUp 8 = true ∧
    marked.lc ≠ 4 ∧ marked.flag VLT_STATUS_KEYLOST = false := by decide +kernel
theorem hyp_LanyardCommands_lost : { marked with vault.wrapped := [] }.markHalf = none := by decide +kernel

theorem hyp_LanyardCommands_rest :
    ((served.setF SAG_BUSY_CLEARING 1).bankUp 0 = false ∧ State.reset.on (bankDom 0) = false) ∧
    (payload (frame 0x05 (leBytes 8 0x100 ++ leBytes 8 1)) = leBytes 8 0x100 ++ leBytes 8 1 ∧
      (leBytes 8 0x100 ++ leBytes 8 1).length = 16 ∧ lanBank true 0x100 8 = some 0 ∧ lanBank true 0x400000 8 = none) ∧
    (payload (frame 0x11 [0, 0, 1, 0]) = [0, 0, 1, 0] ∧ 0 + 1 ≤ { served with lan.log := [⟨5, ⟨1, 0, 0, 0⟩⟩] }.lan.log.length ∧
      served.lan.log.length < 0 + 1) ∧
    (payload (frame 0x30 [0xF0, 0, 0, 0]) = [0xF0, 0, 0, 0] ∧ leField [0xF0, 0, 0, 0] 0 2 = 0xF0 ∧
      served.setAfter 0xF0 0 % 4 = 3 ∧ domSetOk (served.setAfter 0xF0 0) = true ∧ served.switching = false ∧
      switchSeq served.domains (served.setAfter 0xF0 0) ≠ [] ∧ switchSeq served.domains (served.setAfter 0 0) = [] ∧
      domSetOk (served.setAfter 8 0) = false ∧ { served with pwr.seq := [(4, false)] }.switching = true) ∧
    (payload (frame 0x31 [14]) = [14] ∧ served.on (blockDom 14) = true ∧ State.reset.on (blockDom 1) = false ∧ 14 < 15) ∧
    (payload (frame 0x40 [0, 0, 0, 0]) = [0, 0, 0, 0] ∧ leField [0, 0, 0, 0] 2 2 = 0) ∧
    (payload (frame 0x41 (List.replicate 32 0 ++ [31, 0, 0, 0])) = List.replicate 32 0 ++ [31, 0, 0, 0] ∧
      leField (List.replicate 32 (0 : Byte) ++ [31, 0, 0, 0]) 32 4 = 31 ∧ served.lc ≠ 4 ∧
      { served with vault.f3 := true }.lc = 4 ∧ served.flag VLT_STATUS_KEYLOST = false) ∧
    (served.flag LAN_MBSTAT_H2M_FULL = false ∧ (served.setF LAN_MBSTAT_H2M_FULL 1).flag LAN_MBSTAT_H2M_FULL = true) ∧
    (payload (frame 0x51 [1]) = [1] ∧ served.flag LAN_MBSTAT_M2H_FULL = false ∧
      (served.setF LAN_MBSTAT_M2H_FULL 1).flag LAN_MBSTAT_M2H_FULL = true) := by
  decide +kernel

/-- A session writes slot B, in the state FIELD, after the load has ended. -/
def field (x : Option RecSession) : State :=
  { served.setF GLB_BOOT_RESULT 3 with vault.f0 := true, vault.f1 := true, lan.session := x }

/-- The bytes of a record, written out from R411 to R415: its header, but for keys and signature, and a REG section of one
entry that writes 1 to the offset 0x10000. -/
def recBytes : List Byte :=
  [46, 241, 128, 100, 1, 0, 0, 0, 1, 0, 0, 0, 24, 1, 0, 0, 15, 0, 0, 0, 0, 0, 0, 0,
    214, 217, 207, 233, 154, 68, 212, 192, 6, 31, 11, 178, 38, 47, 28, 220, 91, 149, 241, 30, 249, 1, 77, 18, 199, 98, 36, 158,
    204, 98, 4, 190] ++ List.replicate 200 0 ++ [1, 0, 0, 0, 8, 0, 0, 0, 0, 0, 1, 0, 1, 0, 0, 0, 0, 0, 0, 0, 0, 0, 0, 0]

/-- The flash holds that record in slot A. -/
def flashed (s : State) : State := { s with flash := recBytes.zipIdx.map fun p => (p.2, p.1) }

theorem hyp_RecordsAreWritten :
    ((ask 0x21 (leBytes 4 0 ++ leBytes 8 5) (field none)).asks 0x21 (frame 0x21 (leBytes 4 0 ++ leBytes 8 5)) ∧
      payload (frame 0x21 (leBytes 4 0 ++ leBytes 8 5)) = leBytes 4 0 ++ leBytes 8 5 ∧
      leField (leBytes 4 0 ++ leBytes 8 5) 0 4 = 0) ∧
    ((ask 0x21 [] (field none)).asks 0x21 (frame 0x21 []) ∧ payload (frame 0x21 []) = []) ∧
    ((field none).recPermitted = true ∧ served.recPermitted = false ∧ (field none).bankUp 7 = true ∧
      ((field none).setF (bitFld SAG_BUSY_CLEARING 7) 1).bankUp 7 = false ∧ ∀ w ∈ wordsAt 8 (sgmBase + 0x10000) 8, (field none).wordErr w < 2) ∧
    (payload (frame 0x21 (leBytes 4 0xFFFF8 ++ leBytes 8 5)) = leBytes 4 0xFFFF8 ++ leBytes 8 5 ∧ 0xFFFF8 + 8 ≤ 1048576 ∧
      (field (some { slot := 1, got := [(0, 8)] })).lan.session = some { slot := 1, got := [(0, 8)] } ∧
      overlap 0xFFFF8 8 0 8 = false ∧ overlap 0 8 0 8 = true ∧ ((([(0, 65528)] : List (Nat × Nat)).map fun q => q.2).sum + 8 ≤ 65536) ∧
      65536 < (([(0, 65528), (65528, 8)] : List (Nat × Nat)).map fun q => q.2).sum + 8) ∧
    (field (some { slot := 1, failed := true })).lan.session = some { slot := 1, failed := true } ∧
    ((ask 0x22 [] (field (some { slot := 1, erased := 256 }))).asks 0x22 (frame 0x22 []) ∧ payload (frame 0x22 []) = [] ∧
      (field (some { slot := 1, erased := 256 })).lan.session = some { slot := 1, erased := 256 }) ∧
    ((field none).headerForm 1 = false ∧ (field (some { slot := 1, erased := 255 })).lan.session = some { slot := 1, erased := 255 }) ∧
    ((field none).boot.suspended = false ∧ { field none with boot.suspended := true }.boot.suspended = true) ∧
    ((field (some { slot := 1, erased := 1, buf := [(4088, 8)] })).lan.session =
        some { slot := 1, erased := 1, buf := [(4088, 8)] } ∧ 4088 / 4096 < 1 ∧ 1 ≤ 4096 / 4096 ∧
      min 8 (256 - 4088 % 256) = 8 ∧ min 16 (256 - 4088 % 256) = 8) := by
  unfold State.asks; decide +kernel

theorem hyp_StartUpAndReplay :
    (State.reset.on 1 = true ∧ State.reset.boot.phase = .start ∧ State.reset.lc = 0) ∧
    ((field none).lc = 2 ∧ { up with vault.f0 := true }.lc = 1 ∧ served.boot.phase ≠ .start) ∧
    { served with boot.phase := .headers }.boot.phase = .headers ∧
    (∀ x ∈ [0, 1], State.reset.headerForm x = false) ∧
    ((flashed { served with boot.phase := .pass1 }).boot.phase = .pass1 ∧
      (flashed { served with boot.phase := .pass1 }).digestOk 0 = true ∧
      (flashed { served with boot.phase := .pass1 }).bodyOk 0 = true ∧ (flashed served).headerForm 0 = true) ∧
    ((setFlash 256 9 (flashed { served with boot.phase := .pass1 })).bodyOk 0 = false ∧
      { served with boot.order := [1] }.boot.order = [1] ∧ served.boot.order = []) ∧
    ({ flashed served with boot.phase := .pass2 }.boot.phase = .pass2 ∧ served.switching = false ∧ served.boot.asked = false ∧
      switchSeq (State.reset.domains) (State.reset.domains ||| (flashed served).recDomains 0) ≠ []) ∧
    ({ served with boot.asked := true }.boot.asked = true ∧ served.setReady ((flashed served).recDomains 0) = true ∧
      State.reset.setReady ((flashed served).recDomains 0) = false ∧ served.boot.waitFor = none) ∧
    ((flashed served).items 0 = [(271, .reg 0x10000 1)] ∧ ((flashed served).items 0).drop 1 = [] ∧ 4096 * 0 < (flashed served).recLen 0 ∧
      0 ≤ 271 / 4096) ∧
    (served.bankUp 7 = true ∧ ({ flashed served with boot := { served.boot with phase := .pass2, asked := true } }).itemReady (.reg 0x10000 1) = true ∧
      { served with stay.trainAt := some 9990 }.itemReady (.reg 0x80000 1) = false ∧
      served.itemReady (.mem true 0 [1]) = false ∧ (mgDone 1 0 served).itemReady (.mem true 0 [1]) = true ∧ bankOf 0 = some 0 ∧
      served.on (bankDom 0) = true ∧ State.reset.on (bankDom 0) = false ∧ bankOf 0x7FFFFFF8 = none) ∧
    (∀ t ∈ [regWrite 1 KLN_PERIOD 99 served], served.refusals < t.refusals) ∧
    (loadEntry (COIL_CTRL 16) 4 = some 16 ∧ loadEntry (COIL_CTRL 16) 3 = none) ∧
    ({ served with stay.trainAt := some 9990 }.commitWaits (fun _ => true) = true ∧ served.commitWaits (fun _ => true) = false) ∧
    ({ served with boot.waitFor := some 3 }.boot.waitFor = some 3 ∧
      ((up.setEng 3 { check := some (0, 9979) }).eng 3).check.isSome = true) ∧
    ({ served with boot.phase := .commits }.boot.phase = .commits ∧
      ((commitAll (fun _ => true) { served with boot.phase := .commits }).boot.header.getD 6 0).toNat.testBit 0 = false) ∧
    ((commitAll (fun _ => true) { served with boot.phase := .commits, boot.header := [0, 0, 0, 0, 0, 0, 1] }).boot.header.getD 6
      0).toNat.testBit 0 = true ∧
    (served.boot.phase = .run ∧ (served.setF GLB_BOOT_RESULT 4).f GLB_BOOT_RESULT ≠ 0 ∧ served.f GLB_BOOT_RESULT = 0 ∧
      served.running = false ∧ run.running = true) ∧
    (served.boot.replays = [] ∧ { served with boot.replays := [([1], [])] }.boot.replays = [([1], [])] ∧
      served.boot.replayAt = none ∧ served.f GLB_BOOT_ACTIVE = 0 ∧ (flashed served).digestOk 0 = true) ∧
    ((flashed served).setReady (([5] : List Nat).foldl (fun v d => v ||| 2 ^ d) 0 &&& served.domains) = true ∧
      (served.setF SAG_BUSY_CLEARING 0x1FF).setReady (([5] : List Nat).foldl (fun v d => v ||| 2 ^ d) 0 &&& served.domains) = false ∧
      ((flashed served).replayItems ([], []) 0) = []) ∧
    ((∀ i, i < 32 → served.wordErr ((sgmBase + hashAt 0 + i) / 8 * 8) = 0) ∧
      (checkChunks [] 0 (flashed served)).1 = true ∧ (checkChunks [] 1 (flashed served)).1 = false) ∧
    ((field (some { slot := 1, erased := 1 })).flashBusy = true ∧ (field none).boot.suspended = false) := by
  refine ⟨?_, ?_, ?_, ?_, ?_, ?_, ?_, ?_⟩ <;> decide +kernel

theorem hyp_VaultTransitions :
    (up.reaches VLT_LCCMD ∧ up.flag VLT_STATUS_BUSY = false ∧ (up.setF VLT_STATUS_BUSY 1).flag VLT_STATUS_BUSY = true) ∧
    (up.vault.go = none ∧ { up with vault.go := some (1, []) }.vault.go = some (1, []) ∧ up.lcCheck 1 [] = 1 ∧
      up.lcCheck 7 [] ≠ 1 ∧ (up.setF VLT_STATUS_AUTHLOCK 1).lcCheck 1 [] = 5) ∧
    ({ field none with vault.f1 := false, vault.digest := 1 }.lcCheck 2 [] = 4 ∧
      (up.setF VLT_LCSTAT_AUTHFAIL 15).f VLT_LCSTAT_AUTHFAIL = 15) ∧
    { up with vault.aborted := true }.vault.aborted = true ∧
    (State.reset.on 0 = true ∧ (up.setF GLB_PWRSTAT_ON 0).on 0 = false) ∧
    (31 &&& (31 - up.f VLT_TAMPSTAT_LIVE) &&& up.f VLT_TAMPEN_EN ≠ 0 ∧
      31 &&& (31 - (up.setF VLT_TAMPSTAT_LIVE 31).f VLT_TAMPSTAT_LIVE) = 0 ∧ (up.setF GLB_PWRSTAT_ON 1).on 1 = false) ∧
    (up.reaches VLT_TAMPEN ∧ up.lc < 2 ∧ 2 ≤ (field none).lc) ∧
    (31 &&& (31 - (up.setF VLT_TAMPEN_EN 0).f VLT_TAMPEN_EN) &&& ((up.setF VLT_TAMPEN_EN 0).setF VLT_TAMPSTAT_LIVE 16).f
      VLT_TAMPSTAT_LIVE ≠ 0) := by
  unfold State.reaches; decide +kernel

/-- Bank 3 of the compatibility window is enabled, with timer 15 of it. -/
def legacy : State := (up.setF (LGC_BCTRL_EN 3) 1).setF (LGC_TCTRL_EN 3 3) 1

/-- Channel 5 of timer 15, with the period 200 mc. -/
def aJob : LegJob := ⟨5, 15, 0, 200, 1, 0, 7⟩

theorem hyp_LegacyTimers :
    (legacy.reaches (LGC_TCTRL 3 3) ∧ legacy.flag (LGC_TCTRL_EN 3 3) = true) ∧
    ((legacy.setF (LGC_TCTRL_EN 3 3) 0).reaches (LGC_TCTRL 3 3) ∧ (legacy.setF (LGC_TCTRL_EN 3 3) 0).flag (LGC_TCTRL_EN 3 3) = false ∧
      legacy.flag (LGC_BCTRL_EN 3) = true ∧ legacy.on (dCL 3) = true ∧ legacy.engState 15 = 1) ∧
    (up.reaches (LGC_TCTRL 0 0) ∧ up.flag (LGC_TCTRL_EN 0 0) = false ∧ up.flag (LGC_BCTRL_EN 0) = false) ∧
    (legacy.reaches (LGC_BCTRL 0) ∧ legacy.reaches (LGC_BCTRL 3)) ∧
    (up.lgc.win = none ∧ { up with lgc.win := some ⟨0, 9999, 100, [], []⟩ }.lgc.win = some ⟨0, 9999, 100, [], []⟩ ∧
      up.mc < 9999 + 2 ∧ 9998 + 2 ≤ up.mc) ∧
    ({ up with lgc.win := some ⟨0, 9998, 100, [aJob], []⟩ }.lgc.win = some ⟨0, 9998, 100, [aJob], []⟩ ∧ aJob.ch < 16 ∧
      100 ≤ aJob.per ∧ ((0 : Time) + fc (256 * 200) - aJob.start).toNat / 256 = 200 ∧ 200 ≤ 1 * aJob.per + aJob.delay ∧
      1 * aJob.per + aJob.delay < 200 + 100) := by
  unfold State.reaches; decide +kernel

/-- Forestay is enabled on the root, and the link x is up and stands as l. -/
def tree (x : Nat) (l : FLink) : State :=
  { (((run.setF FRS_CTRL_EN 1).setF FRS_CFG_ROOT 1).setF FRS_CFG_FCEN 1).setF FRS_STATUS_LINKUP (2 ^ x) with frs.links := [(x, l)] }

/-- The head of a frame that arrives on link x as R454 has it. -/
def headOf (x ty : Nat) (depth : Fin 32) (pay : Nat) : FrsHead := ⟨if x = 0 then 0xBC else 0x3C, depth, BitVec.ofNat 16 (crc16 (frameBody ty depth pay))⟩

/-- A device below the root that follows, with two offsets computed. -/
def follower (l : FLink) : State :=
  { ((((tree 0 l).setF FRS_CFG_ROOT 0).setF FRS_CFG_FOLLOW 1).setF MST_STATUS_REF_ACTIVE 4).setF MST_STATUS_LOCKED 1 with frs.offN := 2 }

/-- A set of a link whose CALH is to come: t1 and t2, then t3 and t4. -/
def calSet (t1 : Time) (t2 lo : Nat) (t4 : Time) : FLink := { pair := some (t1, t2), gotLow := some lo, gotT := some t4 }

theorem hyp_ForestayLinks_frames :
    (∀ x : Fin 3, ∀ ty : Fin 8, GoodFrame x ty (headOf x ty 31 0xFFFFFFFF) 0xFFFFFFFF) ∧
    (∀ x : Fin 3, GoodFrame x 0 (headOf x 0 0 0) 0) ∧
    (∀ x : Fin 3, ¬GoodFrame x 0 (headOf (2 - x) 1 0 0) 0 ∧ ¬GoodFrame x 0 { headOf x 0 0 0 with crc := 0 } 0) := by
  refine ⟨fun x ty => ⟨_, rfl, ?_⟩, fun x => ⟨_, rfl, ?_⟩, fun x => ⟨?_, ?_⟩⟩
  · revert x ty; decide +kernel
  · revert x; decide +kernel
  · rintro ⟨b, rfl, h⟩; revert h; revert x; decide +kernel
  · rintro ⟨b, rfl, h⟩; revert h; revert x; decide +kernel

theorem hyp_ForestayLinks :
    ((tree 1 {}).frsEn = true ∧ (tree 1 {}).isRoot = true ∧ (tree 1 {}).flag FRS_CFG_FCEN = true ∧ (tree 1 {}).flag FRS_CFG_FBEN = false ∧
      ((tree 1 {}).setF FRS_CFG_ROOT 0).isRoot = false) ∧
    ((tree 0 {}).linkOn 0 = true ∧ (tree 2 {}).linkOn 2 = true ∧ (tree 0 {}).linkOn 1 = false ∧
      (follower {}).f MST_STATUS_REF_ACTIVE = 4 ∧ (tree 0 {}).f MST_STATUS_REF_ACTIVE ≠ 4 ∧
      (follower {}).flag MST_STATUS_HOLDOVER = false) ∧
    ((follower {}).linkOn 2 = false ∧ (follower {}).isRoot = false ∧ (tree 1 { slot := 1016 }).linkOn 2 = false ∧
      (tree 1 { slot := 1016 }).flag FRS_CFG_FCEN = true ∧ ((tree 1 { slot := 1016 }).flink 1).slot = 1016 ∧ 1016 % 8 = 0 ∧
      (tree 1 { slot := 1016 }).linkOn 1 = true ∧ ((tree 1 {}).setF FRS_STATUS_LINKUP 0).linkOn 2 = false ∧
      (((tree 2 { slot := 1016 }).setF FRS_STATUS_LINKUP 0).flink 2).slot = 1016) ∧
    ((tree 2 { slot := 1023, ops := [(4, 1)], evs := [7] }).flink 2 = { slot := 1023, ops := [(4, 1)], evs := [7] } ∧
      1023 % 8 ≠ 0 ∧ 992 % 32 = 0 ∧ 1000 % 32 = 8 ∧ 1008 % 32 = 16 ∧ 1016 % 32 = 24 ∧ 1016 / 32 = 31) ∧
    (((tree 2 { bad := 6 }).flink 2).bad < 7 ∧ 7 ≤ ((tree 2 { bad := 7 }).flink 2).bad) ∧
    (((tree 2 { peerT2 := some 9, ansT1 := some 8, sentT := some 8 }).flink 2) = { peerT2 := some 9, ansT1 := some 8, sentT := some 8 } ∧
      ((tree 2 {}).flink 2).pair = none) ∧
    ((tree 2 (calSet 1000 2000 3000 7120)).flink 2 = calSet 1000 2000 3000 7120 ∧
      ((1000 : Int) - (((1000 * 2 ^ 32 + 3000 : Time).toNat : Int) - 2000)) % 2 ^ 32 = 0 ∧
      (((7120 : Time) - 1000).toInt - 1000) * 32 ≤ 2560 * 64 ∧ 2560 * 64 < (((7121 : Time) - 1000).toInt - 1000) * 32) ∧
    ((tree 2 (calSet 1000 3000 2000 2100)).flink 2 = calSet 1000 3000 2000 2100 ∧
      ((-1000 : Int) - (((2000 : Time).toNat : Int) - 3000)) % 2 ^ 32 = 0 ∧ (((100 : Time) - 1000).toInt - (-1000)) * 32 = 3200) ∧
    ((follower {}).flag FRS_CFG_FOLLOW = true ∧ (follower {}).frsEn = true ∧ (follower {}).flag MST_STATUS_LOCKED = true ∧
      2 ≤ (follower {}).frs.offN ∧ (follower {}).flag FRS_STATUS_FOLLOWING = false ∧ (tree 0 {}).flag FRS_CFG_FOLLOW = false ∧
      { (follower {}).setF FRS_STATUS_FOLLOWING 1 with frs.again := true }.frs.again = true ∧ (follower {}).flag MST_CTRL_RUN = true ∧
      ((follower {}).setF MST_CTRL_RUN 0).flag MST_CTRL_RUN = false ∧ ((follower {}).setF FRS_STATUS_FOLLOWING 1).flag FRS_STATUS_FOLLOWING = true ∧
      (follower {}).frs.again = false ∧ 15 ≤ { follower {} with frs.goodN := 15 }.frs.goodN) ∧
    (((51200 : Int) * 64).natAbs ≤ 51200 * 64 ∧ 51200 * 64 < (-(51200 : Int) * 64 - 1).natAbs ∧ 163 < (-164 : Int).natAbs ∧
      (-81 : Int).natAbs ≤ 81) ∧
    (future (tree 2 {}).now ((tree 2 {}).nearCycle 0) = true ∧ future (tree 2 {}).now ((tree 2 {}).nearCycle 500) = false) ∧
    (((tree 2 { evs := List.replicate 15 0 }).flink 2).evs.length < 16 ∧
      16 ≤ ((tree 2 { evs := List.replicate 16 0 }).flink 2).evs.length) ∧
    ({ tree 2 {} with frs.evs := [(7, 100000)] }.frs.evs = [(7, 100000)] ∧ reached 100000 run.now = true ∧ reached 100001 run.now = false) ∧
    up.reaches FRS_CTRL := by
  unfold State.reaches; refine ⟨?_, ?_, ?_, ?_, ?_, ?_, ?_⟩ <;> decide +kernel

/-- An operation waits. -/
def waits (o : FrsOp) (s : State) : State := { s with frs.ops := [o] }

theorem hyp_ForestayOperations :
    ((tree 2 {}).reaches FRS_OPCMD ∧ (tree 2 {}).isRoot = true ∧ (tree 2 {}).frsEn = true ∧ (tree 2 {}).flag FRS_STATUS_TREEERR = false ∧
      (tree 2 {}).flag FRS_STATUS_OPBUSY = false ∧ (tree 2 {}).pendingOps.length < 8 ∧ opValid 1 0 = true ∧ opValid 3 15 = true ∧
      opValid 4 0x7DFE = true ∧ (tree 2 {}).linkOn 1 = false ∧ (tree 2 {}).linkOn 2 = true ∧
      0 ≤ (opTime 1 (fc 112896) - ((tree 2 {}).now + fc (10240 + 10752 * (tree 2 {}).f FRS_TREE_DEPTHMAX + opLead 1))).toInt ∧
      (opTime 1 (fc 112640) - ((tree 2 {}).now + fc (10240 + 10752 * (tree 2 {}).f FRS_TREE_DEPTHMAX + opLead 1))).toInt < 0) ∧
    (opValid 3 16 = false ∧ opValid 0 0 = false ∧ opValid 5 0 = false ∧ opValid 4 1 = false) ∧
    (8 ≤ { tree 2 {} with frs.ops := List.replicate 8 ⟨7, 1, 2, 200000, 0, 0⟩ }.pendingOps.length ∧
      { tree 2 {} with frs.ops := List.replicate 8 ⟨7, 1, 2, 100000, 0, 0⟩ }.pendingOps.length < 8 ∧
      (2 : Nat).testBit (run.f FRS_CFG_NODE) = false ∧ (1 : Nat).testBit (run.f FRS_CFG_NODE) = true ∧
      (opLead 3 : Int) ≤ ((102560 : Time) - run.now).toInt ∧ ((102559 : Time) - run.now).toInt < (opLead 3 : Int) ∧
      run.flag MST_CTRL_RUN = true ∧ run.flag KLN_CTRL_RUN = false ∧ tic.flag KLN_CTRL_RUN = true) ∧
    ((tree 2 { rx := [1, 2, 3, 4, 5] }).linkOn 2 = true ∧ ((tree 2 { rx := [1, 2, 3, 4, 5] }).flink 2).rx = [1, 2, 3, 4, 5] ∧
      ((tree 2 {}).flink 2).rx = [] ∧ ((tree 2 { rx := [1] }).flink 2).rx = [1] ∧ [1].length ≠ 5) ∧
    (∀ k ∈ [1, 3, 4], (waits ⟨7, k, 1, 100255, 0, 0⟩ run).dueOp k = some ⟨7, k, 1, 100255, 0, 0⟩ ∧
      (waits ⟨7, k, 1, 100256, 0, 0⟩ run).dueOp k = none ∧ (waits ⟨7, k, 2, 100255, 0, 0⟩ run).dueOp k = none) ∧
    ({ run with frs.ops := [⟨7, 4, 1, 100255, 2, 0⟩, ⟨8, 3, 1, 100255, 0, 0⟩] }.dueOp 3 = none ∧
      { run with frs.ops := [⟨7, 4, 1, 100255, 2, 0⟩, ⟨8, 3, 1, 100255, 0, 0⟩] }.dueOp 4 = some ⟨7, 4, 1, 100255, 2, 0⟩) ∧
    (run.running = true ∧ run.flag KLN_CTRL_RUN = false ∧ run.ticking = false ∧ tic.ticking = true ∧ up.running = false) ∧
    ((waits ⟨7, 2, 1, 200000, 95, 10000⟩ run).dueOp 2 = some ⟨7, 2, 1, 200000, 95, 10000⟩ ∧
      (waits ⟨7, 2, 1, 200000, 95, 10001⟩ run).dueOp 2 = none ∧ (mkAction 200000 (BitVec.ofNat 64 95)).port = 95 ∧
      (mkAction 200000 (BitVec.ofNat 64 96)).port = 96 ∧ run.f (GLB_PORTOWN_TYPE 95) ≠ 1 ∧
      (run.setF (GLB_PORTOWN_TYPE 95) 1).f (GLB_PORTOWN_TYPE 95) = 1 ∧
      (waits ⟨7, 2, 1, 200000, 95, 10000⟩ up).dueOp 2 = some ⟨7, 2, 1, 200000, 95, 10000⟩) ∧
    (run.boundaryBy run.now = none ∧ { tic with kln.next := tic.now }.boundaryBy tic.now = some tic.now ∧
      (15 : Nat).testBit 3 = true ∧ (7 : Nat).testBit 3 = false) ∧
    ((0x7DFE : Nat).testBit 14 = true ∧ run.on (blockDom 14) = true) := by
  unfold State.reaches; refine ⟨?_, ?_, ?_, ?_, ?_⟩ <;> decide +kernel

/-- A supply k is lost. -/
def lacks (k : Nat) (s : State) : State := { s with pwr.sup := setBits s.pwr.sup k 1 0 }

/-- The domain d is being switched on or off since the Mast cycle m. -/
def switches (d : Nat) (on : Bool) (m : Option Nat) (s : State) : State := { s with pwr.seq := [(d, on)], pwr.began := m }

theorem hyp_PowerAndResets :
    (∀ k, k < 6 → up.pwr.sup.testBit k = true ∧ (lacks k up).pwr.sup.testBit k = false) ∧
    ((lacks 0 (up.setF GLB_PWRSTAT_ON 0)).on 1 = false ∧ (up.setF GLB_PWRSTAT_ON 0x7DFF).on dLVDS = false ∧ up.on dLVDS = true ∧
      (up.setF GLB_PWRSTAT_ON 0x7FFB).on dHOST = false ∧ up.phys 12 = true ∧ { up with pwr.phys := 0 }.phys 12 = false ∧
      up.pwr.lockout = false ∧ { up with pwr.lockout := true }.pwr.lockout = true) ∧
    (up.pwr.notice = false ∧ { up with pwr.notice := true }.pwr.notice = true ∧ up.on 12 = true ∧ State.reset.on 12 = false) ∧
    (up.pwr.okAt = none ∧ { up.setF GLB_PWRSTAT_ON 1 with pwr.okAt := some 0, kln.mc := 40000 }.pwr.okAt = some 0 ∧
      0 + 40000 ≤ { up.setF GLB_PWRSTAT_ON 1 with pwr.okAt := some 0, kln.mc := 40000 }.mc ∧
      { up.setF GLB_PWRSTAT_ON 1 with pwr.okAt := some 0, kln.mc := 40000 }.on 1 = false ∧ up.mc < 0 + 40000) ∧
    (up.on 0 = true ∧ (up.setF GLB_PWRSTAT_ON 0).on 0 = false ∧ up.mainOk = true ∧ (lacks 1 up).mainOk = false ∧
      { up with pwr.standby := true }.pwr.standby = true ∧ { up with pwr.sysLow := true }.mainOk = false ∧ up.pwr.sysLow = false ∧
      { lacks 1 up with pwr.sysLow := true }.pwr.sysLow = true ∧ up.pwr.standby = false ∧
      (∀ k ∈ [0, 1, 4], { up with pwr.sysLow := true }.pwr.sup.testBit k = true) ∧ up.linked = true) ∧
    (up.on 1 = true ∧ (up.setF GLB_PWRSTAT_ON 0).on 1 = false ∧ State.reset.on dFRST = false ∧ (tree 2 {}).on dFRST = true ∧
      (tree 2 {}).frsEn = true ∧ (tree 2 {}).flag FRS_CFG_FCEN = true ∧ up.phys (portDom 95) = true ∧ State.reset.phys (portDom 0) = false) ∧
    ((switches 14 true none up).pwr.seq = [(14, true)] ∧ (switches 14 true none up).pwr.began = none ∧
      (switches 12 true (some 9999) up).pwr.began.isSome = true ∧ up.supplied 14 = true ∧ (lacks 5 up).supplied 14 = false ∧
      (∀ e ∈ domReq 14, up.domains.testBit e = true) ∧ (∃ e ∈ domReq 14, State.reset.domains.testBit e = false) ∧ 14 < 15) ∧
    (up.mc < 0 + 200000 ∧ 0 + 200000 ≤ { switches 14 true (some 0) up with kln.mc := 200000 }.mc) ∧
    ((switches 14 false none up).pwr.seq = [(14, false)] ∧ up.on 14 = true ∧ State.reset.on 14 = false ∧ up.mc < 9601 + 400 ∧
      9600 + 400 ≤ up.mc ∧ up.lan.switching = false ∧ (switches 14 false (some 9600) up).pwr.began = some 9600) ∧
    ({ up with lan.switching := true, lan.req := some [0x30] }.lan.req = some [0x30] ∧
      { up with lan.switching := true, lan.req := some [0x30] }.lan.switching = true) := by
  refine ⟨?_, ?_, ?_, ?_, ?_, ?_⟩ <;> decide +kernel

theorem hyp_PowerAndResets_registers :
    (up.reaches GLB_PWRCTL ∧ up.switching = false ∧ (switches 14 true none up).switching = true ∧
      bitsOf (0x00F00000 : Word).toNat 16 15 % 16 = 0 ∧ domSetOk (up.setAfter 0xF0 0) = true ∧
      switchSeq up.domains (up.setAfter 0xF0 0) ≠ [] ∧ up.lan.switching = false ∧ bitsOf (0x000F0000 : Word).toNat 16 15 % 16 ≠ 0 ∧
      domSetOk (up.setAfter 0x1000 0) = false) ∧
    (up.reaches GLB_BLKRST ∧ up.on (blockDom 14) = true ∧ up.on (blockDom 1) = true ∧ State.reset.on (blockDom 1) = false) := by
  unfold State.reaches; decide +kernel

/-- A record on the command direction of the Stay link. -/
def rec_ (n : Nat) : StayRec := ⟨n, 0, .act { port := 3 }, 9984⟩

/-- The command direction of the Stay link stands as d. -/
def link (d : StayDir) : State := up.setDir false d

theorem hyp_StayLinkRecords :
    (up.linked = true ∧ { up with stay.trainAt := some 9990 }.linked = false ∧ (up.stayDir false).flight = []) ∧
    ((((link { flight := [rec_ 4095], expect := 4095 }).stayDir false).flight.find? fun y => y.seq == 4095) = some (rec_ 4095) ∧
      ((link { flight := [rec_ 4095], expect := 4095 }).stayDir false).expect = 4095 ∧
      ((link { flight := [rec_ 4095], expect := 4095 }).stayDir false).wait = [] ∧ (link {}).linked = true ∧
      (rec_ 4095).sent + 16 ≤ up.mc ∧ up.mc < (rec_ 4095).sent + 22) ∧
    (((link { flight := [rec_ 4095], expect := 4095, wait := [(rec_ 0, 9990)] }).stayDir false).wait = [(rec_ 0, 9990)] ∧
      (rec_ 0).seq = (4095 + 1) % 4096) ∧
    (5 ∈ ((link { flight := [rec_ 5], expect := 9, gaps := [5] }).stayDir false).gaps ∧
      ((link { flight := [rec_ 5], expect := 9, gaps := [5] }).stayDir false).expect ≠ 5) ∧
    (2048 ≤ (5 + 4096 - 9) % 4096 ∧ (9 + 4096 - 5) % 4096 < 2048 ∧ 5 ∉ ((link { expect := 9 }).stayDir false).gaps) ∧
    (((link { wait := [(rec_ 7, 9000)] }).stayDir false).wait = [(rec_ 7, 9000)] ∧ 9000 + 1000 ≤ up.mc ∧ up.mc < 9001 + 1000 ∧
      (rec_ 7).seq < 4096 ∧ ((link { wait := [(rec_ 7, 9000)] }).stayDir false).expect < 4096) ∧
    ((up.f STY_STATUS_TXUSE).testBit 3 = true ∧ (up.f STY_STATUS_RXUSE).testBit 0 = true ∧ (true, 3) ∉ up.stay.failing ∧
      (true, 3) ∈ { up with stay.failing := [(true, 3)] }.stay.failing ∧ (setLanes 7 7 up).f STY_STATUS_TXUSE = 7 ∧
      up.stay.failing = [] ∧ { up with stay.failing := [(false, 1)] }.stay.failing = [(false, 1)]) ∧
    (((link { flight := [{ rec_ 5 with sent := 9601 }] }).stayDir false).flight = [{ rec_ 5 with sent := 9601 }] ∧
      up.mc + 1 ≤ 9601 + 400 ∧ 9600 + 400 < up.mc + 1) ∧
    ({ up with stay.trainAt := some 9990 }.stay.trainAt.isSome = true ∧ up.stay.trainAt = none ∧
      { up with stay.trainAt := some 0 }.stay.trainAt = some 0) ∧
    (up.on dFCORE = true ∧ State.reset.on dFCORE = false ∧ { up with stay.proxy := [(0, 0x80000, 1)] }.stay.proxy ≠ [] ∧
      up.phys dFCORE = true ∧ { up with pwr.phys := 0 }.phys dFCORE = false ∧ { up with pwr.phys := 0 }.on dFCORE = true) ∧
    (up.stay.lostAt = none ∧ { up with stay.lostAt := some 0 }.stay.lostAt = some 0 ∧
      0 + 200 * (up.setF FLD_CFG_LOSSTO 50).f FLD_CFG_LOSSTO ≤ up.mc ∧ up.mc < 0 + 200 * (up.setF FLD_CFG_LOSSTO 51).f FLD_CFG_LOSSTO ∧
      up.phys dFCORE = true ∧ (up.setF FLD_CFG_LOSSACT 0).flag FLD_CFG_LOSSACT = false) ∧
    ({ up with stay.trainAt := some 0 }.stay.trainAt.isSome = true ∧ up.stay.trainAt = none ∧ 0 + 10000 ≤ up.mc ∧ up.mc < 1 + 10000) := by
  refine ⟨?_, ?_, ?_, ?_, ?_, ?_, ?_⟩ <;> decide +kernel

theorem hyp_StepRunsFrontCommand : { up with pending := [.mastCycle, .scrub 8] }.pending = [.mastCycle, .scrub 8] := by decide +kernel
theorem hyp_EmptyQueueIdles : State.reset.pending = [] := rfl
theorem hyp_StepsKeepMemoryCanonical : Memory.wf { imageAt0 with pending := [.mastCycle] }.mem ∧
    (∃ t, step { imageAt0 with pending := [.mastCycle] } = .next t) := ⟨by decide +kernel, _, rfl⟩
theorem hyp_CoilDecodeOfEncode : coilValid (.ldf 14 15 3 false true 63 255) = true ∧ coilValid (.loop 15 4095 1023) = true ∧
    coilValid (.actp 15 15 95 31) = true ∧ coilValid (.mfs 15 13) = true := by decide

end Sys2Proof.Tests
end

section
/-! What a Coil instruction that issues leaves, and the instructions on events and special registers (R87 to R123). -/

namespace Sys2Proof.Machine

open Sys2Proof Reg

/-! ### Instructions that issue -/

/-- A command whose instruction issues has the effect of that instruction, from the state after its fetch (R90, R97). -/
theorem coilStep_of_issues {e : Nat} {c : Coil} {r : Run} {s s1 : State} (h : s.issues e c r s1) :
    coilStep e c s = coilRun e r c s1 := by
  obtain ⟨hrun, hfetch⟩ := h
  simp [coilStep, hrun, hfetch]

/-- The command of a Coil instruction is the step of that instruction. -/
theorem exec_of_coil {i : Instr} {e : Fin 17} {c : Coil} (h : i.coil = some (e, c)) (s : State) :
    exec i s = .next (coilStep e c s) := by
  unfold Instr.coil at h
  split at h <;> cases h <;> rfl

/-- A command whose instruction issues gives the state that the instruction leaves (R90, R97). -/
theorem exec_of_issues {i : Instr} {e : Fin 17} {c : Coil} {r : Run} {s s1 : State} (hi : i.coil = some (e, c))
    (h : s.issues e c r s1) : exec i s = .next (coilRun e r c s1) := by
  rw [exec_of_coil hi, coilStep_of_issues h]

/-- A change of engine e is told by what it makes of the engine as it stands. -/
theorem State.modEng_congr (s : State) (e : Nat) {f g : Engine → Engine} (h : f (s.eng e) = g (s.eng e)) :
    s.modEng e f = s.modEng e g := congrArg (s.setEng e) h

/-- An instruction completes after a change of its engine's registers (R87, R90). -/
theorem advance_modEng_coilDone (e : Nat) (r : Run) (n a : Nat) (s : State) {f : Engine → Engine}
    (hf : f (s.eng e) = { s.eng e with g := (f (s.eng e)).g }) :
    CoilDone e r n a s (advance e r n a (s.modEng e f)) := by
  unfold advance
  refine ⟨rfl, fun k hk => ?_, ?_⟩
  · rw [State.modEng_eng_ne _ _ hk, State.modEng_eng_ne _ _ hk]
  · simp only [State.modEng_eng_same]
    rw [hf]

theorem advance_coilDone (e : Nat) (r : Run) (n a : Nat) (s : State) : CoilDone e r n a s (advance e r n a s) :=
  ⟨rfl, fun k hk => State.modEng_eng_ne s _ hk, by simp only [advance, State.modEng_eng_same]⟩

theorem advance_g (e : Nat) (r : Run) (n a : Nat) (s : State) : ((advance e r n a s).eng e).g = (s.eng e).g := by
  simp only [advance, State.modEng_eng_same]

theorem sameG_of_g {e : Nat} {s t : State} (h : (t.eng e).g = (s.eng e).g) : SameG e s t := fun i => by
  simp only [Engine.r, h]

theorem SameG.trans {e : Nat} {s t u : State} (h : SameG e s t) (k : SameG e t u) : SameG e s u :=
  fun i => (k i).trans (h i)

theorem advance_sameG (e : Nat) (r : Run) (n a : Nat) (s : State) : SameG e s (advance e r n a s) :=
  sameG_of_g (advance_g e r n a s)

/-- What an instruction that changes engine e by f, and goes on to the next word, leaves of the engine's registers. -/
theorem advanceNext_modEng_sameG {e : Nat} (r : Run) (c : Coil) {s : State} {f : Engine → Engine}
    (hf : (f (s.eng e)).g = (s.eng e).g) : SameG e s (advanceNext e r c (s.modEng e f)) :=
  sameG_of_g (by rw [advanceNext, advance_g, State.modEng_eng_same, hf])

/-- Register i of an engine in which rd has been written (R87). -/
theorem Engine.setR_r (x : Engine) (rd i : Nat) (v : DWord) :
    (x.setR rd v).r i = if i = 0 then 0 else if i = rd then v else x.r i := by
  unfold Engine.setR Engine.r
  by_cases hi : i = 0
  · simp [hi]
  · by_cases hrd : i = rd
    · subst hrd; simp [hi, mget_mset_same]
    · by_cases h0 : rd = 0
      · simp [hi, h0]
      · simp [hi, hrd, h0, mget_mset_ne _ _ _ _ hrd]

theorem Engine.setR_eq (x : Engine) (rd : Nat) (v : DWord) : x.setR rd v = { x with g := (x.setR rd v).g } := by
  unfold Engine.setR; split <;> rfl

/-- An instruction that writes rd completes (R87, R90). -/
theorem writeRd_coilDone (e : Nat) (r : Run) (c : Coil) (rd : Nat) (v : DWord) (s : State) :
    CoilDone e r (coilCost c) (r.pc + 4) s (writeRd e r c rd v s) :=
  advance_modEng_coilDone e r _ _ s (Engine.setR_eq _ rd v)

theorem writeRd_wroteReg (e : Nat) (r : Run) (c : Coil) (rd : Nat) (v : DWord) (s : State) :
    WroteReg e rd v s (writeRd e r c rd v s) := fun i =>
  (advance_sameG e r _ _ _ i).trans (by rw [State.modEng_eng_same, Engine.setR_r])

/-! ### The fetch leaves the cycle as it is -/

theorem readWordErr_kln (b r w : Nat) (s : State) : (readWordErr b r s w).kln = s.kln := by
  unfold readWordErr
  split
  · rfl
  · simp [countCorr]
  · rw [countUnc, logFault_eq]; simp

theorem bankRead_kln (b r a n : Nat) (s : State) : (bankRead b r a n s).2.2.kln = s.kln :=
  foldl_keep State.kln _ (fun t w => readWordErr_kln b r w t) _ s

theorem fetch_kln (e : Nat) (r : Run) (s : State) : (fetch e r s).2.kln = s.kln := by
  have h := bankRead_kln (s.nearBank e) 0 r.pc 4 s
  unfold fetch
  extract_lets x i
  split
  · rfl
  · rcases hb : bankRead (s.nearBank e) 0 r.pc 4 s with ⟨d, bad, t⟩
    rw [hb] at h
    dsimp only
    split
    · exact h
    · split <;> exact h

/-- An instruction issues no later than the last engine cycle of the Mast cycle (R90). -/
theorem State.issues.cycle_le {e : Nat} {c : Coil} {r : Run} {s s1 : State} (h : s.issues e c r s1) :
    r.ec0 + r.ec ≤ 4 * s1.mc + 3 := by
  obtain ⟨hrun, hfetch⟩ := h
  have hmc : s1.mc = s.mc := by
    have := fetch_kln e r s
    rw [hfetch] at this
    exact congrArg Kiln.mc this
  unfold State.canIssue at hrun
  dsimp only at hrun
  split at hrun
  · split at hrun
    · next hc =>
      cases hrun
      rw [hmc]; exact of_decide_eq_true (Bool.and_eq_true_iff.mp hc).2
    · cases hrun
  · cases hrun

/-! ### Clearing bits -/

/-- Taking a set bit away clears it and leaves the others. -/
theorem testBit_sub_two_pow {v k : Nat} (h : v.testBit k = true) (j : Nat) :
    (v - 2 ^ k).testBit j = (v.testBit j && !(j == k)) := by
  have hb : bitsOf v k 1 = 1 := by
    rw [Nat.testBit_eq_decide_div_mod_eq, decide_eq_true_eq] at h
    rw [bitsOf, Nat.shiftRight_eq_div_pow, Nat.pow_one, h]
  have hv : v - 2 ^ k = setBits v k 1 0 := by simp [setBits, hb, Nat.shiftLeft_eq]
  rw [hv, setBits_testBit]
  by_cases hjk : j = k
  · simp [hjk]
  · have : ¬ (k ≤ j ∧ j < k + 1) := by omega
    simp only [beq_eq_false_iff_ne.mpr hjk, Bool.not_false, Bool.and_true]
    split
    · rfl
    · rw [if_neg (by omega)]

/-- A walk over the first n bits that clears those that p names. -/
theorem foldl_clears_testBit {f : Nat → Nat → Nat} {p : Nat → Bool}
    (hf : ∀ v k, f v k = if (p k && v.testBit k) = true then v - 2 ^ k else v) (n v j : Nat) :
    ((List.range n).foldl f v).testBit j = (v.testBit j && !(decide (j < n) && p j)) := by
  induction n with
  | zero => simp
  | succ n ih =>
    rw [List.range_succ, List.foldl_append, List.foldl_cons, List.foldl_nil, hf]
    generalize (List.range n).foldl f v = w at ih
    have hlt (hj : j ≠ n) : j < n + 1 ↔ j < n := by omega
    split
    · next h =>
      obtain ⟨hp, hw⟩ := Bool.and_eq_true_iff.mp h
      rw [testBit_sub_two_pow hw, ih]
      by_cases hj : j = n
      · simp [hj, hp]
      · simp [hj, hlt hj]
    · next h =>
      by_cases hj : j = n
      · subst hj
        simp only [lt_irrefl, decide_false, Bool.false_and, Bool.not_false, Bool.and_true] at ih
        rw [ih, Bool.and_comm] at h
        simpa [ih] using h
      · simp [ih, hlt hj]

/-! ### Pulses that are formed stay formed -/

/-- The source src pulses in cycle m: it has pulsed in the present cycle where m has come, and waits otherwise (R292, R294). -/
def State.pulses (s : State) (src m : Nat) : Prop :=
  (s.mc < m → (src, m) ∈ s.rig.sched) ∧ (m ≤ s.mc → mget s.rig.pulsed src 0 = s.mc + 1)

/-- What a pulse finds formed: the sources that have pulsed, the pulses that wait, and the cycle. -/
def State.formed (s : State) : SMap Nat × List (Nat × Nat) × Nat := (s.rig.pulsed, s.rig.sched, s.mc)

theorem State.pulses_of_formed {s t : State} (h : t.formed = s.formed) (src m : Nat) : t.pulses src m ↔ s.pulses src m := by
  simp only [State.formed, Prod.mk.injEq] at h
  obtain ⟨hpulsed, hsched, hmc⟩ := h
  rw [State.pulses, State.pulses, hpulsed, hsched, hmc]

theorem dropPulse_formed (e : Nat) (s : State) : (dropPulse e s).formed = s.formed := by
  rw [(dropPulse_onlyNoted e s).1]; rfl

theorem enterRoute_formed (e v : Nat) (s : State) : (enterRoute e v s).formed = s.formed := by
  unfold enterRoute
  split
  · rfl
  · dsimp only
    split
    · rw [dropPulse_formed]; rfl
    · rfl

theorem enterField_formed (e v : Nat) (s : State) : (enterField e v s).formed = s.formed := by
  unfold enterField
  dsimp only
  split
  · rw [dropPulse_formed]; rfl
  · rfl

/-- A pulse of an assigned source is noted for its cycle, once, and changes nothing else of what is formed (R292). -/
theorem pulse_formed (src : Nat) (s : State) : (pulse src s).formed =
    if mget s.rig.pulsed src 0 = s.mc + 1 ∨ srcAssigned src = false then s.formed
    else (mset s.rig.pulsed src (s.mc + 1) 0, s.rig.sched, s.mc) := by
  unfold pulse
  by_cases h : mget s.rig.pulsed src 0 = s.mc + 1 ∨ srcAssigned src = false
  · rw [if_pos h, if_pos (by simpa using h)]
  · rw [if_neg h, if_neg (by simpa using h)]
    extract_lets _ u v
    have hu : u.formed = (mset s.rig.pulsed src (s.mc + 1) 0, s.rig.sched, s.mc) := rfl
    have hv : v.formed = u.formed := by
      unfold v
      split
      · exact foldl_keep State.formed _ (fun t r => by split <;> [exact enterRoute_formed _ _ _; rfl]) _ _
      · rfl
    rw [← hu, ← hv]
    split
    · rfl
    · exact foldl_keep State.formed _ (fun t r => by split <;> [exact enterField_formed _ _ _; rfl]) _ _

/-- A pulse that is asked for is formed (R294). -/
theorem pulseAt_pulses {src : Nat} (h : srcAssigned src = true) (m : Nat) (s : State) : (pulseAt src m s).pulses src m := by
  unfold pulseAt
  split
  · next hm =>
    have hf := pulse_formed src s
    by_cases hp : mget s.rig.pulsed src 0 = s.mc + 1
    · rw [if_pos (.inl hp)] at hf
      exact (State.pulses_of_formed hf src m).mpr ⟨fun hlt => absurd hlt (by omega), fun _ => hp⟩
    · rw [if_neg (by simp [hp, h])] at hf
      simp only [State.formed, Prod.mk.injEq] at hf
      obtain ⟨hpulsed, -, hmc⟩ := hf
      refine ⟨fun hlt => absurd hlt (by omega), fun _ => ?_⟩
      rw [hpulsed, hmc, mget_mset_same]
  · next hm =>
    split
    · next hc => exact ⟨fun _ => by simpa using hc, fun hle => absurd hle hm⟩
    · exact ⟨fun _ => List.mem_append_right _ (List.mem_singleton.mpr rfl), fun hle => absurd hle hm⟩

/-- A pulse that is formed stays formed while others are. -/
theorem State.pulses.pulseAt {s : State} {a n : Nat} (h : s.pulses a n) (src m : Nat) : (pulseAt src m s).pulses a n := by
  unfold Machine.pulseAt
  split
  · have hf := pulse_formed src s
    split at hf
    · exact (State.pulses_of_formed hf a n).mpr h
    · simp only [State.formed, Prod.mk.injEq] at hf
      obtain ⟨hpulsed, hsched, hmc⟩ := hf
      rw [State.pulses, hpulsed, hsched, hmc]
      refine ⟨h.1, fun hle => ?_⟩
      by_cases ha : a = src
      · rw [ha, mget_mset_same]
      · rw [mget_mset_ne _ _ _ _ ha]; exact h.2 hle
  · split
    · exact h
    · exact ⟨fun hlt => List.mem_append_left _ (h.1 hlt), h.2⟩

theorem PulseOnly.rights {s t : State} (h : PulseOnly s t) (e : Nat) : t.rights e = s.rights e := by
  rw [h.1]; rfl

/-- EVO sends the pulse of event output k of engine e where its mask names it (R121). -/
def evoPulse (e mask m : Nat) (s : State) (k : Nat) : State :=
  if mask.testBit k then pulseAt (0x140 + 8 * s.rights e + k) m s else s

theorem evoPulse_only (e mask m : Nat) (s : State) (k : Nat) : PulseOnly s (evoPulse e mask m s k) := by
  unfold evoPulse; split <;> [exact pulseAt_only _ _ _; exact .refl s]

theorem State.pulses.evoPulse {s : State} {a n : Nat} (h : s.pulses a n) (e mask m k : Nat) :
    (evoPulse e mask m s k).pulses a n := by
  unfold Machine.evoPulse; split <;> [exact h.pulseAt _ _; exact h]

theorem State.pulses.foldl_evoPulse {a n : Nat} (e mask m : Nat) (l : List Nat) {s : State} (h : s.pulses a n) :
    (l.foldl (Machine.evoPulse e mask m) s).pulses a n := by
  induction l generalizing s with
  | nil => exact h
  | cons b l ih => exact ih (h.evoPulse e mask m b)

/-- The sources of the event outputs of an engine number (R291). -/
theorem srcAssigned_evo {n k : Nat} (hn : n < 16) (hk : k < 8) : srcAssigned (0x140 + 8 * n + k) = true := by
  simp [srcAssigned]; omega

theorem foldl_evoPulse_pulses (e mask m : Nat) {k : Nat} (hk : k < 8) (hmask : mask.testBit k = true) {l : List Nat}
    (hl : k ∈ l) {s : State} (hs : s.rights e < 16) :
    (l.foldl (evoPulse e mask m) s).pulses (0x140 + 8 * s.rights e + k) m := by
  induction l generalizing s with
  | nil => cases hl
  | cons b l ih =>
    have hr := (evoPulse_only e mask m s b).rights e
    rcases List.mem_cons.mp hl with rfl | hl
    · have hp : (evoPulse e mask m s k).pulses (0x140 + 8 * s.rights e + k) m := by
        rw [evoPulse, if_pos hmask]; exact pulseAt_pulses (srcAssigned_evo hs hk) m s
      exact hp.foldl_evoPulse e mask m l
    · rw [List.foldl_cons, ← hr]; exact ih hl (by rwa [hr])

/-! ### EVC, MFS and MTS (R121 to R123) -/

/-- The pulse at event input k of engine e falls in the engine cycle c, the first of the present Mast cycle (R15, R293). -/
def State.evCame (s : State) (e c k : Nat) : Bool := decide (c % 4 = 0) && mget s.hwNow (evinKey e k) 0 != 0

/-- The event flags that EVC leaves (R121). -/
def evcFlags (mask : Nat) (came : Nat → Bool) (v : Nat) : Nat :=
  (List.range 8).foldl (fun v k => if mask.testBit k && v.testBit k && !came k then v - 2 ^ k else v) v

theorem evcFlags_testBit (mask : Nat) (came : Nat → Bool) (v : Nat) {k : Nat} (hk : k < 8) :
    (evcFlags mask came v).testBit k = (v.testBit k && !(mask.testBit k && !came k)) := by
  refine (foldl_clears_testBit (p := fun k => mask.testBit k && !came k) (fun v k => ?_) 8 v k).trans ?_
  · rw [Bool.and_right_comm]
  · rw [decide_eq_true hk, Bool.true_and]

/-- The ESTAT bits that MTS leaves (R123). -/
def mtsBits (w : DWord) (v : Nat) : Nat :=
  (List.range 5).foldl (fun v k => if w.getLsbD k && v.testBit k then v - 2 ^ k else v) v

theorem mtsBits_testBit (w : DWord) (v : Nat) {k : Nat} (hk : k < 5) :
    (mtsBits w v).testBit k = (v.testBit k && !w.getLsbD k) :=
  (foldl_clears_testBit (fun _ _ => rfl) 5 v k).trans (by rw [decide_eq_true hk, Bool.true_and])

/-- The special registers as R96 lists them. -/
theorem sregVal_eq (s : State) (e : Fin 17) (x : Engine) (r : Run) (n : Nat) : sregVal s e x r n = (match n with
    | 0 => BitVec.ofNat 64 (s.rights e % 32 + if e = 16 then 256 else 0)
    | 1 => BitVec.ofNat 64 r.tick
    | 2 => r.ttime
    | 3 => BitVec.ofNat 64 r.period
    | 4 => r.time0 + fc (64 * r.ec)
    | 5 => BitVec.ofNat 64 r.ec
    | 6 => BitVec.ofNat 64 (4 * r.period - 64)
    | 7 => BitVec.ofNat 64 x.image.decl
    | 8 => BitVec.ofNat 64 r.batch.length
    | 9 => BitVec.ofNat 64 x.estat
    | 10 => BitVec.ofNat 64 x.evin
    | 11 => BitVec.ofNat 64 ((r.loops.head?.map (·.index)).getD 0)
    | 12 => BitVec.ofNat 64 x.image.base
    | 13 => BitVec.ofNat 64 r.calls.length
    | _ => 0) := by
  match n with
  | 0 => simp only [sregVal, Fin.ext_iff]; rfl
  | 11 => cases h : r.loops <;> simp only [sregVal, h] <;> rfl
  | 1 | 2 | 3 | 4 | 5 | 6 | 7 | 8 | 9 | 10 | 12 | 13 => rfl
  | _ + 14 => rfl

end Sys2Proof.Machine

namespace Sys2Proof

open Machine Reg

/-- Settles O30: each instruction acts from the state after its fetch; EVO's pulses stay formed while the rest of its mask
is walked, and the walks of EVC and MTS clear one bit at a time. -/
theorem eventsAndSpecialRegisters : Obligations.EventsAndSpecialRegisters := by
  intro e s s1 r
  refine ⟨fun mask h => ?evo, fun mask h => ?evc, fun rd sr h => ?mfs, fun ra sr h => ?mts⟩
  case evo =>
    let u := (List.range 8).foldl (evoPulse e mask ((r.ec0 + r.ec) / 4 + 1)) s1
    have hu : PulseOnly s1 u := foldl_pulseOnly _ (evoPulse_only e mask _) _ _
    have hmc : u.mc = s1.mc := by rw [hu.1]; rfl
    have hle := h.cycle_le
    refine ⟨u, advanceNext e r (.evo mask) u, exec_of_issues rfl h, advance_coilDone _ _ _ _ _,
      (sameG_of_g (by rw [hu.eng])).trans (advance_sameG _ _ _ _ _), hu.1, hu.2, fun hr k hk hm => ?_⟩
    obtain ⟨hlater, hnow⟩ : u.pulses _ _ := foldl_evoPulse_pulses e mask _ hk hm (List.mem_range.mpr hk) hr
    rw [hmc] at hlater hnow
    refine ⟨fun hc => ?_, fun hc => hnow (by omega)⟩
    rw [show s1.mc + 1 = (r.ec0 + r.ec) / 4 + 1 by omega]; exact hlater (by omega)
  case evc =>
    let flags := evcFlags mask (s1.evCame e (r.ec0 + r.ec))
    let u := s1.modEng e fun x => { x with evin := flags x.evin }
    have hev : u.eng e = { s1.eng e with evin := flags (s1.eng e).evin } := State.modEng_eng_same _ _ _
    refine ⟨u, advanceNext e r (.evc mask) u, exec_of_issues rfl h, advance_coilDone _ _ _ _ _,
      advanceNext_modEng_sameG _ _ rfl, State.modEng_congr s1 e (by rw [hev]), fun k hk => ?_⟩
    rw [hev]; exact evcFlags_testBit mask (s1.evCame e _) _ hk
  case mfs =>
    exact ⟨writeRd e r (.mfs rd sr) rd (sregVal s1 e (s1.eng e) r sr) s1, exec_of_issues rfl h, writeRd_coilDone _ _ _ _ _ _,
      writeRd_wroteReg _ _ _ _ _ _, sregVal_eq _ _ _ _ _⟩
  case mts =>
    let u := s1.modEng e fun x => { x with estat := mtsBits ((s1.eng e).r ra) x.estat }
    have hes : u.eng e = { s1.eng e with estat := mtsBits ((s1.eng e).r ra) (s1.eng e).estat } := State.modEng_eng_same _ _ _
    refine ⟨u, advanceNext e r (.mts ra sr) u, exec_of_issues rfl h, advance_coilDone _ _ _ _ _,
      advanceNext_modEng_sameG _ _ rfl, State.modEng_congr s1 e (by rw [hes]), fun k hk => ?_⟩
    rw [hes]; exact mtsBits_testBit _ _ hk

end Sys2Proof
end

section
/-! COMMIT registers, and the blocks that they apply (R12 to R14, R67, R70, R138). -/

namespace Sys2Proof.Machine

open Sys2Proof Reg

/-! ### COMMIT registers -/

/-- A block that has a COMMIT register has it at one of the offsets that the loader commits (R67). -/
theorem commitRange_isSome_mem {off : Nat} (h : (commitRange off).isSome = true) : off ∈ commitOffs := by
  simp only [commitOffs, List.mem_append, List.mem_map, List.mem_range, List.mem_cons, List.not_mem_nil, GLB_COMMIT, KLN_COMMIT,
    RIG_COMMIT]
  simp only [commitRange, Bool.or_eq_true, Bool.and_eq_true, decide_eq_true_eq, beq_iff_eq] at h
  split_ifs at h with hlow hgroup hwheel hsheave hport hengine
  · cases h
  · omega
  · exact .inl (.inl (.inl (.inl (.inr ⟨(off - 0x50040) / 0x1000, by omega, by omega⟩))))
  · exact .inl (.inl (.inl (.inr ⟨(off - 0x60040) / 0x800, by omega, by omega⟩)))
  · exact .inl (.inl (.inr ⟨(off - 0x80040) / 0x100, by omega, by omega⟩))
  · exact .inl (.inr ⟨(off - 0x90040) / 0x400, by omega, by omega⟩)
  · cases h

/-- The COMMIT registers are registers of 32 bits. -/
theorem commitOffs_rows : ∀ o ∈ commitOffs, (rowAt o).isSome = true ∧ wideRw o = none := by decide +kernel

/-- A write of 1 to a COMMIT register arms its block (R12). -/
theorem putWord_commit {off : Nat} (h : off ∈ commitOffs) (req : Nat) (s : State) : putWord req off 1 s = arm off s := by
  have hrow : rowAt off ≠ none := Option.isSome_iff_ne_none.mp (commitOffs_rows off h).1
  simp only [commitOffs, List.mem_append, List.mem_map, List.mem_range, List.mem_cons, List.not_mem_nil, or_false] at h
  rcases h with (((((rfl | rfl | rfl | rfl) | ⟨w, hw, rfl⟩) | ⟨u, hu, rfl⟩) | ⟨p, hp, rfl⟩) | ⟨e, he, rfl⟩) | rfl
  · simp [putWord, hrow, writeGlb, show GLB_COMMIT / 0x10000 = 0 from rfl]
  · simp [putWord, hrow, writeMst, show KLN_COMMIT / 0x10000 = 1 from rfl, show KLN_COMMIT ≠ MST_CTRL by decide,
      show KLN_COMMIT ≠ MST_REFSEL by decide]
  · simp [putWord, hrow, writeRig, show RIG_COMMIT / 0x10000 = 2 from rfl, show RIG_COMMIT ≠ RIG_SWPULSE by decide,
      show RIG_COMMIT ≠ RIG_CLR by decide]
  · simp [putWord, hrow, writeSag, SAG_ECCINJ, SAG_SCRUB, SAG_CLR, ARB_COMMIT]
  · have hb : (0x50040 + 0x1000 * w) / 0x10000 = 5 := by omega
    have hi : (0x50040 + 0x1000 * w - 0x50000) / 0x1000 = w := by omega
    simp [putWord, hrow, hb, writeWhl, hi, WHL_CTRL, WHL_CLR, WHL_COMMIT]
  · have hb : (0x60040 + 0x800 * u) / 0x10000 = 6 := by omega
    have hi : (0x60040 + 0x800 * u - 0x60000) / 0x800 = u := by omega
    simp [putWord, hrow, hb, writeShv, hi, SHV_CTRL, SHV_CLR, SHV_COMMIT]
  · have hb : (0x80040 + 0x100 * p) / 0x10000 = 8 := by omega
    have hi : (0x80040 + 0x100 * p - 0x80000) / 0x100 = p := by omega
    simp [putWord, hrow, hb, writePrt, hi, PRT_CTRL, PRT_STATUS, PRT_IOCFG, PRT_INCFG, PRT_ARMW, PRT_CLR, PRT_COMMIT]
  · have hb : (0x90040 + 0x400 * e) / 0x10000 = 9 := by omega
    have hi : (0x90040 + 0x400 * e - 0x90000) / 0x400 = e := by omega
    simp [putWord, hrow, hb, writeCoil, hi, COIL_CTRL, COIL_LDBASE, COIL_CLR, COIL_COMMIT, show ¬ 0x96000 ≤ 0x90040 + 0x400 * e by omega]
  · simp [putWord, hrow, writeFrs, FRS_CTRL, FRS_CFG, FRS_COMMIT]

theorem softWrite_commit {off : Nat} (h : (commitRange off).isSome = true) (req : Nat) {s : State} (hr : s.reaches off) :
    softWrite req off 1 s = arm off s := by
  have hmem := commitRange_isSome_mem h
  rw [softWrite_reaches req 1 hr (commitOffs_rows off hmem).2, putWord_commit hmem]

theorem setArmed_armedAt_ne (s : State) {a o : Nat} (v : Nat) (h : o ≠ a) : (setArmed a v s).armedAt o = s.armedAt o :=
  mget_mset_ne _ _ _ _ h

/-! ### The staged fields of a block apply -/

theorem applyWord_eq (s : State) (o : Nat) : applyWord s o = s.setReg o (s.mergedWord o) := rfl

theorem State.mergedWord_congr {s t : State} {o : Nat} (hr : t.reg o = s.reg o) (hs : t.stg o = s.stg o) :
    t.mergedWord o = s.mergedWord o := by simp only [State.mergedWord, hr, hs]

theorem merge_self (w m : Word) : w &&& ~~~m ||| w &&& m = w := by
  ext i hi
  simp only [BitVec.getElem_or, BitVec.getElem_and, BitVec.getElem_not]
  cases m[i] <;> simp

/-- Merging the bits of a mask twice is merging them once. -/
theorem merge_merge (w v m : Word) : ((w &&& ~~~m ||| v &&& m) &&& ~~~m) ||| v &&& m = w &&& ~~~m ||| v &&& m := by
  ext i hi
  simp only [BitVec.getElem_or, BitVec.getElem_and, BitVec.getElem_not]
  cases m[i] <;> simp

theorem rwsMask_MST_TRIM : BitVec.ofNat 32 (rwsMask MST_TRIM) = BitVec.allOnes 32 := by decide

/-- A word that has applied applies again to itself. -/
theorem State.mergedWord_idem (s : State) (o : Nat) : (s.setReg o (s.mergedWord o)).mergedWord o = s.mergedWord o := by
  by_cases ho : o = MST_TRIM
  · subst ho
    simp only [State.mergedWord, State.setReg_stg, rwsMask_MST_TRIM]
    simp
  · simp only [State.mergedWord, if_neg ho, State.setReg_reg_same, State.setReg_stg]
    exact merge_merge _ _ _

theorem applyWord_mergedWord (s : State) (a o : Nat) : (applyWord s a).mergedWord o = s.mergedWord o := by
  rw [applyWord_eq]
  by_cases h : o = a
  · subst h; exact s.mergedWord_idem o
  · exact State.mergedWord_congr (State.setReg_reg_ne s _ h) (State.setReg_stg s _ _ _)

theorem foldl_applyWord_reg (l : List Nat) (s : State) (o : Nat) :
    (l.foldl applyWord s).reg o = if o ∈ l then s.mergedWord o else s.reg o := by
  induction l generalizing s with
  | nil => rfl
  | cons a l ih =>
    rw [List.foldl_cons, ih, applyWord_mergedWord]
    by_cases hl : o ∈ l
    · rw [if_pos hl, if_pos (List.mem_cons_of_mem a hl)]
    · by_cases ha : o = a
      · subst ha; rw [if_neg hl, if_pos List.mem_cons_self, applyWord_eq, State.setReg_reg_same]
      · rw [if_neg hl, if_neg (by simp [ha, hl]), applyWord_eq, State.setReg_reg_ne s _ ha]

theorem foldl_applyWord_eq (l : List Nat) (s : State) :
    l.foldl applyWord s = { s with regs := (l.foldl applyWord s).regs } := by
  induction l generalizing s with
  | nil => rfl
  | cons a l ih => rw [List.foldl_cons, ih]; rfl

theorem mget_of_not_mem {α : Type} {m : SMap α} {k : Nat} (h : k ∉ m.map Prod.fst) (d : α) : mget m k d = d := by
  induction m with
  | nil => rfl
  | cons p m ih =>
    obtain ⟨j, v⟩ := p
    simp only [List.map_cons, List.mem_cons, not_or] at h
    rw [mget, if_neg (Ne.symm h.1), ih h.2]

theorem resetWord_MST_TRIM : trimLimit (resetWord MST_TRIM) = resetWord MST_TRIM := by decide

/-- A register that neither stands nor is staged otherwise than at reset applies as it is. -/
theorem State.mergedWord_reset {s : State} {o : Nat} (hr : s.reg o = resetWord o) (hs : s.stg o = resetWord o) :
    s.mergedWord o = s.reg o := by
  simp only [State.mergedWord, hr, hs, merge_self]
  split
  · next ho => rw [ho, resetWord_MST_TRIM]
  · rfl

theorem applyFields_reg (lo hi : Nat) (s : State) (o : Nat) :
    (applyFields lo hi s).reg o = if lo ≤ o ∧ o < hi then s.mergedWord o else s.reg o := by
  rw [applyFields, foldl_applyWord_reg]
  by_cases hb : lo ≤ o ∧ o < hi
  · by_cases hk : o ∈ s.regs.map Prod.fst ++ s.staged.map Prod.fst
    · rw [if_pos (List.mem_filter.mpr ⟨hk, by simpa using hb⟩), if_pos hb]
    · rw [if_neg fun h => hk (List.mem_filter.mp h).1, if_pos hb]
      rw [List.mem_append, not_or] at hk
      exact (State.mergedWord_reset (mget_of_not_mem hk.1 _) (mget_of_not_mem hk.2 _)).symm
  · rw [if_neg hb, if_neg fun h => hb (by simpa using (List.mem_filter.mp h).2)]

/-- The staged fields of the block that is armed at off apply (R12). -/
theorem applyFields_applied (off lo hi : Nat) (s : State) : FieldsApplied off lo hi s (applyFields lo hi (setArmed off 0 s)) := by
  have h : applyFields lo hi (setArmed off 0 s) = { setArmed off 0 s with regs := (applyFields lo hi (setArmed off 0 s)).regs } :=
    foldl_applyWord_eq _ _
  refine ⟨?_, ?_, fun o ho => ?_, applyFields_reg lo hi _⟩
  · rw [h]; rfl
  · rw [h]; exact setArmed_armedAt_same s off 0
  · rw [h]; exact setArmed_armedAt_ne s 0 ho

theorem FieldsApplied.reg_outside {off lo hi : Nat} {s u : State} (h : FieldsApplied off lo hi s u) {o : Nat}
    (ho : ¬ (lo ≤ o ∧ o < hi)) : u.reg o = s.reg o := by
  obtain ⟨-, -, -, hregs⟩ := h
  rw [hregs, if_neg ho]

/-! ### What follows in the block -/

/-- No sheave unit runs, so none stops (R258). -/
theorem sheaveOwners_idle {u : State} (h : ∀ k, k < 8 → u.shvRuns k = false) : sheaveOwners u = u := by
  refine List.foldlRecOn (motive := (· = u)) (List.range 8) _ rfl fun t ht k hk => ?_
  subst ht
  rw [h k (List.mem_range.mp hk)]; rfl

/-- A reference that was neither changed nor written stays in force as it is (R38). -/
theorem refselApplied_same {u : State} (hw : u.kln.refWritten = false) : refselApplied (u.f MST_REFSEL_SRC) u = u := by
  unfold refselApplied
  dsimp only
  rw [if_neg (not_not_intro rfl), if_neg (by simp [hw]), ← hw]

/-- The commit of routes changes the matrix, and otherwise at most what a dropped pulse leaves (R297). -/
theorem routesApplied_only (old : Nat → Nat) (s : State) : PulseOnly s (routesApplied old s) := by
  unfold routesApplied
  refine (PulseOnly.rig (.refl s) _).trans (foldl_pulseOnly _ (fun t r => ?_) _ _)
  split <;> [exact enterRoute_only _ _ _; exact .refl t]

theorem PulseOnly.route {s t : State} (h : PulseOnly s t) (k : Nat) : t.reg64 (RIG_ROUTE k) = s.reg64 (RIG_ROUTE k) := by
  have hne (a : Nat) (ha : 0x21000 ≤ a) : t.reg a = s.reg a :=
    h.reg (by rw [RIG_STATUS]; omega) (by rw [RIG_DLYINFO]; omega)
  rw [State.reg64, State.reg64, hne _ (by rw [RIG_ROUTE]; omega), hne _ (by rw [RIG_ROUTE]; omega)]

/-- A sheave unit whose window and CPR are as before keeps them (R265, R288). -/
theorem sheaveApplied_same (k : Nat) (u : State) :
    sheaveApplied k (u.f (SHV_SPDCFG_SPDWIN k)) (u.f (SHV_CPR_CPR k)) u = u := by simp [sheaveApplied]

theorem commitRange_off {off lo hi : Nat} (h : commitRange off = some (lo, hi)) : off = lo + 0x40 := by
  unfold commitRange at h
  dsimp only at h
  split_ifs at h <;> simp only [Option.some.injEq, Prod.mk.injEq] at h <;> omega

/-- Ports, arbiters and Forestay apply their fields and do no more (R12). -/
theorem applyBlock_plain {off lo hi : Nat} (h : commitRange off = some (lo, hi)) (tp : Time) (s : State)
    (h3 : lo ≠ 0 ∧ lo ≠ 0x10000 ∧ lo ≠ 0x20000) (h5 : ¬ (0x50000 ≤ lo ∧ lo < 0x54000)) (h6 : ¬ (0x60000 ≤ lo ∧ lo < 0x64000)) :
    applyBlock tp off s = applyFields lo hi (setArmed off 0 s) := by
  have ho := commitRange_off h
  have hg : off ≠ GLB_COMMIT ∧ off ≠ KLN_COMMIT ∧ off ≠ RIG_COMMIT := by
    rw [GLB_COMMIT, KLN_COMMIT, RIG_COMMIT]; omega
  simp [applyBlock, h, hg, h5, h6]

/-! ### The block of an engine -/

theorem commitRange_COIL_COMMIT (e : Fin 17) : commitRange (COIL_COMMIT e) = some (COIL_CTRL e, COIL_CTRL e + 0x400) := by
  revert e; decide

theorem commitEngine_COIL_COMMIT (e : Fin 17) : commitEngine (COIL_COMMIT e) = some e.val := by revert e; decide

theorem rwsMask_COIL_CTRL (e : Fin 17) : rwsMask (COIL_CTRL e) = 19 := by rw [rwsMask, rowAt_COIL_CTRL]; rfl

/-- The CMD that applies is the staged one (R138). -/
theorem mergedWord_COIL_CTRL_cmd (s : State) (e : Fin 17) :
    bitsOf (s.mergedWord (COIL_CTRL e)).toNat 0 2 = bitsOf (s.stg (COIL_CTRL e)).toNat 0 2 := by
  have hne : COIL_CTRL e ≠ MST_TRIM := by rw [COIL_CTRL, MST_TRIM]; omega
  have hmask : ∀ i, i < 2 → (19#32).getLsbD i = true := by decide
  refine Nat.eq_of_testBit_eq fun i => ?_
  rw [bitsOf_testBit, bitsOf_testBit, Nat.zero_add]
  by_cases hi : i < 2
  · rw [State.mergedWord, if_neg hne, rwsMask_COIL_CTRL]
    simp only [BitVec.testBit_toNat, BitVec.getLsbD_or, BitVec.getLsbD_and, BitVec.getLsbD_not, hmask i hi]
    simp
  · simp [hi]

/-- CMD of engine e and its staged value return to none (R138). -/
def cmdNone (e : Nat) (s : State) : State :=
  let t := s.setF (COIL_CTRL_CMD e) 0
  t.setStg (COIL_CTRL e) (BitVec.ofNat 32 (setBits (t.stg (COIL_CTRL e)).toNat 0 2 0))

theorem applyCommand_eq (e : Nat) (s : State) :
    applyCommand e s = applyCmd e (s.f (COIL_CTRL_CMD e)) ((cmdNone e s).f KLN_PERIOD_PERIOD) (cmdNone e s) := rfl

theorem COIL_CTRL_CMD_narrow (e : Nat) : (COIL_CTRL_CMD e).lo + (COIL_CTRL_CMD e).w ≤ 32 := by
  show 0 + 2 ≤ 32; decide

theorem State.setF_reg_same (s : State) (F : Fld) (v : Nat) (h : F.lo + F.w ≤ 32) :
    (s.setF F v).reg F.off = BitVec.ofNat 32 (setBits (s.reg F.off).toNat F.lo F.w v) := by
  rw [State.setF, if_pos h, State.setReg_reg_same]

theorem cmdNone_eq (e : Nat) (s : State) :
    cmdNone e s = { s with regs := (cmdNone e s).regs, staged := (cmdNone e s).staged } := by
  unfold cmdNone
  rw [State.setF_eq]; rfl

theorem cmdNone_reg_ne (e : Nat) (s : State) {o : Nat} (h : o ≠ COIL_CTRL e) : (cmdNone e s).reg o = s.reg o := by
  rw [cmdNone, State.setStg_reg, State.setF_reg_ne _ _ _ (COIL_CTRL_CMD_narrow e) h]

theorem cmdNone_cmd (e : Nat) (s : State) : (cmdNone e s).f (COIL_CTRL_CMD e) = 0 := by
  rw [cmdNone, State.setStg_f, State.setF_f_same _ _ _ (COIL_CTRL_CMD_narrow e), Nat.zero_mod]

theorem cmdNone_stg (e : Nat) (s : State) : bitsOf ((cmdNone e s).stg (COIL_CTRL e)).toNat 0 2 = 0 := by
  rw [cmdNone, State.setStg_stg_same, BitVec.toNat_ofNat, Nat.mod_eq_of_lt (setBits_lt (by decide) (BitVec.isLt _)),
    bitsOf_setBits_same, Nat.zero_mod]

theorem cmdNone_reg_bit (e : Nat) (s : State) {i : Nat} (hi : 2 ≤ i) :
    ((cmdNone e s).reg (COIL_CTRL e)).getLsbD i = (s.reg (COIL_CTRL e)).getLsbD i := by
  rw [cmdNone, State.setStg_reg]
  rw [show COIL_CTRL e = (COIL_CTRL_CMD e).off from rfl, State.setF_reg_same _ _ _ (COIL_CTRL_CMD_narrow e)]
  rw [BitVec.getLsbD_ofNat, show (COIL_CTRL_CMD e).lo = 0 from rfl, show (COIL_CTRL_CMD e).w = 2 from rfl, setBits_testBit,
    if_neg (by omega), if_neg (by omega), BitVec.testBit_toNat]
  by_cases h : i < 32
  · simp [h]
  · simp [h, BitVec.getLsbD_of_ge _ _ (Nat.le_of_not_lt h)]

/-- The command of an engine whose fields have applied acts, and CMD and its staged value are none again (R138). -/
theorem applyCommand_taken {e : Fin 17} {s u : State}
    (h : FieldsApplied (COIL_COMMIT e) (COIL_CTRL e) (COIL_CTRL e + 0x400) s u) : ∃ v, CommandTaken e s v ∧
    applyCommand e u = applyCmd e (bitsOf (s.stg (COIL_CTRL e)).toNat 0 2) (s.f KLN_PERIOD_PERIOD) v := by
  obtain ⟨hu, harm, harms, hregs⟩ := id h
  have hctrl : u.reg (COIL_CTRL e) = s.mergedWord (COIL_CTRL e) := by rw [hregs, if_pos ⟨le_refl _, by omega⟩]
  have hkln : (cmdNone e u).kln = u.kln := by rw [cmdNone_eq]
  have hcmd : u.f (COIL_CTRL_CMD e) = bitsOf (s.stg (COIL_CTRL e)).toNat 0 2 := by
    rw [← mergedWord_COIL_CTRL_cmd, ← hctrl]
    exact State.f_narrow _ _ (COIL_CTRL_CMD_narrow e)
  have hper : (cmdNone e u).f KLN_PERIOD_PERIOD = s.f KLN_PERIOD_PERIOD := by
    refine State.f_congr _ (by decide) ?_
    rw [cmdNone_reg_ne _ _ (by simp [KLN_PERIOD_PERIOD, KLN_PERIOD, COIL_CTRL]; omega)]
    exact h.reg_outside (by simp [KLN_PERIOD_PERIOD, KLN_PERIOD, COIL_CTRL]; omega)
  refine ⟨cmdNone e u, ⟨?_, ?_, fun o ho => ?_, cmdNone_cmd e u, cmdNone_stg e u, fun o ho => ?_, fun i hi => ?_⟩, ?_⟩
  · rw [cmdNone_eq, hu]
  · rw [State.armedAt, hkln]; exact harm
  · rw [State.armedAt, hkln]; exact harms o ho
  · rw [cmdNone_reg_ne _ _ ho, hregs]
  · rw [cmdNone_reg_bit _ _ hi, hctrl]
  · rw [applyCommand_eq, hcmd, hper]

/-- The commit of an engine's block applies, and its command is taken (R12, R138). -/
theorem applyBlock_engine (e : Fin 17) (tp : Time) (s : State) : ∃ v, CommandTaken e s v ∧
    applyCommand e (applyBlock tp (COIL_COMMIT e) s) =
      applyCmd e (bitsOf (s.stg (COIL_CTRL e)).toNat 0 2) (s.f KLN_PERIOD_PERIOD) v := by
  have hlo : COIL_CTRL e = 0x90000 + 0x400 * e.val := rfl
  rw [applyBlock_plain (commitRange_COIL_COMMIT e) tp s (by omega) (by omega) (by omega)]
  exact applyCommand_taken (applyFields_applied _ _ _ s)

/-! ### Applies without ticks, and at a boundary -/

/-- An armed block stays as it is while ticks are issued or HOLD is 1, before its cycle, or where its domain is off (R14, R70). -/
theorem commitNoTick_not_due {off : Nat} {s : State} (h : s.armedAt off < 2 ∨ s.mc + 2 < s.armedAt off ∨ s.ticking = true ∨
    s.flag KLN_CTRL_HOLD = true ∨ s.on (offDom off) = false ∧ (commitEngine off).isSome = false) : commitNoTick off s = s := by
  unfold commitNoTick
  dsimp only
  rw [if_pos]
  simpa [State.canApply, or_assoc] using h

/-- In its cycle an armed block applies, and with it the command of an engine (R14, R138). -/
theorem commitNoTick_due {off : Nat} {s : State} (h2 : 2 ≤ s.armedAt off) (hm : s.armedAt off ≤ s.mc + 2)
    (ht : s.ticking = false) (hh : s.flag KLN_CTRL_HOLD = false) (ha : s.canApply off = true) :
    commitNoTick off s =
      (commitEngine off).elim (applyBlock s.now off s) fun e => applyCommand e (applyBlock s.now off s) := by
  unfold commitNoTick
  dsimp only
  rw [if_neg (by simp [ht, hh, ha]; omega)]
  cases commitEngine off <;> rfl

/-- At a boundary at which only the block of engine e is armed, it applies and its command is taken (R12, R138). -/
theorem applyAll_engine {e : Fin 17} {a : Nat} {s : State} (h : s.kln.armed = [(COIL_COMMIT e, a)]) (B : Time) :
    applyAll B s = applyCommand e (applyBlock B (COIL_COMMIT e) s) := by
  have hne : COIL_COMMIT e ≠ KLN_COMMIT := by rw [COIL_COMMIT, KLN_COMMIT]; omega
  have hk : s.armedAt KLN_COMMIT = 0 := by rw [State.armedAt, h, mget, if_neg hne, mget]
  have ha : s.canApply (COIL_COMMIT e) = true := by simp [State.canApply, commitEngine_COIL_COMMIT]
  simp [applyAll, hk, h, ha, hne, Ne.symm hne, commitEngine_COIL_COMMIT]

/-- A block without an engine that applies: its fields, and what follows from them (R12, R38, R237, R258, R265, R297). -/
theorem applyBlock_cases {off lo hi : Nat} (h : commitRange off = some (lo, hi)) (tp : Time) (s : State) :
    ∃ u, FieldsApplied off lo hi s u ∧
      (lo = 0x40000 ∨ lo = 0xA0000 ∨ 0x80000 ≤ lo ∧ lo < 0x86000 → applyBlock tp off s = u) ∧
      (off = GLB_COMMIT → applyBlock tp off s = sheaveOwners u) ∧
      (off = KLN_COMMIT → applyBlock tp off s = refselApplied (s.f MST_REFSEL_SRC) u) ∧
      (off = RIG_COMMIT → applyBlock tp off s = routesApplied (fun k => s.reg64 (RIG_ROUTE k)) u) ∧
      (∀ w, w < 4 → lo = 0x50000 + 0x1000 * w → applyBlock tp off s = (List.range 64).foldl (fun t k => slotApply w k tp t) u) ∧
      (∀ k, k < 8 → lo = 0x60000 + 0x800 * k →
        applyBlock tp off s = sheaveApplied k (s.f (SHV_SPDCFG_SPDWIN k)) (s.f (SHV_CPR_CPR k)) u) := by
  have ho := commitRange_off h
  have hne (hlo : 0x50000 ≤ lo) : off ≠ GLB_COMMIT ∧ off ≠ KLN_COMMIT ∧ off ≠ RIG_COMMIT := by
    rw [GLB_COMMIT, KLN_COMMIT, RIG_COMMIT]; omega
  refine ⟨applyFields lo hi (setArmed off 0 s), applyFields_applied off lo hi s, fun hlo => ?_, fun hg => ?_, fun hk => ?_,
    fun hr => ?_, fun w hw hlo => ?_, fun k hk hlo => ?_⟩
  · exact applyBlock_plain h tp s (by omega) (by omega) (by omega)
  · subst hg; simp [applyBlock, h]
  · subst hk; simp [applyBlock, h, show KLN_COMMIT ≠ GLB_COMMIT by decide]
  · subst hr; simp [applyBlock, h, show RIG_COMMIT ≠ GLB_COMMIT by decide, show RIG_COMMIT ≠ KLN_COMMIT by decide]
  · have hi : (lo - 0x50000) / 0x1000 = w := by omega
    simp only [applyBlock, h, hne (by omega), if_false]
    rw [if_pos (by simp; omega), hi]
  · have hi : (lo - 0x60000) / 0x800 = k := by omega
    simp only [applyBlock, h, hne (by omega), if_false]
    rw [if_neg (by simp; omega), if_pos (by simp; omega), hi]

end Sys2Proof.Machine

namespace Sys2Proof

open Machine Reg

/-- Settles O3: a COMMIT register's write arms; an armed block applies its fields by one merge of each register, with what
follows in the block; an engine's block applies likewise without ticks and at a boundary. -/
theorem commitsArmAndApply : Obligations.CommitsArmAndApply := by
  refine ⟨fun req off s hoff hr => ?arm, fun off lo hi s hoff => ⟨fun hnot => ?wait, fun h2 hm ht hh => ⟨fun e he => ?engine,
    fun hne hon => ?block⟩⟩, fun e a B s h => ?boundary⟩
  case arm =>
    have hexec : exec (.commit req off) s = .next (arm off s) := by
      show Host.Outcome.next (if _ then _ else _) = _
      rw [if_pos hoff, softWrite_commit hoff req hr]
    rw [hexec]
    refine ⟨fun h => by rw [arm, if_pos h], fun h => ⟨_, rfl, ?_, ?_, fun o ho => ?_⟩⟩
    all_goals rw [arm, if_neg (not_not_intro h)]
    · rw [setArmed_armedAt_same]; simp
    · rfl
    · exact setArmed_armedAt_ne s _ ho
  case wait => exact congrArg Host.Outcome.next (commitNoTick_not_due hnot)
  case engine =>
    have hc := commitEngine_COIL_COMMIT e
    obtain ⟨v, hv, happly⟩ := applyBlock_engine e s.now s
    refine ⟨v, hv, congrArg Host.Outcome.next ?_⟩
    rw [commitNoTick_due h2 hm ht hh (by simp [he, State.canApply, hc]), he, hc]
    exact happly
  case block =>
    have hexec : exec (.commitApplyNoTick off) s = .next (applyBlock s.now off s) := by
      refine congrArg Host.Outcome.next ?_
      have hnone : commitEngine off = none := Option.isNone_iff_eq_none.mp (Option.isSome_eq_false_iff.mp hne)
      rw [commitNoTick_due h2 hm ht hh (by rw [State.canApply, hon]; rfl), hnone]
      rfl
    obtain ⟨u, hu, hplain, hglb, hkln, hrig, hwhl, hshv⟩ := applyBlock_cases hoff s.now s
    refine ⟨u, _, hu, hexec, hplain, fun ho => ⟨hglb ho, fun hidle => ?_⟩, fun ho => ⟨hkln ho, fun hsrc hw => ?_⟩,
      fun ho => ⟨hrig ho, fun k _ => ?_⟩, fun w => hwhl w w.isLt, fun k hk => ⟨hshv k k.isLt hk, fun hwin hcpr => ?_⟩⟩
    · rw [hglb ho, sheaveOwners_idle hidle]
    · rw [hkln ho, ← hsrc]
      exact refselApplied_same (by rw [hu.1]; exact hw)
    · rw [hrig ho]; exact (routesApplied_only _ u).route k
    · rw [hshv k k.isLt hk, ← hwin, ← hcpr, sheaveApplied_same]
  case boundary =>
    rw [applyAll_engine h B]
    exact applyBlock_engine e B s

end Sys2Proof
end

section
/-! Port ownership, and the clears of the error records (R26 to R30, R383). -/

namespace Sys2Proof.Machine

open Sys2Proof Reg

/-! ### Writes of GLB_ registers -/

/-- A write to a register that has staged fields alone changes their staged values, and nothing else (R10, R11). -/
theorem genWrite_staged {off p : Nat} {r : Row} (hrow : rowAt off = some (r, p)) (hrw : partOf r.rw p = 0)
    (hrws : partOf r.rws p ≠ 0) (hrwl : partOf r.rwl p = 0) (hw1c : partOf r.w1c p = 0) (req : Nat) (v : Word)
    (enabled : Bool) (s : State) :
    genWrite req off v enabled s = s.setStg off (merge (s.stg off) v (partOf r.rws p)) := by
  simp only [genWrite, hrow, hrw, hrwl, hw1c, if_true, if_neg hrws]

/-- A field whose bits a mask names is taken from the written word. -/
theorem bitsOf_merge (w v : Word) {m lo n : Nat} (hm : ∀ i, i < n → (BitVec.ofNat 32 m).getLsbD (lo + i) = true) :
    bitsOf (merge w v m).toNat lo n = bitsOf v.toNat lo n := by
  refine Nat.eq_of_testBit_eq fun i => ?_
  rw [bitsOf_testBit, bitsOf_testBit]
  by_cases hi : i < n
  · simp only [merge, BitVec.testBit_toNat, BitVec.getLsbD_or, BitVec.getLsbD_and, BitVec.getLsbD_not, hm i hi]
    simp
  · simp [hi]

/-- An INDEX is in the range of its TYPE (R27). -/
theorem ownerOk_iff (v : Nat) : ownerOk v = true ↔
    bitsOf v 8 2 = 0 ∨ bitsOf v 8 2 = 1 ∧ bitsOf v 0 5 < 16 ∨ bitsOf v 8 2 = 2 ∧ bitsOf v 0 5 < 4 ∨
      bitsOf v 8 2 = 3 ∧ bitsOf v 0 5 < 8 := by
  have hty : bitsOf v 8 2 < 4 := bitsOf_lt v 8 2
  unfold ownerOk
  split
  case h_1 h | h_2 h | h_3 h => simp [h]
  case h_4 h1 h2 h3 => exact iff_of_true rfl (.inl (by grind))

theorem exec_portownWrite {s : State} {p : Fin 96} (hr : s.reaches (GLB_PORTOWN p)) (req : Fin 4) (v : Word) :
    exec (.portownWrite req p v) s = .next (checkedWrite req (GLB_PORTOWN p) v false (ownerOk v.toNat) s) := by
  have hrow := rowAt_GLB_PORTOWN p
  have hoff : GLB_PORTOWN p = 0x400 + 4 * p.val := rfl
  have hblk : GLB_PORTOWN p / 0x10000 = 0 := by omega
  have hne : GLB_PORTOWN p ≠ GLB_COMMIT ∧ GLB_PORTOWN p ≠ GLB_RDMODE ∧ GLB_PORTOWN p ≠ GLB_WERR ∧
      GLB_PORTOWN p ≠ GLB_PWRCTL ∧ GLB_PORTOWN p ≠ GLB_BLKRST ∧ GLB_PORTOWN p ≠ GLB_OWNERR := by
    rw [GLB_COMMIT, GLB_RDMODE, GLB_WERR, GLB_PWRCTL, GLB_BLKRST, GLB_OWNERR]; omega
  have hrange : 0x400 ≤ GLB_PORTOWN p ∧ GLB_PORTOWN p < 0x580 := by omega
  refine congrArg Host.Outcome.next ?_
  rw [softWrite_reaches _ _ hr (by rw [wideRw, hrow]; rfl)]
  simp [putWord, hblk, hrow, writeGlb, hne, hrange]

/-- What a GLB_PORTOWN write with an INDEX in range stages (R11, R27). -/
theorem genWrite_PORTOWN (req : Nat) (p : Fin 96) (v : Word) (s : State) :
    genWrite req (GLB_PORTOWN p) v false s = s.setStg (GLB_PORTOWN p) (merge (s.stg (GLB_PORTOWN p)) v 0x31F) :=
  genWrite_staged (rowAt_GLB_PORTOWN p) rfl (by decide) rfl rfl req v false s

/-! ### Clears of error records -/

/-- A write of one field to a register without settings carries that field alone (R10). -/
theorem setField_of_kept_zero {F : Fld} {s : State} (hr : s.reaches F.off) (hw : wideRw F.off = none)
    (hk : s.kept F.off = 0) (req x : Nat) :
    setField req F x s = putWord req F.off (BitVec.ofNat 32 (setBits 0 F.lo F.w x)) s := by
  rw [setField, softWrite_reaches _ _ hr hw, hk]; rfl

theorem exec_ownerrClr {s : State} (hr : s.reaches GLB_OWNERR) (req : Fin 4) :
    exec (.ownerrClr req) s = .next (ownerrClr s) := by
  have hrow := rowAt_GLB_OWNERR
  refine congrArg Host.Outcome.next ?_
  rw [setField_of_kept_zero hr (by decide) (by simp [State.kept, GLB_OWNERR_CLR, hrow, partOf])]
  simp [putWord, GLB_OWNERR_CLR, hrow, writeGlb, show GLB_OWNERR / 0x10000 = 0 from rfl, show GLB_OWNERR ≠ GLB_COMMIT by decide,
    show GLB_OWNERR ≠ GLB_RDMODE by decide, show GLB_OWNERR ≠ GLB_WERR by decide, show GLB_OWNERR ≠ GLB_PWRCTL by decide,
    show GLB_OWNERR ≠ GLB_BLKRST by decide, show (BitVec.ofNat 32 (setBits 0 7 1 1)).getLsbD 7 = true by decide]

/-- GLB_WERR.CLR acts, and leaves WERR, which a write of 1 to it alone would clear (R15, R383). -/
theorem exec_werrClr {s : State} (hr : s.reaches GLB_WERR) (req : Fin 4) :
    exec (.werrClr req) s = .next (werrClr (s.setReg GLB_WERR (s.reg GLB_WERR))) := by
  have hrow := rowAt_GLB_WERR
  have hgen : genWrite req GLB_WERR (BitVec.ofNat 32 (setBits 0 1 1 1)) false s = s.setReg GLB_WERR (s.reg GLB_WERR) := by
    have hmask : BitVec.ofNat 32 (setBits 0 1 1 1) &&& BitVec.ofNat 32 1 = 0 := by decide
    have hall : s.reg GLB_WERR &&& 0xFFFFFFFF#32 = s.reg GLB_WERR := BitVec.and_allOnes
    simp [genWrite, hrow, partOf, hmask, hall]
  refine congrArg Host.Outcome.next ?_
  rw [setField_of_kept_zero hr (by decide) (by simp [State.kept, GLB_WERR_CLR, hrow, partOf])]
  simp [putWord, GLB_WERR_CLR, hrow, writeGlb, show GLB_WERR / 0x10000 = 0 from rfl, show GLB_WERR ≠ GLB_COMMIT by decide,
    show GLB_WERR ≠ GLB_RDMODE by decide, hgen, show (BitVec.ofNat 32 (setBits 0 1 1 1)).getLsbD 1 = true by decide]

theorem clearCnt_onlyRegs (s : State) (F : Fld) {l : List Nat} (hF : F.lo + F.w ≤ 32) (h : F.off ∈ l) :
    OnlyRegs s (s.clearCnt F) l := setF_onlyRegs s F _ hF h

/-- Without a discard in the same cycle the clear takes the records with it (R30). -/
theorem ownerrClr_of_none {s : State} (h : s.noted GLB_OWNERR_COUNT = 0) :
    ownerrClr s = (((s.clearCnt GLB_OWNERR_COUNT).setF GLB_OWNERR_SRC_TYPE 0).setF GLB_OWNERR_SRC_INDEX 0).setF
      GLB_OWNERR_PORT 0 := if_pos h

/-- The records of a discard of the same cycle stay (R30). -/
theorem ownerrClr_of_noted {s : State} (h : s.noted GLB_OWNERR_COUNT ≠ 0) : ownerrClr s = s.clearCnt GLB_OWNERR_COUNT :=
  if_neg h

theorem ownerrClr_onlyRegs (s : State) : OnlyRegs s (ownerrClr s) [GLB_OWNERR] := by
  have hcnt := clearCnt_onlyRegs s GLB_OWNERR_COUNT (l := [GLB_OWNERR]) (by decide) (by decide)
  by_cases h : s.noted GLB_OWNERR_COUNT = 0
  · rw [ownerrClr_of_none h]
    exact ((hcnt.trans (setF_onlyRegs _ _ _ (by decide) (by decide))).trans (setF_onlyRegs _ _ _ (by decide) (by decide))).trans
      (setF_onlyRegs _ _ _ (by decide) (by decide))
  · rwa [ownerrClr_of_noted h]

theorem ownerrClr_count (s : State) : (ownerrClr s).f GLB_OWNERR_COUNT = min (s.noted GLB_OWNERR_COUNT) 0xFFFF := by
  have hcnt := State.clearCnt_f_same s GLB_OWNERR_COUNT (by decide)
  by_cases h : s.noted GLB_OWNERR_COUNT = 0
  · rw [ownerrClr_of_none h]
    simp (disch := decide) only [State.setF_f_ne]
    exact hcnt
  · rwa [ownerrClr_of_noted h]

/-- Without a refusal in the same cycle the clear takes the requester and the address with it (R383). -/
theorem werrClr_of_none {s : State} (h : s.noted GLB_WERR_COUNT = 0) :
    werrClr s = ((s.clearCnt GLB_WERR_COUNT).setF GLB_WERR_REQ 0).setReg GLB_WERRADDR 0 := if_pos h

/-- The requester and the address of a refusal of the same cycle stay (R383). -/
theorem werrClr_of_noted {s : State} (h : s.noted GLB_WERR_COUNT ≠ 0) : werrClr s = s.clearCnt GLB_WERR_COUNT := if_neg h

theorem werrClr_onlyRegs (s : State) : OnlyRegs s (werrClr s) [GLB_WERR, GLB_WERRADDR] := by
  have hcnt := clearCnt_onlyRegs s GLB_WERR_COUNT (l := [GLB_WERR, GLB_WERRADDR]) (by decide) (by decide)
  by_cases h : s.noted GLB_WERR_COUNT = 0
  · rw [werrClr_of_none h]
    exact (hcnt.trans (setF_onlyRegs _ _ _ (by decide) (by decide))).trans (setReg_onlyRegs _ _ (by decide))
  · rwa [werrClr_of_noted h]

/-- Beside the requester and the address the clear of GLB_WERR changes the count alone (R383). -/
theorem werrClr_f (s : State) {F : Fld} (hF : F.lo + F.w ≤ 32) (haddr : F.off ≠ GLB_WERRADDR)
    (hreq : F.off ≠ GLB_WERR_REQ.off ∨ F.lo + F.w ≤ GLB_WERR_REQ.lo ∨ GLB_WERR_REQ.lo + GLB_WERR_REQ.w ≤ F.lo) :
    (werrClr s).f F = (s.clearCnt GLB_WERR_COUNT).f F := by
  by_cases h : s.noted GLB_WERR_COUNT = 0
  · rw [werrClr_of_none h, State.setReg_f_ne _ _ _ hF haddr, State.setF_f_ne _ _ _ _ (by decide) hF hreq]
  · rw [werrClr_of_noted h]

theorem werrClr_werr (s : State) : (werrClr s).f GLB_WERR_WERR = s.f GLB_WERR_WERR :=
  (werrClr_f s (by decide) (by decide) (by decide)).trans (State.clearCnt_f_ne _ _ _ (by decide) (by decide) (by decide))

theorem werrClr_count (s : State) : (werrClr s).f GLB_WERR_COUNT = min (s.noted GLB_WERR_COUNT) 0xFFFF :=
  (werrClr_f s (by decide) (by decide) (by decide)).trans (State.clearCnt_f_same _ _ (by decide))

/-- A register that is written with the value it holds reads as before. -/
theorem State.setReg_self_reg (s : State) (a o : Nat) : (s.setReg a (s.reg a)).reg o = s.reg o := by
  by_cases h : o = a
  · rw [h, State.setReg_reg_same]
  · exact State.setReg_reg_ne s _ h

theorem State.setReg_self_f (s : State) (a : Nat) (F : Fld) (h : F.lo + F.w ≤ 32) : (s.setReg a (s.reg a)).f F = s.f F :=
  State.f_congr F h (s.setReg_self_reg a F.off)

end Sys2Proof.Machine

namespace Sys2Proof

open Machine Reg

/-- Settles O4: the write reaches the check of R27, which either stages the owner's fields or refuses the write. -/
theorem portOwnerIsStaged : Obligations.PortOwnerIsStaged := by
  intro req p val s hr
  rw [exec_portownWrite hr]
  refine ⟨fun hok => ?_, fun hbad => ?_⟩
  · rw [(ownerOk_iff val.toNat).mpr hok, checkedWrite, if_pos rfl, genWrite_PORTOWN]
    refine ⟨_, rfl, rfl, ?_, ?_, fun o ho => State.setStg_stg_ne s _ ho⟩
    all_goals rw [State.setStg_stg_same]; exact bitsOf_merge _ _ (by decide)
  · have hno : ownerOk val.toNat = false := by
      rw [Bool.eq_false_iff, ne_eq, ownerOk_iff]; omega
    rw [hno, checkedWrite, if_neg Bool.false_ne_true]
    exact ⟨_, rfl, werr_refused _ _ s⟩

/-- Settles O5: each CLR counts the events of its own cycle anew, and takes the records with it where there are none. -/
theorem errorRecordsClear : Obligations.ErrorRecordsClear := by
  refine ⟨fun req s hr => ⟨_, exec_ownerrClr hr req, ownerrClr_onlyRegs s, ownerrClr_count s, fun h => ?_, fun h => ?_⟩,
    fun req s hr => ⟨_, exec_werrClr hr req, (setReg_onlyRegs s _ (by decide)).trans (werrClr_onlyRegs _), ?_, werrClr_count _,
      fun h => ?_, fun h => ?_⟩⟩
  · rw [ownerrClr_of_none h]
    simp (disch := decide) [State.setF_f_ne, State.setF_f_same]
  · rw [ownerrClr_of_noted h]
    simp (disch := decide) [State.clearCnt_f_ne]
  · rw [werrClr_werr, State.setReg_self_f _ _ _ (by decide)]
  · rw [werrClr_of_none (s := s.setReg GLB_WERR (s.reg GLB_WERR)) h]
    simp (disch := decide) [State.setReg_f_ne, State.setF_f_same]
  · rw [werrClr_of_noted (s := s.setReg GLB_WERR (s.reg GLB_WERR)) h, State.clearCnt_f_ne _ _ _ (by decide) (by decide) (by decide),
      State.clearCnt_reg_ne _ _ (by decide) (by decide), State.setReg_self_f _ _ _ (by decide), State.setReg_self_reg]
    exact ⟨rfl, rfl⟩

end Sys2Proof
end

section
/-! The end of LOSSTO on the field die (R492). -/

namespace Sys2Proof.Machine

open Sys2Proof Reg

/-- A field die whose link has been lost for LOSSTO, and whose timebase runs on (R492). Port 0 drives its output. Its counter has formed
a PULSE for the boundary that begins the present cycle, which waits for a queued action of the same time (R176, R196). -/
def lossToPassed : State := { (State.reset.setF (PRT_CTRL_EN 0) 1).setF (PRT_IOCFG_MODE 0) 2 with
  kln.mc := 20000
  kln.copy := some (0, true)
  pwr.phys := 0x7000
  stay.lostAt := some 0
  ports := [(0, { queue := [⟨{ code := 1 }, false, 0⟩], later := [(0, .code 4 512)] })] }

/-- With the queue gone the PULSE that waited for it takes effect, and its pulse end is pending from then on. -/
theorem lossTimeout_leaves_pulseEnd : ((lossTimeout lossToPassed).port 0).pulseEnd = some 512 := by decide +kernel

end Sys2Proof.Machine

namespace Sys2Proof

open Machine Reg

/-- Refutes O53: when LOSSTO has passed, a field port discards its queue, but a PULSE of a boundary that waited for the queue then
takes effect and leaves its pulse end pending, where the statement, as R492, has none. -/
theorem not_stayLinkRecords : ¬ Obligations.StayLinkRecords := by
  rintro ⟨-, -, -, -, -, -, -, -, hloss, -, -⟩
  obtain ⟨-, hpassed⟩ := hloss lossToPassed
  obtain ⟨t, ht, -, -, -, hports⟩ := hpassed 0 rfl (by decide) (by decide)
  have ht : lossTimeout lossToPassed = t := Host.Outcome.next.inj ht
  obtain ⟨-, hfield⟩ := hports 0
  obtain ⟨-, hpulse, -⟩ := hfield (by decide) (by decide)
  rw [← ht, lossTimeout_leaves_pulseEnd] at hpulse
  cases hpulse

end Sys2Proof
end

section
/-! The slot table (R73 to R75). -/

namespace Sys2Proof.Machine

open Sys2Proof Reg

/-- A register that is not repeated lies at no offset beyond its two words (R8). -/
theorem rowPart_beyond {r : Row} {off : Nat} (h1 : r.n1 = 1) (h2 : r.n2 = 1) (h : r.base + 4 < off) :
    rowPart r off = none := by
  unfold rowPart
  simp only [h1, h2, if_true]
  grind

theorem findRow_cons_beyond {r : Row} {rs : List Row} {off : Nat} (h : r.n1 = 1 ∧ r.n2 = 1 ∧ r.base + 4 < off) :
    findRow (r :: rs) off = findRow rs off := by
  obtain ⟨h1, h2, hoff⟩ := h
  rw [findRow, rowPart_beyond h1 h2 hoff]

theorem KLN_SLOT_off (k : Fin 2) (n : Fin 1024) : KLN_SLOT k n = 0x14000 + 0x1000 * k.val + 4 * n.val := rfl

/-- An entry of the slot table lies beyond every other register of its block (R18, R73). -/
theorem rowAt_KLN_SLOT (k : Fin 2) (n : Fin 1024) :
    rowAt (KLN_SLOT k n) = some (⟨0x14000, 0x1000, 2, 0x4, 1024, false, 0x1F1F, 0, 0, 0, 0x1E1E⟩, 0) := by
  have hoff := KLN_SLOT_off k n
  have hpart : rowPart ⟨0x14000, 0x1000, 2, 0x4, 1024, false, 0x1F1F, 0, 0, 0, 0x1E1E⟩ (KLN_SLOT k n) = some 0 := by
    have hk : (KLN_SLOT k n - 0x14000) / 0x1000 = k := by omega
    have hn : (KLN_SLOT k n - 0x14000 - k * 0x1000) / 4 = n := by omega
    have hd : KLN_SLOT k n - 0x14000 - k * 0x1000 - n * 4 = 0 := by omega
    simp [rowPart, hk, hn, hd]
    omega
  rw [rowAt, show KLN_SLOT k n / 0x10000 = 1 by omega]
  simp (disch := dsimp only; omega) only [rowsOf, mstRows, findRow_cons_beyond]
  simp only [findRow, hpart]

theorem exec_slotTableWrite {s : State} {k : Fin 2} {n : Fin 1024} (hr : s.reaches (KLN_SLOT k n)) (req : Fin 4) (v : Word) :
    exec (.slotTableWrite req k n v) s = .next (slotTableWrite req k n v.toNat s) := by
  have hrow := rowAt_KLN_SLOT k n
  have hoff := KLN_SLOT_off k n
  have hblk : KLN_SLOT k n / 0x10000 = 1 := by omega
  have hne : KLN_SLOT k n ≠ MST_CTRL ∧ KLN_SLOT k n ≠ MST_REFSEL ∧ KLN_SLOT k n ≠ KLN_COMMIT ∧ KLN_SLOT k n ≠ KLN_CTRL ∧
      KLN_SLOT k n ≠ KLN_PERIOD := by
    rw [MST_CTRL, MST_REFSEL, KLN_COMMIT, KLN_CTRL, KLN_PERIOD]; omega
  have hrange : 0x14000 ≤ KLN_SLOT k n ∧ KLN_SLOT k n < 0x16000 := by omega
  have hk : (KLN_SLOT k n - 0x14000) / 0x1000 = k := by omega
  have hn : (KLN_SLOT k n - 0x14000) % 0x1000 / 4 = n := by omega
  refine congrArg Host.Outcome.next ?_
  rw [softWrite_reaches _ _ hr (by rw [wideRw, hrow]; rfl)]
  simp [putWord, hblk, hrow, writeMst, hne, hrange, hk, hn]

/-- The codes that R74 lists for a command slot. -/
theorem slotCode_cmd_iff (c : Nat) : slotCode true c = true ↔ c < 0x14 ∨ c = 0x1E ∨ c = 0x1F := by simp [slotCode, or_assoc]

/-- The codes that R74 lists for a capture slot. -/
theorem slotCode_cap_iff (c : Nat) : slotCode false c = true ↔ c < 0x1C ∨ c = 0x1E ∨ c = 0x1F := by
  simp [slotCode, or_assoc]; omega

/-- The copy in use takes no write (R75). -/
theorem slotTableWrite_inUse {s : State} {k : Nat} (h : s.f KLN_SLOTSEL_ACTIVE = k) (req n v : Nat) :
    slotTableWrite req k n v s = werr req (KLN_SLOT k n) (s.raise KLN_STATUS_SLOTWR) := if_pos h

theorem slotTableWrite_listed {s : State} {k v : Nat} (h : s.f KLN_SLOTSEL_ACTIVE ≠ k) (hcmd : slotCode true (bitsOf v 0 5) = true)
    (hcap : slotCode false (bitsOf v 8 5) = true) (req n : Nat) : slotTableWrite req k n v s =
      (s.setF (KLN_SLOT_CMD_OWNER k n) (bitsOf v 0 5)).setF (KLN_SLOT_CAP_OWNER k n) (bitsOf v 8 5) := by
  rw [slotTableWrite, if_neg h, if_pos (by rw [hcmd, hcap]; rfl)]

theorem slotTableWrite_unlisted {s : State} {k v : Nat} (h : s.f KLN_SLOTSEL_ACTIVE ≠ k)
    (hcode : ¬ (slotCode true (bitsOf v 0 5) = true ∧ slotCode false (bitsOf v 8 5) = true)) (req n : Nat) :
    slotTableWrite req k n v s = werr req (KLN_SLOT k n) s := by
  rw [slotTableWrite, if_neg h, if_neg (by simpa using hcode)]

theorem KLN_SLOT_CMD_OWNER_narrow (k n : Nat) : (KLN_SLOT_CMD_OWNER k n).lo + (KLN_SLOT_CMD_OWNER k n).w ≤ 32 := by
  show 0 + 5 ≤ 32; decide

theorem KLN_SLOT_CAP_OWNER_narrow (k n : Nat) : (KLN_SLOT_CAP_OWNER k n).lo + (KLN_SLOT_CAP_OWNER k n).w ≤ 32 := by
  show 8 + 5 ≤ 32; decide

end Sys2Proof.Machine

namespace Sys2Proof

open Machine Reg

/-- Settles O10: the write reaches the check of R73 to R75, which takes both codes where R74 lists them. -/
theorem slotTableWrite : Obligations.SlotTableWrite := by
  intro req k n val s hr
  rw [exec_slotTableWrite hr]
  refine ⟨fun huse => ?inUse, fun hfree hcmd hcap => ?listed, fun hfree hcode => ?unlisted⟩
  case inUse =>
    rw [slotTableWrite_inUse huse]
    exact ⟨_, rfl, werr_refused _ _ _⟩
  case listed =>
    have hw := KLN_SLOT_CMD_OWNER_narrow k n
    have hw' := KLN_SLOT_CAP_OWNER_narrow k n
    rw [slotTableWrite_listed hfree ((slotCode_cmd_iff _).mpr hcmd) ((slotCode_cap_iff _).mpr hcap)]
    refine ⟨_, rfl, ?_, ?_, (setF_onlyRegs _ _ _ hw (List.mem_singleton.mpr rfl)).trans
      (setF_onlyRegs _ _ _ hw' (List.mem_singleton.mpr rfl))⟩
    · rw [State.setF_f_ne _ _ _ _ hw' hw (.inr (.inl (by show 0 + 5 ≤ 8; decide))), State.setF_f_same _ _ _ hw]
      exact Nat.mod_eq_of_lt (bitsOf_lt _ _ _)
    · rw [State.setF_f_same _ _ _ hw']
      exact Nat.mod_eq_of_lt (bitsOf_lt _ _ _)
  case unlisted =>
    rw [slotTableWrite_unlisted hfree fun ⟨hcmd, hcap⟩ => by
      rw [slotCode_cmd_iff] at hcmd; rw [slotCode_cap_iff] at hcap; omega]
    exact ⟨_, rfl, werr_refused _ _ _⟩

end Sys2Proof
end

section
/-! What a fault of an engine leaves, and the overruns and watchdog faults that make one (R63 to R65, R124, R149, R150, R539). -/

namespace Sys2Proof.Machine

open Sys2Proof Reg

/-! ### CE16 leaves its stand-in -/

theorem leaveStandin_none {st : EngState} {s : State} (h : s.spare.standFor = none) : leaveStandin st s = s := by
  rw [leaveStandin, h]

theorem dropFar_regs (e : Nat) (s : State) : (dropFar e s).regs = s.regs := by rw [dropFar_eq]
theorem dropFar_reg (e : Nat) (s : State) (o : Nat) : (dropFar e s).reg o = s.reg o := by rw [State.reg, dropFar_regs]; rfl
theorem dropFar_faults (e : Nat) (s : State) : (dropFar e s).faults = s.faults := by rw [dropFar_eq]
theorem dropFar_spare (e : Nat) (s : State) : (dropFar e s).spare = s.spare := by rw [dropFar_eq]
theorem dropFar_engines (e : Nat) (s : State) : (dropFar e s).engines = s.engines := by rw [dropFar_eq]
theorem dropFar_eng (e : Nat) (s : State) (k : Nat) : (dropFar e s).eng k = s.eng k := by
  rw [State.eng, dropFar_engines]; rfl

theorem leaveStandin_regs (st : EngState) (s : State) : (leaveStandin st s).regs = s.regs := by
  unfold leaveStandin
  split
  · rfl
  · simp only [State.setEng_regs, State.modEng_regs, dropFar_regs]

theorem leaveStandin_faults (st : EngState) (s : State) : (leaveStandin st s).faults = s.faults := by
  unfold leaveStandin
  split
  · rfl
  · simp only [State.setEng_faults, State.modEng_faults, dropFar_faults]

theorem leaveStandin_spare {st : EngState} {s : State} {n : Nat} (h : s.spare.standFor = some n) :
    (leaveStandin st s).spare = {} := by
  rw [leaveStandin, h]

theorem State.eng_congr {s t : State} (h : t.engines = s.engines) (k : Nat) : t.eng k = s.eng k := congrArg (fun m : SMap Engine => mget m k (engDefault k)) h

/-- CE16 hands its event flags back, and is set anew. -/
theorem leaveStandin_engines {st : EngState} {s : State} {n : Nat} (h : s.spare.standFor = some n) :
    ∃ y, (leaveStandin st s).engines = ((s.modEng n fun x => { x with evin := (s.eng 16).evin }).setEng 16 y).engines := by
  simp only [leaveStandin, h, State.setEng, State.modEng, dropFar_engines, dropFar_eng]
  exact ⟨_, rfl⟩

/-- The engine that CE16 has stood in for takes the event flags of CE16; the others stay (R539). -/
theorem leaveStandin_eng_ne (st : EngState) (s : State) {k : Nat} (hk : k ≠ 16) : (leaveStandin st s).eng k =
    if s.spare.standFor = some k then { s.eng k with evin := (s.eng 16).evin } else s.eng k := by
  cases h : s.spare.standFor with
  | none => rw [leaveStandin_none h, if_neg (by simp)]
  | some n =>
    obtain ⟨y, hy⟩ := leaveStandin_engines (st := st) h
    rw [State.eng_congr hy, State.setEng_eng_ne _ _ hk]
    by_cases hkn : k = n
    · rw [hkn, if_pos rfl, State.modEng_eng_same]
    · rw [if_neg (by simpa using Ne.symm hkn), State.modEng_eng_ne _ _ hkn]

/-! ### The steps of a fault (R150, R539) -/

/-- A fault of engine e is logged and recorded, and its far access is withdrawn. -/
def faultNoted (e code pcw : Nat) (s : State) : State :=
  (((dropFar e (logFault 1 e code pcw s)).setF (COIL_FAULT_CODE e) code).setF (COIL_FAULT_PCW e) pcw).raise (COIL_FLAGS_FAULT e)

/-- A fault of CE16 ends its stand-in. -/
def faultLeaves (e : Nat) (s : State) : State :=
  if e = 16 then { leaveStandin .faulted s with spare.ended := s.spare.standFor } else s

/-- Engine e stops, and waits for its reset. -/
def faultStops (e t0 : Nat) (s : State) : State :=
  s.modEng e fun x => { x with run := none, toRun := false, st := .faulted, resetAt := some t0, stepping := false }

/-- CE16 begins a takeover of engine e where it can. -/
def faultTakes (e t0 : Nat) (r : Option Run) (take : Bool) (s : State) : State :=
  if e ≠ 16 && take && s.canTake e t0 then { s with spare.taking := some (e, t0), spare.taken := r } else s

theorem engineFault_eq (e code pcw ecyc t0 : Nat) (r : Option Run) (take : Bool) (s : State) :
    engineFault e code pcw ecyc t0 r take s =
      faultTakes e t0 r take (faultStops e t0 (faultLeaves e (faultNoted e code pcw (traceEntry e pcw ecyc code 8 s)))) := rfl

theorem faultNoted_eng (e code pcw : Nat) (s : State) (k : Nat) : (faultNoted e code pcw s).eng k = s.eng k := by
  simp only [faultNoted, State.raise_eng, State.setF_eng, dropFar_eng, logFault_eng]

theorem faultNoted_spare (e code pcw : Nat) (s : State) : (faultNoted e code pcw s).spare = s.spare := by
  simp only [faultNoted, State.raise_spare, State.setF_spare, dropFar_spare, logFault_spare]

theorem faultNoted_faults (e code pcw : Nat) (s : State) :
    (faultNoted e code pcw s).faults = (logFault 1 e code pcw s).faults := by
  simp only [faultNoted, State.raise_faults, State.setF_faults, dropFar_faults]

theorem faultNoted_reg (e code pcw : Nat) (s : State) {o : Nat} (h1 : o ≠ COIL_FAULT e) (h2 : o ≠ COIL_FLAGS e) :
    (faultNoted e code pcw s).reg o = s.reg o := by
  obtain ⟨-, -, -, -, hsame⟩ := faultRegs e code pcw (dropFar e (logFault 1 e code pcw s))
  rw [faultNoted, hsame o (by simp [h1, h2]), dropFar_reg, logFault_reg]

theorem faultTakes_regs (e t0 : Nat) (r : Option Run) (take : Bool) (s : State) :
    (faultTakes e t0 r take s).regs = s.regs := by unfold faultTakes; split <;> rfl
theorem faultTakes_faults (e t0 : Nat) (r : Option Run) (take : Bool) (s : State) :
    (faultTakes e t0 r take s).faults = s.faults := by unfold faultTakes; split <;> rfl
theorem faultTakes_eng (e t0 : Nat) (r : Option Run) (take : Bool) (s : State) (k : Nat) :
    (faultTakes e t0 r take s).eng k = s.eng k := by unfold faultTakes; split <;> rfl

theorem faultTakes_16 (t0 : Nat) (r : Option Run) (take : Bool) (s : State) : faultTakes 16 t0 r take s = s := rfl

theorem faultLeaves_ne {e : Nat} (he : e ≠ 16) (s : State) : faultLeaves e s = s := if_neg he

theorem faultLeaves_regs (e : Nat) (s : State) : (faultLeaves e s).regs = s.regs := by
  unfold faultLeaves; split
  · exact leaveStandin_regs _ _
  · rfl

theorem faultLeaves_faults (e : Nat) (s : State) : (faultLeaves e s).faults = s.faults := by
  unfold faultLeaves; split
  · exact leaveStandin_faults _ _
  · rfl

theorem faultLeaves_eng_ne {e k : Nat} (hk : k ≠ e) (s : State) : (faultLeaves e s).eng k =
    if e = 16 ∧ s.spare.standFor = some k then { s.eng k with evin := (s.eng 16).evin } else s.eng k := by
  by_cases he : e = 16
  · subst he
    simp only [true_and]
    exact leaveStandin_eng_ne .faulted s hk
  · rw [faultLeaves_ne he, if_neg (by simp [he])]

/-! ### What a fault leaves -/

/-- The registers of a fault stay through its later steps. -/
theorem engineFault_regs (e code pcw ecyc t0 : Nat) (r : Option Run) (take : Bool) (s : State) :
    (engineFault e code pcw ecyc t0 r take s).regs = (faultNoted e code pcw (traceEntry e pcw ecyc code 8 s)).regs := by
  rw [engineFault_eq, faultTakes_regs, faultStops, State.modEng_regs, faultLeaves_regs]

theorem engineFault_reg (e code pcw ecyc t0 : Nat) (r : Option Run) (take : Bool) (s : State) (o : Nat) :
    (engineFault e code pcw ecyc t0 r take s).reg o = (faultNoted e code pcw (traceEntry e pcw ecyc code 8 s)).reg o := by
  rw [State.reg, engineFault_regs]; rfl

theorem engineFault_f (e code pcw ecyc t0 : Nat) (r : Option Run) (take : Bool) (s : State) (F : Fld) :
    (engineFault e code pcw ecyc t0 r take s).f F = (faultNoted e code pcw (traceEntry e pcw ecyc code 8 s)).f F := by
  simp only [State.f, State.reg64, engineFault_reg]

/-- The engine that faults stops (R150). -/
theorem engineFault_eng_same (e code pcw ecyc t0 : Nat) (r : Option Run) (take : Bool) (s : State) :
    ∃ x : Engine, (engineFault e code pcw ecyc t0 r take s).eng e =
      { x with run := none, toRun := false, st := .faulted, resetAt := some t0, stepping := false } := by
  rw [engineFault_eq, faultTakes_eng, faultStops, State.modEng_eng_same]
  exact ⟨_, rfl⟩

/-- No other engine changes, but the one that a faulting CE16 stood in for takes the event flags of CE16 (R539). -/
theorem engineFault_eng_ne {e k : Nat} (hk : k ≠ e) (code pcw ecyc t0 : Nat) (r : Option Run) (take : Bool) (s S : State)
    (hS : S = traceEntry e pcw ecyc code 8 s) : (engineFault e code pcw ecyc t0 r take s).eng k =
      if e = 16 ∧ S.spare.standFor = some k then { S.eng k with evin := (S.eng 16).evin } else S.eng k := by
  rw [engineFault_eq, ← hS, faultTakes_eng, faultStops, State.modEng_eng_ne _ _ hk, faultLeaves_eng_ne hk, faultNoted_spare,
    faultNoted_eng, faultNoted_eng]

/-- Whether CE16 can take over is not changed by the fault of another engine (R151). -/
theorem canTake_faultStops {e : Nat} (he : e ≠ 16) (code pcw t0 : Nat) (s : State) :
    (faultStops e t0 (faultNoted e code pcw s)).canTake e t0 = s.canTake e t0 := by
  have hreg {o : Nat} (h1 : o ≠ COIL_FAULT e) (h2 : o ≠ COIL_FLAGS e) :
      (faultStops e t0 (faultNoted e code pcw s)).reg o = s.reg o := by
    rw [faultStops, State.modEng_reg, faultNoted_reg _ _ _ _ h1 h2]
  have hspare : (faultStops e t0 (faultNoted e code pcw s)).spare = s.spare := by
    rw [faultStops, State.modEng_spare, faultNoted_spare]
  have heng : (faultStops e t0 (faultNoted e code pcw s)).eng 16 = s.eng 16 := by
    rw [faultStops, State.modEng_eng_ne _ _ (Ne.symm he), faultNoted_eng]
  have htake : (faultStops e t0 (faultNoted e code pcw s)).flag (COIL_CTRL_TAKEOVER e) = s.flag (COIL_CTRL_TAKEOVER e) := by
    rw [State.flag, State.flag, State.f_congr _ (by show 4 + 1 ≤ 32; decide) (hreg ?_ ?_)]
    all_goals simp only [COIL_CTRL_TAKEOVER, COIL_CTRL, COIL_FAULT, COIL_FLAGS]; omega
  have hon (d : Nat) : (faultStops e t0 (faultNoted e code pcw s)).on d = s.on d := by
    rw [State.on, State.on, State.f_congr _ (by decide) (hreg ?_ ?_)]
    all_goals simp only [GLB_PWRSTAT_ON, GLB_PWRSTAT, COIL_FAULT, COIL_FLAGS]; omega
  simp only [State.canTake, hspare, heng, htake, hon]

/-- A fault leaves the engine, the records and CE16 as R150 and R539 have it. -/
theorem engineFault_faulted (e code pcw ecyc t0 : Nat) (r : Option Run) (s : State) :
    Faulted e code pcw t0 r (traceEntry e pcw ecyc code 8 s) (engineFault e code pcw ecyc t0 r true s) := by
  generalize hS : traceEntry e pcw ecyc code 8 s = S
  have heq := engineFault_eq e code pcw ecyc t0 r true s
  rw [hS] at heq
  obtain ⟨hcode, hpcw, hflag, -⟩ := faultRegs e code pcw (dropFar e (logFault 1 e code pcw S))
  obtain ⟨x, hx⟩ := engineFault_eng_same e code pcw ecyc t0 r true s
  have hfaults : (engineFault e code pcw ecyc t0 r true s).faults = (logFault 1 e code pcw S).faults := by
    rw [heq, faultTakes_faults, faultStops, State.modEng_faults, faultLeaves_faults, faultNoted_faults]
  refine ⟨by rw [hx], by rw [hx], by rw [hx], by rw [hx], ?_, ?_, ?_, ?_, fun he => ?_, fun he => ?_, ?_, fun o ho => ?_, fun k hk => ?_⟩
  · rw [engineFault_f, hS]; exact hcode
  · rw [engineFault_f, hS]; exact hpcw
  · rw [engineFault_f, hS]; exact hflag
  · rw [hfaults, logFault_faults]
  · have hspare : (faultStops e t0 (faultNoted e code pcw S)).spare = S.spare := by
      rw [faultStops, State.modEng_spare, faultNoted_spare]
    rw [heq, faultLeaves_ne he, faultTakes, canTake_faultStops he, ← hspare]
    simp only [he, ne_eq, not_false_eq_true, decide_true, Bool.true_and]
    split <;> rfl
  · subst he
    have hspare : (engineFault 16 code pcw ecyc t0 r true s).spare =
        { (leaveStandin .faulted (faultNoted 16 code pcw S)).spare with ended := S.spare.standFor } := by
      rw [heq, faultTakes_16, faultStops, State.modEng_spare, faultLeaves, if_pos rfl, faultNoted_spare]
    rw [hspare]
    refine ⟨fun n hn => ?_, fun hn => ?_⟩
    · rw [leaveStandin_spare ((faultNoted_spare _ _ _ _).symm ▸ hn), hn]
    · rw [leaveStandin_none ((faultNoted_spare _ _ _ _).symm ▸ hn), hn, faultNoted_spare]
  · rw [← hS]; simp
  · simp only [List.mem_cons, List.not_mem_nil, or_false, not_or] at ho
    rw [engineFault_reg, hS, faultNoted_reg _ _ _ _ ho.1 ho.2]
  · exact engineFault_eng_ne hk _ _ _ _ _ _ _ _ hS.symm

/-! ### Overruns (R63, R64) -/

theorem overrunAt_eq_some {s : State} {e : Nat} {r : Run} {t0 : Nat} : s.overrunAt e = some (r, t0) ↔
    (s.eng e).run = some r ∧ t0 = r.ec0 + runLimit (s.eng e) r + 1 ∧ t0 ≤ s.ecNow := by
  unfold State.overrunAt
  dsimp only
  split
  · next q hrun =>
    rw [hrun]
    simp only [Option.ite_none_right_eq_some, Option.some.injEq, Prod.mk.injEq]
    constructor
    · rintro ⟨hle, rfl, rfl⟩; exact ⟨rfl, rfl, hle⟩
    · rintro ⟨rfl, rfl, hle⟩; exact ⟨hle, rfl, rfl⟩
  · next hrun => simp [hrun]

theorem overrun_of_some {s : State} {e : Nat} {r : Run} {t0 : Nat} (h : s.overrunAt e = some (r, t0)) :
    overrun e s = engineFault e 7 (pcOff (s.eng e) r) (t0 - r.ec0) t0 (some r) true
      (pulse 0x23C (s.raise (bitFld KLN_OVR_OVR e))) := by
  simp only [overrun, h]
  rw [(pulse_only _ _).eng, State.raise_eng]

theorem overrun_of_none {s : State} {e : Nat} (h : s.overrunAt e = none) : overrun e s = s := by simp only [overrun, h]

/-! ### The watchdog (R149) -/

theorem watchdog_of_some {s : State} {e : Nat} {r : Run} {t0 pcw : Nat} (h : s.watchAt e = some (r, t0, pcw)) :
    watchdog e s = engineFault e 8 pcw (t0 - r.ec0) t0 (some r) true s := by simp only [watchdog, h]

theorem watchdog_of_none {s : State} {e : Nat} (h : s.watchAt e = none) : watchdog e s = s := by simp only [watchdog, h]

end Sys2Proof.Machine

namespace Sys2Proof

open Machine Reg

/-- Settles O13: both commands are a fault of the engine where their condition holds, and nothing otherwise. -/
theorem overrunAndWatchdog : Obligations.OverrunAndWatchdog := by
  intro e s
  have hbit : (bitFld KLN_OVR_OVR e).lo + (bitFld KLN_OVR_OVR e).w ≤ 32 := by show 0 + e.val + 1 ≤ 32; omega
  refine ⟨fun r t0 h => ⟨s.raise (bitFld KLN_OVR_OVR e), _, congrArg Host.Outcome.next (overrun_of_some h),
      State.raise_f_same _ _ hbit Nat.one_pos, raise_onlyNoted _ _ hbit (List.mem_singleton.mpr rfl), engineFault_faulted _ _ _ _ _ _ _⟩,
    fun h => congrArg Host.Outcome.next (overrun_of_none h), fun r t0 => overrunAt_eq_some, fun r => rfl,
    fun r t0 pcw h => ⟨_, congrArg Host.Outcome.next (watchdog_of_some h), engineFault_faulted _ _ _ _ _ _ _⟩,
    fun h => congrArg Host.Outcome.next (watchdog_of_none h)⟩

end Sys2Proof
end

section
/-! The start of the tick programs (R61, R89, R142, R164, R170). -/

namespace Sys2Proof.Machine

open Sys2Proof Reg

/-! ### Trace entries (R164, R165) -/

/-- What a trace entry and the start of a run leave as it is. -/
def State.unstarted (s : State) : SMap Port × SMap Lock × Kiln × List Transit × Spare × List Host.Cell :=
  (s.ports, s.locks, s.kln, s.sendq, s.spare, s.mem)

theorem tracePost_unstarted (e c : Nat) (s : State) : (tracePost e c s).unstarted = s.unstarted := by
  unfold tracePost
  dsimp only
  split
  · rfl
  · split
    · rfl
    · split <;> rfl

theorem tracePost_reg (e c : Nat) (s : State) (o : Nat) : (tracePost e c s).reg o = s.reg o := by
  unfold tracePost
  dsimp only
  split
  · rfl
  · split
    · rfl
    · split <;> rfl

theorem tracePost_eng (e c : Nat) (s : State) (k : Nat) : (tracePost e c s).eng k = s.eng k := by
  unfold tracePost
  dsimp only
  split
  · rfl
  · split
    · rfl
    · split <;> rfl

theorem traceEntry_unstarted (e pcw ecyc data kind : Nat) (s : State) :
    (traceEntry e pcw ecyc data kind s).unstarted = s.unstarted := by
  unfold traceEntry
  dsimp only
  split
  · rfl
  · split
    · simp [State.unstarted]
    · rw [tracePost_unstarted]; rfl

/-- A trace entry that is dropped is counted and flagged, and no other register changes (R165). -/
theorem traceEntry_reg (e pcw ecyc data kind : Nat) (s : State) {o : Nat} (h1 : o ≠ COIL_DROPCNT e) (h2 : o ≠ COIL_FLAGS e) :
    (traceEntry e pcw ecyc data kind s).reg o = s.reg o := by
  unfold traceEntry
  dsimp only
  split
  · rfl
  · split
    · rw [State.raise_reg_ne _ _ (by show 4 + 1 ≤ 32; decide) h2, State.bump_reg_ne _ _ (by show 16 + 16 ≤ 32; decide) h1]
    · rw [tracePost_reg, State.setEng_reg]

theorem traceEntry_eng_ne {e k : Nat} (hk : k ≠ e) (pcw ecyc data kind : Nat) (s : State) :
    (traceEntry e pcw ecyc data kind s).eng k = s.eng k := by
  unfold traceEntry
  dsimp only
  split
  · rfl
  · split
    · rw [State.raise_eng, State.bump_eng]
    · rw [tracePost_eng, State.setEng_eng_ne _ _ hk]

theorem traceEntry_eng_same (e pcw ecyc data kind : Nat) (s : State) :
    ∃ l, (traceEntry e pcw ecyc data kind s).eng e = { s.eng e with trace := l } := by
  unfold traceEntry
  dsimp only
  split
  · exact ⟨_, rfl⟩
  · split
    · rw [State.raise_eng, State.bump_eng]; exact ⟨_, rfl⟩
    · rw [tracePost_eng, State.setEng_eng_same]; exact ⟨_, rfl⟩

/-- Without TRACE no entry is made (R164). -/
theorem traceEntry_off {e : Nat} {s : State} (h : s.flag (COIL_CTRL_TRACE (s.rights e)) = false) (pcw ecyc data kind : Nat) :
    traceEntry e pcw ecyc data kind s = s := by
  rw [traceEntry, h]; rfl

/-! ### The start of a run (R89, R142) -/

theorem startRun_eng_ne {e k : Nat} (hk : k ≠ e) (r : Run) (s : State) : (startRun e r s).eng k = s.eng k := by
  rw [startRun, traceEntry_eng_ne hk, State.modEng_eng_ne _ _ hk]

theorem startRun_eng_same (e : Nat) (r : Run) (s : State) : ∃ l, (startRun e r s).eng e =
    { s.eng e with g := (s.eng e).ck.g, estat := (s.eng e).ck.estat, run := some r, toRun := false, trace := l } := by
  obtain ⟨l, hl⟩ := traceEntry_eng_same e _ _ _ _ _
  exact ⟨l, hl.trans (by rw [State.modEng_eng_same])⟩

theorem startRun_unstarted (e : Nat) (r : Run) (s : State) : (startRun e r s).unstarted = s.unstarted :=
  traceEntry_unstarted _ _ _ _ _ _

theorem startRun_reg (e : Nat) (r : Run) (s : State) {o : Nat} (h1 : o ≠ COIL_DROPCNT e) (h2 : o ≠ COIL_FLAGS e) :
    (startRun e r s).reg o = s.reg o := by
  rw [startRun, traceEntry_reg _ _ _ _ _ _ h1 h2, State.modEng_reg]

theorem startRun_regs_off {e : Nat} {s : State} (h : s.flag (COIL_CTRL_TRACE (s.rights e)) = false) (r : Run) :
    (startRun e r s).regs = s.regs := by
  exact (congrArg State.regs (traceEntry_off (s := s.modEng e _) h _ _ _ _)).trans (State.modEng_regs _ _ _)

/-! ### The engines of a tick, in turn (R61, R142) -/

/-- Engine e starts its tick program, if it is to run. -/
def startEngine (s : State) (e : Nat) : State :=
  if (s.eng e).toRun then beginRun e (s.tickRun (s.eng e)) s else s

theorem tickStart_early {s : State} (h : s.mc < s.kln.bmc + 2) : tickStart s = s := if_pos h

theorem tickStart_due {s : State} (h : s.kln.bmc + 2 ≤ s.mc) : tickStart s = (List.range 17).foldl startEngine s :=
  if_neg (Nat.not_lt.mpr h)

theorem startEngine_idle {s : State} {e : Nat} (h : (s.eng e).toRun = false) : startEngine s e = s := by
  rw [startEngine, h]; rfl

theorem startEngine_runs {s : State} {e : Nat} (h : (s.eng e).toRun = true) (hck : (s.eng e).ck.err < 2) :
    startEngine s e = startRun e (s.tickRun (s.eng e)) s := by
  rw [startEngine, if_pos h, beginRun, if_neg (Nat.not_le.mpr hck)]

theorem startEngine_faults {s : State} {e : Nat} (h : (s.eng e).toRun = true) (hck : 2 ≤ (s.eng e).ck.err) :
    startEngine s e = engineFault e 6 0 8 ((s.tickRun (s.eng e)).ec0 + 8) none false s := by
  rw [startEngine, if_pos h, beginRun, if_pos hck]

/-- The engines of a tick below n have started, and no other engine has changed. -/
structure StartedBelow (n : Nat) (s t : State) : Prop where
  started : ∀ e, e < n → (s.eng e).toRun = true → ∃ l, t.eng e = { s.eng e with
    g := (s.eng e).ck.g, estat := (s.eng e).ck.estat, run := some (s.tickRun (s.eng e)), toRun := false, trace := l }
  others : ∀ e, n ≤ e ∨ (s.eng e).toRun = false → t.eng e = s.eng e
  unstarted : t.unstarted = s.unstarted
  low : ∀ o, o < 0x90000 → t.reg o = s.reg o
  untraced : (∀ e, e < 17 → s.flag (COIL_CTRL_TRACE (s.rights e)) = false) → t.regs = s.regs

theorem StartedBelow.parts {n : Nat} {s t : State} (h : StartedBelow n s t) : t.ports = s.ports ∧ t.locks = s.locks ∧
    t.kln = s.kln ∧ t.sendq = s.sendq ∧ t.spare = s.spare ∧ t.mem = s.mem := by
  simpa only [State.unstarted, Prod.mk.injEq] using h.unstarted

/-- The tick that begins is the same for every engine. -/
theorem StartedBelow.tickRun {n : Nat} {s t : State} (h : StartedBelow n s t) (x : Engine) : t.tickRun x = s.tickRun x := by
  have htick : t.f KLN_TICKCNT_COUNT = s.f KLN_TICKCNT_COUNT := by
    simp only [State.f, State.reg64, h.low _ (show KLN_TICKCNT_COUNT.off < 0x90000 by decide),
      h.low _ (show KLN_TICKCNT_COUNT.off + 4 < 0x90000 by decide)]
  have htime : t.f KLN_TICKTIME_TIME = s.f KLN_TICKTIME_TIME := by
    simp only [State.f, State.reg64, h.low _ (show KLN_TICKTIME_TIME.off < 0x90000 by decide),
      h.low _ (show KLN_TICKTIME_TIME.off + 4 < 0x90000 by decide)]
  have hper : t.f KLN_PERIOD_PERIOD = s.f KLN_PERIOD_PERIOD := State.f_congr _ (by decide) (h.low _ (by decide))
  obtain ⟨-, -, hkln, -, -, -⟩ := h.parts
  simp only [State.tickRun, State.tick, htick, htime, hper, hkln]

theorem StartedBelow.zero (s : State) : StartedBelow 0 s s :=
  ⟨fun _ h => absurd h (Nat.not_lt_zero _), fun _ _ => rfl, rfl, fun _ _ => rfl, fun _ => rfl⟩

theorem StartedBelow.skip {n : Nat} {s t : State} (h : StartedBelow n s t) (hn : (s.eng n).toRun = false) :
    StartedBelow (n + 1) s t := by
  refine ⟨fun e he hrun => h.started e ?_ hrun, fun e he => h.others e ?_, h.unstarted, h.low, h.untraced⟩
  · rcases Nat.lt_succ_iff_lt_or_eq.mp he with hlt | rfl
    · exact hlt
    · rw [hn] at hrun; cases hrun
  · rcases he with he | he
    · exact .inl (by omega)
    · exact .inr he

theorem StartedBelow.start {n : Nat} {s t : State} (h : StartedBelow n s t) (hn : n < 17) (hrun : (s.eng n).toRun = true) :
    StartedBelow (n + 1) s (startRun n (t.tickRun (t.eng n)) t) := by
  have heng : t.eng n = s.eng n := h.others n (.inl (le_refl n))
  refine ⟨fun e he hto => ?_, fun e he => ?_, (startRun_unstarted _ _ _).trans h.unstarted, fun o ho => ?_, fun htr => ?_⟩
  · rcases Nat.lt_succ_iff_lt_or_eq.mp he with hlt | rfl
    · obtain ⟨l, hl⟩ := h.started e hlt hto
      exact ⟨l, (startRun_eng_ne (Nat.ne_of_lt hlt) _ _).trans hl⟩
    · obtain ⟨l, hl⟩ := startRun_eng_same e (t.tickRun (t.eng e)) t
      rw [heng, h.tickRun] at hl
      exact ⟨l, by rw [heng, h.tickRun, hl]⟩
  · have hne : e ≠ n := by
      rintro rfl
      rcases he with he | he
      · omega
      · rw [hrun] at he; cases he
    rw [startRun_eng_ne hne]
    exact h.others e (he.imp_left (by omega))
  · rw [startRun_reg _ _ _ (by rw [COIL_DROPCNT]; omega) (by rw [COIL_FLAGS]; omega)]
    exact h.low o ho
  · have hregs := h.untraced htr
    obtain ⟨-, -, -, -, hspare, -⟩ := h.parts
    have hrights : t.rights n = s.rights n := by rw [State.rights, State.rights, hspare]
    have hflag : t.flag (COIL_CTRL_TRACE (t.rights n)) = false := by
      rw [hrights, ← htr n hn]
      simp only [State.flag, State.f, State.reg64, State.reg, hregs]
    rw [startRun_regs_off hflag, hregs]

/-- Without a double-bit error in a checkpoint, every engine that is to run starts (R142). -/
theorem foldl_startEngine_started {s : State} (hck : ∀ e, e < 17 → (s.eng e).toRun = true → (s.eng e).ck.err < 2) {n : Nat}
    (hn : n ≤ 17) : StartedBelow n s ((List.range n).foldl startEngine s) := by
  induction n with
  | zero => exact .zero s
  | succ n ih =>
    have h := ih (by omega)
    have heng := h.others n (.inl (le_refl n))
    rw [List.range_succ, List.foldl_append, List.foldl_cons, List.foldl_nil]
    by_cases hrun : (s.eng n).toRun = true
    · rw [startEngine_runs (by rw [heng]; exact hrun) (by rw [heng]; exact hck n hn hrun)]
      exact h.start hn hrun
    · rw [Bool.not_eq_true] at hrun
      rw [startEngine_idle (by rw [heng]; exact hrun)]
      exact h.skip hrun

/-! ### An engine beside the others that start (R142, R170) -/

/-- The start or the fault of another engine leaves engine e and its fault record, but for event flags that CE16 hands over. -/
theorem startEngine_other (s : State) {e k : Nat} (hk : k ≠ e) :
    (∃ v, (startEngine s k).eng e = { s.eng e with evin := v }) ∧ (startEngine s k).reg (COIL_FAULT e) = s.reg (COIL_FAULT e) := by
  have hne : COIL_FAULT e ≠ COIL_DROPCNT k ∧ COIL_FAULT e ≠ COIL_FLAGS k ∧ COIL_FAULT e ≠ COIL_FAULT k := by
    rw [COIL_FAULT, COIL_DROPCNT, COIL_FLAGS, COIL_FAULT]; omega
  obtain ⟨hdrop, hflags, hfault⟩ := hne
  by_cases hrun : (s.eng k).toRun = true
  · by_cases hck : (s.eng k).ck.err < 2
    · rw [startEngine_runs hrun hck, startRun_eng_ne (Ne.symm hk), startRun_reg _ _ _ hdrop hflags]
      exact ⟨⟨_, rfl⟩, rfl⟩
    · rw [startEngine_faults hrun (by omega)]
      refine ⟨?_, ?_⟩
      · rw [engineFault_eng_ne (Ne.symm hk) _ _ _ _ _ _ _ _ rfl, traceEntry_eng_ne (Ne.symm hk)]
        split <;> exact ⟨_, rfl⟩
      · rw [engineFault_reg, faultNoted_reg _ _ _ _ hfault hflags, traceEntry_reg _ _ _ _ _ _ hdrop hflags]
  · rw [startEngine_idle (by simpa using hrun)]
    exact ⟨⟨_, rfl⟩, rfl⟩

theorem foldl_startEngine_others {e : Nat} {l : List Nat} (hl : e ∉ l) (s : State) :
    (∃ v, (l.foldl startEngine s).eng e = { s.eng e with evin := v }) ∧
      (l.foldl startEngine s).reg (COIL_FAULT e) = s.reg (COIL_FAULT e) := by
  induction l generalizing s with
  | nil => exact ⟨⟨_, rfl⟩, rfl⟩
  | cons k l ih =>
    rw [List.mem_cons, not_or] at hl
    obtain ⟨⟨v, hv⟩, hreg⟩ := startEngine_other s (Ne.symm hl.1)
    obtain ⟨⟨v', hv'⟩, hreg'⟩ := ih hl.2 (startEngine s k)
    exact ⟨⟨v', by rw [List.foldl_cons, hv', hv]⟩, hreg'.trans hreg⟩

/-- An engine whose checkpoint has a double-bit error faults with code 6 in place of its start (R142, R170). -/
theorem startEngine_bad {s : State} {e : Nat} (hrun : (s.eng e).toRun = true) (hck : 2 ≤ (s.eng e).ck.err) :
    ((startEngine s e).eng e).run = none ∧ ((startEngine s e).eng e).st = .faulted ∧
      (startEngine s e).f (COIL_FAULT_CODE e) = 6 ∧ (startEngine s e).f (COIL_FAULT_PCW e) = 0 := by
  rw [startEngine_faults hrun hck, engineFault_f, engineFault_f]
  obtain ⟨x, hx⟩ := engineFault_eng_same e 6 0 8 ((s.tickRun (s.eng e)).ec0 + 8) none false s
  obtain ⟨hcode, hpcw, -, -⟩ := faultRegs e 6 0 (dropFar e (logFault 1 e 6 0 (traceEntry e 0 8 6 8 s)))
  exact ⟨by rw [hx], by rw [hx], hcode, hpcw⟩

theorem foldl_startEngine_bad {s : State} {e : Nat} (he : e < 17) (hrun : (s.eng e).toRun = true) (hck : 2 ≤ (s.eng e).ck.err)
    {t : State} (ht : t = (List.range 17).foldl startEngine s) :
    (t.eng e).run = none ∧ (t.eng e).st = .faulted ∧ t.f (COIL_FAULT_CODE e) = 6 ∧ t.f (COIL_FAULT_PCW e) = 0 := by
  obtain ⟨l, l', hl⟩ := List.append_of_mem (List.mem_range.mpr he)
  have hnodup := hl ▸ List.nodup_range (n := 17)
  rw [List.nodup_middle, List.nodup_cons, List.mem_append, not_or] at hnodup
  obtain ⟨⟨hnl, hnl'⟩, -⟩ := hnodup
  obtain ⟨⟨v, hv⟩, -⟩ := foldl_startEngine_others hnl s
  obtain ⟨hnone, hst, hcode, hpcw⟩ := startEngine_bad (s := l.foldl startEngine s) (e := e) (by rw [hv]; exact hrun)
    (by rw [hv]; exact hck)
  obtain ⟨⟨w, hw⟩, hreg⟩ := foldl_startEngine_others hnl' (startEngine (l.foldl startEngine s) e)
  have ht' : t = l'.foldl startEngine (startEngine (l.foldl startEngine s) e) := by
    rw [ht, hl, List.foldl_append, List.foldl_cons]
  subst ht'
  refine ⟨by rw [hw]; exact hnone, by rw [hw]; exact hst, ?_, ?_⟩
  · rw [State.f_congr _ (by show 0 + 4 ≤ 32; decide) hreg]; exact hcode
  · rw [State.f_congr _ (by show 8 + 16 ≤ 32; decide) hreg]; exact hpcw

end Sys2Proof.Machine

namespace Sys2Proof

open Machine Reg

/-- Settles O12: the engines start in turn, each from the tick that has begun; one with a bad checkpoint faults in its turn, and
the turns of the others leave it so. -/
theorem tickProgramsStart : Obligations.TickProgramsStart := by
  intro s
  refine ⟨fun h => congrArg Host.Outcome.next (tickStart_early h), fun h hck => ?start, fun e h he hrun hck => ?fault⟩
  case start =>
    have hall := foldl_startEngine_started hck (le_refl 17)
    obtain ⟨hports, hlocks, hkln, hsendq, -, hmem⟩ := hall.parts
    refine ⟨_, congrArg Host.Outcome.next (tickStart_due h), fun e he hrun => ?_, fun e he => hall.others e (.inr he),
      hports, hlocks, hkln, hsendq, fun htr => ⟨hmem, hall.untraced htr⟩⟩
    obtain ⟨l, hl⟩ := hall.started e he hrun
    rw [hl]
    exact ⟨rfl, rfl, rfl, rfl⟩
  case fault =>
    have he' : e < 17 := by omega
    have hexec : exec .tickProgramStart s = .next ((List.range 17).foldl startEngine s) :=
      congrArg Host.Outcome.next (tickStart_due h)
    exact ⟨_, hexec, foldl_startEngine_bad he' hrun hck rfl⟩

end Sys2Proof
end

section
/-! Wide reads and writes, and GLB_RDMODE (R51 to R56). -/

namespace Sys2Proof.Machine

open Sys2Proof Reg

/-! ### Shadows -/

theorem setShadow_shadow_ne (s : State) {req q : Nat} (x : Shadow) {k : Nat} (h : k ≠ shadowKey req q) :
    mget (setShadow req q x s).kln.shadows k {} = mget s.kln.shadows k {} := mget_mset_ne _ _ _ _ h

theorem latch_shadow (req q : Nat) (s : State) :
    ((latch req q s).shadow req q).qty = some q ∧ ((latch req q s).shadow req q).read = some (s.live64 q) := by
  simp only [latch, setShadow_shadow_same, and_self]

/-! ### Reads -/

/-- COIL_STATUS, which alone reads where its block does not answer, is no part of a wide quantity (R168). -/
theorem wideLow_coilStat {off : Nat} (h : coilStat off = true) : wideLow off = none := by
  have hrow : ∀ e : Fin 17, wideLow (COIL_STATUS e) = none := by decide
  have hbase : COIL_STATUS 0 = 0x90004 := rfl
  rw [coilStat, hbase, regIdx, Option.isSome_ite, Bool.and_eq_true, Bool.and_eq_true, decide_eq_true_eq, decide_eq_true_eq,
    beq_iff_eq] at h
  obtain ⟨⟨hlo, hmod⟩, hlt⟩ := h
  have hoff : off = COIL_STATUS ((off - 0x90004) / 0x400) := by rw [COIL_STATUS]; omega
  rw [hoff]
  exact hrow ⟨_, hlt⟩

theorem readReg_wide {req off q : Nat} {s : State} (ha : s.answers off = true) (hw : wideLow off = some q)
    (hm : s.latchMode off = true) : readReg req off s =
      if off = q then (s.live off, latch req q s) else ((s.wideSeen req q).extractLsb' 32 32, s) := by
  simp [readReg, State.readable, ha, hw, hm]

/-- A read that is not of the lowest part of a wide quantity in latch mode leaves the state (R52, R54). -/
theorem readReg_state {req off : Nat} {s : State}
    (h : wideLow off ≠ some off ∨ s.answers off = false ∨ s.latchMode off = false) : (readReg req off s).2 = s := by
  unfold readReg
  split
  · rfl
  · next hread =>
    cases hw : wideLow off with
    | none => rfl
    | some q =>
      have ha : s.answers off = true := by
        have hcoil : coilStat off ≠ true := fun hc => by rw [wideLow_coilStat hc] at hw; cases hw
        simpa [State.readable, hcoil] using hread
      dsimp only
      by_cases hm : s.latchMode off = true
      · have hne : off ≠ q := fun hq => by subst hq; simp [ha, hm, hw] at h
        rw [hm, if_neg (by decide), if_neg hne]
      · rw [if_pos (by simpa using hm)]

/-! ### Writes of MST_SET -/

theorem softWrite_wide {s : State} {off q : Nat} (req : Nat) (v : Word) (h : s.reaches off) (hw : wideRw off = some q) :
    softWrite req off v s = if s.latchMode off && decide (req < 2) then latchedWrite req q (off != q) v s
      else writeWide req q (partMask (off != q)) (partVal (off != q) v) s := by
  simp [softWrite, regWrite, h.1, h.2, hw]

theorem writeWide_MST_SET {s : State} (h : s.flag MST_CTRL_RUN = false) (req : Nat) (m v : DWord) :
    writeWide req MST_SET m v s = s.setReg64 MST_SET ((s.wideBase MST_SET &&& ~~~m) ||| (v &&& m)).toNat := by
  simp [writeWide, h]

theorem setReg64_reg_low (s : State) (a : Nat) (v : DWord) : (s.setReg64 a v.toNat).reg a = v.extractLsb' 0 32 := by
  rw [State.setReg64, State.setReg_reg_ne _ _ (by omega), State.setReg_reg_same]
  simp [BitVec.extractLsb'_eq_extractLsb, ← BitVec.toNat_inj]

theorem setReg64_reg_high (s : State) (a : Nat) (v : DWord) : (s.setReg64 a v.toNat).reg (a + 4) = v.extractLsb' 32 32 := by
  rw [State.setReg64, State.setReg_reg_same]
  simp [← BitVec.toNat_inj]

theorem setReg64_onlyRegs (s : State) (a v : Nat) : OnlyRegs s (s.setReg64 a v) [a, a + 4] :=
  (setReg_onlyRegs s _ List.mem_cons_self).trans (setReg_onlyRegs _ _ (List.mem_cons_of_mem _ List.mem_cons_self))

/-- MST_SET reads as it stands (R49). -/
theorem wideBase_MST_SET (s : State) : s.wideBase MST_SET = s.reg (MST_SET + 4) ++ s.reg MST_SET := by
  have hlow : s.live MST_SET = s.reg MST_SET := by
    simp [State.live, State.viewMst, show MST_SET / 0x10000 = 1 from rfl, show (rowAt MST_SET).isNone = false by decide,
      show MST_SET ≠ MST_NOW by decide, show MST_SET ≠ MST_NOW + 4 by decide, show MST_SET ≠ KLN_STATUS by decide]
  have hhigh : s.live (MST_SET + 4) = s.reg (MST_SET + 4) := by
    simp [State.live, State.viewMst, show (MST_SET + 4) / 0x10000 = 1 from rfl, show (rowAt (MST_SET + 4)).isNone = false by decide,
      show MST_SET + 4 ≠ MST_NOW by decide, show MST_SET ≠ MST_NOW by decide, show MST_SET + 4 ≠ KLN_STATUS by decide]
  rw [State.wideBase, if_pos (by decide), State.live64, hlow, hhigh]

/-- A part that is not the highest is held (R53). -/
theorem latchedWrite_low (req q : Nat) (v : Word) (s : State) : ∃ x : Shadow, x.qty = some q ∧ x.wval = partVal false v ∧
    x.wmask = partMask false ∧ latchedWrite req q false v s = setShadow req q x s := by
  refine ⟨_, ?_, rfl, rfl, rfl⟩
  dsimp only
  split
  · assumption
  · rfl

/-- The highest part performs the whole write, with what is held of the quantity (R53). -/
theorem latchedWrite_high {req q : Nat} {s : State} (hq : (s.shadow req q).qty = some q) (hm : (s.shadow req q).wmask = partMask false)
    (v : Word) : latchedWrite req q true v s = writeWide req q (partMask false ||| partMask true)
      ((s.shadow req q).wval ||| partVal true v) (setShadow req q { s.shadow req q with wval := 0, wmask := 0 } s) := by
  have hne : partMask false ≠ 0 := by decide
  simp only [latchedWrite, hq, hm, if_true, if_neg hne]

theorem partMask_all : partMask false ||| partMask true = -1 := by decide

/-- Both parts together are the whole quantity. -/
theorem parts_whole (b : DWord) (lo hi : Word) :
    (b &&& ~~~(-1 : DWord)) ||| ((partVal false lo ||| partVal true hi) &&& (-1 : DWord)) = hi ++ lo := by
  have hparts : partVal false lo ||| partVal true hi = hi ++ lo := by
    show (0#32 ++ lo) ||| (hi ++ 0#32) = hi ++ lo
    exact BitVec.or_append.trans (by rw [BitVec.zero_or, BitVec.or_zero])
  have hnot : ~~~(-1 : DWord) = 0#64 := by decide
  have hand : ∀ x : DWord, x &&& -1 = x := fun _ => BitVec.and_allOnes
  rw [hparts, hnot, hand, BitVec.and_zero, BitVec.zero_or]

/-- A low part leaves the high one as it is (R54). -/
theorem part_low (hi lo v : Word) :
    ((hi ++ lo) &&& ~~~partMask false) ||| (partVal false v &&& partMask false) = hi ++ v := by
  have hmask : partMask false = 0#32 ++ BitVec.allOnes 32 := by decide
  have hnot : ~~~partMask false = BitVec.allOnes 32 ++ 0#32 := by decide
  have hhigh : (hi ++ lo) &&& (BitVec.allOnes 32 ++ 0#32) = hi ++ 0#32 :=
    BitVec.and_append.trans (by rw [BitVec.and_allOnes, BitVec.and_zero])
  have hlow : (0#32 ++ v) &&& (0#32 ++ BitVec.allOnes 32) = 0#32 ++ v :=
    BitVec.and_append.trans (by rw [BitVec.and_allOnes, BitVec.and_zero])
  rw [hnot, hmask]
  exact (congrArg₂ (· ||| ·) hhigh hlow).trans (BitVec.or_append.trans (by rw [BitVec.or_zero, BitVec.zero_or]))

theorem extractLsb'_append_low (hi lo : Word) : (hi ++ lo).extractLsb' 0 32 = lo :=
  BitVec.extractLsb'_append_eq_right

theorem extractLsb'_append_high (hi lo : Word) : (hi ++ lo).extractLsb' 32 32 = hi :=
  BitVec.extractLsb'_append_eq_left

/-! ### GLB_RDMODE -/

/-- Keys that a filter by key keeps read as before. -/
theorem mget_filter_key {α : Type} (m : SMap α) (q : Nat → Bool) (k : Nat) (d : α) :
    mget (m.filter fun p => q p.1) k d = if q k = true then mget m k d else d := by
  induction m with
  | nil => simp [mget]
  | cons p m ih =>
    obtain ⟨j, v⟩ := p
    rw [List.filter_cons]
    by_cases hj : j = k
    · subst hj
      by_cases hq : q j = true
      · simp [hq, mget]
      · rw [if_neg hq, ih, if_neg hq, if_neg hq]
    · by_cases hq : q j = true
      · rw [if_pos hq, mget, if_neg hj, ih, mget, if_neg hj]
      · rw [if_neg hq, ih, mget, if_neg hj]

theorem exec_rdmodeWrite {s : State} (hr : s.reaches GLB_RDMODE) (req : Fin 4) (v : Word) :
    exec (.rdmodeWrite req v) s = .next (rdmodeWrite v.toNat s) := by
  have hrow := rowAt_GLB_RDMODE
  refine congrArg Host.Outcome.next ?_
  rw [softWrite_reaches _ _ hr (by decide)]
  simp [putWord, hrow, writeGlb, show GLB_RDMODE / 0x10000 = 0 from rfl, show GLB_RDMODE ≠ GLB_COMMIT by decide]

theorem rdmodeWrite_eq (v : Nat) (s : State) : rdmodeWrite v s =
    { s with regs := (rdmodeWrite v s).regs, kln.shadows := (rdmodeWrite v s).kln.shadows } := by
  have h := State.setF_eq s GLB_RDMODE_MODE (v % 2 ^ 16 &&& 0xDFFF)
  exact congrArg (fun t : State => { t with kln.shadows := (rdmodeWrite v s).kln.shadows }) h

theorem rdmodeWrite_reg (v : Nat) (s : State) (o : Nat) :
    (rdmodeWrite v s).reg o = (s.setF GLB_RDMODE_MODE (v % 2 ^ 16 &&& 0xDFFF)).reg o := rfl

theorem rdmodeWrite_mode (v : Nat) (s : State) : (rdmodeWrite v s).f GLB_RDMODE_MODE = v % 2 ^ 16 &&& 0xDFFF := by
  rw [State.f_congr _ (by decide) (rdmodeWrite_reg v s _), State.setF_f_same _ _ _ (by decide)]
  exact Nat.mod_eq_of_lt (Nat.lt_of_le_of_lt Nat.and_le_left (Nat.mod_lt _ (Nat.two_pow_pos 16)))

/-- The shadows of a block go where its mode changes, and stay elsewhere (R55). -/
theorem rdmodeWrite_shadows (v : Nat) (s : State) (k : Nat) : mget (rdmodeWrite v s).kln.shadows k {} =
    if ((rdmodeWrite v s).f GLB_RDMODE_MODE).testBit (k / 2) = (s.f GLB_RDMODE_MODE).testBit (k / 2)
    then mget s.kln.shadows k {} else {} := by
  rw [rdmodeWrite_mode]
  refine (mget_filter_key _ (fun k => !(s.f GLB_RDMODE_MODE ^^^ (v % 2 ^ 16 &&& 0xDFFF)).testBit (k / 2)) k _).trans ?_
  rw [Nat.testBit_xor]
  cases (s.f GLB_RDMODE_MODE).testBit (k / 2) <;> cases (v % 2 ^ 16 &&& 0xDFFF).testBit (k / 2) <;> rfl

end Sys2Proof.Machine

namespace Sys2Proof

open Machine Reg

/-- Settles O2: a read of a lowest part latches and any other leaves the state; the parts of MST_SET meet in the shadow, or go
one by one; GLB_RDMODE filters the shadows by their block. -/
theorem wideReadsAndWrites : Obligations.WideReadsAndWrites := by
  refine ⟨fun req off s ha hw hm => ?latch, fun req off s h => congrArg Host.Outcome.next (readReg_state h),
    fun req off lo hi s hoff hr hr' hm hrun => ?held, fun req off lo s hoff hr hm hrun => ?immediate, fun req val s hr => ?rdmode⟩
  case latch =>
    have hread : readReg req off s = (s.live off, latch req off s) := by rw [readReg_wide ha hw hm, if_pos rfl]
    obtain ⟨hqty, hval⟩ := latch_shadow req off s
    have hexec : (readReg req off s).2 = latch req off s := congrArg Prod.snd hread
    refine ⟨latch req off s, congrArg Host.Outcome.next hexec, hqty, hval, rfl,
      fun k hk => setShadow_shadow_ne s _ hk, fun u hu hua hum huw => ?_⟩
    have hsh : u.shadow req off = (latch req off s).shadow req off := congrArg (fun m : SMap Shadow => mget m _ {}) hu
    rw [readReg_wide hua huw hum, if_neg (by omega)]
    simp [State.wideSeen, hsh, hqty, hval]
  case held =>
    have hreq : decide (req.val < 2) = true := decide_eq_true req.isLt
    obtain ⟨x, hxq, hxv, hxm, hlow⟩ := latchedWrite_low req MST_SET lo s
    let t := setShadow req MST_SET x s
    have ht : t.shadow req MST_SET = x := setShadow_shadow_same s _ _ _
    let t' := setShadow req MST_SET { x with wval := 0, wmask := 0 } t
    refine ⟨t, t'.setReg64 MST_SET (hi ++ lo).toNat, congrArg Host.Outcome.next ?_, rfl, congrArg Host.Outcome.next ?_, ?_, ?_, ?_⟩
    · rw [hoff, softWrite_wide _ _ hr (show wideRw MST_SET = some MST_SET by decide), hm, hreq]
      exact hlow
    · rw [softWrite_wide (s := t) _ _ hr' (show wideRw (MST_SET + 4) = some MST_SET by decide),
        show t.latchMode (MST_SET + 4) = true from hm, hreq]
      show latchedWrite req MST_SET true hi t = _
      rw [latchedWrite_high (by rw [ht, hxq]) (by rw [ht, hxm]), ht, hxv, partMask_all, writeWide_MST_SET (s := t') hrun, parts_whole]
    · rw [setReg64_reg_low, extractLsb'_append_low]
    · rw [setReg64_reg_high, extractLsb'_append_high]
    · exact (setReg64_onlyRegs t' MST_SET _).2
  case immediate =>
    refine ⟨s.setReg64 MST_SET (s.reg (MST_SET + 4) ++ lo).toNat, congrArg Host.Outcome.next ?_, ?_, ?_, setReg64_onlyRegs _ _ _⟩
    · rw [hoff, softWrite_wide _ _ hr (show wideRw MST_SET = some MST_SET by decide), hm]
      show writeWide req MST_SET (partMask false) (partVal false lo) s = _
      rw [writeWide_MST_SET hrun, wideBase_MST_SET, part_low]
    · rw [setReg64_reg_low, extractLsb'_append_low]
    · rw [setReg64_reg_high, extractLsb'_append_high]
  case rdmode =>
    refine ⟨_, exec_rdmodeWrite hr req val, rdmodeWrite_mode _ _, rdmodeWrite_eq _ _, fun o ho => ?_, fun r b hr2 _ => ?_⟩
    · rw [rdmodeWrite_reg, State.setF_reg_ne _ _ _ (by decide) (show o ≠ GLB_RDMODE from fun h => ho (List.mem_singleton.2 h))]
    · rw [rdmodeWrite_shadows, show (2 * b + r) / 2 = b by omega]

end Sys2Proof
end

section
/-! Fields of 64 bits, and states that read as another. -/

namespace Sys2Proof.Machine

open Sys2Proof Reg

/-! ### Quantities of 64 bits (R8) -/

theorem State.setReg64_reg64_same (s : State) (a v : Nat) : (s.setReg64 a v).reg64 a = v % 2 ^ 64 := by
  rw [State.reg64, State.setReg64, State.setReg_reg_same, State.setReg_reg_ne _ _ (by omega), State.setReg_reg_same,
    BitVec.toNat_ofNat, BitVec.toNat_ofNat, Nat.shiftRight_eq_div_pow]
  omega

/-- A quantity is told by its two registers. -/
theorem State.reg64_congr {s t : State} {a : Nat} (h1 : t.reg a = s.reg a) (h2 : t.reg (a + 4) = s.reg (a + 4)) :
    t.reg64 a = s.reg64 a := by rw [State.reg64, State.reg64, h1, h2]

theorem State.reg64_lt (s : State) (a : Nat) : s.reg64 a < 2 ^ 64 := by
  have h1 := (s.reg a).isLt
  have h2 := (s.reg (a + 4)).isLt
  rw [State.reg64]; omega

/-- A field of 64 bits is the whole quantity. -/
theorem State.f_wide (s : State) {a : Nat} : s.f ⟨a, 0, 64⟩ = s.reg64 a := by
  rw [State.f, if_neg (by simp), bitsOf, Nat.shiftRight_zero, Nat.mod_eq_of_lt (s.reg64_lt a)]

theorem setBits_wide {v : Nat} (h : v < 2 ^ 64) (x : Nat) : setBits v 0 64 x = x % 2 ^ 64 := by
  rw [setBits_eq, Nat.div_eq_of_lt (by simpa using h)]; omega

theorem State.setF_wide (s : State) {a : Nat} (v : Nat) : s.setF ⟨a, 0, 64⟩ v = s.setReg64 a (v % 2 ^ 64) := by
  rw [State.setF, if_neg (by simp), setBits_wide (s.reg64_lt a)]

theorem State.setF_wide_reg64 (s : State) {a : Nat} (v : Nat) : (s.setF ⟨a, 0, 64⟩ v).reg64 a = v % 2 ^ 64 := by
  rw [State.setF_wide, State.setReg64_reg64_same, Nat.mod_mod]

theorem State.setF_wide_onlyRegs (s : State) {a : Nat} (v : Nat) : OnlyRegs s (s.setF ⟨a, 0, 64⟩ v) [a, a + 4] := by
  rw [State.setF_wide]; exact setReg64_onlyRegs s a _

/-! ### Frames -/

theorem SameRegs.trans {s t u : State} {l : List Nat} (h : SameRegs s t l) (k : SameRegs t u l) : SameRegs s u l :=
  fun o ho => (k o ho).trans (h o ho)

theorem SameRegs.mono {s t : State} {l l' : List Nat} (h : SameRegs s t l) (hl : l ⊆ l') : SameRegs s t l' :=
  fun o ho => h o fun hm => ho (hl hm)

theorem OnlyRegs.mono {s t : State} {l l' : List Nat} (h : OnlyRegs s t l) (hl : l ⊆ l') : OnlyRegs s t l' :=
  ⟨h.1, SameRegs.mono h.2 hl⟩

theorem OnlyRegs.refl (s : State) (l : List Nat) : OnlyRegs s s l := ⟨rfl, fun _ _ => rfl⟩

/-- A field of a register outside the frame stays. -/
theorem SameRegs.f_eq {s t : State} {l : List Nat} (h : SameRegs s t l) {F : Fld} (hF : F.lo + F.w ≤ 32) (ho : F.off ∉ l) :
    t.f F = s.f F := State.f_congr F hF (h _ ho)

/-! ### States that read as another -/

theorem ReadsAs.refl (s : State) : ReadsAs s s := ⟨rfl, fun _ => rfl, fun _ => rfl⟩

theorem ReadsAs.trans {s t u : State} (h : ReadsAs s t) (k : ReadsAs t u) : ReadsAs s u := by
  obtain ⟨h, hr, hs⟩ := h
  obtain ⟨k, kr, ks⟩ := k
  exact ⟨by rw [k, h], fun o => (kr o).trans (hr o), fun o => (ks o).trans (hs o)⟩

theorem ReadsAs.reg64 {s t : State} (h : ReadsAs s t) (a : Nat) : t.reg64 a = s.reg64 a := State.reg64_congr (h.2.1 _) (h.2.1 _)

theorem ReadsAs.f {s t : State} (h : ReadsAs s t) (F : Fld) : t.f F = s.f F := by
  rw [State.f, State.f, h.2.1, h.reg64]

theorem ReadsAs.flag {s t : State} (h : ReadsAs s t) (F : Fld) : t.flag F = s.flag F := by
  rw [State.flag, State.flag, h.f]

theorem ReadsAs.kln {s t : State} (h : ReadsAs s t) : t.kln = s.kln := by rw [h.1]

/-- A change of Kiln's state goes along. -/
theorem ReadsAs.withKln {s t : State} (h : ReadsAs s t) (k : Kiln) : ReadsAs { s with kln := k } { t with kln := k } :=
  ⟨congrArg (fun u : State => { u with kln := k }) h.1, h.2.1, h.2.2⟩

theorem ReadsAs.setReg {s t : State} (h : ReadsAs s t) (a : Nat) (v : Word) : ReadsAs (s.setReg a v) (t.setReg a v) := by
  refine ⟨congrArg (fun u : State => { u with regs := (t.setReg a v).regs }) h.1, fun o => ?_, h.2.2⟩
  by_cases ho : o = a
  · subst ho; rw [State.setReg_reg_same, State.setReg_reg_same]
  · rw [State.setReg_reg_ne _ _ ho, State.setReg_reg_ne _ _ ho, h.2.1]

theorem ReadsAs.setF {s t : State} (h : ReadsAs s t) {F : Fld} (hF : F.lo + F.w ≤ 32) (v : Nat) :
    ReadsAs (s.setF F v) (t.setF F v) := by
  rw [State.setF, State.setF, if_pos hF, if_pos hF, h.2.1]
  exact h.setReg _ _

theorem ReadsAs.note {s t : State} (h : ReadsAs s t) (F : Fld) : ReadsAs (s.note F) (t.note F) := by
  obtain ⟨heq, hr, hs⟩ := h
  have hnow : t.hwNow = s.hwNow := by rw [heq]
  refine ⟨?_, hr, hs⟩
  rw [State.note_eq t, State.note_eq s, show (t.note F).hwNow = (s.note F).hwNow by simp only [State.note, hnow]]
  exact congrArg (fun u : State => { u with hwNow := (s.note F).hwNow }) heq

theorem ReadsAs.raise {s t : State} (h : ReadsAs s t) {F : Fld} (hF : F.lo + F.w ≤ 32) : ReadsAs (s.raise F) (t.raise F) :=
  (h.setF hF 1).note F

/-- A register that takes the word it holds reads as it did. -/
theorem readsAs_setReg_self (s : State) {a : Nat} {v : Word} (h : v = s.reg a) : ReadsAs s (s.setReg a v) := by
  subst h
  exact ⟨rfl, State.setReg_self_reg s a, fun _ => rfl⟩

/-- A field that takes the value it holds reads as it did. -/
theorem readsAs_setF_self (s : State) {F : Fld} (hF : F.lo + F.w ≤ 32) {v : Nat} (h : v % 2 ^ F.w = s.f F) :
    ReadsAs s (s.setF F v) := by
  rw [State.setF, if_pos hF]
  refine readsAs_setReg_self s (BitVec.eq_of_toNat_eq ?_)
  rw [BitVec.toNat_ofNat, Nat.mod_eq_of_lt (setBits_lt hF (s.reg F.off).isLt)]
  refine Nat.eq_of_testBit_eq fun i => ?_
  rw [setBits_testBit]
  split
  · rfl
  split
  · have hbit := congrArg (Nat.testBit · (i - F.lo)) h
    rw [State.f_narrow _ _ hF] at hbit
    simpa [bitsOf_testBit, Nat.testBit_mod_two_pow, show i - F.lo < F.w by omega, show F.lo + (i - F.lo) = i by omega] using hbit
  · rfl

theorem readsAs_setStg_self (s : State) {a : Nat} {v : Word} (h : v = s.stg a) : ReadsAs s (s.setStg a v) := by
  subst h
  refine ⟨rfl, fun _ => rfl, fun o => ?_⟩
  by_cases ho : o = a
  · subst ho; rw [State.setStg_stg_same]
  · rw [State.setStg_stg_ne _ _ ho]

/-- A field that is 0 or 1 is told by its truth value. -/
theorem State.f_eq_flag (s : State) {F : Fld} (hw : F.w = 1) : s.f F = (s.flag F).toNat := by
  have h := s.f_lt F
  rw [hw] at h
  rw [State.flag]
  obtain h0 | h1 : s.f F = 0 ∨ s.f F = 1 := by omega
  · rw [h0]; rfl
  · rw [h1]; rfl

end Sys2Proof.Machine
end

section
/-! The reference, PPS edges and the field copy (R38 to R44). -/

namespace Sys2Proof.Machine

open Sys2Proof Reg

/-! ### The reference (R38, R39) -/

/-- The state in which the selected reference is not valid. -/
def refBad (s : State) : State := { s with kln.refGood := s.kln.refGood.filter (· != s.f MST_REFSEL_SRC) }

/-- The state registers in which holdover has begun. -/
def holdoverOn (s : State) : State := ((s.setF MST_STATUS_HOLDOVER 1).raise MST_STATUS_REFLOST).setF MST_STATUS_LOCKED 0

theorem referenceLost_locked {s : State} (h : s.flag MST_STATUS_HOLDOVER = false) : referenceLost s =
    logFault 6 0 ((holdoverOn (refBad s)).f MST_REFSEL_SRC) 0 (pulse 0x23A (holdoverOn (refBad s))) :=
  if_neg (Bool.eq_false_iff.1 h)

theorem referenceLost_holdover {s : State} (h : s.flag MST_STATUS_HOLDOVER = true) : referenceLost s = refBad s := if_pos h

theorem holdoverOn_onlyNoted (s : State) : OnlyNoted s (holdoverOn s) [MST_STATUS] :=
  ((setF_onlyRegs s _ _ (by decide) (by decide)).noted.trans (raise_onlyNoted _ _ (by decide) (by decide))).trans
    (setF_onlyRegs _ _ _ (by decide) (by decide)).noted

theorem holdoverOn_bits (s : State) : (holdoverOn s).f MST_STATUS_HOLDOVER = 1 ∧ (holdoverOn s).f MST_STATUS_REFLOST = 1 ∧
    (holdoverOn s).f MST_STATUS_LOCKED = 0 ∧ (holdoverOn s).f MST_STATUS_REF_ACTIVE = s.f MST_STATUS_REF_ACTIVE := by
  unfold holdoverOn
  refine ⟨?_, ?_, ?_, ?_⟩
  · rw [State.setF_f_ne _ _ _ _ (by decide) (by decide) (by decide), State.raise_f_ne _ _ _ (by decide) (by decide) (by decide),
      State.setF_f_same _ _ _ (by decide)]
    rfl
  · rw [State.setF_f_ne _ _ _ _ (by decide) (by decide) (by decide), State.raise_f_same _ _ (by decide) (by decide)]
  · rw [State.setF_f_same _ _ _ (by decide)]; rfl
  · rw [State.setF_f_ne _ _ _ _ (by decide) (by decide) (by decide), State.raise_f_ne _ _ _ (by decide) (by decide) (by decide),
      State.setF_f_ne _ _ _ _ (by decide) (by decide) (by decide)]

/-- The references that are valid when reference k has become so (R38). -/
def withRef (k : Nat) (l : List Nat) : List Nat := if l.contains k then l else l ++ [k]

theorem referenceValid_eq (s : State) : referenceValid s =
    { s with kln.refGood := withRef ((s.stg MST_REFSEL).toNat % 8) (withRef (s.f MST_REFSEL_SRC) s.kln.refGood) } := rfl

theorem mem_withRef {k : Nat} {l : List Nat} {j : Nat} : j ∈ withRef k l ↔ j ∈ l ∨ j = k := by
  unfold withRef
  split
  · next h =>
    have hk : k ∈ l := by simpa using h
    exact ⟨.inl, fun hj => hj.elim id fun e => e ▸ hk⟩
  · simp

theorem pllLock_locks {s : State} (hv : s.refValid = true) (hh : s.flag MST_STATUS_HOLDOVER = false) :
    pllLock s = s.setF MST_STATUS_LOCKED 1 := if_pos (by rw [hv, hh]; decide)

theorem pllLock_idle {s : State} (h : s.refValid = false ∨ s.flag MST_STATUS_HOLDOVER = true) : pllLock s = s := by
  rw [pllLock]
  obtain h | h := h <;> simp [h]

/-- Only a locked device with FOLLOW joins its parent's time (R459). -/
theorem frsJoin_idle {s : State} (h : s.flag MST_STATUS_LOCKED = false ∨ s.flag FRS_CFG_FOLLOW = false) (offset : Int) :
    frsJoin offset s = s := by
  unfold frsJoin
  refine if_pos ?_
  obtain h | h := h <;> simp [h]

/-! ### PPS and the field copy (R43, R44) -/

theorem ppsEdge_taken {rising : Bool} {s : State} (h1 : s.running = true) (h2 : s.flag MST_CTRL_PPS_EN = true)
    (h3 : rising = !s.flag MST_CTRL_PPS_EDGE) (fine : Nat) :
    ppsEdge rising fine s = pulse 0x239 ((s.setF MST_PPS_PPS (s.now + fc fine).toNat).raise MST_STATUS_PPS_SEEN) := by
  rw [ppsEdge, h1, h2, h3, if_pos (by cases s.flag MST_CTRL_PPS_EDGE <;> rfl)]

theorem ppsEdge_other {rising : Bool} {s : State}
    (h : s.running = false ∨ s.flag MST_CTRL_PPS_EN = false ∨ rising = s.flag MST_CTRL_PPS_EDGE) (fine : Nat) :
    ppsEdge rising fine s = s := by
  rw [ppsEdge]
  obtain h | h | h := h <;> simp [h]

/-- What an edge leaves before its source pulses. -/
theorem ppsEdge_noted (n : Nat) (s : State) :
    OnlyNoted s ((s.setF MST_PPS_PPS n).raise MST_STATUS_PPS_SEEN) [MST_PPS, MST_PPS + 4, MST_STATUS] :=
  ((s.setF_wide_onlyRegs n).mono (by simp)).noted.trans (raise_onlyNoted _ _ (by decide) (by decide))

theorem ppsEdge_count (t : Time) (s : State) :
    ((s.setF MST_PPS_PPS t.toNat).raise MST_STATUS_PPS_SEEN).reg64 MST_PPS = t.toNat := by
  rw [State.reg64_congr (State.raise_reg_ne _ _ (by decide) (by decide)) (State.raise_reg_ne _ _ (by decide) (by decide)),
    MST_PPS_PPS, State.setF_wide_reg64, Nat.mod_eq_of_lt t.isLt]

/-- The registers in which the residual of a realignment has been reported (R50). -/
def residTold (resid : Int) (s : State) : State := { s.setF MST_FLDSKEW_RESID (ofSigned 16 resid) with kln.copy := none }

theorem residTold_onlyRegs (resid : Int) (s : State) : OnlyRegs { s with kln.copy := none } (residTold resid s) [MST_FLDSKEW] :=
  setF_onlyRegs { s with kln.copy := none } MST_FLDSKEW_RESID _ (by decide) (by decide)

theorem residTold_resid (resid : Int) (s : State) : (residTold resid s).f MST_FLDSKEW_RESID = ofSigned 16 resid % 2 ^ 16 :=
  State.setF_f_same s MST_FLDSKEW_RESID _ (by decide)

/-- The registers in which the field copy is not aligned. -/
def alignLost (s : State) : State := (s.setF MST_STATUS_FLD_ALIGNED 0).raise MST_STATUS_FLD_ALIGNLOSS

theorem alignLost_onlyNoted (s : State) : OnlyNoted s (alignLost s) [MST_STATUS] :=
  (setF_onlyRegs s _ _ (by decide) (by decide)).noted.trans (raise_onlyNoted _ _ (by decide) (by decide))

theorem fieldRealign_unlinked {s : State} (h : s.linked = false) (resid : Int) : fieldRealign resid s = s := if_pos (by simp [h])

theorem fieldRealign_within {resid : Int} {s : State} (h : s.linked = true) (hr : resid.natAbs ≤ 49) :
    fieldRealign resid s = (residTold resid s).setF MST_STATUS_FLD_ALIGNED 1 := by
  rw [fieldRealign, if_neg (by simp [h])]
  exact if_pos hr

theorem fieldRealign_beyond {resid : Int} {s : State} (h : s.linked = true) (hr : 49 < resid.natAbs) :
    fieldRealign resid s = logFault 7 0 0 ((pulse 0x23B (alignLost (residTold resid s))).f MST_FLDSKEW_RESID)
      (pulse 0x23B (alignLost (residTold resid s))) := by
  rw [fieldRealign, if_neg (by simp [h])]
  exact if_neg (by omega)

/-- A pulse leaves the timebase's fields. -/
theorem pulse_f (src : Nat) (s : State) {F : Fld} (hF : F.lo + F.w ≤ 32) (h1 : F.off ≠ RIG_STATUS) (h2 : F.off ≠ RIG_DLYINFO) :
    (pulse src s).f F = s.f F := State.f_congr F hF ((pulse_only src s).reg h1 h2)

end Sys2Proof.Machine

namespace Sys2Proof

open Machine Reg

/-- Settles O7: each event is taken or not by its guard, and what it leaves is read off field by field. -/
theorem referencesAndAlignment : Obligations.ReferencesAndAlignment := by
  refine ⟨fun s => ⟨fun h => ?lost, fun h => congrArg Host.Outcome.next (referenceLost_holdover h), ?valid, fun hv hh => ?locks,
    fun h => ?idle⟩, fun rising fine s => ⟨fun h1 h2 h3 => ?edge, fun h => congrArg Host.Outcome.next (ppsEdge_other h _)⟩,
    fun resid s h => ⟨fun hr => ?within, fun hr => ?beyond⟩,
    fun resid s h => congrArg Host.Outcome.next (fieldRealign_unlinked h resid)⟩
  case lost =>
    obtain ⟨heq, hregs⟩ := holdoverOn_onlyNoted (refBad s)
    obtain ⟨hhold, hlost, hlocked, hactive⟩ := holdoverOn_bits (refBad s)
    have hsrc : (holdoverOn (refBad s)).f MST_REFSEL_SRC = s.f MST_REFSEL_SRC := SameRegs.f_eq hregs (by decide) (by decide)
    refine ⟨holdoverOn (refBad s), congrArg Host.Outcome.next ?_, heq, hregs, hhold, hlost, hlocked, hactive⟩
    rw [referenceLost_locked h, hsrc]
  case valid =>
    refine ⟨_, congrArg Host.Outcome.next (referenceValid_eq s), rfl, ?_, mem_withRef.2 (.inr rfl),
      fun k hk => mem_withRef.2 (.inl (mem_withRef.2 (.inl hk)))⟩
    exact List.contains_iff_mem.2 (mem_withRef.2 (.inl (mem_withRef.2 (.inr rfl))))
  case locks =>
    have hexec : exec .mastPllLock s = .next (frsJoin s.frs.ofs (s.setF MST_STATUS_LOCKED 1)) := by
      rw [← pllLock_locks hv hh]; rfl
    have honly := setF_onlyRegs s MST_STATUS_LOCKED 1 (l := [MST_STATUS]) (by decide) (by decide)
    refine ⟨s.setF MST_STATUS_LOCKED 1, by rw [hexec, State.setF_frs], State.setF_f_same _ _ _ (by decide), honly, fun hf => ?_⟩
    have hfollow : (s.setF MST_STATUS_LOCKED 1).flag FRS_CFG_FOLLOW = false := by
      rw [State.flag, SameRegs.f_eq honly.2 (by decide) (by decide)]; exact hf
    rw [hexec, frsJoin_idle (.inr hfollow)]
  case idle =>
    have hexec : exec .mastPllLock s = .next (frsJoin s.frs.ofs s) :=
      congrArg (fun t => Host.Outcome.next (frsJoin s.frs.ofs t)) (pllLock_idle h)
    exact ⟨hexec, fun hf => hexec.trans (congrArg Host.Outcome.next (frsJoin_idle hf _))⟩
  case edge =>
    exact ⟨_, congrArg Host.Outcome.next (ppsEdge_taken h1 h2 h3 _), ppsEdge_count _ s, State.raise_f_same _ _ (by decide) (by decide),
      ppsEdge_noted _ s⟩
  case within =>
    refine ⟨_, congrArg Host.Outcome.next (fieldRealign_within h hr), State.setF_f_same _ _ _ (by decide), ?_,
      ((residTold_onlyRegs resid s).mono (by simp)).trans (setF_onlyRegs _ _ _ (by decide) (by decide))⟩
    rw [State.setF_f_ne _ _ _ _ (by decide) (by decide) (by decide), residTold_resid]
  case beyond =>
    have hlost := alignLost_onlyNoted (residTold resid s)
    have hresid : (alignLost (residTold resid s)).f MST_FLDSKEW_RESID = ofSigned 16 resid % 2 ^ 16 := by
      rw [SameRegs.f_eq hlost.2 (by decide) (by decide), residTold_resid]
    refine ⟨alignLost (residTold resid s), congrArg Host.Outcome.next ?_, ?_, State.raise_f_same _ _ (by decide) (by decide), hresid,
      ((residTold_onlyRegs resid s).mono (by simp)).noted.trans ⟨hlost.1, SameRegs.mono hlost.2 (by simp)⟩⟩
    · rw [fieldRealign_beyond h hr, pulse_f _ _ (by decide) (by decide) (by decide), hresid]
    · rw [alignLost, State.raise_f_ne _ _ _ (by decide) (by decide) (by decide), State.setF_f_same _ _ _ (by decide)]
      rfl

end Sys2Proof
end

section
/-! Ticks start and stop: writes of MST_CTRL and KLN_CTRL, and the end of ticks (R41, R59, R60, R70, R538). -/

namespace Sys2Proof.Machine

open Sys2Proof Reg

/-! ### States that read as another, continued -/

theorem ReadsAs.symm {s t : State} (h : ReadsAs s t) : ReadsAs t s := by
  obtain ⟨heq, hr, hs⟩ := h
  exact ⟨congrArg (fun u : State => { u with regs := s.regs, staged := s.staged }) heq.symm, fun o => (hr o).symm, fun o => (hs o).symm⟩

theorem ReadsAs.modKln {s t : State} (h : ReadsAs s t) (f : Kiln → Kiln) :
    ReadsAs { s with kln := f s.kln } { t with kln := f t.kln } := by
  rw [h.kln]; exact h.withKln _

theorem ReadsAs.ticking {s t : State} (h : ReadsAs s t) : t.ticking = s.ticking := h.flag _

theorem ReadsAs.nowSet {s t : State} (h : ReadsAs s t) : t.nowSet = s.nowSet := by
  rw [State.nowSet, State.nowSet, State.now, State.now, h.kln, h.f]

/-! ### The word that a write of one field carries (R10) -/

theorem setBits_getLsbD (w : Word) {lo n : Nat} (h : lo + n ≤ 32) (x i : Nat) :
    (BitVec.ofNat 32 (setBits w.toNat lo n x)).getLsbD i =
      if i < lo then w.getLsbD i else if i < lo + n then x.testBit (i - lo) else w.getLsbD i := by
  rw [BitVec.getLsbD_ofNat, setBits_testBit, BitVec.testBit_toNat]
  by_cases hi : i < 32
  · simp [hi]
  · rw [if_neg (by omega), if_neg (by omega), BitVec.getLsbD_of_ge _ _ (Nat.le_of_not_lt hi), Bool.and_false]

/-- A one-bit field is a bit of its register. -/
theorem State.flag_eq_getLsbD (s : State) {a k : Nat} (hk : k < 32) : s.flag ⟨a, k, 1⟩ = (s.reg a).getLsbD k := by
  rw [State.flag, State.f_narrow _ _ (by simpa using hk), ← BitVec.testBit_toNat]
  simp only [bitsOf, Nat.testBit, Nat.shiftRight_eq_div_pow, Nat.pow_one, Nat.and_comm 1, Nat.and_one_is_mod]

/-- What stands under a mask comes back where a word has been written that agrees with it there. -/
theorem merge_of_agree {w v : Word} {m : Nat} (h : ∀ i, i < 32 → (BitVec.ofNat 32 m).getLsbD i = true → v.getLsbD i = w.getLsbD i) :
    merge w v m = w := by
  refine BitVec.eq_of_getLsbD_eq fun i hi => ?_
  rw [merge, BitVec.getLsbD_or, BitVec.getLsbD_and, BitVec.getLsbD_and, BitVec.getLsbD_not, decide_eq_true hi]
  cases hm : (BitVec.ofNat 32 m).getLsbD i
  · simp
  · simp [h i hi hm]

/-! ### MST_CTRL.RUN (R41) -/

theorem kept_MST_CTRL (s : State) : s.kept MST_CTRL = (s.reg MST_CTRL &&& 1#32) ||| (s.stg MST_CTRL &&& 6#32) := by
  rw [State.kept, rowAt_MST_CTRL]; rfl

/-- A write of RUN leaves the staged settings of MST_CTRL, and starts or stops the timebase. -/
theorem setField_MST_CTRL_RUN {s : State} (hr : s.reaches MST_CTRL) (req x : Nat) : ∃ t, ReadsAs s t ∧
    setField req MST_CTRL_RUN x s = if x.testBit 0 = true then timebaseStart t else timebaseStop req t := by
  let v := BitVec.ofNat 32 (setBits (s.kept MST_CTRL).toNat 0 1 x)
  have hbit : v.getLsbD 0 = x.testBit 0 := setBits_getLsbD _ (by decide) _ _
  have hmerge : merge (s.stg MST_CTRL) v 6 = s.stg MST_CTRL := by
    have hmask : ∀ i, i < 32 → (BitVec.ofNat 32 6).getLsbD i = true → i = 1 ∨ i = 2 := by decide
    refine merge_of_agree fun i hlt hi => ?_
    rw [setBits_getLsbD _ (by decide), kept_MST_CTRL]
    obtain rfl | rfl := hmask i hlt hi <;> simp
  refine ⟨s.setStg MST_CTRL (merge (s.stg MST_CTRL) v 6), readsAs_setStg_self s hmerge, ?_⟩
  rw [setField, show MST_CTRL_RUN.off = MST_CTRL from rfl, softWrite_reaches _ _ hr (by decide), putWord, if_neg (by decide),
    if_neg (by decide), ← hbit]
  rfl

theorem timebaseStart_readsAs {s t : State} (h : ReadsAs s t) :
    ReadsAs (if s.flag MST_CTRL_RUN = true then s else { s.setF MST_CTRL_RUN 1 with kln.loadSet := true }) (timebaseStart t) := by
  rw [timebaseStart, h.flag]
  split
  · exact h
  · exact (h.setF (by decide) 1).modKln fun k => { k with loadSet := true }

theorem timebaseStop_readsAs {s t : State} (h : ReadsAs s t)
    (hk : s.flag MST_CTRL_RUN = false ∨ s.flag KLN_CTRL_RUN = false ∧ s.ticking = false) (req : Nat) :
    ReadsAs (if s.flag MST_CTRL_RUN = true then { s.setF MST_CTRL_RUN 0 with kln.loadSet := false } else s) (timebaseStop req t) := by
  rw [timebaseStop, h.flag, h.flag, h.ticking]
  obtain hrun | ⟨hkln, htick⟩ := hk
  · simpa [hrun] using h
  · rw [hkln, htick]
    cases s.flag MST_CTRL_RUN
    · exact h
    · exact (h.setF (by decide) 0).modKln fun k => { k with loadSet := false }

theorem timebaseStop_refused {t : State} (hrun : t.flag MST_CTRL_RUN = true)
    (hk : t.flag KLN_CTRL_RUN = true ∨ t.ticking = true) (req : Nat) : timebaseStop req t = werr req MST_CTRL t := by
  rw [timebaseStop, hrun, if_neg (by decide), if_pos (by simpa using hk)]

/-! ### KLN_CTRL (R59, R60, R70) -/

theorem kept_KLN_CTRL_getLsbD (s : State) {i : Nat} (hi : i < 2) : (s.kept KLN_CTRL).getLsbD i = (s.reg KLN_CTRL).getLsbD i := by
  rw [State.kept, rowAt_KLN_CTRL]
  show ((s.reg KLN_CTRL &&& 3#32) ||| (s.stg KLN_CTRL &&& 0#32)).getLsbD i = _
  obtain rfl | rfl : i = 0 ∨ i = 1 := by omega
  all_goals simp

/-- A write of KLN_CTRL acts on HOLD and then on RUN. -/
theorem softWrite_KLN_CTRL {s : State} (hr : s.reaches KLN_CTRL) (req : Nat) (v : Word) : softWrite req KLN_CTRL v s =
    if v.getLsbD 0 = true then ticksStart req (kilnHold (v.getLsbD 1) s) else ticksStop (kilnHold (v.getLsbD 1) s) := by
  rw [softWrite_reaches _ _ hr (by decide), putWord, if_neg (by decide), if_neg (by decide)]
  rfl

theorem setField_KLN_CTRL_RUN {s : State} (hr : s.reaches KLN_CTRL) (req x : Nat) : setField req KLN_CTRL_RUN x s =
    if x.testBit 0 = true then ticksStart req (kilnHold (s.flag KLN_CTRL_HOLD) s) else ticksStop (kilnHold (s.flag KLN_CTRL_HOLD) s) := by
  have hrun : (BitVec.ofNat 32 (setBits (s.kept KLN_CTRL).toNat 0 1 x)).getLsbD 0 = x.testBit 0 := setBits_getLsbD _ (by decide) _ _
  have hhold : (BitVec.ofNat 32 (setBits (s.kept KLN_CTRL).toNat 0 1 x)).getLsbD 1 = s.flag KLN_CTRL_HOLD :=
    (setBits_getLsbD _ (by decide) _ _).trans
      ((kept_KLN_CTRL_getLsbD s (by decide)).trans (State.flag_eq_getLsbD s (by decide)).symm)
  rw [← hrun, ← hhold]
  exact softWrite_KLN_CTRL hr _ _

theorem setField_KLN_CTRL_HOLD {s : State} (hr : s.reaches KLN_CTRL) (req : Nat) (on : Bool) :
    setField req KLN_CTRL_HOLD on.toNat s =
      if s.flag KLN_CTRL_RUN = true then ticksStart req (kilnHold on s) else ticksStop (kilnHold on s) := by
  have hrun : (BitVec.ofNat 32 (setBits (s.kept KLN_CTRL).toNat 1 1 on.toNat)).getLsbD 0 = s.flag KLN_CTRL_RUN :=
    (setBits_getLsbD _ (by decide) _ _).trans
      ((kept_KLN_CTRL_getLsbD s (by decide)).trans (State.flag_eq_getLsbD s (by decide)).symm)
  have hhold : (BitVec.ofNat 32 (setBits (s.kept KLN_CTRL).toNat 1 1 on.toNat)).getLsbD 1 = on :=
    (setBits_getLsbD _ (by decide) _ _).trans (by cases on <;> rfl)
  have hwrite := softWrite_KLN_CTRL hr req (BitVec.ofNat 32 (setBits (s.kept KLN_CTRL).toNat 1 1 on.toNat))
  rw [hrun, hhold] at hwrite
  exact hwrite

/-- The armed blocks after a write of HOLD: its release while no ticks are issued arms every waiting block again (R70). -/
def State.armedOnHold (s : State) (on : Bool) : SMap Nat :=
  if on = false ∧ s.flag KLN_CTRL_HOLD = true ∧ s.ticking = false then s.kln.armed.map (fun p => (p.1, s.mc + 6)) else s.kln.armed

theorem setF_ticking (s : State) {F : Fld} (v : Nat) (hF : F.lo + F.w ≤ 32) (ho : F.off ≠ KLN_STATUS) :
    (s.setF F v).ticking = s.ticking := by
  rw [State.ticking, State.flag, State.setF_f_ne _ _ _ _ hF (by decide) (.inl (Ne.symm ho))]; rfl

theorem kilnHold_on (s : State) : kilnHold true s = s.setF KLN_CTRL_HOLD 1 := if_pos rfl

theorem kilnHold_off_unheld {s : State} (h : s.flag KLN_CTRL_HOLD = false) : kilnHold false s = s := by
  rw [kilnHold, if_neg (by decide), if_pos (by simp [h])]

theorem kilnHold_release {s : State} (h : s.flag KLN_CTRL_HOLD = true) :
    kilnHold false s = if s.ticking = true then s.setF KLN_CTRL_HOLD 0 else rearm (s.setF KLN_CTRL_HOLD 0) := by
  rw [kilnHold, if_neg (by decide), if_neg (by simp [h])]
  dsimp only
  rw [setF_ticking _ _ (by decide) (by decide)]

/-- The state that a write of HOLD alone leaves. -/
def holdSet (on : Bool) (s : State) : State := { s.setF KLN_CTRL_HOLD on.toNat with kln.armed := s.armedOnHold on }

theorem holdSet_unarmed {on : Bool} {s : State} (h : s.armedOnHold on = s.kln.armed) :
    holdSet on s = s.setF KLN_CTRL_HOLD on.toNat := by
  rw [holdSet, h, ← State.setF_kln s KLN_CTRL_HOLD on.toNat]

theorem kilnHold_readsAs (on : Bool) (s : State) : ReadsAs (holdSet on s) (kilnHold on s) := by
  cases on
  case true =>
    rw [holdSet_unarmed (if_neg (by simp)), kilnHold_on]; exact .refl _
  case false =>
    cases hh : s.flag KLN_CTRL_HOLD
    · have hf : s.f KLN_CTRL_HOLD = 0 := by rw [State.f_eq_flag s (F := KLN_CTRL_HOLD) rfl, hh]; rfl
      rw [holdSet_unarmed (if_neg (by simp [hh])), kilnHold_off_unheld hh]
      exact (readsAs_setF_self s (by decide) (by rw [hf]; rfl)).symm
    · rw [kilnHold_release hh]
      cases ht : s.ticking
      · rw [holdSet, State.armedOnHold, if_pos ⟨rfl, hh, ht⟩, if_neg (by decide), rearm, State.setF_kln, State.setF_mc]
        exact .refl _
      · rw [holdSet_unarmed (if_neg (by simp [ht])), if_pos rfl]
        exact .refl _

/-- A write of HOLD as it stands. -/
theorem kilnHold_same_readsAs (s : State) : ReadsAs s (kilnHold (s.flag KLN_CTRL_HOLD) s) := by
  refine .trans ?_ (kilnHold_readsAs _ s)
  rw [holdSet_unarmed (if_neg (by simp +contextual))]
  refine readsAs_setF_self s (by decide) ?_
  rw [State.f_eq_flag s (F := KLN_CTRL_HOLD) rfl]
  cases s.flag KLN_CTRL_HOLD <;> rfl

theorem ticksStop_eq (s : State) :
    ticksStop s = { s.setF KLN_CTRL_RUN 0 with kln.first := if s.ticking = true then s.kln.first else none } := by
  have hfirst : s.kln.first = (s.setF KLN_CTRL_RUN 0).kln.first := by rw [State.setF_kln]
  rw [ticksStop]
  dsimp only
  rw [setF_ticking _ _ (by decide) (by decide), hfirst]
  split <;> rfl

theorem ticksStop_readsAs {s t : State} (h : ReadsAs s t) :
    ReadsAs { s.setF KLN_CTRL_RUN 0 with kln.first := if s.ticking = true then s.kln.first else none } (ticksStop t) := by
  rw [ticksStop_eq, h.ticking, h.kln]
  exact (h.setF (by decide) 0).modKln fun k => { k with first := if s.ticking = true then s.kln.first else none }

theorem ticksStart_running {t : State} (h : t.flag KLN_CTRL_RUN = true) (req : Nat) : ticksStart req t = t := if_pos h

theorem ticksStart_refused {t : State} (h : t.flag KLN_CTRL_RUN = false) (hm : t.flag MST_CTRL_RUN = false) (req : Nat) :
    ticksStart req t = werr req KLN_CTRL t := by
  rw [ticksStart, if_neg (by simp [h]), if_pos (by simp [hm])]

theorem ticksStart_ticking {t : State} (h : t.flag KLN_CTRL_RUN = false) (hm : t.flag MST_CTRL_RUN = true) (ht : t.ticking = true)
    (req : Nat) : ticksStart req t = t.setF KLN_CTRL_RUN 1 := by
  rw [ticksStart, if_neg (by simp [h]), if_neg (by simp [hm])]
  exact if_pos ((setF_ticking _ _ (by decide) (by decide)).trans ht)

/-- The first boundary where it is asked for while no ticks are issued: KLN_FIRST where it lies ahead far enough, else 4 mc
from now (R59, R81). -/
def startTicks (u : State) : State :=
  let f := fc (u.f KLN_FIRST_FIRST / 256 * 256)
  let d := (f - u.nowSet).toNat
  if 1024 ≤ d && d < 2 ^ 63 then { u with kln.first := some f }
  else { u.raise KLN_STATUS_START_LATE with kln.first := some (u.nowSet + 1024) }

theorem ticksStart_first {t : State} (h : t.flag KLN_CTRL_RUN = false) (hm : t.flag MST_CTRL_RUN = true) (ht : t.ticking = false)
    (req : Nat) : ticksStart req t = startTicks (t.setF KLN_CTRL_RUN 1) := by
  rw [ticksStart, if_neg (by simp [h]), if_neg (by simp [hm])]
  exact if_neg (by rw [setF_ticking _ _ (by decide) (by decide), ht]; decide)

theorem startTicks_ahead {u : State} {f : Time} (hf : f = fc (u.f KLN_FIRST_FIRST / 256 * 256)) (h1 : 1024 ≤ (f - u.nowSet).toNat)
    (h2 : (f - u.nowSet).toNat < 2 ^ 63) : startTicks u = { u with kln.first := some f } := by
  subst hf
  exact if_pos (Bool.and_eq_true_iff.2 ⟨decide_eq_true h1, decide_eq_true h2⟩)

theorem startTicks_late {u : State} {f : Time} (hf : f = fc (u.f KLN_FIRST_FIRST / 256 * 256))
    (h : (f - u.nowSet).toNat < 1024 ∨ 2 ^ 63 ≤ (f - u.nowSet).toNat) :
    startTicks u = { u.raise KLN_STATUS_START_LATE with kln.first := some (u.nowSet + 1024) } := by
  subst hf
  refine if_neg fun hc => ?_
  obtain ⟨h1, h2⟩ := Bool.and_eq_true_iff.1 hc
  have h1 := of_decide_eq_true h1
  have h2 := of_decide_eq_true h2
  omega

/-- RUN is no part of what a start reads of the timebase. -/
theorem setF_KLN_CTRL_RUN_start (s : State) (v : Nat) :
    (s.setF KLN_CTRL_RUN v).f KLN_FIRST_FIRST = s.f KLN_FIRST_FIRST ∧ (s.setF KLN_CTRL_RUN v).nowSet = s.nowSet := by
  have hreg : SameRegs s (s.setF KLN_CTRL_RUN v) [KLN_CTRL] := (setF_onlyRegs s _ _ (by decide) (by decide)).2
  have h64 (a : Nat) (ha : a ∉ [KLN_CTRL]) (hb : a + 4 ∉ [KLN_CTRL]) : (s.setF KLN_CTRL_RUN v).f ⟨a, 0, 64⟩ = s.f ⟨a, 0, 64⟩ := by
    rw [State.f_wide, State.f_wide, State.reg64_congr (hreg _ ha) (hreg _ hb)]
  refine ⟨h64 _ (by decide) (by decide), ?_⟩
  rw [State.nowSet, State.nowSet, MST_SET_SET, h64 _ (by decide) (by decide), State.setF_kln, State.setF_now]

/-! ### The end of ticks, and virtual boundaries (R60, R538) -/

/-- The slot walk goes on from the boundary at which none is issued. -/
def ticksEnded (s : State) : State :=
  let t := s.setF KLN_STATUS_TICKING 0
  { t with kln.slotBase := t.kln.next, kln.slotK := 0, kln.virt := t.kln.next + fc (256 * t.f KLN_PERIOD_PERIOD) }

theorem ticksEnded_eq (s : State) : ticksEnded s =
    { s with regs := (s.setF KLN_STATUS_TICKING 0).regs, kln.slotBase := s.kln.next, kln.slotK := 0
             kln.virt := s.kln.next + fc (256 * s.f KLN_PERIOD_PERIOD) } := by
  have hper : (s.setF KLN_STATUS_TICKING 0).f KLN_PERIOD_PERIOD = s.f KLN_PERIOD_PERIOD :=
    State.setF_f_ne _ _ _ _ (by decide) (by decide) (by decide)
  rw [ticksEnded]
  dsimp only
  rw [hper]
  rfl

theorem ticksEnded_regs (s : State) : (ticksEnded s).f KLN_STATUS_TICKING = 0 ∧ SameRegs s (ticksEnded s) [KLN_STATUS] :=
  ⟨State.setF_f_same s KLN_STATUS_TICKING 0 (by decide), (setF_onlyRegs s KLN_STATUS_TICKING 0 (by decide) (by decide)).2⟩

theorem tickingEnd_due {s : State} (h1 : s.ticking = true) (h2 : s.flag KLN_CTRL_RUN = false) (h3 : s.running = true)
    (h4 : reached s.kln.next s.now = true) :
    tickingEnd s = if s.flag KLN_CTRL_HOLD = true then ticksEnded s else rearm (ticksEnded s) := by
  have hhold : (ticksEnded s).flag KLN_CTRL_HOLD = s.flag KLN_CTRL_HOLD :=
    congrArg (· != 0) (SameRegs.f_eq (ticksEnded_regs s).2 (by decide) (by decide))
  rw [← hhold, tickingEnd, if_neg (by simp [h1, h2, h3, h4])]
  rfl

theorem tickingEnd_idle {s : State}
    (h : s.ticking = false ∨ s.flag KLN_CTRL_RUN = true ∨ s.running = false ∨ reached s.kln.next s.now = false) :
    tickingEnd s = s := by
  refine if_pos ?_
  obtain h | h | h | h := h <;> simp [h]

theorem virtualBoundary_due {s : State} (h1 : s.ticking = false) (h2 : s.running = true) (h3 : reached s.kln.virt s.now = true) :
    virtualBoundary s = { s with kln.slotBase := s.kln.virt, kln.slotK := 0,
                                 kln.virt := s.kln.virt + fc (256 * s.f KLN_PERIOD_PERIOD) } :=
  if_neg (by simp [h1, h2, h3])

theorem virtualBoundary_idle {s : State} (h : s.ticking = true ∨ s.running = false ∨ reached s.kln.virt s.now = false) :
    virtualBoundary s = s := by
  refine if_pos ?_
  obtain h | h | h := h <;> simp [h]

end Sys2Proof.Machine

namespace Sys2Proof

open Machine Reg

/-- Settles O8: a write of KLN_CTRL leaves HOLD and RUN as they read where it does not name them, so that each command is its
one effect on a state that reads as the given one. -/
theorem ticksStartAndStop : Obligations.TicksStartAndStop := by
  refine ⟨fun req s hr => ?_, fun s => ⟨fun h1 h2 h3 h4 => ?ends, fun h => congrArg Host.Outcome.next (tickingEnd_idle h),
    fun h1 h2 h3 => congrArg Host.Outcome.next (virtualBoundary_due h1 h2 h3),
    fun h => congrArg Host.Outcome.next (virtualBoundary_idle h)⟩⟩
  · have hread := kilnHold_same_readsAs s
    have hstart : exec (.ticksStart req) s = .next (ticksStart req (kilnHold (s.flag KLN_CTRL_HOLD) s)) :=
      congrArg Host.Outcome.next ((setField_KLN_CTRL_RUN hr req 1).trans (if_pos (by decide)))
    have hstop : exec (.ticksStop req) s = .next (ticksStop (kilnHold (s.flag KLN_CTRL_HOLD) s)) :=
      congrArg Host.Outcome.next ((setField_KLN_CTRL_RUN hr req 0).trans (if_neg (by decide)))
    have hhold (on : Bool) : exec (.kilnHold req on) s = .next
        (if s.flag KLN_CTRL_RUN = true then ticksStart req (kilnHold on s) else ticksStop (kilnHold on s)) :=
      congrArg Host.Outcome.next (setField_KLN_CTRL_HOLD hr req on)
    generalize kilnHold (s.flag KLN_CTRL_HOLD) s = t at hread hstart hstop
    have hset := hread.setF (F := KLN_CTRL_RUN) (by decide) 1
    obtain ⟨hfirst, hnow⟩ := setF_KLN_CTRL_RUN_start s 1
    refine ⟨fun h => ⟨t, hstart.trans ?_, hread⟩, fun h hm => ⟨t, werr req KLN_CTRL t, hread, hstart.trans ?_, werr_refused _ _ _⟩,
      fun h hm ht => ⟨_, hstart.trans ?_, hset⟩, fun f hf h hm ht h1 h2 => ⟨_, hstart.trans ?_, hset.modKln fun k => { k with first := some f }⟩,
      fun f hf h hm ht hd => ⟨_, hstart.trans ?_, (hset.raise (by decide)).modKln fun k => { k with first := some (s.nowSet + 1024) }⟩,
      ⟨_, hstop, ticksStop_readsAs hread⟩, fun on => ⟨_, hhold on, ?hold⟩⟩
    · rw [ticksStart_running (by rw [hread.flag, h])]
    · rw [ticksStart_refused (by rw [hread.flag, h]) (by rw [hread.flag, hm])]
    · rw [ticksStart_ticking (by rw [hread.flag, h]) (by rw [hread.flag, hm]) (by rw [hread.ticking, ht])]
    · rw [ticksStart_first (by rw [hread.flag, h]) (by rw [hread.flag, hm]) (by rw [hread.ticking, ht]),
        startTicks_ahead (f := f) (by rw [hset.f, hfirst, hf]) (by rw [hset.nowSet, hnow]; exact h1) (by rw [hset.nowSet, hnow]; exact h2)]
    · rw [ticksStart_first (by rw [hread.flag, h]) (by rw [hread.flag, hm]) (by rw [hread.ticking, ht]),
        startTicks_late (f := f) (by rw [hset.f, hfirst, hf]) (by rw [hset.nowSet, hnow]; exact hd), hset.nowSet, hnow]
    case hold =>
      have hhold := kilnHold_readsAs on s
      have hrun : (holdSet on s).flag KLN_CTRL_RUN = s.flag KLN_CTRL_RUN :=
        congrArg (· != 0) (State.setF_f_ne s KLN_CTRL_HOLD KLN_CTRL_RUN _ (by decide) (by decide) (by decide))
      have htick : (holdSet on s).ticking = s.ticking := setF_ticking s _ (by decide) (by decide)
      have hfirst : (holdSet on s).kln.first = s.kln.first := by
        show (s.setF KLN_CTRL_HOLD on.toNat).kln.first = _
        rw [State.setF_kln]
      show ReadsAs { holdSet on s with
        kln.first := if s.flag KLN_CTRL_RUN = true ∨ s.ticking = true then s.kln.first else none } _
      cases hr : s.flag KLN_CTRL_RUN
      · have hstop := ticksStop_readsAs hhold
        rw [htick, hfirst] at hstop
        have hoff : ReadsAs (holdSet on s) ((holdSet on s).setF KLN_CTRL_RUN 0) :=
          readsAs_setF_self _ (by decide) (by rw [State.f_eq_flag _ (F := KLN_CTRL_RUN) rfl, hrun, hr]; rfl)
        simpa using (hoff.modKln fun k => { k with first := if s.ticking = true then s.kln.first else none }).trans hstop
      · rw [if_pos rfl, if_pos (.inl rfl), ← hfirst, ticksStart_running (by rw [hhold.flag, hrun, hr])]
        exact hhold
  case ends =>
    obtain ⟨htick, hregs⟩ := ticksEnded_regs s
    have heq := ticksEnded_eq s
    cases hh : s.flag KLN_CTRL_HOLD
    · refine ⟨rearm (ticksEnded s), congrArg Host.Outcome.next ((tickingEnd_due h1 h2 h3 h4).trans (if_neg (by simp [hh]))), htick, hregs,
        ?_, ?_⟩
      · exact congrArg (fun t : State => { t with kln.armed := (rearm (ticksEnded s)).kln.armed }) heq
      · rw [if_neg (by decide), rearm, heq]; rfl
    · refine ⟨ticksEnded s, congrArg Host.Outcome.next ((tickingEnd_due h1 h2 h3 h4).trans (if_pos hh)), htick, hregs, ?_, ?_⟩
      · exact congrArg (fun t : State => { t with kln.armed := (ticksEnded s).kln.armed }) heq
      · rw [if_pos rfl, heq]

end Sys2Proof
end

section
/-! The Mast cycle, and writes of MST_CTRL.RUN (R40, R41, R537). -/

namespace Sys2Proof.Machine

open Sys2Proof Reg

/-! ### The cycle that begins -/

/-- The cycle in which b has closed begins, before its count. -/
def cycleOpen (b : State) : State :=
  { b with hwNow := [], lockNow := [], hly.comps := [], kln.mc := b.kln.mc + 1,
           stay.cmd := b.stay.cmd.forget (b.kln.mc + 1), stay.ret := b.stay.ret.forget (b.kln.mc + 1),
           kln.copy := b.kln.copy.map fun c => if c.2 then (c.1 + 256, true) else c }

theorem timebaseLoad_eq (t : Time) (s : State) : timebaseLoad t s = { s with kln := (timebaseLoad t s).kln } := by
  unfold timebaseLoad
  dsimp only
  split <;> rfl

theorem countOn_stopped {s : State} (h : s.flag MST_CTRL_RUN = false) : countOn s = s := if_pos (by simp [h])

theorem countOn_counts {s : State} (h : s.flag MST_CTRL_RUN = true) (hl : s.kln.loadSet = false) :
    countOn s = { s with kln.count := s.kln.count + 256 } := by
  rw [countOn, if_neg (by simp [h]), if_neg (by simp [hl])]

theorem countOn_loads {s : State} (h : s.flag MST_CTRL_RUN = true) (hl : s.kln.loadSet = true) :
    countOn s = timebaseLoad (fc (s.f MST_SET_SET / 256 * 256)) s := by
  rw [countOn, if_neg (by simp [h]), if_pos hl]

theorem timebaseLoad_kln (t : Time) (s : State) : (timebaseLoad t s).kln.count = t ∧ (timebaseLoad t s).kln.loadSet = false ∧
    (timebaseLoad t s).kln.mc = s.kln.mc ∧ (timebaseLoad t s).kln.copy = s.kln.copy := by
  unfold timebaseLoad
  dsimp only
  split <;> exact ⟨rfl, rfl, rfl, rfl⟩

/-- Virtual boundaries count from the start while no ticks are issued (R538). -/
theorem timebaseLoad_walk {s : State} (h : s.ticking = false) (t : Time) : (timebaseLoad t s).kln.slotBase = t ∧
    (timebaseLoad t s).kln.slotK = 0 ∧ (timebaseLoad t s).kln.virt = t + fc (256 * s.f KLN_PERIOD_PERIOD) := by
  have hload : timebaseLoad t s = { s with kln.count := t, kln.loadSet := false, kln.slotBase := t, kln.slotK := 0,
                                           kln.virt := t + fc (256 * s.f KLN_PERIOD_PERIOD) } :=
    if_neg (Bool.eq_false_iff.1 h)
  rw [hload]
  exact ⟨rfl, rfl, rfl⟩

/-- The count changes Kiln's state alone, and neither its cycle number nor the field copy. -/
theorem countOn_frame (s : State) : countOn s = { s with kln := (countOn s).kln } ∧ (countOn s).kln.mc = s.kln.mc ∧
    (countOn s).kln.copy = s.kln.copy := by
  cases h : s.flag MST_CTRL_RUN
  · rw [countOn_stopped h]; exact ⟨rfl, rfl, rfl⟩
  · cases hl : s.kln.loadSet
    · rw [countOn_counts h hl]; exact ⟨rfl, rfl, rfl⟩
    · obtain ⟨-, -, hmc, hcopy⟩ := timebaseLoad_kln (fc (s.f MST_SET_SET / 256 * 256)) s
      rw [countOn_loads h hl]
      exact ⟨timebaseLoad_eq _ _, hmc, hcopy⟩

/-! ### What waits for the cycle -/

/-- A fold whose every step leaves the state as it is. -/
theorem foldl_idle {α : Type} {f : State → α → State} {l : List α} {s : State} (h : ∀ a ∈ l, f s a = s) : l.foldl f s = s :=
  List.foldlRecOn (motive := (· = s)) l f rfl fun t ht a ha => by rw [ht, h a ha]

theorem sheaveBoundary_idle {s : State} (h : ∀ p ∈ s.sheaves, p.2.load = none ∧ p.2.cmpw = []) : sheaveBoundary s = s :=
  foldl_idle fun p hp => if_pos (by simp [h p hp])

theorem pulsesDue_idle {s : State} (h : s.rig.sched = []) : pulsesDue s = s := by
  have hself : { s with rig.sched := s.rig.sched } = s := rfl
  rw [h] at hself
  rw [pulsesDue, h]
  exact hself

theorem pulsesArrive_idle {s : State} (h : s.rig.flight = []) : pulsesArrive s = s := by rw [pulsesArrive, h]; rfl

theorem sheavesHalt_idle {s : State} (h : ∀ k, k < 8 → s.shvRuns k = true → s.shvEn k = true) : sheavesHalt s = s :=
  foldl_idle fun k hk => if_neg fun hc => by
    obtain ⟨hrun, hen⟩ := Bool.and_eq_true_iff.1 hc
    rw [h k (List.mem_range.1 hk) hrun] at hen
    cases hen

theorem portsSettle_idle {s : State} (h : ∀ p ∈ s.ports, p.2.later = [] ∧ p.2.acc = none) : portsSettle s = s :=
  foldl_idle fun p hp => if_pos (by simp [h p hp])

theorem ssiRun_idle {s : State} (h : ∀ p ∈ s.sheaves, p.2.frame = none) : ssiRun s = s :=
  foldl_idle fun p hp => if_pos (by simp [h p hp])

theorem checkBeats_idle {s : State} (h : ∀ e, e < 16 → (s.eng e).check = none) : checkBeats s = s :=
  foldl_idle fun e he => by simp only [h e (List.mem_range.1 he)]

theorem hostGoOn_idle {s : State} (h1 : s.ep.queue = []) (h2 : s.ep.held = []) : hostGoOn s = s := by
  rw [hostGoOn, h1]
  show admitHost s.ep.held.length s = s
  rw [h2]; rfl

end Sys2Proof.Machine

namespace Sys2Proof

open Machine Reg

/-- Settles O6: the cycle opens and its count follows MST_CTRL.RUN and a pending load; where nothing waits, each later step is
the identity. -/
theorem mastTimebase : Obligations.MastTimebase := by
  refine ⟨fun s b hb => ?cycle, fun req s hr => ?run⟩
  case cycle =>
    obtain ⟨heq, hmc, hcopy⟩ := countOn_frame (cycleOpen b)
    have hidle : (∀ p ∈ s.sheaves, p.2.load = none ∧ p.2.cmpw = []) → b = s := fun h => hb.trans (sheaveBoundary_idle h)
    have hexec : exec .mastCycle s = .next (hostGoOn (checkBeats (ssiRun (portsSettle (sheavesHalt (pulsesArrive (pulsesDue
        (countOn (cycleOpen b))))))))) := by rw [hb]; rfl
    have hcmd : (countOn (cycleOpen b)).stay.cmd = b.stay.cmd.forget (b.kln.mc + 1) := by rw [heq]; rfl
    have hret : (countOn (cycleOpen b)).stay.ret = b.stay.ret.forget (b.kln.mc + 1) := by rw [heq]; rfl
    refine ⟨countOn (cycleOpen b), hexec, by rw [hcmd, hret]; exact heq, hmc, by rw [hcmd, State.mc, hmc]; rfl,
      by rw [hret, State.mc, hmc]; rfl, hcopy, fun h => ?stands, fun h hl => ?counts, fun h hl => ?loads, hidle,
      fun hq hheld hchk hsch hfl hp hshv hsheaves => ?idle⟩
    case stands => rw [countOn_stopped (s := cycleOpen b) h]; rfl
    case counts => rw [countOn_counts (s := cycleOpen b) h hl]; rfl
    case loads =>
      obtain ⟨hcount, hload, -, -⟩ := timebaseLoad_kln (fc ((cycleOpen b).f MST_SET_SET / 256 * 256)) (cycleOpen b)
      rw [countOn_loads (s := cycleOpen b) h hl]
      exact ⟨hcount, hload, fun ht => by rw [State.now, hcount]; exact timebaseLoad_walk (s := cycleOpen b) ht _⟩
    case idle =>
      have hbs := hidle fun p hp => ⟨(hsheaves p hp).1, (hsheaves p hp).2.1⟩
      rw [hbs] at heq hexec ⊢
      generalize countOn (cycleOpen s) = u at heq hexec ⊢
      have hrig : u.rig = s.rig := by rw [heq]; rfl
      have hep : u.ep = s.ep := by rw [heq]; rfl
      have hports : u.ports = s.ports := by rw [heq]; rfl
      have hshvs : u.sheaves = s.sheaves := by rw [heq]; rfl
      have hruns (k : Nat) : u.shvRuns k = s.shvRuns k := by rw [heq]; rfl
      have hen (k : Nat) : u.shvEn k = s.shvEn k := by rw [heq]; rfl
      have heng (e : Nat) : u.eng e = s.eng e := by rw [heq]; rfl
      rw [hexec, pulsesDue_idle (by rw [hrig, hsch]), pulsesArrive_idle (by rw [hrig, hfl]),
        sheavesHalt_idle fun k hk => by rw [hruns, hen]; exact hshv k hk, portsSettle_idle (by rw [hports]; exact hp),
        ssiRun_idle fun p hp => (hsheaves p (hshvs ▸ hp)).2.2, checkBeats_idle fun e he => by rw [heng, hchk e he],
        hostGoOn_idle (by rw [hep, hq]) (by rw [hep, hheld])]
  case run =>
    obtain ⟨t, hread, hset⟩ := setField_MST_CTRL_RUN hr req 1
    obtain ⟨t', hread', hset'⟩ := setField_MST_CTRL_RUN hr req 0
    have hstart : exec (.timebaseStart req) s = .next (timebaseStart t) := congrArg Host.Outcome.next (hset.trans (if_pos (by decide)))
    have hstop : exec (.timebaseStop req) s = .next (timebaseStop req t') := congrArg Host.Outcome.next (hset'.trans (if_neg (by decide)))
    refine ⟨⟨_, hstart, timebaseStart_readsAs hread⟩, fun h => ⟨_, hstop, timebaseStop_readsAs hread' h req⟩,
      fun hrun hk => ⟨t', werr req MST_CTRL t', hread', hstop.trans ?_, werr_refused _ _ _⟩⟩
    rw [timebaseStop_refused (by rw [hread'.flag, hrun]) (by rw [hread'.flag, hread'.ticking]; exact hk)]

end Sys2Proof
end

section
/-! Slots of the command direction of the Stay link (R71 to R74, R494, R495). -/

namespace Sys2Proof.Machine

open Sys2Proof Reg

/-! ### What a direction sends -/

/-- The records of loads on lanes with sequence numbers from n, in the slot of Mast cycle mc (R494). -/
def recsFrom (mc : Nat) : Nat → List (Nat × StayLoad) → List StayRec
  | _, [] => []
  | n, (k, x) :: l => ⟨n, k, x, mc⟩ :: recsFrom mc ((n + 1) % 4096) l

/-- The records to be sent again, on the lanes they take (R495). -/
def recsAgain (mc : Nat) (d : StayDir) (lanes : List Nat) : List StayRec :=
  (d.again.zip lanes).map fun p => { p.1 with lane := p.2, sent := mc }

theorem StayDir.send_flight (mc : Nat) (d : StayDir) (l : List (Nat × StayLoad)) :
    (d.send mc l).flight = d.flight ++ recsFrom mc d.next l ∧ (d.send mc l).again = d.again := by
  induction l generalizing d with
  | nil => exact ⟨(List.append_nil _).symm, rfl⟩
  | cons p l ih =>
    obtain ⟨k, x⟩ := p
    obtain ⟨hflight, hagain⟩ := ih { d with flight := d.flight ++ [⟨d.next, k, x, mc⟩], next := (d.next + 1) % 4096 }
    refine ⟨hflight.trans ?_, hagain⟩
    rw [List.append_assoc]; rfl

theorem recsFrom_load (mc n : Nat) (l : List (Nat × StayLoad)) : (recsFrom mc n l).map StayRec.load = l.map Prod.snd := by
  induction l generalizing n with
  | nil => rfl
  | cons p l ih => rw [recsFrom, List.map_cons, List.map_cons, ih]

theorem recsFrom_lane (mc n : Nat) (l : List (Nat × StayLoad)) : (recsFrom mc n l).map StayRec.lane = l.map Prod.fst := by
  induction l generalizing n with
  | nil => rfl
  | cons p l ih => rw [recsFrom, List.map_cons, List.map_cons, ih]

theorem recsFrom_length (mc n : Nat) (l : List (Nat × StayLoad)) : (recsFrom mc n l).length = l.length := by
  rw [← List.length_map (f := StayRec.load), recsFrom_load, List.length_map]

theorem recsFrom_sent {mc n : Nat} {l : List (Nat × StayLoad)} {r : StayRec} (h : r ∈ recsFrom mc n l) : r.sent = mc := by
  induction l generalizing n with
  | nil => cases h
  | cons p l ih =>
    rw [recsFrom, List.mem_cons] at h
    obtain rfl | h := h
    · rfl
    · exact ih h

theorem recsFrom_seq {mc n i : Nat} {l : List (Nat × StayLoad)} {r : StayRec} (h : (recsFrom mc n l)[i]? = some r) :
    r.seq % 4096 = (n + i) % 4096 := by
  induction l generalizing n i with
  | nil => simp [recsFrom] at h
  | cons p l ih =>
    rw [recsFrom] at h
    cases i with
    | zero => cases h; rfl
    | succ i =>
      have hseq := ih (List.getElem?_cons_succ ▸ h)
      omega

theorem map_fst_zip_take {α β : Type} (l : List α) (r : List β) : (l.zip r).map Prod.fst = l.take r.length := by
  induction l generalizing r with
  | nil => simp
  | cons a l ih => cases r with
    | nil => rfl
    | cons b r => rw [List.zip_cons_cons, List.map_cons, ih, List.length_cons, List.take_succ_cons]

theorem map_snd_zip_take {α β : Type} (l : List α) (r : List β) : (l.zip r).map Prod.snd = r.take l.length := by
  rw [← map_fst_zip_take, ← List.zip_swap, List.map_map]; rfl

theorem recsAgain_length (mc : Nat) (d : StayDir) (lanes : List Nat) :
    (recsAgain mc d lanes).length = min d.again.length lanes.length := by rw [recsAgain, List.length_map, List.length_zip]

theorem recsAgain_load (mc : Nat) (d : StayDir) (lanes : List Nat) :
    (recsAgain mc d lanes).map StayRec.load = (d.again.take lanes.length).map StayRec.load := by
  rw [recsAgain, ← map_fst_zip_take, List.map_map, List.map_map]
  rfl

theorem recsAgain_lane (mc : Nat) (d : StayDir) (lanes : List Nat) :
    (recsAgain mc d lanes).map StayRec.lane = lanes.take (recsAgain mc d lanes).length := by
  rw [recsAgain_length, ← List.take_eq_take_min, recsAgain, ← map_snd_zip_take, List.map_map]
  rfl

theorem recsAgain_sent {mc : Nat} {d : StayDir} {lanes : List Nat} {r : StayRec} (h : r ∈ recsAgain mc d lanes) : r.sent = mc := by
  obtain ⟨p, -, rfl⟩ := List.mem_map.1 h
  rfl

/-- Records on lanes that follow each other take the lanes in order. -/
theorem map_lane_append {lanes : List Nat} {xs ys : List StayRec} (hx : xs.map StayRec.lane = lanes.take xs.length)
    (hy : ys.map StayRec.lane = (lanes.drop xs.length).take ys.length) :
    (xs ++ ys).map StayRec.lane = lanes.take (xs ++ ys).length := by
  rw [List.map_append, hx, hy, List.length_append, List.take_add]

theorem map_sent_replicate {mc : Nat} {xs : List StayRec} (h : ∀ r ∈ xs, r.sent = mc) :
    xs.map StayRec.sent = List.replicate xs.length mc :=
  List.eq_replicate_iff.2 ⟨List.length_map _, fun _ hb => by obtain ⟨r, hr, rfl⟩ := List.mem_map.1 hb; exact h r hr⟩

/-! ### The records that a slot takes off the queue (R72, R74) -/

theorem slotRecords_eq (s : State) (owner n : Nat) {q : List Transit} (hq : q = s.sendq.filter fun t => decide (t.ready ≤ s.mc)) :
    s.slotRecords owner n = if owner = 0x1F then []
      else ((q.filter fun t => t.act.owner == owner) ++ (q.filter fun t => t.act.owner != owner)).take n := by subst hq; rfl

theorem slotRecords_length_le (s : State) (owner n : Nat) : (s.slotRecords owner n).length ≤ n := by
  rw [slotRecords_eq s owner n rfl]
  split
  · exact Nat.zero_le _
  · exact List.length_take_le _ _

/-- Each record that a slot takes stands in the queue, and as often. -/
theorem slotRecords_subperm (s : State) (owner n : Nat) : (s.slotRecords owner n).Subperm s.sendq := by
  rw [slotRecords_eq s owner n rfl]
  split
  · exact List.nil_subperm
  · refine (List.take_sublist _ _).subperm.trans (.trans ?_ (List.filter_sublist (p := fun t => decide (t.ready ≤ s.mc))).subperm)
    exact (List.filter_append_perm (fun t : Transit => t.act.owner == owner) _).subperm

theorem foldl_erase_length {as q : List Transit} (h : as.Subperm q) : (as.foldl (fun q a => q.erase a) q).length + as.length = q.length := by
  rw [← List.diff_eq_foldl]
  have hperm := (List.subperm_append_diff_self_of_count_le fun x _ => h.count_le x).length_eq
  rw [List.length_append] at hperm
  omega

theorem mem_of_mem_foldl_erase {as q : List Transit} {x : Transit} (h : x ∈ as.foldl (fun q a => q.erase a) q) : x ∈ q :=
  List.foldlRecOn (motive := fun t => x ∈ t → x ∈ q) as _ id (fun _ ht _ _ hm => ht (List.mem_of_mem_erase hm)) h

/-! ### The command direction of a slot -/

/-- The loads of the records that a slot takes, on the lanes that records sent again leave free. -/
def State.slotLoads (s : State) (owner : Nat) : List (Nat × StayLoad) :=
  let free := s.txLanes.drop (recsAgain s.mc s.stay.cmd s.txLanes).length
  free.zip ((s.slotRecords owner free.length).map fun t => .act t.act)

theorem commandSlot_unlinked {s : State} (h : s.linked = false) (owner : Nat) : commandSlot owner s = s := if_pos (by simp [h])

/-- A slot over a working link: records sent again, then new ones, go on the lanes, and the new ones leave the queue. -/
theorem commandSlot_linked {s : State} (h : s.linked = true) (owner : Nat) : commandSlot owner s = { s with
    sendq := (s.slotRecords owner (s.txLanes.length - (recsAgain s.mc s.stay.cmd s.txLanes).length)).foldl (fun q a => q.erase a) s.sendq
    stay.cmd := StayDir.send s.mc { s.stay.cmd with
      again := s.stay.cmd.again.drop s.txLanes.length
      flight := s.stay.cmd.flight ++ recsAgain s.mc s.stay.cmd s.txLanes } (s.slotLoads owner) } := by
  rw [commandSlot, if_neg (by simp [h]), ← List.length_drop]
  rfl

theorem commandSlot_eq (owner : Nat) (s : State) : commandSlot owner s =
    { s with sendq := (commandSlot owner s).sendq, stay.cmd := (commandSlot owner s).stay.cmd } := by
  cases h : s.linked
  · rw [commandSlot_unlinked h]
  · rw [commandSlot_linked h]

theorem slotLoads_length (s : State) (owner : Nat) : (s.slotLoads owner).length =
    (s.slotRecords owner (s.txLanes.length - (recsAgain s.mc s.stay.cmd s.txLanes).length)).length := by
  rw [State.slotLoads, List.length_zip, List.length_map, List.length_drop]
  exact Nat.min_eq_right (slotRecords_length_le _ _ _)

theorem slotLoads_lane (s : State) (owner : Nat) : (s.slotLoads owner).map Prod.fst =
    (s.txLanes.drop (recsAgain s.mc s.stay.cmd s.txLanes).length).take (s.slotLoads owner).length := by
  rw [slotLoads_length, State.slotLoads, map_fst_zip_take, List.length_map, List.length_drop]

theorem slotLoads_load (s : State) (owner : Nat) : (s.slotLoads owner).map Prod.snd =
    (s.slotRecords owner (s.txLanes.length - (recsAgain s.mc s.stay.cmd s.txLanes).length)).map fun t => .act t.act := by
  rw [State.slotLoads, List.map_snd_zip, List.length_drop]
  rw [List.length_map]; exact slotRecords_length_le _ _ _

/-! ### The walk -/

theorem slotStart_due {s : State} {t : Time} (h : s.nextSlot = some t) (hrun : s.running = true) (ht : reached t s.now = true) :
    slotStart s = captureSlot (s.f (KLN_SLOT_CAP_OWNER (s.f KLN_SLOTSEL_ACTIVE) (s.kln.slotK % 1024)))
      (returnSlot (s.f (KLN_SLOT_CAP_OWNER (s.f KLN_SLOTSEL_ACTIVE) (s.kln.slotK % 1024)))
        (commandSlot (s.f (KLN_SLOT_CMD_OWNER (s.f KLN_SLOTSEL_ACTIVE) (s.kln.slotK % 1024)))
          { s with kln.slotK := s.kln.slotK + 1 })) := by
  rw [slotStart, h]
  exact if_neg (by simp [hrun, ht])

theorem slotStart_idle {s : State}
    (h : s.nextSlot = none ∨ s.running = false ∨ ∃ t, s.nextSlot = some t ∧ reached t s.now = false) : slotStart s = s := by
  rw [slotStart]
  cases hn : s.nextSlot with
  | none => rfl
  | some t =>
    refine if_pos ?_
    obtain h | h | ⟨t', ht, h⟩ := h
    · rw [hn] at h; cases h
    · simp [h]
    · rw [hn] at ht; cases ht; simp [h]

end Sys2Proof.Machine

namespace Sys2Proof

open Machine Reg

/-- Settles O11: over a working link the slot sends a list of records again and a list of new ones, and the facts about lanes,
numbers and contents are facts about these two lists. -/
theorem slotCarriesRecords : Obligations.SlotCarriesRecords := by
  refine fun s => ⟨fun t ht hrun hnow => ?_, fun h => congrArg Host.Outcome.next (slotStart_idle h)⟩
  let owner := s.f (KLN_SLOT_CMD_OWNER (s.f KLN_SLOTSEL_ACTIVE) (s.kln.slotK % 1024))
  let v : State := { s with kln.slotK := s.kln.slotK + 1 }
  let again := recsAgain s.mc s.stay.cmd s.txLanes
  let new := recsFrom s.mc s.stay.cmd.next (v.slotLoads owner)
  refine ⟨commandSlot owner v, congrArg Host.Outcome.next (slotStart_due ht hrun hnow), commandSlot_eq owner v, fun h => ?_,
    fun h => ⟨again, new, ?_⟩⟩
  · rw [commandSlot_unlinked (s := v) h]; exact ⟨rfl, rfl⟩
  · have hlinked := commandSlot_linked (s := v) h owner
    have hlen : new.length = (v.slotRecords owner (s.txLanes.length - again.length)).length :=
      (recsFrom_length _ _ _).trans (slotLoads_length v owner)
    have hlane : new.map StayRec.lane = (s.txLanes.drop again.length).take new.length := by
      rw [recsFrom_lane, recsFrom_length]; exact slotLoads_lane v owner
    obtain ⟨hflight, hagain⟩ := StayDir.send_flight s.mc { s.stay.cmd with
      again := s.stay.cmd.again.drop s.txLanes.length, flight := s.stay.cmd.flight ++ again } (v.slotLoads owner)
    rw [hlinked]
    refine ⟨hflight, recsAgain_load _ _ _, hagain, map_lane_append (recsAgain_lane _ _ _) hlane, fun c q hc hq => ?_,
      fun x hx => mem_of_mem_foldl_erase hx, map_sent_replicate fun r hr => ?_, fun i r hr => recsFrom_seq hr, ?_⟩
    · rw [recsFrom_load, slotLoads_load, slotRecords_eq v owner _ hq, hc]
      show List.map _ (if owner = 0x1F then _ else _) = if owner = 0x1F then _ else _
      split <;> rfl
    · exact (List.mem_append.1 hr).elim recsAgain_sent recsFrom_sent
    · rw [hlen]; exact foldl_erase_length (slotRecords_subperm v owner _)

end Sys2Proof
end

section
/-! What the work of a tick boundary leaves of Kiln's state: X_kln says that operation X leaves all of it, X_mc that it leaves the
number of the Mast cycle (R57 to R61). -/

namespace Sys2Proof.Machine

open Sys2Proof Reg

/-! ### Pulses, ports and locks -/

theorem PulseOnly.kln {s t : State} (h : PulseOnly s t) : t.kln = s.kln := by rw [h.1]

@[simp] theorem pulse_kln (src : Nat) (s : State) : (pulse src s).kln = s.kln := (pulse_only src s).kln
@[simp] theorem pulseAt_kln (src m : Nat) (s : State) : (pulseAt src m s).kln = s.kln := (pulseAt_only src m s).kln
@[simp] theorem routesApplied_kln (old : Nat → Nat) (s : State) : (routesApplied old s).kln = s.kln := (routesApplied_only old s).kln

theorem ite_kln {c : Prop} [Decidable c] {s t u : State} (ht : t.kln = s.kln) (hu : u.kln = s.kln) :
    (if c then t else u).kln = s.kln := by split <;> assumption

@[simp] theorem rawChange_kln (p : Nat) (l : Bool) (stamp : Time) (s : State) : (rawChange p l stamp s).kln = s.kln := by
  simp [rawChange, apply_ite State.kln]

@[simp] theorem outEdge_kln (p : Nat) (t : Time) (out drv : Bool) (s : State) : (outEdge p t out drv s).kln = s.kln := by
  simp [outEdge, apply_ite State.kln]

@[simp] theorem lockAnswer_kln (q : LockReq) (v : Nat) (s : State) : (lockAnswer q v s).kln = s.kln := by
  unfold lockAnswer; split <;> simp

@[simp] theorem lockServe_kln (l : List LockReq) (x : Lock) (s : State) : (lockServe l x s).2.kln = s.kln := by
  induction l generalizing x s with
  | nil => rfl
  | cons q l ih => rw [lockServe, ih, lockAnswer_kln]

@[simp] theorem lockAsk_kln (q : LockReq) (s : State) : (lockAsk q s).kln = s.kln := lockServe_kln _ _ s

@[simp] theorem releaseLocks_kln (c : Option Nat) (n : Nat) (s : State) : (releaseLocks c n s).kln = s.kln :=
  foldl_keep State.kln _ (fun t k => by split <;> simp [lockAbandon]) _ s

/-! ### Engines -/

@[simp] theorem dropFar_kln (e : Nat) (s : State) : (dropFar e s).kln = s.kln := by rw [dropFar_eq]

@[simp] theorem leaveStandin_kln (st : EngState) (s : State) : (leaveStandin st s).kln = s.kln := by
  unfold leaveStandin; split <;> simp

@[simp] theorem rejectCmd_kln (e : Nat) (s : State) : (rejectCmd e s).kln = s.kln := by simp [rejectCmd]

@[simp] theorem beginImage_kln (e : Nat) (i : Image) (st : EngState) (s : State) : (beginImage e i st s).kln = s.kln := by
  simp [beginImage]

@[simp] theorem cmdStart_kln (e p : Nat) (s : State) : (cmdStart e p s).kln = s.kln := by
  unfold cmdStart
  split
  · simp
  · dsimp only
    split <;> simp [apply_ite State.kln]

@[simp] theorem dropProgram_kln (e : Nat) (s : State) : (dropProgram e s).kln = s.kln := by
  simp [dropProgram, apply_ite State.kln]

@[simp] theorem cmdStop_kln (e : Nat) (s : State) : (cmdStop e s).kln = s.kln := by
  unfold cmdStop
  split <;> simp [apply_ite State.kln, endStandin]

@[simp] theorem cmdResume_kln (e : Nat) (s : State) : (cmdResume e s).kln = s.kln := by
  simp [cmdResume, apply_ite State.kln, endStandin]

@[simp] theorem applyCmd_kln (e cmd p : Nat) (s : State) : (applyCmd e cmd p s).kln = s.kln := by
  unfold applyCmd
  split
  · rfl
  · split <;> simp

@[simp] theorem prepTick_kln (e : Nat) (s : State) : (prepTick e s).kln = s.kln := by simp [prepTick, apply_ite State.kln]

@[simp] theorem prepTicks_kln (s : State) : (prepTicks s).kln = s.kln :=
  (foldl_keep State.kln _ (fun t _ => State.modEng_kln t _ _) _ _).trans (foldl_keep State.kln _ (fun t e => prepTick_kln e t) _ s)

/-! ### Trackers -/

@[simp] theorem whlRec_kln (w ty : Nat) (t : Time) (port : Nat) (edge : Bool) (aux : Nat) (s : State) :
    (whlRec w ty t port edge aux s).kln = s.kln := by simp [whlRec, whlDrop, apply_ite State.kln]

@[simp] theorem sendRecord_kln (ready : Nat) (a : Action) (s : State) : (sendRecord ready a s).1.kln = s.kln := by
  unfold sendRecord; split_ifs <;> rfl

@[simp] theorem whlSend_kln (w : Nat) (a : Action) (s : State) : (whlSend w a s).1.kln = s.kln := by
  unfold whlSend
  split_ifs
  · rfl
  · simp [ownErr]
  · dsimp only
    split <;> simp [whlDrop]

@[simp] theorem State.modSlot_kln (s : State) (w k : Nat) (f : WSlot → WSlot) : (s.modSlot w k f).kln = s.kln := (rfl)

@[simp] theorem cancelSlot_kln (w k : Nat) (t : Time) (s : State) : (cancelSlot w k t s).kln = s.kln := by
  simp [cancelSlot, apply_ite State.kln]

@[simp] theorem skipSlot_kln (w k beg : Nat) (t : Time) (s : State) : (skipSlot w k beg t s).kln = s.kln := by
  simp [skipSlot, setSlotSt, clearSlot, flipParity, whlPulse]

@[simp] theorem issueAt_kln (w k : Nat) (tb tp : Time) (s : State) : (issueAt w k tb tp s).kln = s.kln := by
  unfold issueAt
  dsimp only
  refine ite_kln ?_ (ite_kln ?_ (ite_kln ?_ ?_)) <;> simp [setSlotSt]

@[simp] theorem issueSlot_kln (w k : Nat) (tp : Time) (s : State) : (issueSlot w k tp s).kln = s.kln := by
  simp [issueSlot, apply_ite State.kln]

@[simp] theorem retimeBeg_kln (w k : Nat) (t : Time) (s : State) : (retimeBeg w k t s).kln = s.kln := by
  simp [retimeBeg, apply_ite State.kln]

@[simp] theorem retimeEnd_kln (w k : Nat) (t : Time) (s : State) : (retimeEnd w k t s).kln = s.kln := by
  simp [retimeEnd, apply_ite State.kln]

@[simp] theorem repredictEnd_kln (w k : Nat) (tp : Time) (s : State) : (repredictEnd w k tp s).kln = s.kln := by
  simp [repredictEnd, apply_ite State.kln]

@[simp] theorem repredictSlot_kln (w k : Nat) (tp : Time) (s : State) : (repredictSlot w k tp s).kln = s.kln := by
  simp [repredictSlot, apply_ite State.kln]

@[simp] theorem haltSlot_kln (w k : Nat) (t : Time) (s : State) : (haltSlot w k t s).kln = s.kln := by
  simp [haltSlot, setSlotSt, clearSlot, flipParity, apply_ite State.kln]

@[simp] theorem setWhlState_kln (w v : Nat) (t : Time) (s : State) : (setWhlState w v t s).kln = s.kln := by
  simp [setWhlState, whlPulse, apply_ite State.kln]

@[simp] theorem syncLoss_kln (w cause final : Nat) (t : Time) (s : State) : (syncLoss w cause final t s).kln = s.kln := by
  have hhalt : (eachSlot (fun k s => haltSlot w k t s) s).kln = s.kln := foldl_keep State.kln _ (fun u k => haltSlot_kln w k t u) _ s
  simp [syncLoss, restartEst, whlPulse, hhalt]

@[simp] theorem ttRead_kln (w i n : Nat) (s : State) : (ttRead w i n s).2.2.kln = s.kln := by
  rw [ttRead, bankRead_kln, ttRequest, apply_ite State.kln, postReq, State.modBank_kln, ite_self]

/-- A step that reads the tooth table keeps what its use of the table keeps. -/
theorem readPrimary_kln (w : Nat) (use : Bool) (tp : Time) {k : State → State} (hk : ∀ t, (k t).kln = t.kln) (s : State) :
    (readPrimary w use tp k s).kln = s.kln := by
  simp [readPrimary, apply_ite State.kln, hk]

@[simp] theorem slotFollow_kln (w k : Nat) (tp : Time) (s : State) : (slotFollow w k tp s).kln = s.kln := by
  unfold slotFollow
  dsimp only
  split <;> simp [setSlotSt, clearSlot, flipParity, apply_ite State.kln]

@[simp] theorem slotCheck_kln (w k : Nat) (s : State) : (slotCheck w k s).kln = s.kln := by
  simp [slotCheck, clearEn, apply_ite State.kln]

@[simp] theorem slotApply_kln (w k : Nat) (tp : Time) (s : State) : (slotApply w k tp s).kln = s.kln := by
  simp [slotApply, apply_ite State.kln, readPrimary_kln, setSlotSt, clearSlot, flipParity]

/-! ### Sheave units -/

@[simp] theorem shvRec_kln (u ty : Nat) (t : Time) (port : Nat) (edge : Bool) (aux : Nat) (s : State) :
    (shvRec u ty t port edge aux s).kln = s.kln := by simp [shvRec, apply_ite State.kln]

@[simp] theorem sheaveHalt_kln (u : Nat) (s : State) : (sheaveHalt u s).kln = s.kln := by
  simp [sheaveHalt, ssiClock, apply_ite State.kln]

@[simp] theorem sheaveOwners_kln (s : State) : (sheaveOwners s).kln = s.kln :=
  foldl_keep State.kln _ (fun t u => by split <;> simp [shvPulse]) _ s

@[simp] theorem sheaveApplied_kln (u oldWin oldCpr : Nat) (s : State) : (sheaveApplied u oldWin oldCpr s).kln = s.kln := by
  simp [sheaveApplied, apply_ite State.kln]

@[simp] theorem unitTick_kln (u : Nat) (B : Time) (s : State) : (unitTick u B s).kln = s.kln := by
  simp [unitTick, apply_ite State.kln]

@[simp] theorem sheaveTick_kln (B : Time) (s : State) : (sheaveTick B s).kln = s.kln :=
  foldl_keep State.kln _ (fun t u => unitTick_kln u B t) _ s

/-! ### The translator and the notification -/

@[simp] theorem lgcBoundary_kln (B : Time) (P : Nat) (s : State) : (lgcBoundary B P s).kln = s.kln := by
  unfold lgcBoundary
  dsimp only
  split
  · rfl
  · exact foldl_keep State.kln _ (fun t n => by split <;> simp) _ s

@[simp] theorem notifyTick_kln (s : State) : (notifyTick s).kln = s.kln := by simp [notifyTick, apply_ite State.kln]

/-! ### What applies at a boundary -/

@[simp] theorem applyFields_kln (lo hi : Nat) (s : State) : (applyFields lo hi s).kln = s.kln :=
  foldl_keep State.kln _ (fun t _ => State.setReg_kln t _ _) _ s

@[simp] theorem applyCommand_kln (e : Nat) (s : State) : (applyCommand e s).kln = s.kln := by simp [applyCommand]

theorem setArmed_kln_mc (off v : Nat) (s : State) : (setArmed off v s).kln.mc = s.kln.mc := (rfl)

theorem refselApplied_kln_mc (old : Nat) (s : State) : (refselApplied old s).kln.mc = s.kln.mc := by
  simp [refselApplied, apply_ite State.kln]

theorem applyBlock_kln_mc (tp : Time) (off : Nat) (s : State) : (applyBlock tp off s).kln.mc = s.kln.mc := by
  have hfields (lo hi : Nat) : (applyFields lo hi (setArmed off 0 s)).kln.mc = s.kln.mc := by rw [applyFields_kln, setArmed_kln_mc]
  unfold applyBlock
  split
  · rfl
  · next lo hi _ =>
    dsimp only
    split_ifs
    · rw [sheaveOwners_kln, hfields]
    · rw [refselApplied_kln_mc, hfields]
    · rw [routesApplied_kln, hfields]
    · rw [foldl_keep State.kln _ (fun t k => slotApply_kln _ k tp t), hfields]
    · rw [sheaveApplied_kln, hfields]
    · exact hfields lo hi

/-- What applies at a boundary leaves the number of the Mast cycle. -/
theorem applyAll_mc (B : Time) (s : State) : (applyAll B s).mc = s.mc := by
  unfold applyAll
  dsimp only
  rw [State.mc, foldl_keep State.kln _ (fun t e => applyCommand_kln e t),
    foldl_keep (fun t : State => t.kln.mc) _ (fun t o => applyBlock_kln_mc B o t)]
  split_ifs <;> simp [applyBlock_kln_mc, withholdKln, setArmed_kln_mc, State.mc]

end Sys2Proof.Machine
end

section
/-! A tick boundary (R57, R59, R61, R85). -/

namespace Sys2Proof.Machine

open Sys2Proof Reg

/-! ### The registers of a boundary -/

/-- The registers in which tick n begins at time B. -/
def tickTold (B : Time) (n : Nat) (s : State) : State :=
  ((s.setF KLN_TICKCNT_COUNT n).setF KLN_TICKTIME_TIME B.toNat).setF KLN_STATUS_TICKING 1

theorem tickTold_onlyRegs (B : Time) (n : Nat) (s : State) :
    OnlyRegs s (tickTold B n s) [KLN_TICKCNT, KLN_TICKCNT + 4, KLN_TICKTIME, KLN_TICKTIME + 4, KLN_STATUS] :=
  (((s.setF_wide_onlyRegs n).mono (by simp)).trans ((State.setF_wide_onlyRegs _ _).mono (by simp))).trans
    (setF_onlyRegs _ _ _ (by decide) (by simp [KLN_STATUS_TICKING]))

theorem tickTold_count (B : Time) (n : Nat) (s : State) : (tickTold B n s).reg64 KLN_TICKCNT = n % 2 ^ 64 := by
  have htime : OnlyRegs (s.setF KLN_TICKCNT_COUNT n) (tickTold B n s) [KLN_TICKTIME, KLN_TICKTIME + 4, KLN_STATUS] :=
    ((State.setF_wide_onlyRegs _ _).mono (by simp)).trans (setF_onlyRegs _ _ _ (by decide) (by simp [KLN_STATUS_TICKING]))
  rw [State.reg64_congr (htime.2 _ (by decide)) (htime.2 _ (by decide)), KLN_TICKCNT_COUNT, State.setF_wide_reg64]

theorem tickTold_time (B : Time) (n : Nat) (s : State) : (tickTold B n s).reg64 KLN_TICKTIME = B.toNat := by
  rw [tickTold, State.reg64_congr (State.setF_reg_ne _ _ _ (by decide) (by decide)) (State.setF_reg_ne _ _ _ (by decide) (by decide)),
    KLN_TICKTIME_TIME, State.setF_wide_reg64, Nat.mod_eq_of_lt B.isLt]

/-- What a boundary notes of itself beside its registers. -/
def boundaryNoted (B : Time) (m P : Nat) (s : State) : State :=
  { s with kln.first := none, kln.issued := true, kln.bmc := m, kln.next := B + fc (256 * P) }

theorem boundaryNoted_mc (B : Time) (m P : Nat) (s : State) : (boundaryNoted B m P s).mc = s.mc := rfl
theorem boundaryNoted_reg (B : Time) (m P : Nat) (s : State) (o : Nat) : (boundaryNoted B m P s).reg o = s.reg o := rfl
theorem boundaryNoted_regs (B : Time) (m P : Nat) (s : State) : (boundaryNoted B m P s).regs = s.regs := rfl

theorem tickTold_mc (B : Time) (n : Nat) (s : State) : (tickTold B n s).mc = s.mc := by simp only [tickTold, State.setF_mc]

theorem tickTold_period (B : Time) (n : Nat) (s : State) : (tickTold B n s).f KLN_PERIOD_PERIOD = s.f KLN_PERIOD_PERIOD :=
  SameRegs.f_eq (tickTold_onlyRegs B n s).2 (by decide) (by decide)

theorem boundaryRegs_told {B : Time} {n : Nat} {s t : State}
    (ht : ((s.setF KLN_TICKCNT_COUNT n).setF KLN_TICKTIME_TIME B.toNat).setF KLN_STATUS_TICKING 1 = t) :
    boundaryRegs B n s = boundaryNoted B t.mc (t.f KLN_PERIOD_PERIOD) t := by
  unfold boundaryRegs
  rw [ht]
  rfl

theorem boundaryRegs_noted (B : Time) (n : Nat) (s : State) :
    boundaryRegs B n s = boundaryNoted B s.mc (s.f KLN_PERIOD_PERIOD) (tickTold B n s) := by
  rw [boundaryRegs_told (t := tickTold B n s) rfl, tickTold_mc, tickTold_period]

theorem boundaryNoted_withRegs (B : Time) (m P : Nat) (s : State) (r : SMap Word) : boundaryNoted B m P { s with regs := r } =
    { s with regs := r, kln.first := none, kln.issued := true, kln.bmc := m, kln.next := B + fc (256 * P) } := rfl

theorem boundaryRegs_eq (B : Time) (n : Nat) (s : State) : boundaryRegs B n s =
    { s with regs := (boundaryRegs B n s).regs, kln.first := none, kln.issued := true, kln.bmc := s.mc
             kln.next := B + fc (256 * s.f KLN_PERIOD_PERIOD) } := by
  rw [boundaryRegs_noted, boundaryNoted_regs, ← boundaryNoted_withRegs]
  exact congrArg (boundaryNoted B s.mc (s.f KLN_PERIOD_PERIOD)) (tickTold_onlyRegs B n s).1

theorem boundaryRegs_mc (B : Time) (n : Nat) (s : State) : (boundaryRegs B n s).mc = s.mc := by
  rw [boundaryRegs_noted, boundaryNoted_mc, tickTold_mc]

theorem boundaryRegs_reg (B : Time) (n : Nat) (s : State) (o : Nat) : (boundaryRegs B n s).reg o = (tickTold B n s).reg o := by
  rw [boundaryRegs_noted, boundaryNoted_reg]

theorem boundaryRegs_regs (B : Time) (n : Nat) (s : State) : (boundaryRegs B n s).reg64 KLN_TICKCNT = n % 2 ^ 64 ∧
    (boundaryRegs B n s).reg64 KLN_TICKTIME = B.toNat ∧ (boundaryRegs B n s).f KLN_STATUS_TICKING = 1 ∧
    SameRegs s (boundaryRegs B n s) [KLN_TICKCNT, KLN_TICKCNT + 4, KLN_TICKTIME, KLN_TICKTIME + 4, KLN_STATUS] := by
  refine ⟨?_, ?_, ?_, fun o ho => (boundaryRegs_reg B n s o).trans ((tickTold_onlyRegs B n s).2 o ho)⟩
  · rw [State.reg64_congr (boundaryRegs_reg B n s _) (boundaryRegs_reg B n s _), tickTold_count]
  · rw [State.reg64_congr (boundaryRegs_reg B n s _) (boundaryRegs_reg B n s _), tickTold_time]
  · rw [State.f_congr _ (by decide) (boundaryRegs_reg B n s _), tickTold, State.setF_f_same _ _ _ (by decide)]
    rfl

/-- The number of the tick that a boundary begins (R61). -/
theorem tickAfter_eq (s : State) :
    s.tickAfter % 2 ^ 64 = if s.kln.issued = true then (s.reg64 KLN_TICKCNT + 1) % 2 ^ 64 else 0 := by
  rw [State.tickAfter, State.tick, KLN_TICKCNT_COUNT, State.f_wide]
  split
  · exact Nat.mod_mod _ _
  · exact Nat.zero_mod _

/-! ### What applies, and what takes the tick -/

/-- What is armed applies at the boundary, and the slot walk goes on from it. -/
def boundaryApplied (B : Time) (n : Nat) (u : State) : State := boundaryWalk B n (if u.flag KLN_CTRL_HOLD then u else applyAll B u)

/-- Engines, Halyard, taps, sheaves and the translator take the tick. -/
def tickTaken (B : Time) (w : State) : State := lgcBoundary B (w.f KLN_PERIOD_PERIOD) (sheaveTick B (notifyTick (prepTicks w)))

theorem boundary_eq (B : Time) (n : Nat) (s : State) : boundary B n s =
    pulseAt 0x238 ((tickTaken B (boundaryApplied B n (boundaryRegs B n s))).mc + 1)
      (tickTaken B (boundaryApplied B n (boundaryRegs B n s))) := rfl

theorem boundaryWalk_eq (B : Time) (n : Nat) (s : State) :
    boundaryWalk B n s = { s with kln := (boundaryWalk B n s).kln, ticks := (boundaryWalk B n s).ticks } := rfl

theorem boundaryWalk_walk (B : Time) (n : Nat) (s : State) : (boundaryWalk B n s).kln.slotBase = B ∧
    (boundaryWalk B n s).kln.slotK = 0 ∧ (boundaryWalk B n s).kln.next = B + fc (256 * (boundaryWalk B n s).f KLN_PERIOD_PERIOD) :=
  ⟨rfl, rfl, rfl⟩

theorem boundaryWalk_mc (B : Time) (n : Nat) (s : State) : (boundaryWalk B n s).mc = s.mc := rfl

theorem boundaryApplied_mc (B : Time) (n : Nat) (u : State) : (boundaryApplied B n u).mc = u.mc := by
  rw [boundaryApplied, boundaryWalk_mc]
  split
  · rfl
  · exact applyAll_mc B u

theorem tickTaken_mc (B : Time) (w : State) : (tickTaken B w).mc = w.mc := by
  rw [State.mc, tickTaken, lgcBoundary_kln, sheaveTick_kln, notifyTick_kln, prepTicks_kln]; rfl

theorem tickBoundary_due {s : State} {B : Time} (h : s.boundaryDue = some B) : tickBoundary s = boundary B s.tickAfter s := by
  rw [tickBoundary, h]

theorem tickBoundary_none {s : State} (h : s.boundaryDue = none) : tickBoundary s = s := by rw [tickBoundary, h]

end Sys2Proof.Machine

namespace Sys2Proof

open Machine Reg

/-- Settles O9: a boundary tells its registers, lets what is armed apply and walks on; the source pulses in the cycle of the
boundary, for no step of the way moves the cycle number. -/
theorem tickBoundaryBeginsATick : Obligations.TickBoundaryBeginsATick := by
  refine fun s => ⟨fun B hB => ?_, fun h => congrArg Host.Outcome.next (tickBoundary_none h)⟩
  obtain ⟨hcount, htime, hticking, hregs⟩ := boundaryRegs_regs B s.tickAfter s
  have hhold : (boundaryRegs B s.tickAfter s).flag KLN_CTRL_HOLD = s.flag KLN_CTRL_HOLD :=
    congrArg (· != 0) (SameRegs.f_eq hregs (by decide) (by decide))
  have hmc : (tickTaken B (boundaryApplied B s.tickAfter (boundaryRegs B s.tickAfter s))).mc = s.mc := by
    rw [tickTaken_mc, boundaryApplied_mc, boundaryRegs_mc]
  have hexec : tickBoundary s = pulseAt 0x238 (s.mc + 1) (tickTaken B (boundaryApplied B s.tickAfter (boundaryRegs B s.tickAfter s))) := by
    rw [tickBoundary_due hB, boundary_eq, hmc]
  refine ⟨boundaryRegs B s.tickAfter s, boundaryApplied B s.tickAfter (boundaryRegs B s.tickAfter s), congrArg Host.Outcome.next hexec,
    hcount.trans (tickAfter_eq s), htime, hticking, boundaryRegs_eq B _ s, hregs, ?_, boundaryWalk_walk B _ _⟩
  rw [← hhold]
  exact boundaryWalk_eq B _ _

end Sys2Proof
end

section
/-! The takeover of a faulted engine, and the detached runs of CE16 (R142, R153 to R156, R539). -/

namespace Sys2Proof.Machine

open Sys2Proof Reg

theorem State.spare_eng (s : State) (sp : Spare) (k : Nat) : ({ s with spare := sp } : State).eng k = s.eng k := rfl

/-! ### Takeover (R153, R154) -/

/-- CE16 stands in for engine n, whose run r a fault at t0 has ended, with its recovery run to come (R154). -/
def standsIn (n t0 : Nat) (r : Run) (s : State) : State :=
  { s.modEng 16 (fun x => { x with st := .standin, ck := (s.eng n).ck, image := (s.eng n).image, evin := (s.eng n).evin
                                   g := [], estat := 0 }) with
    spare := { standFor := some n, nextRun := some (t0 + 1592, r.tick, r.ttime, r.period), recovery := true } }

theorem standsIn_eng_same (n t0 : Nat) (r : Run) (s : State) : (standsIn n t0 r s).eng 16 = { s.eng 16 with
    st := .standin, ck := (s.eng n).ck, image := (s.eng n).image, evin := (s.eng n).evin, g := [], estat := 0 } := by
  rw [standsIn, State.spare_eng, State.modEng_eng_same]

theorem standsIn_eng_ne (n t0 : Nat) (r : Run) (s : State) {k : Nat} (hk : k ≠ 16) : (standsIn n t0 r s).eng k = s.eng k := by
  rw [standsIn, State.spare_eng, State.modEng_eng_ne _ _ hk]

theorem takeover_due {s : State} {n t0 : Nat} {r : Run} (htaking : s.spare.taking = some (n, t0)) (htaken : s.spare.taken = some r)
    (hreset : (s.eng n).resetAt = none) (hdue : t0 + 4 ≤ s.ecNow) : takeover n s =
      if 2 ≤ (s.eng n).ck.err then { s with spare.taking := none, spare.taken := none }
      else logFault 2 n 0 0 (traceEntry 16 0 0 n 9 (standsIn n t0 r s)) := by
  simp only [takeover, htaking, htaken]
  rw [if_neg (by simp [hreset, hdue])]
  rfl

/-- No takeover of engine e is under way, or its reset or its time is still to come. -/
theorem takeover_idle {s : State} {e : Nat}
    (h : s.spare.taking = none ∨ s.spare.taken = none ∨ (s.eng e).resetAt.isSome = true ∨
      ∃ n t0, s.spare.taking = some (n, t0) ∧ (n ≠ e ∨ s.ecNow < t0 + 4)) : takeover e s = s := by
  unfold takeover
  split
  · next n t0 r htaking htaken =>
    refine if_pos ?_
    simp only [htaking, htaken, reduceCtorEq, false_or, Option.some.injEq, Prod.mk.injEq] at h
    by_cases hn : n = e
    · obtain hreset | ⟨_, _, ⟨rfl, rfl⟩, hne | hlt⟩ := h
      · simp [hn, hreset]
      · exact absurd hn hne
      · simp [hlt]
    · simp [hn]
  · rfl

/-! ### Detached runs (R155, R156) -/

/-- The detached run whose engine cycle 0 is c, which makes up for tick k with boundary b and period p (R155). -/
def State.detachedRunOf (s : State) (c k : Nat) (b : Time) (p : Nat) : Run :=
  { tick := k, ttime := b, period := p, ec0 := c, time0 := s.timeOfEc c, det := true
    pc := (s.eng 16).image.base + (s.eng 16).image.entry }

/-- The run that is due has begun. -/
def detachedBegun (c k : Nat) (b : Time) (p : Nat) (s : State) : State :=
  { beginRun 16 (s.detachedRunOf c k b p) s with spare.nextRun := none }

theorem detachedRun_due {s : State} {c k : Nat} {b : Time} {p : Nat} (hnext : s.spare.nextRun = some (c, k, b, p))
    (hdue : c + 8 ≤ s.ecNow) (hfor : s.spare.standFor.isSome = true) : detachedRun s.spare.recovery s =
      if (s.spare.recovery && ((detachedBegun c k b p s).eng 16).run.isSome) = true then pulse 0x23E (detachedBegun c k b p s)
      else detachedBegun c k b p s := by
  simp only [detachedRun, hnext]
  rw [if_pos (by simp [hdue, hfor])]
  rfl

theorem detachedRun_other {s : State} {recovery : Bool} (h : s.spare.recovery ≠ recovery) : detachedRun recovery s = s := by
  unfold detachedRun
  split
  · exact if_neg (by simp [h])
  · rfl

/-- From a good checkpoint the run starts, and no engine but CE16 changes (R155). -/
theorem detachedBegun_good {s : State} (hck : (s.eng 16).ck.err < 2) (c k : Nat) (b : Time) (p : Nat) :
    detachedBegun c k b p s = { startRun 16 (s.detachedRunOf c k b p) s with spare.nextRun := none } := by
  rw [detachedBegun, beginRun, if_neg (Nat.not_le.mpr hck)]

theorem detachedBegun_good_eng {s : State} (hck : (s.eng 16).ck.err < 2) (c k : Nat) (b : Time) (p j : Nat) :
    (detachedBegun c k b p s).eng j = (startRun 16 (s.detachedRunOf c k b p) s).eng j := by
  rw [detachedBegun_good hck, State.spare_eng]

theorem detachedBegun_bad {s : State} (hck : 2 ≤ (s.eng 16).ck.err) (c k : Nat) (b : Time) (p : Nat) :
    detachedBegun c k b p s = { engineFault 16 6 0 8 (c + 8) none true s with spare.nextRun := none } := by
  rw [detachedBegun, beginRun, if_pos hck]; rfl

/-- A fault of CE16 ends its stand-in (R539). -/
theorem engineFault_standFor (code pcw ecyc t0 : Nat) (r : Option Run) (s : State) :
    (engineFault 16 code pcw ecyc t0 r true s).spare.standFor = none := by
  obtain ⟨-, -, -, -, -, -, -, -, -, hspare, -⟩ := engineFault_faulted 16 code pcw ecyc t0 r s
  obtain ⟨hsome, hnone⟩ := hspare rfl
  cases hfor : (traceEntry 16 pcw ecyc code 8 s).spare.standFor with
  | none => rw [hnone hfor, hfor]
  | some n => rw [hsome n hfor]

end Sys2Proof.Machine

namespace Sys2Proof

open Machine Reg

/-- Settles O15: a takeover that is due reads the checkpoint, and stands in where it is good; else the command does nothing. -/
theorem takeover : Obligations.Takeover := by
  refine fun e s => ⟨fun t0 r htaking htaken hreset hdue => ?_, fun h => congrArg Host.Outcome.next (takeover_idle h)⟩
  have hexec : exec (.takeover e) s = .next _ := congrArg Host.Outcome.next (takeover_due htaking htaken hreset hdue)
  refine ⟨fun hck => hexec.trans (by rw [if_pos hck]), fun hck => ⟨standsIn e t0 r s, hexec.trans ?_, rfl, rfl,
    standsIn_eng_same _ _ _ _, fun k hk => standsIn_eng_ne _ _ _ _ hk⟩⟩
  rw [if_neg (Nat.not_le.mpr hck)]

/-- Settles O16: the run that is due starts from a good checkpoint, and the other of the two commands does nothing; with a bad
checkpoint CE16 faults in its place, and its stand-in ends with the fault. -/
theorem detachedRunsStart : Obligations.DetachedRunsStart := by
  intro s c k b p hnext hdue hfor
  have hexec := detachedRun_due hnext hdue hfor
  refine ⟨fun hck => ?good, fun hck => ?bad⟩
  case good =>
    have hbegun := detachedBegun_good hck c k b p
    obtain ⟨l, hl⟩ := startRun_eng_same 16 (s.detachedRunOf c k b p) s
    have heng := (detachedBegun_good_eng hck c k b p 16).trans hl
    refine ⟨detachedBegun c k b p s, by rw [heng]; rfl, by rw [heng], by rw [heng], rfl, fun j hj => ?_, fun htr => ⟨?_, ?_⟩,
      fun hrec => ⟨congrArg Host.Outcome.next ?_, congrArg Host.Outcome.next (detachedRun_other (by simp [hrec]))⟩,
      fun hrec => ⟨congrArg Host.Outcome.next ?_, congrArg Host.Outcome.next (detachedRun_other (by simp [hrec]))⟩⟩
    · rw [detachedBegun_good_eng hck, startRun_eng_ne hj]
    · rw [hbegun]; exact startRun_mem _ _ s
    · rw [hbegun]; exact startRun_regs_off htr _
    · rw [hrec, heng, Option.isSome_some, Bool.and_true, if_pos rfl] at hexec; exact hexec
    · rw [hrec, Bool.false_and, if_neg Bool.false_ne_true] at hexec; exact hexec
  case bad =>
    have hbegun := detachedBegun_bad hck c k b p
    obtain ⟨hrun, -, -, hst, hcode, -⟩ := engineFault_faulted 16 6 0 8 (c + 8) none s
    have hnone : ((detachedBegun c k b p s).eng 16).run = none := by rw [hbegun, State.spare_eng]; exact hrun
    rw [hnone, Option.isSome_none, Bool.and_false, if_neg Bool.false_ne_true] at hexec
    refine ⟨detachedBegun c k b p s, ?_, hnone, by rw [hbegun, State.spare_eng]; exact hst, by rw [hbegun, State.spare_f]; exact hcode, ?_⟩
    · cases hrec : s.spare.recovery
      · rw [hrec] at hexec; exact congrArg Host.Outcome.next hexec
      · rw [hrec] at hexec; exact congrArg Host.Outcome.next hexec
    · rw [hbegun]; exact engineFault_standFor 6 0 8 (c + 8) none s

end Sys2Proof
end

section
/-! The release of locks, and the reset of a faulted engine (R120, R147, R150, R160, R539). -/

namespace Sys2Proof.Machine

open Sys2Proof Reg

/-! ### A lock after a request (R119, R120) -/

/-- Lock k stands at x, and the cycle has noted the request r. -/
def lockPut (k : Nat) (x : Lock) (r : LockReq) (s : State) : State :=
  { s with locks := mset s.locks k x {}, lockNow := s.lockNow ++ [r] }

theorem lockPut_lock_same (k : Nat) (x : Lock) (r : LockReq) (s : State) : mget (lockPut k x r s).locks k {} = x :=
  mget_mset_same _ _ _ _

theorem lockPut_lock_ne {k j : Nat} (h : j ≠ k) (x : Lock) (r : LockReq) (s : State) :
    mget (lockPut k x r s).locks j {} = mget s.locks j {} := mget_mset_ne _ _ _ _ h

theorem lockPut_lockReqs_ne {r : LockReq} {j : Nat} (h : r.lock ≠ j) (k : Nat) (x : Lock) (s : State) :
    (lockPut k x r s).lockReqs j = s.lockReqs j := by
  rw [State.lockReqs, lockPut, List.filter_append, List.filter_cons_of_neg (by simpa using h), List.filter_nil, List.append_nil,
    State.lockReqs]

/-! ### A lock is abandoned (R120, R147) -/

/-- The request that releases lock k, held under engine number n, and marks it ABANDONED. -/
def State.releaseReq (s : State) (c : Option Nat) (n k : Nat) : LockReq :=
  { cyc := c.getD (s.releaseCyc n k), lock := k, num := n, aband := true, was := s.lockWas k }

theorem lockAbandon_of_serve {c : Option Nat} {n k : Nat} {s t : State} {x : Lock} (h : lockServe
    (lockOrder (s.lockReqs k ++ [s.releaseReq c n k])) (s.lockWas k) s = (x, t)) :
    lockAbandon c n k s = lockPut k x (s.releaseReq c n k) t := by
  have hask : lockAbandon c n k s =
      let x := lockServe (lockOrder (s.lockReqs k ++ [s.releaseReq c n k])) (s.lockWas k) s
      lockPut k x.1 (s.releaseReq c n k) x.2 := rfl
  rw [hask, h]

/-- A release frees the lock that stands under its number and marks it. -/
theorem lockServe_release {n : Nat} {x : Lock} (hheld : x.held = some n) (c : Option Nat) (k : Nat) (l : List LockReq) (s u : State) :
    lockServe (s.releaseReq c n k :: l) x u = lockServe l { held := none, aband := true } u := by
  have hplay : lockPlay (s.releaseReq c n k) x = (0, { held := none, aband := true }) := by
    simp [lockPlay, State.releaseReq, hheld]
  rw [lockServe, hplay]; rfl

/-- A lock that no request of the cycle has reached. -/
theorem lockAbandon_quiet {n k : Nat} {s : State} (hreqs : s.lockReqs k = []) (hheld : (mget s.locks k {}).held = some n)
    (c : Option Nat) : lockAbandon c n k s = lockPut k { held := none, aband := true } (s.releaseReq c n k) s := by
  have hwas : s.lockWas k = mget s.locks k {} := by simp [State.lockWas, hreqs]
  refine lockAbandon_of_serve ?_
  rw [hreqs, hwas]
  exact lockServe_release hheld c k [] s s

/-- A TRYL that still waits receives its result. -/
theorem lockAnswer_waiting {q : LockReq} {rd : Nat} {s : State} (hrd : q.rd = some rd)
    (hrun : ((s.eng q.inst).run.map fun y => y.ec0 + y.ec) = some (q.cyc + 4)) (v : Nat) :
    lockAnswer q v s = s.modEng q.inst (·.setR rd (BitVec.ofNat 64 v)) := by
  obtain ⟨r, hr, hcyc⟩ := Option.map_eq_some_iff.mp hrun
  simp only [lockAnswer, hrd]
  exact State.modEng_congr s q.inst (if_pos (by simp [hr, hcyc]))

/-- A lock that another engine has tried in the engine cycle of the release: the release comes first, and the TRYL takes the
lock and gets its result anew (R120). -/
theorem lockAbandon_tried {n k c rd : Nat} {q : LockReq} {s : State} (hreqs : s.lockReqs k = [q]) (hcyc : q.cyc = c)
    (hrd : q.rd = some rd) (hheld : q.was.held = some n)
    (hrun : ((s.eng q.inst).run.map fun y => y.ec0 + y.ec) = some (q.cyc + 4)) : lockAbandon (some c) n k s =
      lockPut k { held := some q.num, aband := false } (s.releaseReq (some c) n k) (s.modEng q.inst (·.setR rd 1)) := by
  have hwas : s.lockWas k = q.was := by simp [State.lockWas, hreqs]
  have horder : lockOrder [q, s.releaseReq (some c) n k] = [s.releaseReq (some c) n k, q] := by
    have hfirst : lockFirst (s.releaseReq (some c) n k) q = true := by simp [lockFirst, State.releaseReq, hcyc, hrd]
    show lockInsert (s.releaseReq (some c) n k) [q] = _
    rw [lockInsert, hfirst]; rfl
  have hplay : lockPlay q { held := none, aband := true } = (1, { held := some q.num, aband := false }) := by
    simp [lockPlay, tryLock, hrd]
  refine lockAbandon_of_serve ?_
  rw [hreqs, List.cons_append, List.nil_append, horder, hwas, lockServe_release hheld, lockServe, hplay, lockAnswer_waiting hrd hrun]
  rfl

/-! ### All locks of an engine number are released (R147) -/

/-- Lock k is released if it stands under engine number n. -/
def releaseLock (c : Option Nat) (n : Nat) (s : State) (k : Nat) : State :=
  if (mget s.locks k {}).held = some n then lockAbandon c n k s else s

theorem releaseLocks_eq (c : Option Nat) (n : Nat) (s : State) : releaseLocks c n s = (List.range 64).foldl (releaseLock c n) s := rfl

/-- From s to t the locks of a list that stand under engine number n are free and ABANDONED; nothing else has changed but the
requests that the cycle has noted at them. -/
structure LocksReleased (n : Nat) (l : List Nat) (s t : State) : Prop where
  frame : t = { s with locks := t.locks, lockNow := t.lockNow }
  locks : ∀ k, mget t.locks k {} = if k ∈ l ∧ (mget s.locks k {}).held = some n then { held := none, aband := true } else mget s.locks k {}
  reqs : ∀ k, k ∉ l → t.lockReqs k = s.lockReqs k

theorem LocksReleased.engines {n : Nat} {l : List Nat} {s t : State} (h : LocksReleased n l s t) : t.engines = s.engines := by
  rw [h.frame]

theorem LocksReleased.eng {n : Nat} {l : List Nat} {s t : State} (h : LocksReleased n l s t) (k : Nat) : t.eng k = s.eng k :=
  State.eng_congr h.engines k

theorem LocksReleased.frame_modEng {n e : Nat} {l : List Nat} {s t : State} {f : Engine → Engine}
    (h : LocksReleased n l (s.modEng e f) t) : t = { s with engines := t.engines, locks := t.locks, lockNow := t.lockNow } := by
  rw [h.engines]; exact h.frame

theorem LocksReleased.cons {n k : Nat} {l : List Nat} {s t u : State} (h : LocksReleased n [k] s t) (h' : LocksReleased n l t u)
    (hk : k ∉ l) : LocksReleased n (k :: l) s u := by
  refine ⟨h'.frame.trans (by rw [h.frame]), fun j => ?_, fun j hj => ?_⟩
  · rw [h'.locks, h.locks]
    by_cases hjk : j = k
    · subst hjk; simp [hk]
    · simp [hjk]
  · rw [List.mem_cons, not_or] at hj
    rw [h'.reqs j hj.2, h.reqs j (by simpa using hj.1)]

theorem releaseLock_released {n k : Nat} {s : State} (hreqs : s.lockReqs k = []) (c : Option Nat) :
    LocksReleased n [k] s (releaseLock c n s k) := by
  by_cases hheld : (mget s.locks k {}).held = some n
  · rw [releaseLock, if_pos hheld, lockAbandon_quiet hreqs hheld]
    refine ⟨rfl, fun j => ?_, fun j hj => lockPut_lockReqs_ne (fun h => hj (List.mem_singleton.mpr h.symm)) _ _ _⟩
    by_cases hjk : j = k
    · subst hjk; rw [lockPut_lock_same, if_pos ⟨List.mem_singleton.mpr rfl, hheld⟩]
    · rw [lockPut_lock_ne hjk, if_neg (by simp [hjk])]
  · rw [releaseLock, if_neg hheld]
    exact ⟨rfl, fun j => (if_neg fun ⟨hj, h⟩ => hheld (List.mem_singleton.mp hj ▸ h)).symm, fun _ _ => rfl⟩

theorem foldl_releaseLock_released {n : Nat} {l : List Nat} (hl : l.Nodup) {s : State} (hreqs : ∀ k ∈ l, s.lockReqs k = [])
    (c : Option Nat) : LocksReleased n l s (l.foldl (releaseLock c n) s) := by
  induction l generalizing s with
  | nil => exact ⟨rfl, fun _ => by simp, fun _ _ => rfl⟩
  | cons k l ih =>
    obtain ⟨hk, hl⟩ := List.nodup_cons.mp hl
    have hone := releaseLock_released (n := n) (hreqs k (List.mem_cons_self ..)) c
    refine hone.cons (ih hl fun j hj => ?_) hk
    rw [hone.reqs j (by simpa using fun h : j = k => hk (h ▸ hj)), hreqs j (List.mem_cons_of_mem _ hj)]

/-- Where no lock has been asked in the cycle. -/
theorem releaseLocks_quiet {s : State} (h : s.lockNow = []) (c : Option Nat) (n : Nat) :
    LocksReleased n (List.range 64) s (releaseLocks c n s) := by
  rw [releaseLocks_eq]
  exact foldl_releaseLock_released List.nodup_range (fun k _ => by rw [State.lockReqs, h]; rfl) c

/-- Where one request of the cycle is the TRYL of another engine, in the engine cycle of the release, at a lock that stands
under engine number n: the other locks are released before and after it. -/
theorem releaseLocks_tried {n k c rd : Nat} {q : LockReq} {s : State} (hk : k < 64) (hnow : s.lockNow = [q]) (hlock : q.lock = k)
    (hcyc : q.cyc = c) (hrd : q.rd = some rd) (hheld : q.was.held = some n) (hwas : mget s.locks k {} = q.was)
    (hrun : ((s.eng q.inst).run.map fun y => y.ec0 + y.ec) = some (q.cyc + 4)) :
    mget (releaseLocks (some c) n s).locks k {} = { held := some q.num, aband := false } ∧
      (releaseLocks (some c) n s).engines = (s.modEng q.inst (·.setR rd 1)).engines := by
  have hreqs : s.lockReqs k = [q] := by rw [State.lockReqs, hnow, List.filter_cons_of_pos (by simpa using hlock)]; rfl
  have hquiet {j : Nat} (hj : j ≠ k) : s.lockReqs j = [] := by
    rw [State.lockReqs, hnow, List.filter_cons_of_neg (by simpa [hlock] using hj.symm)]; rfl
  obtain ⟨l, l', hl⟩ := List.append_of_mem (List.mem_range.mpr hk)
  obtain ⟨hnl, hnl', hdisj⟩ := List.nodup_append.mp (hl ▸ List.nodup_range (n := 64))
  obtain ⟨hkl', hnl'⟩ := List.nodup_cons.mp hnl'
  have hkl : k ∉ l := fun h => hdisj k h k (List.mem_cons_self ..) rfl
  rw [releaseLocks_eq, hl, List.foldl_append, List.foldl_cons]
  have hbefore := foldl_releaseLock_released (n := n) hnl (fun j hj => hquiet fun h => hkl (h ▸ hj)) (some c)
  generalize l.foldl (releaseLock (some c) n) s = t at hbefore ⊢
  have hlockk : mget t.locks k {} = q.was := by rw [hbefore.locks, if_neg (fun h => hkl h.1), hwas]
  rw [releaseLock, if_pos (by rw [hlockk, hheld]), lockAbandon_tried ((hbefore.reqs k hkl).trans hreqs) hcyc hrd hheld
    (by rw [hbefore.eng]; exact hrun)]
  have hafter := foldl_releaseLock_released (n := n) hnl' (c := some c)
    (s := lockPut k { held := some q.num, aband := false } (t.releaseReq (some c) n k) (t.modEng q.inst (·.setR rd 1))) fun j hj => by
      have hjk : j ≠ k := fun h => hkl' (h ▸ hj)
      rw [lockPut_lockReqs_ne (Ne.symm hjk)]
      exact (hbefore.reqs j fun h => hdisj j h j (List.mem_cons_of_mem _ hj) rfl).trans (hquiet hjk)
  refine ⟨by rw [hafter.locks, if_neg (fun h => hkl' h.1), lockPut_lock_same], ?_⟩
  rw [hafter.engines]
  show mset t.engines q.inst ((t.eng q.inst).setR rd 1) _ = mset s.engines q.inst ((s.eng q.inst).setR rd 1) _
  rw [hbefore.eng, hbefore.engines]

/-! ### The reset (R147, R150, R539) -/

/-- The engine number under which engine e holds its locks when it is reset: CE16's is that of its stand-in (R539). -/
def State.resetNum (s : State) (e : Nat) : Nat := if e = 16 then s.spare.ended.getD 16 else e

/-- Engine e has released its locks at its reset after a fault at t0. -/
def resetReleased (e t0 : Nat) (s : State) : State :=
  releaseLocks (some (t0 + 4)) (s.resetNum e) (s.modEng e fun x => { x with resetAt := none })

/-- The reset ends with its pulse, and leaves CE16 SPARE. -/
def resetEnds (e : Nat) (u : State) : State :=
  if e = 16 then { (pulse 0x23D u).modEng 16 (fun x => { x with st := .spare }) with spare.ended := none } else pulse 0x23D u

theorem engineReset_due {e t0 : Nat} {s : State} (h : (s.eng e).resetAt = some t0) (hdue : t0 + 4 ≤ s.ecNow) :
    engineReset e s = resetEnds e (resetReleased e t0 s) := by
  simp only [engineReset, h, hdue, decide_true, if_true, resetEnds, resetReleased, State.resetNum]

theorem engineReset_idle {e : Nat} {s : State}
    (h : (s.eng e).resetAt = none ∨ ∃ t0, (s.eng e).resetAt = some t0 ∧ s.ecNow < t0 + 4) : engineReset e s = s := by
  obtain h | ⟨t0, h, hlt⟩ := h
  · simp only [engineReset, h]
  · simp only [engineReset, h]
    rw [if_neg (by simpa using hlt)]

theorem resetEnds_locks (e : Nat) (u : State) : (resetEnds e u).locks = u.locks := by
  have hpulse : (pulse 0x23D u).locks = u.locks := by rw [(pulse_only 0x23D u).1]
  unfold resetEnds
  split
  · exact hpulse
  · exact hpulse

theorem resetEnds_eng_ne {e k : Nat} (hk : k ≠ e) (u : State) : (resetEnds e u).eng k = u.eng k := by
  unfold resetEnds
  split
  · next he => rw [State.spare_eng, State.modEng_eng_ne _ _ (he ▸ hk), (pulse_only 0x23D u).eng]
  · exact (pulse_only 0x23D u).eng k

/-- CE16 that stands in no longer has no program and no event flags, and is in the state given (R160, R539). -/
theorem leaveStandin_eng_16 {st : EngState} {s : State} {n : Nat} (h : s.spare.standFor = some n) :
    ∃ y : Engine, (leaveStandin st s).eng 16 = { y with
      st := st, evin := 0, run := none, toRun := false, image := {}, g := [], estat := 0, resetAt := none } := by
  have hset (u : State) (y : Engine) : ({ u.setEng 16 y with spare := {}, ticks := [] } : State).eng 16 = y :=
    (State.eng_congr (s := u.setEng 16 y) rfl 16).trans (State.setEng_eng_same u 16 y)
  rw [leaveStandin, h]
  exact ⟨_, hset _ _⟩

end Sys2Proof.Machine

namespace Sys2Proof

open Machine Reg

/-- Settles O14: a reset that is due releases the locks of the engine's number, around the TRYL of its engine cycle where there is
one, and ends with the pulse; CE16 is SPARE then. -/
theorem faultedEngineIsReset : Obligations.FaultedEngineIsReset := by
  refine fun e s => ⟨fun t0 n hreset hdue hn hnow => ?reset,
    fun t0 n k m rd q hreset hdue hn hnow hlock hk hcyc hrd hnum _ hinst hheld hwas hrun => ?tried,
    fun h => congrArg Host.Outcome.next (engineReset_idle h), fun n h hn => ?standin⟩
  case reset =>
    have hrel : LocksReleased (s.resetNum e) (List.range 64) _ (resetReleased e t0 s) :=
      releaseLocks_quiet (s := s.modEng e fun x => { x with resetAt := none }) hnow _ _
    refine ⟨resetReleased e t0 s, _, congrArg Host.Outcome.next (engineReset_due hreset hdue), hrel.frame_modEng,
      (hrel.eng e).trans (State.modEng_eng_same _ _ _), fun k hk => (hrel.eng k).trans (State.modEng_eng_ne _ _ hk), fun k hk => ?_,
      fun he => if_neg fun h => he (Fin.ext h), fun he => if_pos (congrArg Fin.val he)⟩
    rw [hrel.locks, hn]
    simp [hk, State.resetNum]
  case tried =>
    have heng := State.modEng_eng_ne s (fun x => { x with resetAt := none }) hinst
    obtain ⟨hlocks, hengs⟩ := releaseLocks_tried (s := s.modEng e fun x => { x with resetAt := none }) hk hnow hlock hcyc hrd
      (hheld.trans (congrArg some hn)) hwas (by rw [heng]; exact hrun)
    refine ⟨_, congrArg Host.Outcome.next (engineReset_due hreset hdue), ?_, fun i => ?_⟩
    · rw [resetEnds_locks, ← hnum]; exact hlocks
    · rw [resetEnds_eng_ne hinst, resetReleased, State.resetNum, State.eng_congr hengs, State.modEng_eng_same, Engine.setR_r, heng]
  case standin =>
    obtain ⟨y, hy⟩ := leaveStandin_eng_16 (st := .spare) h
    refine ⟨leaveStandin_spare h, by rw [endStandin, hy], by rw [endStandin, hy], ?_, endStandin_mem s⟩
    rw [endStandin, leaveStandin_eng_ne _ _ (by omega), if_pos h]

end Sys2Proof
end

section
/-! Writes of COIL_CTRL (R10, R161, R162, R167). -/

namespace Sys2Proof.Machine

open Sys2Proof Reg

/-! ### States that read as another but for one engine -/

theorem ReadsAs.engines {s t : State} (h : ReadsAs s t) : t.engines = s.engines := by rw [h.1]

theorem EngineIs.reg64 {e : Nat} {x : Engine} {s t : State} (h : EngineIs e x s t) (a : Nat) : t.reg64 a = s.reg64 a :=
  State.reg64_congr (h.2.1 _) (h.2.1 _)

theorem EngineIs.f {e : Nat} {x : Engine} {s t : State} (h : EngineIs e x s t) (F : Fld) : t.f F = s.f F := by
  rw [State.f, State.f, h.2.1, h.reg64]

theorem EngineIs.mc {e : Nat} {x : Engine} {s t : State} (h : EngineIs e x s t) : t.mc = s.mc := by
  rw [h.1]; rfl

theorem EngineIs.eng {e : Nat} {x : Engine} {s t : State} (h : EngineIs e x s t) : t.eng e = x := h.2.2.2.1

theorem ReadsAs.engineIs {s t : State} (h : ReadsAs s t) (e : Nat) : EngineIs e (s.eng e) s t := by
  refine ⟨?_, h.2.1, h.2.2, State.eng_congr h.engines e, fun k _ => State.eng_congr h.engines k⟩
  rw [h.engines]; exact h.1

theorem EngineIs.modEng {e : Nat} {x : Engine} {s t : State} (h : EngineIs e x s t) (f : Engine → Engine) :
    EngineIs e (f x) s (t.modEng e f) := by
  obtain ⟨heq, hreg, hstg, heng, hne⟩ := h
  refine ⟨?_, hreg, hstg, by rw [State.modEng_eng_same, heng], fun k hk => (State.modEng_eng_ne _ _ hk).trans (hne k hk)⟩
  exact congrArg (fun u : State => { u with engines := (t.modEng e f).engines }) heq

/-! ### The word of COIL_CTRL (R10) -/

theorem kept_COIL_CTRL (e : Fin 17) (s : State) :
    s.kept (COIL_CTRL e) = (s.reg (COIL_CTRL e) &&& 196864#32) ||| (s.stg (COIL_CTRL e) &&& 19#32) := by
  rw [State.kept, rowAt_COIL_CTRL]; rfl

/-- TRACE, DRY and HOLD are kept as they stand. -/
theorem kept_COIL_CTRL_stored (e : Fin 17) (s : State) {i : Nat} (h : i = 8 ∨ i = 16 ∨ i = 17) :
    (s.kept (COIL_CTRL e)).getLsbD i = (s.reg (COIL_CTRL e)).getLsbD i := by
  rw [kept_COIL_CTRL]
  obtain rfl | rfl | rfl := h <;> simp

/-- CMD and TAKEOVER are kept as staged. -/
theorem kept_COIL_CTRL_staged (e : Fin 17) (s : State) {i : Nat} (h : i = 0 ∨ i = 1 ∨ i = 4) :
    (s.kept (COIL_CTRL e)).getLsbD i = (s.stg (COIL_CTRL e)).getLsbD i := by
  rw [kept_COIL_CTRL]
  obtain rfl | rfl | rfl := h <;> simp

/-- LOAD and STEP are not kept. -/
theorem kept_COIL_CTRL_acts (e : Fin 17) (s : State) {i : Nat} (h : i = 2 ∨ i = 9) : (s.kept (COIL_CTRL e)).getLsbD i = false := by
  rw [kept_COIL_CTRL]
  obtain rfl | rfl := h <;> simp

theorem softWrite_COIL_CTRL {e : Fin 17} {s : State} (hr : s.reaches (COIL_CTRL e)) (req : Nat) (v : Word) :
    softWrite req (COIL_CTRL e) v s = coilCtrl req e v s := by
  have hrow := rowAt_COIL_CTRL e
  have hoff : COIL_CTRL e = 0x90000 + 0x400 * e.val := rfl
  have hblk : COIL_CTRL e / 0x10000 = 9 := by omega
  have hidx : (COIL_CTRL e - 0x90000) / 0x400 = e.val := by omega
  have hlock : ¬ 0x96000 ≤ COIL_CTRL e := by omega
  rw [softWrite_reaches _ _ hr (by rw [wideRw, hrow]; rfl)]
  simp only [putWord, hblk, hrow, writeCoil, hidx, hlock]
  simp

/-- A write that agrees with the stored and the staged settings puts them back. -/
theorem genWrite_COIL_CTRL_readsAs {e : Fin 17} {s : State} {v : Word}
    (hstored : ∀ i, i = 8 ∨ i = 16 ∨ i = 17 → v.getLsbD i = (s.reg (COIL_CTRL e)).getLsbD i)
    (hstaged : ∀ i, i = 0 ∨ i = 1 ∨ i = 4 → v.getLsbD i = (s.stg (COIL_CTRL e)).getLsbD i) (req : Nat) :
    ReadsAs s (genWrite req (COIL_CTRL e) v false s) := by
  have hgen : genWrite req (COIL_CTRL e) v false s =
      (s.setReg (COIL_CTRL e) (merge (s.reg (COIL_CTRL e)) v 196864)).setStg (COIL_CTRL e) (merge (s.stg (COIL_CTRL e)) v 19) := by
    simp [genWrite, rowAt_COIL_CTRL, partOf]
  have hrw : ∀ i, i < 32 → (BitVec.ofNat 32 196864).getLsbD i = true → i = 8 ∨ i = 16 ∨ i = 17 := by decide
  have hrws : ∀ i, i < 32 → (BitVec.ofNat 32 19).getLsbD i = true → i = 0 ∨ i = 1 ∨ i = 4 := by decide
  rw [hgen]
  exact (readsAs_setReg_self s (merge_of_agree fun i hi h => hstored i (hrw i hi h))).trans
    (readsAs_setStg_self _ (merge_of_agree fun i hi h => hstaged i (hrws i hi h)))

theorem bitsOf_one (w : Word) (k : Nat) : bitsOf w.toNat k 1 = (w.getLsbD k).toNat := by
  rw [bitsOf, Nat.shiftRight_eq_div_pow, ← BitVec.testBit_toNat, Nat.toNat_testBit, Nat.pow_one]

/-! ### LOAD (R135, R137, R161) -/

/-- The word that a LOAD writes. -/
def loadWord (e : Nat) (s : State) : Word := BitVec.ofNat 32 (setBits (s.kept (COIL_CTRL e)).toNat 2 1 1)

theorem loadWord_getLsbD (e : Nat) (s : State) (i : Nat) : (loadWord e s).getLsbD i = if i = 2 then true else (s.kept (COIL_CTRL e)).getLsbD i := by
  rw [loadWord, setBits_getLsbD _ (by decide)]
  by_cases h : i = 2
  · subst h; rfl
  · rw [if_neg h]
    split
    · rfl
    · rw [if_neg (by omega)]

/-- A stand-in takes no LOAD: the write of CE16's register is refused, and puts its TRACE back (R161). -/
theorem coilCtrl_load_barred {s : State} (h : s.spare.standFor.isSome = true) (req : Nat) :
    ∃ u, ReadsAs s u ∧ coilCtrl req 16 (loadWord 16 s) s = werr req (COIL_CTRL 16) u := by
  have hload : (loadWord 16 s).getLsbD 2 = true := loadWord_getLsbD 16 s 2
  have htrace : bitsOf (loadWord 16 s).toNat 17 1 % 2 ^ (COIL_CTRL_TRACE 16).w = s.f (COIL_CTRL_TRACE 16) := by
    show _ % 2 ^ 1 = _
    rw [Nat.mod_eq_of_lt (bitsOf_lt _ _ _), bitsOf_one, State.f_eq_flag s (F := COIL_CTRL_TRACE 16) rfl, COIL_CTRL_TRACE,
      State.flag_eq_getLsbD s (by decide), loadWord_getLsbD, if_neg (by decide)]
    exact congrArg Bool.toNat (kept_COIL_CTRL_stored 16 s (.inr (.inr rfl)))
  refine ⟨s.setF (COIL_CTRL_TRACE 16) (bitsOf (loadWord 16 s).toNat 17 1), readsAs_setF_self s (by decide) htrace, ?_⟩
  rw [coilCtrl, if_pos (by simp [State.ctrlBarred, h]), barredCtrl]
  simp only [hload, Bool.true_or, if_true]

/-- HOLD does not apply at CE16. -/
theorem ReadsAs.engHeld_16 {s t : State} (h : ReadsAs s t) (on : Bool) : EngineIs 16 (s.engHeld 16 on) s t := by
  rw [State.engHeld, if_pos (.inr rfl)]
  exact h.engineIs 16

/-- HOLD has applied where it applies at once. -/
theorem holdNow_engineIs {s t : State} (h : ReadsAs s t) (e : Nat) : EngineIs e (s.engHeld e (s.flag (COIL_CTRL_HOLD e))) s (holdNow e t) := by
  rw [holdNow, State.engHeld, h.ticking, h.flag]
  by_cases hc : s.ticking = true ∨ e = 16
  · rw [if_pos hc, if_pos (by simpa using hc)]
    exact h.engineIs e
  · rw [if_neg hc, if_neg (by simpa using hc)]
    exact (h.engineIs e).modEng fun x => { x with held := s.flag (COIL_CTRL_HOLD e) }

/-- Where no stand-in bars it, a LOAD puts the other settings back, and the check is asked for. -/
theorem coilCtrl_load_taken {e : Fin 17} {s : State} (h : s.ctrlBarred e = false) (req : Nat) :
    ∃ u, EngineIs e (s.engHeld e (s.flag (COIL_CTRL_HOLD e))) s u ∧ coilCtrl req e (loadWord e s) s = loadCmd req e u := by
  refine ⟨holdNow e (genWrite req (COIL_CTRL e) (loadWord e s) false s),
    holdNow_engineIs (genWrite_COIL_CTRL_readsAs (fun i hi => ?_) (fun i hi => ?_) req) e, ?_⟩
  · rw [loadWord_getLsbD, if_neg (by omega), kept_COIL_CTRL_stored e s hi]
  · rw [loadWord_getLsbD, if_neg (by omega), kept_COIL_CTRL_staged e s hi]
  · have hload : (loadWord e s).getLsbD 2 = true := loadWord_getLsbD e s 2
    have hstep : (loadWord e s).getLsbD 9 = false := by
      rw [loadWord_getLsbD, if_neg (by decide), kept_COIL_CTRL_acts e s (.inr rfl)]
    rw [coilCtrl, if_neg (by simp [h])]
    simp only [hload, hstep, if_true, Bool.false_eq_true, if_false]

/-- An engine is OFF where its domain is (R131). -/
theorem engState_eq_zero_iff (s : State) (e : Nat) : s.engState e = 0 ↔ s.on (engDom e) = false := by
  unfold State.engState
  cases s.on (engDom e)
  · simp
  · simp only [Bool.not_true, Bool.false_eq_true, if_false, iff_false, Bool.true_eq_false]
    cases (s.eng e).st with
    | running => dsimp only; split <;> decide
    | idle | faulted | spare | standin => exact Nat.succ_ne_zero _

theorem loadCmd_refused {e : Nat} {s : State} (h : e = 16 ∨ (s.eng e).check.isSome = true) (req : Nat) :
    loadCmd req e s = werr req (COIL_CTRL e) s := if_pos (by simp; tauto)

theorem loadCmd_taken {e : Nat} {s : State} (h16 : e ≠ 16) (hon : s.engState e ≠ 0) (hcheck : (s.eng e).check = none) (req : Nat) :
    loadCmd req e s = s.modEng e fun x => { x with pendImg := none, check := some (s.f (COIL_LDBASE_BASE e) / 32 * 32, s.mc) } :=
  if_neg (by simp [h16, hon, hcheck])

/-! ### The check of a program (R132, R135, R136) -/

theorem readWordErr_engines (b r w : Nat) (s : State) : (readWordErr b r s w).engines = s.engines := by
  unfold readWordErr
  split
  · rfl
  · simp [countCorr]
  · rw [countUnc, logFault_eq]; simp

theorem bankRead_engines (b r a n : Nat) (s : State) : (bankRead b r a n s).2.2.engines = s.engines :=
  foldl_keep State.engines _ (fun t w => readWordErr_engines b r w t) _ s

/-- What a header that passes says (R132). -/
theorem headerCode_eq_zero {h : List Byte} {base hi : Nat} (hcode : headerCode h base hi = 0) :
    base + leField h 8 4 ≤ hi ∧ leField h 8 4 % 8 = 0 ∧ 40 ≤ leField h 8 4 ∧ leField h 12 4 % 4 = 0 ∧ 32 ≤ leField h 12 4 ∧
      leField h 12 4 < leField h 8 4 ∧ 0 < leField h 16 4 := by
  unfold headerCode at hcode
  simp only [Bool.or_eq_true, decide_eq_true_eq] at hcode
  split_ifs at hcode
  omega

theorem headerCode_lt (h : List Byte) (base hi : Nat) : headerCode h base hi < 16 := by
  unfold headerCode
  dsimp only
  split_ifs <;> decide

/-- The three ends of a check: outside the bank, at a header that fails, and at the end of the image (R135, R136). -/
theorem checkImage_cases (e base : Nat) (s : State) :
    checkImage e base s = (1, {}, 0, s) ∨
    bankBase (e / 4 % 4) ≤ base ∧ ∃ (h : List Byte) (code words : Nat) (t : State), t.engines = s.engines ∧ code < 16 ∧
      (code = 0 → headerCode h base (bankBase (e / 4 % 4) + 0x40000) = 0) ∧
      checkImage e base s = (code, ⟨base, leField h 8 4, leField h 12 4, leField h 16 4⟩, words, t) := by
  unfold checkImage
  extract_lets b lo hi
  by_cases hout : (decide (base < lo) || decide (hi < base + 32)) = true
  · exact .inl (if_pos hout)
  · rw [if_neg hout]
    simp only [Bool.or_eq_true, decide_eq_true_eq, not_or, Nat.not_lt] at hout
    obtain ⟨hlo, -⟩ := hout
    have hread := bankRead_engines b 8 base 32 s
    rcases hb : bankRead b 8 base 32 s with ⟨h, bad, s1⟩
    rw [hb] at hread
    refine .inr ⟨hlo, h, ?_⟩
    dsimp only
    by_cases hcode : headerCode h base hi = 0
    · rw [if_neg (not_not.mpr hcode)]
      have hrest := bankRead_engines b 8 (base + 32) (leField h 8 4 - 32) s1
      refine ⟨_, _, _, hrest.trans hread, ?_, fun _ => hcode, rfl⟩
      split_ifs <;> decide
    · rw [if_pos hcode]
      exact ⟨_, _, _, hread, headerCode_lt _ _ _, id, rfl⟩

/-- What a check tells of the image and leaves of the engines. -/
theorem checkImage_spec {e base code words : Nat} {s t : State} {img : Image} (h : checkImage e base s = (code, img, words, t)) :
    t.engines = s.engines ∧ code < 16 ∧ (code = 0 → img.base = base ∧ bankBase (e / 4 % 4) ≤ base ∧
      base + img.len ≤ bankBase (e / 4 % 4) + 0x40000 ∧ img.len % 8 = 0 ∧ 40 ≤ img.len ∧ img.entry % 4 = 0 ∧ 32 ≤ img.entry ∧
      img.entry < img.len ∧ 0 < img.decl) := by
  obtain hout | ⟨hlo, hdr, code', words', t', hengs, hlt, hpass, heq⟩ := checkImage_cases e base s
  · rw [h, Prod.mk.injEq, Prod.mk.injEq, Prod.mk.injEq] at hout
    obtain ⟨rfl, -, -, rfl⟩ := hout
    exact ⟨rfl, by decide, fun h0 => absurd h0 (by decide)⟩
  · rw [h, Prod.mk.injEq, Prod.mk.injEq, Prod.mk.injEq] at heq
    obtain ⟨rfl, rfl, -, rfl⟩ := heq
    exact ⟨hengs, hlt, fun h0 => ⟨rfl, hlo, headerCode_eq_zero (hpass h0)⟩⟩

/-! ### The end of a check (R135, R136) -/

section
variable {e base m code words : Nat} {s s1 : State} {img : Image}

theorem checkEnd_early (hcheck : (s.eng e).check = some (base, m)) (himg : checkImage e base s = (code, img, words, s1))
    (h : s.mc < m + words + 16) : checkEnd e s = s := by
  simp only [checkEnd, hcheck, himg, h, if_true]

theorem checkEnd_due (hcheck : (s.eng e).check = some (base, m)) (himg : checkImage e base s = (code, img, words, s1))
    (h : m + words + 16 ≤ s.mc) : checkEnd e s =
      if code = 0 then (s1.setF (COIL_LDSTAT_CODE e) code).modEng e fun x => { x with check := none, pendImg := some img }
      else ((s1.setF (COIL_LDSTAT_CODE e) code).modEng e fun x => { x with check := none }).raise (COIL_FLAGS_LOADFAIL e) := by
  simp only [checkEnd, hcheck, himg, Nat.not_lt.mpr h, if_false]

/-- What a check that ends leaves. -/
theorem checkEnd_ends (hcheck : (s.eng e).check = some (base, m)) (himg : checkImage e base s = (code, img, words, s1))
    (h : m + words + 16 ≤ s.mc) : ((checkEnd e s).eng e).check = none ∧ (checkEnd e s).f (COIL_LDSTAT_CODE e) = code ∧
      (∀ k, k ≠ e → (checkEnd e s).eng k = s.eng k) ∧ (code = 0 → ((checkEnd e s).eng e).pendImg = some img) ∧
      (code ≠ 0 → ((checkEnd e s).eng e).pendImg = (s.eng e).pendImg ∧ (checkEnd e s).f (COIL_FLAGS_LOADFAIL e) = 1) := by
  obtain ⟨hengs, hlt, -⟩ := checkImage_spec himg
  have hcode : (COIL_LDSTAT_CODE e).lo + (COIL_LDSTAT_CODE e).w ≤ 32 := by show 0 + 4 ≤ 32; decide
  have hfail : (COIL_FLAGS_LOADFAIL e).lo + (COIL_FLAGS_LOADFAIL e).w ≤ 32 := by show 1 + 1 ≤ 32; decide
  have hne : COIL_LDSTAT e ≠ COIL_FLAGS e := by rw [COIL_LDSTAT, COIL_FLAGS]; omega
  have htold : (s1.setF (COIL_LDSTAT_CODE e) code).f (COIL_LDSTAT_CODE e) = code :=
    (State.setF_f_same _ _ _ hcode).trans (Nat.mod_eq_of_lt hlt)
  rw [checkEnd_due hcheck himg h]
  by_cases h0 : code = 0
  · rw [if_pos h0, State.modEng_eng_same]
    refine ⟨rfl, by rw [State.modEng_f, htold], fun k hk => ?_, fun _ => rfl, fun h => absurd h0 h⟩
    rw [State.modEng_eng_ne _ _ hk, State.setF_eng, State.eng_congr hengs]
  · rw [if_neg h0, State.raise_eng, State.modEng_eng_same]
    refine ⟨rfl, ?_, fun k hk => ?_, fun h => absurd h h0, fun _ => ⟨?_, State.raise_f_same _ _ hfail Nat.one_pos⟩⟩
    · rw [State.raise_f_ne _ _ _ hfail hcode (.inl hne), State.modEng_f, htold]
    · rw [State.raise_eng, State.modEng_eng_ne _ _ hk, State.setF_eng, State.eng_congr hengs]
    · rw [State.setF_eng, State.eng_congr hengs]

end

/-! ### START (R66, R138, R139, R403) -/

theorem rejectCmd_rejected (e : Nat) (v : State) : Rejected e v (rejectCmd e v) :=
  ⟨v.raise (COIL_FLAGS_START_REJ e), raise_onlyNoted v _ (by show 0 + 1 ≤ 32; decide) (List.mem_singleton.mpr rfl),
    State.raise_f_same _ _ (by show 0 + 1 ≤ 32; decide) Nat.one_pos, werr_refused _ _ _⟩

theorem startable_of_fits {e p : Nat} {v : State} {img : Image} (himg : (v.eng e).pendImg = some img) (hcheck : (v.eng e).check = none)
    (hfits : img.decl + 64 ≤ 4 * p) : v.startable e p = some img := by
  simp [State.startable, himg, hcheck, hfits]

theorem startable_none {e p : Nat} {v : State} (h : (v.eng e).pendImg = none ∨ (v.eng e).check.isSome = true ∨
    ∃ i, (v.eng e).pendImg = some i ∧ 4 * p < i.decl + 64) : v.startable e p = none := by
  unfold State.startable
  split
  · next i hi =>
    refine if_neg ?_
    obtain h | h | ⟨j, hj, hlt⟩ := h
    · rw [hi] at h; cases h
    · simp [Option.isSome_iff_ne_none.mp h]
    · rw [hi, Option.some.injEq] at hj
      subst hj
      simp [hlt]
  · rfl

/-- A START that no image can follow, or in a state that takes none. -/
theorem cmdStart_rejected {e p : Nat} {v : State} (h : v.lgcHolds e = true ∨ v.startable e p = none ∨ v.engState e = 0 ∨ v.engState e = 5 ∨
    v.engState e = 6 ∨ v.engState e = 4 ∧ v.spare.standFor ≠ some e) : cmdStart e p v = rejectCmd e v := by
  unfold cmdStart
  cases hstart : (if v.lgcHolds e = true then none else v.startable e p) with
  | none => rfl
  | some i =>
    obtain h | h | h | h | h | ⟨h, hne⟩ := h
    · rw [if_pos h] at hstart; cases hstart
    · rw [h, ite_self] at hstart; cases hstart
    · simp only [h]
    · simp only [h]
    · simp only [h]
    · simp only [h, hne, if_false]

/-- A START of an engine that is IDLE, RUNNING or HELD. -/
theorem cmdStart_begins {e p : Nat} {v : State} {img : Image} (hheld : v.lgcHolds e = false) (hstart : v.startable e p = some img)
    (h : v.engState e = 1 ∨ v.engState e = 2 ∨ v.engState e = 3) :
    cmdStart e p v = beginImage e img .running (v.modEng e fun x => { x with pendImg := none }) := by
  unfold cmdStart
  rw [hheld, if_neg Bool.false_ne_true, hstart]
  obtain h | h | h := h
  · simp only [h]
  · simp only [h]
  · simp only [h]

theorem applyCmd_start {e : Nat} {v : State} (h : e ≠ 16 ∨ v.spare.standFor = none) (p : Nat) : applyCmd e 1 p v = cmdStart e p v :=
  if_neg (by simpa [Option.isSome_iff_ne_none, imp_iff_not_or] using h)

theorem beginImage_eng_same (e : Nat) (i : Image) (st : EngState) (s : State) : (beginImage e i st s).eng e = { s.eng e with
    st := st, image := i, g := [], estat := 0, run := none, held := s.flag (COIL_CTRL_HOLD (s.rights e))
    ck := { pbase := i.base, decl := i.decl } } := State.modEng_eng_same _ _ _

theorem beginImage_eng_ne {e k : Nat} (hk : k ≠ e) (i : Image) (st : EngState) (s : State) : (beginImage e i st s).eng k = s.eng k :=
  State.modEng_eng_ne _ _ hk

/-- The image that CE16 runs for engine e is replaced, and with it that of engine e (R138). -/
def imageReplaced (e : Nat) (img : Image) (v : State) : State :=
  { (beginImage 16 img .standin (v.modEng e fun x => { x with pendImg := none })).modEng e (fun x => { x with image := img }) with
    spare.nextRun := none }

theorem imageReplaced_eng_same {e : Nat} (he : e ≠ 16) (img : Image) (v : State) :
    (imageReplaced e img v).eng e = { v.eng e with pendImg := none, image := img } := by
  rw [imageReplaced, State.spare_eng, State.modEng_eng_same, beginImage_eng_ne he, State.modEng_eng_same]

theorem imageReplaced_eng_16 {e : Nat} (he : e ≠ 16) (img : Image) (v : State) : ∃ h, (imageReplaced e img v).eng 16 = { v.eng 16 with
    st := .standin, image := img, g := [], estat := 0, run := none, held := h, ck := { pbase := img.base, decl := img.decl } } := by
  rw [imageReplaced, State.spare_eng, State.modEng_eng_ne _ _ (Ne.symm he), beginImage_eng_same, State.modEng_eng_ne _ _ (Ne.symm he)]
  exact ⟨_, rfl⟩

/-- A START of a FAULTED engine that CE16 stands in for. -/
theorem cmdStart_replaces {e p : Nat} {v : State} {img : Image} (hheld : v.lgcHolds e = false) (hstart : v.startable e p = some img)
    (h : v.engState e = 4) (hfor : v.spare.standFor = some e) : cmdStart e p v = imageReplaced e img v := by
  unfold cmdStart
  rw [hheld, if_neg Bool.false_ne_true, hstart]
  simp only [h, hfor, if_true, imageReplaced]

theorem imageReplaced_spare (e : Nat) (img : Image) (v : State) : (imageReplaced e img v).spare = { v.spare with nextRun := none } := by
  simp only [imageReplaced, beginImage, State.modEng_spare]

theorem imageReplaced_regs (e : Nat) (img : Image) (v : State) : (imageReplaced e img v).regs = v.regs := by
  simp only [imageReplaced, beginImage, State.modEng_regs]

theorem imageReplaced_mem (e : Nat) (img : Image) (v : State) : (imageReplaced e img v).mem = v.mem := by
  simp only [imageReplaced, beginImage, State.modEng_mem]

end Sys2Proof.Machine

namespace Sys2Proof

open Machine Reg

/-- What a LOAD does (R135, R137, R161): it puts back what it does not set, and asks for the check or is refused. -/
theorem exec_load {e : Fin 17} {s : State} (hr : s.reaches (COIL_CTRL e)) (req : Fin 4) :
    (e ≠ 16 → s.engState e ≠ 0 → (s.eng e).check = none → ∃ t, exec (.load req e) s = .next t ∧
      EngineIs e { s.engHeld e (s.flag (COIL_CTRL_HOLD e)) with
        pendImg := none, check := some (s.f (COIL_LDBASE_BASE e) / 32 * 32, s.mc) } s t) ∧
    ((e = 16 ∨ (s.eng e).check.isSome = true) → ∃ u t,
      EngineIs e (s.engHeld e (s.flag (COIL_CTRL_HOLD e))) s u ∧ exec (.load req e) s = .next t ∧
      Refused req (COIL_CTRL e) u t) := by
  have hexec : exec (.load req e) s = .next (coilCtrl req e (loadWord e s) s) :=
    congrArg Host.Outcome.next (softWrite_COIL_CTRL hr req _)
  rw [hexec]
  by_cases hbar : s.ctrlBarred e = true
  · obtain ⟨rfl, hfor⟩ : e = 16 ∧ s.spare.standFor.isSome = true := by
      simpa [State.ctrlBarred, Fin.ext_iff] using hbar
    obtain ⟨u, hu, heq⟩ := coilCtrl_load_barred hfor req
    exact ⟨fun h16 => absurd rfl h16, fun _ => ⟨u, _, hu.engHeld_16 _, congrArg Host.Outcome.next heq, werr_refused _ _ _⟩⟩
  · obtain ⟨u, hu, heq⟩ := coilCtrl_load_taken (by simpa using hbar) req
    have hcheck : (u.eng e).check = (s.eng e).check := by rw [hu.eng]; rfl
    refine ⟨fun h16 hon hnone => ?_, fun h => ?_⟩
    · have hon' : u.engState e ≠ 0 := by
        rwa [ne_eq, engState_eq_zero_iff, State.on, hu.f, ← State.on, ← engState_eq_zero_iff]
      refine ⟨_, congrArg Host.Outcome.next (heq.trans (loadCmd_taken (fun h => h16 (Fin.ext h)) hon' (hcheck.trans hnone) req)), ?_⟩
      rw [hu.f, hu.mc]
      exact hu.modEng fun x => { x with pendImg := none, check := some (s.f (COIL_LDBASE_BASE e) / 32 * 32, s.mc) }
    · exact ⟨u, _, hu, congrArg Host.Outcome.next (heq.trans (loadCmd_refused (h.imp (congrArg Fin.val) (hcheck ▸ ·)) req)),
        werr_refused _ _ _⟩

/-- Settles O17: a LOAD asks for the check, whose end tells of the image that it has read; a START that can begin does so, and any
other is rejected. -/
theorem programsAreCheckedFirst : Obligations.ProgramsAreCheckedFirst := by
  refine ⟨fun req e s hr => exec_load hr req,
    fun e s s1 base m code words img hcheck himg => ⟨fun h => congrArg Host.Outcome.next (checkEnd_early hcheck himg h), fun h => ?ends,
      (checkImage_spec himg).2.2⟩, fun e p v t img hfree ht => ?start⟩
  case ends =>
    obtain ⟨hnone, hcode, hne, hpass, hfail⟩ := checkEnd_ends hcheck himg h
    exact ⟨_, rfl, hnone, hcode, checkEnd_mem _ _, hne, hpass, hfail⟩
  case start =>
    rw [applyCmd_start hfree] at ht
    subst ht
    refine ⟨fun hheld himg hcheck hfits => ⟨fun hst => ?_, fun hst hfor h16 => ?_⟩, fun h => ?_⟩
    · rw [cmdStart_begins hheld (startable_of_fits himg hcheck hfits) hst]
      refine ⟨rfl, fun k hk => by rw [beginImage_eng_ne hk, State.modEng_eng_ne _ _ hk], ?_⟩
      rw [beginImage_eng_same, State.modEng_eng_same]
      rfl
    · rw [cmdStart_replaces hheld (startable_of_fits himg hcheck hfits) hst hfor]
      obtain ⟨held, h16'⟩ := imageReplaced_eng_16 h16 img v
      rw [imageReplaced_eng_same h16, h16']
      exact ⟨rfl, rfl, rfl, rfl, rfl, rfl, rfl, imageReplaced_spare _ _ _, imageReplaced_regs _ _ _, imageReplaced_mem _ _ _⟩
    · rw [cmdStart_rejected]
      · exact rejectCmd_rejected e v
      · obtain h | h | h | h | h := h
        · exact .inl h
        · exact .inr (.inl (startable_none (.inl h)))
        · exact .inr (.inl (startable_none (.inr (.inl h))))
        · exact .inr (.inl (startable_none (.inr (.inr h))))
        · exact .inr (.inr h)

end Sys2Proof
end

section
/-! A write of HOLD at CE16 while it stands in (R48, R161). -/

namespace Sys2Proof.Machine

open Sys2Proof Reg

/-- CE16 stands in for CE3. Before that, software has staged TAKEOVER = 0 for it and has not committed (R48, R158), so the value in
force is still the reset value 1. HOLD is 0, and no command is staged. -/
def standinTakeoverStaged : State := { (State.reset.setF GLB_PWRSTAT_ON 0x7FFF).setStg (COIL_CTRL 16) 0 with
  spare := { standFor := some 3 } }

theorem standinTakeoverStaged_reaches : standinTakeoverStaged.reaches (COIL_CTRL 16) := by
  unfold State.reaches; decide +kernel

theorem standinTakeoverStaged_hold : standinTakeoverStaged.flag (COIL_CTRL_HOLD 16) = false := by decide +kernel

theorem standinTakeoverStaged_cmd : bitsOf (standinTakeoverStaged.stg (COIL_CTRL 16)).toNat 0 2 = 0 := by decide +kernel

/-- No write has been refused before. -/
theorem standinTakeoverStaged_count : standinTakeoverStaged.f GLB_WERR_COUNT = 0 := by decide +kernel

/-- The write of HOLD = 0 carries the staged TAKEOVER, which differs from the value in force, so it is refused and counted (R161). -/
theorem setField_hold_standinTakeoverStaged_count : (setField 0 (COIL_CTRL_HOLD 16) 0 standinTakeoverStaged).f GLB_WERR_COUNT = 1 := by
  decide +kernel

end Sys2Proof.Machine

namespace Sys2Proof

open Machine Reg

/-- Refutes O18: CE16 that stands in refuses a HOLD that changes nothing, with no command staged, where a TAKEOVER other than the one in
force is staged. The write carries the whole register, and R161 refuses that TAKEOVER. -/
theorem not_holdStepAndCheckpoints : ¬ Obligations.HoldStepAndCheckpoints := by
  rintro ⟨hctrl, -⟩
  obtain ⟨-, hstand⟩ := hctrl 0 16 standinTakeoverStaged standinTakeoverStaged_reaches
  obtain ⟨hkeeps, -⟩ := hstand rfl rfl
  obtain ⟨t, ht, hreads⟩ := hkeeps false standinTakeoverStaged_hold standinTakeoverStaged_cmd
  have ht : setField 0 (COIL_CTRL_HOLD 16) 0 standinTakeoverStaged = t := Host.Outcome.next.inj ht
  have hcount := hreads.f GLB_WERR_COUNT
  rw [← ht, setField_hold_standinTakeoverStaged_count, standinTakeoverStaged_count] at hcount
  cases hcount

end Sys2Proof
end

section
/-! What the operations of a port change: its flags, its input, its output and its counter (R177, R182 to R186, R192, R200). -/

namespace Sys2Proof.Machine

open Sys2Proof Reg

/-! ### Ports in their map -/

theorem mput_mput {α : Type} (m : SMap α) (k : Nat) (v w : α) : mput (mput m k v) k w = mput m k w := by
  induction m with
  | nil => simp [mput]
  | cons a m ih =>
    obtain ⟨j, x⟩ := a
    simp only [mput]
    split
    case isTrue => simp [mput]
    case isFalse hj => split <;> simp [mput, *]

theorem merase_mput {α : Type} (m : SMap α) (k : Nat) (v : α) : merase (mput m k v) k = merase m k := by
  induction m with
  | nil => simp [mput, merase]
  | cons a m ih =>
    obtain ⟨j, x⟩ := a
    simp only [merase] at ih ⊢
    simp only [mput]
    split
    case isTrue hj => simp [hj]
    case isFalse hj => split <;> simp [List.filter_cons, ih]

/-- Of two values set at one key only the second stands, where the first stood in the list. -/
theorem mset_mset {α : Type} [DecidableEq α] (m : SMap α) (k : Nat) {v d : α} (h : v ≠ d) (w : α) :
    mset (mset m k v d) k w d = mset m k w d := by
  simp only [mset, if_neg h, mput_mput, merase_mput]

theorem State.setPort_modPort (s : State) {p : Nat} {x : Port} (h : x ≠ portDefault p) (f : Port → Port) :
    (s.setPort p x).modPort p f = s.setPort p (f x) := by
  rw [State.modPort, State.setPort_port_same]
  exact congrArg (fun m => { s with ports := m }) (mset_mset _ _ h _)

/-! ### Frames -/

theorem OnePort.refl (p : Nat) (s : State) : OnePort p s s := ⟨rfl, fun _ _ => rfl⟩

theorem OnePort.trans {p : Nat} {s t u : State} (h : OnePort p s t) (k : OnePort p t u) : OnePort p s u := by
  refine ⟨?_, fun q hq => (k.2 q hq).trans (h.2 q hq)⟩
  rw [k.1, h.1]

/-- From s to t only the registers of a list may change, the matrix with its own, and the notes of the present cycle. -/
def FlagOnly (l : List Nat) (s t : State) : Prop :=
  t = { s with regs := t.regs, hwNow := t.hwNow, rig := t.rig } ∧ SameRegs s t (RIG_STATUS :: RIG_DLYINFO :: l)

/-- From s to t only port p may change, and otherwise what `FlagOnly` names. -/
def PortWork (p : Nat) (l : List Nat) (s t : State) : Prop :=
  OnePort p s t ∧ SameRegs s t (RIG_STATUS :: RIG_DLYINFO :: l)

theorem FlagOnly.refl (l : List Nat) (s : State) : FlagOnly l s s := ⟨rfl, fun _ _ => rfl⟩

theorem FlagOnly.trans {l : List Nat} {s t u : State} (h : FlagOnly l s t) (k : FlagOnly l t u) : FlagOnly l s u := by
  refine ⟨?_, SameRegs.trans h.2 k.2⟩
  rw [k.1, h.1]

theorem PulseOnly.flagOnly {s t : State} (h : PulseOnly s t) (l : List Nat) : FlagOnly l s t :=
  ⟨h.1, SameRegs.mono h.2 (by simp)⟩

theorem OnlyNoted.flagOnly {l : List Nat} {s t : State} (h : OnlyNoted s t l) : FlagOnly l s t := by
  refine ⟨?_, SameRegs.mono h.2 (by simp)⟩
  rw [h.1]

theorem FlagOnly.mono {l l' : List Nat} {s t : State} (h : FlagOnly l s t) (hl : l ⊆ l') : FlagOnly l' s t :=
  ⟨h.1, SameRegs.mono h.2 (List.cons_subset_cons _ (List.cons_subset_cons _ hl))⟩

theorem FlagOnly.ports {l : List Nat} {s t : State} (h : FlagOnly l s t) : t.ports = s.ports := by rw [h.1]
theorem FlagOnly.transit {l : List Nat} {s t : State} (h : FlagOnly l s t) : t.transit = s.transit := by rw [h.1]
theorem FlagOnly.kln {l : List Nat} {s t : State} (h : FlagOnly l s t) : t.kln = s.kln := by rw [h.1]
theorem FlagOnly.port {l : List Nat} {s t : State} (h : FlagOnly l s t) (q : Nat) : t.port q = s.port q := by rw [h.1]; rfl

theorem FlagOnly.f {l : List Nat} {s t : State} (h : FlagOnly l s t) {F : Fld} (hF : F.lo + F.w ≤ 32)
    (ho : F.off ∉ RIG_STATUS :: RIG_DLYINFO :: l) : t.f F = s.f F := SameRegs.f_eq h.2 hF ho

theorem FlagOnly.onePort {l : List Nat} {s t : State} (h : FlagOnly l s t) (p : Nat) : OnePort p s t := by
  refine ⟨?_, fun q _ => h.port q⟩
  rw [h.1]

theorem FlagOnly.portWork {l : List Nat} {s t : State} (h : FlagOnly l s t) (p : Nat) : PortWork p l s t :=
  ⟨h.onePort p, h.2⟩

theorem PortWork.refl (p : Nat) (l : List Nat) (s : State) : PortWork p l s s := ⟨.refl p s, fun _ _ => rfl⟩

theorem PortWork.trans {p : Nat} {l : List Nat} {s t u : State} (h : PortWork p l s t) (k : PortWork p l t u) : PortWork p l s u :=
  ⟨h.1.trans k.1, SameRegs.trans h.2 k.2⟩

theorem PortWork.mono {p : Nat} {l l' : List Nat} {s t : State} (h : PortWork p l s t) (hl : l ⊆ l') : PortWork p l' s t :=
  ⟨h.1, SameRegs.mono h.2 (List.cons_subset_cons _ (List.cons_subset_cons _ hl))⟩

theorem State.setPort_work (s : State) (p : Nat) (l : List Nat) (x : Port) : PortWork p l s (s.setPort p x) :=
  ⟨⟨rfl, fun _ hq => State.setPort_port_ne s x hq⟩, fun _ _ => rfl⟩

theorem State.modPort_work (s : State) (p : Nat) (l : List Nat) (f : Port → Port) : PortWork p l s (s.modPort p f) :=
  State.setPort_work s p l _

theorem PortWork.f {p : Nat} {l : List Nat} {s t : State} (h : PortWork p l s t) {F : Fld} (hF : F.lo + F.w ≤ 32)
    (ho : F.off ∉ RIG_STATUS :: RIG_DLYINFO :: l) : t.f F = s.f F := SameRegs.f_eq h.2 hF ho

theorem OnePort.kln {p : Nat} {s t : State} (h : OnePort p s t) : t.kln = s.kln := by rw [h.1]
theorem OnePort.mem {p : Nat} {s t : State} (h : OnePort p s t) : t.mem = s.mem := by rw [h.1]
theorem OnePort.engines {p : Nat} {s t : State} (h : OnePort p s t) : t.engines = s.engines := by rw [h.1]
theorem OnePort.mc {p : Nat} {s t : State} (h : OnePort p s t) : t.mc = s.mc := by rw [State.mc, h.kln]; rfl

/-- The time at port q is that of the timebase and of the field copy. -/
theorem State.pnow_congr {s t : State} (h : t.kln = s.kln) (q : Nat) : t.pnow q = s.pnow q := by
  rw [State.pnow, State.pnow, State.now, State.now, h]

theorem State.pclose_congr {s t : State} (h : t.kln = s.kln) (q : Nat) : t.pclose q = s.pclose q := by
  rw [State.pclose, State.pclose, State.pnow_congr h]

/-- A change of the ports alone is one of port p, where every other port reads as before. -/
theorem OnePort.congr_left {p : Nat} {s s' t : State} (h : OnePort p s t) (hs : s' = { s with ports := s'.ports })
    (hp : ∀ q, s'.port q = s.port q) : OnePort p s' t := by
  refine ⟨?_, fun q hq => (h.2 q hq).trans (hp q).symm⟩
  rw [h.1, hs]

/-! ### Flags and counts of a port (R200, R206) -/

theorem portFlag_only (p : Nat) (F : Fld) (s : State) (hF : F.lo + F.w ≤ 32) : FlagOnly [F.off] s (portFlag p F s) :=
  (raise_onlyNoted s F hF List.mem_cons_self).flagOnly.trans ((pulse_only _ _).flagOnly _)

/-- From s to t the flag at bit i of PRT_STATUS has been set and the count C has gone up by one. -/
def Counted (p i : Nat) (C : Fld) (s t : State) : Prop :=
  FlagOnly [PRT_STATUS p, C.off] s t ∧ t.f ⟨PRT_STATUS p, i, 1⟩ = 1 ∧ t.f C = min (s.f C + 1) 0xFFFF

theorem portFlag_f_same (p i : Nat) (hi : i < 32) (s : State) :
    (portFlag p ⟨PRT_STATUS p, i, 1⟩ s).f ⟨PRT_STATUS p, i, 1⟩ = 1 := by
  rw [portFlag, portError, pulse_f _ _ (by simpa using hi) (by simp [PRT_STATUS, RIG_STATUS]; omega)
    (by simp [PRT_STATUS, RIG_DLYINFO]; omega), State.raise_f_same _ _ (by simpa using hi) (by simp)]

theorem portFlag_bump_counted (p : Nat) {i a j : Nat} (hi : i < 32) (hj : j ≤ 16) (ha : 0x80000 ≤ a) (hne : a ≠ PRT_STATUS p)
    (s : State) : Counted p i ⟨a, j, 16⟩ s (portFlag p ⟨PRT_STATUS p, i, 1⟩ (s.bump ⟨a, j, 16⟩)) := by
  have hC : j + 16 ≤ 32 := by omega
  have hflag := portFlag_only p ⟨PRT_STATUS p, i, 1⟩ (s.bump ⟨a, j, 16⟩) (by simpa using hi)
  refine ⟨(bump_onlyNoted s _ hC (by simp)).flagOnly.trans (hflag.mono (by simp)), portFlag_f_same p i hi _, ?_⟩
  rw [hflag.f hC (by simp [RIG_STATUS, RIG_DLYINFO, hne]; omega), State.bump_f_same _ _ hC]
  rfl

theorem qDrop_counted (p : Nat) (s : State) : Counted p 17 (PRT_ERRCNT1_QDROP p) s (qDrop p s) :=
  portFlag_bump_counted p (by decide) (by decide) (by simp [PRT_ERRCNT1]; omega) (by simp [PRT_ERRCNT1, PRT_STATUS]) s

theorem countLate_counted (p : Nat) (s : State) : Counted p 16 (PRT_ERRCNT1_LATE p) s (countLate p s) :=
  portFlag_bump_counted p (by decide) (by decide) (by simp [PRT_ERRCNT1]; omega) (by simp [PRT_ERRCNT1, PRT_STATUS]) s

theorem badCode_counted (p : Nat) (s : State) : Counted p 18 (PRT_ERRCNT2_BAD p) s (badCode p s) :=
  portFlag_bump_counted p (by decide) (by decide) (by simp [PRT_ERRCNT2]; omega) (by simp [PRT_ERRCNT2, PRT_STATUS]) s

theorem retMiss_counted (p : Nat) (s : State) : Counted p 19 (PRT_ERRCNT2_RETMISS p) s (retMiss p s) :=
  portFlag_bump_counted p (by decide) (by decide) (by simp [PRT_ERRCNT2]; omega) (by simp [PRT_ERRCNT2, PRT_STATUS]) s

theorem capDrop_counted (p : Nat) (s : State) : Counted p 22 (PRT_ERRCNT3_CAPDROP p) s (capDrop p s) :=
  portFlag_bump_counted p (by decide) (by decide) (by simp [PRT_ERRCNT3]; omega) (by simp [PRT_ERRCNT3, PRT_STATUS]) s

/-- An edge too close to the last one is missed (R184). -/
def capMiss (p : Nat) (s : State) : State := portFlag p (PRT_STATUS_CAPMISS p) (s.bump (PRT_ERRCNT3_CAPMISS p))

theorem capMiss_counted (p : Nat) (s : State) : Counted p 23 (PRT_ERRCNT3_CAPMISS p) s (capMiss p s) :=
  portFlag_bump_counted p (by decide) (by decide) (by simp [PRT_ERRCNT3]; omega) (by simp [PRT_ERRCNT3, PRT_STATUS]) s

/-! ### Capture records (R183, R184) -/

/-- The registers that a capture record changes. -/
abbrev capRegs (p : Nat) : List Nat := [PRT_SEQ p, PRT_STATUS p, PRT_ERRCNT3 p]

/-- The capture record that port p forms in the present cycle (R183). -/
def State.capRec (s : State) (lane p ty : Nat) (t : Time) (edge : Bool) (aux : Nat) : CapRec :=
  { time := t, idx := p, edge := edge, ty := ty, seq := s.f (PRT_SEQ_SEQ p), aux := aux % 2 ^ 32, lane := lane, org := .port p }

section
variable {lane p ty : Nat} {t : Time} {edge : Bool} {aux : Nat} {s : State}

theorem captureOn_stopped (h : s.prunning p = false) : captureOn lane p ty t edge aux s = s := if_pos (by simp [h])

/-- A record for which there is a place joins the port's records. -/
theorem captureOn_placed (h : s.prunning p = true) (hr : (s.port p).recs.length < 8) : captureOn lane p ty t edge aux s =
    (s.setF (PRT_SEQ_SEQ p) (s.f (PRT_SEQ_SEQ p) + 1)).modPort p fun x =>
      { x with recs := x.recs ++ [s.capRec lane p ty t edge aux] } := by
  rw [captureOn, if_neg (by simp [h])]
  exact if_pos (by rwa [State.setF_port])

/-- A record that finds the 8 places full is dropped (R184). -/
theorem captureOn_full (h : s.prunning p = true) (hr : 8 ≤ (s.port p).recs.length) : captureOn lane p ty t edge aux s =
    capDrop p (s.setF (PRT_SEQ_SEQ p) (s.f (PRT_SEQ_SEQ p) + 1)) := by
  rw [captureOn, if_neg (by simp [h])]
  exact if_neg (by rw [State.setF_port]; omega)

theorem setSeq_flagOnly (p n : Nat) (s : State) : FlagOnly (capRegs p) s (s.setF (PRT_SEQ_SEQ p) n) :=
  (setF_onlyRegs s (PRT_SEQ_SEQ p) n (by simp [PRT_SEQ_SEQ]) (by simp [PRT_SEQ_SEQ])).noted.flagOnly

/-- A capture record changes the port's records, and no other part of it. -/
theorem captureOn_work : PortWork p (capRegs p) s (captureOn lane p ty t edge aux s) ∧
    ∃ l, (captureOn lane p ty t edge aux s).port p = { s.port p with recs := l } := by
  have hseq := setSeq_flagOnly p (s.f (PRT_SEQ_SEQ p) + 1) s
  cases hrun : s.prunning p
  · rw [captureOn_stopped hrun]
    exact ⟨.refl _ _ _, _, rfl⟩
  · by_cases hr : (s.port p).recs.length < 8
    · rw [captureOn_placed hrun hr]
      exact ⟨(hseq.portWork p).trans (State.modPort_work _ _ _ _), _, by rw [State.modPort_port_same, State.setF_port]⟩
    · have hdrop := capDrop_counted p (s.setF (PRT_SEQ_SEQ p) (s.f (PRT_SEQ_SEQ p) + 1))
      rw [captureOn_full hrun (by omega)]
      refine ⟨(hseq.trans (hdrop.1.mono (by simp [PRT_ERRCNT3_CAPDROP]))).portWork p, (s.port p).recs, ?_⟩
      rw [hdrop.1.port, State.setF_port]

/-- What becomes of a record that is formed: it takes a place, or is dropped (R184). -/
theorem captureOn_recs (h : s.prunning p = true) :
    ((s.port p).recs.length < 8 →
      ((captureOn lane p ty t edge aux s).port p).recs = (s.port p).recs ++ [s.capRec lane p ty t edge aux]) ∧
    (8 ≤ (s.port p).recs.length → ((captureOn lane p ty t edge aux s).port p).recs = (s.port p).recs ∧
      (captureOn lane p ty t edge aux s).f (PRT_STATUS_CAPDROP p) = 1) := by
  constructor <;> intro hr
  · rw [captureOn_placed h hr, State.modPort_port_same, State.setF_port]
  · obtain ⟨hwork, hflag, -⟩ := capDrop_counted p (s.setF (PRT_SEQ_SEQ p) (s.f (PRT_SEQ_SEQ p) + 1))
    rw [captureOn_full h hr]
    exact ⟨by rw [hwork.port, State.setF_port], hflag⟩

end

end Sys2Proof.Machine
end

section
/-! The output of a port, from an action to the edge, and its readback at the input (R176 to R178, R182, R186, R188, R196). -/

namespace Sys2Proof.Machine

open Sys2Proof Reg

/-! ### The logical input changes (R183, R186) -/

/-- In cycle m a port becomes y from x, of which only the raw edge and the counter's snapshot may differ; a snapshot that has been
taken stays. -/
def RawOnly (m : Nat) (x y : Port) : Prop :=
  y = { x with raw := y.raw, snap := y.snap, snapMc := y.snapMc, chgs := y.chgs, ctr := y.ctr } ∧
  (x.snapMc = some m → y.snapMc = some m ∧ y.ctr = x.ctr)

theorem RawOnly.refl (m : Nat) (x : Port) : RawOnly m x x := ⟨rfl, fun h => ⟨h, rfl⟩⟩

theorem Port.snapFor_of_taken {x : Port} {m : Nat} (h : x.snapMc = some m) : x.snapFor m = x := if_pos h

theorem Port.snapFor_of_new {x : Port} {m : Nat} (h : x.snapMc ≠ some m) : x.snapFor m =
    { x with snapMc := some m, snap := { x.ctr with imm := false }, chgs := [], ctr := { x.ctr with imm := false } } := if_neg h

theorem Port.snapFor_rawOnly (x : Port) (m : Nat) : RawOnly m x (x.snapFor m) ∧ (x.snapFor m).snapMc = some m ∧
    (x.snapFor m).raw = x.raw := by
  by_cases h : x.snapMc = some m
  · rw [Port.snapFor_of_taken h]; exact ⟨.refl m x, h, rfl⟩
  · rw [Port.snapFor_of_new h]; exact ⟨⟨rfl, fun h' => absurd h' h⟩, rfl, rfl⟩

theorem RawOnly.level {m : Nat} {x y : Port} (h : RawOnly m x y) : y.level = x.level := by rw [h.1]

section
variable {p : Nat} {l : Bool} {t : Time} {s : State}

/-- A change back to the filtered level discards the edge. -/
theorem rawChange_back (h : l = (s.port p).level) :
    rawChange p l t s = s.setPort p { (s.port p).snapFor s.mc with raw := none } :=
  if_pos (h.trans ((Port.snapFor_rawOnly _ _).1.level).symm)

/-- An edge that the filter holds already is no other one. -/
theorem rawChange_held (h : l ≠ (s.port p).level) (hr : (s.port p).raw ≠ none) : rawChange p l t s = s := by
  obtain ⟨honly, -, hraw⟩ := Port.snapFor_rawOnly (s.port p) s.mc
  rw [rawChange, if_neg (by rwa [honly.level]), if_pos (by rw [hraw, Option.isSome_iff_ne_none]; exact hr)]

/-- The filter starts. -/
theorem rawChange_starts (h : l ≠ (s.port p).level) (hr : (s.port p).raw = none) :
    rawChange p l t s = s.setPort p { (s.port p).snapFor s.mc with
      raw := some ⟨l, t, ((s.port p).snapFor s.mc).ctr.cnt, s.mc, s.prunning p⟩ } := by
  obtain ⟨honly, -, hraw⟩ := Port.snapFor_rawOnly (s.port p) s.mc
  rw [rawChange, if_neg (by rwa [honly.level]), if_neg (by simp [hraw, hr])]

/-- A snapshot with another raw edge. -/
theorem Port.snapFor_raw_rawOnly (x : Port) (m : Nat) (r : Option RawEdge) : RawOnly m x { x.snapFor m with raw := r } := by
  obtain ⟨⟨heq, htaken⟩, -, -⟩ := Port.snapFor_rawOnly x m
  exact ⟨by rw [heq], htaken⟩

theorem rawChange_work (l' : List Nat) : PortWork p l' s (rawChange p l t s) ∧ RawOnly s.mc (s.port p) ((rawChange p l t s).port p) := by
  by_cases h : l = (s.port p).level
  · rw [rawChange_back h, State.setPort_port_same]
    exact ⟨State.setPort_work _ _ _ _, Port.snapFor_raw_rawOnly _ _ _⟩
  · by_cases hr : (s.port p).raw = none
    · rw [rawChange_starts h hr, State.setPort_port_same]
      exact ⟨State.setPort_work _ _ _ _, Port.snapFor_raw_rawOnly _ _ _⟩
    · rw [rawChange_held h hr]
      exact ⟨.refl _ _ _, .refl _ _⟩

theorem rawChange_regs : (rawChange p l t s).regs = s.regs := by
  by_cases h : l = (s.port p).level
  · rw [rawChange_back h, State.setPort_regs]
  · by_cases hr : (s.port p).raw = none
    · rw [rawChange_starts h hr, State.setPort_regs]
    · rw [rawChange_held h hr]

end

/-! ### The output path -/

/-- In cycle m the output path has made y of the port x: its output, what waits for it, and its readback; a snapshot of the counter
that has been taken stays. -/
def OutputOnly (m : Nat) (x y : Port) : Prop :=
  y = { x with out := y.out, drv := y.drv, pulseEnd := y.pulseEnd, held := y.held, acc := y.acc, later := y.later, edge := y.edge
               raw := y.raw, snap := y.snap, snapMc := y.snapMc, chgs := y.chgs, ctr := y.ctr } ∧
  (x.snapMc = some m → y.snapMc = some m ∧ y.ctr = x.ctr)

theorem OutputOnly.refl (m : Nat) (x : Port) : OutputOnly m x x := ⟨rfl, fun h => ⟨h, rfl⟩⟩

theorem OutputOnly.trans {m : Nat} {x y z : Port} (h : OutputOnly m x y) (k : OutputOnly m y z) : OutputOnly m x z := by
  refine ⟨?_, fun hx => ?_⟩
  · rw [k.1, h.1]
  · obtain ⟨hy, hxy⟩ := h.2 hx
    obtain ⟨hz, hyz⟩ := k.2 hy
    exact ⟨hz, hyz.trans hxy⟩

theorem RawOnly.outputOnly {m : Nat} {x y : Port} (h : RawOnly m x y) : OutputOnly m x y := by
  refine ⟨?_, h.2⟩
  rw [h.1]

/-- The output path of port p has worked: the port may have changed as `OutputOnly` says, PRT_STATUS by the flag of R177, and the
matrix with its registers. -/
def OutputWork (p : Nat) (s t : State) : Prop :=
  PortWork p [PRT_STATUS p] s t ∧ OutputOnly s.mc (s.port p) (t.port p)

theorem OutputWork.refl (p : Nat) (s : State) : OutputWork p s s := ⟨.refl _ _ _, .refl _ _⟩

theorem OutputWork.trans {p : Nat} {s t u : State} (h : OutputWork p s t) (k : OutputWork p t u) : OutputWork p s u :=
  ⟨h.1.trans k.1, h.2.trans (h.1.1.mc ▸ k.2)⟩

theorem State.modPort_outputWork {p : Nat} {s : State} {f : Port → Port} (h : OutputOnly s.mc (s.port p) (f (s.port p))) :
    OutputWork p s (s.modPort p f) :=
  ⟨State.modPort_work _ _ _ _, by rwa [State.modPort_port_same]⟩

theorem portFlag_spacing_outputWork (p : Nat) (s : State) : OutputWork p s (portFlag p (PRT_STATUS_SPACING p) s) := by
  have h := portFlag_only p (PRT_STATUS_SPACING p) s (by simp [PRT_STATUS_SPACING])
  refine ⟨h.portWork p, ?_⟩
  rw [h.port]; exact .refl _ _

/-- The port as the output takes its new state. -/
def State.edged (s : State) (p : Nat) (t : Time) (out drv : Bool) : Port :=
  { s.port p with out := out, drv := drv, edge := if s.makesEdge p out drv = true then some t else (s.port p).edge }

/-- An edge sets the output, and its readback may change the input. -/
theorem outEdge_eq (p : Nat) (t : Time) (out drv : Bool) (s : State) : ∃ l, outEdge p t out drv s = s.setPort p (s.edged p t out drv) ∨
    outEdge p t out drv s = rawChange p l t (s.setPort p (s.edged p t out drv)) := by
  unfold outEdge
  dsimp only
  split
  · exact ⟨_, .inr rfl⟩
  · exact ⟨true, .inl rfl⟩

theorem outEdge_work (p : Nat) (t : Time) (out drv : Bool) (s : State) : PortWork p [] s (outEdge p t out drv s) ∧
    RawOnly s.mc (s.edged p t out drv) ((outEdge p t out drv s).port p) := by
  have hset : PortWork p [] s (s.setPort p (s.edged p t out drv)) := State.setPort_work _ _ _ _
  obtain ⟨l, h | h⟩ := outEdge_eq p t out drv s
  · rw [h, State.setPort_port_same]
    exact ⟨hset, .refl _ _⟩
  · obtain ⟨hwork, hraw⟩ := rawChange_work (p := p) (l := l) (t := t) (s := s.setPort p (s.edged p t out drv)) []
    rw [State.setPort_port_same] at hraw
    rw [h]
    exact ⟨hset.trans hwork, hraw⟩

theorem outEdge_outputWork (p : Nat) (t : Time) (out drv : Bool) (s : State) : OutputWork p s (outEdge p t out drv s) := by
  obtain ⟨hwork, hraw⟩ := outEdge_work p t out drv s
  exact ⟨hwork.mono (by simp), OutputOnly.trans ⟨rfl, fun h => ⟨h, rfl⟩⟩ hraw.outputOnly⟩

/-! ### An output change (R177) -/

/-- The change is held where it makes an edge too close to the last one. -/
theorem outChange_held {p : Nat} {t r : Time} {out drv : Bool} {s : State} (hr : (s.port p).edge = some r)
    (he : s.makesEdge p out drv = true) (hclose : (t - r).toNat < spacing p) : outChange p t out drv s =
      portFlag p (PRT_STATUS_SPACING p) (s.modPort p fun x => { x with held := some (r + fc (spacing p), out, drv) }) := by
  simp only [outChange, hr]
  exact if_pos (by rw [he, decide_eq_true hclose]; rfl)

/-- Else the output takes its new state. -/
theorem outChange_made {p : Nat} {t : Time} {out drv : Bool} {s : State}
    (h : ∀ r, (s.port p).edge = some r → s.makesEdge p out drv = true → spacing p ≤ (t - r).toNat) :
    outChange p t out drv s = outEdge p t out drv s := by
  unfold outChange
  split
  case h_1 r hr =>
    refine if_neg fun hc => ?_
    rw [Bool.and_eq_true, decide_eq_true_iff] at hc
    exact absurd hc.2 (by have := h r hr hc.1; omega)
  case h_2 => rfl

/-- An output change is held, or it is made (R177). -/
theorem outChange_cases (p : Nat) (t : Time) (out drv : Bool) (s : State) :
    (∃ r, (s.port p).edge = some r ∧ s.makesEdge p out drv = true ∧ (t - r).toNat < spacing p) ∨
    (∀ r, (s.port p).edge = some r → s.makesEdge p out drv = true → spacing p ≤ (t - r).toNat) := by
  by_cases h : ∃ r, (s.port p).edge = some r ∧ s.makesEdge p out drv = true ∧ (t - r).toNat < spacing p
  · exact .inl h
  · exact .inr fun r hr he => Nat.le_of_not_lt fun hc => h ⟨r, hr, he, hc⟩

theorem outChange_outputWork (p : Nat) (t : Time) (out drv : Bool) (s : State) : OutputWork p s (outChange p t out drv s) := by
  obtain ⟨r, hr, he, hc⟩ | h := outChange_cases p t out drv s
  · rw [outChange_held hr he hc]
    exact (State.modPort_outputWork ⟨rfl, fun h => ⟨h, rfl⟩⟩).trans (portFlag_spacing_outputWork _ _)
  · rw [outChange_made h]
    exact outEdge_outputWork _ _ _ _ _

theorem outChange_becomes (p : Nat) (t : Time) (o d : Bool) (u : State) : OutputBecomes p t o d u (outChange p t o d u) := by
  refine ⟨(outChange_outputWork p t o d u).1.1, ?_⟩
  rintro x rfl
  refine ⟨fun r hr he hc => ?_, fun h => ?_⟩
  · rw [outChange_held hr he hc]
    refine ⟨?_, portFlag_f_same p 20 (by decide) _⟩
    rw [(portFlag_only p (PRT_STATUS_SPACING p) _ (by simp [PRT_STATUS_SPACING])).port, State.modPort_port_same]
  · rw [outChange_made h]
    exact (outEdge_work p t o d u).2.1

/-- What a change of the output says of a state, it says of one that reads the same. -/
theorem OutputBecomes.congr_left {p : Nat} {t : Time} {o d : Bool} {u u' v : State} (h : OutputBecomes p t o d u v)
    (hu : u' = { u with ports := u'.ports }) (hp : ∀ q, u'.port q = u.port q) : OutputBecomes p t o d u' v := by
  have hedge : u'.makesEdge p o d = u.makesEdge p o d := by
    unfold State.makesEdge
    rw [hp, hu]; rfl
  refine ⟨h.1.congr_left hu hp, fun x hx => ?_⟩
  rw [hedge]
  exact h.2 x (hx.trans (hp p))

/-! ### The actions of one time (R176, R178) -/

theorem outApply_held {p : Nat} {t h : Time} {out drv a b : Bool} {s : State} (hh : (s.port p).held = some (h, a, b)) :
    outApply p t out drv s = s.modPort p fun x => { x with held := some (h, out, drv) } := by simp only [outApply, hh]

theorem outApply_free {p : Nat} {t : Time} {out drv : Bool} {s : State} (hh : (s.port p).held = none) :
    outApply p t out drv s = outChange p t out drv s := by simp only [outApply, hh]

theorem outApply_outputWork (p : Nat) (t : Time) (out drv : Bool) (s : State) : OutputWork p s (outApply p t out drv s) := by
  rcases hh : (s.port p).held with _ | ⟨h, a, b⟩
  · rw [outApply_free hh]; exact outChange_outputWork _ _ _ _ _
  · rw [outApply_held hh]; exact State.modPort_outputWork ⟨rfl, fun h => ⟨h, rfl⟩⟩

theorem outGroup_outputWork (p : Nat) (t : Time) (out drv : Bool) (s : State) : OutputWork p s (outGroup p t out drv s) := by
  unfold outGroup
  split
  · exact State.modPort_outputWork ⟨rfl, fun h => ⟨h, rfl⟩⟩
  · exact (State.modPort_outputWork ⟨rfl, fun h => ⟨h, rfl⟩⟩).trans (outApply_outputWork _ _ _ _ _)

/-- The state w is u with the pulse end of port p at pe. The last field tells what the map of ports keeps of it: where the port is listed,
a further change of it leaves one entry. -/
structure PulseEndSet (p : Nat) (pe : Option Time) (u w : State) : Prop where
  frame : w = { u with ports := w.ports }
  port_ne : ∀ q, q ≠ p → w.port q = u.port q
  port : w.port p = { u.port p with pulseEnd := pe }
  modPort : w.port p ≠ portDefault p → ∀ f, w.modPort p f = u.setPort p (f { u.port p with pulseEnd := pe })

theorem State.setPort_pulseEndSet (u : State) (p : Nat) (pe : Option Time) :
    PulseEndSet p pe u (u.setPort p { u.port p with pulseEnd := pe }) where
  frame := rfl
  port_ne _ hq := State.setPort_port_ne _ _ hq
  port := State.setPort_port_same _ _ _
  modPort h := State.setPort_modPort _ (by rwa [State.setPort_port_same] at h)

theorem PulseEndSet.self {p : Nat} {pe : Option Time} {u : State} (h : (u.port p).pulseEnd = pe) : PulseEndSet p pe u u where
  frame := rfl
  port_ne _ _ := rfl
  port := by rw [← h]
  modPort _ _ := by rw [← h]; rfl

/-- Whether more actions of a time are to come does not depend on the pulse end. -/
theorem PulseEndSet.moreOut {p : Nat} {pe : Option Time} {u w : State} (h : PulseEndSet p pe u w) (t : Time) :
    w.moreOut p t = u.moreOut p t := by
  unfold State.moreOut
  rw [h.port, h.frame]; rfl

/-- A port that has nothing of a time to come, nothing held and nothing else to tell is not as nothing has driven it. -/
theorem ne_portDefault_of_waits {p : Nat} {x : Port} (h : x.queue ≠ [] ∨ x.later ≠ [] ∨ x.held ≠ none) : x ≠ portDefault p := by
  rintro rfl
  simp [portDefault] at h

theorem State.moreOut_waits {s : State} {p : Nat} {t : Time} (h : s.moreOut p t = true) :
    (s.port p).queue ≠ [] ∨ (s.port p).later ≠ [] := by
  by_contra hc
  obtain ⟨hq, hl⟩ := not_or.1 hc
  simp [State.moreOut, not_not.1 hq, not_not.1 hl] at h

/-- An output action gives the output its level and its driver state, and the port the pulse end of the action (R176 to R178). -/
theorem outGroup_takes {p : Nat} {pe : Option Time} {u w : State} (hw : PulseEndSet p pe u w) (t : Time) (o d : Bool) :
    TakesOutput p t o d pe u (outGroup p t o d w) := by
  have hlisted : (u.port p).queue ≠ [] ∨ (u.port p).later ≠ [] ∨ (u.port p).held ≠ none → w.port p ≠ portDefault p := by
    rw [hw.port]; exact fun h => ne_portDefault_of_waits (x := { u.port p with pulseEnd := pe }) h
  rintro x rfl
  unfold outGroup
  rw [hw.moreOut]
  refine ⟨fun hm => ?_, fun hm => ⟨fun h a b hh => ?_, fun hh => ?_⟩⟩
  · rw [if_pos hm, hw.modPort (hlisted ((State.moreOut_waits hm).imp_right .inl))]
    rfl
  · have hheld : (u.port p).held ≠ none := by simp [hh]
    have hne : { u.port p with pulseEnd := pe, acc := none } ≠ portDefault p := ne_portDefault_of_waits (.inr (.inr hheld))
    rw [if_neg (by simp [hm]), hw.modPort (hlisted (.inr (.inr hheld))),
      outApply_held (by rw [State.setPort_port_same]; exact hh), State.setPort_modPort _ hne]
    rfl
  · rw [if_neg (by simp [hm]), outApply_free (by rw [State.modPort_port_same, hw.port]; exact hh)]
    refine (outChange_becomes _ _ _ _ _).congr_left ?_ fun q => ?_
    · rw [hw.frame]; rfl
    · by_cases hq : q = p
      · rw [hq, State.modPort_port_same, State.modPort_port_same, hw.port]
      · rw [State.modPort_port_ne _ _ hq, State.modPort_port_ne _ _ hq, hw.port_ne q hq]

theorem outAction_outputWork (p code : Nat) (t : Time) (width : Nat) (s : State) : OutputWork p s (outAction p code t width s) := by
  unfold outAction
  exact (State.modPort_outputWork (f := fun x => { x with pulseEnd := if code = 0x04 then some (t + fc width) else none })
    ⟨rfl, fun h => ⟨h, rfl⟩⟩).trans (outGroup_outputWork _ _ _ _ _)

theorem outAction_takes (p code : Nat) (t : Time) (width : Nat) (u : State) :
    TakesOutput p t (outEffect code (u.port p).net.1 (u.port p).net.2).1 (outEffect code (u.port p).net.1 (u.port p).net.2).2
      (if code = 0x04 then some (t + fc width) else none) u (outAction p code t width u) :=
  outGroup_takes (State.setPort_pulseEndSet _ _ _) _ _ _

/-! ### What waits for a boundary, and for the rest of a time (R176, R188, R196) -/

theorem toRest_outputWork (p : Nat) (t : Time) (s : State) : OutputWork p s (toRest p t s) :=
  (State.modPort_outputWork ⟨rfl, fun h => ⟨h, rfl⟩⟩).trans (outEdge_outputWork _ _ _ _ _)

theorem lateOut_outputWork (p : Nat) (t : Time) (o : LateOut) (s : State) : OutputWork p s (lateOut p t o s) := by
  cases o with
  | code c w => exact outAction_outputWork p c t w s
  | rest => exact toRest_outputWork p t s

theorem settleN_outputWork (p n : Nat) (s : State) : OutputWork p s (settleN p n s) := by
  induction n generalizing s with
  | zero => exact .refl p s
  | succ n ih =>
    unfold settleN
    split
    case h_1 => exact .refl p s
    case h_2 t o l hl =>
      split
      · exact .refl p s
      · exact ((State.modPort_outputWork ⟨rfl, fun h => ⟨h, rfl⟩⟩).trans (lateOut_outputWork _ _ _ _)).trans (ih _)

theorem outSettle_outputWork (p : Nat) (s : State) : OutputWork p s (outSettle p s) := by
  have hlater := settleN_outputWork p (s.port p).later.length s
  unfold outSettle
  dsimp only
  split
  case h_1 t o d hacc =>
    split
    · exact hlater
    · exact (hlater.trans (State.modPort_outputWork ⟨rfl, fun h => ⟨h, rfl⟩⟩)).trans (outApply_outputWork _ _ _ _ _)
  case h_2 => exact hlater

/-- Where nothing waits, nothing takes effect. -/
theorem outSettle_idle {p : Nat} {s : State} (hl : (s.port p).later = []) (ha : (s.port p).acc = none) : outSettle p s = s := by
  simp only [outSettle, hl, List.length_nil, settleN, ha]

theorem outLater_outputWork (p : Nat) (t : Time) (o : LateOut) (s : State) : OutputWork p s (outLater p t o s) := by
  have hlater : OutputWork p s (s.modPort p fun x => { x with later := x.later ++ [(t, o)] }) :=
    State.modPort_outputWork ⟨rfl, fun h => ⟨h, rfl⟩⟩
  unfold outLater
  dsimp only
  split
  · exact hlater
  · exact hlater.trans (outSettle_outputWork _ _)

end Sys2Proof.Machine
end

section
/-! What the actions of a port do as they execute (R173, R174, R176, R178, R183, R185, R191 to R194). -/

namespace Sys2Proof.Machine

open Sys2Proof Reg

/-! ### Changes of the counter (R192 to R194) -/

/-- The first change of a cycle makes of the counter what it says; the prescaler's start and the immediate match aside. -/
theorem ctrApply_takes (p r : Nat) (ch : CtrChg) {f : Counter → Counter} (u : State)
    (hf : ∀ k presc c, { ctrChange k presc c ch with base := 0, presc := 0, imm := false } =
      f { c with base := 0, presc := 0, imm := false }) : CounterTakes p f u (ctrApply p r ch u) := by
  refine ⟨(State.modPort_work u p [] _).1, fun hnew => ?_⟩
  rw [ctrApply, State.modPort_port_same, Port.snapFor_of_new hnew]
  exact ⟨hf _ _ _, rfl, rfl, rfl⟩

/-! ### The head entry executes (R173, R176) -/

theorem State.prunning_of_dueHead {s : State} {p : Nat} {e : QEntry} (h : s.dueHead p = some e) : s.prunning p = true := by
  unfold State.dueHead at h
  split at h
  case isTrue hc => exact (Bool.and_eq_true_iff.1 hc).2
  case isFalse => cases h

theorem runAction_other {code p : Nat} {s : State} (h : ∀ e, s.dueHead p = some e → e.act.code ≠ code) : runAction code p s = s := by
  unfold runAction
  split
  case h_1 e he => exact if_neg (h e he)
  case h_2 => rfl

/-- A command that executes a queued action does so by the effect of its code. -/
theorem executes_of_effect {p code : Nat} {i : Instr} {eff : QEntry → State → State → Prop}
    (hexec : ∀ s, exec i s = .next (runAction code p s))
    (heff : ∀ e u, e.act.code = code → u.prunning p = true → eff e u (actEffect p e.act e.at_ u)) : Executes p i code eff := by
  refine fun s => ⟨fun e u hdue hcode hu => ⟨fun hx => ?_, fun hx => ?_⟩, fun h => (hexec s).trans (congrArg _ (runAction_other h))⟩
  · have hrun : u.prunning p = true := by
      have := State.prunning_of_dueHead hdue
      rwa [hu]
    refine ⟨_, _, heff e u hcode hrun, rfl, (hexec s).trans (congrArg _ ?_)⟩
    simp only [runAction, hdue, if_pos hcode, if_pos hx, ← hu]
    rfl
  · refine (hexec s).trans (congrArg _ ?_)
    simp [runAction, hdue, hcode, hx, hu]

/-- An output code acts on the output (R174). -/
theorem actEffect_output {p : Nat} {a : Action} (h : outCode a.code = true) (t : Time) (s : State) :
    actEffect p a t s = outAction p a.code t (a.param % 2 ^ 32) s := by
  have hc : a.code = 1 ∨ a.code = 2 ∨ a.code = 3 ∨ a.code = 4 ∨ a.code = 6 ∨ a.code = 7 := by
    simpa [outCode, or_assoc] using h
  unfold actEffect
  obtain h' | h' | h' | h' | h' | h' := hc <;> rw [h'] <;> rfl

/-- A command of an output code gives the output what the code makes of the net output so far (R174, R178). -/
theorem executes_output {p code : Nat} {i : Instr} {o d : State → Bool} {pe : QEntry → Option Time} (hcode : outCode code = true)
    (hexec : ∀ s, exec i s = .next (runAction code p s))
    (heff : ∀ u, outEffect code (u.port p).net.1 (u.port p).net.2 = (o u, d u))
    (hpe : ∀ e, pe e = if code = 4 then some (e.at_ + fc (e.act.param % 2 ^ 32)) else none) :
    Executes p i code fun e u v => TakesOutput p e.at_ (o u) (d u) (pe e) u v := by
  refine executes_of_effect hexec fun e u hc _ => ?_
  have htakes := outAction_takes p code e.at_ (e.act.param % 2 ^ 32) u
  rw [heff, ← hpe] at htakes
  rw [actEffect_output (by rw [hc]; exact hcode), hc]
  exact htakes

/-- A command of a counter's code makes one change of the counter. -/
theorem executes_counter {p code : Nat} {i : Instr} (ch : QEntry → CtrChg) {f : QEntry → Counter → Counter}
    (hexec : ∀ s, exec i s = .next (runAction code p s))
    (hact : ∀ e u, e.act.code = code → actEffect p e.act e.at_ u = ctrApply p 0 (ch e) u)
    (hf : ∀ e k presc c, { ctrChange k presc c (ch e) with base := 0, presc := 0, imm := false } =
      f e { c with base := 0, presc := 0, imm := false }) : Executes p i code fun e u v => CounterTakes p (f e) u v := by
  refine executes_of_effect hexec fun e u hc _ => ?_
  rw [hact e u hc]
  exact ctrApply_takes _ _ _ _ (hf e)

/-- A command that opens or closes the capture gate does so at the entry's time (R185). -/
theorem executes_gate {p code : Nat} {i : Instr} {o : Bool} (hexec : ∀ s, exec i s = .next (runAction code p s))
    (hact : ∀ (e : QEntry) u, e.act.code = code → actEffect p e.act e.at_ u = u.modPort p fun x => { x with gate := (e.at_, o) :: x.gate }) :
    Executes p i code fun e u v => OnePort p u v ∧ v.port p = { u.port p with gate := (e.at_, o) :: (u.port p).gate } := by
  refine executes_of_effect hexec fun e u hc _ => ?_
  rw [hact e u hc]
  exact ⟨(State.modPort_work u p [] _).1, State.modPort_port_same _ _ _⟩

/-- The count that a CSNAP records, as the first change of its cycle finds it (R183). -/
theorem actEffect_csnap {p : Nat} {a : Action} (h : a.code = 13) {s : State} (hnew : (s.port p).snapMc ≠ some s.mc) (t : Time) :
    actEffect p a t s = capture p 3 a.time false
      (if a.param.testBit 0 = true then (s.port p).ctr.cnt >>> 32 else (s.port p).ctr.cnt) s := by
  simp only [actEffect, h, Port.snapFor_of_new hnew]
  rfl

theorem actEffect_csnap_onePort {p : Nat} {a : Action} (h : a.code = 13) (t : Time) (s : State) :
    OnePort p s (actEffect p a t s) := by
  simp only [actEffect, h]
  exact captureOn_work.1.1

end Sys2Proof.Machine

namespace Sys2Proof

open Machine Reg

/-- Settles O31: each command executes the head entry by the effect of its code, on the output by one rule for all output codes, and
on the counter by the first change of its cycle. -/
theorem actionsExecute : Obligations.ActionsExecute := by
  intro p
  refine ⟨?nop, ?set, ?clr, ?tog, ?pulse, ?hiz, ?drive, ?cload, ?crld, ?ccmp, ?cstart, ?cstop, ?csnap, ?cupper, ?capon, ?capoff⟩
  case nop => exact executes_of_effect (fun _ => rfl) fun e u hc _ => by rw [actEffect, hc]; rfl
  case set => exact executes_output rfl (fun _ => rfl) (fun _ => rfl) fun _ => rfl
  case clr => exact executes_output rfl (fun _ => rfl) (fun _ => rfl) fun _ => rfl
  case tog => exact executes_output rfl (fun _ => rfl) (fun _ => rfl) fun _ => rfl
  case pulse => exact executes_output rfl (fun _ => rfl) (fun _ => rfl) fun _ => rfl
  case hiz => exact executes_output rfl (fun _ => rfl) (fun _ => rfl) fun _ => rfl
  case drive => exact executes_output rfl (fun _ => rfl) (fun _ => rfl) fun _ => rfl
  case cload =>
    exact executes_counter (fun e => .cload e.act.param) (fun _ => rfl) (fun e u hc => by rw [actEffect, hc]; rfl) fun _ _ _ _ => rfl
  case crld =>
    exact executes_counter (fun e => .crld e.act.param) (fun _ => rfl) (fun e u hc => by rw [actEffect, hc]; rfl) fun _ _ _ _ => rfl
  case ccmp =>
    exact executes_counter (fun e => .ccmp e.act.param) (fun _ => rfl) (fun e u hc => by rw [actEffect, hc]; rfl) fun _ _ _ _ => rfl
  case cstart =>
    refine executes_counter (fun _ => .run true) (f := fun _ c => { c with run := true }) (fun _ => rfl)
      (fun e u hc => by rw [actEffect, hc]; rfl) fun _ _ _ c => ?_
    rw [ctrChange]; split <;> rfl
  case cstop =>
    exact executes_counter (fun _ => .run false) (f := fun _ c => { c with run := false }) (fun _ => rfl)
      (fun e u hc => by rw [actEffect, hc]; rfl) fun _ _ _ _ => rfl
  case csnap =>
    refine executes_of_effect (fun _ => rfl) fun e u hc hrun => ⟨actEffect_csnap_onePort hc _ _, fun hnew => ?_⟩
    rw [actEffect_csnap hc hnew, Nat.shiftRight_eq_div_pow]
    exact captureOn_recs hrun
  case cupper =>
    exact executes_counter (fun e => .upper e.act.param) (fun _ => rfl) (fun e u hc => by rw [actEffect, hc]; rfl) fun _ _ _ _ => rfl
  case capon => exact executes_gate (fun _ => rfl) fun e u hc => by rw [actEffect, hc]; rfl
  case capoff => exact executes_gate (fun _ => rfl) fun e u hc => by rw [actEffect, hc]; rfl

end Sys2Proof
end

section
/-! Records that arrive at a port, and what comes due at its output (R174 to R179, R181). -/

namespace Sys2Proof.Machine

open Sys2Proof Reg

/-! ### The record that arrives (R175) -/

theorem State.nextFor_port {s : State} {p : Nat} {tr : Transit} (h : s.nextFor p = some tr) : tr.act.port = p := by
  have := List.find?_some h
  simp only [Bool.and_eq_true, beq_iff_eq] at this
  exact this.1

section
variable {p : Nat} {ok : Nat → Bool} {f : Action → State → State} {s : State} {tr : Transit}

theorem portArrival_none (h : s.nextFor p = none) : portArrival p ok f s = s := by simp only [portArrival, h]

theorem portArrival_off (h : s.nextFor p = some tr) (hok : ok tr.act.code = true) (hoff : s.phys (portDom p) = false) :
    portArrival p ok f s = takeTransit tr s := by
  simp [portArrival, h, hok, hoff]

theorem portArrival_on (h : s.nextFor p = some tr) (hok : ok tr.act.code = true) (hon : s.phys (portDom p) = true) :
    portArrival p ok f s = f tr.act (takeTransit tr s) := by
  simp [portArrival, h, hok, hon]

end

/-- Each of the three commands for records that arrive takes those of its codes (R174, R175, R179). -/
theorem exec_arrival {p : Fin 96} {c : Nat} {i : Instr}
    (h : c = 0x18 ∧ i = Instr.retime p ∨ c = 0x19 ∧ i = .cancel p ∨ c ≠ 0x18 ∧ c ≠ 0x19 ∧ i = .actionArrival p) :
    ∃ ok f, ok c = true ∧ (∀ s, exec i s = .next (portArrival p ok f s)) ∧
      (c = 0x18 → f = retime p) ∧ (c = 0x19 → f = cancel p) ∧ (c ≠ 0x18 → c ≠ 0x19 → f = arrive p) := by
  obtain ⟨rfl, rfl⟩ | ⟨rfl, rfl⟩ | ⟨h1, h2, rfl⟩ := h
  · exact ⟨(· == 0x18), retime p, rfl, fun _ => rfl, by simp⟩
  · exact ⟨(· == 0x19), cancel p, rfl, fun _ => rfl, by simp⟩
  · exact ⟨fun c => c != 0x18 && c != 0x19, arrive p, by simp [h1, h2], fun _ => rfl, by simp [h1, h2]⟩

/-! ### The queue (R175, R176, R181) -/

theorem qInsert_queued (e : QEntry) (l : List QEntry) : Queued e l (qInsert e l) := by
  induction l with
  | nil => exact ⟨[], [], rfl, rfl, by simp, by simp⟩
  | cons x l ih =>
    by_cases h : future x.act.time e.act.time = true
    · exact ⟨[], x :: l, rfl, by rw [qInsert, if_pos h]; rfl, by simp, by simpa using h⟩
    · obtain ⟨a, b, hl, hl', ha, hb⟩ := ih
      refine ⟨x :: a, b, by rw [hl]; rfl, by rw [qInsert, if_neg h, hl']; rfl, fun y hy => ?_, hb⟩
      obtain rfl | hy := List.mem_cons.1 hy
      · exact Bool.eq_false_iff.2 h
      · exact ha y hy

/-- An entry joins the queue of port p. -/
def State.enqueue (s : State) (p : Nat) (e : QEntry) : State := s.modPort p fun x => { x with queue := qInsert e x.queue }

theorem State.lateAt_iff (s : State) (a : Action) : s.lateAt a = true ↔ a.late = true ∨ future a.time (s.pnow a.port) = false := by
  simp [State.lateAt]

/-- A record that is not late, that came from a tracker, or that the policy does not discard, is kept (R181). -/
theorem State.lateKept_iff (s : State) (p : Nat) (a : Action) (late : Bool) : (late && !s.keepLate p a) = false ↔
    late = false ∨ a.trk = true ∨ s.flag (PRT_POLICY_LATE p) = false := by
  cases late <;> cases ht : a.trk <;> simp [State.keepLate, ht]

/-- A late entry of port p is counted (R181). -/
def lateNoted (p : Nat) (late : Bool) (s : State) : State := if late = true then countLate p s else s

theorem lateNoted_flagOnly (p : Nat) (late : Bool) (s : State) : FlagOnly [PRT_STATUS p, PRT_ERRCNT1 p] s (lateNoted p late s) := by
  unfold lateNoted
  split
  · exact (countLate_counted p s).1
  · exact .refl _ _

theorem lateNoted_counted (p : Nat) (s : State) : (lateNoted p true s).f (PRT_STATUS_LATE p) = 1 ∧
    (lateNoted p true s).f (PRT_ERRCNT1_LATE p) = min (s.f (PRT_ERRCNT1_LATE p) + 1) 0xFFFF := by
  rw [lateNoted, if_pos rfl]; exact (countLate_counted p s).2

/-- From s to t the queue of port p may change, and an entry that is late is counted (R181). -/
def QueueWork (p : Nat) (late : Bool) (s t : State) : Prop :=
  OnePort p s t ∧ t.port p = { s.port p with queue := (t.port p).queue } ∧ (late = false → t = { s with ports := t.ports }) ∧
  (late = true → t.f (PRT_STATUS_LATE p) = 1 ∧ t.f (PRT_ERRCNT1_LATE p) = min (s.f (PRT_ERRCNT1_LATE p) + 1) 0xFFFF)

/-- The queue changes, and then a late entry is counted. -/
theorem lateNoted_queueWork (p : Nat) (late : Bool) (g : List QEntry → List QEntry) (s : State) :
    QueueWork p late s (lateNoted p late (s.modPort p fun x => { x with queue := g x.queue })) ∧
    ((lateNoted p late (s.modPort p fun x => { x with queue := g x.queue })).port p).queue = g (s.port p).queue := by
  have honly := lateNoted_flagOnly p late (s.modPort p fun x => { x with queue := g x.queue })
  have hport := (honly.port p).trans (State.modPort_port_same _ _ _)
  refine ⟨⟨(State.modPort_work s p [] _).1.trans (honly.onePort p), by rw [hport], ?_, ?_⟩, by rw [hport]⟩
  · rintro rfl; rfl
  · rintro rfl
    have hcounted := lateNoted_counted p (s.modPort p fun x => { x with queue := g x.queue })
    rwa [State.modPort_f] at hcounted

/-- A further entry joins the queue. -/
theorem QueueWork.enqueue {p : Nat} {late : Bool} {s t : State} (h : QueueWork p late s t) (e : QEntry) :
    QueueWork p late s (t.enqueue p e) ∧ ((t.enqueue p e).port p).queue = qInsert e (t.port p).queue := by
  obtain ⟨hone, hport, hquiet, hcount⟩ := h
  have hport' : (t.enqueue p e).port p = { t.port p with queue := qInsert e (t.port p).queue } := State.modPort_port_same _ _ _
  refine ⟨⟨hone.trans (State.modPort_work t p [] _).1, ?_, fun hl => ?_, hcount⟩, by rw [hport']⟩
  · rw [hport', hport]
  · rw [hquiet hl]; rfl

section
variable {p : Nat} {a : Action} {s : State}

theorem arrive_disabled (hen : s.portEn p = false) : arrive p a s = qDrop p s :=
  if_pos (by simp [hen])

theorem arrive_bad (hen : s.portEn p = true) (hok : recordOk s p a = false) : arrive p a s = badCode p s := by
  rw [arrive, if_neg (by simp [hen]), if_pos (by simp [hok])]

theorem arrive_discarded (hen : s.portEn p = true) (hok : recordOk s p a = true) (hk : (s.lateAt a && !s.keepLate p a) = true) :
    arrive p a s = countLate p s := by
  rw [arrive, if_neg (by simp [hen]), if_neg (by simp [hok])]
  exact if_pos hk

theorem arrive_full (hen : s.portEn p = true) (hok : recordOk s p a = true) (hk : (s.lateAt a && !s.keepLate p a) = false)
    (hq : 32 ≤ (s.port p).queue.length) : arrive p a s = qDrop p s := by
  rw [arrive, if_neg (by simp [hen]), if_neg (by simp [hok])]
  exact (if_neg (by simp [hk])).trans (if_pos hq)

theorem arrive_queued (hen : s.portEn p = true) (hok : recordOk s p a = true) (hk : (s.lateAt a && !s.keepLate p a) = false)
    (hq : (s.port p).queue.length < 32) : arrive p a s = lateNoted p (s.lateAt a) (s.enqueue p (s.entry a)) := by
  rw [arrive, if_neg (by simp [hen]), if_neg (by simp [hok])]
  exact (if_neg (by simp [hk])).trans (if_neg (Nat.not_le.2 hq))

/-! ### RETIME and CANCEL (R179) -/

/-- The entry that a RETIME makes of the one that it finds. -/
def retimed (a : Action) (e : QEntry) : Action := { e.act with time := a.time, trk := a.trk, late := a.late }

theorem retime_disabled (hen : s.portEn p = false) : retime p a s = qDrop p s := by simp [retime, hen]
theorem cancel_disabled (hen : s.portEn p = false) : cancel p a s = qDrop p s := by simp [cancel, hen]

theorem retime_missed (hen : s.portEn p = true) (hfind : (s.port p).queue.find? (s.sees a) = none) :
    retime p a s = retMiss p s := by simp [retime, hen, hfind]

theorem cancel_missed (hen : s.portEn p = true) (hfind : (s.port p).queue.find? (s.sees a) = none) :
    cancel p a s = retMiss p s := by
  have hany : ¬(s.port p).queue.any (s.sees a) = true := by simpa using hfind
  rw [cancel, if_neg (by simp [hen])]
  exact if_neg hany

theorem cancel_found (hen : s.portEn p = true) (hany : (s.port p).queue.any (s.sees a) = true) :
    cancel p a s = outSettle p (s.modPort p fun x => { x with queue := x.queue.filter fun e => !s.sees a e }) := by
  rw [cancel, if_neg (by simp [hen])]
  exact if_pos hany

theorem State.lateAt_congr {s t : State} (h : t.kln = s.kln) (a : Action) : t.lateAt a = s.lateAt a := by
  rw [State.lateAt, State.lateAt, State.pnow_congr h]

theorem State.entry_congr {s t : State} (h : t.kln = s.kln) (a : Action) : t.entry a = s.entry a := by
  rw [State.entry, State.entry, State.lateAt_congr h, State.pnow_congr h, State.pclose_congr h]

theorem State.keepLate_congr {t : State} {l : List Nat} (h : FlagOnly l s t) (hl : PRT_POLICY p ∉ RIG_STATUS :: RIG_DLYINFO :: l) :
    t.keepLate p a = s.keepLate p a := by
  rw [State.keepLate, State.keepLate, State.flag, State.flag, h.f (by simp [PRT_POLICY_LATE]) hl]

/-- The port without the entry e, which is counted where it is late again. -/
def retimeTaken (p : Nat) (a : Action) (e : QEntry) (s : State) : State :=
  lateNoted p (s.lateAt (retimed a e)) (s.modPort p fun x => { x with queue := x.queue.erase e })

/-- A RETIME takes the first entry that it sees out of the queue, and puts it back at its time unless the policy discards it. -/
theorem retime_found {e : QEntry} (hen : s.portEn p = true) (hfind : (s.port p).queue.find? (s.sees a) = some e) :
    retime p a s = if (s.lateAt (retimed a e) && !s.keepLate p (retimed a e)) = true then retimeTaken p a e s
      else (retimeTaken p a e s).enqueue p (s.entry (retimed a e)) := by
  let t := s.modPort p fun x => { x with queue := x.queue.erase e }
  have honly := lateNoted_flagOnly p (s.lateAt (retimed a e)) t
  have hpolicy : PRT_POLICY p ∉ RIG_STATUS :: RIG_DLYINFO :: [PRT_STATUS p, PRT_ERRCNT1 p] := by
    simp [PRT_POLICY, PRT_STATUS, PRT_ERRCNT1, RIG_STATUS, RIG_DLYINFO]; omega
  have hlate : t.lateAt (retimed a e) = s.lateAt (retimed a e) := State.lateAt_congr (State.modPort_kln _ _ _) _
  have hkeep : (retimeTaken p a e s).keepLate p (retimed a e) = s.keepLate p (retimed a e) :=
    (State.keepLate_congr honly hpolicy).trans rfl
  have hentry := State.entry_congr (honly.kln.trans (State.modPort_kln _ _ _)) (retimed a e)
  rw [retime, if_neg (by simp [hen])]
  simp only [hfind]
  change (if (t.lateAt (retimed a e) && !(lateNoted p (t.lateAt (retimed a e)) t).keepLate p (retimed a e)) = true then
    lateNoted p (t.lateAt (retimed a e)) t else (lateNoted p (t.lateAt (retimed a e)) t).enqueue p
      ((lateNoted p (t.lateAt (retimed a e)) t).entry (retimed a e))) = _
  rw [hlate, ← hkeep, ← hentry]
  rfl

/-- A RETIME leaves the entry at its new place, or it leaves it out (R179, R181). -/
theorem retime_queueWork {e : QEntry} (hen : s.portEn p = true) (hfind : (s.port p).queue.find? (s.sees a) = some e) :
    QueueWork p (s.lateAt (retimed a e)) s (retime p a s) ∧
    ((s.lateAt (retimed a e) && !s.keepLate p (retimed a e)) = false →
      ((retime p a s).port p).queue = qInsert (s.entry (retimed a e)) ((s.port p).queue.erase e)) ∧
    ((s.lateAt (retimed a e) && !s.keepLate p (retimed a e)) = true → ((retime p a s).port p).queue = (s.port p).queue.erase e) := by
  obtain ⟨htaken, hqueue⟩ : QueueWork p (s.lateAt (retimed a e)) s (retimeTaken p a e s) ∧
      ((retimeTaken p a e s).port p).queue = (s.port p).queue.erase e := lateNoted_queueWork p _ (fun l => l.erase e) s
  rw [retime_found hen hfind]
  cases s.lateAt (retimed a e) && !s.keepLate p (retimed a e)
  · obtain ⟨hwork, hput⟩ := htaken.enqueue (s.entry (retimed a e))
    rw [if_neg Bool.false_ne_true]
    exact ⟨hwork, fun _ => hput.trans (by rw [hqueue]), fun h => absurd h Bool.false_ne_true⟩
  · rw [if_pos rfl]
    exact ⟨htaken, fun h => absurd h.symm Bool.false_ne_true, fun _ => hqueue⟩

end

/-! ### What comes due at the output (R177, R178) -/

theorem pulseEnd_due {p : Nat} {s : State} {t : Time} (h : (s.port p).pulseEnd = some t) (hen : s.portEn p = true)
    (hrun : s.prunning p = true) (hdue : s.pdue p t = true) : pulseEnd p s =
      outGroup p t false (s.port p).net.2 (s.modPort p fun x => { x with pulseEnd := none }) := by
  simp only [pulseEnd, h, hen, hrun, hdue, State.modPort_port_same]
  rfl

theorem heldEdge_due {p : Nat} {s : State} {t : Time} {o d : Bool} (h : (s.port p).held = some (t, o, d)) (hdue : s.pdue p t = true) :
    heldEdge p s = outChange p t o d (s.modPort p fun x => { x with held := none }) := by
  simp only [heldEdge, h, if_pos hdue]

end Sys2Proof.Machine

namespace Sys2Proof

open Machine Reg

/-- Settles O32: a record that arrives meets the tests of R175 in their order, and RETIME and CANCEL act on the entries that they see. -/
theorem recordsArriveAtPorts : Obligations.RecordsArriveAtPorts := by
  refine ⟨?arrives, ?retimes, ?cancels, ?pulseEnds, ?heldEdges, ?unpowered, ?idle, ?refused⟩
  case arrives =>
    intro p s u tr late keep hnext hc1 hc2 hon hu hen hok hlate hkeep
    have hexec : exec (.actionArrival p) s = .next (arrive p tr.act u) := by
      rw [hu]; exact congrArg Host.Outcome.next (portArrival_on hnext (by simp [hc1, hc2]) hon)
    have hat : late = u.lateAt tr.act := by
      rw [Bool.eq_iff_iff, hlate, State.lateAt_iff, State.nextFor_port hnext, hu]; rfl
    have hk : keep ↔ (u.lateAt tr.act && !u.keepLate p tr.act) = false := by
      rw [State.lateKept_iff, ← hat, hkeep, hu]; rfl
    have hentry : u.entry tr.act =
        ⟨tr.act, late, if future tr.act.time (s.pnow p) = true then tr.act.time else s.pclose p⟩ := by
      rw [State.entry, ← hat, State.nextFor_port hnext, hu]; rfl
    have henu : u.portEn p = true := by rw [hu]; exact hen
    have hoku : recordOk u p tr.act = true := by rw [hu]; exact hok
    have hports : u.ports = s.ports := by rw [hu]; rfl
    have hport : u.port p = s.port p := by rw [hu]; rfl
    have hf : ∀ F, u.f F = s.f F := fun F => by rw [hu]; rfl
    refine ⟨fun h => ?_, fun h hfull => ?_, fun h hroom => ?_⟩
    · obtain ⟨honly, hflag, hcount⟩ := countLate_counted p u
      refine ⟨_, hexec, ?_⟩
      rw [arrive_discarded henu hoku (by simpa using fun hc => h (hk.2 hc)), honly.ports, honly.transit, ← hf]
      exact ⟨hports, hflag, hcount, rfl⟩
    · obtain ⟨honly, hflag, hcount⟩ := qDrop_counted p u
      refine ⟨_, hexec, ?_⟩
      rw [arrive_full henu hoku (hk.1 h) (by rwa [hport]), honly.ports, honly.transit, ← hf]
      exact ⟨hports, hflag, hcount, rfl⟩
    · obtain ⟨⟨hone, hkept, hquiet, hcount⟩, hqueue⟩ := lateNoted_queueWork p late (qInsert (u.entry tr.act)) u
      refine ⟨_, hexec, ?_⟩
      rw [arrive_queued henu hoku (hk.1 h) (by rwa [hport]), ← hat, ← hf, ← hport, ← hentry, State.enqueue]
      exact ⟨hone, hkept, hqueue ▸ qInsert_queued _ _, hquiet, hcount⟩
  case retimes =>
    intro p s u tr e late keep hnext hc hon hu hen hfind hlate hkeep
    have hexec : exec (.retime p) s = .next (retime p tr.act u) := by
      rw [hu]; exact congrArg Host.Outcome.next (portArrival_on hnext (by simp [hc]) hon)
    have hport : u.port p = s.port p := by rw [hu]; rfl
    have hat : late = u.lateAt (retimed tr.act e) := by
      rw [Bool.eq_iff_iff, hlate, State.lateAt_iff, hu]; rfl
    have hk : keep ↔ (u.lateAt (retimed tr.act e) && !u.keepLate p (retimed tr.act e)) = false := by
      rw [State.lateKept_iff, ← hat, hkeep, hu]; rfl
    have hentry : u.entry (retimed tr.act e) = ⟨{ e.act with time := tr.act.time, trk := tr.act.trk, late := tr.act.late }, late,
        if future tr.act.time (s.pnow e.act.port) = true then tr.act.time else s.pclose e.act.port⟩ := by
      rw [State.entry, ← hat, hu]; rfl
    have hf : ∀ F, u.f F = s.f F := fun F => by rw [hu]; rfl
    obtain ⟨⟨hone, hkept, hquiet, hcount⟩, hput, hout⟩ :=
      retime_queueWork (p := p) (a := tr.act) (s := u) (e := e) (by rw [hu]; exact hen) (by rw [hu]; exact hfind)
    refine ⟨_, hexec, ?_⟩
    rw [← hentry, ← hf, ← hport, hat]
    refine ⟨hone, hkept, fun h => ?_, fun h => hout (by simpa using fun hc => h (hk.2 hc)), hquiet, hcount⟩
    rw [hput (hk.1 h)]
    exact qInsert_queued _ _
  case cancels =>
    intro p s u tr hnext hc hon hu hen hany
    have hexec : exec (.cancel p) s = .next (cancel p tr.act u) := by
      rw [hu]; exact congrArg Host.Outcome.next (portArrival_on hnext (by simp [hc]) hon)
    rw [hexec, cancel_found (by rw [hu]; exact hen) (by rw [hu]; exact hany), hu]
    rfl
  case pulseEnds =>
    intro p s t h
    refine ⟨fun hen hrun hdue => ⟨_, congrArg Host.Outcome.next (pulseEnd_due h hen hrun hdue), ?_⟩,
      fun hno => congrArg Host.Outcome.next ?_⟩
    · exact outGroup_takes (PulseEndSet.self (by rw [State.modPort_port_same])) _ _ _
    · simp only [pulseEnd, h]
      refine if_neg fun hc => ?_
      obtain ⟨hc, hdue⟩ := Bool.and_eq_true_iff.1 hc
      obtain ⟨hen, hrun⟩ := Bool.and_eq_true_iff.1 hc
      obtain hno | hno | hno := hno
      · exact Bool.false_ne_true (hno.symm.trans hen)
      · exact Bool.false_ne_true (hno.symm.trans hrun)
      · exact Bool.false_ne_true (hno.symm.trans hdue)
  case heldEdges =>
    intro p s t o d h
    refine ⟨fun hdue => ⟨_, congrArg Host.Outcome.next (heldEdge_due h hdue), outChange_becomes _ _ _ _ _⟩,
      fun hno => congrArg Host.Outcome.next ?_⟩
    simp [heldEdge, h, hno]
  case unpowered =>
    intro p s tr hnext hoff i hi
    obtain ⟨ok, f, hok, hexec, -⟩ := exec_arrival hi
    rw [hexec, portArrival_off hnext hok hoff]
  case idle =>
    intro p s
    refine ⟨fun h => ?_, fun h => congrArg Host.Outcome.next ?_, fun h => congrArg Host.Outcome.next ?_⟩
    · exact ⟨congrArg Host.Outcome.next (portArrival_none h), congrArg Host.Outcome.next (portArrival_none h),
        congrArg Host.Outcome.next (portArrival_none h)⟩
    · simp only [pulseEnd, h]
    · simp only [heldEdge, h]
  case refused =>
    intro p s tr hnext hon
    refine ⟨fun i hi hen => ?disabled, fun hen hc1 hc2 hbad => ?bad, fun i hi hen hfind => ?missed⟩
    case disabled =>
      obtain ⟨ok, f, hok, hexec, hret, hcan, harr⟩ := exec_arrival hi
      have hf : f tr.act (takeTransit tr s) = qDrop p (takeTransit tr s) := by
        by_cases h1 : tr.act.code = 0x18
        · rw [hret h1]; exact retime_disabled hen
        · by_cases h2 : tr.act.code = 0x19
          · rw [hcan h2]; exact cancel_disabled hen
          · rw [harr h1 h2]; exact arrive_disabled hen
      obtain ⟨honly, hflag, hcount⟩ := qDrop_counted p (takeTransit tr s)
      refine ⟨_, hexec s, ?_⟩
      rw [portArrival_on hnext hok hon, hf, honly.ports, honly.transit]
      exact ⟨hflag, hcount, rfl, rfl⟩
    case bad =>
      obtain ⟨honly, hflag, hcount⟩ := badCode_counted p (takeTransit tr s)
      refine ⟨_, congrArg Host.Outcome.next (portArrival_on hnext (by simp [hc1, hc2]) hon), ?_⟩
      rw [arrive_bad (s := takeTransit tr s) hen hbad, honly.ports]
      exact ⟨hflag, hcount, rfl⟩
    case missed =>
      obtain ⟨ok, f, hok, hexec, hret, hcan, -⟩ := exec_arrival (p := p) (c := tr.act.code) (i := i) (hi.imp_right .inl)
      have hf : f tr.act (takeTransit tr s) = retMiss p (takeTransit tr s) := by
        obtain ⟨h, -⟩ | ⟨h, -⟩ := hi
        · rw [hret h]; exact retime_missed hen hfind
        · rw [hcan h]; exact cancel_missed hen hfind
      obtain ⟨honly, hflag, hcount⟩ := retMiss_counted p (takeTransit tr s)
      refine ⟨_, hexec s, ?_⟩
      rw [portArrival_on hnext hok hon, hf, honly.ports]
      exact ⟨rfl, hflag, hcount⟩

end Sys2Proof
end

section
/-! Edges at the input of a port, and what a pulse at its arm input does (R182 to R186, R197, R215). -/

namespace Sys2Proof.Machine

open Sys2Proof Reg

/-! ### Edges at the pin (R182, R215) -/

theorem portInput_unpowered {p : Nat} {s : State} (hvr : s.isVr p = false) (hoff : s.phys (portDom p) = false) (lvl : Bool)
    (fine : Nat) : portInput p lvl fine s = s.modPort p fun x => { x with pin := lvl, level := lvl } := by
  simp [portInput, hvr, inputEdge, hoff]

/-- The stamp of an edge at port p, less the driver's delay in an output mode (R182). -/
def State.edgeStamp (s : State) (p fine : Nat) : Time :=
  s.pnow p + fc fine - (if s.outMode p = true then fc (Config.driverDelay p) else 0)

theorem portInput_powered {p : Nat} {s : State} (hvr : s.isVr p = false) (hon : s.phys (portDom p) = true) (lvl : Bool) (fine : Nat) :
    portInput p lvl fine s = rawChange p (lvl != s.flag (PRT_IOCFG_INV p)) (s.edgeStamp p fine)
      (s.modPort p fun x => { x with pin := lvl }) := by
  rw [portInput, hvr, if_neg Bool.false_ne_true, inputEdge, if_neg (by simp [hon])]
  by_cases hout : s.outMode p = true
  · rw [State.edgeStamp, if_pos hout]
    exact congrArg (fun t => rawChange p _ t _) (if_pos hout)
  · rw [State.edgeStamp, if_neg hout, show s.pnow p + fc fine - 0 = s.pnow p + fc fine from BitVec.sub_zero _]
    exact congrArg (fun t => rawChange p _ t _) (if_neg hout)

theorem vrZero_armed {p : Nat} {s : State} (hvr : s.isVr p = true) (hon : s.phys (portDom p) = true) (harm : (s.vrOf p).armed = true)
    (fine : Nat) : vrZero p fine s = rawChange p true (s.pnow p + fc fine) (s.setVr p { s.vrOf p with armed := false }) :=
  if_neg (by simp [hvr, hon, harm])

theorem vrZero_idle {p : Nat} {s : State} (h : s.isVr p = false ∨ s.phys (portDom p) = false ∨ (s.vrOf p).armed = false)
    (fine : Nat) : vrZero p fine s = s := by
  refine if_pos ?_
  obtain h | h | h := h <;> simp [h]

/-! ### The capture unit (R182, R184, R185) -/

/-- The capture unit takes the edge e of port p (R182). -/
def State.captures (s : State) (p : Nat) (e : RawEdge) : Bool :=
  e.ran && s.portEn p && (if e.level = true then (s.f (PRT_CAPCFG_EDGE p)).testBit 0 else (s.f (PRT_CAPCFG_EDGE p)).testBit 1)

/-- An edge at t comes too close to the last one that port p has stamped (R184). -/
def Port.tooNear (x : Port) (p : Nat) (t : Time) : Bool := x.stamped.any fun u => decide ((t - u).toNat < spacing p)

theorem Port.tooNear_iff (x : Port) (p : Nat) (t : Time) :
    x.tooNear p t = true ↔ ∃ u, x.stamped = some u ∧ (t - u).toNat < spacing p := by
  simp [Port.tooNear, Option.any_eq_true]

section
variable {p : Nat} {e : RawEdge} {s : State}

theorem captureEdge_ignored (h : s.captures p e = false) : captureEdge p e s = s :=
  if_pos (by rw [← State.captures, h]; rfl)

/-- The port with an edge stamped. -/
def stampEdge (p : Nat) (t : Time) (s : State) : State := s.modPort p fun x => { x with stamped := some t }

/-- An edge that the capture unit takes is missed, or it is stamped and, where the gate is open, recorded (R184, R185). -/
theorem captureEdge_taken (h : s.captures p e = true) : captureEdge p e s =
    if (s.port p).tooNear p e.stamp = true then capMiss p s
    else if (s.flag (PRT_CAPCFG_GATED p) && !gateOpen e.stamp (s.port p).gate) = true then stampEdge p e.stamp s
    else capture p 1 e.stamp e.level e.count (stampEdge p e.stamp s) := by
  rw [captureEdge, ← State.captures, h, if_neg (by simp)]
  extract_lets x near
  have hnear : near = (s.port p).tooNear p e.stamp := by
    unfold near Port.tooNear
    cases x.stamped <;> rfl
  rw [hnear]
  rfl

end

/-- The capture unit changes the records of the port and its last stamped edge. -/
theorem captureEdge_work (p : Nat) (e : RawEdge) (s : State) : PortWork p (capRegs p) s (captureEdge p e s) ∧
    ∃ l t, (captureEdge p e s).port p = { s.port p with recs := l, stamped := t } := by
  have hstamp : PortWork p (capRegs p) s (stampEdge p e.stamp s) := State.modPort_work _ _ _ _
  cases h : s.captures p e
  · rw [captureEdge_ignored h]; exact ⟨.refl _ _ _, _, _, rfl⟩
  rw [captureEdge_taken h]
  split
  case isTrue =>
    have hmiss := (capMiss_counted p s).1
    exact ⟨(hmiss.mono (by simp [PRT_ERRCNT3_CAPMISS])).portWork p, _, _, by rw [hmiss.port]⟩
  case isFalse =>
    split
    · exact ⟨hstamp, _, _, by rw [stampEdge, State.modPort_port_same]⟩
    · obtain ⟨hwork, l, hl⟩ := captureOn_work (lane := (stampEdge p e.stamp s).lane p) (p := p) (ty := 1) (t := e.stamp)
        (edge := e.level) (aux := e.count) (s := stampEdge p e.stamp s)
      exact ⟨hstamp.trans hwork, l, _, by rw [capture, hl, stampEdge, State.modPort_port_same]⟩

/-- An edge that is not too near the last one is stamped; closed gates and stopped clocks keep it from the records, and where there is a
place it joins them (R184, R185). -/
theorem captureEdge_clear {p : Nat} {e : RawEdge} {s : State} (h : s.captures p e = true) (hn : (s.port p).tooNear p e.stamp = false) :
    ((captureEdge p e s).port p).stamped = some e.stamp ∧
    ((s.flag (PRT_CAPCFG_GATED p) = true ∧ gateOpen e.stamp (s.port p).gate = false ∨ s.prunning p = false) →
      ((captureEdge p e s).port p).recs = (s.port p).recs) ∧
    (s.prunning p = true → (s.flag (PRT_CAPCFG_GATED p) = false ∨ gateOpen e.stamp (s.port p).gate = true) →
      ((s.port p).recs.length < 8 →
        ((captureEdge p e s).port p).recs = (s.port p).recs ++ [s.capRec (s.lane p) p 1 e.stamp e.level e.count]) ∧
      (8 ≤ (s.port p).recs.length →
        ((captureEdge p e s).port p).recs = (s.port p).recs ∧ (captureEdge p e s).f (PRT_STATUS_CAPDROP p) = 1)) := by
  have hport : (stampEdge p e.stamp s).port p = { s.port p with stamped := some e.stamp } := State.modPort_port_same _ _ _
  rw [captureEdge_taken h, if_neg (by simp [hn])]
  split
  case isTrue hshut =>
    obtain ⟨hgated, hgate⟩ := Bool.and_eq_true_iff.1 hshut
    rw [Bool.not_eq_true'] at hgate
    refine ⟨by rw [hport], fun _ => by rw [hport], fun _ hopen => ?_⟩
    rw [hgated, hgate] at hopen
    simp at hopen
  case isFalse hopen =>
    obtain ⟨-, l, hl⟩ := captureOn_work (lane := s.lane p) (p := p) (ty := 1) (t := e.stamp) (edge := e.level) (aux := e.count)
      (s := stampEdge p e.stamp s)
    have hcap : capture p 1 e.stamp e.level e.count (stampEdge p e.stamp s) =
        captureOn (s.lane p) p 1 e.stamp e.level e.count (stampEdge p e.stamp s) := rfl
    refine ⟨by rw [hcap, hl, hport], fun hno => ?_, fun hrun _ => ?_⟩
    · obtain ⟨hgated, hgate⟩ | hstop := hno
      · exact absurd (by rw [hgated, hgate]; rfl) hopen
      · rw [hcap, captureOn_stopped (s := stampEdge p e.stamp s) hstop, hport]
    · obtain ⟨hplace, hfull⟩ := captureOn_recs (lane := s.lane p) (p := p) (ty := 1) (t := e.stamp) (edge := e.level) (aux := e.count)
        (s := stampEdge p e.stamp s) hrun
      rw [hport] at hplace hfull
      exact ⟨hplace, hfull⟩

/-! ### A qualified edge goes to its owner (R186, R190, R212) -/

/-- From s to t a qualified edge with this stamp has gone to the port's owner and to the counters: of port p only step causes have come,
and the edge may be the last stamped one. -/
def EdgeHanded (p : Nat) (stamp : Time) (s t : State) : Prop :=
  t.mem = s.mem ∧ t.engines = s.engines ∧ SameRegs s t [RIG_STATUS, RIG_DLYINFO] ∧
  t.port p = { s.port p with steps := (t.port p).steps, stamped := (t.port p).stamped } ∧
  ((t.port p).stamped = (s.port p).stamped ∨ (t.port p).stamped = some stamp)

theorem EdgeHanded.trans {p : Nat} {stamp : Time} {s t u : State} (h : EdgeHanded p stamp s t) (k : EdgeHanded p stamp t u) :
    EdgeHanded p stamp s u := by
  obtain ⟨hm, he, hr, hp, hs⟩ := h
  obtain ⟨km, ke, kr, kp, ks⟩ := k
  refine ⟨km.trans hm, ke.trans he, SameRegs.trans hr kr, ?_, ?_⟩
  · rw [kp, hp]
  · obtain ks | ks := ks
    · rw [ks]; exact hs
    · exact .inr ks

theorem EdgeHanded.of_port {p : Nat} {stamp : Time} {s t : State} (hm : t.mem = s.mem) (he : t.engines = s.engines)
    (hr : t.regs = s.regs) (hp : t.port p = s.port p) : EdgeHanded p stamp s t := by
  refine ⟨hm, he, fun o _ => ?_, by rw [hp], by rw [hp]; exact .inl rfl⟩
  rw [State.reg, State.reg, hr]

theorem EdgeHanded.refl (p : Nat) (stamp : Time) (s : State) : EdgeHanded p stamp s s := .of_port rfl rfl rfl rfl

theorem stepAt_handed (p b : Nat) (c : StepCause) (stamp : Time) (s : State) : EdgeHanded p stamp s (stepAt p b c s) := by
  refine ⟨rfl, rfl, fun _ _ => rfl, ?_, .inl ?_⟩ <;> rw [stepAt, State.modPort_port_same]

theorem pulseAt_handed (p src m : Nat) (stamp : Time) (s : State) : EdgeHanded p stamp s (pulseAt src m s) := by
  have h := pulseAt_only src m s
  have hport : (pulseAt src m s).port p = s.port p := (h.flagOnly []).port p
  exact ⟨h.mem, by rw [h.1], h.2, by rw [hport], by rw [hport]; exact .inl rfl⟩

theorem toothForm_handed (p w ready : Nat) (e : RawEdge) (stamp : Time) (s : State) : EdgeHanded p stamp s (toothForm p w ready e s) := by
  unfold toothForm
  extract_lets _ _ _ take r
  split
  · exact .refl _ _ _
  · split <;> exact .of_port rfl rfl rfl rfl

/-- An edge joins the queue of a sheave unit where it comes on one of its lines. -/
theorem putEdge_handed (p u : Nat) (x : ShvEdge) (c : Prop) [Decidable c] (stamp : Time) (s : State) :
    EdgeHanded p stamp s (if c then s.modSheave u fun y => { y with edges := y.edges ++ [x] } else s) := by
  split
  · exact .of_port (by simp) (by simp) (by simp) (by simp)
  · exact .refl _ _ _

theorem stampUnless_handed (p : Nat) (c : Prop) [Decidable c] (stamp : Time) (s : State) :
    EdgeHanded p stamp s (if c then s else stampEdge p stamp s) := by
  split
  · exact .refl _ _ _
  · refine ⟨rfl, rfl, fun _ _ => rfl, ?_, .inr ?_⟩ <;> rw [stampEdge, State.modPort_port_same]

theorem sheaveForm_handed (p u : Nat) (e : RawEdge) (filt : Nat) (near : Bool) (s : State) :
    EdgeHanded p e.stamp s (sheaveForm p u e filt near s) := by
  unfold sheaveForm
  split
  · exact .refl _ _ _
  · exact (((stampUnless_handed p _ e.stamp s).trans (putEdge_handed _ _ _ _ _ _)).trans (putEdge_handed _ _ _ _ _ _)).trans
      (putEdge_handed _ _ _ _ _ _)

/-- The levels of port p that have qualified, with one that does now (R186). -/
def State.toldWith (s : State) (p : Nat) (e : RawEdge) : List (Nat × Bool) :=
  ((s.port p).told.filter fun q => decide (s.mc ≤ q.1)) ++ [(e.mc + s.f (PRT_INCFG_FILT p) + 2, e.level)]

/-- The edge e of port p has qualified: it is the filtered level. -/
def edgeTaken (p : Nat) (e : RawEdge) (s : State) : State :=
  s.setPort p { s.port p with raw := none, level := e.level, told := s.toldWith p e }

/-- A raw edge that has held for FILT becomes the filtered level, meets the capture unit, and goes to the owner (R182, R186). -/
theorem edgeQualify_due {p : Nat} {e : RawEdge} {s : State} (h : (s.port p).raw = some e)
    (hdue : e.mc + s.f (PRT_INCFG_FILT p) ≤ s.mc) (hon : s.phys (portDom p) = true) :
    EdgeHanded p e.stamp (captureEdge p e (edgeTaken p e s)) (edgeQualify p s) := by
  simp only [edgeQualify, h]
  rw [if_neg (by simp [hon, hdue])]
  have hsteps := (stepAt_handed p (e.mc + s.f (PRT_INCFG_FILT p) + 3) (.edge e.level) e.stamp (captureEdge p e (edgeTaken p e s))).trans
    (pulseAt_handed p p (e.mc + s.f (PRT_INCFG_FILT p) + 2) e.stamp _)
  split
  · exact hsteps.trans (toothForm_handed _ _ _ _ _ _)
  · split
    · exact hsteps.trans (sheaveForm_handed _ _ _ _ _ _)
    · exact hsteps

theorem edgeQualify_idle {p : Nat} {s : State} (h : (s.port p).raw = none ∨ s.phys (portDom p) = false ∨
    ∃ e, (s.port p).raw = some e ∧ s.mc < e.mc + s.f (PRT_INCFG_FILT p)) : edgeQualify p s = s := by
  cases hraw : (s.port p).raw with
  | none => simp only [edgeQualify, hraw]
  | some e =>
    simp only [edgeQualify, hraw]
    refine if_pos ?_
    obtain h | h | ⟨e', he, h⟩ := h
    · rw [hraw] at h; cases h
    · simp [h]
    · rw [hraw, Option.some.injEq] at he
      simp [he, h]

/-! ### The arm input (R197) -/

theorem armPulse_idle {p k : Nat} {l : List Nat} {s : State} (h : (s.port p).arm = k :: l)
    (hoff : s.portEn p = false ∨ s.phys (portDom p) = false) : armPulse p s = s.modPort p fun x => { x with arm := l } := by
  simp only [armPulse, h]
  refine if_neg fun hc => ?_
  obtain ⟨h1, h2⟩ := Bool.and_eq_true_iff.1 hc
  obtain hoff | hoff := hoff
  · exact Bool.false_ne_true (hoff.symm.trans h1)
  · exact Bool.false_ne_true (hoff.symm.trans h2)

theorem armPulse_acts {p k : Nat} {l : List Nat} {s : State} (h : (s.port p).arm = k :: l) (hen : s.portEn p = true)
    (hon : s.phys (portDom p) = true) : armPulse p s = armAct p k (s.modPort p fun x => { x with arm := l }) := by
  simp only [armPulse, h]
  exact if_pos (Bool.and_eq_true_iff.2 ⟨hen, hon⟩)

/-- ARMFN from 4 to 7 makes the output change of codes 1 to 4 with the closing boundary of the arrival cycle. -/
theorem armAct_output {p k n : Nat} {u : State} (hout : u.outMode p = true) (h4 : 4 ≤ n) (h7 : n ≤ 7)
    (hn : u.f (PRT_ARMCFG_ARMFN p) = n) : armAct p k u =
      outLater p (u.pclose p + fc (256 * k) - fc (256 * u.mc)) (.code (n - 3) (u.f (PRT_ARMW_WIDTH p))) u := by
  have hcases : n = 4 ∨ n = 5 ∨ n = 6 ∨ n = 7 := by omega
  rw [armAct, hn]
  obtain rfl | rfl | rfl | rfl := hcases <;> exact if_pos hout

theorem outLater_future {p : Nat} {t : Time} {s : State} (h : future t (s.pnow p) = true) (o : LateOut) :
    outLater p t o s = s.modPort p fun x => { x with later := x.later ++ [(t, o)] } := if_pos h

theorem outLater_come {p : Nat} {t : Time} {s : State} (h : future t (s.pnow p) = false) (o : LateOut) :
    outLater p t o s = outSettle p (s.modPort p fun x => { x with later := x.later ++ [(t, o)] }) :=
  if_neg (by rw [h]; exact Bool.false_ne_true)

end Sys2Proof.Machine
end

section
/-! The counters of the ports at a Mast boundary, and their links (R190, R191, R194 to R196). -/

namespace Sys2Proof.Machine

open Sys2Proof Reg

/-! ### Events of a counter (R195, R196) -/

/-- From s to t a counter of port p has made its events: of the registers those of a list and of captures, of every port the last
evaluation, and of port p a counter whose snapshot has been taken, stay. -/
def CounterWork (p : Nat) (l : List Nat) (s t : State) : Prop :=
  t = { s with ports := t.ports, regs := t.regs, hwNow := t.hwNow, rig := t.rig } ∧
  SameRegs s t (RIG_STATUS :: RIG_DLYINFO :: (l ++ capRegs p)) ∧
  (∀ q, (t.port q).closed = (s.port q).closed) ∧
  ((s.port p).snapMc = some s.mc → (t.port p).snapMc = some s.mc ∧ (t.port p).ctr = (s.port p).ctr)

theorem CounterWork.refl (p : Nat) (l : List Nat) (s : State) : CounterWork p l s s :=
  ⟨rfl, fun _ _ => rfl, fun _ => rfl, fun h => ⟨h, rfl⟩⟩

theorem CounterWork.mc {p : Nat} {l : List Nat} {s t : State} (h : CounterWork p l s t) : t.mc = s.mc := by rw [h.1]; rfl

theorem CounterWork.trans {p : Nat} {l : List Nat} {s t u : State} (h : CounterWork p l s t) (k : CounterWork p l t u) :
    CounterWork p l s u := by
  have hmc := h.mc
  obtain ⟨hs, hr, hc, hk⟩ := h
  obtain ⟨ks, kr, kc, kk⟩ := k
  refine ⟨?_, SameRegs.trans hr kr, fun q => (kc q).trans (hc q), fun hsnap => ?_⟩
  · rw [ks, hs]
  · obtain ⟨h1, h2⟩ := hk hsnap
    rw [hmc] at kk
    obtain ⟨k1, k2⟩ := kk h1
    exact ⟨k1, k2.trans h2⟩

theorem CounterWork.mono {p : Nat} {l l' : List Nat} {s t : State} (h : CounterWork p l s t) (hl : l ⊆ l') : CounterWork p l' s t := by
  obtain ⟨hs, hr, hc, hk⟩ := h
  refine ⟨hs, SameRegs.mono hr (List.cons_subset_cons _ (List.cons_subset_cons _ ?_)), hc, hk⟩
  exact List.append_subset.2 ⟨fun _ h => List.mem_append_left _ (hl h), fun _ h => List.mem_append_right _ h⟩

theorem CounterWork.f {p : Nat} {l : List Nat} {s t : State} (h : CounterWork p l s t) {F : Fld} (hF : F.lo + F.w ≤ 32)
    (ho : F.off ∉ RIG_STATUS :: RIG_DLYINFO :: (l ++ capRegs p)) : t.f F = s.f F := SameRegs.f_eq h.2.1 hF ho

/-- What works on port p alone, and leaves its last evaluation and its counter, is the work of a counter. -/
theorem PortWork.counterWork {p : Nat} {l : List Nat} {s t : State} (h : PortWork p (l ++ capRegs p) s t)
    (hclosed : (t.port p).closed = (s.port p).closed)
    (hctr : (s.port p).snapMc = some s.mc → (t.port p).snapMc = some s.mc ∧ (t.port p).ctr = (s.port p).ctr) :
    CounterWork p l s t := by
  obtain ⟨⟨hs, hports⟩, hr⟩ := h
  refine ⟨hs, hr, fun q => ?_, hctr⟩
  by_cases hq : q = p
  · rw [hq]; exact hclosed
  · rw [hports q hq]

theorem OutputWork.counterWork {p : Nat} {s t : State} (h : OutputWork p s t) (l : List Nat) : CounterWork p l s t := by
  obtain ⟨hwork, hport, hctr⟩ := h
  exact (hwork.mono (by simp)).counterWork (by rw [hport]) hctr

theorem PulseOnly.counterWork {s t : State} (h : PulseOnly s t) (p : Nat) (l : List Nat) : CounterWork p l s t := by
  have hflag := h.flagOnly (l ++ capRegs p)
  exact (hflag.portWork p).counterWork (by rw [hflag.port]) fun hs => by rw [hflag.port]; exact ⟨hs, rfl⟩

theorem captureOn_counterWork (lane p ty : Nat) (t : Time) (edge : Bool) (aux : Nat) (l : List Nat) (s : State) :
    CounterWork p l s (captureOn lane p ty t edge aux s) := by
  obtain ⟨hwork, recs, hport⟩ := captureOn_work (lane := lane) (p := p) (ty := ty) (t := t) (edge := edge) (aux := aux) (s := s)
  exact (hwork.mono (List.subset_append_right _ _)).counterWork (by rw [hport]) fun hs => by rw [hport]; exact ⟨hs, rfl⟩

theorem stepAt_counterWork {p q : Nat} (hq : q ≠ p) (b : Nat) (c : StepCause) (l : List Nat) (s : State) :
    CounterWork p l s (stepAt q b c s) := by
  have hport : (stepAt q b c s).port p = s.port p := State.modPort_port_ne _ _ hq.symm
  refine ⟨rfl, fun _ _ => rfl, fun r => ?_, fun hs => by rw [hport]; exact ⟨hs, rfl⟩⟩
  by_cases hr : r = q
  · rw [hr, stepAt, State.modPort_port_same]
  · rw [stepAt, State.modPort_port_ne _ _ hr]

theorem ctrLink_counterWork (p b csrc : Nat) (l : List Nat) (s : State) : CounterWork p l s (ctrLink p b csrc s) := by
  refine foldl_inv (CounterWork p l s) _ _ (.refl p l s) fun t k ht => ?_
  dsimp only
  split
  case isTrue => exact ht
  case isFalse hk => exact ht.trans (stepAt_counterWork hk _ _ l t)

theorem ctrOut_counterWork (p code : Nat) (t : Time) (l : List Nat) (s : State) : CounterWork p l s (ctrOut p code t s) := by
  unfold ctrOut
  split
  · exact .refl _ _ _
  · exact (outLater_outputWork _ _ _ _).counterWork l

theorem captureIf_counterWork (c : Prop) [Decidable c] (lane p ty : Nat) (t : Time) (edge : Bool) (aux : Nat) (l : List Nat)
    (s : State) : CounterWork p l s (if c then captureOn lane p ty t edge aux s else s) := by
  split
  · exact captureOn_counterWork _ _ _ _ _ _ _ _
  · exact .refl _ _ _

/-- A match sets its flag, and works on from there. -/
theorem matchEvent_counterWork (p b : Nat) (t : Time) (s : State) :
    CounterWork p [] (s.raise (PRT_CSTAT_MATCH p)) (matchEvent p b t s) :=
  (((pulseAt_only _ _ _).counterWork p []).trans (captureIf_counterWork _ _ _ _ _ _ _ _ _)).trans (ctrLink_counterWork _ _ _ _ _)

/-- A zero event sets its flag, and works on from there. -/
theorem zeroEvent_counterWork (p b : Nat) (t : Time) (s : State) :
    CounterWork p [] (s.raise (PRT_CSTAT_ZERO p)) (zeroEvent p b t s) :=
  (((pulseAt_only _ _ _).counterWork p []).trans (captureIf_counterWork _ _ _ _ _ _ _ _ _)).trans (ctrLink_counterWork _ _ _ _ _)

theorem PRT_CSTAT_kept (p : Nat) : PRT_CSTAT p ∉ RIG_STATUS :: RIG_DLYINFO :: ([] ++ capRegs p) := by
  simp [PRT_CSTAT, PRT_SEQ, PRT_STATUS, PRT_ERRCNT3, RIG_STATUS, RIG_DLYINFO]; omega

theorem CounterWork.cstat {p i : Nat} {s t : State} (h : CounterWork p [] s t) (hi : i < 32) :
    t.f ⟨PRT_CSTAT p, i, 1⟩ = s.f ⟨PRT_CSTAT p, i, 1⟩ := h.f hi (PRT_CSTAT_kept p)

theorem raise_cstat_counterWork (p i : Nat) (hi : i < 32) (s : State) :
    CounterWork p [PRT_CSTAT p] s (s.raise ⟨PRT_CSTAT p, i, 1⟩) := by
  have h := (raise_onlyNoted s ⟨PRT_CSTAT p, i, 1⟩ (l := [PRT_CSTAT p] ++ capRegs p) hi (by simp)).flagOnly
  exact (h.portWork p).counterWork (by rw [h.port]) fun hs => by rw [h.port]; exact ⟨hs, rfl⟩

/-! ### The evaluation of a counter (R190, R191, R194) -/

/-- The counter of a port with its snapshot x taken steps at the closing boundary (R190). -/
def State.ctrSteps (s : State) (p : Nat) (x : Port) : Bool :=
  s.portEn p && x.ctr.run && ctrDue (s.f (PRT_CCTRL_CSRC p)) (s.f (PRT_CCTRL_LSRC p)) (s.f (PRT_ARMCFG_ARMFN p)) (s.mc + 1) x

/-- What the closing boundary makes of the counter: the counter, whether it steps into 0, and whether into the compare (R191). -/
def State.ctrResult (s : State) (p : Nat) (x : Port) : Counter × Bool × Bool :=
  if s.ctrSteps p x = true then ctrStep (s.flag (PRT_CCTRL_ONESHOT p)) x.ctr else (x.ctr, false, false)

/-- The counter of port p has been evaluated for the closing boundary, before its events. -/
def ctrClosed (p : Nat) (s : State) : State :=
  let x := (s.port p).snapFor s.mc
  let c := { (s.ctrResult p x).1 with imm := false }
  s.setPort p { x with
    ctr := c, snap := c, chgs := [], closed := s.mc + 1, steps := x.steps.filter fun k => decide (s.mc + 1 < k.1) }

theorem Port.snapFor_closed (x : Port) (m : Nat) : (x.snapFor m).closed = x.closed := by
  rw [(Port.snapFor_rawOnly x m).1.1]

/-- One boundary is evaluated once. -/
theorem counterClose_again {p : Nat} {s : State} (h : s.mc + 1 ≤ (s.port p).closed) : counterClose p s = s :=
  if_pos (by rwa [Port.snapFor_closed])

/-- The events of a counter at the closing boundary b: a match and a zero event, then the output changes that they make (R196). -/
def ctrEvents (p b : Nat) (isMatch zero : Bool) (s : State) : State :=
  let t := s.pclose p
  let s := if isMatch then matchEvent p b t s else s
  let s := if zero then zeroEvent p b t s else s
  let s := if isMatch then ctrOut p (s.f (PRT_CCTRL_CMPOUT p)) t s else s
  if zero then ctrOut p (s.f (PRT_CCTRL_ZEROOUT p)) t s else s

theorem counterClose_due {p : Nat} {s : State} (h : (s.port p).closed ≤ s.mc) : ∃ imm : Bool, counterClose p s =
    ctrEvents p (s.mc + 1) ((s.ctrResult p ((s.port p).snapFor s.mc)).2.2 || imm) (s.ctrResult p ((s.port p).snapFor s.mc)).2.1
      (ctrClosed p s) :=
  ⟨_, if_neg (by rw [Port.snapFor_closed]; omega)⟩

theorem matchIf_work (p b : Nat) (t : Time) (isMatch : Bool) (s : State) :
    CounterWork p [PRT_CSTAT p] s (if isMatch = true then matchEvent p b t s else s) ∧
    (isMatch = true → (if isMatch = true then matchEvent p b t s else s).f (PRT_CSTAT_MATCH p) = 1) := by
  cases isMatch
  · exact ⟨.refl _ _ _, fun h => absurd h Bool.false_ne_true⟩
  · have h := matchEvent_counterWork p b t s
    rw [if_pos rfl]
    refine ⟨(raise_cstat_counterWork p 1 (by decide) s).trans (h.mono (by simp)), fun _ => ?_⟩
    exact (h.cstat (by decide)).trans (State.raise_f_same _ _ (by simp [PRT_CSTAT_MATCH]) (by simp [PRT_CSTAT_MATCH]))

theorem zeroIf_work (p b : Nat) (t : Time) (zero : Bool) (s : State) :
    CounterWork p [PRT_CSTAT p] s (if zero = true then zeroEvent p b t s else s) ∧
    (zero = true → (if zero = true then zeroEvent p b t s else s).f (PRT_CSTAT_ZERO p) = 1) ∧
    (if zero = true then zeroEvent p b t s else s).f (PRT_CSTAT_MATCH p) = s.f (PRT_CSTAT_MATCH p) := by
  cases zero
  · exact ⟨.refl _ _ _, fun h => absurd h Bool.false_ne_true, rfl⟩
  · have h := zeroEvent_counterWork p b t s
    rw [if_pos rfl]
    refine ⟨(raise_cstat_counterWork p 0 (by decide) s).trans (h.mono (by simp)), fun _ => ?_, ?_⟩
    · exact (h.cstat (by decide)).trans (State.raise_f_same _ _ (by simp [PRT_CSTAT_ZERO]) (by simp [PRT_CSTAT_ZERO]))
    · exact (h.cstat (by decide)).trans (State.raise_f_ne _ _ _ (by simp [PRT_CSTAT_ZERO]) (by simp) (by simp [PRT_CSTAT_ZERO]))

theorem outIf_work (p : Nat) (F : Fld) (t : Time) (c : Bool) (s : State) :
    CounterWork p [] s (if c = true then ctrOut p (s.f F) t s else s) := by
  split
  · exact ctrOut_counterWork _ _ _ _ _
  · exact .refl _ _ _

/-- The events of a counter set their flags. -/
theorem ctrEvents_work (p b : Nat) (isMatch zero : Bool) (s : State) : CounterWork p [PRT_CSTAT p] s (ctrEvents p b isMatch zero s) ∧
    (zero = true → (ctrEvents p b isMatch zero s).f (PRT_CSTAT_ZERO p) = 1) ∧
    (isMatch = true → (ctrEvents p b isMatch zero s).f (PRT_CSTAT_MATCH p) = 1) := by
  unfold ctrEvents
  extract_lets t u v w
  obtain ⟨hu, hmatch⟩ : CounterWork p [PRT_CSTAT p] s u ∧ (isMatch = true → u.f (PRT_CSTAT_MATCH p) = 1) := matchIf_work p b t isMatch s
  obtain ⟨hv, hzero, hkeep⟩ : CounterWork p [PRT_CSTAT p] u v ∧ (zero = true → v.f (PRT_CSTAT_ZERO p) = 1) ∧
      v.f (PRT_CSTAT_MATCH p) = u.f (PRT_CSTAT_MATCH p) := zeroIf_work p b t zero u
  have hw : CounterWork p [] v (if zero = true then ctrOut p (w.f (PRT_CCTRL_ZEROOUT p)) t w else w) :=
    (outIf_work p (PRT_CCTRL_CMPOUT p) t isMatch v).trans (outIf_work p (PRT_CCTRL_ZEROOUT p) t zero w)
  refine ⟨(hu.trans hv).trans (hw.mono (by simp)), fun h => ?_, fun h => ?_⟩
  · exact (hw.cstat (by decide)).trans (hzero h)
  · exact (hw.cstat (by decide)).trans (hkeep.trans (hmatch h))

/-- A counter that is evaluated sets the flags of its events. -/
theorem counterClose_work {p : Nat} {s : State} (h : (s.port p).closed ≤ s.mc) :
    CounterWork p [PRT_CSTAT p] (ctrClosed p s) (counterClose p s) ∧
    ((s.ctrResult p ((s.port p).snapFor s.mc)).2.1 = true → (counterClose p s).f (PRT_CSTAT_ZERO p) = 1) ∧
    ((s.ctrResult p ((s.port p).snapFor s.mc)).2.2 = true → (counterClose p s).f (PRT_CSTAT_MATCH p) = 1) := by
  obtain ⟨imm, heq⟩ := counterClose_due h
  rw [heq]
  obtain ⟨hwork, hzero, hmatch⟩ := ctrEvents_work p (s.mc + 1) ((s.ctrResult p ((s.port p).snapFor s.mc)).2.2 || imm)
    (s.ctrResult p ((s.port p).snapFor s.mc)).2.1 (ctrClosed p s)
  exact ⟨hwork, hzero, fun hm => hmatch (by rw [hm]; rfl)⟩

theorem ctrClosed_port (p : Nat) (s : State) : ((ctrClosed p s).port p).snapMc = some s.mc ∧
    ((ctrClosed p s).port p).ctr = { (s.ctrResult p ((s.port p).snapFor s.mc)).1 with imm := false } ∧
    ((ctrClosed p s).port p).closed = s.mc + 1 := by
  rw [ctrClosed, State.setPort_port_same]
  exact ⟨(Port.snapFor_rawOnly _ _).2.1, rfl, rfl⟩

/-- The counter that an evaluation leaves. -/
theorem counterClose_ctr {p : Nat} {s : State} (h : (s.port p).closed ≤ s.mc) :
    ((counterClose p s).port p).ctr = { (s.ctrResult p ((s.port p).snapFor s.mc)).1 with imm := false } := by
  obtain ⟨⟨-, -, -, hkeep⟩, -⟩ := counterClose_work h
  obtain ⟨hsnap, hctr, -⟩ := ctrClosed_port p s
  exact (hkeep hsnap).2.trans hctr

theorem counterClose_engines {p : Nat} {s : State} (h : (s.port p).closed ≤ s.mc) : (counterClose p s).engines = s.engines := by
  rw [(counterClose_work h).1.1]; rfl

/-! ### Counters that are linked (R195) -/

/-- From s to t no cycle has passed, no link has changed, and no evaluation has been undone. -/
def LinksKept (s t : State) : Prop :=
  t.mc = s.mc ∧ (∀ q, t.linkedBelow q = s.linkedBelow q) ∧ ∀ q, (s.port q).closed ≤ (t.port q).closed

theorem LinksKept.refl (s : State) : LinksKept s s := ⟨rfl, fun _ => rfl, fun _ => Nat.le_refl _⟩

theorem LinksKept.trans {s t u : State} (h : LinksKept s t) (k : LinksKept t u) : LinksKept s u :=
  ⟨k.1.trans h.1, fun q => (k.2.1 q).trans (h.2.1 q), fun q => (h.2.2 q).trans (k.2.2 q)⟩

theorem CounterWork.linkedBelow {p : Nat} {s t : State} (h : CounterWork p [PRT_CSTAT p] s t) (q : Nat) :
    t.linkedBelow q = s.linkedBelow q := by
  have ho : PRT_CCTRL q ∉ RIG_STATUS :: RIG_DLYINFO :: ([PRT_CSTAT p] ++ capRegs p) := by
    simp [PRT_CCTRL, PRT_CSTAT, PRT_SEQ, PRT_STATUS, PRT_ERRCNT3, RIG_STATUS, RIG_DLYINFO]; omega
  rw [State.linkedBelow, State.linkedBelow, h.f (F := PRT_CCTRL_CSRC q) (by simp [PRT_CCTRL_CSRC]) ho,
    h.f (F := PRT_CCTRL_LSRC q) (by simp [PRT_CCTRL_LSRC]) ho]

/-- A counter's evaluation keeps the links, and is not undone. -/
theorem counterClose_linksKept (p : Nat) (s : State) : LinksKept s (counterClose p s) ∧ s.mc + 1 ≤ ((counterClose p s).port p).closed := by
  by_cases h : s.mc + 1 ≤ (s.port p).closed
  · rw [counterClose_again h]; exact ⟨.refl s, h⟩
  · have hle : (s.port p).closed ≤ s.mc := by omega
    have hwork := (counterClose_work hle).1
    have hport := (ctrClosed_port p s).2.2
    refine ⟨⟨hwork.mc, hwork.linkedBelow, fun q => ?_⟩, by rw [hwork.2.2.1, hport]⟩
    rw [hwork.2.2.1]
    by_cases hq : q = p
    · rw [hq, hport]; omega
    · rw [ctrClosed, State.setPort_port_ne _ _ hq]

theorem State.linkedBelow_lt {s : State} {p j : Nat} (h : s.linkedBelow p = some j) : j < p ∧ j / 8 = p / 8 ∧ j % 8 < p % 8 := by
  dsimp only [State.linkedBelow] at h
  split at h
  case isTrue hc =>
    obtain ⟨-, hj⟩ := Bool.and_eq_true_iff.1 hc
    have := of_decide_eq_true hj
    rw [Option.some.injEq] at h
    omega
  case isFalse => cases h

theorem closeBelow_none {p : Nat} {s : State} (h : s.linkedBelow p = none) (n : Nat) : closeBelow n p s = s := by
  cases n with
  | zero => rfl
  | succ n => simp only [closeBelow, h]

theorem closeBelow_some {p j : Nat} {s : State} (h : s.linkedBelow p = some j) (n : Nat) :
    closeBelow (n + 1) p s = counterClose j (closeBelow n j s) := by simp only [closeBelow, h]

/-- Where the counters below have been evaluated, none is evaluated again. -/
theorem closeBelow_closed {p : Nat} {s : State} (h : ∀ k, k < p → k / 8 = p / 8 → s.mc + 1 ≤ (s.port k).closed) (n : Nat) :
    closeBelow n p s = s := by
  induction n generalizing p with
  | zero => rfl
  | succ n ih =>
    cases hj : s.linkedBelow p with
    | none => exact closeBelow_none hj _
    | some j =>
      obtain ⟨hlt, hgroup, -⟩ := State.linkedBelow_lt hj
      rw [closeBelow_some hj, ih fun k hk hg => h k (by omega) (by omega)]
      exact counterClose_again (h j hlt hgroup)

/-- A chain of links is no longer than the port's place in its group. -/
theorem closeBelow_enough {p n : Nat} (h : p % 8 ≤ n) (s : State) : closeBelow (n + 1) p s = closeBelow n p s := by
  induction n generalizing p with
  | zero =>
    refine closeBelow_none ?_ _
    cases hj : s.linkedBelow p with
    | none => rfl
    | some j => have := State.linkedBelow_lt hj; omega
  | succ n ih =>
    cases hj : s.linkedBelow p with
    | none => rw [closeBelow_none hj, closeBelow_none hj]
    | some j =>
      have := State.linkedBelow_lt hj
      rw [closeBelow_some hj, closeBelow_some hj, ih (by omega)]

theorem closeBelow_linksKept (n p : Nat) (s : State) : LinksKept s (closeBelow n p s) := by
  induction n generalizing p with
  | zero => exact .refl s
  | succ n ih =>
    cases hj : s.linkedBelow p with
    | none => rw [closeBelow_none hj]; exact .refl s
    | some j => rw [closeBelow_some hj]; exact (ih j).trans (counterClose_linksKept _ _).1

/-- The counters below a port stay evaluated. -/
theorem closeBelow_again {n p : Nat} {s t : State} (h : LinksKept (closeBelow n p s) t) : closeBelow n p t = t := by
  induction n generalizing p with
  | zero => rfl
  | succ n ih =>
    have hlinks : t.linkedBelow p = s.linkedBelow p := ((closeBelow_linksKept (n + 1) p s).trans h).2.1 p
    cases hj : s.linkedBelow p with
    | none => exact closeBelow_none (hlinks.trans hj) _
    | some j =>
      rw [closeBelow_some hj] at h
      obtain ⟨hkept, hclosed⟩ := counterClose_linksKept j (closeBelow n j s)
      have hall := hkept.trans h
      rw [closeBelow_some (hlinks.trans hj), ih hall]
      refine counterClose_again ?_
      rw [hall.1]
      exact hclosed.trans (h.2.2 j)

/-- A port's counter is evaluated on the state that the step of the counter it is linked to leaves, and that step before it changes
nothing (R195). -/
theorem counterStep_linked {p j : Nat} {s : State} (h : s.linkedBelow p = some j) :
    counterStep p (counterStep j s) = counterStep p s := by
  have hj : counterStep j s = closeBelow 7 p s := by
    have := State.linkedBelow_lt h
    rw [closeBelow_some h, counterStep, closeBelow_enough (by omega)]
  rw [hj, counterStep, closeBelow_again (.refl _), counterStep]

theorem counterStep_eq {p : Nat} {s : State}
    (h : s.linkedBelow p = none ∨ ∀ k, k < p → k / 8 = p / 8 → s.mc + 1 ≤ (s.port k).closed) : counterStep p s = counterClose p s := by
  rw [counterStep]
  obtain h | h := h
  · rw [closeBelow_none h]
  · rw [closeBelow_closed h]

/-! ### The steps (R191) -/

section
variable {p : Nat} {s : State} {x : Port}

theorem State.ctrResult_steps (h : s.ctrSteps p x = true) :
    s.ctrResult p x = ctrStep (s.flag (PRT_CCTRL_ONESHOT p)) x.ctr := if_pos h

theorem State.ctrResult_stays (h : s.ctrSteps p x = false) : s.ctrResult p x = (x.ctr, false, false) :=
  if_neg (by rw [h]; exact Bool.false_ne_true)

end

theorem ctrStep_down {c : Counter} (h : 1 < c.cnt) (o : Bool) : ctrStep o c = ({ c with cnt := c.cnt - 1 }, false, c.cmp == c.cnt - 1) := by
  rw [ctrStep, if_neg (by omega), if_pos (by omega)]

theorem ctrStep_one {c : Counter} (h : c.cnt = 1) (o : Bool) : ctrStep o c = ({ c with cnt := 0, act := c.rld }, true, c.cmp == 0) :=
  if_pos h

theorem ctrStep_stop {c : Counter} (h : c.cnt = 0) : ctrStep true c = ({ c with run := false }, false, false) := by
  rw [ctrStep, if_neg (by omega), if_neg (by omega), if_pos rfl]

theorem ctrStep_reload {c : Counter} (h : c.cnt = 0) : ctrStep false c = ({ c with cnt := c.act }, false, c.cmp == c.act) := by
  rw [ctrStep, if_neg (by omega), if_neg (by omega), if_neg Bool.false_ne_true]

end Sys2Proof.Machine

namespace Sys2Proof

open Machine Reg

/-- Settles O33: an edge starts or stops the filter, a qualified one meets the capture unit and is handed on; a counter's evaluation is
its step with its events, made once a boundary and after the counters it is linked to. -/
theorem edgesAndCounters : Obligations.EdgesAndCounters := by
  refine ⟨?input, ?vr, ?qualify, ?linked, ?step, ?arm⟩
  case input =>
    intro p lvl fine s
    refine ⟨fun hvr hon => ⟨_, congrArg Host.Outcome.next (portInput_powered hvr hon lvl fine), ?_⟩,
      fun hvr => congrArg Host.Outcome.next (if_pos hvr), fun hvr hoff => congrArg Host.Outcome.next (portInput_unpowered hvr hoff _ _)⟩
    let u := s.modPort p fun x => { x with pin := lvl }
    have hu : u.port p = { s.port p with pin := lvl } := State.modPort_port_same _ _ _
    obtain ⟨hwork, hraw, -⟩ := rawChange_work (p := p) (l := lvl != s.flag (PRT_IOCFG_INV p)) (t := s.edgeStamp p fine) (s := u) []
    rw [hu] at hraw
    refine ⟨(State.modPort_work s p [] _).1.trans hwork.1, by rw [hraw], by rw [hraw], fun hl => ?_, fun hl hr => ?_, fun hl hr => ?_⟩
    · rw [rawChange_back (by rw [hu]; exact hl), State.setPort_port_same]
    · rw [rawChange_starts (by rw [hu]; exact hl) (by rw [hu]; exact hr), State.setPort_port_same]
      exact ⟨_, rfl, rfl, rfl, rfl, rfl⟩
    · rw [rawChange_held (by rw [hu]; exact hl) (by rw [hu]; exact hr), hu]
  case vr =>
    intro p fine s
    refine ⟨fun hvr hon harm => ⟨_, congrArg Host.Outcome.next (vrZero_armed hvr hon harm fine), ?_, fun hl hr => ?_, fun hl hr => ?_,
      fun hl => ?_⟩, fun h => congrArg Host.Outcome.next (vrZero_idle h fine)⟩
    · have hwork := (rawChange_work (p := p) (l := true) (t := s.pnow p + fc fine) (s := s.setVr p { s.vrOf p with armed := false }) []).1
      rw [State.vrOf, hwork.1.1]
      exact congrArg VrFront.armed (mget_mset_same _ _ _ _)
    · rw [rawChange_starts (by rw [State.setVr_port, hl]; simp) (by rw [State.setVr_port]; exact hr), State.setPort_port_same]
      exact ⟨_, rfl, rfl, rfl, rfl⟩
    · rw [rawChange_held (by rw [State.setVr_port, hl]; simp) (by rw [State.setVr_port]; exact hr), State.setVr_port]
    · rw [rawChange_back (by rw [State.setVr_port, hl]), State.setPort_port_same]
  case qualify =>
    intro p s
    refine ⟨fun e he hdue hon => ⟨_, rfl, ?_⟩, fun h => congrArg Host.Outcome.next (edgeQualify_idle h)⟩
    let u := edgeTaken p e s
    have hu : u.port p = { s.port p with raw := none, level := e.level, told := s.toldWith p e } := State.setPort_port_same _ _ _
    obtain ⟨hmem, heng, hregs, hport, hstamp⟩ := edgeQualify_due he hdue hon
    obtain ⟨hwork, l, st, hl⟩ := captureEdge_work p e u
    have hf : ∀ {F : Fld}, F.lo + F.w ≤ 32 → F.off ∉ [RIG_STATUS, RIG_DLYINFO] → (edgeQualify p s).f F = (captureEdge p e u).f F :=
      fun h1 h2 => SameRegs.f_eq hregs h1 h2
    have hrecs : ((edgeQualify p s).port p).recs = ((captureEdge p e u).port p).recs := by rw [hport]
    refine ⟨by rw [hport, hl, hu], by rw [hport, hl, hu], hmem.trans hwork.1.mem, heng.trans hwork.1.engines, ?_, ?_⟩
    · rw [hport, hl, hu]; exact List.mem_append_right _ List.mem_cons_self
    intro chosen near hchosen hnear
    have hc : chosen ↔ u.captures p e = true := by
      rw [hchosen, State.captures, Bool.and_eq_true, Bool.and_eq_true, and_assoc]; rfl
    have hn : near ↔ (u.port p).tooNear p e.stamp = true := by rw [hnear, Port.tooNear_iff, hu]
    refine ⟨fun h1 h2 => ?_, fun h1 h2 => ?_, fun h1 => ?_⟩
    · obtain ⟨honly, hflag, hcount⟩ := capMiss_counted p u
      have hmiss : captureEdge p e u = capMiss p u := (captureEdge_taken (hc.1 h1)).trans (if_pos (hn.1 h2))
      rw [hrecs, hf (by simp [PRT_STATUS_CAPMISS]) (by simp [PRT_STATUS_CAPMISS, PRT_STATUS, RIG_STATUS, RIG_DLYINFO]; omega),
        hf (by simp [PRT_ERRCNT3_CAPMISS]) (by simp [PRT_ERRCNT3_CAPMISS, PRT_ERRCNT3, RIG_STATUS, RIG_DLYINFO]; omega), hmiss, honly.port, hu]
      exact ⟨rfl, hflag, hcount⟩
    · obtain ⟨hst, hkeep, htake⟩ := captureEdge_clear (hc.1 h1) (by simpa using fun h => h2 (hn.2 h))
      rw [hrecs, hf (by simp [PRT_STATUS_CAPDROP]) (by simp [PRT_STATUS_CAPDROP, PRT_STATUS, RIG_STATUS, RIG_DLYINFO]; omega)]
      rw [hu] at hkeep htake
      refine ⟨?_, hkeep, htake⟩
      obtain hstamp | hstamp := hstamp
      · exact hstamp.trans hst
      · exact hstamp
    · rw [hrecs, captureEdge_ignored (by simpa using fun h => h1 (hc.2 h)), hu]
  case linked =>
    intro p j s h
    exact ⟨_, _, rfl, rfl, congrArg Host.Outcome.next (counterStep_linked h)⟩
  case step =>
    intro p s x hx hlinks
    have hexec : exec (.counterStep p) s = .next (counterClose p s) := congrArg Host.Outcome.next (counterStep_eq hlinks)
    refine ⟨fun h => hexec.trans (congrArg Host.Outcome.next (counterClose_again h)), fun h => ⟨_, hexec, counterClose_mem _ _,
      counterClose_engines h, fun hen hrun hdue => ?_, fun hno => ?_⟩⟩
    · obtain ⟨-, hzero, hmatch⟩ := counterClose_work h
      have hres := State.ctrResult_steps (x := x) (s := s) (p := p) (by rw [State.ctrSteps, hen, hrun, hdue]; rfl)
      rw [counterClose_ctr h]
      rw [← hx] at hzero hmatch ⊢
      rw [hres] at hzero hmatch ⊢
      refine ⟨fun hc => ?_, fun hc => ?_, fun hc ho => ?_, fun hc ho => ?_, fun hm => hmatch ?_⟩
      · rw [ctrStep_down hc]
      · rw [ctrStep_one hc] at hzero ⊢
        exact ⟨rfl, hzero rfl⟩
      · rw [ho, ctrStep_stop hc]
      · rw [ho, ctrStep_reload hc]
      · obtain ⟨hc, hm⟩ | ⟨hc, ho, hm⟩ := hm
        · obtain hc | hc : x.ctr.cnt = 1 ∨ 1 < x.ctr.cnt := by omega
          · rw [ctrStep_one hc]; simp [hm, hc]
          · rw [ctrStep_down hc]; simp [hm]
        · rw [ho, ctrStep_reload hc]; simp [hm]
    · rw [counterClose_ctr h, ← hx, State.ctrResult_stays]
      rw [State.ctrSteps]
      obtain hno | hno | hno := hno <;> simp [hno]
  case arm =>
    intro p s u k l T harm hu hT
    refine ⟨fun hoff => ?_, fun hen hon => ⟨_, congrArg Host.Outcome.next (armPulse_acts harm hen hon), ?_⟩⟩
    · rw [hu]; exact congrArg Host.Outcome.next (armPulse_idle harm hoff)
    rw [← hu]
    have hfn : u.f (PRT_ARMCFG_ARMFN p) = s.f (PRT_ARMCFG_ARMFN p) := by rw [hu, State.modPort_f]
    have hT' : u.pclose p + fc (256 * k) - fc (256 * u.mc) = T := by rw [hT, hu]; rfl
    have hnow : u.pnow p = s.pnow p := by rw [hu]; rfl
    have hwidth : u.f (PRT_ARMW_WIDTH p) = s.f (PRT_ARMW_WIDTH p) := by rw [hu, State.modPort_f]
    refine ⟨fun h => ?_, fun h => ?_, fun h => ?_, fun h => ?_, fun hout n h4 h7 hn hfut => ?_, fun hout n h4 h7 hn hfut => ?_⟩
    · rw [armAct, hfn, h]; rfl
    · rw [armAct, hfn, h]
      refine ctrApply_takes _ _ _ _ fun _ _ c => ?_
      rw [ctrChange]; split <;> rfl
    · rw [armAct, hfn, h]
      exact ctrApply_takes _ _ _ _ fun _ _ _ => rfl
    · rw [armAct, hfn, h]
      exact ctrApply_takes _ _ _ _ fun _ _ _ => rfl
    · rw [armAct_output (by rw [hu]; exact hout) h4 h7 (hfn.trans hn), hT', hwidth, outLater_future (by rw [hnow]; exact hfut)]
    · rw [armAct_output (by rw [hu]; exact hout) h4 h7 (hfn.trans hn), hT', hwidth, outLater_come (by rw [hnow]; exact hfut)]

end Sys2Proof
end

section
/-! Registers of a port, and the protection of its driver (R188, R189, R193, R194, R199, R206, R207, R516). -/

namespace Sys2Proof.Machine

open Sys2Proof Reg

/-! ### Writes that reach the block of the ports -/

theorem softWrite_prt {off part : Nat} {r : Row} {s : State} (hr : s.reaches off) (hrow : rowAt off = some (r, part))
    (hnarrow : r.wide = false) (hblk : off / 0x10000 = 8) (req : Nat) (v : Word) : softWrite req off v s = writePrt req off v s := by
  rw [softWrite_reaches _ _ hr (by rw [wideRw, hrow]; simp [hnarrow])]
  simp [putWord, hblk, hrow]

theorem writePrt_CTRL (req p : Nat) (v : Word) (s : State) : writePrt req (PRT_CTRL p) v s = portCtrl p v.toNat s := by
  have hp : (PRT_CTRL p - 0x80000) / 0x100 = p := by rw [PRT_CTRL]; omega
  simp only [writePrt, hp, if_true]

theorem writePrt_STATUS (req p : Nat) (v : Word) (s : State) : writePrt req (PRT_STATUS p) v s = prtStatus req p v s := by
  have hp : (PRT_STATUS p - 0x80000) / 0x100 = p := by rw [PRT_STATUS]; omega
  have hctrl : PRT_STATUS p ≠ PRT_CTRL p := by rw [PRT_STATUS, PRT_CTRL]; omega
  simp only [writePrt, hp, if_true, hctrl, if_false]

theorem writePrt_CLR (req p : Nat) (v : Word) (s : State) : writePrt req (PRT_CLR p) v s = prtClr p v.toNat s := by
  have hp : (PRT_CLR p - 0x80000) / 0x100 = p := by rw [PRT_CLR]; omega
  have hne : PRT_CLR p ≠ PRT_CTRL p ∧ PRT_CLR p ≠ PRT_STATUS p ∧ PRT_CLR p ≠ PRT_IOCFG p ∧ PRT_CLR p ≠ PRT_INCFG p ∧
      PRT_CLR p ≠ PRT_ARMW p := by
    rw [PRT_CLR, PRT_CTRL, PRT_STATUS, PRT_IOCFG, PRT_INCFG, PRT_ARMW]; omega
  simp [writePrt, hp, hne]

theorem writePrt_CCTRL (req p : Nat) (v : Word) (s : State) : writePrt req (PRT_CCTRL p) v s = prtCctrl req p v s := by
  have hp : (PRT_CCTRL p - 0x80000) / 0x100 = p := by rw [PRT_CCTRL]; omega
  have hne : PRT_CCTRL p ≠ PRT_CTRL p ∧ PRT_CCTRL p ≠ PRT_STATUS p ∧ PRT_CCTRL p ≠ PRT_IOCFG p ∧ PRT_CCTRL p ≠ PRT_INCFG p ∧
      PRT_CCTRL p ≠ PRT_ARMW p ∧ PRT_CCTRL p ≠ PRT_CLR p ∧ PRT_CCTRL p ≠ PRT_COMMIT p := by
    rw [PRT_CCTRL, PRT_CTRL, PRT_STATUS, PRT_IOCFG, PRT_INCFG, PRT_ARMW, PRT_CLR, PRT_COMMIT]; omega
  simp [writePrt, hp, hne]

/-! ### PRT_CTRL (R188, R199) -/

theorem kept_PRT_CTRL (p : Fin 96) (s : State) : s.kept (PRT_CTRL p) = s.reg (PRT_CTRL p) &&& 1#32 := by
  rw [State.kept, rowAt_PRT_CTRL]
  show (s.reg (PRT_CTRL p) &&& 1#32) ||| (s.stg (PRT_CTRL p) &&& 0#32) = _
  simp

/-- A write of a field of PRT_CTRL acts on CLRQ and then on EN. -/
theorem setField_PRT_CTRL {p : Fin 96} {s : State} (hr : s.reaches (PRT_CTRL p)) (req lo w x : Nat) :
    setField req ⟨PRT_CTRL p, lo, w⟩ x s =
      portCtrl p (BitVec.ofNat 32 (setBits (s.reg (PRT_CTRL p) &&& 1#32).toNat lo w x)).toNat s := by
  have hoff : PRT_CTRL p = 0x80000 + 0x100 * p.val := rfl
  rw [setField, softWrite_prt hr (rowAt_PRT_CTRL p) rfl (by omega), writePrt_CTRL, kept_PRT_CTRL]

/-- EN as it is written decides, and CLRQ is not. -/
theorem setField_PRT_CTRL_EN {p : Fin 96} {s : State} (hr : s.reaches (PRT_CTRL p)) (req x : Nat) :
    setField req (PRT_CTRL_EN p) x s = if x.testBit 0 = true then portEnable p s else portDisable p s := by
  rw [PRT_CTRL_EN, setField_PRT_CTRL hr, portCtrl, BitVec.testBit_toNat, BitVec.testBit_toNat, setBits_getLsbD _ (by decide),
    setBits_getLsbD _ (by decide)]
  simp

/-- A write of CLRQ carries EN as it stands. -/
theorem setField_PRT_CTRL_CLRQ {p : Fin 96} {s : State} (hr : s.reaches (PRT_CTRL p)) (req : Nat) :
    setField req (PRT_CTRL_CLRQ p) 1 s = if s.portEn p = true then portEnable p (dropQueue p s) else portDisable p (dropQueue p s) := by
  rw [PRT_CTRL_CLRQ, setField_PRT_CTRL hr, portCtrl, BitVec.testBit_toNat, BitVec.testBit_toNat, setBits_getLsbD _ (by decide),
    setBits_getLsbD _ (by decide), State.portEn, PRT_CTRL_EN, State.flag_eq_getLsbD _ (by decide)]
  simp

theorem portEnable_enabled {p : Nat} {s : State} (h : s.portEn p = true) : portEnable p s = s := if_pos h

theorem portDisable_disabled {p : Nat} {s : State} (h : s.portEn p = false) : portDisable p s = s := if_pos (by simp [h])

/-- The output path leaves the enable of a port. -/
theorem OutputWork.portEn {p : Nat} {s t : State} (h : OutputWork p s t) : t.portEn p = s.portEn p := by
  rw [State.portEn, State.flag, h.1.f (by simp [PRT_CTRL_EN]) (by simp [PRT_CTRL_EN, PRT_CTRL, RIG_STATUS, RIG_DLYINFO, PRT_STATUS]; omega),
    State.portEn, State.flag]

theorem dropQueue_outSettle (p : Nat) (s : State) : ∃ u, u = s.modPort p (fun x => { x with queue := [], pulseEnd := none }) ∧
    dropQueue p s = outSettle p u ∧ OutputWork p u (dropQueue p s) := ⟨_, rfl, rfl, outSettle_outputWork _ _⟩

theorem dropQueue_portEn (p : Nat) (s : State) : (dropQueue p s).portEn p = s.portEn p := by
  obtain ⟨u, rfl, -, hwork⟩ := dropQueue_outSettle p s
  rw [hwork.portEn, State.portEn, State.modPort_flag, State.portEn]

/-- CLRQ discards the queue, and leaves the port enabled or not. -/
theorem setField_CLRQ_drops {p : Fin 96} {s : State} (hr : s.reaches (PRT_CTRL p)) (req : Nat) :
    setField req (PRT_CTRL_CLRQ p) 1 s = dropQueue p s := by
  rw [setField_PRT_CTRL_CLRQ hr]
  have hen := dropQueue_portEn p s
  cases h : s.portEn p <;> rw [h] at hen
  · exact portDisable_disabled hen
  · exact portEnable_enabled hen

theorem State.f_of_regs {s t : State} (h : t.regs = s.regs) (F : Fld) : t.f F = s.f F := by
  simp only [State.f, State.reg64, State.reg, h]

theorem outEdge_regs (p : Nat) (t : Time) (out drv : Bool) (s : State) : (outEdge p t out drv s).regs = s.regs := by
  obtain ⟨l, h | h⟩ := outEdge_eq p t out drv s <;> rw [h]
  · rfl
  · exact rawChange_regs

/-- A port that is brought to its rest level keeps its queue, and no change waits at it (R188). -/
theorem toRest_rests (p : Nat) (t : Time) (s : State) : OnePort p s (toRest p t s) ∧ (toRest p t s).regs = s.regs ∧
    ((toRest p t s).port p).queue = (s.port p).queue ∧ ((toRest p t s).port p).held = none ∧
    ((toRest p t s).port p).out = (s.f (PRT_IOCFG_REST p) == 2) ∧
    ((toRest p t s).port p).drv = ((s.f (PRT_IOCFG_REST p) == 1 || s.f (PRT_IOCFG_REST p) == 2) && s.outMode p) := by
  let u := s.modPort p fun x => { x with held := none, acc := none }
  have hu : u.port p = { s.port p with held := none, acc := none } := State.modPort_port_same _ _ _
  let r := s.f (PRT_IOCFG_REST p)
  have hrest : toRest p t s = outEdge p t (r == 2) ((r == 1 || r == 2) && s.outMode p) u := rfl
  obtain ⟨hwork, hraw, -⟩ := outEdge_work p t (r == 2) ((r == 1 || r == 2) && s.outMode p) u
  rw [hrest]
  refine ⟨(toRest_outputWork p t s).1.1, outEdge_regs _ _ _ _ _, ?_⟩
  rw [hraw, State.edged, hu]
  exact ⟨rfl, rfl, rfl, rfl⟩

theorem setF_onePort (p : Nat) (F : Fld) (v : Nat) (s : State) : OnePort p s (s.setF F v) := by
  refine ⟨?_, fun q _ => State.setF_port s F v q⟩
  rw [State.setF_eq s F v]

/-- The boundary that ends the present cycle is still to come. -/
theorem future_pclose (p : Nat) (s : State) : future (s.pclose p) (s.pnow p) = true := by
  rw [State.pclose, future, show s.pnow p + 256 - s.pnow p = 256#64 by simp [BitVec.add_comm]]
  simp

/-- The port as disabling leaves it before its rest comes. -/
def portEmptied (p : Nat) (s : State) : State :=
  (dropQueue p (s.setF (PRT_CTRL_EN p) 0)).modPort p fun x => { x with pulseEnd := none, later := [], gate := [], arm := [] }

theorem portEmptied_work (p : Nat) (s : State) : OnePort p s (portEmptied p s) ∧ (portEmptied p s).f (PRT_CTRL_EN p) = 0 ∧
    (∃ x : Port, x.queue = [] ∧ (portEmptied p s).port p = { x with pulseEnd := none, later := [], gate := [], arm := [] }) ∧
    ((s.port p).later = [] → (s.port p).acc = none → SameRegs s (portEmptied p s) [PRT_CTRL p]) := by
  have hset := setF_onlyRegs s (PRT_CTRL_EN p) 0 (l := [PRT_CTRL p]) (by simp [PRT_CTRL_EN]) (by simp [PRT_CTRL_EN])
  obtain ⟨u, hu, hdrop, hwork, honly⟩ := dropQueue_outSettle p (s.setF (PRT_CTRL_EN p) 0)
  have hport : u.port p = { s.port p with queue := [], pulseEnd := none } := by
    rw [hu, State.modPort_port_same, State.setF_port]
  have hone : OnePort p s u := by
    rw [hu]; exact (setF_onePort p _ _ s).trans (State.modPort_work _ p [] _).1
  refine ⟨(hone.trans hwork.1).trans (State.modPort_work _ p [] _).1, ?_, ⟨_, ?_, State.modPort_port_same _ _ _⟩, fun hl ha => ?_⟩
  · rw [portEmptied, State.modPort_f, hwork.f (by simp [PRT_CTRL_EN])
      (by simp [PRT_CTRL_EN, PRT_CTRL, RIG_STATUS, RIG_DLYINFO, PRT_STATUS]; omega), hu, State.modPort_f,
      State.setF_f_same _ _ _ (by simp [PRT_CTRL_EN])]
    rfl
  · rw [honly.1, hport]
  · rw [portEmptied, hdrop, outSettle_idle (by rw [hport]; exact hl) (by rw [hport]; exact ha), hu]
    exact hset.2

/-- Disabling empties the port, and its rest comes with the boundary that ends the cycle (R188). -/
theorem portDisable_empties {p : Nat} {s : State} (h : s.portEn p = true) :
    OnePort p s (portDisable p s) ∧ (portDisable p s).f (PRT_CTRL_EN p) = 0 ∧
    ((s.port p).later = [] → (s.port p).acc = none → SameRegs s (portDisable p s) [PRT_CTRL p]) ∧
    ((portDisable p s).port p).queue = [] ∧ ((portDisable p s).port p).pulseEnd = none ∧ ((portDisable p s).port p).gate = [] ∧
    ((portDisable p s).port p).arm = [] ∧ ((portDisable p s).port p).later = [(s.pclose p, LateOut.rest)] := by
  have hdis : portDisable p s = outLater p ((portEmptied p s).pclose p) .rest (portEmptied p s) := if_neg (by simp [h])
  obtain ⟨hone, hen, ⟨x, hqueue, hport⟩, hregs⟩ := portEmptied_work p s
  rw [outLater_future (future_pclose _ _)] at hdis
  generalize portEmptied p s = w at *
  rw [hdis]
  refine ⟨hone.trans (State.modPort_work _ p [] _).1, by rw [State.modPort_f, hen], hregs, ?_⟩
  rw [State.modPort_port_same, State.pclose_congr hone.kln, hport]
  exact ⟨hqueue, rfl, rfl, rfl, rfl⟩

/-- Enabling a port brings it to its rest level at once (R188). -/
theorem portEnable_rests {p : Nat} {s : State} (h : s.portEn p = false) :
    OnePort p s (portEnable p s) ∧ (portEnable p s).f (PRT_CTRL_EN p) = 1 ∧ SameRegs s (portEnable p s) [PRT_CTRL p] ∧
    ((portEnable p s).port p).queue = (s.port p).queue ∧ ((portEnable p s).port p).held = none ∧
    ((portEnable p s).port p).out = (s.f (PRT_IOCFG_REST p) == 2) ∧
    ((portEnable p s).port p).drv = ((s.f (PRT_IOCFG_REST p) == 1 || s.f (PRT_IOCFG_REST p) == 2) && s.outMode p) := by
  let u := s.setF (PRT_CTRL_EN p) 1
  have hset : OnlyRegs s u [PRT_CTRL p] := setF_onlyRegs s (PRT_CTRL_EN p) 1 (by simp [PRT_CTRL_EN]) (by simp [PRT_CTRL_EN])
  have hrest : u.f (PRT_IOCFG_REST p) = s.f (PRT_IOCFG_REST p) :=
    SameRegs.f_eq hset.2 (by simp [PRT_IOCFG_REST]) (by simp [PRT_IOCFG_REST, PRT_IOCFG, PRT_CTRL])
  have hmode : u.outMode p = s.outMode p := by
    rw [State.outMode, SameRegs.f_eq hset.2 (by simp [PRT_IOCFG_MODE]) (by simp [PRT_IOCFG_MODE, PRT_IOCFG, PRT_CTRL]), State.outMode]
  have hon : portEnable p s = toRest p (s.pnow p) u := if_neg (by simp [h])
  obtain ⟨hone, hregs, hqueue, hheld, hout, hdrv⟩ := toRest_rests p (s.pnow p) u
  rw [State.setF_port] at hqueue
  rw [hrest] at hout hdrv
  rw [hmode] at hdrv
  rw [hon]
  refine ⟨(setF_onePort _ _ _ _).trans hone, ?_, fun o ho => ?_, hqueue, hheld, hout, hdrv⟩
  · rw [State.f_of_regs hregs, State.setF_f_same _ _ _ (by simp [PRT_CTRL_EN])]; rfl
  · rw [State.reg, hregs]; exact hset.2 o ho

/-! ### PRT_CLR (R206) -/

theorem OnlyRegs.noted_eq {s t : State} {l : List Nat} (h : OnlyRegs s t l) (F : Fld) : t.noted F = s.noted F := by rw [h.1]; rfl

/-- The two counts of the register at a are cleared where a bit selects them, but for what has come in the present cycle. -/
def clearCounts (b : Bool) (a : Nat) (s : State) : State := if b = true then (s.clearCnt ⟨a, 16, 16⟩).clearCnt ⟨a, 0, 16⟩ else s

theorem clearCounts_clears (b : Bool) (a : Nat) (s : State) : OnlyRegs s (clearCounts b a s) [a] ∧
    ∀ F, F = ⟨a, 16, 16⟩ ∨ F = ⟨a, 0, 16⟩ →
      (clearCounts b a s).f F = if b = true then min (s.noted F) 0xFFFF else s.f F := by
  have hhigh : 16 + 16 ≤ 32 := by decide
  have hlow : 0 + 16 ≤ 32 := by decide
  cases b
  · rw [clearCounts, if_neg Bool.false_ne_true]
    exact ⟨.refl s _, fun F _ => (if_neg Bool.false_ne_true).symm⟩
  · rw [clearCounts, if_pos rfl]
    refine ⟨(clearCnt_onlyRegs s _ hhigh (by simp)).trans (clearCnt_onlyRegs _ _ hlow (by simp)), fun F hF => ?_⟩
    rw [if_pos rfl]
    obtain rfl | rfl := hF
    · rw [State.clearCnt_f_ne _ _ _ hlow hhigh (by simp)]
      exact State.clearCnt_f_same s _ hhigh
    · have hsame := State.clearCnt_f_same (s.clearCnt ⟨a, 16, 16⟩) ⟨a, 0, 16⟩ hlow
      rwa [State.clearCnt_noted] at hsame

/-- The sequence number is cleared where a bit selects it. -/
def clearSeq (b : Bool) (p : Nat) (s : State) : State := if b = true then s.setF (PRT_SEQ_SEQ p) 0 else s

theorem clearSeq_onlyRegs (b : Bool) (p : Nat) (s : State) : OnlyRegs s (clearSeq b p s) [PRT_SEQ p] ∧
    (clearSeq b p s).f (PRT_SEQ_SEQ p) = if b = true then 0 else s.f (PRT_SEQ_SEQ p) := by
  have hF : (PRT_SEQ_SEQ p).lo + (PRT_SEQ_SEQ p).w ≤ 32 := by simp [PRT_SEQ_SEQ]
  unfold clearSeq
  split
  · exact ⟨setF_onlyRegs s _ 0 hF (by simp [PRT_SEQ_SEQ]), (State.setF_f_same s _ 0 hF).trans (Nat.zero_mod _)⟩
  · exact ⟨.refl _ _, rfl⟩

theorem prtClr_eq (p v : Nat) (s : State) : prtClr p v s = clearSeq (v.testBit 3) p (clearCounts (v.testBit 2) (PRT_ERRCNT3 p)
    (clearCounts (v.testBit 1) (PRT_ERRCNT2 p) (clearCounts (v.testBit 0) (PRT_ERRCNT1 p) s))) := rfl

/-- Each register of counts is cleared on its own, and keeps what the other steps make of theirs (R206). -/
theorem prtClr_clears (p v : Nat) (s : State) :
    OnlyRegs s (prtClr p v s) [PRT_ERRCNT1 p, PRT_ERRCNT2 p, PRT_ERRCNT3 p, PRT_SEQ p] ∧
    (∀ F, F = PRT_ERRCNT1_QDROP p ∨ F = PRT_ERRCNT1_LATE p →
      (prtClr p v s).f F = if v.testBit 0 = true then min (s.noted F) 0xFFFF else s.f F) ∧
    (∀ F, F = PRT_ERRCNT2_RETMISS p ∨ F = PRT_ERRCNT2_BAD p →
      (prtClr p v s).f F = if v.testBit 1 = true then min (s.noted F) 0xFFFF else s.f F) ∧
    (∀ F, F = PRT_ERRCNT3_CAPMISS p ∨ F = PRT_ERRCNT3_CAPDROP p →
      (prtClr p v s).f F = if v.testBit 2 = true then min (s.noted F) 0xFFFF else s.f F) ∧
    (prtClr p v s).f (PRT_SEQ_SEQ p) = if v.testBit 3 = true then 0 else s.f (PRT_SEQ_SEQ p) := by
  rw [prtClr_eq]
  obtain ⟨ho1, hf1⟩ := clearCounts_clears (v.testBit 0) (PRT_ERRCNT1 p) s
  generalize clearCounts (v.testBit 0) (PRT_ERRCNT1 p) s = s1 at *
  obtain ⟨ho2, hf2⟩ := clearCounts_clears (v.testBit 1) (PRT_ERRCNT2 p) s1
  generalize clearCounts (v.testBit 1) (PRT_ERRCNT2 p) s1 = s2 at *
  obtain ⟨ho3, hf3⟩ := clearCounts_clears (v.testBit 2) (PRT_ERRCNT3 p) s2
  generalize clearCounts (v.testBit 2) (PRT_ERRCNT3 p) s2 = s3 at *
  obtain ⟨ho4, hf4⟩ := clearSeq_onlyRegs (v.testBit 3) p s3
  have h12 : PRT_ERRCNT1 p ≠ PRT_ERRCNT2 p := by simp [PRT_ERRCNT1, PRT_ERRCNT2]
  have h13 : PRT_ERRCNT1 p ≠ PRT_ERRCNT3 p := by simp [PRT_ERRCNT1, PRT_ERRCNT3]
  have h14 : PRT_ERRCNT1 p ≠ PRT_SEQ p := by simp [PRT_ERRCNT1, PRT_SEQ]
  have h23 : PRT_ERRCNT2 p ≠ PRT_ERRCNT3 p := by simp [PRT_ERRCNT2, PRT_ERRCNT3]
  have h24 : PRT_ERRCNT2 p ≠ PRT_SEQ p := by simp [PRT_ERRCNT2, PRT_SEQ]
  have h34 : PRT_ERRCNT3 p ≠ PRT_SEQ p := by simp [PRT_ERRCNT3, PRT_SEQ]
  have hw : ∀ {a : Nat} {F : Fld}, F = ⟨a, 16, 16⟩ ∨ F = ⟨a, 0, 16⟩ → F.off = a ∧ F.lo + F.w ≤ 32 := by
    rintro a F (rfl | rfl) <;> simp
  refine ⟨?_, fun F hF => ?_, fun F hF => ?_, fun F hF => ?_, ?_⟩
  · exact (((ho1.mono (by simp)).trans (ho2.mono (by simp))).trans (ho3.mono (by simp))).trans (ho4.mono (by simp))
  · obtain ⟨ha, hb⟩ := hw hF
    rw [SameRegs.f_eq ho4.2 hb (by simpa [ha] using h14), SameRegs.f_eq ho3.2 hb (by simpa [ha] using h13),
      SameRegs.f_eq ho2.2 hb (by simpa [ha] using h12), hf1 F hF]
  · obtain ⟨ha, hb⟩ := hw hF
    rw [SameRegs.f_eq ho4.2 hb (by simpa [ha] using h24), SameRegs.f_eq ho3.2 hb (by simpa [ha] using h23), hf2 F hF, ho1.noted_eq,
      SameRegs.f_eq ho1.2 hb (by simpa [ha] using h12.symm)]
  · obtain ⟨ha, hb⟩ := hw hF
    rw [SameRegs.f_eq ho4.2 hb (by simpa [ha] using h34), hf3 F hF, ho2.noted_eq, ho1.noted_eq, SameRegs.f_eq ho2.2 hb (by simpa [ha] using h23.symm),
      SameRegs.f_eq ho1.2 hb (by simpa [ha] using h13.symm)]
  · have hb : (PRT_SEQ_SEQ p).lo + (PRT_SEQ_SEQ p).w ≤ 32 := by simp [PRT_SEQ_SEQ]
    rw [hf4, SameRegs.f_eq ho3.2 hb (by simpa [PRT_SEQ_SEQ] using h34.symm), SameRegs.f_eq ho2.2 hb (by simpa [PRT_SEQ_SEQ] using h24.symm),
      SameRegs.f_eq ho1.2 hb (by simpa [PRT_SEQ_SEQ] using h14.symm)]

/-! ### The counter registers (R193, R194, R207) -/

theorem rowAt_PRT_CNT (i : Fin 96) : rowAt (PRT_CNT i) = some (⟨524424, 256, 96, 1, 1, true, 281474976710655, 0, 0, 0, 0⟩, 0) := by
  revert i; decide
theorem rowAt_PRT_RLD (i : Fin 96) : rowAt (PRT_RLD i) = some (⟨524432, 256, 96, 1, 1, true, 281474976710655, 0, 0, 0, 0⟩, 0) := by
  revert i; decide
theorem rowAt_PRT_CMP (i : Fin 96) :
    rowAt (PRT_CMP i) = some (⟨524440, 256, 96, 1, 1, true, 281474976710655, 0, 0, 0, 281474976710655⟩, 0) := by
  revert i; decide

/-- A 64-bit write that reaches a wide quantity writes it whole. -/
theorem softWrite64_wide {s : State} {off q : Nat} (req : Nat) (v : DWord) (h : s.reaches off) (hw : wideRw off = some q) :
    softWrite64 req off v s = writeWide req q (-1) v s := by
  simp [softWrite64, regWrite64, h.1, h.2, hw]

/-- The value of a whole write is the written one. -/
theorem whole_toNat (b v : DWord) : ((b &&& ~~~(-1)) ||| (v &&& (-1))).toNat = v.toNat := by
  rw [show (-1 : DWord) = BitVec.allOnes 64 from rfl, BitVec.not_allOnes, BitVec.and_zero, BitVec.zero_or, BitVec.and_allOnes]

theorem writeWide_PRT_CNT (req p : Nat) (hp : p < 96) (v : DWord) (s : State) :
    writeWide req (PRT_CNT p) (-1) v s = ctrApply p 1 (.load v.toNat) s := by
  have hoff : PRT_CNT p = 0x80088 + 0x100 * p := rfl
  have hidx : (PRT_CNT p - 0x80000) / 0x100 = p := by omega
  have hblk : PRT_CNT p / 0x10000 = 8 := by omega
  have hset : PRT_CNT p ≠ MST_SET := by rw [MST_SET]; omega
  simp only [writeWide, whole_toNat, if_neg hset, hblk, hidx, if_true]

theorem writeWide_PRT_RLD (req p : Nat) (hp : p < 96) (v : DWord) (s : State) :
    writeWide req (PRT_RLD p) (-1) v s = ctrApply p 1 (.rld v.toNat) s := by
  have hoff : PRT_RLD p = 0x80090 + 0x100 * p := rfl
  have hidx : (PRT_RLD p - 0x80000) / 0x100 = p := by omega
  have hblk : PRT_RLD p / 0x10000 = 8 := by omega
  have hset : PRT_RLD p ≠ MST_SET := by rw [MST_SET]; omega
  have hcnt : PRT_RLD p ≠ PRT_CNT p := by rw [PRT_CNT]; omega
  simp only [writeWide, whole_toNat, if_neg hset, hblk, hidx, if_neg hcnt, if_true]

theorem writeWide_PRT_CMP (req p : Nat) (hp : p < 96) (v : DWord) (s : State) :
    writeWide req (PRT_CMP p) (-1) v s = ctrApply p 1 (.cmp v.toNat) s := by
  have hoff : PRT_CMP p = 0x80098 + 0x100 * p := rfl
  have hidx : (PRT_CMP p - 0x80000) / 0x100 = p := by omega
  have hblk : PRT_CMP p / 0x10000 = 8 := by omega
  have hset : PRT_CMP p ≠ MST_SET := by rw [MST_SET]; omega
  have hcnt : PRT_CMP p ≠ PRT_CNT p := by rw [PRT_CNT]; omega
  have hrld : PRT_CMP p ≠ PRT_RLD p := by rw [PRT_RLD]; omega
  simp only [writeWide, whole_toNat, if_neg hset, hblk, hidx, if_neg hcnt, if_neg hrld]

/-- A write of RUN puts the staged settings of PRT_CCTRL back where they are valid, and starts or stops the counter. -/
theorem setField_PRT_CCTRL_RUN {p : Fin 96} {s : State} (hr : s.reaches (PRT_CCTRL p))
    (hok : cctrlOk p (s.stg (PRT_CCTRL p)).toNat = true) (req : Nat) (on : Bool) :
    ∃ u, ReadsAs s u ∧ setField req (PRT_CCTRL_RUN p) on.toNat s = ctrApply p 1 (.run on) u := by
  let v := BitVec.ofNat 32 (setBits (s.kept (PRT_CCTRL p)).toNat 0 1 on.toNat)
  have hkept : s.kept (PRT_CCTRL p) = (s.reg (PRT_CCTRL p) &&& 1#32) ||| (s.stg (PRT_CCTRL p) &&& 63350#32) := by
    rw [State.kept, rowAt_PRT_CCTRL]; rfl
  have hrun : v.getLsbD 0 = on := (setBits_getLsbD _ (by decide) _ _).trans (by cases on <;> rfl)
  have hmask : ∀ i, i < 32 → (BitVec.ofNat 32 0xF776).getLsbD i = true → i ≠ 0 ∧ (1#32).getLsbD i = false := by decide
  have hstays : ∀ i, i < 32 → (BitVec.ofNat 32 0xF776).getLsbD i = true → v.getLsbD i = (s.stg (PRT_CCTRL p)).getLsbD i := by
    intro i hi hbit
    obtain ⟨h0, h1⟩ := hmask i hi hbit
    rw [setBits_getLsbD _ (by decide), if_neg (by omega), if_neg (by omega), hkept, BitVec.getLsbD_or, BitVec.getLsbD_and,
      BitVec.getLsbD_and, h1, hbit]
    simp
  have hmerge := merge_of_agree hstays
  have hfields : ∀ lo n, (∀ i, i < n → (BitVec.ofNat 32 0xF776).getLsbD (lo + i) = true) →
      bitsOf v.toNat lo n = bitsOf (s.stg (PRT_CCTRL p)).toNat lo n := fun lo n h => by rw [← hmerge, bitsOf_merge _ _ h]
  have hvalid : cctrlOk p v.toNat = true := by
    rw [cctrlOk, hfields 4 3 (by decide), hfields 8 3 (by decide)]; exact hok
  have hoff : PRT_CCTRL p = 0x80000 + 0x80 + 0x100 * p.val := rfl
  refine ⟨s.setStg (PRT_CCTRL p) (merge (s.stg (PRT_CCTRL p)) v 0xF776), readsAs_setStg_self s hmerge, ?_⟩
  have hwrite : setField req (PRT_CCTRL_RUN p) on.toNat s = prtCctrl req p v s :=
    (softWrite_prt hr (rowAt_PRT_CCTRL p) rfl (by omega) req v).trans (writePrt_CCTRL _ _ _ _)
  rw [hwrite, prtCctrl, if_neg (by simp [hvalid]), hrun]

/-! ### The protection of the driver (R189) -/

/-- The pin follows a change of the driver by an edge of the input, or by none. -/
theorem pinFollow_work (p : Nat) (shown : Option Bool) (s : State) : PortWork p [] s (pinFollow p shown s) ∧
    RawOnly s.mc (s.port p) ((pinFollow p shown s).port p) ∧ (pinFollow p shown s).regs = s.regs := by
  unfold pinFollow
  dsimp only
  split
  · exact ⟨(rawChange_work []).1, (rawChange_work []).2, rawChange_regs⟩
  · exact ⟨.refl _ _ _, .refl _ _, rfl⟩

theorem overcurrentOff_idle {p : Nat} {s : State} (h : s.driving p = false) : overcurrentOff p s = s := if_pos (by simp [h])

/-- The driver goes off, and the output stays. -/
theorem overcurrentOff_work {p : Nat} (hp : p < 64) {s : State} (h : s.driving p = true) :
    PortWork p [PRT_STATUS p] s (overcurrentOff p s) ∧ RawOnly s.mc (s.port p) ((overcurrentOff p s).port p) ∧
    (overcurrentOff p s).f (PRT_STATUS_OCP p) = 1 := by
  let u := portFlag p (PRT_STATUS_OCP p) s
  have hflag : FlagOnly [PRT_STATUS p] s u := portFlag_only p (PRT_STATUS_OCP p) s (by simp [PRT_STATUS_OCP])
  have hoff : overcurrentOff p s = pinFollow p (s.pinOf p (s.port p).out (s.port p).drv) u := if_neg (by simp [isField, hp, h])
  obtain ⟨hwork, hraw, hregs⟩ := pinFollow_work p (s.pinOf p (s.port p).out (s.port p).drv) u
  have hmc : u.mc = s.mc := (hflag.onePort p).mc
  rw [hflag.port, hmc] at hraw
  rw [hoff]
  exact ⟨(hflag.portWork p).trans (hwork.mono (by simp)), hraw, (State.f_of_regs hregs _).trans (portFlag_f_same p 21 (by decide) s)⟩

/-- A driver under OCP does not drive. -/
theorem State.driving_of_ocp {s : State} {p : Nat} (h : s.f (PRT_STATUS_OCP p) = 1) : s.driving p = false := by
  simp [State.driving, State.pinOf, State.drives, State.flag, h, pinLevel]

theorem PortWork.driving {p q : Nat} {s t : State} (h : PortWork p [PRT_STATUS p] s t) (hq : q ≠ p) : t.driving q = s.driving q := by
  have hf : ∀ F : Fld, F.lo + F.w ≤ 32 → F.off ∉ [RIG_STATUS, RIG_DLYINFO, PRT_STATUS p] → t.f F = s.f F := fun F h1 h2 => h.f h1 h2
  have hphys : t.phys (portDom q) = s.phys (portDom q) := by
    have hpwr : t.pwr = s.pwr := by rw [h.1.1]
    rw [State.phys, State.phys, hpwr, State.on, State.on,
      hf _ (by decide) (by simp [GLB_PWRSTAT_ON, GLB_PWRSTAT, RIG_STATUS, RIG_DLYINFO, PRT_STATUS]; omega)]
  simp only [State.driving, State.pinOf, State.drives, State.outMode, State.flag, h.1.2 q hq, hphys]
  rw [hf (PRT_IOCFG_MODE q) (by simp [PRT_IOCFG_MODE]) (by simp [PRT_IOCFG_MODE, PRT_IOCFG, RIG_STATUS, RIG_DLYINFO, PRT_STATUS]; omega),
    hf (PRT_IOCFG_INV q) (by simp [PRT_IOCFG_INV]) (by simp [PRT_IOCFG_INV, PRT_IOCFG, RIG_STATUS, RIG_DLYINFO, PRT_STATUS]; omega),
    hf (PRT_STATUS_OCP q) (by simp [PRT_STATUS_OCP]) (by simp [PRT_STATUS_OCP, RIG_STATUS, RIG_DLYINFO, PRT_STATUS, hq]; omega)]

theorem kept_PRT_STATUS (p : Fin 96) (s : State) : s.kept (PRT_STATUS p) = 0 := by
  rw [State.kept, rowAt_PRT_STATUS]
  show (s.reg (PRT_STATUS p) &&& 0#32) ||| (s.stg (PRT_STATUS p) &&& 0#32) = _
  simp

/-- A write of 1 to OCP alone puts PRT_STATUS back, and then clears a set OCP. -/
theorem setField_PRT_STATUS_OCP {p : Fin 96} {s : State} (hr : s.reaches (PRT_STATUS p)) (req : Nat) : ∃ u,
    u = s.setReg (PRT_STATUS p) (s.reg (PRT_STATUS p)) ∧
    setField req (PRT_STATUS_OCP p) 1 s = if u.flag (PRT_STATUS_OCP p) = true then ocpClear p u else u := by
  let v := BitVec.ofNat 32 (setBits (0 : Word).toNat 21 1 1)
  have hnone : v &&& 0xFFDFFFFF = 0 := by decide
  have hgen : genWrite req (PRT_STATUS p) (v &&& 0xFFDFFFFF) false s = s.setReg (PRT_STATUS p) (s.reg (PRT_STATUS p)) := by
    have hall : s.reg (PRT_STATUS p) &&& 0xFFFFFFFF#32 = s.reg (PRT_STATUS p) := BitVec.and_allOnes
    rw [hnone]
    simp [genWrite, rowAt_PRT_STATUS, partOf, hall]
  have hoff : PRT_STATUS p = 0x80004 + 0x100 * p.val := rfl
  refine ⟨_, rfl, ?_⟩
  have hwrite : setField req (PRT_STATUS_OCP p) 1 s = prtStatus req p v s := by
    show softWrite req (PRT_STATUS p) (BitVec.ofNat 32 (setBits (s.kept (PRT_STATUS p)).toNat 21 1 1)) s = _
    rw [kept_PRT_STATUS]
    exact (softWrite_prt hr (rowAt_PRT_STATUS p) rfl (by omega) req v).trans (writePrt_STATUS _ _ _ _)
  rw [hwrite, prtStatus, hgen, show v.getLsbD 21 = true by decide, Bool.true_and]

theorem ocpClear_noted {p : Nat} {s : State} (h : s.noted (PRT_STATUS_OCP p) ≠ 0) : ocpClear p s = s := if_pos h

/-- OCP goes, and the pin follows the driver that resumes (R189). -/
theorem ocpClear_clears {p : Nat} {s : State} (h : s.noted (PRT_STATUS_OCP p) = 0) :
    OnePort p s (ocpClear p s) ∧ SameRegs s (ocpClear p s) [PRT_STATUS p] ∧ (ocpClear p s).f (PRT_STATUS_OCP p) = 0 ∧
    ((ocpClear p s).port p).out = (s.port p).out ∧ ((ocpClear p s).port p).drv = (s.port p).drv := by
  let u := s.setF (PRT_STATUS_OCP p) 0
  have hF : (PRT_STATUS_OCP p).lo + (PRT_STATUS_OCP p).w ≤ 32 := by simp [PRT_STATUS_OCP]
  have hset : OnlyRegs s u [PRT_STATUS p] := setF_onlyRegs s _ 0 hF (by simp [PRT_STATUS_OCP])
  have hclr : ocpClear p s = pinFollow p (s.pinOf p (s.port p).out (s.port p).drv) u := if_neg (by simp [h])
  obtain ⟨hwork, hraw, hregs⟩ := pinFollow_work p (s.pinOf p (s.port p).out (s.port p).drv) u
  have hreg : ∀ o, (pinFollow p (s.pinOf p (s.port p).out (s.port p).drv) u).reg o = u.reg o := fun o => by rw [State.reg, State.reg, hregs]
  rw [hclr]
  refine ⟨(setF_onePort p _ 0 s).trans hwork.1, fun o ho => (hreg o).trans (hset.2 o ho), ?_, ?_, ?_⟩
  · rw [State.f_of_regs hregs, State.setF_f_same _ _ _ hF]; rfl
  · rw [hraw.1, State.setF_port]
  · rw [hraw.1, State.setF_port]

/-! ### Load shedding (R516) -/

/-- From s to t drivers have gone off, and the memory and the engines are as they were. -/
def ShedWork (s t : State) : Prop :=
  t.mem = s.mem ∧ t.engines = s.engines ∧ ∀ q, s.driving q = false → t.driving q = false

theorem ShedWork.refl (s : State) : ShedWork s s := ⟨rfl, rfl, fun _ h => h⟩

theorem ShedWork.trans {s t u : State} (h : ShedWork s t) (k : ShedWork t u) : ShedWork s u :=
  ⟨k.1.trans h.1, k.2.1.trans h.2.1, fun q hq => k.2.2 q (h.2.2 q hq)⟩

theorem overcurrentOff_shed {p : Nat} (hp : p < 64) (s : State) :
    ShedWork s (overcurrentOff p s) ∧ (overcurrentOff p s).driving p = false := by
  cases h : s.driving p
  · rw [overcurrentOff_idle h]
    exact ⟨.refl s, h⟩
  · obtain ⟨hwork, -, hocp⟩ := overcurrentOff_work hp h
    have hoff := State.driving_of_ocp hocp
    refine ⟨⟨hwork.1.mem, hwork.1.engines, fun q hq => ?_⟩, hoff⟩
    by_cases hqp : q = p
    · rw [hqp]; exact hoff
    · rw [hwork.driving hqp]; exact hq

theorem shedHot_work (l : List (Fin 64)) (s : State) :
    ShedWork s ((l.map Fin.val).foldl (fun s p => overcurrentOff p s) s) ∧
    ∀ p ∈ l, ((l.map Fin.val).foldl (fun s p => overcurrentOff p s) s).driving p = false := by
  induction l generalizing s with
  | nil => exact ⟨.refl s, fun p hp => absurd hp (by simp)⟩
  | cons a l ih =>
    obtain ⟨hshed, hoff⟩ := overcurrentOff_shed a.isLt s
    obtain ⟨hrest, hall⟩ := ih (overcurrentOff a s)
    refine ⟨hshed.trans hrest, fun p hp => ?_⟩
    obtain rfl | hp := List.mem_cons.1 hp
    · exact hrest.2.2 _ hoff
    · exact hall p hp

theorem State.topDriver_lt {s : State} {p : Nat} (h : s.topDriver = some p) : p < 64 := by
  have := List.mem_of_getLast? h
  exact List.mem_range.1 (List.mem_filter.1 this).1

/-- The driving port above which none drives is the highest one. -/
theorem State.topDriver_eq {s : State} {q : Nat} (hlt : q < 64) (hq : s.driving q = true)
    (habove : ∀ k, q < k → k < 64 → s.driving k = false) : s.topDriver = some q := by
  have hsplit : List.range 64 = List.range q ++ q :: (List.range (63 - q)).map (q + 1 + ·) := by
    rw [show 64 = (q + 1) + (63 - q) by omega, List.range_add, List.range_succ, List.append_assoc]
    simp
  have hnone : ((List.range (63 - q)).map (q + 1 + ·)).filter s.driving = [] := by
    refine List.filter_eq_nil_iff.2 fun k hk => ?_
    obtain ⟨i, hi, rfl⟩ := List.mem_map.1 hk
    have := List.mem_range.1 hi
    simp [habove (q + 1 + i) (by omega) (by omega)]
  rw [State.topDriver, hsplit, List.filter_append, List.filter_cons_of_pos hq, hnone, List.getLast?_concat]

theorem shedTop_work (n : Nat) (s : State) : ShedWork s (shedTop n s) := by
  induction n generalizing s with
  | zero => exact .refl s
  | succ n ih =>
    rw [shedTop]
    split
    case h_1 p hp => exact (overcurrentOff_shed (State.topDriver_lt hp) s).1.trans (ih _)
    case h_2 => exact ih s

end Sys2Proof.Machine

namespace Sys2Proof

open Machine Reg

/-- Settles O34: each command is the write of one register of the port; what it does to the output goes by way of the rest level and of
what waits, and the protection of a driver acts by OCP alone. -/
theorem portRegistersAndDrivers : Obligations.PortRegistersAndDrivers := by
  refine ⟨?ctrl, ?clr, ?counter, ?run, ?overcurrent, ?ocpClear, ?shed, fun _ _ => rfl⟩
  case ctrl =>
    intro req p s hr
    have henable : exec (.portEnable req p) s = .next (portEnable p s) := congrArg Host.Outcome.next (setField_PRT_CTRL_EN hr req 1)
    have hdisable : exec (.portDisable req p) s = .next (portDisable p s) := congrArg Host.Outcome.next (setField_PRT_CTRL_EN hr req 0)
    exact ⟨fun hen => by rw [henable, portEnable_enabled hen],
      fun hen => ⟨by rw [hdisable, portDisable_disabled hen], _, henable, portEnable_rests hen⟩,
      fun hen => ⟨_, hdisable, portDisable_empties hen⟩, congrArg Host.Outcome.next (setField_CLRQ_drops hr req)⟩
  case clr =>
    intro req p val s hr
    have hoff : PRT_CLR p = 0x80034 + 0x100 * p.val := rfl
    have hexec : exec (.prtClr req p val) s = .next (prtClr p val.toNat s) := congrArg Host.Outcome.next
      ((softWrite_prt hr (rowAt_PRT_CLR p) rfl (by omega) req val).trans (writePrt_CLR _ _ _ _))
    obtain ⟨hregs, h1, h2, h3, hseq⟩ := prtClr_clears p val.toNat s
    exact ⟨_, hexec, hregs, h1 _ (.inl rfl), h1 _ (.inr rfl), h2 _ (.inl rfl), h2 _ (.inr rfl), h3 _ (.inr rfl), h3 _ (.inl rfl), hseq⟩
  case counter =>
    intro req p val s
    refine ⟨fun hr => ⟨_, congrArg Host.Outcome.next
        ((softWrite64_wide req val hr (by rw [wideRw, rowAt_PRT_CNT]; rfl)).trans (writeWide_PRT_CNT _ _ p.isLt _ _)), ?_⟩,
      fun hr => ⟨_, congrArg Host.Outcome.next
        ((softWrite64_wide req val hr (by rw [wideRw, rowAt_PRT_RLD]; rfl)).trans (writeWide_PRT_RLD _ _ p.isLt _ _)), ?_⟩,
      fun hr => ⟨_, congrArg Host.Outcome.next
        ((softWrite64_wide req val hr (by rw [wideRw, rowAt_PRT_CMP]; rfl)).trans (writeWide_PRT_CMP _ _ p.isLt _ _)), ?_⟩⟩
    all_goals exact ctrApply_takes _ _ _ _ fun _ _ _ => rfl
  case run =>
    intro req p on s hr hok
    obtain ⟨u, hreads, hrun⟩ := setField_PRT_CCTRL_RUN hr hok req on
    refine ⟨u, _, hreads, congrArg Host.Outcome.next hrun, ctrApply_takes _ _ _ _ fun _ _ c => ?_⟩
    rw [ctrChange]
    split
    case isTrue h => rw [(Bool.and_eq_true_iff.1 h).1]
    case isFalse => rfl
  case overcurrent =>
    intro p s
    refine ⟨fun h => ?_, fun h => congrArg Host.Outcome.next (overcurrentOff_idle h)⟩
    obtain ⟨hwork, hraw, hocp⟩ := overcurrentOff_work p.isLt h
    exact ⟨_, rfl, hocp, State.driving_of_ocp hocp, by rw [hraw.1], by rw [hraw.1], hwork.1⟩
  case ocpClear =>
    intro req p s hr
    obtain ⟨u, hu, hwrite⟩ := setField_PRT_STATUS_OCP (p := ⟨p, by omega⟩) hr req
    have hreads : ReadsAs s u := hu ▸ readsAs_setReg_self s rfl
    have hnoted : u.noted (PRT_STATUS_OCP p) = s.noted (PRT_STATUS_OCP p) := by rw [hu]; rfl
    have hports : u.ports = s.ports := by rw [hu]; rfl
    have hport : u.port p = s.port p := by rw [State.port, hports]; rfl
    have hsame : SameRegs s u [PRT_STATUS p] := fun o _ => hreads.2.1 o
    refine ⟨u, _, hreads, congrArg Host.Outcome.next hwrite, ?_⟩
    cases hocp : u.flag (PRT_STATUS_OCP p)
    · have hzero : u.f (PRT_STATUS_OCP p) = 0 := by rw [State.f_eq_flag _ rfl, hocp]; rfl
      rw [if_neg Bool.false_ne_true]
      exact ⟨.refl _ _, hsame, fun _ => ⟨hzero, by rw [hport], by rw [hport]⟩, fun _ => ⟨hreads.f _, hports⟩⟩
    · rw [if_pos rfl]
      by_cases hn : u.noted (PRT_STATUS_OCP p) = 0
      · obtain ⟨hone, hregs, hclear, hout, hdrv⟩ := ocpClear_clears hn
        refine ⟨hone, SameRegs.trans hsame hregs, fun _ => ⟨hclear, by rw [hout, hport], by rw [hdrv, hport]⟩, fun h => ?_⟩
        exact absurd (hnoted.symm.trans hn) h
      · rw [ocpClear_noted hn]
        exact ⟨.refl _ _, hsame, fun h => absurd (hnoted.trans h) hn, fun _ => ⟨hreads.f _, hports⟩⟩
  case shed =>
    intro hot more s
    obtain ⟨hhot, hoff⟩ := shedHot_work hot s
    have htop := shedTop_work more ((hot.map Fin.val).foldl (fun s p => overcurrentOff p s) s)
    obtain ⟨hmem, heng, hshed⟩ := hhot.trans htop
    refine ⟨_, rfl, fun p hp => htop.2.2 _ (hoff p hp), hshed, hmem, heng, ?_, ?_⟩
    · rintro rfl rfl; rfl
    · rintro rfl rfl q hq habove
      have hlast : s.topDriver = some q.val := State.topDriver_eq q.isLt hq fun k hk hlt => habove ⟨k, hlt⟩ hk
      refine congrArg Host.Outcome.next ?_
      show (match s.topDriver with | some p => overcurrentOff p s | none => s) = overcurrentOff q s
      rw [hlast]

end Sys2Proof
end

section
/-! What the operations of a wheel tracker leave as it is (R211 to R247). -/

namespace Sys2Proof.Machine

open Sys2Proof Reg

/-! ### The fields of a tracker -/

/-- The fields that the operations of a tracker write, apart from its slots and its quantities of 64 bits; a flag by its bit of
WHL_FLAGS. -/
inductive TrkFld
  | en | state | cause | learning | reverse | estvalid | flag (i : Fin 12) | rej | loss | drop | seq | angle | phase | phdiff | phidx
  | cyccnt

namespace TrkFld

abbrev syncgain : TrkFld := .flag 0
abbrev syncloss : TrkFld := .flag 1
abbrev stalled : TrkFld := .flag 2
abbrev reversed : TrkFld := .flag 3
abbrev accel : TrkFld := .flag 4
abbrev reject : TrkFld := .flag 5
abbrev overspeed : TrkFld := .flag 6
abbrev skip : TrkFld := .flag 7
abbrev dropped : TrkFld := .flag 8
abbrev ttecc : TrkFld := .flag 9
abbrev slotrange : TrkFld := .flag 11

/-- The register field of tracker w. -/
def fld (w : Nat) : TrkFld → Fld
  | en => WHL_CTRL_EN w
  | state => WHL_STATUS_STATE w
  | cause => WHL_STATUS_CAUSE w
  | learning => WHL_STATUS_LEARNING w
  | reverse => WHL_STATUS_REVERSE w
  | estvalid => WHL_STATUS_ESTVALID w
  | flag i => ⟨WHL_FLAGS w, i, 1⟩
  | rej => WHL_ERRCNT_REJ w
  | loss => WHL_ERRCNT_LOSS w
  | drop => WHL_ERRCNT_DROP w
  | seq => WHL_SEQ_SEQ w
  | angle => WHL_ANGLE_ANGLE w
  | phase => WHL_PHASE_PHASE w
  | phdiff => WHL_PHDIFF_DIFF w
  | phidx => WHL_PHIDX_J w
  | cyccnt => WHL_CYCCNT_COUNT w

theorem narrow (w : Nat) (a : TrkFld) : (a.fld w).lo + (a.fld w).w ≤ 32 := by
  cases a with
  | flag i => have := i.isLt; show i.val + 1 ≤ 32; omega
  | _ => exact Nat.le_of_ble_eq_true rfl

end TrkFld

/-- No bit of the register map belongs to both fields. -/
def Apart (G F : Fld) : Prop := G.off ≠ F.off ∨ G.lo + G.w ≤ F.lo ∨ F.lo + F.w ≤ G.lo

theorem TrkFld.fld_off (w : Nat) (a : TrkFld) : ∃ c, (a.fld w).off = c + 0x1000 * w ∧ c < 0x50088 := by
  cases a <;> exact ⟨_, rfl, by decide⟩

theorem TrkFld.apart (w : Nat) {a b : TrkFld} (h : a ≠ b) : Apart (a.fld w) (b.fld w) := by
  cases a <;> cases b <;>
    simp [Apart, fld, WHL_CTRL_EN, WHL_CTRL, WHL_STATUS_STATE, WHL_STATUS_CAUSE, WHL_STATUS_LEARNING, WHL_STATUS_REVERSE,
      WHL_STATUS_ESTVALID, WHL_STATUS, WHL_FLAGS, WHL_ERRCNT_REJ, WHL_ERRCNT_LOSS, WHL_ERRCNT_DROP, WHL_ERRCNT, WHL_SEQ_SEQ, WHL_SEQ,
      WHL_ANGLE_ANGLE, WHL_ANGLE, WHL_PHASE_PHASE, WHL_PHASE, WHL_PHDIFF_DIFF, WHL_PHDIFF, WHL_PHIDX_J, WHL_PHIDX,
      WHL_CYCCNT_COUNT, WHL_CYCCNT] at h ⊢
  omega

/-! ### Frames -/

/-- A narrow field that no operation of tracker w writes, of the slots only those of J. -/
def Outside (w : Nat) (J : Nat → Prop) (G : Fld) : Prop :=
  G.lo + G.w ≤ 32 ∧ G.off ∉ [RIG_STATUS, RIG_DLYINFO, GLB_OWNERR, SAG_STATUS, SAG_ECC 6, SAG_ECCADDR 6, SAG_ECCINJ] ∧
  ¬(WHL_CTRL w ≤ G.off ∧ G.off < WHL_CFG w) ∧ G.off ≠ WHL_ERRCNT w ∧ ¬(WHL_SEQ w ≤ G.off ∧ G.off < WHL_CYCT w + 8) ∧
  ∀ j, J j → G.off ≠ WHL_EVSTAT w j ∧ (G.off ≠ WHL_EVCFG w j ∨ 1 ≤ G.lo)

/-- What an operation of tracker w on its slots in J leaves, where it writes the fields N: the time, the registers that are not its own,
its other fields, the other slots, a SKIP that is set, and the records that have been handed over. -/
structure TrackerFrame (w : Nat) (J : Nat → Prop) (N : List TrkFld) (s t : State) : Prop where
  kln : t.kln = s.kln
  sendq : s.sendq <+: t.sendq
  fld : ∀ a, a ∉ N → t.f (a.fld w) = s.f (a.fld w)
  skip : s.f (WHL_FLAGS_SKIP w) = 1 → t.f (WHL_FLAGS_SKIP w) = 1
  other : ∀ G, Outside w J G → t.f G = s.f G
  slot : ∀ j, ¬J j → (t.wheel w).slot j = (s.wheel w).slot j

/-- Such an operation that leaves the tooth table as it is. -/
structure TrackerWork (w : Nat) (J : Nat → Prop) (N : List TrkFld) (s t : State) : Prop extends TrackerFrame w J N s t where
  mem : t.mem = s.mem
  upset : t.upset = s.upset

/-- A tracker apart from its slots and the capture records that wait. -/
def Tracker.bare (x : Tracker) : Tracker := { x with slots := [], recs := [] }

/-- Tracker w apart from its slots and the capture records that wait. -/
def State.trk (s : State) (w : Nat) : Tracker := (s.wheel w).bare

/-- Such an operation that also leaves the tracker, apart from the slots in J and its records. -/
structure SlotWork (w : Nat) (J : Nat → Prop) (N : List TrkFld) (s t : State) : Prop extends TrackerWork w J N s t where
  trk : t.trk w = s.trk w

section
variable {w : Nat} {J J' : Nat → Prop} {N N' : List TrkFld} {s t u : State}

theorem Outside.mono {G : Fld} (h : Outside w J G) (hJ : ∀ j, J' j → J j) : Outside w J' G := by
  obtain ⟨h1, h2, h3, h4, h5, h6⟩ := h
  exact ⟨h1, h2, h3, h4, h5, fun j hj => h6 j (hJ j hj)⟩

theorem TrackerFrame.refl (w : Nat) (J : Nat → Prop) (N : List TrkFld) (s : State) : TrackerFrame w J N s s :=
  ⟨rfl, List.prefix_rfl, fun _ _ => rfl, id, fun _ _ => rfl, fun _ _ => rfl⟩

theorem TrackerFrame.trans (h : TrackerFrame w J N s t) (k : TrackerFrame w J N t u) : TrackerFrame w J N s u where
  kln := k.kln.trans h.kln
  sendq := h.sendq.trans k.sendq
  fld a ha := (k.fld a ha).trans (h.fld a ha)
  skip hs := k.skip (h.skip hs)
  other G hG := (k.other G hG).trans (h.other G hG)
  slot j hj := (k.slot j hj).trans (h.slot j hj)

theorem TrackerFrame.mono (h : TrackerFrame w J N s t) (hJ : ∀ j, J j → J' j) (hN : N ⊆ N') : TrackerFrame w J' N' s t where
  kln := h.kln
  sendq := h.sendq
  fld a ha := h.fld a (fun hm => ha (hN hm))
  skip := h.skip
  other G hG := h.other G (hG.mono hJ)
  slot j hj := h.slot j (fun hm => hj (hJ j hm))

theorem TrackerWork.refl (w : Nat) (J : Nat → Prop) (N : List TrkFld) (s : State) : TrackerWork w J N s s :=
  ⟨.refl w J N s, rfl, rfl⟩

theorem TrackerWork.trans (h : TrackerWork w J N s t) (k : TrackerWork w J N t u) : TrackerWork w J N s u :=
  ⟨h.toTrackerFrame.trans k.toTrackerFrame, k.mem.trans h.mem, k.upset.trans h.upset⟩

theorem TrackerWork.mono (h : TrackerWork w J N s t) (hJ : ∀ j, J j → J' j) (hN : N ⊆ N') : TrackerWork w J' N' s t :=
  ⟨h.toTrackerFrame.mono hJ hN, h.mem, h.upset⟩

theorem SlotWork.refl (w : Nat) (J : Nat → Prop) (N : List TrkFld) (s : State) : SlotWork w J N s s := ⟨.refl w J N s, rfl⟩

theorem SlotWork.trans (h : SlotWork w J N s t) (k : SlotWork w J N t u) : SlotWork w J N s u :=
  ⟨h.toTrackerWork.trans k.toTrackerWork, k.trk.trans h.trk⟩

theorem SlotWork.mono (h : SlotWork w J N s t) (hJ : ∀ j, J j → J' j) (hN : N ⊆ N') : SlotWork w J' N' s t :=
  ⟨h.toTrackerWork.mono hJ hN, h.trk⟩

/-- An operation of no slot is one of any, and so for the fields. -/
theorem SlotWork.widen (h : SlotWork w (fun _ => False) N s t) (J : Nat → Prop) (hN : N ⊆ N') : SlotWork w J N' s t :=
  h.mono (fun _ hj => hj.elim) hN

end

/-! ### Registers -/

theorem TrkFld.outside_apart {w : Nat} {J : Nat → Prop} {G : Fld} (h : Outside w J G) (a : TrkFld) : Apart G (a.fld w) := by
  obtain ⟨-, -, hctrl, herr, hseq, -⟩ := h
  refine .inl fun he => ?_
  rw [he] at hctrl herr hseq
  cases a <;>
    simp [fld, WHL_CTRL_EN, WHL_CTRL, WHL_CFG, WHL_CYCT, WHL_STATUS_STATE, WHL_STATUS_CAUSE, WHL_STATUS_LEARNING, WHL_STATUS_REVERSE,
      WHL_STATUS_ESTVALID, WHL_STATUS, WHL_FLAGS, WHL_ERRCNT_REJ, WHL_ERRCNT_LOSS, WHL_ERRCNT_DROP, WHL_ERRCNT, WHL_SEQ_SEQ, WHL_SEQ,
      WHL_ANGLE_ANGLE, WHL_ANGLE, WHL_PHASE_PHASE, WHL_PHASE, WHL_PHDIFF_DIFF, WHL_PHDIFF, WHL_PHIDX_J, WHL_PHIDX,
      WHL_CYCCNT_COUNT, WHL_CYCCNT] at hctrl herr hseq <;> omega

/-- What else a device holds leaves a tracker as it is: a change outside these parts is no more than what it does to the fields. -/
theorem slotWork_of_fields {w : Nat} {J : Nat → Prop} {N : List TrkFld} {s t : State}
    (ht : t.kln = s.kln ∧ t.sendq = s.sendq ∧ t.mem = s.mem ∧ t.upset = s.upset ∧ t.wheels = s.wheels)
    (hfld : ∀ a, a ∉ N → t.f (a.fld w) = s.f (a.fld w)) (hskip : s.f (WHL_FLAGS_SKIP w) = 1 → t.f (WHL_FLAGS_SKIP w) = 1)
    (hother : ∀ G, Outside w J G → t.f G = s.f G) : SlotWork w J N s t := by
  obtain ⟨hkln, hsendq, hmem, hupset, hwheels⟩ := ht
  have hwheel : t.wheel w = s.wheel w := by rw [State.wheel, hwheels, State.wheel]
  exact { kln := hkln, sendq := by rw [hsendq], fld := hfld, skip := hskip, other := hother, mem := hmem, upset := hupset
          slot := fun j _ => by rw [hwheel], trk := by rw [State.trk, hwheel, State.trk] }

theorem State.setF_fld_ne (s : State) (w : Nat) {a b : TrkFld} (h : a ≠ b) (v : Nat) :
    (s.setF (b.fld w) v).f (a.fld w) = s.f (a.fld w) :=
  State.setF_f_ne _ _ _ _ (b.narrow w) (a.narrow w) (TrkFld.apart w h)

theorem State.setF_fld_same (s : State) (w : Nat) (a : TrkFld) (v : Nat) :
    (s.setF (a.fld w) v).f (a.fld w) = v % 2 ^ (a.fld w).w := State.setF_f_same _ _ _ (a.narrow w)

theorem setF_fld_work (w : Nat) (J : Nat → Prop) (a : TrkFld) {v : Nat} (hv : a = .skip → v = 1) (s : State) :
    SlotWork w J [a] s (s.setF (a.fld w) v) := by
  refine slotWork_of_fields (by simp) (fun b hb => State.setF_fld_ne _ _ (by simpa using hb) _) (fun hs => ?_) fun G hG =>
    State.setF_f_ne _ _ _ _ (a.narrow w) hG.1 (TrkFld.outside_apart hG a)
  by_cases h : a = .skip
  · rw [h, hv h]; exact State.setF_fld_same s w .skip 1
  · exact (State.setF_fld_ne s w (a := .skip) (fun e => h e.symm) v).trans hs

theorem note_work (w : Nat) (J : Nat → Prop) (N : List TrkFld) (F : Fld) (s : State) : SlotWork w J N s (s.note F) :=
  slotWork_of_fields ⟨rfl, rfl, rfl, rfl, rfl⟩ (fun _ _ => rfl) id fun _ _ => rfl

theorem raise_fld_work (w : Nat) (J : Nat → Prop) (a : TrkFld) (s : State) : SlotWork w J [a] s (s.raise (a.fld w)) :=
  (setF_fld_work w J a (fun _ => rfl) s).trans (note_work w J _ _ _)

theorem bump_fld_work (w : Nat) (J : Nat → Prop) (a : TrkFld) (ha : a ≠ .skip) (s : State) : SlotWork w J [a] s (s.bump (a.fld w)) :=
  (setF_fld_work w J a (fun h => absurd h ha) s).trans (note_work w J _ _ _)

theorem TrkFld.off_ge (w : Nat) (a : TrkFld) : 0x50000 ≤ (a.fld w).off := by
  cases a <;> exact Nat.le_add_right_of_le (by decide)

/-- A change of registers that are neither a tracker's own nor outside what it may change. -/
theorem slotWork_of_sameRegs {w : Nat} {N : List TrkFld} {s t : State} {l : List Nat}
    (ht : t.kln = s.kln ∧ t.sendq = s.sendq ∧ t.mem = s.mem ∧ t.upset = s.upset ∧ t.wheels = s.wheels) (h : SameRegs s t l)
    (hl : l ⊆ [RIG_STATUS, RIG_DLYINFO, GLB_OWNERR, SAG_STATUS, SAG_ECC 6, SAG_ECCADDR 6, SAG_ECCINJ]) (J : Nat → Prop) :
    SlotWork w J N s t := by
  have hfar {F : Fld} (hF : F.lo + F.w ≤ 32) (hoff : 0x50000 ≤ F.off) : t.f F = s.f F := SameRegs.f_eq h hF fun hm => by
    have hm := hl hm
    simp [RIG_STATUS, RIG_DLYINFO, GLB_OWNERR, SAG_STATUS, SAG_ECC, SAG_ECCADDR, SAG_ECCINJ] at hm
    omega
  exact slotWork_of_fields ht (fun a _ => hfar (a.narrow w) (a.off_ge w)) (fun hs => (hfar (TrkFld.skip.narrow w) (TrkFld.skip.off_ge w)).trans hs)
    fun G hG => SameRegs.f_eq h hG.1 fun hm => hG.2.1 (hl hm)

theorem whlPulse_work (w k : Nat) (J : Nat → Prop) (N : List TrkFld) (s : State) : SlotWork w J N s (whlPulse w k s) := by
  obtain ⟨hframe, hregs⟩ := pulse_only (0x1C0 + 8 * w + k) s
  exact slotWork_of_sameRegs (s := s) (t := pulse (0x1C0 + 8 * w + k) s) (by rw [hframe]; exact ⟨rfl, rfl, rfl, rfl, rfl⟩) hregs
    (by simp) J

/-- A quantity of 64 bits that shows where a tracker is. -/
theorem setF_wide_work {w a : Nat} (ha : a = WHL_LASTT w ∨ a = WHL_TPT w ∨ a = WHL_SLOPE w ∨ a = WHL_CYCT w) (J : Nat → Prop)
    (N : List TrkFld) (v : Nat) (s : State) : SlotWork w J N s (s.setF ⟨a, 0, 64⟩ v) := by
  have hregs := (State.setF_wide_onlyRegs s (a := a) v).2
  have hfld : ∀ b : TrkFld, (s.setF ⟨a, 0, 64⟩ v).f (b.fld w) = s.f (b.fld w) := fun b => by
    refine SameRegs.f_eq hregs (b.narrow w) fun hm => ?_
    cases b <;>
      simp [TrkFld.fld, WHL_LASTT, WHL_TPT, WHL_SLOPE, WHL_CYCT, WHL_CTRL_EN, WHL_CTRL, WHL_STATUS_STATE, WHL_STATUS_CAUSE,
        WHL_STATUS_LEARNING, WHL_STATUS_REVERSE, WHL_STATUS_ESTVALID, WHL_STATUS, WHL_FLAGS, WHL_ERRCNT_REJ, WHL_ERRCNT_LOSS,
        WHL_ERRCNT_DROP, WHL_ERRCNT, WHL_SEQ_SEQ, WHL_SEQ, WHL_ANGLE_ANGLE, WHL_ANGLE, WHL_PHASE_PHASE, WHL_PHASE, WHL_PHDIFF_DIFF,
        WHL_PHDIFF, WHL_PHIDX_J, WHL_PHIDX, WHL_CYCCNT_COUNT, WHL_CYCCNT] at ha hm <;> omega
  refine slotWork_of_fields (by simp) (fun b _ => hfld b) (fun hs => (hfld .skip).trans hs) fun G hG => ?_
  obtain ⟨hnarrow, -, -, -, hseq, -⟩ := hG
  refine SameRegs.f_eq hregs hnarrow fun hm => ?_
  simp only [WHL_LASTT, WHL_TPT, WHL_SLOPE, WHL_CYCT, WHL_SEQ, List.mem_cons, List.not_mem_nil, or_false] at ha hm hseq
  omega

/-! ### The tracker itself -/

theorem modWheel_work (w : Nat) (J : Nat → Prop) (N : List TrkFld) {f : Tracker → Tracker} (hf : ∀ x, (f x).slots = x.slots)
    (s : State) : TrackerWork w J N s (s.modWheel w f) :=
  { kln := rfl, sendq := List.prefix_rfl, fld := fun _ _ => rfl, skip := id, other := fun _ _ => rfl, mem := rfl, upset := rfl
    slot := fun j _ => by rw [State.modWheel_wheel_same, Tracker.slot, hf, Tracker.slot] }

theorem modWheel_trk (w : Nat) (f : Tracker → Tracker) (s : State) : (s.modWheel w f).trk w = (f (s.wheel w)).bare := by
  rw [State.trk, State.modWheel_wheel_same]

theorem whlDrop_work (w : Nat) (J : Nat → Prop) (s : State) : SlotWork w J [.drop, .dropped] s (whlDrop w s) :=
  ((bump_fld_work w J .drop (by simp) s).mono (fun _ => id) (by simp)).trans
    ((raise_fld_work w J .dropped _).mono (fun _ => id) (by simp))

/-- The fields that a record of a tracker may change. -/
abbrev recFlds : List TrkFld := [.seq, .drop, .dropped]

theorem whlRec_work (w ty : Nat) (t : Time) (port : Nat) (edge : Bool) (aux : Nat) (J : Nat → Prop) (s : State) :
    SlotWork w J recFlds s (whlRec w ty t port edge aux s) := by
  unfold whlRec
  extract_lets on r u
  have hu : SlotWork w J recFlds s u := (setF_fld_work w J .seq (by simp) s).mono (fun _ => id) (by simp)
  split
  · exact .refl w J _ s
  · split
    · exact hu.trans ⟨modWheel_work w J _ (f := fun x => { x with recs := x.recs ++ [r] }) (fun _ => rfl) u, modWheel_trk w _ u⟩
    · exact hu.trans ((whlDrop_work w J u).mono (fun _ => id) (by simp))

end Sys2Proof.Machine
end

section
namespace Sys2Proof.Machine

open Sys2Proof Reg

/-! ### Configuration -/

section
variable {w : Nat} {J : Nat → Prop} {N : List TrkFld} {s t : State}

/-- The fields of the registers WHL_CFG to WHL_VRCFG are no part of what a tracker writes. -/
theorem outside_cfg (w : Nat) (J : Nat → Prop) {G : Fld} (hG : G.lo + G.w ≤ 32) (h : WHL_CFG w ≤ G.off ∧ G.off ≤ WHL_VRCFG w) :
    Outside w J G := by
  simp only [WHL_CFG, WHL_VRCFG] at h
  refine ⟨hG, ?_, ?_, ?_, ?_, fun j _ => ?_⟩ <;>
    simp [RIG_STATUS, RIG_DLYINFO, GLB_OWNERR, SAG_STATUS, SAG_ECC, SAG_ECCADDR, SAG_ECCINJ, WHL_CTRL, WHL_CFG, WHL_ERRCNT, WHL_SEQ,
      WHL_CYCT, WHL_EVSTAT, WHL_EVCFG] <;> omega

theorem outside_low (w : Nat) (J : Nat → Prop) {G : Fld} (hG : G.lo + G.w ≤ 32) (h : G.off < 0x50000)
    (hn : G.off ∉ [RIG_STATUS, RIG_DLYINFO, GLB_OWNERR, SAG_STATUS, SAG_ECC 6, SAG_ECCADDR 6, SAG_ECCINJ]) : Outside w J G := by
  refine ⟨hG, hn, ?_, ?_, ?_, fun j _ => ?_⟩ <;>
    simp [WHL_CTRL, WHL_CFG, WHL_ERRCNT, WHL_SEQ, WHL_CYCT, WHL_EVSTAT, WHL_EVCFG] <;> omega

/-- The status of a slot is outside what an operation of other slots writes. -/
theorem outside_evstat {k : Nat} (hJ : ∀ j, J j → j < 64 ∧ j ≠ k) {G : Fld} (hG : G.lo + G.w ≤ 32) (h : G.off = WHL_EVSTAT w k) :
    Outside w J G := by
  simp only [WHL_EVSTAT] at h
  refine ⟨hG, ?_, ?_, ?_, ?_, fun j hj => ?_⟩
  all_goals
    simp [RIG_STATUS, RIG_DLYINFO, GLB_OWNERR, SAG_STATUS, SAG_ECC, SAG_ECCADDR, SAG_ECCINJ, WHL_CTRL, WHL_CFG, WHL_ERRCNT, WHL_SEQ,
      WHL_CYCT, WHL_EVSTAT, WHL_EVCFG]
  case refine_5 => have := hJ j hj; omega
  all_goals omega

/-- The values of a slot are outside what an operation of other slots writes. -/
theorem outside_evcfg {k : Nat} (hk : k < 64) (hJ : ∀ j, J j → j < 64 ∧ j ≠ k) {G : Fld} (hG : G.lo + G.w ≤ 32)
    (h : WHL_EVCFG w k ≤ G.off ∧ G.off ≤ WHL_EVMAX w k) : Outside w J G := by
  simp only [WHL_EVCFG, WHL_EVMAX] at h
  refine ⟨hG, ?_, ?_, ?_, ?_, fun j hj => ?_⟩
  all_goals
    simp [RIG_STATUS, RIG_DLYINFO, GLB_OWNERR, SAG_STATUS, SAG_ECC, SAG_ECCADDR, SAG_ECCINJ, WHL_CTRL, WHL_CFG, WHL_ERRCNT, WHL_SEQ,
      WHL_CYCT, WHL_EVSTAT, WHL_EVCFG]
  case refine_5 => have := hJ j hj; omega
  all_goals omega

theorem TrackerFrame.cfg (h : TrackerFrame w J N s t) {G : Fld} (hG : G.lo + G.w ≤ 32) (ho : WHL_CFG w ≤ G.off ∧ G.off ≤ WHL_VRCFG w) :
    t.f G = s.f G := h.other G (outside_cfg w J hG ho)

theorem TrackerFrame.cfgFlag (h : TrackerFrame w J N s t) {G : Fld} (hG : G.lo + G.w ≤ 32)
    (ho : WHL_CFG w ≤ G.off ∧ G.off ≤ WHL_VRCFG w) : t.flag G = s.flag G := congrArg (· != 0) (h.cfg hG ho)

theorem TrackerFrame.now (h : TrackerFrame w J N s t) : t.now = s.now := congrArg (·.count) h.kln

theorem TrackerFrame.running (h : TrackerFrame w J N s t) : t.running = s.running := by
  rw [State.running, State.flag, h.kln, h.other MST_CTRL_RUN (outside_low w J (by decide) (by decide) (by decide))]; rfl

theorem TrackerFrame.on (h : TrackerFrame w J N s t) (d : Nat) : t.on d = s.on d := by
  rw [State.on, h.other GLB_PWRSTAT_ON (outside_low w J (by decide) (by decide) (by decide)), State.on]

theorem TrackerFrame.ownerOf (h : TrackerFrame w J N s t) {p : Nat} (hp : p < 128) : t.ownerOf p = s.ownerOf p := by
  have hout {G : Fld} (hG : G.lo + G.w ≤ 32) (ho : G.off = GLB_PORTOWN p) : t.f G = s.f G := by
    refine h.other G (outside_low w J hG ?_ ?_)
    all_goals
      rw [ho]
      simp [GLB_PORTOWN, RIG_STATUS, RIG_DLYINFO, GLB_OWNERR, SAG_STATUS, SAG_ECC, SAG_ECCADDR, SAG_ECCINJ]
      omega
  rw [State.ownerOf, hout (G := GLB_PORTOWN_INDEX p) (Nat.le_of_ble_eq_true rfl) rfl,
    hout (G := GLB_PORTOWN_TYPE p) (Nat.le_of_ble_eq_true rfl) rfl, State.ownerOf]

theorem TrackerFrame.teethN (h : TrackerFrame w J N s t) : t.teethN w = s.teethN w := by
  rw [State.teethN, h.cfg (G := WHL_SYNCCFG_NM1 w) (Nat.le_of_ble_eq_true rfl) (by simp [WHL_SYNCCFG_NM1, WHL_SYNCCFG, WHL_CFG, WHL_VRCFG]), State.teethN]

end

/-! ### Records to a port (R28, R231) -/

/-- A record of tracker w to a port is sent on (R28, R144). -/
def State.passes (s : State) (w port : Nat) : Prop :=
  s.running = true ∧ s.ownerOf port = 0x10 + w ∧ s.on (portDom port) = true ∧
  (port < 64 → (s.sendq.filter fun x => x.act.owner == 0x10 + w).length < 128)

theorem ownErr_work (w port ty idx : Nat) (J : Nat → Prop) (N : List TrkFld) (s : State) : SlotWork w J N s (ownErr ty idx port s) := by
  have h : OnlyNoted s (ownErr ty idx port s) [GLB_OWNERR] :=
    (((bump_onlyNoted s GLB_OWNERR_COUNT (by decide) (by decide)).trans (setF_onlyRegs _ GLB_OWNERR_SRC_TYPE _ (by decide) (by decide)).noted).trans
      (setF_onlyRegs _ GLB_OWNERR_SRC_INDEX _ (by decide) (by decide)).noted).trans (setF_onlyRegs _ GLB_OWNERR_PORT _ (by decide) (by decide)).noted
  obtain ⟨hframe, hregs⟩ := h
  exact slotWork_of_sameRegs (by rw [hframe]; exact ⟨rfl, rfl, rfl, rfl, rfl⟩) hregs (by simp) J

theorem sendRecord_work (w ready : Nat) (a : Action) (J : Nat → Prop) (N : List TrkFld) (s : State) :
    SlotWork w J N s (sendRecord ready a s).1 := by
  unfold sendRecord
  split_ifs
  · exact .refl w J N s
  · exact .refl w J N s
  · exact { SlotWork.refl w J N s with sendq := List.prefix_append _ _ }
  · exact { SlotWork.refl w J N s with }

abbrev sendFlds : List TrkFld := [.drop, .dropped]

theorem whlSend_work (w : Nat) (a : Action) (J : Nat → Prop) (s : State) : SlotWork w J sendFlds s (whlSend w a s).1 := by
  unfold whlSend
  split_ifs
  · exact .refl w J _ s
  · exact ownErr_work w _ _ _ J _ s
  · have hsend := sendRecord_work w s.mc { a with trk := true, late := false, owner := 0x10 + w } J sendFlds s
    dsimp only
    split
    · exact hsend.trans (whlDrop_work w J _)
    · exact hsend

theorem whlSend_sent {w : Nat} {a : Action} {s : State} (h : s.passes w a.port) : (whlSend w a s).2 = .sent := by
  obtain ⟨hrun, howner, hon, hroom⟩ := h
  have hdrop : (sendRecord s.mc { a with trk := true, late := false, owner := 0x10 + w } s).2 = false := by
    unfold sendRecord
    rw [if_neg (by simpa using hon)]
    split
    · next hfield => rw [if_neg (Nat.not_le.mpr (hroom (by simpa [isField] using hfield)))]
    · rfl
  simp [whlSend, hrun, howner, hdrop]

theorem passes_of_canSend {w : Nat} {J : Nat → Prop} {N : List TrkFld} {s u t : State} {p : Nat} (h : s.canSend w p t)
    (hf : TrackerFrame w J N s u) (hq : u.sendq <+: t.sendq) (hp : p < 128) : u.passes w p := by
  obtain ⟨hrun, howner, hon, hroom⟩ := h
  exact ⟨hf.running.trans hrun, (hf.ownerOf hp).trans howner, (hf.on _).trans hon,
    fun h => Nat.lt_of_le_of_lt (hq.sublist.filter _).length_le (hroom h)⟩

theorem evPort_lt (c : Nat) : evPort c < 128 := Nat.mod_lt _ (by decide)

end Sys2Proof.Machine
end

section
namespace Sys2Proof.Machine

open Sys2Proof Reg

/-! ### One slot -/

section
variable {w k : Nat} {J : Nat → Prop} {N : List TrkFld} {s t : State}

theorem Tracker.slot_mmod_same (x : Tracker) (k : Nat) (f : WSlot → WSlot) :
    Tracker.slot { x with slots := mmod x.slots k {} f } k = f (x.slot k) := mget_mset_same _ _ _ _

theorem Tracker.slot_mmod_ne (x : Tracker) {j k : Nat} (h : j ≠ k) (f : WSlot → WSlot) :
    Tracker.slot { x with slots := mmod x.slots k {} f } j = x.slot j := mget_mset_ne _ _ _ _ h

@[simp] theorem State.modSlot_slot (s : State) (w k : Nat) (f : WSlot → WSlot) :
    ((s.modSlot w k f).wheel w).slot k = f ((s.wheel w).slot k) := by
  rw [State.modSlot, State.modWheel_wheel_same, Tracker.slot_mmod_same]

@[simp] theorem State.modSlot_f (s : State) (w k : Nat) (f : WSlot → WSlot) (F : Fld) : (s.modSlot w k f).f F = s.f F := rfl

theorem modSlot_work (w k : Nat) (f : WSlot → WSlot) (N : List TrkFld) (s : State) : SlotWork w (· = k) N s (s.modSlot w k f) :=
  { kln := rfl, sendq := List.prefix_rfl, fld := fun _ _ => rfl, skip := id, other := fun _ _ => rfl, mem := rfl, upset := rfl
    slot := fun j hj => by rw [State.modSlot, State.modWheel_wheel_same, Tracker.slot_mmod_ne _ hj]
    trk := by rw [State.modSlot, modWheel_trk]; rfl }

/-- The fields of a slot that an operation of the slot may write: its status, and its EN. -/
def SlotFld (w k : Nat) (F : Fld) : Prop :=
  F.lo + F.w ≤ 32 ∧ (F.off = WHL_EVSTAT w k ∨ F.off = WHL_EVCFG w k ∧ F.lo + F.w ≤ 1)

theorem setF_slot_work {F : Fld} (hF : SlotFld w k F) (v : Nat) (N : List TrkFld) (s : State) : SlotWork w (· = k) N s (s.setF F v) := by
  obtain ⟨hnarrow, hoff⟩ := hF
  have hfld : ∀ a : TrkFld, (s.setF F v).f (a.fld w) = s.f (a.fld w) := fun a => by
    refine State.setF_f_ne _ _ _ _ hnarrow (a.narrow w) (.inl fun he => ?_)
    obtain ⟨c, hc, hlt⟩ := a.fld_off w
    simp only [WHL_EVSTAT, WHL_EVCFG] at hoff
    omega
  refine slotWork_of_fields (by simp) (fun a _ => hfld a) (fun hs => (hfld .skip).trans hs) fun G hG => ?_
  obtain ⟨hG, -, -, -, -, hslot⟩ := hG
  obtain ⟨hstat, hcfg⟩ := hslot k rfl
  refine State.setF_f_ne _ _ _ _ hnarrow hG ?_
  rcases hoff with hoff | ⟨hoff, hlo⟩
  · exact .inl (hoff ▸ hstat)
  · exact hcfg.imp (hoff ▸ ·) fun h => .inr (hlo.trans h)

theorem raise_slot_work {F : Fld} (hF : SlotFld w k F) (N : List TrkFld) (s : State) : SlotWork w (· = k) N s (s.raise F) :=
  (setF_slot_work hF 1 N s).trans (note_work w _ N F _)

theorem slotFld_state (w k : Nat) : SlotFld w k (WHL_EVSTAT_STATE w k) := ⟨Nat.le_of_ble_eq_true rfl, .inl rfl⟩
theorem slotFld_parity (w k : Nat) : SlotFld w k (WHL_EVSTAT_PARITY w k) := ⟨Nat.le_of_ble_eq_true rfl, .inl rfl⟩

/-- A flag of a slot's status. -/
def SlotBit (w k : Nat) (F : Fld) : Prop := F.off = WHL_EVSTAT w k ∧ 8 ≤ F.lo ∧ F.lo + F.w ≤ 32 ∧ F.w = 1

theorem SlotBit.fld {F : Fld} (h : SlotBit w k F) : SlotFld w k F := ⟨h.2.2.1, .inl h.1⟩

theorem slotBit_skipped (w k : Nat) : SlotBit w k (WHL_EVSTAT_SKIPPED w k) :=
  ⟨rfl, Nat.le_of_ble_eq_true rfl, Nat.le_of_ble_eq_true rfl, rfl⟩
theorem slotBit_firelate (w k : Nat) : SlotBit w k (WHL_EVSTAT_FIRELATE w k) :=
  ⟨rfl, Nat.le_of_ble_eq_true rfl, Nat.le_of_ble_eq_true rfl, rfl⟩
theorem slotBit_endlate (w k : Nat) : SlotBit w k (WHL_EVSTAT_ENDLATE w k) :=
  ⟨rfl, Nat.le_of_ble_eq_true rfl, Nat.le_of_ble_eq_true rfl, rfl⟩
theorem slotBit_guard (w k : Nat) : SlotBit w k (WHL_EVSTAT_GUARD w k) :=
  ⟨rfl, Nat.le_of_ble_eq_true rfl, Nat.le_of_ble_eq_true rfl, rfl⟩
theorem slotBit_revend (w k : Nat) : SlotBit w k (WHL_EVSTAT_REVEND w k) :=
  ⟨rfl, Nat.le_of_ble_eq_true rfl, Nat.le_of_ble_eq_true rfl, rfl⟩

theorem setSlotSt_work (w k v : Nat) (N : List TrkFld) (s : State) : SlotWork w (· = k) N s (setSlotSt w k v s) :=
  setF_slot_work (slotFld_state w k) v N s

@[simp] theorem setSlotSt_slotSt (w k v : Nat) (s : State) : (setSlotSt w k v s).slotSt w k = v % 8 :=
  State.setF_f_same _ _ _ (slotFld_state w k).1

@[simp] theorem setSlotSt_parity (w k v : Nat) (s : State) :
    (setSlotSt w k v s).f (WHL_EVSTAT_PARITY w k) = s.f (WHL_EVSTAT_PARITY w k) :=
  State.setF_f_ne _ _ _ _ (slotFld_state w k).1 (slotFld_parity w k).1 (.inr (.inr (Nat.le_of_ble_eq_true rfl)))

theorem setSlotSt_bit {F : Fld} (hF : SlotBit w k F) (v : Nat) (s : State) : (setSlotSt w k v s).f F = s.f F :=
  State.setF_f_ne _ _ _ _ (slotFld_state w k).1 hF.2.2.1 (.inr (.inr (Nat.le_trans (Nat.le_of_ble_eq_true rfl : _ ≤ 8) hF.2.1)))

@[simp] theorem setSlotSt_wheel (w k v i : Nat) (s : State) : (setSlotSt w k v s).wheel i = s.wheel i := by simp [setSlotSt]

theorem flipParity_work (w k : Nat) (N : List TrkFld) (s : State) : SlotWork w (· = k) N s (flipParity w k s) :=
  setF_slot_work (slotFld_parity w k) _ N s

@[simp] theorem flipParity_parity (w k : Nat) (s : State) :
    (flipParity w k s).f (WHL_EVSTAT_PARITY w k) = 1 - s.f (WHL_EVSTAT_PARITY w k) :=
  (State.setF_f_same _ _ _ (slotFld_parity w k).1).trans (Nat.mod_eq_of_lt (Nat.lt_of_le_of_lt (Nat.sub_le _ _) (show 1 < 2 ^ 1 by decide)))

theorem flipParity_bit {F : Fld} (hF : SlotBit w k F) (s : State) : (flipParity w k s).f F = s.f F :=
  State.setF_f_ne _ _ _ _ (slotFld_parity w k).1 hF.2.2.1 (.inr (.inr (Nat.le_trans (Nat.le_of_ble_eq_true rfl : _ ≤ 8) hF.2.1)))

theorem raise_bit_slotSt {F : Fld} (hF : SlotBit w k F) (s : State) : (s.raise F).slotSt w k = s.slotSt w k :=
  State.raise_f_ne _ _ _ hF.2.2.1 (slotFld_state w k).1 (.inr (.inl (Nat.le_trans (Nat.le_of_ble_eq_true rfl : _ ≤ 8) hF.2.1)))

theorem raise_bit_parity {F : Fld} (hF : SlotBit w k F) (s : State) :
    (s.raise F).f (WHL_EVSTAT_PARITY w k) = s.f (WHL_EVSTAT_PARITY w k) :=
  State.raise_f_ne _ _ _ hF.2.2.1 (slotFld_parity w k).1 (.inr (.inl (Nat.le_trans (Nat.le_of_ble_eq_true rfl : _ ≤ 8) hF.2.1)))

theorem raise_bit_same {F : Fld} (hF : SlotBit w k F) (s : State) : (s.raise F).f F = 1 :=
  State.raise_f_same _ _ hF.2.2.1 (by rw [hF.2.2.2]; decide)

theorem clearSlot_work (w k : Nat) (a : Option Nat) (N : List TrkFld) (s : State) : SlotWork w (· = k) N s (clearSlot w k a s) :=
  modSlot_work w k _ N s

@[simp] theorem clearSlot_slot (w k : Nat) (a : Option Nat) (s : State) :
    ((clearSlot w k a s).wheel w).slot k = { wait := a } := State.modSlot_slot s w k _

@[simp] theorem clearSlot_f (w k : Nat) (a : Option Nat) (F : Fld) (s : State) : (clearSlot w k a s).f F = s.f F := rfl

theorem clearEn_work (w k : Nat) (N : List TrkFld) (s : State) : SlotWork w (· = k) N s (clearEn w k s) :=
  (setF_slot_work (F := WHL_EVCFG_EN w k) ⟨Nat.le_of_ble_eq_true rfl, .inr ⟨rfl, Nat.le_of_ble_eq_true rfl⟩⟩ 0 N s).trans
    (slotWork_of_fields ⟨rfl, rfl, rfl, rfl, rfl⟩ (fun _ _ => rfl) id fun _ _ => rfl)

/-- An operation of other slots leaves the status of slot k. -/
theorem TrackerFrame.evstat (h : TrackerFrame w J N s t) (hJ : ∀ j, J j → j < 64 ∧ j ≠ k) {F : Fld} (hF : F.lo + F.w ≤ 32)
    (ho : F.off = WHL_EVSTAT w k) : t.f F = s.f F := h.other F (outside_evstat hJ hF ho)

theorem TrackerFrame.slotSt (h : TrackerFrame w J N s t) (hJ : ∀ j, J j → j < 64 ∧ j ≠ k) : t.slotSt w k = s.slotSt w k :=
  h.evstat hJ (slotFld_state w k).1 rfl

theorem TrackerFrame.parity (h : TrackerFrame w J N s t) (hJ : ∀ j, J j → j < 64 ∧ j ≠ k) :
    t.f (WHL_EVSTAT_PARITY w k) = s.f (WHL_EVSTAT_PARITY w k) := h.evstat hJ (slotFld_parity w k).1 rfl

theorem TrackerFrame.bit (h : TrackerFrame w J N s t) (hJ : ∀ j, J j → j < 64 ∧ j ≠ k) {F : Fld} (hF : SlotBit w k F) :
    t.f F = s.f F := h.evstat hJ hF.2.2.1 hF.1

theorem TrackerFrame.slot_eq (h : TrackerFrame w J N s t) (hJ : ∀ j, J j → j < 64 ∧ j ≠ k) :
    (t.wheel w).slot k = (s.wheel w).slot k := h.slot k fun hk => (hJ k hk).2 rfl

end

abbrev noSlot : Nat → Prop := fun _ => False

theorem noSlot_ne {k : Nat} : ∀ j, noSlot j → j < 64 ∧ j ≠ k := fun _ h => h.elim

theorem cancelSlot_work (w k : Nat) (t : Time) (J : Nat → Prop) (s : State) : SlotWork w J sendFlds s (cancelSlot w k t s) := by
  unfold cancelSlot
  extract_lets x u
  have hu : SlotWork w J sendFlds s u := by
    unfold u
    split
    · exact whlSend_work w _ J s
    · exact .refl w J _ s
  split
  · exact hu.trans (whlSend_work w _ J u)
  · exact hu

/-! ### Retiming (R234) -/

section
variable (w k : Nat) (t : Time) (s : State)

theorem retimeEnd_work : SlotWork w (· = k) sendFlds s (retimeEnd w k t s) := by
  have hsend := whlSend_work w (slotRec s w k true t 0x18 0) (· = k) s
  unfold retimeEnd
  dsimp only
  split
  · exact hsend
  · exact hsend.trans (modSlot_work w k _ _ _)

theorem retimeBeg_work : SlotWork w (· = k) sendFlds s (retimeBeg w k t s) := by
  have hsend := whlSend_work w (slotRec s w k false t 0x18 0) (· = k) s
  unfold retimeBeg
  dsimp only
  split
  · exact hsend
  · exact hsend.trans (modSlot_work w k _ _ _)

theorem retimeEnd_evstat {F : Fld} (hF : F.lo + F.w ≤ 32) (ho : F.off = WHL_EVSTAT w k) : (retimeEnd w k t s).f F = s.f F := by
  have hsend := (whlSend_work w (slotRec s w k true t 0x18 0) noSlot s).evstat noSlot_ne hF ho
  unfold retimeEnd
  dsimp only
  split <;> exact hsend

theorem retimeBeg_evstat {F : Fld} (hF : F.lo + F.w ≤ 32) (ho : F.off = WHL_EVSTAT w k) : (retimeBeg w k t s).f F = s.f F := by
  have hsend := (whlSend_work w (slotRec s w k false t 0x18 0) noSlot s).evstat noSlot_ne hF ho
  unfold retimeBeg
  dsimp only
  split <;> exact hsend

/-- The end of slot k takes its new time unless the record is lost. -/
theorem retimeEnd_slot :
    ((retimeEnd w k t s).wheel w).slot k = { (s.wheel w).slot k with te := (((retimeEnd w k t s).wheel w).slot k).te } := by
  have hsend := (whlSend_work w (slotRec s w k true t 0x18 0) noSlot s).slot k id
  unfold retimeEnd
  dsimp only
  split
  · rw [hsend]
  · rw [State.modSlot_slot, hsend]

variable {w k t s} in
theorem retimeEnd_te (h : s.passes w (evPort ((s.wheel w).slot k).cfg)) : (((retimeEnd w k t s).wheel w).slot k).te = t := by
  unfold retimeEnd
  dsimp only
  have hsent : (whlSend w (slotRec s w k true t 0x18 0) s).2 = .sent := whlSend_sent h
  rw [hsent, if_neg (not_not.mpr rfl), State.modSlot_slot]

variable {w k t s} in
theorem retimeBeg_tb (h : s.passes w (evPort ((s.wheel w).slot k).cfg)) : (((retimeBeg w k t s).wheel w).slot k).tb = t := by
  unfold retimeBeg
  dsimp only
  have hsent : (whlSend w (slotRec s w k false t 0x18 0) s).2 = .sent := whlSend_sent h
  rw [hsent, if_neg (not_not.mpr rfl), State.modSlot_slot]

end

end Sys2Proof.Machine
end

section
namespace Sys2Proof.Machine

open Sys2Proof Reg

/-! ### Every slot in turn -/

/-- The slots other than k. -/
abbrev butSlot (k : Nat) : Nat → Prop := fun j => j < 64 ∧ j ≠ k

section
variable {w : Nat} {N : List TrkFld} {f : Nat → State → State} (hf : ∀ j s, SlotWork w (· = j) N s (f j s))
include hf

theorem foldl_slots_work {J : Nat → Prop} (l : List Nat) (hl : ∀ j ∈ l, J j) (s : State) :
    SlotWork w J N s (l.foldl (fun s j => f j s) s) := by
  induction l generalizing s with
  | nil => exact .refl w J N s
  | cons j l ih =>
    exact ((hf j s).mono (fun i hi => hi ▸ hl j (by simp)) (List.Subset.refl _)).trans (ih (fun i hi => hl i (by simp [hi])) (f j s))

theorem eachSlot_work (s : State) : SlotWork w (· < 64) N s (eachSlot f s) :=
  foldl_slots_work hf _ (fun _ => List.mem_range.mp) s

/-- Slot k meets its operation once, and the other slots leave it as it is before and after. -/
theorem eachSlot_at {k : Nat} (hk : k < 64) (s : State) :
    ∃ u, SlotWork w (butSlot k) N s u ∧ SlotWork w (butSlot k) N (f k u) (eachSlot f s) := by
  obtain ⟨a, b, hab⟩ := List.append_of_mem (List.mem_range.mpr hk)
  have hnodup := List.nodup_range (n := 64)
  rw [hab, List.nodup_append, List.nodup_cons] at hnodup
  obtain ⟨-, ⟨hb, -⟩, ha⟩ := hnodup
  have hlt : ∀ j, j ∈ a ∨ j ∈ b → j < 64 := fun j hj =>
    List.mem_range.mp (hab ▸ List.mem_append.mpr (hj.imp id (List.mem_cons_of_mem k)))
  refine ⟨a.foldl (fun s j => f j s) s, foldl_slots_work hf a (fun j hj => ⟨hlt j (.inl hj), ha j hj k (by simp)⟩) s, ?_⟩
  rw [eachSlot, hab, List.foldl_append, List.foldl_cons]
  exact foldl_slots_work hf b (fun j hj => ⟨hlt j (.inr hj), fun h => hb (h ▸ hj)⟩) _

end

theorem butSlot_ne {k : Nat} : ∀ j, butSlot k j → j < 64 ∧ j ≠ k := fun _ h => h

/-! ### Giving an occurrence up (R240, R242) -/

/-- Slot k at t gives up the occurrence it runs; an end that can still move falls at te, and F tells it. -/
def giveUp (w k : Nat) (t te : Time) (F : Fld) (s : State) : State :=
  let y := (s.wheel w).slot k
  if y.freeBeg t then setSlotSt w k 5 (clearSlot w k none (flipParity w k (cancelSlot w k t s)))
  else if y.freeEnd t && !y.guard then retimeEnd w k te ((s.raise F).modSlot w k fun y => { y with guard := true })
  else s

theorem haltSlot_eq (w k : Nat) (t : Time) (s : State) :
    haltSlot w k t s = giveUp w k t (((s.wheel w).slot k).tb + fc ((s.wheel w).slot k).maxd) (WHL_EVSTAT_GUARD w k) s := rfl

theorem reverseSlot_eq (w k : Nat) (t : Time) (s : State) :
    reverseSlot w k t s = giveUp w k t (((s.wheel w).slot k).tb + BitVec.ofInt 64 (max (sdiff t ((s.wheel w).slot k).tb) 512))
      (WHL_EVSTAT_REVEND w k) s := rfl

/-- The guard is set on slot k, and F tells it. -/
def guardSlot (w k : Nat) (F : Fld) (s : State) : State := (s.raise F).modSlot w k fun y => { y with guard := true }

theorem giveUp_hold {w k : Nat} {t : Time} {s : State} (h : ((s.wheel w).slot k).freeBeg t = true) (te : Time) (F : Fld) :
    giveUp w k t te F s = setSlotSt w k 5 (clearSlot w k none (flipParity w k (cancelSlot w k t s))) := if_pos h

theorem giveUp_end {w k : Nat} {t : Time} {s : State} (h : ((s.wheel w).slot k).freeBeg t = false)
    (hend : ((s.wheel w).slot k).freeEnd t = true ∧ ((s.wheel w).slot k).guard = false) (te : Time) (F : Fld) :
    giveUp w k t te F s = retimeEnd w k te (guardSlot w k F s) :=
  (if_neg (by simp [h])).trans (if_pos (by simp [hend]))

theorem giveUp_idle {w k : Nat} {t : Time} {s : State} (h : ((s.wheel w).slot k).freeBeg t = false)
    (hend : ¬(((s.wheel w).slot k).freeEnd t = true ∧ ((s.wheel w).slot k).guard = false)) (te : Time) (F : Fld) :
    giveUp w k t te F s = s := (if_neg (by simp [h])).trans (if_neg (by simpa using hend))

section
variable {w k : Nat} {F : Fld} (hF : SlotBit w k F) (t te : Time)
include hF

theorem guardSlot_work (N : List TrkFld) (s : State) : SlotWork w (· = k) N s (guardSlot w k F s) :=
  (raise_slot_work hF.fld _ s).trans (modSlot_work w k _ _ _)

theorem giveUp_work (s : State) : SlotWork w (· = k) sendFlds s (giveUp w k t te F s) := by
  cases hbeg : ((s.wheel w).slot k).freeBeg t with
  | true =>
    rw [giveUp_hold hbeg]
    exact (((cancelSlot_work w k t _ s).trans (flipParity_work w k _ _)).trans (clearSlot_work w k _ _ _)).trans (setSlotSt_work w k _ _ _)
  | false =>
    by_cases hend : ((s.wheel w).slot k).freeEnd t = true ∧ ((s.wheel w).slot k).guard = false
    · rw [giveUp_end hbeg hend]
      exact (guardSlot_work hF _ s).trans (retimeEnd_work w k te _)
    · rw [giveUp_idle hbeg hend]
      exact .refl w _ _ s

/-- A slot that gives up what it runs, where other slots work before and after it. -/
theorem giveUp_held {J : Nat → Prop} {N : List TrkFld} {s u v : State} (hJ : ∀ j, J j → j < 64 ∧ j ≠ k) (hu : TrackerFrame w J N s u)
    (hv : TrackerFrame w J N (giveUp w k t te F u) v) : SlotHeld w k t te F s v := by
  rintro y rfl
  rw [hv.slot_eq hJ, hv.slotSt hJ, hv.bit hJ hF, hv.parity hJ, ← hu.slot_eq hJ, ← hu.slotSt hJ, ← hu.parity hJ]
  refine ⟨fun hbeg => ?_, fun hbeg => ?_⟩
  · rw [giveUp_hold hbeg, setSlotSt_slotSt, setSlotSt_wheel, clearSlot_slot, setSlotSt_parity, clearSlot_f, flipParity_parity,
      (cancelSlot_work w k t noSlot u).parity noSlot_ne]
    exact ⟨rfl, rfl, rfl⟩
  · by_cases hend : ((u.wheel w).slot k).freeEnd t = true ∧ ((u.wheel w).slot k).guard = false
    · have hslot : ((guardSlot w k F u).wheel w).slot k = { (u.wheel w).slot k with guard := true } := by simp [guardSlot]
      rw [giveUp_end hbeg hend] at hv ⊢
      refine ⟨(retimeEnd_evstat w k te _ (slotFld_state w k).1 rfl).trans (raise_bit_slotSt hF u), fun _ _ => ⟨?_, ?_, fun hsend => ?_⟩,
        fun h => by simp [hend.1, hend.2] at h⟩
      · exact (retimeEnd_evstat w k te _ hF.2.2.1 hF.1).trans (raise_bit_same hF u)
      · rw [retimeEnd_slot, hslot]
      · refine retimeEnd_te ?_
        rw [hslot]
        exact passes_of_canSend (J := fun j => J j ∨ j = k) (N := N) hsend
          ((hu.mono (fun _ => .inl) (List.Subset.refl _)).trans ((guardSlot_work hF N u).toTrackerFrame.mono (fun _ => .inr) (List.Subset.refl _)))
          ((retimeEnd_work w k te _).sendq.trans hv.sendq) (evPort_lt _)
    · rw [giveUp_idle hbeg hend]
      exact ⟨rfl, fun h1 h2 => absurd ⟨h1, h2⟩ hend, fun _ => rfl⟩

end

theorem haltSlot_work (w : Nat) (t : Time) (k : Nat) (s : State) : SlotWork w (· = k) sendFlds s (haltSlot w k t s) :=
  giveUp_work (slotBit_guard w k) t _ s

theorem reverseSlot_work (w : Nat) (t : Time) (k : Nat) (s : State) : SlotWork w (· = k) sendFlds s (reverseSlot w k t s) :=
  giveUp_work (slotBit_revend w k) t _ s

/-- What halts every slot holds each of them. -/
theorem haltSlots_held {w k : Nat} (hk : k < 64) {N : List TrkFld} (hN : sendFlds ⊆ N) {t : Time} {s u v : State}
    (hu : TrackerFrame w noSlot N s u) (hv : TrackerFrame w noSlot N (eachSlot (fun j => haltSlot w j t) u) v) :
    SlotHeld w k t (((s.wheel w).slot k).tb + fc ((s.wheel w).slot k).maxd) (WHL_EVSTAT_GUARD w k) s v := by
  obtain ⟨x, hx, hfx⟩ := eachSlot_at (haltSlot_work w t) hk u
  have hx := (hu.mono (J' := butSlot k) (fun _ h => h.elim) (List.Subset.refl _)).trans (hx.toTrackerFrame.mono (fun _ => id) hN)
  have hfx := (hfx.toTrackerFrame.mono (fun _ => id) hN).trans (hv.mono (fun _ h => h.elim) (List.Subset.refl _))
  rw [← hx.slot_eq butSlot_ne]
  exact giveUp_held (slotBit_guard w k) t _ butSlot_ne hx (haltSlot_eq w k t x ▸ hfx)

theorem reverseSlots_held {w k : Nat} (hk : k < 64) {N : List TrkFld} (hN : sendFlds ⊆ N) {t : Time} {s u v : State}
    (hu : TrackerFrame w noSlot N s u) (hv : TrackerFrame w noSlot N (eachSlot (fun j => reverseSlot w j t) u) v) :
    SlotHeld w k t (((s.wheel w).slot k).tb + BitVec.ofInt 64 (max (sdiff t ((s.wheel w).slot k).tb) 512)) (WHL_EVSTAT_REVEND w k) s v := by
  obtain ⟨x, hx, hfx⟩ := eachSlot_at (reverseSlot_work w t) hk u
  have hx := (hu.mono (J' := butSlot k) (fun _ h => h.elim) (List.Subset.refl _)).trans (hx.toTrackerFrame.mono (fun _ => id) hN)
  have hfx := (hfx.toTrackerFrame.mono (fun _ => id) hN).trans (hv.mono (fun _ h => h.elim) (List.Subset.refl _))
  rw [← hx.slot_eq butSlot_ne]
  exact giveUp_held (slotBit_revend w k) t _ butSlot_ne hx (reverseSlot_eq w k t x ▸ hfx)

/-! ### Skipping an occurrence (R234) -/

/-- The fields that the work of a slot may change. -/
abbrev slotFlds : List TrkFld := [.skip, .seq, .drop, .dropped]

/-- A slot is skipped, and its flags and its record tell it. -/
def noteSkip (w k : Nat) (t : Time) (port : Nat) (s : State) : State :=
  whlRec w 0x13 t port false k (whlPulse w 7 ((s.raise (WHL_EVSTAT_SKIPPED w k)).raise (WHL_FLAGS_SKIP w)))

theorem skipSlot_eq (w k beg : Nat) (t : Time) (s : State) :
    skipSlot w k beg t s = setSlotSt w k 1 (clearSlot w k (if ((s.wheel w).slot k).bpass then none else some beg)
      (flipParity w k (noteSkip w k t (evPort ((s.wheel w).slot k).cfg) (cancelSlot w k t s)))) := rfl

/-- The pulse and the record of a skip. -/
theorem skipRec_work (w k : Nat) (t : Time) (port : Nat) (J : Nat → Prop) (s : State) :
    SlotWork w J slotFlds s (whlRec w 0x13 t port false k (whlPulse w 7 s)) :=
  (whlPulse_work w 7 J slotFlds s).trans ((whlRec_work w 0x13 t port false k J _).mono (fun _ => id) (by simp))

theorem noteSkip_work (w k : Nat) (t : Time) (port : Nat) (s : State) : SlotWork w (· = k) slotFlds s (noteSkip w k t port s) :=
  ((raise_slot_work (slotBit_skipped w k).fld slotFlds s).trans
    ((raise_fld_work w (· = k) .skip _).mono (fun _ => id) (by simp))).trans (skipRec_work w k t port _ _)

/-- What a skip notes apart from its bit. -/
theorem noteSkip_rest (w k : Nat) (t : Time) (port : Nat) (s : State) :
    SlotWork w noSlot slotFlds (s.raise (WHL_EVSTAT_SKIPPED w k)) (noteSkip w k t port s) :=
  ((raise_fld_work w noSlot .skip _).mono (fun _ => id) (by simp)).trans (skipRec_work w k t port _ _)

theorem noteSkip_skipped (w k : Nat) (t : Time) (port : Nat) (s : State) : (noteSkip w k t port s).f (WHL_EVSTAT_SKIPPED w k) = 1 :=
  ((noteSkip_rest w k t port s).bit noSlot_ne (slotBit_skipped w k)).trans (raise_bit_same (slotBit_skipped w k) s)

theorem noteSkip_skip (w k : Nat) (t : Time) (port : Nat) (s : State) : (noteSkip w k t port s).f (WHL_FLAGS_SKIP w) = 1 :=
  (skipRec_work w k t port noSlot _).skip (State.raise_f_same _ _ (TrkFld.skip.narrow w) (Nat.le_refl 1))

theorem noteSkip_parity (w k : Nat) (t : Time) (port : Nat) (s : State) :
    (noteSkip w k t port s).f (WHL_EVSTAT_PARITY w k) = s.f (WHL_EVSTAT_PARITY w k) :=
  ((noteSkip_rest w k t port s).parity noSlot_ne).trans (raise_bit_parity (slotBit_skipped w k) s)

theorem skipSlot_work (w k beg : Nat) (t : Time) (s : State) : SlotWork w (· = k) slotFlds s (skipSlot w k beg t s) := by
  rw [skipSlot_eq]
  exact (((((cancelSlot_work w k t (· = k) s).mono (fun _ => id) (by simp)).trans (noteSkip_work w k t _ _)).trans
    (flipParity_work w k _ _)).trans (clearSlot_work w k _ _ _)).trans (setSlotSt_work w k 1 _ _)

theorem skipSlot_skipped {w k beg : Nat} {t : Time} {J : Nat → Prop} {N : List TrkFld} {s u v : State} (hJ : ∀ j, J j → j < 64 ∧ j ≠ k)
    (hu : u.f (WHL_EVSTAT_PARITY w k) = s.f (WHL_EVSTAT_PARITY w k)) (hv : TrackerFrame w J N (skipSlot w k beg t u) v) :
    SlotSkipped w k s v := by
  rw [skipSlot_eq] at hv
  refine ⟨?_, ?_, hv.skip ?_, ?_, ?_, ?_⟩
  · rw [hv.slotSt hJ, setSlotSt_slotSt]
  · rw [hv.bit hJ (slotBit_skipped w k), setSlotSt_bit (slotBit_skipped w k), clearSlot_f, flipParity_bit (slotBit_skipped w k),
      noteSkip_skipped]
  · exact (((flipParity_work w k slotFlds _).trans (clearSlot_work w k _ _ _)).trans (setSlotSt_work w k 1 _ _)).skip
      (noteSkip_skip w k t _ _)
  · rw [hv.parity hJ, setSlotSt_parity, clearSlot_f, flipParity_parity, noteSkip_parity, (cancelSlot_work w k t noSlot u).parity noSlot_ne, hu]
  · rw [hv.slot_eq hJ, setSlotSt_wheel, clearSlot_slot]
  · rw [hv.slot_eq hJ, setSlotSt_wheel, clearSlot_slot]

end Sys2Proof.Machine
end

section
namespace Sys2Proof.Machine

open Sys2Proof Reg

/-! ### The tooth table and the prediction -/

/-- Tracker w finds in t the teeth that it finds in s. -/
structure SameTable (w : Nat) (s t : State) : Prop where
  mem : t.mem = s.mem
  upset : t.upset = s.upset
  pbase : t.f (WHL_TTCFG_PBASE w) = s.f (WHL_TTCFG_PBASE w)
  count : t.teethN w = s.teethN w

section
variable {w : Nat} {J : Nat → Prop} {N : List TrkFld} {s t : State}

theorem wordErr_congr (h : t.upset = s.upset) (a : Nat) : t.wordErr a = s.wordErr a := by
  rw [State.wordErr, State.upsetOf, h, State.wordErr, State.upsetOf]

theorem badWord_congr (h : t.upset = s.upset) (a n : Nat) : t.badWord a n = s.badWord a n := by
  simp only [State.badWord, wordErr_congr h]

theorem byte_congr (h : t.mem = s.mem) (a : Nat) : t.byte a = s.byte a := by rw [State.byte, h, State.byte]

theorem memNat_congr (h : t.mem = s.mem) (a n : Nat) : t.memNat a n = s.memNat a n := by
  simp only [State.memNat, State.bytes, byte_congr h]

theorem ttWord_congr (hm : t.mem = s.mem) (hu : t.upset = s.upset) (i : Nat) : t.ttWord i = s.ttWord i := by
  simp only [State.ttWord, State.readByte, wordErr_congr hu, byte_congr hm, State.upsetOf, hu]

theorem TrackerFrame.pbase (h : TrackerFrame w J N s t) : t.f (WHL_TTCFG_PBASE w) = s.f (WHL_TTCFG_PBASE w) :=
  h.cfg (Nat.le_of_ble_eq_true rfl) (by simp [WHL_TTCFG_PBASE, WHL_TTCFG, WHL_CFG, WHL_VRCFG])

theorem TrackerWork.table (h : TrackerWork w J N s t) : SameTable w s t := ⟨h.mem, h.upset, h.pbase, h.teethN⟩

theorem SameTable.refl (w : Nat) (s : State) : SameTable w s s := ⟨rfl, rfl, rfl, rfl⟩

theorem SameTable.trans {u : State} (h : SameTable w s t) (k : SameTable w t u) : SameTable w s u :=
  ⟨k.mem.trans h.mem, k.upset.trans h.upset, k.pbase.trans h.pbase, k.count.trans h.count⟩

/-- The walk to the next position depends on where teeth stand. -/
theorem nextPhys_congr (hn : t.teethN w = s.teethN w) (hp : ∀ q, t.physAt w q = s.physAt w q) (p n : Nat) :
    t.nextPhys w p n = s.nextPhys w p n := by
  induction n generalizing p with
  | zero => rfl
  | succ n ih => simp only [State.nextPhys, hn, hp, ih]

theorem prevPhys_congr (hn : t.teethN w = s.teethN w) (hp : ∀ q, t.physAt w q = s.physAt w q) (p n : Nat) :
    t.prevPhys w p n = s.prevPhys w p n := by
  induction n generalizing p with
  | zero => rfl
  | succ n ih => simp only [State.prevPhys, hn, hp, ih]

section
variable (h : SameTable w s t)
include h

theorem SameTable.ttPos (p : Nat) : t.ttPos w p = s.ttPos w p := by
  rw [State.ttPos, ttWord_congr h.mem h.upset, h.pbase, h.count, State.ttPos]

theorem SameTable.physAt (p : Nat) : t.physAt w p = s.physAt w p := by rw [State.physAt, h.ttPos, State.physAt]
theorem SameTable.lockAt (p : Nat) : t.lockAt w p = s.lockAt w p := by rw [State.lockAt, h.ttPos, State.lockAt]
theorem SameTable.widthAt (p : Nat) : t.widthAt w p = s.widthAt w p := by rw [State.widthAt, h.ttPos, State.widthAt]
theorem SameTable.widthSum (p : Nat) : t.widthSum w p = s.widthSum w p := by simp only [State.widthSum, h.widthAt]
theorem SameTable.cycleU : t.cycleU w = s.cycleU w := by rw [State.cycleU, h.widthSum, h.count, State.cycleU]
theorem SameTable.uOf (a : Nat) : t.uOf w a = s.uOf w a := by rw [State.uOf, h.widthSum, h.widthAt, State.uOf]
theorem SameTable.dist (a b : Nat) : t.dist w a b = s.dist w a b := by rw [State.dist, h.uOf, h.uOf, h.cycleU, State.dist]
theorem SameTable.ahead (a b : Nat) : t.ahead w a b = s.ahead w a b := by
  rw [State.ahead, h.dist, h.cycleU, State.ahead]
theorem SameTable.spans (a a' b : Nat) : t.spans w a a' b = s.spans w a a' b := by rw [State.spans, h.ahead, h.ahead, State.spans]
theorem SameTable.nextPhys (p n : Nat) : t.nextPhys w p n = s.nextPhys w p n := nextPhys_congr h.count h.physAt p n
theorem SameTable.prevPhys (p n : Nat) : t.prevPhys w p n = s.prevPhys w p n := prevPhys_congr h.count h.physAt p n
theorem SameTable.ttWord (i : Nat) : t.ttWord i = s.ttWord i := ttWord_congr h.mem h.upset i
theorem SameTable.badWord (a n : Nat) : t.badWord a n = s.badWord a n := badWord_congr h.upset a n

theorem SameTable.angleFrom (n p d : Nat) : t.angleFrom w n p d = s.angleFrom w n p d := by
  induction n generalizing p d with
  | zero => rfl
  | succ n ih => simp only [State.angleFrom, h.widthAt, h.count, ih]

theorem SameTable.spanOf (hr : t.f (WHL_STATUS_REVERSE w) = s.f (WHL_STATUS_REVERSE w)) (p q : Nat) :
    t.spanOf w p q = s.spanOf w p q := by
  rw [State.spanOf, State.flag, hr, h.ahead, h.ahead, State.spanOf, State.flag]

end

/-- Tracker w predicts in t what it predicts in s. -/
structure SamePrediction (w : Nat) (s t : State) : Prop extends SameTable w s t where
  trk : t.trk w = s.trk w
  acc : t.flag (WHL_CFG_ACC_EN w) = s.flag (WHL_CFG_ACC_EN w)
  issue : ∀ F : Fld, F.lo + F.w ≤ 32 → F.off = WHL_ISSUE w → t.f F = s.f F

theorem SlotWork.prediction (h : SlotWork w J N s t) : SamePrediction w s t :=
  { h.table with
    trk := h.trk
    acc := h.cfgFlag (Nat.le_of_ble_eq_true rfl) (by simp [WHL_CFG_ACC_EN, WHL_CFG, WHL_VRCFG])
    issue := fun F hF ho => h.cfg hF (by rw [ho]; simp [WHL_ISSUE, WHL_CFG, WHL_VRCFG]) }

theorem SamePrediction.trans {u : State} (h : SamePrediction w s t) (k : SamePrediction w t u) : SamePrediction w s u :=
  { h.toSameTable.trans k.toSameTable with
    trk := k.trk.trans h.trk, acc := k.acc.trans h.acc, issue := fun F hF ho => (k.issue F hF ho).trans (h.issue F hF ho) }

theorem SamePrediction.symm (h : SamePrediction w s t) : SamePrediction w t s :=
  { mem := h.mem.symm, upset := h.upset.symm, pbase := h.pbase.symm, count := h.count.symm, trk := h.trk.symm, acc := h.acc.symm,
    issue := fun F hF ho => (h.issue F hF ho).symm }

section
variable (h : SamePrediction w s t)
include h

theorem SamePrediction.hist : (t.wheel w).hist = (s.wheel w).hist := (congrArg Tracker.hist h.trk : _)
theorem SamePrediction.pos : (t.wheel w).pos = (s.wheel w).pos := (congrArg Tracker.pos h.trk : _)
theorem SamePrediction.a1 : (t.wheel w).a1 = (s.wheel w).a1 := (congrArg Tracker.a1 h.trk : _)
theorem SamePrediction.a2 : (t.wheel w).a2 = (s.wheel w).a2 := (congrArg Tracker.a2 h.trk : _)
theorem SamePrediction.accl : (t.wheel w).accl = (s.wheel w).accl := (congrArg Tracker.accl h.trk : _)
theorem SamePrediction.ints : (t.wheel w).ints = (s.wheel w).ints := by rw [Tracker.ints, h.hist]; rfl
theorem SamePrediction.valid : (t.wheel w).valid = (s.wheel w).valid := by rw [Tracker.valid, h.hist]; rfl

theorem SamePrediction.predAt (d : Int) : t.predAt w d = s.predAt w d := by
  simp only [State.predAt, State.accOn, h.ints, h.hist, h.a1, h.a2, h.acc, h.accl]

theorem SamePrediction.tol : t.tol w = s.tol w := by
  rw [State.tol, h.issue (WHL_ISSUE_RETOL w) (Nat.le_of_ble_eq_true rfl) rfl, State.tol]

theorem SamePrediction.firesLate (cfg : Nat) (late : Int) : firesLate t w cfg late = firesLate s w cfg late := by
  have hangle : lateAngle t w late = lateAngle s w late := by simp only [lateAngle, h.ints, h.a2]
  rw [Machine.firesLate, hangle, Machine.firesLate]

/-- The distance to the end of a slot also depends on what the slot runs. -/
theorem SamePrediction.endDist {k : Nat} (hk : ∀ y, y = (s.wheel w).slot k → ((t.wheel w).slot k).beg = y.beg ∧
      ((t.wheel w).slot k).fin = y.fin ∧ ((t.wheel w).slot k).bpass = y.bpass ∧ ((t.wheel w).slot k).epass = y.epass) :
    t.endDist w k = s.endDist w k := by
  obtain ⟨hbeg, hfin, hb, he⟩ := hk _ rfl
  simp only [State.endDist, h.pos, hbeg, hfin, hb, he, h.dist, h.ahead]

end
end
end Sys2Proof.Machine
end

section
namespace Sys2Proof.Machine

open Sys2Proof Reg

/-! ### Issuing an occurrence (R231, R233) -/

/-- The end of slot k is issued for te; a dropped issue is a skip. -/
def sendEnd (w k beg : Nat) (te tp : Time) (s : State) : State :=
  let r := whlSend w (slotRec s w k true te 0x02 0) s
  if r.2 = .dropped then skipSlot w k beg tp r.1 else r.1.modSlot w k fun y => { y with eq := true, te := te }

/-- Slot k has issued its begin for tb. -/
def begun (w k : Nat) (tb : Time) (s : State) : State := setSlotSt w k 2 (s.modSlot w k fun y => { y with bq := true, tb := tb })

/-- The record of the begin of slot k at tb: a SET where the end has its own record, else a pulse. -/
def begRec (s : State) (w k : Nat) (tb : Time) : Action :=
  let y := (s.wheel w).slot k
  if evAngle y.cfg then slotRec s w k false tb 0x01 0 else slotRec s w k false tb 0x04 y.fin

theorem begRec_port (s : State) (w k : Nat) (tb : Time) : (begRec s w k tb).port = evPort ((s.wheel w).slot k).cfg := by
  rw [begRec]; split <;> rfl

section
variable {w k : Nat} {J : Nat → Prop} {N : List TrkFld}

theorem begun_work (tb : Time) (s : State) : SlotWork w (· = k) N s (begun w k tb s) :=
  (modSlot_work w k _ N s).trans (setSlotSt_work w k 2 N _)

@[simp] theorem begun_slot (tb : Time) (s : State) :
    ((begun w k tb s).wheel w).slot k = { (s.wheel w).slot k with bq := true, tb := tb } := by simp [begun]

@[simp] theorem begun_slotSt (tb : Time) (s : State) : (begun w k tb s).slotSt w k = 2 := setSlotSt_slotSt w k 2 _

theorem begun_bit {F : Fld} (hF : SlotBit w k F) (tb : Time) (s : State) : (begun w k tb s).f F = s.f F := setSlotSt_bit hF 2 _

theorem sendEnd_work (beg : Nat) (te tp : Time) (s : State) : SlotWork w (· = k) slotFlds s (sendEnd w k beg te tp s) := by
  have hsend := (whlSend_work w (slotRec s w k true te 0x02 0) (· = k) s).mono (N' := slotFlds) (fun _ => id) (by simp)
  unfold sendEnd
  dsimp only
  split
  · exact hsend.trans (skipSlot_work w k _ tp _)
  · exact hsend.trans (modSlot_work w k _ _ _)

theorem sendEnd_sent {beg : Nat} {te tp : Time} {s : State} (h : s.passes w (evPort ((s.wheel w).slot k).cfg)) :
    ((sendEnd w k beg te tp s).wheel w).slot k = { (s.wheel w).slot k with eq := true, te := te } ∧
    ∀ F : Fld, F.lo + F.w ≤ 32 → F.off = WHL_EVSTAT w k → (sendEnd w k beg te tp s).f F = s.f F := by
  have hsent : (whlSend w (slotRec s w k true te 0x02 0) s).2 = .sent := whlSend_sent h
  have hsend := whlSend_work w (slotRec s w k true te 0x02 0) noSlot s
  rw [sendEnd, hsent, if_neg (by decide)]
  refine ⟨?_, fun F hF ho => ?_⟩
  · rw [State.modSlot_slot, hsend.slot k id]
  · rw [State.modSlot_f, hsend.evstat noSlot_ne hF ho]

theorem issueAt_eq (w k : Nat) (tb tp : Time) (s : State) : issueAt w k tb tp s =
    if (whlSend w (begRec s w k tb) s).2 = .dropped then skipSlot w k ((s.wheel w).slot k).beg tp (whlSend w (begRec s w k tb) s).1
    else if !evAngle ((s.wheel w).slot k).cfg then begun w k tb (whlSend w (begRec s w k tb) s).1
    else sendEnd w k ((s.wheel w).slot k).beg (boundEnd ((begun w k tb (whlSend w (begRec s w k tb) s).1).predAt w
        ((begun w k tb (whlSend w (begRec s w k tb) s).1).endDist w k)) tb ((s.wheel w).slot k).maxd) tp
      (begun w k tb (whlSend w (begRec s w k tb) s).1) := by
  unfold issueAt sendEnd begun begRec
  dsimp only

theorem issueAt_work (tb tp : Time) (s : State) : SlotWork w (· = k) slotFlds s (issueAt w k tb tp s) := by
  have hsend := (whlSend_work w (begRec s w k tb) (· = k) s).mono (N' := slotFlds) (fun _ => id) (by simp)
  rw [issueAt_eq]
  split
  · exact hsend.trans (skipSlot_work w k _ tp _)
  · split
    · exact hsend.trans (begun_work tb _)
    · exact (hsend.trans (begun_work tb _)).trans (sendEnd_work _ _ tp _)

/-- An issue that leaves: the slot is ISSUED with its begin, and an end by angle at its bounded prediction. -/
theorem issueAt_issued {tb tp : Time} {s u t : State} (hs : s.canSend w (evPort ((u.wheel w).slot k).cfg) t) (hu : TrackerFrame w J N s u)
    (hq : (issueAt w k tb tp u).sendq <+: t.sendq) :
    ((issueAt w k tb tp u).wheel w).slot k = (if evAngle ((u.wheel w).slot k).cfg = true then
      { (u.wheel w).slot k with
        bq := true, tb := tb, eq := true, te := boundEnd (u.predAt w (u.endDist w k)) tb ((u.wheel w).slot k).maxd }
      else { (u.wheel w).slot k with bq := true, tb := tb }) ∧
    (issueAt w k tb tp u).slotSt w k = 2 ∧
    ∀ F, SlotBit w k F → (issueAt w k tb tp u).f F = u.f F := by
  have hsend := whlSend_work w (begRec u w k tb) noSlot u
  have hsent : (whlSend w (begRec u w k tb) u).2 = .sent := whlSend_sent (by
    rw [begRec_port]; exact passes_of_canSend hs hu ((issueAt_work tb tp u).sendq.trans hq) (evPort_lt _))
  have hbegun : ((begun w k tb (whlSend w (begRec u w k tb) u).1).wheel w).slot k = { (u.wheel w).slot k with bq := true, tb := tb } := by
    rw [begun_slot, hsend.slot k id]
  have hpred : SamePrediction w u (begun w k tb (whlSend w (begRec u w k tb) u).1) := hsend.prediction.trans (begun_work (N := N) tb _).prediction
  have hdist : (begun w k tb (whlSend w (begRec u w k tb) u).1).endDist w k = u.endDist w k :=
    hpred.endDist (by rintro y rfl; rw [hbegun]; exact ⟨rfl, rfl, rfl, rfl⟩)
  have hbits : ∀ F, SlotBit w k F → (begun w k tb (whlSend w (begRec u w k tb) u).1).f F = u.f F := fun F hF =>
    (begun_bit hF tb _).trans (hsend.bit noSlot_ne hF)
  have heq := issueAt_eq w k tb tp u
  rw [hsent, if_neg (by decide), hdist, hpred.predAt] at heq
  cases hangle : evAngle ((u.wheel w).slot k).cfg with
  | false =>
    rw [hangle, if_pos (by decide)] at heq
    rw [heq, hbegun]
    exact ⟨by simp, begun_slotSt tb _, hbits⟩
  | true =>
    rw [hangle, if_neg (by decide)] at heq
    rw [heq] at hq ⊢
    have hframe := (hu.mono (J' := fun j => J j ∨ j = k) (N' := N ++ slotFlds) (fun _ => .inl) (by simp)).trans
      (((hsend.widen (fun j => J j ∨ j = k) (by simp)).trans ((begun_work tb _).mono (fun _ => .inr) (List.Subset.refl _))).toTrackerFrame)
    obtain ⟨hslot, hstat⟩ := sendEnd_sent (w := w) (k := k) (beg := ((u.wheel w).slot k).beg)
      (te := boundEnd (u.predAt w (u.endDist w k)) tb ((u.wheel w).slot k).maxd)
      (tp := tp) (s := begun w k tb (whlSend w (begRec u w k tb) u).1)
      (passes_of_canSend (by rw [hbegun]; exact hs) hframe ((sendEnd_work _ _ tp _).sendq.trans hq) (evPort_lt _))
    rw [hslot, hbegun]
    exact ⟨by simp, (hstat _ (slotFld_state w k).1 rfl).trans (begun_slotSt tb _),
      fun F hF => (hstat F hF.2.2.1 hF.1).trans (hbits F hF)⟩

end

end Sys2Proof.Machine
end

section
namespace Sys2Proof.Machine

open Sys2Proof Reg

/-! ### Slots at a forward tooth (R233, R234) -/

/-- The values in force of slot k. -/
def State.fresh (s : State) (w k : Nat) : WSlot :=
  { cfg := (s.reg (WHL_EVCFG w k)).toNat, beg := s.f (WHL_EVBEG_BEGIN w k), fin := s.f (WHL_EVEND_END w k), maxd := s.f (WHL_EVMAX_MAXDUR w k) }

/-- Slot k begins an occurrence with the values in force. -/
def freshSlot (w k : Nat) (s : State) : State := s.modSlot w k fun _ => s.fresh w k

@[simp] theorem freshSlot_slot (w k : Nat) (s : State) : ((freshSlot w k s).wheel w).slot k = s.fresh w k := State.modSlot_slot s w k _

/-- The begin of slot k fires late, and its bit tells it. -/
def lateSlot (w k : Nat) (s : State) : State := (s.raise (WHL_EVSTAT_FIRELATE w k)).modSlot w k fun y => { y with late := true }

theorem lateSlot_work (w k : Nat) (N : List TrkFld) (s : State) : SlotWork w (· = k) N s (lateSlot w k s) :=
  (raise_slot_work (slotBit_firelate w k).fld _ s).trans (modSlot_work w k _ _ _)

@[simp] theorem lateSlot_slot (w k : Nat) (s : State) :
    ((lateSlot w k s).wheel w).slot k = { (s.wheel w).slot k with late := true } := by simp [lateSlot]

theorem lateSlot_firelate (w k : Nat) (s : State) : (lateSlot w k s).f (WHL_EVSTAT_FIRELATE w k) = 1 := by
  rw [lateSlot, State.modSlot_f, raise_bit_same (slotBit_firelate w k)]

theorem lateSlot_slotSt (w k : Nat) (s : State) : (lateSlot w k s).slotSt w k = s.slotSt w k := by
  rw [lateSlot, State.slotSt, State.modSlot_f]
  exact raise_bit_slotSt (slotBit_firelate w k) s

/-- By how much the begin predicted for d is too late to be committed at tp. -/
def lateness (s : State) (w : Nat) (c : Nat) (d : Int) (tp : Time) : Int := (c : Int) - sdiff (s.predAt w d) tp

/-- Slot k, which has begun an occurrence, issues it at tp, fires late or is skipped. -/
def issueFresh (w k beg : Nat) (tp : Time) (s : State) : State :=
  let y := (s.wheel w).slot k
  let c := commitHor (evPort y.cfg)
  let late := lateness s w c (s.begDist w k) tp
  if late ≤ 0 then issueAt w k (s.predAt w (s.begDist w k)) tp s
  else if firesLate s w y.cfg late then issueAt w k (tp + fc c) tp (lateSlot w k s)
  else skipSlot w k beg tp s

/-- A begin of slot k lies within LOOKAHEAD of the last tooth. -/
def State.nearBegin (s : State) (w k : Nat) : Prop :=
  s.ahead w (((s.wheel w).pos.getD 0) * 65536) (s.f (WHL_EVBEG_BEGIN w k)) ≤ s.f (WHL_ISSUE_LOOKAHEAD w) * 65536

theorem issueSlot_near {w k : Nat} {s : State} (h : s.nearBegin w k) (tp : Time) :
    issueSlot w k tp s = issueFresh w k (s.f (WHL_EVBEG_BEGIN w k)) tp (freshSlot w k s) := by
  unfold issueSlot issueFresh lateSlot lateness
  rw [freshSlot_slot]
  dsimp only
  exact if_pos h

theorem issueSlot_far {w k : Nat} {s : State} (h : ¬s.nearBegin w k) (tp : Time) : issueSlot w k tp s = s := if_neg h

section
variable {w k : Nat} {J : Nat → Prop} {N : List TrkFld}

theorem issueFresh_work (beg : Nat) (tp : Time) (s : State) : SlotWork w (· = k) slotFlds s (issueFresh w k beg tp s) := by
  unfold issueFresh
  dsimp only
  split_ifs
  · exact issueAt_work _ tp s
  · exact (lateSlot_work w k _ s).trans (issueAt_work _ tp _)
  · exact skipSlot_work w k beg tp s

theorem issueSlot_work (w k : Nat) (tp : Time) (s : State) : SlotWork w (· = k) slotFlds s (issueSlot w k tp s) := by
  by_cases h : s.nearBegin w k
  · rw [issueSlot_near h]; exact (modSlot_work w k _ _ s).trans (issueFresh_work _ tp _)
  · rw [issueSlot_far h]; exact .refl w _ _ s

/-- An operation of slot k after those of the slots J. -/
theorem TrackerFrame.thenSlot {s u v : State} (hu : TrackerFrame w J N s u) (hv : SlotWork w (· = k) slotFlds u v) :
    TrackerFrame w (fun j => J j ∨ j = k) (N ++ slotFlds) s v :=
  (hu.mono (fun _ => .inl) (by simp)).trans (hv.toTrackerFrame.mono (fun _ => .inr) (by simp))

/-- The slot that issues its begin for tb, in time or late. -/
def issued (s : State) (w k : Nat) (tb : Time) (y : WSlot) : WSlot :=
  if evAngle y.cfg = true then { y with bq := true, tb := tb, eq := true, te := boundEnd (s.predAt w (s.endDist w k)) tb y.maxd }
  else { y with bq := true, tb := tb }

/-- An occurrence that is not skipped is issued, for its predicted time or for the first time at which it can be committed. -/
theorem issueFresh_issued {c beg : Nat} {late : Int} {tp : Time} {s u t : State} {y : WSlot} (hy : y = (u.wheel w).slot k)
    (hc : c = commitHor (evPort y.cfg)) (hl : late = lateness u w c (u.begDist w k) tp)
    (h : late ≤ 0 ∨ firesLate u w y.cfg late = true) (hs : s.canSend w (evPort y.cfg) t) (hu : TrackerFrame w J N s u)
    (hq : (issueFresh w k beg tp u).sendq <+: t.sendq) :
    (issueFresh w k beg tp u).slotSt w k = 2 ∧ (0 < late → (issueFresh w k beg tp u).f (WHL_EVSTAT_FIRELATE w k) = 1) ∧
    ((issueFresh w k beg tp u).wheel w).slot k =
      issued u w k (if late ≤ 0 then u.predAt w (u.begDist w k) else tp + fc c) { y with late := decide (0 < late) || y.late } := by
  subst hy hc
  by_cases hlate : late ≤ 0
  · have heq : issueFresh w k beg tp u = issueAt w k (u.predAt w (u.begDist w k)) tp u := if_pos (hl ▸ hlate)
    rw [heq] at hq ⊢
    obtain ⟨hslot, hst, -⟩ := issueAt_issued hs hu hq
    rw [if_pos hlate, decide_eq_false (not_lt.mpr hlate), Bool.false_or]
    exact ⟨hst, fun h => absurd hlate (not_le.mpr h), hslot⟩
  · have hfire := h.resolve_left hlate
    have heq : issueFresh w k beg tp u = issueAt w k (tp + fc (commitHor (evPort ((u.wheel w).slot k).cfg))) tp (lateSlot w k u) :=
      (if_neg (hl ▸ hlate)).trans (if_pos (hl ▸ hfire))
    rw [heq] at hq ⊢
    have hpred := (lateSlot_work w k slotFlds u).prediction
    have hcfg : (((lateSlot w k u).wheel w).slot k).cfg = ((u.wheel w).slot k).cfg := by rw [lateSlot_slot]
    have hend : (lateSlot w k u).endDist w k = u.endDist w k :=
      hpred.endDist (by rintro y rfl; rw [lateSlot_slot]; exact ⟨rfl, rfl, rfl, rfl⟩)
    obtain ⟨hslot, hst, hbits⟩ := issueAt_issued (u := lateSlot w k u) (t := t) (by rw [hcfg]; exact hs) (hu.thenSlot (lateSlot_work w k _ u)) hq
    rw [if_neg hlate, decide_eq_true (not_le.mp hlate), Bool.true_or]
    refine ⟨hst, fun _ => (hbits _ (slotBit_firelate w k)).trans (lateSlot_firelate w k u), ?_⟩
    rw [hslot, lateSlot_slot, issued, hpred.predAt, hend]

theorem issueFresh_skipped {c beg : Nat} {late : Int} {tp : Time} {s u t : State} {y : WSlot} (hJ : ∀ j, J j → j < 64 ∧ j ≠ k)
    (hy : y = (u.wheel w).slot k) (hc : c = commitHor (evPort y.cfg)) (hl : late = lateness u w c (u.begDist w k) tp) (hlate : 0 < late)
    (hfire : firesLate u w y.cfg late = false) (hu : u.f (WHL_EVSTAT_PARITY w k) = s.f (WHL_EVSTAT_PARITY w k))
    (ht : TrackerFrame w J N (issueFresh w k beg tp u) t) : SlotSkipped w k s t := by
  subst hy hc
  have heq : issueFresh w k beg tp u = skipSlot w k beg tp u :=
    (if_neg (hl ▸ not_le.mpr hlate)).trans (if_neg (by rw [← hl, hfire]; decide))
  exact skipSlot_skipped hJ hu (heq ▸ ht)

/-! ### Predicting again (R234) -/

theorem repredictEnd_work (w k : Nat) (tp : Time) (s : State) : SlotWork w (· = k) slotFlds s (repredictEnd w k tp s) := by
  have hretime (t : Time) (s : State) := (retimeEnd_work w k t s).mono (N' := slotFlds) (fun _ => id) (by simp)
  unfold repredictEnd
  dsimp only
  split_ifs
  · exact .refl w _ _ s
  · exact (raise_slot_work (slotBit_endlate w k).fld _ s).trans (hretime _ _)
  · exact hretime _ s
  · exact .refl w _ _ s

/-- The end of a slot that predicts it again is all that may change of the slot. -/
theorem repredictEnd_slot (w k : Nat) (tp : Time) (s : State) :
    ((repredictEnd w k tp s).wheel w).slot k = { (s.wheel w).slot k with te := (((repredictEnd w k tp s).wheel w).slot k).te } := by
  unfold repredictEnd
  dsimp only
  split_ifs
  · rfl
  · rw [retimeEnd_slot, State.raise_wheel]
  · exact retimeEnd_slot w k _ s
  · rfl

theorem repredictEnd_slotSt (w k : Nat) (tp : Time) (s : State) : (repredictEnd w k tp s).slotSt w k = s.slotSt w k := by
  have hretime (t : Time) (s : State) : (retimeEnd w k t s).slotSt w k = s.slotSt w k := retimeEnd_evstat w k t s (slotFld_state w k).1 rfl
  unfold repredictEnd
  dsimp only
  split_ifs
  · rfl
  · rw [hretime, raise_bit_slotSt (slotBit_endlate w k)]
  · exact hretime _ s
  · rfl

theorem repredictEnd_firelate (w k : Nat) (tp : Time) (s : State) :
    (repredictEnd w k tp s).f (WHL_EVSTAT_FIRELATE w k) = s.f (WHL_EVSTAT_FIRELATE w k) := by
  have hretime (t : Time) (s : State) : (retimeEnd w k t s).f (WHL_EVSTAT_FIRELATE w k) = s.f (WHL_EVSTAT_FIRELATE w k) :=
    retimeEnd_evstat w k t s (slotBit_firelate w k).2.2.1 rfl
  unfold repredictEnd
  dsimp only
  split_ifs
  · rfl
  · exact (hretime _ _).trans (State.raise_f_ne _ _ _ (slotBit_endlate w k).2.2.1 (slotBit_firelate w k).2.2.1
      (.inr (.inl (Nat.le_of_ble_eq_true rfl))))
  · exact hretime _ s
  · rfl

/-- The end that slot k predicts, within its bound. -/
def State.nextEnd (s : State) (w k : Nat) : Time :=
  boundEnd (s.predAt w (s.endDist w k)) ((s.wheel w).slot k).tb ((s.wheel w).slot k).maxd

theorem repredictEnd_free {w k : Nat} {tp : Time} {s : State} (hend : ((s.wheel w).slot k).freeEnd tp = true)
    (hguard : ((s.wheel w).slot k).guard = false) : repredictEnd w k tp s =
      if sdiff (s.nextEnd w k) tp < (commitHor (evPort ((s.wheel w).slot k).cfg) : Int) then
        retimeEnd w k (boundEnd (tp + fc (commitHor (evPort ((s.wheel w).slot k).cfg))) ((s.wheel w).slot k).tb (2 ^ 62))
          (s.raise (WHL_EVSTAT_ENDLATE w k))
      else if s.tol w ≤ (sdiff (s.nextEnd w k) ((s.wheel w).slot k).te).natAbs ∨
          (((s.wheel w).slot k).late = true ∧ sdiff ((s.wheel w).slot k).te ((s.wheel w).slot k).tb < 512) then
        retimeEnd w k (s.nextEnd w k) s
      else s := if_neg (by simp [hend, hguard])

/-- The begin of slot k moves to t. -/
def moveBeg (w k : Nat) (t tp : Time) (s : State) : State := repredictEnd w k tp (retimeBeg w k t s)

theorem moveBeg_work (w k : Nat) (t tp : Time) (s : State) : SlotWork w (· = k) slotFlds s (moveBeg w k t tp s) :=
  ((retimeBeg_work w k t s).mono (fun _ => id) (by simp)).trans (repredictEnd_work w k tp _)

theorem moveBeg_slotSt (w k : Nat) (t tp : Time) (s : State) : (moveBeg w k t tp s).slotSt w k = s.slotSt w k :=
  (repredictEnd_slotSt w k tp _).trans (retimeBeg_evstat w k t s (slotFld_state w k).1 rfl)

theorem moveBeg_firelate (w k : Nat) (t tp : Time) (s : State) :
    (moveBeg w k t tp s).f (WHL_EVSTAT_FIRELATE w k) = s.f (WHL_EVSTAT_FIRELATE w k) :=
  (repredictEnd_firelate w k tp _).trans (retimeBeg_evstat w k t s (slotBit_firelate w k).2.2.1 rfl)

theorem moveBeg_tb {w k : Nat} {t tp : Time} {s : State} (h : s.passes w (evPort ((s.wheel w).slot k).cfg)) :
    (((moveBeg w k t tp s).wheel w).slot k).tb = t := by
  rw [moveBeg, repredictEnd_slot]
  exact retimeBeg_tb h

theorem repredictSlot_beg {w k : Nat} {tp : Time} {s : State} {y : WSlot} (hy : y = (s.wheel w).slot k) (h : y.freeBeg tp = true) {late : Int}
    (hl : late = lateness s w (commitHor (evPort y.cfg)) (s.begDist w k) tp) : repredictSlot w k tp s =
      if 0 < late then
        if firesLate s w y.cfg late = true then moveBeg w k (tp + fc (commitHor (evPort y.cfg))) tp (lateSlot w k s)
        else skipSlot w k y.beg tp s
      else if s.tol w ≤ (sdiff (s.predAt w (s.begDist w k)) y.tb).natAbs then moveBeg w k (s.predAt w (s.begDist w k)) tp s
      else repredictEnd w k tp s := by
  subst hy hl
  exact if_pos h

theorem repredictSlot_end {w k : Nat} {tp : Time} {s : State} (h : ((s.wheel w).slot k).freeBeg tp = false) :
    repredictSlot w k tp s = repredictEnd w k tp s := if_neg (by simp [h])

theorem repredictSlot_work (w k : Nat) (tp : Time) (s : State) : SlotWork w (· = k) slotFlds s (repredictSlot w k tp s) := by
  cases h : ((s.wheel w).slot k).freeBeg tp with
  | false => rw [repredictSlot_end h]; exact repredictEnd_work w k tp s
  | true =>
    rw [repredictSlot_beg rfl h rfl]
    split_ifs
    · exact (lateSlot_work w k _ s).trans (moveBeg_work w k _ tp _)
    · exact skipSlot_work w k _ tp s
    · exact moveBeg_work w k _ tp s
    · exact repredictEnd_work w k tp s

end

end Sys2Proof.Machine
end

section
namespace Sys2Proof.Machine

open Sys2Proof Reg

/-! ### A slot at a tooth -/

theorem State.reg_toNat (s : State) (a : Nat) : (s.reg a).toNat = s.f ⟨a, 0, 32⟩ := by
  rw [State.f_narrow s ⟨a, 0, 32⟩ (Nat.le_refl 32)]
  exact (Nat.mod_eq_of_lt (s.reg a).isLt).symm

/-- The interval that a tooth ends passes the angles of slot k. -/
def passStep (w k : Nat) (prev : Option Nat) (s : State) : State :=
  match prev, (s.wheel w).pos with
  | some p, some q => if s.slotSt w k = 0 then s else passSlot w k p q s
  | _, _ => s

/-- Slot k at a forward tooth. -/
def toothSlot (w : Nat) (prev : Option Nat) (live : Bool) (tp : Time) (k : Nat) (s : State) : State :=
  let u := passStep w k prev s
  if !live then u
  else if u.slotSt w k = 1 ∨ u.slotSt w k = 5 then
    (if ((s.wheel w).slot k).wait.isSome || ((u.wheel w).slot k).past.isSome then u else issueSlot w k tp u)
  else if u.slotSt w k = 0 then u
  else repredictSlot w k tp u

theorem slotsTooth_eq (w : Nat) (prev : Option Nat) (live : Bool) (tp : Time) (s : State) :
    slotsTooth w prev live tp s = eachSlot (toothSlot w prev live tp) s := rfl

section
variable {w k : Nat} {prev : Option Nat} {s : State}

theorem passStep_passes {p q : Nat} (hp : prev = some p) (hq : (s.wheel w).pos = some q) (h : s.slotSt w k ≠ 0) :
    passStep w k prev s = passSlot w k p q s := by
  simp [passStep, hp, hq, h]

theorem passStep_off (h : prev = none ∨ (s.wheel w).pos = none ∨ s.slotSt w k = 0) : passStep w k prev s = s := by
  unfold passStep
  split
  · next p q hq => exact if_pos (by simpa [hq] using h)
  · rfl

theorem passStep_work (w k : Nat) (prev : Option Nat) (N : List TrkFld) (s : State) : SlotWork w (· = k) N s (passStep w k prev s) := by
  unfold passStep
  split
  · split
    · exact .refl w _ N s
    · exact modSlot_work w k _ N s
  · exact .refl w _ N s

@[simp] theorem passStep_f (w k : Nat) (prev : Option Nat) (s : State) (F : Fld) : (passStep w k prev s).f F = s.f F := by
  unfold passStep
  split
  · split <;> rfl
  · rfl

/-- What a slot runs, apart from the angles that the wheel has passed. -/
theorem passStep_slot (w k : Nat) (prev : Option Nat) (s : State) : ∃ a b c d, ((passStep w k prev s).wheel w).slot k =
    { (s.wheel w).slot k with wait := a, past := b, bpass := c, epass := d } := by
  unfold passStep
  split
  · split
    · exact ⟨_, _, _, _, rfl⟩
    · exact ⟨_, _, _, _, State.modSlot_slot s w k _⟩
  · exact ⟨_, _, _, _, rfl⟩

theorem passStep_past (h : ((s.wheel w).slot k).past = none) : (((passStep w k prev s).wheel w).slot k).past = none := by
  unfold passStep
  split
  · split
    · exact h
    · rw [passSlot, State.modSlot_slot, h]; rfl
  · exact h

/-- A queued begin has been passed where it had been, or lies in the interval. -/
theorem passStep_bpass (hq : ((s.wheel w).slot k).bq = true) (hst : s.slotSt w k ≠ 0) {q : Nat} (hpos : (s.wheel w).pos = some q) :
    (((passStep w k prev s).wheel w).slot k).bpass =
      (((s.wheel w).slot k).bpass || prev.any fun p => s.spans w (p * 65536) (q * 65536) ((s.wheel w).slot k).beg) := by
  cases prev with
  | none => rw [passStep_off (.inl rfl)]; simp
  | some p =>
    rw [passStep_passes rfl hpos hst, passSlot, State.modSlot_slot]
    simp [hq]

end

theorem toothSlot_work (w : Nat) (prev : Option Nat) (live : Bool) (tp : Time) (k : Nat) (s : State) :
    SlotWork w (· = k) slotFlds s (toothSlot w prev live tp k s) := by
  have hpass := passStep_work w k prev slotFlds s
  unfold toothSlot
  dsimp only
  split_ifs
  · exact hpass
  · exact hpass
  · exact hpass.trans (issueSlot_work w k tp _)
  · exact hpass
  · exact hpass.trans (repredictSlot_work w k tp _)

theorem toothSlot_wait {w k : Nat} {s : State} (prev : Option Nat) (tp : Time) (hst : s.slotSt w k = 1 ∨ s.slotSt w k = 5)
    (hwait : ((s.wheel w).slot k).wait = none) (hpast : ((s.wheel w).slot k).past = none) :
    toothSlot w prev true tp k s = issueSlot w k tp (passStep w k prev s) := by
  have hst' : (passStep w k prev s).slotSt w k = s.slotSt w k := passStep_f w k prev s _
  unfold toothSlot
  dsimp only
  rw [hst', if_neg (by decide), if_pos hst, hwait, passStep_past hpast]
  rfl

theorem toothSlot_run {w k : Nat} {s : State} (prev : Option Nat) (tp : Time) (hst : 2 ≤ s.slotSt w k ∧ s.slotSt w k ≤ 4) :
    toothSlot w prev true tp k s = repredictSlot w k tp (passStep w k prev s) := by
  have hst' : (passStep w k prev s).slotSt w k = s.slotSt w k := passStep_f w k prev s _
  unfold toothSlot
  dsimp only
  rw [hst', if_neg (by decide), if_neg (by omega), if_neg (by omega)]

section
variable {w k : Nat} {prev : Option Nat} {N : List TrkFld} {tp : Time} {s u t : State} (hk : k < 64)
  (hu : TrackerFrame w (butSlot k) N s u) (ht : SlotWork w (butSlot k) slotFlds (toothSlot w prev true tp k u) t)

include hk hu in
/-- The values in force of slot k are those of before. -/
theorem passStep_fresh : (passStep w k prev u).fresh w k = s.fresh w k := by
  have hcfg {F : Fld} (hF : F.lo + F.w ≤ 32) (ho : WHL_EVCFG w k ≤ F.off ∧ F.off ≤ WHL_EVMAX w k) : u.f F = s.f F :=
    hu.other F (outside_evcfg hk butSlot_ne hF ho)
  simp only [State.fresh, passStep_f, State.reg_toNat]
  rw [hcfg (F := ⟨WHL_EVCFG w k, 0, 32⟩) (Nat.le_refl 32) (by simp [WHL_EVCFG, WHL_EVMAX]),
    hcfg (F := WHL_EVBEG_BEGIN w k) (Nat.le_of_ble_eq_true rfl) (by simp [WHL_EVBEG_BEGIN, WHL_EVBEG, WHL_EVCFG, WHL_EVMAX]),
    hcfg (F := WHL_EVEND_END w k) (Nat.le_of_ble_eq_true rfl) (by simp [WHL_EVEND_END, WHL_EVEND, WHL_EVCFG, WHL_EVMAX]),
    hcfg (F := WHL_EVMAX_MAXDUR w k) (Nat.le_of_ble_eq_true rfl) (by simp [WHL_EVMAX_MAXDUR, WHL_EVCFG, WHL_EVMAX])]

include hk hu ht in
/-- A waiting slot (R233, R234). -/
theorem toothSlot_issues {q a cfg beg c : Nat} {tb : Time} {late : Int} {y : WSlot} (hy : y = (s.wheel w).slot k)
    (hpos : (t.wheel w).pos = some q) (ha : a = q * 65536) (hwait : y.wait = none) (hpast : y.past = none)
    (hst : s.slotSt w k = 1 ∨ s.slotSt w k = 5) (hcfg : cfg = (s.reg (WHL_EVCFG w k)).toNat) (hbeg : beg = s.f (WHL_EVBEG_BEGIN w k))
    (hc : c = commitHor (evPort cfg)) (htb : tb = t.predAt w (t.ahead w a beg)) (hl : late = (c : Int) - sdiff tb tp) :
    (s.f (WHL_ISSUE_LOOKAHEAD w) * 65536 < t.ahead w a beg → t.slotSt w k = s.slotSt w k) ∧
    (t.ahead w a beg ≤ s.f (WHL_ISSUE_LOOKAHEAD w) * 65536 →
      ((late ≤ 0 ∨ firesLate t w cfg late = true) → s.canSend w (evPort cfg) t → t.slotSt w k = 2 ∧ ((t.wheel w).slot k).bq = true ∧
        ((t.wheel w).slot k).tb = (if late ≤ 0 then tb else tp + fc c) ∧ (0 < late → t.f (WHL_EVSTAT_FIRELATE w k) = 1) ∧
        (evAngle cfg = true → ((t.wheel w).slot k).eq = true ∧
          ((t.wheel w).slot k).te = boundEnd (t.predAt w (t.endDist w k)) ((t.wheel w).slot k).tb (s.f (WHL_EVMAX_MAXDUR w k)))) ∧
      (0 < late → firesLate t w cfg late = false → SlotSkipped w k s t)) := by
  subst hy ha
  have hslot := hu.slot_eq butSlot_ne
  have hsu := hu.slotSt butSlot_ne
  rw [toothSlot_wait prev tp (hsu ▸ hst) (hslot ▸ hwait) (hslot ▸ hpast)] at ht
  have hpass := passStep_work w k prev slotFlds u
  have hpred : SamePrediction w (passStep w k prev u) t := (issueSlot_work w k tp _).prediction.trans ht.prediction
  have hbegin : (passStep w k prev u).f (WHL_EVBEG_BEGIN w k) = beg :=
    (congrArg WSlot.beg (passStep_fresh hk hu)).trans hbeg.symm
  have hlook : (passStep w k prev u).f (WHL_ISSUE_LOOKAHEAD w) = s.f (WHL_ISSUE_LOOKAHEAD w) :=
    (passStep_f w k prev u _).trans (hu.cfg (Nat.le_of_ble_eq_true rfl) (by simp [WHL_ISSUE_LOOKAHEAD, WHL_ISSUE, WHL_CFG, WHL_VRCFG]))
  have hnear : (passStep w k prev u).nearBegin w k ↔ t.ahead w (q * 65536) beg ≤ s.f (WHL_ISSUE_LOOKAHEAD w) * 65536 := by
    rw [State.nearBegin, hbegin, hlook, ← hpred.pos, hpos, ← hpred.ahead, Option.getD_some]
  refine ⟨fun hfar => ?_, fun hin => ?_⟩
  · rw [issueSlot_far (mt hnear.mp (not_le.mpr hfar))] at ht
    rw [ht.slotSt butSlot_ne, ← hsu]
    exact passStep_f w k prev u _
  · rw [issueSlot_near (hnear.mpr hin)] at ht
    have hfresh : SlotWork w (· = k) slotFlds u (freshSlot w k (passStep w k prev u)) := hpass.trans (modSlot_work w k _ _ _)
    have hy : s.fresh w k = ((freshSlot w k (passStep w k prev u)).wheel w).slot k := by
      rw [freshSlot_slot, passStep_fresh hk hu]
    have hpred' : SamePrediction w (freshSlot w k (passStep w k prev u)) t := (issueFresh_work _ tp _).prediction.trans ht.prediction
    have hdist : (freshSlot w k (passStep w k prev u)).begDist w k = t.ahead w (q * 65536) beg := by
      rw [State.begDist, ← hy, ← hpred'.pos, hpos, hpred'.ahead, hbeg]; rfl
    have hlate : late = lateness (freshSlot w k (passStep w k prev u)) w c ((freshSlot w k (passStep w k prev u)).begDist w k) tp := by
      rw [lateness, hdist, ← hpred'.predAt, ← htb, hl]
    have hport : cfg = (s.fresh w k).cfg := hcfg
    refine ⟨fun h hsend => ?_, fun hpos' hfire => ?_⟩
    · obtain ⟨hst2, hfl, hslot2⟩ := issueFresh_issued hy (hport ▸ hc) hlate (by rw [← hport, ← hpred'.firesLate]; exact h) (hport ▸ hsend)
        (hu.thenSlot hfresh) ht.sendq
      have hend : (freshSlot w k (passStep w k prev u)).endDist w k = t.endDist w k := by
        refine (hpred'.endDist ?_).symm
        rintro y rfl
        rw [ht.slot_eq butSlot_ne, hslot2, issued, ← hy]
        split <;> exact ⟨rfl, rfl, rfl, rfl⟩
      rw [ht.slot_eq butSlot_ne, ht.slotSt butSlot_ne, ht.bit butSlot_ne (slotBit_firelate w k), hslot2, hdist, ← hpred'.predAt, ← htb]
      refine ⟨hst2, ?_, ?_, hfl, fun hangle => ?_⟩
      · rw [issued]; split <;> rfl
      · rw [issued]; split <;> rfl
      · rw [issued, if_pos (hport ▸ hangle), hend, ← hpred'.predAt]
        exact ⟨rfl, rfl⟩
    · exact issueFresh_skipped butSlot_ne hy (hport ▸ hc) hlate hpos' (by rw [← hport, ← hpred'.firesLate]; exact hfire)
        (by rw [freshSlot, State.modSlot_f, passStep_f, hu.parity butSlot_ne]) ht.toTrackerFrame

include hu ht in
/-- A slot whose begin is queued and uncommitted (R234). -/
theorem toothSlot_movesBegin {q a c : Nat} {passed : Bool} {tb : Time} {late : Int} {y : WSlot} (hy : y = (s.wheel w).slot k)
    (hpos : (t.wheel w).pos = some q) (ha : a = q * 65536) (hst : s.slotSt w k = 2) (hfree : y.freeBeg tp = true)
    (hs : s.canSend w (evPort y.cfg) t) (hc : c = commitHor (evPort y.cfg))
    (hp : passed = (y.bpass || prev.any fun p => t.spans w (p * 65536) a y.beg))
    (htb : tb = t.predAt w (if passed = true then -(t.dist w y.beg a : Int) else t.ahead w a y.beg)) (hl : late = (c : Int) - sdiff tb tp) :
    (late ≤ 0 → t.slotSt w k = 2 ∧ ((t.wheel w).slot k).tb = if t.tol w ≤ (sdiff tb y.tb).natAbs then tb else y.tb) ∧
    (0 < late → firesLate t w y.cfg late = true → t.slotSt w k = 2 ∧ ((t.wheel w).slot k).tb = tp + fc c ∧
      t.f (WHL_EVSTAT_FIRELATE w k) = 1) ∧
    (0 < late → firesLate t w y.cfg late = false → SlotSkipped w k s t) := by
  subst hy ha
  have hslot := hu.slot_eq butSlot_ne
  have hsu := hu.slotSt butSlot_ne
  rw [toothSlot_run prev tp (by omega)] at ht
  have hpass := passStep_work w k prev slotFlds u
  have hpred : SamePrediction w (passStep w k prev u) t := (repredictSlot_work w k tp _).prediction.trans ht.prediction
  have hpassed : (((passStep w k prev u).wheel w).slot k).bpass = passed := by
    have hbq : ((u.wheel w).slot k).bq = true := by rw [hslot]; simp [WSlot.freeBeg] at hfree; exact hfree.1.1
    have hupos : (u.wheel w).pos = some q := hpass.prediction.pos ▸ hpred.pos ▸ hpos
    rw [passStep_bpass hbq (by omega) hupos, hslot, hp]
    simp only [hpass.prediction.symm.spans, hpred.spans]
  obtain ⟨y', hy'⟩ : ∃ y', y' = ((passStep w k prev u).wheel w).slot k := ⟨_, rfl⟩
  obtain ⟨b1, b2, b3, b4, hrest⟩ := passStep_slot w k prev u
  rw [hslot, ← hy'] at hrest
  have hdist : (passStep w k prev u).begDist w k =
      if passed = true then -(t.dist w ((s.wheel w).slot k).beg (q * 65536) : Int) else t.ahead w (q * 65536) ((s.wheel w).slot k).beg := by
    rw [State.begDist, hpassed, ← hpred.pos, hpos, ← hy', hrest, hpred.dist, hpred.ahead]; rfl
  have hlate : late = lateness (passStep w k prev u) w (commitHor (evPort y'.cfg)) ((passStep w k prev u).begDist w k) tp := by
    rw [lateness, hdist, ← hpred.predAt, ← htb, hl, hc, hrest]
  have hsends : (passStep w k prev u).passes w (evPort y'.cfg) := by
    rw [hrest]
    exact passes_of_canSend hs (hu.thenSlot hpass) ((repredictSlot_work w k tp _).sendq.trans ht.sendq) (evPort_lt _)
  have heq := repredictSlot_beg hy' (tp := tp) (by rw [hrest]; exact hfree) hlate
  rw [hdist, ← hpred.predAt, ← htb, ← hpred.tol, ← hpred.firesLate] at heq
  rw [heq] at ht
  have hst2 : (passStep w k prev u).slotSt w k = 2 := (passStep_f w k prev u _).trans (hsu.trans hst)
  refine ⟨fun hle => ?_, fun hlt hfire => ?_, fun hlt hfire => ?_⟩
  · rw [if_neg (not_lt.mpr hle)] at ht
    have hty : y'.tb = ((s.wheel w).slot k).tb := by rw [hrest]
    split at ht
    · next htol =>
      rw [hty] at htol
      rw [ht.slotSt butSlot_ne, ht.slot_eq butSlot_ne, moveBeg_slotSt, hst2, if_pos htol]
      exact ⟨rfl, moveBeg_tb (hy' ▸ hsends)⟩
    · next htol =>
      rw [hty] at htol
      rw [ht.slotSt butSlot_ne, ht.slot_eq butSlot_ne, repredictEnd_slotSt, hst2, if_neg htol, repredictEnd_slot, ← hy', hrest]
      exact ⟨rfl, rfl⟩
  · rw [if_pos hlt, if_pos (by rw [hrest]; exact hfire)] at ht
    have hlate' := (lateSlot_work w k slotFlds (passStep w k prev u))
    rw [ht.slotSt butSlot_ne, ht.slot_eq butSlot_ne, ht.bit butSlot_ne (slotBit_firelate w k), moveBeg_slotSt, moveBeg_firelate,
      lateSlot_slotSt, hst2, lateSlot_firelate, moveBeg_tb, hc, hrest]
    · exact ⟨rfl, rfl, rfl⟩
    · rw [lateSlot_slot, ← hy', hrest]
      refine passes_of_canSend hs ((hu.thenSlot hpass).thenSlot hlate' |>.mono (J' := fun j => butSlot k j ∨ j = k) ?_ (List.Subset.refl _))
        ((moveBeg_work w k _ tp _).sendq.trans ht.sendq) (evPort_lt _)
      exact fun j hj => hj.elim id .inr
  · rw [if_pos hlt, if_neg (by rw [hrest, hfire]; decide)] at ht
    exact skipSlot_skipped butSlot_ne ((passStep_f w k prev u _).trans (hu.parity butSlot_ne)) ht.toTrackerFrame

include hu ht in
/-- A slot whose end is queued and uncommitted, and its begin is not (R234). -/
theorem toothSlot_movesEnd {c : Nat} {te : Time} {y : WSlot} (hy : y = (s.wheel w).slot k)
    (hst : 2 ≤ s.slotSt w k ∧ s.slotSt w k ≤ 4) (hfree : y.freeBeg tp = false) (hend : y.freeEnd tp = true) (hguard : y.guard = false)
    (hs : s.canSend w (evPort y.cfg) t) (hc : c = commitHor (evPort y.cfg))
    (hte : te = boundEnd (t.predAt w (t.endDist w k)) y.tb y.maxd) :
    (sdiff te tp < (c : Int) → t.f (WHL_EVSTAT_ENDLATE w k) = 1 ∧ ((t.wheel w).slot k).te = boundEnd (tp + fc c) y.tb (2 ^ 62)) ∧
    ((c : Int) ≤ sdiff te tp → t.tol w ≤ (sdiff te y.te).natAbs → ((t.wheel w).slot k).te = te) ∧
    ((c : Int) ≤ sdiff te tp → (sdiff te y.te).natAbs < t.tol w → y.late = false → ((t.wheel w).slot k).te = y.te) := by
  subst hy
  have hslot := hu.slot_eq butSlot_ne
  have hsu := hu.slotSt butSlot_ne
  rw [toothSlot_run prev tp (by omega)] at ht
  have hpass := passStep_work w k prev slotFlds u
  obtain ⟨y', hy'⟩ : ∃ y', y' = ((passStep w k prev u).wheel w).slot k := ⟨_, rfl⟩
  obtain ⟨b1, b2, b3, b4, hrest⟩ := passStep_slot w k prev u
  rw [hslot, ← hy'] at hrest
  rw [repredictSlot_end (by rw [← hy', hrest]; exact hfree)] at ht
  have hpred : SamePrediction w (passStep w k prev u) t := (repredictEnd_work w k tp _).prediction.trans ht.prediction
  have hnext : (passStep w k prev u).nextEnd w k = te := by
    have hdist : t.endDist w k = (passStep w k prev u).endDist w k := by
      refine hpred.endDist ?_
      rintro y rfl
      rw [ht.slot_eq butSlot_ne, repredictEnd_slot]
      exact ⟨rfl, rfl, rfl, rfl⟩
    rw [State.nextEnd, ← hdist, ← hpred.predAt, ← hy', hrest, hte]
  have hsends (v : State) (hv : SlotWork w (· = k) slotFlds (passStep w k prev u) v) (hq : v.sendq <+: t.sendq) :
      v.passes w (evPort ((s.wheel w).slot k).cfg) := by
    refine passes_of_canSend hs ((hu.thenSlot hpass).thenSlot hv |>.mono (J' := fun j => butSlot k j ∨ j = k) ?_ (List.Subset.refl _)) hq (evPort_lt _)
    exact fun j hj => hj.elim id .inr
  rw [repredictEnd_free (by rw [← hy', hrest]; exact hend) (by rw [← hy', hrest]; exact hguard), hnext, ← hy', ← hpred.tol, hrest, ← hc] at ht
  refine ⟨fun hlt => ?_, fun hle htol => ?_, fun hle htol hlate => ?_⟩
  · rw [if_pos hlt] at ht
    rw [ht.bit butSlot_ne (slotBit_endlate w k), ht.slot_eq butSlot_ne, retimeEnd_evstat w k _ _ (slotBit_endlate w k).2.2.1 rfl,
      raise_bit_same (slotBit_endlate w k), retimeEnd_te]
    · exact ⟨rfl, rfl⟩
    · rw [State.raise_wheel, ← hy', hrest]
      exact hsends _ (raise_slot_work (slotBit_endlate w k).fld _ _) ((retimeEnd_work w k _ _).sendq.trans ht.sendq)
  · rw [if_neg (not_lt.mpr hle), if_pos (.inl htol)] at ht
    rw [ht.slot_eq butSlot_ne, retimeEnd_te]
    rw [← hy', hrest]
    exact hsends _ (.refl w _ _ _) ((retimeEnd_work w k _ _).sendq.trans ht.sendq)
  · rw [if_neg (not_lt.mpr hle), if_neg (by rintro (h | ⟨h, -⟩); exacts [absurd h (not_le.mpr htol), by simp [hlate] at h])] at ht
    rw [ht.slot_eq butSlot_ne, ← hy', hrest]

end

end Sys2Proof.Machine
end

section
namespace Sys2Proof.Machine

open Sys2Proof Reg

/-! ### Reading the tooth table (R219, R349) -/

theorem readWordErr_work (w r : Nat) (J : Nat → Prop) (N : List TrkFld) (s : State) (x : Nat) :
    SlotWork w J N s (readWordErr 6 r s x) := by
  unfold readWordErr
  split
  · exact .refl w J N s
  · have h : OnlyNoted s (countCorr 6 s) [SAG_STATUS, SAG_ECC 6] :=
      (bump_onlyNoted s _ (by decide) (by decide)).trans (raise_onlyNoted _ _ (by decide) (by decide))
    obtain ⟨hframe, hregs⟩ := h
    exact slotWork_of_sameRegs (by rw [hframe]; exact ⟨rfl, rfl, rfl, rfl, rfl⟩) hregs (by simp) J
  · have hcount : OnlyNoted s ((((s.bump (SAG_ECC_UNC 6)).raise (bitFld SAG_STATUS_UNC 6)).setF (SAG_ECC_REQ 6) r).setReg
        (SAG_ECCADDR 6) (BitVec.ofNat 32 (eccAddr 6 x))) [SAG_STATUS, SAG_ECC 6, SAG_ECCADDR 6] :=
      (((bump_onlyNoted s _ (by decide) (by decide)).trans (raise_onlyNoted _ _ (by decide) (by decide))).trans
        (setF_onlyRegs _ _ _ (by decide) (by decide)).noted).trans (setReg_onlyRegs _ _ (by decide)).noted
    obtain ⟨hframe, hregs⟩ := hcount
    rw [countUnc]
    refine slotWork_of_sameRegs (l := [SAG_STATUS, SAG_ECC 6, SAG_ECCADDR 6]) ?_ (fun o ho => ?_) (by simp) J
    · simp only [logFault_kln, logFault_sendq, logFault_mem, logFault_upset, logFault_wheels]
      rw [hframe]
      exact ⟨rfl, rfl, rfl, rfl, rfl⟩
    · exact (congrArg (mget · o (resetWord o)) (logFault_regs _ _ _ _ _)).trans (hregs o ho)

theorem ttRequest_work (w v : Nat) (J : Nat → Prop) (N : List TrkFld) (s : State) : SlotWork w J N s (ttRequest v s) := by
  unfold ttRequest
  split
  · exact .refl w J N s
  · exact { SlotWork.refl w J N s with }

theorem ttRead_work (w v i n : Nat) (J : Nat → Prop) (N : List TrkFld) (s : State) : SlotWork w J N s (ttRead v i n s).2.2 := by
  have hread (l : List Nat) (u : State) : SlotWork w J N u (l.foldl (readWordErr 6 0) u) := by
    induction l generalizing u with
    | nil => exact .refl w J N u
    | cons x l ih => exact (readWordErr_work w 0 J N u x).trans (ih _)
  exact (ttRequest_work w v J N s).trans (hread _ _)

theorem ttRead_bad (v i n : Nat) (s : State) : (ttRead v i n s).2.1 = s.badWord (ttAddr i) (4 * n) := by
  have hreq : (ttRequest v s).upset = s.upset := (ttRequest_work 0 v noSlot [] s).upset
  exact badWord_congr hreq _ _

/-! ### Writing the tooth table (R350) -/

/-- The four bytes of a word at a. -/
def putEntry (a v : Nat) (s : State) : State :=
  (((s.setByte a (BitVec.ofNat 8 v)).setByte (a + 1) (BitVec.ofNat 8 (v / 256))).setByte (a + 2) (BitVec.ofNat 8 (v / 256 / 256))).setByte
    (a + 3) (BitVec.ofNat 8 (v / 256 / 256 / 256))

theorem putEntry_byte_other {a x : Nat} (v : Nat) (s : State) (h : x < a ∨ a + 4 ≤ x) : (putEntry a v s).byte x = s.byte x := by
  unfold putEntry
  rw [State.setByte_byte_ne _ _ (by omega), State.setByte_byte_ne _ _ (by omega), State.setByte_byte_ne _ _ (by omega),
    State.setByte_byte_ne _ _ (by omega)]

theorem putEntry_byte (a v : Nat) (s : State) : (putEntry a v s).byte a = BitVec.ofNat 8 v ∧
    (putEntry a v s).byte (a + 1) = BitVec.ofNat 8 (v / 256) ∧ (putEntry a v s).byte (a + 2) = BitVec.ofNat 8 (v / 256 / 256) ∧
    (putEntry a v s).byte (a + 3) = BitVec.ofNat 8 (v / 256 / 256 / 256) := by
  unfold putEntry
  refine ⟨?_, ?_, ?_, State.setByte_byte_same _ _ _⟩
  · rw [State.setByte_byte_ne _ _ (by omega), State.setByte_byte_ne _ _ (by omega), State.setByte_byte_ne _ _ (by omega),
      State.setByte_byte_same]
  · rw [State.setByte_byte_ne _ _ (by omega), State.setByte_byte_ne _ _ (by omega), State.setByte_byte_same]
  · rw [State.setByte_byte_ne _ _ (by omega), State.setByte_byte_same]

/-- A word is stored whole: no bit of it is inverted any more. -/
def storeEntry (a v : Nat) (s : State) : State := { putEntry a v s with upset := mset s.upset a 0 0 }

theorem storeEntry_work (w a v : Nat) (J : Nat → Prop) (N : List TrkFld) (s : State) : TrackerFrame w J N s (storeEntry a v s) :=
  { TrackerFrame.refl w J N s with }

theorem storeEntry_upset_same (a v : Nat) (s : State) : (storeEntry a v s).upsetOf a = 0 := mget_mset_same s.upset a 0 0

theorem storeEntry_upset_ne {a x : Nat} (v : Nat) (h : x ≠ a) (s : State) : (storeEntry a v s).upsetOf x = s.upsetOf x :=
  mget_mset_ne s.upset 0 0 0 h

/-- A write of a whole entry. -/
theorem bankWrite_entry (r i v : Nat) (s : State) : bankWrite 6 r (ttAddr i) ((leBytes 4 v).map some) s =
    inject 6 (ttAddr i) (storeEntry (ttAddr i) v s) := by
  have hword : ttAddr i % 4 = 0 := by rw [ttAddr]; omega
  have hwords : wordsAt (eccSize 6) (ttAddr i) ((leBytes 4 v).map some).length = [ttAddr i] := by
    simp [wordsAt, eccSize, leBytes, hword]
    omega
  rw [bankWrite, hwords, List.foldl_cons, List.foldl_nil, writeWord]
  simp [bytesIn, leBytes, eccSize, List.zipIdx, storeEntry, putEntry]

/-- An injection strikes one word, and its register tells it (R354). -/
theorem inject_work (w x : Nat) (J : Nat → Prop) (N : List TrkFld) (s : State) :
    TrackerFrame w J N s (inject 6 x s) ∧ (inject 6 x s).mem = s.mem ∧ (inject 6 x s).wheels = s.wheels := by
  unfold inject
  split
  · have hset := setF_onlyRegs { s with upset := mset s.upset x (if s.flag SAG_ECCINJ_DOUBLE then 3 else 1) 0 } SAG_ECCINJ_ARM 0 (l := [SAG_ECCINJ])
      (by decide) (by decide)
    obtain ⟨hframe, hregs⟩ := hset
    refine ⟨?_, by simp, by simp⟩
    have hup : TrackerFrame w J N s { s with upset := mset s.upset x (if s.flag SAG_ECCINJ_DOUBLE then 3 else 1) 0 } := { TrackerFrame.refl w J N s with }
    exact hup.trans (slotWork_of_sameRegs (N := N) (by rw [hframe]; exact ⟨rfl, rfl, rfl, rfl, rfl⟩) hregs (by simp) J).toTrackerFrame
  · exact ⟨.refl w J N s, rfl, rfl⟩

theorem inject_upset_ne {x y : Nat} (h : y ≠ x) (s : State) : (inject 6 x s).upsetOf y = s.upsetOf y := by
  unfold inject
  split
  · rw [State.upsetOf, State.setF_upset]; exact mget_mset_ne _ _ _ _ h
  · rfl

theorem inject_upset_le {x : Nat} {s : State} (h : s.upsetOf x = 0) : (inject 6 x s).upsetOf x ≤ 3 := by
  unfold inject
  split
  · rw [State.upsetOf, State.setF_upset]
    refine (mget_mset_same _ _ _ _).trans_le ?_
    split <;> decide
  · rw [h]; decide

section
variable (w r i v : Nat) (J : Nat → Prop) (N : List TrkFld) (s : State)

/-- What a write of an entry of the tooth table does. -/
theorem entryWrite_work : TrackerFrame w J N s (bankWrite 6 r (ttAddr i) ((leBytes 4 v).map some) s) ∧
    (bankWrite 6 r (ttAddr i) ((leBytes 4 v).map some) s).wheels = s.wheels := by
  rw [bankWrite_entry]
  obtain ⟨hframe, -, hwheels⟩ := inject_work w (ttAddr i) J N (storeEntry (ttAddr i) v s)
  exact ⟨(storeEntry_work w _ v J N s).trans hframe, hwheels⟩

theorem entryWrite_byte_other {x : Nat} (h : x < ttAddr i ∨ ttAddr i + 4 ≤ x) :
    (bankWrite 6 r (ttAddr i) ((leBytes 4 v).map some) s).byte x = s.byte x := by
  rw [bankWrite_entry, byte_congr (inject_work 0 (ttAddr i) noSlot [] _).2.1]
  exact putEntry_byte_other v s h

theorem entryWrite_byte : ∀ k < 4, (bankWrite 6 r (ttAddr i) ((leBytes 4 v).map some) s).byte (ttAddr i + k) =
    BitVec.ofNat 8 (v / 256 ^ k) := by
  obtain ⟨h0, h1, h2, h3⟩ := putEntry_byte (ttAddr i) v s
  intro k hk
  rw [bankWrite_entry, byte_congr (inject_work 0 (ttAddr i) noSlot [] _).2.1]
  match k, hk with
  | 0, _ => exact h0.trans (by rw [Nat.pow_zero, Nat.div_one])
  | 1, _ => exact h1
  | 2, _ => exact h2.trans (by rw [Nat.div_div_eq_div_mul, pow_two])
  | 3, _ => exact h3.trans (by rw [Nat.div_div_eq_div_mul, Nat.div_div_eq_div_mul, pow_succ', pow_two])

theorem entryWrite_memNat (hv : v < 2 ^ 32) : (bankWrite 6 r (ttAddr i) ((leBytes 4 v).map some) s).memNat (ttAddr i) 4 = v := by
  have hb := entryWrite_byte r i v s
  simp only [State.memNat, State.bytes, List.range, List.range.loop, List.map_cons, List.map_nil, leNat]
  rw [hb 0 (by decide), hb 1 (by decide), hb 2 (by decide), hb 3 (by decide)]
  simp only [BitVec.toNat_ofNat]
  omega

theorem entryWrite_upset_ne {x : Nat} (hx : x ≠ ttAddr i) :
    (bankWrite 6 r (ttAddr i) ((leBytes 4 v).map some) s).upsetOf x = s.upsetOf x := by
  rw [bankWrite_entry, inject_upset_ne hx, storeEntry_upset_ne v hx]

theorem entryWrite_upset_le : (bankWrite 6 r (ttAddr i) ((leBytes 4 v).map some) s).upsetOf (ttAddr i) ≤ 3 := by
  rw [bankWrite_entry]
  exact inject_upset_le (storeEntry_upset_same _ v s)

end

theorem readByte_entry (s : State) (i : Nat) {k : Nat} (hk : k < 4) : s.readByte 4 (ttAddr i + k) =
    if s.wordErr (ttAddr i) < 2 then s.byte (ttAddr i + k)
    else s.byte (ttAddr i + k) ^^^ BitVec.ofNat 8 (s.upsetOf (ttAddr i) >>> (8 * k)) := by
  have hw : (ttAddr i + k) / 4 * 4 = ttAddr i := by simp only [ttAddr]; omega
  have hr : (ttAddr i + k) % 4 = k := by simp only [ttAddr]; omega
  rw [State.readByte, hw, hr]

/-- An entry whose bytes and upsets have not changed reads as before. -/
theorem ttWord_of_bytes {s t : State} {i : Nat} (hb : ∀ k < 4, t.byte (ttAddr i + k) = s.byte (ttAddr i + k))
    (hu : t.upsetOf (ttAddr i) = s.upsetOf (ttAddr i)) : t.ttWord i = s.ttWord i := by
  have he : t.wordErr (ttAddr i) = s.wordErr (ttAddr i) := by rw [State.wordErr, hu, State.wordErr]
  have hr : ∀ k ∈ List.range 4, t.readByte 4 (ttAddr i + k) = s.readByte 4 (ttAddr i + k) := fun k hk => by
    have hk := List.mem_range.mp hk
    rw [readByte_entry t i hk, readByte_entry s i hk, he, hb k hk, hu]
  rw [State.ttWord, List.map_congr_left hr, State.ttWord]

theorem entryWrite_ttWord_ne (r : Nat) {i j : Nat} (v : Nat) (h : j ≠ i) (s : State) :
    (bankWrite 6 r (ttAddr i) ((leBytes 4 v).map some) s).ttWord j = s.ttWord j :=
  ttWord_of_bytes (fun k hk => entryWrite_byte_other r i v s (by simp only [ttAddr]; omega))
    (entryWrite_upset_ne r i v s (by simp only [ttAddr]; omega))

/-- The mark of a physical tooth survives an injection. -/
theorem entryWrite_ttWord_phys (r i v : Nat) (s : State) :
    ((bankWrite 6 r (ttAddr i) ((leBytes 4 v).map some) s).ttWord i).testBit 24 = v.testBit 24 := by
  have hb := entryWrite_byte r i v s
  have hup := entryWrite_upset_le r i v s
  generalize bankWrite 6 r (ttAddr i) ((leBytes 4 v).map some) s = t at hb hup
  have h3 : t.readByte 4 (ttAddr i + 3) = BitVec.ofNat 8 (v / 256 ^ 3) := by
    have hz : t.upsetOf (ttAddr i) >>> (8 * 3) = 0 := by
      rw [Nat.shiftRight_eq_div_pow]; exact Nat.div_eq_of_lt (Nat.lt_of_le_of_lt hup (by decide))
    rw [readByte_entry t i (by decide), hz, hb 3 (by decide)]
    split
    · rfl
    · exact BitVec.xor_zero
  simp only [State.ttWord, List.range, List.range.loop, List.map_cons, List.map_nil, leNat]
  rw [h3]
  have h0 := (t.readByte 4 (ttAddr i + 0)).isLt
  have h1 := (t.readByte 4 (ttAddr i + 1)).isLt
  have h2 := (t.readByte 4 (ttAddr i + 2)).isLt
  simp only [Nat.testBit_eq_decide_div_mod_eq, BitVec.toNat_ofNat]
  congr 1
  rw [eq_iff_iff]
  omega

end Sys2Proof.Machine
end

section
namespace Sys2Proof.Machine

open Sys2Proof Reg

/-! ### The operations of a tooth -/

/-- The fields that a change of state may change. -/
abbrev stateFlds : List TrkFld := [.state, .syncgain, .seq, .drop, .dropped]

/-- The fields that a sync loss may change. -/
abbrev lossFlds : List TrkFld := [.syncloss, .loss, .cause, .estvalid, .learning, .state, .syncgain, .seq, .drop, .dropped]

/-- The fields that an accepted tooth may change. -/
abbrev acceptFlds : List TrkFld := [.estvalid, .angle, .accel, .seq, .drop, .dropped]

/-- The fields that the synchronisation may change. -/
abbrev syncFlds : List TrkFld := [.estvalid, .cyccnt, .angle, .state, .syncgain, .seq, .drop, .dropped]

section
variable (w : Nat) (s : State)

@[simp] theorem setF_trk (F : Fld) (v : Nat) : (s.setF F v).trk w = s.trk w := by rw [State.trk, State.setF_wheel, State.trk]
@[simp] theorem raise_trk (F : Fld) : (s.raise F).trk w = s.trk w := by rw [State.trk, State.raise_wheel, State.trk]
@[simp] theorem bump_trk (F : Fld) : (s.bump F).trk w = s.trk w := by rw [State.trk, State.bump_wheel, State.trk]
@[simp] theorem whlPulse_trk (k : Nat) : (whlPulse w k s).trk w = s.trk w := (whlPulse_work w k noSlot [] s).trk

/-- A change to state v is told by SYNCGAIN and a record (R245, R250). -/
def noteState (w v : Nat) (t : Time) (s : State) : State :=
  let u := if v = 3 then whlPulse w 2 (s.raise (WHL_FLAGS_SYNCGAIN w)) else s
  whlRec w 0x14 t (u.f (WHL_INPUT_PPORT w)) false (v + u.f (WHL_STATUS_CAUSE w) * 16) u

theorem modWheel_trk_of {f : Tracker → Tracker} (hf : ∀ x, (f x).bare = f x.bare) : (s.modWheel w f).trk w = f (s.trk w) :=
  (modWheel_trk w f s).trans (hf _)

theorem State.wheel_fifo : (s.wheel w).fifo = (s.trk w).fifo := rfl
theorem State.wheel_lastP : (s.wheel w).lastP = (s.trk w).lastP := rfl
theorem State.wheel_hist : (s.wheel w).hist = (s.trk w).hist := rfl
theorem State.wheel_a2 : (s.wheel w).a2 = (s.trk w).a2 := rfl
theorem State.wheel_accl : (s.wheel w).accl = (s.trk w).accl := rfl
theorem State.wheel_lastT : (s.wheel w).lastT = (s.trk w).lastT := rfl
theorem State.wheel_prevE : (s.wheel w).prevE = (s.trk w).prevE := rfl
theorem State.wheel_pos : (s.wheel w).pos = (s.trk w).pos := rfl
theorem State.wheel_conf : (s.wheel w).conf = (s.trk w).conf := rfl
theorem State.wheel_saved : (s.wheel w).saved = (s.trk w).saved := rfl
theorem State.wheel_refs : (s.wheel w).refs = (s.trk w).refs := rfl
theorem State.wheel_recent : (s.wheel w).recent = (s.trk w).recent := rfl
theorem State.wheel_cyc : (s.wheel w).cyc = (s.trk w).cyc := rfl
theorem State.wheel_secs : (s.wheel w).secs = (s.trk w).secs := rfl

theorem noteState_work (v : Nat) (t : Time) (J : Nat → Prop) : SlotWork w J [.syncgain, .seq, .drop, .dropped] s (noteState w v t s) := by
  unfold noteState
  refine SlotWork.trans ?_ ((whlRec_work w 0x14 t _ false _ J _).mono (fun _ => id) (by simp))
  split
  · exact ((raise_fld_work w J .syncgain _).mono (fun _ => id) (by simp)).trans (whlPulse_work w 2 J _ _)
  · exact .refl w J _ _

theorem noteState_syncgain (t : Time) : (noteState w 3 t s).f (WHL_FLAGS_SYNCGAIN w) = 1 := by
  unfold noteState
  rw [if_pos rfl]
  refine ((whlRec_work w 0x14 t _ false _ noSlot _).fld .syncgain (by simp)).trans
    (((whlPulse_work w 2 noSlot [] _).fld .syncgain (by simp)).trans ?_)
  exact State.raise_f_same _ _ (TrkFld.syncgain.narrow w) (Nat.le_refl 1)

variable {w s} in
theorem setWhlState_idle {v : Nat} (h : s.whlState w = v) (t : Time) : setWhlState w v t s = s := if_pos h

variable {w s} in
theorem setWhlState_change {v : Nat} (h : s.whlState w ≠ v) (t : Time) :
    setWhlState w v t s = noteState w v t (s.setF (WHL_STATUS_STATE w) v) := if_neg h

theorem setWhlState_work (v : Nat) (t : Time) (J : Nat → Prop) : SlotWork w J stateFlds s (setWhlState w v t s) := by
  by_cases h : s.whlState w = v
  · rw [setWhlState_idle h]; exact .refl w J _ s
  · rw [setWhlState_change h]
    exact ((setF_fld_work w J .state (by simp) s).mono (fun _ => id) (by simp)).trans ((noteState_work w _ v t J).mono (fun _ => id) (by simp))

theorem setWhlState_whlState {v : Nat} (hv : v < 8) (t : Time) : (setWhlState w v t s).whlState w = v := by
  by_cases h : s.whlState w = v
  · rw [setWhlState_idle h, h]
  · rw [setWhlState_change h]
    refine ((noteState_work w _ v t noSlot).fld .state (by simp)).trans ((State.setF_fld_same s w .state v).trans (Nat.mod_eq_of_lt hv))

variable {w s} in
theorem setWhlState_syncgain (h : s.whlState w ≠ 3) (t : Time) : (setWhlState w 3 t s).f (WHL_FLAGS_SYNCGAIN w) = 1 := by
  rw [setWhlState_change h, noteState_syncgain]

@[simp] theorem setWhlState_trk (v : Nat) (t : Time) : (setWhlState w v t s).trk w = s.trk w := (setWhlState_work w s v t noSlot).trk

theorem restartEst_work (J : Nat → Prop) : TrackerWork w J [.estvalid] s (restartEst w s) :=
  (modWheel_work w J _ (f := fun x => { x with hist := [], a1 := 0, a2 := 0, accl := false }) (fun _ => rfl) s).trans
    (setF_fld_work w J .estvalid (by simp) _).toTrackerWork

@[simp] theorem restartEst_trk : (restartEst w s).trk w = { s.trk w with hist := [], a1 := 0, a2 := 0, accl := false } := by
  rw [restartEst, setF_trk, modWheel_trk]; rfl

theorem keepTooth_work (t : Time) (p : Option Nat) (J : Nat → Prop) (N : List TrkFld) : TrackerWork w J N s (keepTooth w t p s) :=
  modWheel_work w J _ (f := fun x => { x with recent := ((t, p) :: x.recent).take 1024 }) (fun _ => rfl) s

@[simp] theorem keepTooth_trk (t : Time) (p : Option Nat) :
    (keepTooth w t p s).trk w = { s.trk w with recent := ((t, p) :: (s.trk w).recent).take 1024 } := modWheel_trk w _ s

/-- The estimate is shown (R253). -/
def showEst (w : Nat) (x : Tracker) (a : Nat × Nat) (s : State) : State :=
  let s := (s.setF (WHL_STATUS_ESTVALID w) x.valid.toNat).setF (WHL_TPT_N2 w) (BitVec.ofInt 64 (tptOf a.2 x.ints.2)).toNat
  s.setF (WHL_SLOPE_S w) (if x.valid && s.accOn w then (BitVec.ofInt 64 (slopeOf a.1 a.2 x.ints.1 x.ints.2)).toNat else 0)

theorem showEst_work (x : Tracker) (a : Nat × Nat) (J : Nat → Prop) : SlotWork w J [.estvalid] s (showEst w x a s) := by
  unfold showEst
  exact ((setF_fld_work w J .estvalid (by simp) s).trans (setF_wide_work (.inr (.inl rfl)) J _ _ _)).trans
    (setF_wide_work (.inr (.inr (.inl rfl))) J _ _ _)

/-- A tooth joins the estimator. -/
def Tracker.pushed (t : Time) (p : Nat) (acc : Bool) (x : Tracker) : Tracker := { x with hist := ((t, p) :: x.hist).take 3, accl := acc }

/-- The spans of the estimate. -/
def Tracker.spanned (a : Nat × Nat) (x : Tracker) : Tracker := { x with a1 := a.1, a2 := a.2 }

/-- The spans that the teeth of the estimator make. -/
def State.estSpans (s : State) (w : Nat) : Nat × Nat := match (s.wheel w).hist with
  | [c, b, a] => (s.spanOf w a.2 b.2, s.spanOf w b.2 c.2)
  | [c, b] => (0, s.spanOf w b.2 c.2)
  | _ => (0, 0)

theorem pushEst_eq (t : Time) (p : Nat) (acc : Bool) : pushEst w t p acc s =
    let u := s.modWheel w (Tracker.pushed t p acc)
    showEst w (u.wheel w) (u.estSpans w) (u.modWheel w (Tracker.spanned (u.estSpans w))) := by
  unfold pushEst showEst State.estSpans
  extract_lets u
  rfl

theorem pushEst_work (t : Time) (p : Nat) (acc : Bool) (J : Nat → Prop) : TrackerWork w J [.estvalid] s (pushEst w t p acc s) := by
  rw [pushEst_eq]
  exact ((modWheel_work w J _ (f := Tracker.pushed t p acc) (fun _ => rfl) s).trans
    (modWheel_work w J _ (f := Tracker.spanned _) (fun _ => rfl) _)).trans (showEst_work w _ _ _ J).toTrackerWork

theorem pushEst_trk (t : Time) (p : Nat) (acc : Bool) : ∃ h a b, (pushEst w t p acc s).trk w = { s.trk w with hist := h, a1 := a, a2 := b, accl := acc } := by
  rw [pushEst_eq]
  dsimp only
  rw [(showEst_work w _ _ _ noSlot).trk, modWheel_trk, State.modWheel_wheel_same]
  exact ⟨_, _, _, rfl⟩

/-- The records that tell an accepted tooth (R245, R246, R253). -/
def noteTooth (w : Nat) (t : Time) (rev acc : Bool) (a : Nat) (s : State) : State :=
  let s := (s.setF (WHL_LASTT_TIME w) t.toNat).setF (WHL_ANGLE_ANGLE w) a
  let s := whlPulse w 0 (whlRec w 0x10 t (s.f (WHL_INPUT_PPORT w)) rev a s)
  if acc then whlPulse w 6 (s.raise (WHL_FLAGS_ACCEL_LIMIT w)) else s

theorem noteTooth_work (t : Time) (rev acc : Bool) (a : Nat) (J : Nat → Prop) : SlotWork w J acceptFlds s (noteTooth w t rev acc a s) := by
  unfold noteTooth
  extract_lets s1 s2
  have h1 : SlotWork w J acceptFlds s s1 := (setF_wide_work (.inl rfl) J _ _ s).trans
    ((setF_fld_work w J .angle (by simp) _).mono (fun _ => id) (by simp))
  have h2 : SlotWork w J acceptFlds s s2 := h1.trans (((whlRec_work w 0x10 t _ rev a J s1).mono (fun _ => id) (by simp)).trans (whlPulse_work w 0 J _ _))
  split
  · exact h2.trans (((raise_fld_work w J .accel s2).mono (fun _ => id) (by simp)).trans (whlPulse_work w 6 J _ _))
  · exact h2

/-- The last tooth is at t. -/
def Tracker.accepted (t : Time) (x : Tracker) : Tracker :=
  { x with lastT := some t, stallT := some t, prevE := if x.recent.length ≤ 1 then none else x.lastT.map fun u => (t - u).toNat
           seen := x.seen.filter fun u => future u t }

theorem acceptTooth_eq (t : Time) (rev acc : Bool) : acceptTooth w t rev acc s =
    noteTooth w t rev acc (((s.wheel w).pos.getD 0) * 65536) (match (s.wheel w).pos with
      | some p => pushEst w t p acc (s.modWheel w (Tracker.accepted t))
      | none => s.modWheel w (Tracker.accepted t)) := by
  unfold acceptTooth noteTooth
  rfl

theorem acceptTooth_work (t : Time) (rev acc : Bool) (J : Nat → Prop) : TrackerWork w J acceptFlds s (acceptTooth w t rev acc s) := by
  rw [acceptTooth_eq]
  refine TrackerWork.trans ?_ (noteTooth_work w _ t rev acc _ J).toTrackerWork
  have hlast := modWheel_work w J acceptFlds (f := Tracker.accepted t) (fun _ => rfl) s
  split
  · exact hlast.trans ((pushEst_work w _ t _ acc J).mono (fun _ => id) (by simp))
  · exact hlast

/-- What an accepted tooth leaves of the tracker. -/
theorem acceptTooth_trk (t : Time) (rev acc : Bool) : ∃ h a b c e l, (acceptTooth w t rev acc s).trk w =
    { s.trk w with hist := h, a1 := a, a2 := b, accl := c, lastT := some t, stallT := some t, prevE := e, seen := l } := by
  rw [acceptTooth_eq, (noteTooth_work w _ t rev acc _ noSlot).trk]
  have hlast : (s.modWheel w (Tracker.accepted t)).trk w = (s.trk w).accepted t := modWheel_trk w _ s
  split
  · next p _ =>
    obtain ⟨h, a, b, hpush⟩ := pushEst_trk w (s.modWheel w (Tracker.accepted t)) t p acc
    exact ⟨h, a, b, acc, _, _, by rw [hpush, hlast]; rfl⟩
  · exact ⟨_, _, _, _, _, _, hlast⟩

/-- A tracker that receives position p. -/
def Tracker.assigned (p : Nat) (x : Tracker) : Tracker := { x with pos := some p, conf := 0, lowT := none, numT := none, cyc := [] }

theorem assignPos_work (p : Nat) (J : Nat → Prop) : TrackerWork w J [.estvalid] s (assignPos w p s) :=
  (restartEst_work w s J).trans (modWheel_work w J _ (f := Tracker.assigned p) (fun _ => rfl) _)

@[simp] theorem assignPos_trk (p : Nat) : (assignPos w p s).trk w =
    { s.trk w with hist := [], a1 := 0, a2 := 0, accl := false, pos := some p, conf := 0, lowT := none, numT := none, cyc := [] } := by
  rw [assignPos, modWheel_trk]
  exact congrArg (Tracker.assigned p) (restartEst_trk w s)

theorem restartEdges_work (t : Time) (J : Nat → Prop) (N : List TrkFld) : TrackerWork w J N s (restartEdges w t s) :=
  modWheel_work w J _ (f := fun x => { x with secPrev := x.secJ, secJ := 0, numT := some t }) (fun _ => rfl) s

@[simp] theorem restartEdges_trk (t : Time) : (restartEdges w t s).trk w =
    { s.trk w with secPrev := (s.trk w).secJ, secJ := 0, numT := some t } := modWheel_trk w _ s

end

end Sys2Proof.Machine
end

section
namespace Sys2Proof.Machine

open Sys2Proof Reg

/-! ### Cycles (R230) -/

section
variable (w : Nat) (s : State)

/-- The tooth that ends a cycle of length c is counted (R253). -/
def countedCycle (w c : Nat) (s : State) : State :=
  let s := (s.modWheel w fun x => { x with cyc := (c :: x.cyc).take 2 }).setF (WHL_CYCT_TIME w) c
  if s.whlState w = 3 then s.setF (WHL_CYCCNT_COUNT w) (s.f (WHL_CYCCNT_COUNT w) + 1) else s

theorem countedCycle_work (c : Nat) (J : Nat → Prop) : TrackerWork w J [.cyccnt] s (countedCycle w c s) := by
  unfold countedCycle
  extract_lets u
  have hu : TrackerWork w J [.cyccnt] s u :=
    (modWheel_work w J _ (f := fun x => { x with cyc := (c :: x.cyc).take 2 }) (fun _ => rfl) s).trans
      (setF_wide_work (.inr (.inr (.inr rfl))) J _ _ _).toTrackerWork
  split
  · exact hu.trans (setF_fld_work w J .cyccnt (by simp) u).toTrackerWork
  · exact hu

theorem countedCycle_trk (c : Nat) : (countedCycle w c s).trk w = { s.trk w with cyc := (c :: (s.trk w).cyc).take 2 } := by
  unfold countedCycle
  extract_lets u
  have hu : u.trk w = { s.trk w with cyc := (c :: (s.trk w).cyc).take 2 } := (setF_trk w _ _ _).trans (modWheel_trk w _ s)
  split
  · rw [setF_trk, hu]
  · exact hu

theorem cycleAt_eq (p : Nat) (t : Time) : cycleAt w p t s =
    if p ≠ s.lowPhys w then s
    else match (s.wheel w).lowT with
      | some u => countedCycle w (t - u).toNat ((restartEdges w t s).modWheel w fun x => { x with lowT := some t })
      | none => (restartEdges w t s).modWheel w fun x => { x with lowT := some t } := rfl

theorem cycleAt_work (p : Nat) (t : Time) (J : Nat → Prop) : TrackerWork w J [.cyccnt] s (cycleAt w p t s) := by
  have hlow : TrackerWork w J [.cyccnt] s ((restartEdges w t s).modWheel w fun x => { x with lowT := some t }) :=
    (restartEdges_work w s t J _).trans (modWheel_work w J _ (f := fun x => { x with lowT := some t }) (fun _ => rfl) _)
  rw [cycleAt_eq]
  split
  · exact .refl w J _ s
  · split
    · exact hlow.trans (countedCycle_work w _ _ J)
    · exact hlow

theorem cycleAt_trk (p : Nat) (t : Time) : ∃ a b c d e, (cycleAt w p t s).trk w =
    { s.trk w with secPrev := a, secJ := b, numT := c, lowT := d, cyc := e } := by
  have hlow : ((restartEdges w t s).modWheel w fun x => { x with lowT := some t }).trk w =
      { s.trk w with secPrev := (s.trk w).secJ, secJ := 0, numT := some t, lowT := some t } := by
    rw [modWheel_trk]
    exact congrArg (fun x : Tracker => ({ x with lowT := some t } : Tracker)) (restartEdges_trk w s t)
  rw [cycleAt_eq]
  split
  · exact ⟨_, _, _, _, _, rfl⟩
  · split
    · exact ⟨_, _, _, _, _, (countedCycle_trk w _ _).trans (by rw [hlow])⟩
    · exact ⟨_, _, _, _, _, hlow⟩

theorem countCycle_work (t : Time) (J : Nat → Prop) : TrackerWork w J [.cyccnt] s (countCycle w t s) := by
  unfold countCycle
  split
  · exact cycleAt_work w s _ t J
  · exact .refl w J _ s

theorem countCycle_trk (t : Time) : ∃ a b c d e, (countCycle w t s).trk w =
    { s.trk w with secPrev := a, secJ := b, numT := c, lowT := d, cyc := e } := by
  unfold countCycle
  split
  · exact cycleAt_trk w s _ t
  · exact ⟨_, _, _, _, _, rfl⟩

/-! ### Synchronisation (R221 to R223) -/

variable {w s} in
theorem confirmSync_idle (h : s.whlState w ≠ 1) (tp : Time) : confirmSync w tp s = s := if_pos h

/-- A confirmation is counted. -/
def confirmed (w : Nat) (s : State) : State := s.modWheel w fun x => { x with conf := x.conf + 1 }

variable {w s} in
theorem confirmSync_seek (h : s.whlState w = 1) (tp : Time) : confirmSync w tp s =
    if s.f (WHL_SYNCCFG_CONFIRM w) ≤ (s.wheel w).conf + 1 then setWhlState w (if s.flag (WHL_CFG_CYCLE2 w) then 2 else 3) tp (confirmed w s)
    else confirmed w s := by
  unfold confirmSync
  exact if_neg (not_not.mpr h)

theorem confirmed_work (J : Nat → Prop) (N : List TrkFld) : TrackerWork w J N s (confirmed w s) :=
  modWheel_work w J N (f := fun x => { x with conf := x.conf + 1 }) (fun _ => rfl) s

@[simp] theorem confirmed_trk : (confirmed w s).trk w = { s.trk w with conf := (s.trk w).conf + 1 } := modWheel_trk w _ s

theorem confirmSync_work (tp : Time) (J : Nat → Prop) : TrackerWork w J stateFlds s (confirmSync w tp s) := by
  by_cases h : s.whlState w = 1
  · rw [confirmSync_seek h]
    split
    · exact (confirmed_work w s J _).trans (setWhlState_work w _ _ tp J).toTrackerWork
    · exact confirmed_work w s J _
  · rw [confirmSync_idle h]; exact .refl w J _ s

theorem confirmSync_trk (tp : Time) : ∃ c, (confirmSync w tp s).trk w = { s.trk w with conf := c } := by
  by_cases h : s.whlState w = 1
  · rw [confirmSync_seek h]
    split
    · exact ⟨_, (setWhlState_trk w _ _ tp).trans (confirmed_trk w s)⟩
    · exact ⟨_, confirmed_trk w s⟩
  · rw [confirmSync_idle h]; exact ⟨_, rfl⟩

/-- What a confirmation brings: outside SEEK nothing, in SEEK a count, and the next state once it suffices (R221, R223). -/
theorem confirmSync_done (tp : Time) :
    (s.whlState w ≠ 1 → (confirmSync w tp s).whlState w = s.whlState w) ∧
    (s.whlState w = 1 → (s.wheel w).conf + 1 < s.f (WHL_SYNCCFG_CONFIRM w) → (confirmSync w tp s).whlState w = 1 ∧
      ((confirmSync w tp s).wheel w).conf = (s.wheel w).conf + 1) ∧
    (s.whlState w = 1 → s.f (WHL_SYNCCFG_CONFIRM w) ≤ (s.wheel w).conf + 1 →
      (s.flag (WHL_CFG_CYCLE2 w) = true → (confirmSync w tp s).whlState w = 2) ∧
      (s.flag (WHL_CFG_CYCLE2 w) = false → (confirmSync w tp s).whlState w = 3 ∧ (confirmSync w tp s).f (WHL_FLAGS_SYNCGAIN w) = 1)) := by
  refine ⟨fun h => by rw [confirmSync_idle h], fun h hc => ?_, fun h hc => ?_⟩
  · rw [confirmSync_seek h, if_neg (not_le.mpr hc)]
    exact ⟨h, congrArg Tracker.conf (confirmed_trk w s)⟩
  · rw [confirmSync_seek h, if_pos hc]
    refine ⟨fun h2 => ?_, fun h2 => ?_⟩
    · rw [h2, if_pos rfl]
      exact setWhlState_whlState w _ (by decide) tp
    · rw [h2, if_neg (by decide)]
      have h3 : (confirmed w s).whlState w ≠ 3 := by
        have : (confirmed w s).whlState w = s.whlState w := rfl
        omega
      exact ⟨setWhlState_whlState w _ (by decide) tp, setWhlState_syncgain h3 tp⟩

end

end Sys2Proof.Machine
end

section
namespace Sys2Proof.Machine

open Sys2Proof Reg

/-- What the synchronisation leaves of a tracker. -/
structure Tracker.Stem (x y : Tracker) : Prop where
  fifo : y.fifo = x.fifo
  lastP : y.lastP = x.lastP
  lastT : y.lastT = x.lastT
  secs : y.secs = x.secs

theorem Tracker.Stem.refl (x : Tracker) : Tracker.Stem x x := ⟨rfl, rfl, rfl, rfl⟩

theorem Tracker.Stem.trans {x y z : Tracker} (h : Tracker.Stem x y) (k : Tracker.Stem y z) : Tracker.Stem x z :=
  ⟨k.fifo.trans h.fifo, k.lastP.trans h.lastP, k.lastT.trans h.lastT, k.secs.trans h.secs⟩

/-- A step of the synchronisation of tracker w. -/
structure SyncWork (w : Nat) (s t : State) : Prop extends TrackerWork w noSlot syncFlds s t where
  stem : Tracker.Stem (s.trk w) (t.trk w)

section
variable {w : Nat} {s t u : State}

theorem SyncWork.refl (w : Nat) (s : State) : SyncWork w s s := ⟨.refl w _ _ s, .refl _⟩

theorem SyncWork.trans (h : SyncWork w s t) (k : SyncWork w t u) : SyncWork w s u :=
  ⟨h.toTrackerWork.trans k.toTrackerWork, h.stem.trans k.stem⟩

theorem modWheel_sync {f : Tracker → Tracker} (hf : ∀ x, (f x).slots = x.slots ∧ Tracker.Stem x (f x)) (s : State) : SyncWork w s (s.modWheel w f) := by
  refine ⟨modWheel_work w _ _ (fun x => (hf x).1) s, ?_⟩
  obtain ⟨h1, h2, h3, h4⟩ := (hf (s.wheel w)).2
  rw [modWheel_trk]
  exact ⟨h1, h2, h3, h4⟩

theorem keepTooth_sync (t : Time) (p : Option Nat) (s : State) : SyncWork w s (keepTooth w t p s) :=
  ⟨keepTooth_work w s t p _ _, by rw [keepTooth_trk]; exact ⟨rfl, rfl, rfl, rfl⟩⟩

theorem assignPos_sync (p : Nat) (s : State) : SyncWork w s (assignPos w p s) :=
  ⟨(assignPos_work w s p _).mono (fun _ => id) (by simp), by rw [assignPos_trk]; exact ⟨rfl, rfl, rfl, rfl⟩⟩

theorem confirmSync_sync (tp : Time) (s : State) : SyncWork w s (confirmSync w tp s) := by
  obtain ⟨c, hc⟩ := confirmSync_trk w s tp
  exact ⟨(confirmSync_work w s tp _).mono (fun _ => id) (by simp), by rw [hc]; exact ⟨rfl, rfl, rfl, rfl⟩⟩

theorem setWhlState_sync (v : Nat) (tp : Time) (s : State) : SyncWork w s (setWhlState w v tp s) :=
  ⟨((setWhlState_work w s v tp _).mono (fun _ => id) (by simp)).toTrackerWork, by rw [setWhlState_trk]; exact .refl _⟩

end

/-! ### The phase level (R222) -/

/-- The half of the cycle that position a lies in, from REFPOS on. -/
def State.halfOf (s : State) (w a : Nat) : Nat :=
  (a + s.teethN w - s.f (WHL_SYNCCFG_REFPOS w) % s.teethN w) % s.teethN w / (s.teethN w / 2)

/-- The position that a phase level calls for. -/
def State.levelPos (s : State) (w : Nat) (level : Bool) : Nat :=
  (s.f (WHL_SYNCCFG_REFPOS w) + if level then s.teethN w / 2 else 0) % s.teethN w

/-- A tracker whose position p turns out to be q, of n positions. -/
def Tracker.turned (n p q : Nat) (x : Tracker) : Tracker :=
  { x with
    pos := some q, hist := x.hist.map fun h => (h.1, rotPos n p q h.2), recent := x.recent.map fun h => (h.1, h.2.map (rotPos n p q))
    lowT := if p = q then x.lowT else none, numT := if p = q then x.numT else none, cyc := if p = q then x.cyc else [] }

section
variable {w : Nat} {s : State}

theorem phaseSync_half (h : s.whlState w = 2) (level : Bool) (tp : Time) {p q : Nat} (hp : p = (s.wheel w).pos.getD 0)
    (hq : q = if s.halfOf w p = s.halfOf w (s.levelPos w level) then p else (p + s.teethN w / 2) % s.teethN w) :
    phaseSync w level tp s = some (setWhlState w 3 tp (s.modWheel w (Tracker.turned (s.teethN w) p q))) := by
  subst hp hq
  rw [phaseSync, h]
  rfl

theorem phaseSync_sync (h : s.whlState w = 3) (level : Bool) (tp : Time) :
    phaseSync w level tp s = if s.halfOf w ((s.wheel w).pos.getD 0) = s.halfOf w (s.levelPos w level) then some s else none := by
  rw [phaseSync, h]
  rfl

theorem phaseSync_off (h2 : s.whlState w ≠ 2) (h3 : s.whlState w ≠ 3) (level : Bool) (tp : Time) : phaseSync w level tp s = some s := by
  unfold phaseSync
  dsimp only
  split
  · contradiction
  · contradiction
  · rfl

theorem phaseSync_work {level : Bool} {tp : Time} {t : State} (h : phaseSync w level tp s = some t) : SyncWork w s t := by
  by_cases h2 : s.whlState w = 2
  · rw [phaseSync_half h2 level tp rfl rfl, Option.some.injEq] at h
    rw [← h]
    exact (modWheel_sync (f := Tracker.turned _ _ _) (fun _ => ⟨rfl, rfl, rfl, rfl, rfl⟩) s).trans (setWhlState_sync 3 tp _)
  · by_cases h3 : s.whlState w = 3
    · rw [phaseSync_sync h3] at h
      split at h
      · rw [Option.some.injEq] at h; exact h ▸ .refl w s
      · exact absurd h (by simp)
    · rw [phaseSync_off h2 h3, Option.some.injEq] at h
      exact h ▸ .refl w s

/-! ### Synchronisation by missing tooth (R221) -/

/-- The interval e is long against the one before. -/
def State.longGap (s : State) (w : Nat) (e : Option Nat) : Bool :=
  match e, (s.wheel w).prevE with
  | some a, some b => decide (s.f (WHL_SYNCCFG_GAPR w) * b ≤ a * 16)
  | _, _ => false

/-- The cause of a loss and the state that a phase level leads to, from the state m that it meets (R222). -/
def phaseOutcome (m : State) : Option State → Nat × State
  | some t => (0, t)
  | none => (3, m)

/-- The count moves on to position q. -/
def movePos (w : Nat) (q : Option Nat) (s : State) : State := s.modWheel w fun x => { x with pos := q }

theorem movePos_sync (q : Option Nat) (s : State) : SyncWork w s (movePos w q s) :=
  modWheel_sync (f := fun x => { x with pos := q }) (fun _ => ⟨rfl, rfl, rfl, rfl, rfl⟩) s

@[simp] theorem movePos_trk (q : Option Nat) : (movePos w q s).trk w = { s.trk w with pos := q } := modWheel_trk w _ s

theorem gapSync_lost (e : Option Nat) (level skip : Bool) (tp : Time) (h : (s.wheel w).pos = none) :
    gapSync w e level skip tp s = (0, if (s.longGap w e && !skip) = true then assignPos w (s.f (WHL_SYNCCFG_REFPOS w)) s else s) := by
  unfold gapSync
  dsimp only
  rw [h]
  rfl

theorem gapSync_counts (e : Option Nat) (level skip : Bool) (tp : Time) {p : Nat} (h : (s.wheel w).pos = some p) :
    gapSync w e level skip tp s =
      if skip = true then (0, movePos w (some (s.nextPhys w p (s.teethN w)).1) s)
      else if (s.longGap w e != (s.nextPhys w p (s.teethN w)).2) = true then (1, movePos w (some (s.nextPhys w p (s.teethN w)).1) s)
      else if (!(s.nextPhys w p (s.teethN w)).2) = true then (0, movePos w (some (s.nextPhys w p (s.teethN w)).1) s)
      else if (s.flag (WHL_CFG_CYCLE2 w) && decide (s.whlState w ≠ 1)) = true then
        phaseOutcome (movePos w (some (s.nextPhys w p (s.teethN w)).1) s)
          (phaseSync w level tp (movePos w (some (s.nextPhys w p (s.teethN w)).1) s))
      else (0, confirmSync w tp (movePos w (some (s.nextPhys w p (s.teethN w)).1) s)) := by
  unfold gapSync
  dsimp only
  rw [h]
  rfl

theorem gapSync_work (e : Option Nat) (level skip : Bool) (tp : Time) : SyncWork w s (gapSync w e level skip tp s).2 := by
  cases h : (s.wheel w).pos with
  | none =>
    rw [gapSync_lost e level skip tp h]
    dsimp only
    split
    · exact assignPos_sync _ s
    · exact .refl w s
  | some p =>
    have hmove := movePos_sync (w := w) (some (s.nextPhys w p (s.teethN w)).1) s
    rw [gapSync_counts e level skip tp h]
    split
    · exact hmove
    · split
      · exact hmove
      · split
        · exact hmove
        · split
          · cases ht : phaseSync w level tp (movePos w (some (s.nextPhys w p (s.teethN w)).1) s) with
            | some t => exact hmove.trans (phaseSync_work ht)
            | none => exact hmove
          · exact hmove.trans (confirmSync_sync tp _)

end

end Sys2Proof.Machine
end

section
namespace Sys2Proof.Machine

open Sys2Proof Reg

/-! ### Synchronisation by reference input (R223) -/

section
variable {w : Nat} {s : State}

/-- A tooth at REFPOS has its reference edge. -/
def clearMiss (w : Nat) (u : Time) (s : State) : State :=
  s.modWheel w fun x => { x with miss := if x.miss = some u then none else x.miss }

/-- The newest tooth, at u, receives position r. -/
def placeLast (w : Nat) (u : Time) (r : Nat) (s : State) : State :=
  s.modWheel w fun x => { x with recent := (u, some r) :: x.recent.drop 1, miss := none }

/-- A reference edge that the newest tooth follows, which is not accepted yet. -/
theorem refRule_newest (tp : Time) {u : Time} {p : Option Nat} {l : List (Time × Option Nat)} (h : (s.wheel w).recent = (u, p) :: l) :
    refRule w 0 false tp s =
      if p = some (s.f (WHL_SYNCCFG_REFPOS w)) then (0, confirmSync w tp (clearMiss w u s))
      else if (p.isSome && decide (s.whlState w ≠ 1)) = true then (2, s)
      else (0, assignPos w (s.f (WHL_SYNCCFG_REFPOS w)) (placeLast w u (s.f (WHL_SYNCCFG_REFPOS w)) s)) := by
  unfold refRule
  dsimp only
  rw [h]
  dsimp only [List.getElem?_cons_zero]
  congr 1

theorem clearMiss_sync (u : Time) (s : State) : SyncWork w s (clearMiss w u s) :=
  modWheel_sync (f := fun x => { x with miss := if x.miss = some u then none else x.miss }) (fun _ => ⟨rfl, rfl, rfl, rfl, rfl⟩) s

theorem placeLast_sync (u : Time) (r : Nat) (s : State) : SyncWork w s (placeLast w u r s) :=
  modWheel_sync (f := fun x => { x with recent := (u, some r) :: x.recent.drop 1, miss := none }) (fun _ => ⟨rfl, rfl, rfl, rfl, rfl⟩) s

@[simp] theorem placeLast_trk (u : Time) (r : Nat) : (placeLast w u r s).trk w =
    { s.trk w with recent := (u, some r) :: (s.trk w).recent.drop 1, miss := none } := modWheel_trk w _ s

@[simp] theorem clearMiss_trk (u : Time) : (clearMiss w u s).trk w =
    { s.trk w with miss := if (s.trk w).miss = some u then none else (s.trk w).miss } := modWheel_trk w _ s

/-- The reference edges before the tooth at t are used up, the count moves on to q, and the tooth is kept. -/
def refTooth (w : Nat) (t : Time) (q : Option Nat) (s : State) : State :=
  keepTooth w t q (s.modWheel w fun x => { x with pos := q, refs := x.refs.filter fun r => !future t r })

theorem refTooth_sync (t : Time) (q : Option Nat) (s : State) : SyncWork w s (refTooth w t q s) :=
  (modWheel_sync (f := fun x => { x with pos := q, refs := x.refs.filter fun r => !future t r }) (fun _ => ⟨rfl, rfl, rfl, rfl, rfl⟩) s).trans
    (keepTooth_sync t q _)

theorem refTooth_trk (t : Time) (q : Option Nat) (s : State) : (refTooth w t q s).trk w =
    { s.trk w with
      pos := q, refs := (s.trk w).refs.filter fun r => !future t r, recent := ((t, q) :: (s.trk w).recent).take 1024 } := by
  rw [refTooth, keepTooth_trk, modWheel_trk]; rfl

theorem refTooth_recent (t : Time) (q : Option Nat) (s : State) :
    ((refTooth w t q s).wheel w).recent = (t, q) :: (s.wheel w).recent.take 1023 := congrArg Tracker.recent (refTooth_trk t q s)

/-- The tooth at t is where a reference edge is to come. -/
def expectRef (w : Nat) (t : Time) (q : Option Nat) (s : State) : State :=
  s.modWheel w fun x => { x with miss := x.miss.or (if q = some (s.f (WHL_SYNCCFG_REFPOS w)) then some t else none) }

theorem expectRef_sync (t : Time) (q : Option Nat) (s : State) : SyncWork w s (expectRef w t q s) :=
  modWheel_sync (f := fun x => { x with miss := x.miss.or (if q = some (s.f (WHL_SYNCCFG_REFPOS w)) then some t else none) })
    (fun _ => ⟨rfl, rfl, rfl, rfl, rfl⟩) s

@[simp] theorem expectRef_trk (t : Time) (q : Option Nat) : (expectRef w t q s).trk w =
    { s.trk w with miss := (s.trk w).miss.or (if q = some (s.f (WHL_SYNCCFG_REFPOS w)) then some t else none) } := modWheel_trk w _ s

/-- The position that the count gives the next tooth. -/
def State.nextPos (s : State) (w : Nat) : Option Nat := (s.wheel w).pos.map fun p => (s.nextPhys w p (s.teethN w)).1

theorem refSync_missed (t : Time) {tp : Time} (h : ((s.wheel w).miss.any fun u => reached (s.refBy w u) tp) = true) : refSync w t tp s = (2, s) :=
  if_pos h

theorem refSync_unmissed (t : Time) {tp : Time} (h : ((s.wheel w).miss.any fun u => reached (s.refBy w u) tp) = false) :
    refSync w t tp s = if ((s.wheel w).refs.any fun r => future t r) = true then refRule w 0 false tp (refTooth w t (s.nextPos w) s)
      else (0, expectRef w t (s.nextPos w) (refTooth w t (s.nextPos w) s)) :=
  if_neg (by rw [h]; decide)

theorem refRule_newest_work (tp : Time) {u : Time} {p : Option Nat} {l : List (Time × Option Nat)} (h : (s.wheel w).recent = (u, p) :: l) :
    SyncWork w s (refRule w 0 false tp s).2 := by
  rw [refRule_newest tp h]
  split
  · exact (clearMiss_sync u s).trans (confirmSync_sync tp _)
  · split
    · exact .refl w s
    · exact (placeLast_sync u _ s).trans (assignPos_sync _ _)

theorem refRule_newest_recent (tp : Time) {u : Time} {p : Option Nat} {l : List (Time × Option Nat)} (h : (s.wheel w).recent = (u, p) :: l) :
    ((refRule w 0 false tp s).2.wheel w).recent ≠ [] := by
  rw [refRule_newest tp h]
  split
  · obtain ⟨c, hc⟩ := confirmSync_trk w (clearMiss w u s) tp
    show ((confirmSync w tp (clearMiss w u s)).trk w).recent ≠ []
    rw [hc, clearMiss_trk]
    show (s.wheel w).recent ≠ []
    rw [h]
    exact List.cons_ne_nil _ _
  · split
    · show (s.wheel w).recent ≠ []
      rw [h]
      exact List.cons_ne_nil _ _
    · show ((assignPos w (s.f (WHL_SYNCCFG_REFPOS w)) (placeLast w u (s.f (WHL_SYNCCFG_REFPOS w)) s)).trk w).recent ≠ []
      rw [assignPos_trk, placeLast_trk]
      exact List.cons_ne_nil _ _

theorem refSync_work (t tp : Time) : SyncWork w s (refSync w t tp s).2 := by
  cases h : (s.wheel w).miss.any fun u => reached (s.refBy w u) tp with
  | true => rw [refSync_missed t h]; exact .refl w s
  | false =>
    rw [refSync_unmissed t h]
    split
    · exact (refTooth_sync t _ s).trans (refRule_newest_work tp (refTooth_recent t _ s))
    · exact (refTooth_sync t _ s).trans (expectRef_sync t _ _)

theorem refSync_recent {t tp : Time} (h : (refSync w t tp s).1 = 0) : ((refSync w t tp s).2.wheel w).recent ≠ [] := by
  cases hm : (s.wheel w).miss.any fun u => reached (s.refBy w u) tp with
  | true => rw [refSync_missed t hm] at h; exact absurd h (by simp)
  | false =>
    rw [refSync_unmissed t hm]
    split
    · exact refRule_newest_recent tp (refTooth_recent t _ s)
    · show ((expectRef w t (s.nextPos w) (refTooth w t (s.nextPos w) s)).trk w).recent ≠ []
      rw [expectRef_trk, refTooth_trk]
      exact List.cons_ne_nil _ _

end

/-! ### Sync loss (R227, R240) -/

/-- A tracker that has lost sync. -/
def Tracker.lost (x : Tracker) : Tracker :=
  { x with pos := none, conf := 0, prevE := none, recent := [], miss := none, lostT := x.lastT.or x.lostT, lowT := none, numT := none
           cyc := [], secs := [] }

/-- A sync loss is told by its flag, its count and its cause. -/
def noteLoss (w cause : Nat) (s : State) : State :=
  whlPulse w 3 (((s.raise (WHL_FLAGS_SYNCLOSS w)).bump (WHL_ERRCNT_LOSS w)).setF (WHL_STATUS_CAUSE w) cause)

/-- What a sync loss does once the slots have halted. -/
def loseSync (w cause final : Nat) (t : Time) (s : State) : State :=
  setWhlState w final t (((restartEst w (noteLoss w cause s)).modWheel w Tracker.lost).setF (WHL_STATUS_LEARNING w) 0)

theorem syncLoss_eq (w cause final : Nat) (t : Time) (s : State) :
    syncLoss w cause final t s = loseSync w cause final t (eachSlot (fun k => haltSlot w k t) s) := rfl

section
variable (w cause : Nat) (s : State)

theorem noteLoss_work (J : Nat → Prop) : SlotWork w J [.syncloss, .loss, .cause] s (noteLoss w cause s) :=
  ((((raise_fld_work w J .syncloss s).mono (fun _ => id) (by simp)).trans
    ((bump_fld_work w J .loss (by simp) _).mono (fun _ => id) (by simp))).trans
      ((setF_fld_work w J .cause (by simp) _).mono (fun _ => id) (by simp))).trans (whlPulse_work w 3 J _ _)

theorem loseSync_rest (final : Nat) (t : Time) (J : Nat → Prop) :
    TrackerWork w J [.estvalid, .learning, .state, .syncgain, .seq, .drop, .dropped] (noteLoss w cause s) (loseSync w cause final t s) :=
  (((restartEst_work w _ J).mono (fun _ => id) (by simp)).trans (modWheel_work w J _ (f := Tracker.lost) (fun _ => rfl) _)).trans
    (((setF_fld_work w J .learning (by simp) _).mono (fun _ => id) (by simp)).trans
      ((setWhlState_work w _ final t J).mono (fun _ => id) (by simp))).toTrackerWork

theorem loseSync_work (final : Nat) (t : Time) (J : Nat → Prop) : TrackerWork w J lossFlds s (loseSync w cause final t s) :=
  ((noteLoss_work w cause s J).mono (fun _ => id) (by simp)).toTrackerWork.trans ((loseSync_rest w cause s final t J).mono (fun _ => id) (by simp))

@[simp] theorem loseSync_trk (final : Nat) (t : Time) : (loseSync w cause final t s).trk w =
    Tracker.lost { s.trk w with hist := [], a1 := 0, a2 := 0, accl := false } := by
  rw [loseSync, setWhlState_trk, setF_trk, modWheel_trk]
  refine congrArg Tracker.lost ((restartEst_trk w _).trans ?_)
  rw [(noteLoss_work w cause s noSlot).trk]

theorem loseSync_flds {final : Nat} (hf : final < 8) (hc : cause < 16) (t : Time) :
    (loseSync w cause final t s).f (WHL_STATUS_STATE w) = final ∧ (loseSync w cause final t s).f (WHL_STATUS_CAUSE w) = cause ∧
    (loseSync w cause final t s).f (WHL_FLAGS_SYNCLOSS w) = 1 ∧
    (loseSync w cause final t s).f (WHL_ERRCNT_LOSS w) = min (s.f (WHL_ERRCNT_LOSS w) + 1) 0xFFF ∧
    (loseSync w cause final t s).f (WHL_STATUS_LEARNING w) = 0 := by
  have hrest := loseSync_rest w cause s final t noSlot
  have hpulse (u : State) := whlPulse_work w 3 noSlot [] u
  have hcount := bump_fld_work w noSlot .loss (by simp) (s.raise (WHL_FLAGS_SYNCLOSS w))
  have hset (u : State) := setF_fld_work w noSlot .cause (v := cause) (by simp) u
  refine ⟨setWhlState_whlState w _ hf t, ?_, ?_, ?_, ?_⟩
  · refine (hrest.fld .cause (by simp)).trans (((hpulse _).fld .cause (by simp)).trans ((State.setF_fld_same _ w .cause cause).trans ?_))
    exact Nat.mod_eq_of_lt hc
  · refine (hrest.fld .syncloss (by simp)).trans (((hpulse _).fld .syncloss (by simp)).trans (((hset _).fld .syncloss (by simp)).trans
      ((hcount.fld .syncloss (by simp)).trans ?_)))
    exact State.raise_f_same _ _ (TrkFld.syncloss.narrow w) (Nat.le_refl 1)
  · refine (hrest.fld .loss (by simp)).trans (((hpulse _).fld .loss (by simp)).trans (((hset _).fld .loss (by simp)).trans ?_))
    refine (State.bump_f_same _ (WHL_ERRCNT_LOSS w) (TrkFld.loss.narrow w)).trans ?_
    rw [show (s.raise (WHL_FLAGS_SYNCLOSS w)).f (WHL_ERRCNT_LOSS w) = s.f (WHL_ERRCNT_LOSS w) from
      (raise_fld_work w noSlot .syncloss s).fld .loss (by simp)]
    rfl
  · refine ((setWhlState_work w _ final t noSlot).fld .learning (by simp)).trans ?_
    exact State.setF_fld_same _ w .learning 0

theorem haltSlots_work (t : Time) : SlotWork w (· < 64) sendFlds s (eachSlot (fun k => haltSlot w k t) s) :=
  eachSlot_work (haltSlot_work w t) s

theorem syncLoss_work (final : Nat) (t : Time) : TrackerWork w (· < 64) lossFlds s (syncLoss w cause final t s) := by
  rw [syncLoss_eq]
  exact ((haltSlots_work w s t).mono (fun _ => id) (by simp)).toTrackerWork.trans (loseSync_work w cause _ final t _)

@[simp] theorem syncLoss_trk (final : Nat) (t : Time) : (syncLoss w cause final t s).trk w =
    Tracker.lost { s.trk w with hist := [], a1 := 0, a2 := 0, accl := false } := by
  rw [syncLoss_eq, loseSync_trk, (haltSlots_work w s t).trk]

theorem syncLoss_flds {final : Nat} (hf : final < 8) (hc : cause < 16) (t : Time) :
    (syncLoss w cause final t s).f (WHL_STATUS_STATE w) = final ∧ (syncLoss w cause final t s).f (WHL_STATUS_CAUSE w) = cause ∧
    (syncLoss w cause final t s).f (WHL_FLAGS_SYNCLOSS w) = 1 ∧
    (syncLoss w cause final t s).f (WHL_ERRCNT_LOSS w) = min (s.f (WHL_ERRCNT_LOSS w) + 1) 0xFFF ∧
    (syncLoss w cause final t s).f (WHL_STATUS_LEARNING w) = 0 := by
  have h := loseSync_flds w cause (eachSlot (fun k => haltSlot w k t) s) hf hc t
  rw [show (eachSlot (fun k => haltSlot w k t) s).f (WHL_ERRCNT_LOSS w) = s.f (WHL_ERRCNT_LOSS w) from
    (haltSlots_work w s t).fld .loss (by simp)] at h
  rw [syncLoss_eq]
  exact h

end

end Sys2Proof.Machine
end

section
namespace Sys2Proof.Machine

open Sys2Proof Reg

/-! ### A tooth that costs sync (R227) -/

/-- The fields that a tooth that costs sync may change. -/
abbrev lostFlds : List TrkFld := [.syncloss, .loss, .cause, .estvalid, .learning, .state, .syncgain, .angle, .accel, .seq, .drop, .dropped]

section
variable (w cause : Nat) (tp t : Time) (s : State)

/-- The reference edges before the tooth at t are used up. -/
def Tracker.useRefs (t : Time) (x : Tracker) : Tracker := { x with refs := x.refs.filter fun r => !future t r }

/-- A tracker whose first tooth of SEEK is at t. -/
def Tracker.first (t : Time) (x : Tracker) : Tracker :=
  { fifo := x.fifo, lastP := x.lastP, lastT := x.lastT, stallT := x.stallT, saved := x.saved, seen := x.seen
    refs := x.refs.filter fun r => !future t r, recent := [(t, none)], lostT := x.lastT.or x.lostT
    secJ := x.secJ, secPrev := x.secPrev, recs := x.recs, slots := x.slots }

/-- Sync is lost, and the tooth at t is the first of SEEK; the reference edges before it are used up. -/
def firstTooth (w cause : Nat) (tp t : Time) (s : State) : State :=
  (keepTooth w t none (syncLoss w cause 1 tp s)).modWheel w (Tracker.useRefs t)

theorem firstTooth_work : TrackerWork w (· < 64) lossFlds s (firstTooth w cause tp t s) :=
  ((syncLoss_work w cause s 1 tp).trans (keepTooth_work w _ t none _ _)).trans
    (modWheel_work w _ _ (f := Tracker.useRefs t) (fun _ => rfl) _)

theorem firstTooth_trk : (firstTooth w cause tp t s).trk w = (s.trk w).first t := by
  rw [firstTooth, modWheel_trk_of w _ (f := Tracker.useRefs t) (fun _ => rfl), keepTooth_trk, syncLoss_trk]
  rfl

/-- The first tooth of SEEK takes REFPOS after a reference edge (R223). -/
def seekTooth (w : Nat) (before : Bool) (t : Time) (s : State) : State :=
  if before then assignPos w (s.f (WHL_SYNCCFG_REFPOS w)) (placeLast w t (s.f (WHL_SYNCCFG_REFPOS w)) s) else s

theorem seekTooth_work (before : Bool) (J : Nat → Prop) : TrackerWork w J [.estvalid] s (seekTooth w before t s) := by
  unfold seekTooth
  split
  · exact (modWheel_work w J _ (f := fun x => { x with recent := (t, some (s.f (WHL_SYNCCFG_REFPOS w))) :: x.recent.drop 1, miss := none })
      (fun _ => rfl) s).trans (assignPos_work w _ _ J)
  · exact .refl w J _ s

theorem lossAtTooth_rule : lossAtTooth w cause tp t s = acceptTooth w t false false
    (if ((keepTooth w t none (syncLoss w cause 1 tp s)).wheel w).refs.any (fun r => future t r) = true then
      (refRule w 0 false tp (firstTooth w cause tp t s)).2 else firstTooth w cause tp t s) := by
  unfold lossAtTooth firstTooth Tracker.useRefs
  dsimp only

theorem lossAtTooth_eq : lossAtTooth w cause tp t s = acceptTooth w t false false
    (seekTooth w ((s.wheel w).refs.any fun r => future t r) t (firstTooth w cause tp t s)) := by
  have hrecent : ((firstTooth w cause tp t s).wheel w).recent = [(t, none)] := by
    rw [State.wheel_recent, firstTooth_trk]
    rfl
  have hrefs : ((keepTooth w t none (syncLoss w cause 1 tp s)).wheel w).refs = (s.wheel w).refs := by
    rw [State.wheel_refs, keepTooth_trk, syncLoss_trk]
    rfl
  have hrule := refRule_newest (s := firstTooth w cause tp t s) tp hrecent
  rw [if_neg (by simp), if_neg (by simp)] at hrule
  rw [lossAtTooth_rule, hrefs, hrule]
  rfl

theorem lossAtTooth_work : TrackerWork w (· < 64) lostFlds s (lossAtTooth w cause tp t s) := by
  rw [lossAtTooth_eq]
  exact (((firstTooth_work w cause tp t s).mono (fun _ => id) (by simp)).trans ((seekTooth_work w t _ _ _).mono (fun _ => id) (by simp))).trans
    ((acceptTooth_work w _ t false false _).mono (fun _ => id) (by simp))

/-- The tracker after such a tooth. -/
theorem lossAtTooth_trk : ((lossAtTooth w cause tp t s).wheel w).pos =
      (if ((s.wheel w).refs.any fun r => future t r) = true then some (s.f (WHL_SYNCCFG_REFPOS w)) else none) ∧
    ((lossAtTooth w cause tp t s).wheel w).lastT = some t ∧ ((lossAtTooth w cause tp t s).wheel w).cyc = [] ∧
    ((lossAtTooth w cause tp t s).wheel w).fifo = (s.wheel w).fifo ∧ ((lossAtTooth w cause tp t s).wheel w).lastP = (s.wheel w).lastP := by
  rw [lossAtTooth_eq]
  have href : (firstTooth w cause tp t s).f (WHL_SYNCCFG_REFPOS w) = s.f (WHL_SYNCCFG_REFPOS w) :=
    (firstTooth_work w cause tp t s).cfg (Nat.le_of_ble_eq_true rfl) (by simp [WHL_SYNCCFG_REFPOS, WHL_SYNCCFG, WHL_CFG, WHL_VRCFG])
  obtain ⟨h, a, b, c, e, l, haccept⟩ := acceptTooth_trk w
    (seekTooth w ((s.wheel w).refs.any fun r => future t r) t (firstTooth w cause tp t s)) t false false
  have hfirst := firstTooth_trk w cause tp t s
  have hseek : ((seekTooth w ((s.wheel w).refs.any fun r => future t r) t (firstTooth w cause tp t s)).trk w).pos =
        (if ((s.wheel w).refs.any fun r => future t r) = true then some (s.f (WHL_SYNCCFG_REFPOS w)) else none) ∧
      ((seekTooth w ((s.wheel w).refs.any fun r => future t r) t (firstTooth w cause tp t s)).trk w).cyc = [] ∧
      ((seekTooth w ((s.wheel w).refs.any fun r => future t r) t (firstTooth w cause tp t s)).trk w).fifo = (s.wheel w).fifo ∧
      ((seekTooth w ((s.wheel w).refs.any fun r => future t r) t (firstTooth w cause tp t s)).trk w).lastP = (s.wheel w).lastP := by
    unfold seekTooth
    split
    · rw [assignPos_trk, placeLast_trk, hfirst, href]
      exact ⟨rfl, rfl, rfl, rfl⟩
    · rw [hfirst]
      exact ⟨rfl, rfl, rfl, rfl⟩
  obtain ⟨h1, h2, h3, h4⟩ := hseek
  rw [State.wheel_pos, State.wheel_lastT, State.wheel_cyc, State.wheel_fifo, State.wheel_lastP, haccept]
  exact ⟨h1, rfl, h2, h3, h4⟩

/-- The tooth that costs sync is accepted like another. -/
theorem lossAtTooth_rest : TrackerWork w (· < 64) acceptFlds (syncLoss w cause 1 tp s) (lossAtTooth w cause tp t s) := by
  rw [lossAtTooth_eq]
  exact (((keepTooth_work w _ t none _ _).trans (modWheel_work w _ _ (f := Tracker.useRefs t) (fun _ => rfl) _)).trans
    ((seekTooth_work w t _ _ _).mono (fun _ => id) (by simp))).trans ((acceptTooth_work w _ t false false _).mono (fun _ => id) (by simp))

theorem lossAtTooth_whlState : (lossAtTooth w cause tp t s).whlState w = 1 :=
  ((lossAtTooth_rest w cause tp t s).fld .state (by simp)).trans (setWhlState_whlState w _ (by decide) tp)

theorem lossAtTooth_lost {s₀ : State} (hc : cause < 16) (hloss : s.f (WHL_ERRCNT_LOSS w) = s₀.f (WHL_ERRCNT_LOSS w)) (r : Tooth) :
    LostAtTooth w cause r (if ((s.wheel w).refs.any fun k => future r.time k) = true then some (s.f (WHL_SYNCCFG_REFPOS w)) else none) s₀
      (lossAtTooth w cause tp r.time s) := by
  obtain ⟨hpos, hlast, -⟩ := lossAtTooth_trk w cause tp r.time s
  obtain ⟨hstate, hcause, hflag, hcount, hlearn⟩ := syncLoss_flds w cause s (final := 1) (by decide) hc tp
  rw [hloss] at hcount
  have hrest := lossAtTooth_rest w cause tp r.time s
  exact ⟨(hrest.fld .state (by simp)).trans hstate, (hrest.fld .cause (by simp)).trans hcause, (hrest.fld .syncloss (by simp)).trans hflag,
    (hrest.fld .loss (by simp)).trans hcount, hpos, hlast, (hrest.fld .learning (by simp)).trans hlearn⟩

end

/-! ### Secondary edges that wait for no interval -/

theorem closeEdges_none {w : Nat} {s : State} (h : (s.wheel w).secs = []) (tp : Time) : closeEdges w tp s = s := by
  rw [closeEdges, h]; rfl

theorem closeAtTooth_none {w : Nat} {s : State} (h : (s.wheel w).secs = []) (hr : (s.wheel w).recent ≠ []) (t tp : Time) :
    closeAtTooth w t tp s = s := by
  rw [closeAtTooth, closeEdges_none h]
  exact if_neg hr

/-! ### Learning (R230) -/

theorem ttWord_lt (s : State) (i : Nat) : s.ttWord i < 2 ^ 32 := by
  simp only [State.ttWord, List.range, List.range.loop, List.map_cons, List.map_nil, leNat]
  have h0 := (s.readByte 4 (ttAddr i + 0)).isLt
  have h1 := (s.readByte 4 (ttAddr i + 1)).isLt
  have h2 := (s.readByte 4 (ttAddr i + 2)).isLt
  have h3 := (s.readByte 4 (ttAddr i + 3)).isLt
  omega

section
variable (w : Nat) (s : State)

/-- LEARNING tells whether the tracker learns at this tooth. -/
def showLearning (w : Nat) (s : State) : State := s.setF (WHL_STATUS_LEARNING w) (s.learns w).toNat

theorem showLearning_work (J : Nat → Prop) : SlotWork w J [.learning] s (showLearning w s) := setF_fld_work w J .learning (by simp) s

theorem showLearning_learning : (showLearning w s).f (WHL_STATUS_LEARNING w) = (s.learns w).toNat := by
  refine (State.setF_fld_same s w .learning _).trans (Nat.mod_eq_of_lt ?_)
  show (s.learns w).toNat < 2 ^ 1
  exact Bool.toNat_lt _

/-- The entry that position p learns in a cycle of length c. -/
def State.learnt (s : State) (w p c : Nat) : Nat :=
  setBits (s.ttPos w p) 0 24 (learnWidth (bitsOf (s.ttPos w p) 0 24) (roundDiv ((s.wheel w).ints.2 * s.cycleU w) c) (s.wheel w).a2
    (s.f (WHL_LEARN_LRATE w)))

/-- The entry of position p takes what it learns. -/
def writeLearnt (w p c : Nat) (s : State) : State :=
  bankWrite 6 0 (ttAddr (s.f (WHL_TTCFG_PBASE w) + p)) ((leBytes 4 (s.learnt w p c)).map some) (ttRequest w s)

theorem learnTooth_eq : learnTooth w s =
    match s.learns w, ((showLearning w s).wheel w).pos, ((showLearning w s).wheel w).cyc with
    | true, some p, c :: _ => if (showLearning w s).lockAt w p then showLearning w s else writeLearnt w p c (showLearning w s)
    | _, _, _ => showLearning w s := rfl

theorem learnTooth_cases : learnTooth w s = showLearning w s ∨ ∃ p c, learnTooth w s = writeLearnt w p c (showLearning w s) := by
  rw [learnTooth_eq]
  split
  · split
    · exact .inl rfl
    · exact .inr ⟨_, _, rfl⟩
  · exact .inl rfl

theorem learnt_lt (p c : Nat) : s.learnt w p c < 2 ^ 32 := setBits_lt (by decide) (ttWord_lt s _)

theorem writeLearnt_work (p c : Nat) (J : Nat → Prop) (N : List TrkFld) : TrackerFrame w J N s (writeLearnt w p c s) :=
  (ttRequest_work w w J N s).toTrackerFrame.trans (entryWrite_work w 0 _ _ J N _).1

theorem writeLearnt_trk (p c : Nat) : (writeLearnt w p c s).trk w = s.trk w := by
  have h : (writeLearnt w p c s).wheel w = (ttRequest w s).wheel w :=
    congrArg (fun m => mget m w ({} : Tracker)) (entryWrite_work w 0 (s.f (WHL_TTCFG_PBASE w) + p) (s.learnt w p c) noSlot [] (ttRequest w s)).2
  rw [State.trk, h]
  exact (ttRequest_work w w noSlot [] s).trk

/-- Learning changes a width and leaves where the teeth stand. -/
theorem writeLearnt_physAt (p c q : Nat) : (writeLearnt w p c s).physAt w q = s.physAt w q := by
  have hreq := (ttRequest_work w w noSlot [] s).table
  have hcount : (writeLearnt w p c s).teethN w = s.teethN w := (writeLearnt_work w s p c noSlot []).teethN
  have hbase : (writeLearnt w p c s).f (WHL_TTCFG_PBASE w) = s.f (WHL_TTCFG_PBASE w) := (writeLearnt_work w s p c noSlot []).pbase
  simp only [State.physAt, State.ttPos, hcount, hbase]
  by_cases h : q % s.teethN w = p
  · have hp : p % s.teethN w = p := by rw [← h, Nat.mod_mod]
    rw [h, writeLearnt, entryWrite_ttWord_phys, State.learnt, setBits_testBit, if_neg (by decide), if_neg (by decide), State.ttPos, hp]
  · rw [writeLearnt, entryWrite_ttWord_ne 0 _ (by omega), hreq.ttWord]

theorem learnTooth_work (J : Nat → Prop) : TrackerFrame w J [.learning] s (learnTooth w s) := by
  rcases learnTooth_cases w s with h | ⟨p, c, h⟩
  · rw [h]; exact (showLearning_work w s J).toTrackerFrame
  · rw [h]; exact (showLearning_work w s J).toTrackerFrame.trans (writeLearnt_work w _ p c J _)

theorem learnTooth_trk : (learnTooth w s).trk w = s.trk w := by
  rcases learnTooth_cases w s with h | ⟨p, c, h⟩
  · rw [h]; exact (showLearning_work w s noSlot).trk
  · rw [h, writeLearnt_trk]; exact (showLearning_work w s noSlot).trk

theorem learnTooth_physAt (q : Nat) : (learnTooth w s).physAt w q = s.physAt w q := by
  have hshow := (showLearning_work w s noSlot).table.physAt q
  rcases learnTooth_cases w s with h | ⟨p, c, h⟩
  · rw [h, hshow]
  · rw [h, writeLearnt_physAt, hshow]

theorem learnTooth_learning : (learnTooth w s).f (WHL_STATUS_LEARNING w) = (s.learns w).toNat := by
  rcases learnTooth_cases w s with h | ⟨p, c, h⟩
  · rw [h, showLearning_learning]
  · rw [h, ← showLearning_learning]
    exact (writeLearnt_work w _ p c noSlot []).fld .learning (by simp)

end

section
variable {w : Nat} {s : State}

theorem learnTooth_idle {p : Nat} (hp : (s.wheel w).pos = some p) (h : s.learns w = false ∨ s.lockAt w p = true) :
    learnTooth w s = showLearning w s := by
  have hpos : ((showLearning w s).wheel w).pos = some p := (congrArg Tracker.pos (showLearning_work w s noSlot).trk).trans hp
  rw [learnTooth_eq, hpos]
  split
  · next hon hp' hc =>
    cases hp'
    rw [if_pos]
    rw [(showLearning_work w s noSlot).table.lockAt]
    exact h.resolve_left (by simp [hon])
  · rfl

theorem learnTooth_writes {p c : Nat} {l : List Nat} (hp : (s.wheel w).pos = some p) (hc : (s.wheel w).cyc = c :: l) (hon : s.learns w = true)
    (hlock : s.lockAt w p = false) : learnTooth w s = writeLearnt w p c (showLearning w s) := by
  have hshow := showLearning_work w s noSlot
  have hpos : ((showLearning w s).wheel w).pos = some p := (congrArg Tracker.pos hshow.trk).trans hp
  have hcyc : ((showLearning w s).wheel w).cyc = c :: l := (congrArg Tracker.cyc hshow.trk).trans hc
  rw [learnTooth_eq, hpos, hcyc, hon]
  exact if_neg (by rw [hshow.table.lockAt, hlock]; decide)

/-- What a tooth learns changes its own entry only (R230). -/
theorem learnTooth_byte {p : Nat} (hp : (s.wheel w).pos = some p) {x : Nat}
    (hx : x < ttAddr (s.f (WHL_TTCFG_PBASE w) + p) ∨ ttAddr (s.f (WHL_TTCFG_PBASE w) + p) + 4 ≤ x) : (learnTooth w s).byte x = s.byte x := by
  have hshow := showLearning_work w s noSlot
  have hpos : ((showLearning w s).wheel w).pos = some p := (congrArg Tracker.pos hshow.trk).trans hp
  rw [learnTooth_eq, hpos]
  split
  · next q c l hon hq hc =>
    cases hq
    split
    · exact byte_congr hshow.mem x
    · rw [writeLearnt, entryWrite_byte_other _ _ _ _ (by rw [hshow.pbase]; exact hx), byte_congr (ttRequest_work w w noSlot [] _).mem,
        byte_congr hshow.mem]
  · exact byte_congr hshow.mem x

end

end Sys2Proof.Machine
end

section
namespace Sys2Proof.Machine

open Sys2Proof Reg

/-! ### A forward tooth (R221, R225, R230, R233) -/

/-- The interval from the last tooth to t. -/
def State.interval (s : State) (w : Nat) (t : Time) : Option Nat := (s.wheel w).lastT.map fun u => (t - u).toNat

/-- The synchronisation at a forward tooth: the cause of a loss, and the state. -/
def syncTooth (w : Nat) (t tp : Time) (level skip : Bool) (s : State) : Nat × State :=
  if s.flag (WHL_SYNCCFG_SYNCSRC w) then refSync w t tp s else gapSync w (s.interval w t) level skip tp s

/-- The tooth, whose position is found, is kept. -/
def keptTooth (w : Nat) (byRef : Bool) (t : Time) (s : State) : State := if byRef then s else keepTooth w t (s.wheel w).pos s

/-- The tooth is accepted and counted. -/
def movedTooth (w : Nat) (t tp : Time) (acc : Bool) (s : State) : State :=
  countCycle w t (closeAtTooth w t tp (acceptTooth w t false acc s))

/-- The fields that an accepted and counted tooth may change. -/
abbrev movedFlds : List TrkFld := [.estvalid, .angle, .accel, .seq, .drop, .dropped, .cyccnt]

/-- Tracker w has accepted the tooth at t. -/
structure Moved (w : Nat) (t : Time) (s u : State) : Prop extends TrackerWork w noSlot movedFlds s u where
  lastT : (u.wheel w).lastT = some t
  pos : (u.wheel w).pos = (s.wheel w).pos
  conf : (u.wheel w).conf = (s.wheel w).conf

/-- The position before the one that the tooth takes. -/
def State.fromPos (s u : State) (w : Nat) : Option Nat :=
  if (s.wheel w).pos.isSome then (u.wheel w).pos.map fun q => u.prevPhys w q (u.teethN w) else none

section
variable {w : Nat} {s : State}

theorem forwardTooth_lost {t tp : Time} {level skip acc : Bool} (h : (syncTooth w t tp level skip s).1 ≠ 0) :
    forwardTooth w t tp level skip acc s = lossAtTooth w (syncTooth w t tp level skip s).1 tp t (syncTooth w t tp level skip s).2 := by
  unfold forwardTooth
  exact if_pos h

theorem forwardTooth_moves {t tp : Time} {level skip acc : Bool} (h : (syncTooth w t tp level skip s).1 = 0) {u v : State}
    (hu : u = (syncTooth w t tp level skip s).2)
    (hv : v = learnTooth w (movedTooth w t tp acc (keptTooth w (s.flag (WHL_SYNCCFG_SYNCSRC w)) t u))) :
    forwardTooth w t tp level skip acc s =
      slotsTooth w (s.fromPos u w) (decide (v.whlState w = 3) && (v.wheel w).valid) tp v := by
  subst hu hv
  unfold forwardTooth
  exact if_neg (not_not.mpr h)

theorem syncTooth_work (t tp : Time) (level skip : Bool) : SyncWork w s (syncTooth w t tp level skip s).2 := by
  unfold syncTooth
  split
  · exact refSync_work t tp
  · exact gapSync_work _ level skip tp

theorem keptTooth_sync (byRef : Bool) (t : Time) (s : State) : SyncWork w s (keptTooth w byRef t s) := by
  unfold keptTooth
  split
  · exact .refl w s
  · exact keepTooth_sync t _ s

theorem keptTooth_pos (byRef : Bool) (t : Time) (s : State) : ((keptTooth w byRef t s).wheel w).pos = (s.wheel w).pos := by
  unfold keptTooth
  split
  · rfl
  · rw [State.wheel_pos, keepTooth_trk]; rfl

theorem keptTooth_conf (byRef : Bool) (t : Time) (s : State) : ((keptTooth w byRef t s).wheel w).conf = (s.wheel w).conf := by
  unfold keptTooth
  split
  · rfl
  · rw [State.wheel_conf, keepTooth_trk]; rfl

/-- A tooth that costs no sync is the newest of those kept. -/
theorem keptTooth_recent {t tp : Time} {level skip : Bool} (h : (syncTooth w t tp level skip s).1 = 0) :
    ((keptTooth w (s.flag (WHL_SYNCCFG_SYNCSRC w)) t (syncTooth w t tp level skip s).2).wheel w).recent ≠ [] := by
  unfold keptTooth syncTooth at *
  split
  · next hsrc => exact refSync_recent ((congrArg Prod.fst (if_pos hsrc)).symm.trans h)
  · rw [State.wheel_recent, keepTooth_trk]; exact List.cons_ne_nil _ _

/-- Where no secondary edge waits, the tooth is accepted and counted. -/
theorem movedTooth_moved {t tp : Time} {acc : Bool} (hsecs : (s.wheel w).secs = []) (hrecent : (s.wheel w).recent ≠ []) :
    Moved w t s (movedTooth w t tp acc s) := by
  obtain ⟨h, a, b, c, e, l, haccept⟩ := acceptTooth_trk w s t false acc
  have hsecs' : ((acceptTooth w t false acc s).wheel w).secs = [] := by rw [State.wheel_secs, haccept]; exact hsecs
  have hrecent' : ((acceptTooth w t false acc s).wheel w).recent ≠ [] := by rw [State.wheel_recent, haccept]; exact hrecent
  unfold movedTooth
  rw [closeAtTooth_none hsecs' hrecent']
  obtain ⟨a', b', c', d', e', hcount⟩ := countCycle_trk w (acceptTooth w t false acc s) t
  rw [haccept] at hcount
  refine ⟨((acceptTooth_work w s t false acc _).mono (fun _ => id) (by simp)).trans ((countCycle_work w _ t _).mono (fun _ => id) (by simp)), ?_, ?_,
    ?_⟩
  · rw [State.wheel_lastT, hcount]
  · rw [State.wheel_pos, hcount]; rfl
  · rw [State.wheel_conf, hcount]; rfl

theorem slotsTooth_work (prev : Option Nat) (live : Bool) (tp : Time) (s : State) : SlotWork w (· < 64) slotFlds s (slotsTooth w prev live tp s) := by
  rw [slotsTooth_eq]
  exact eachSlot_work (fun k s => toothSlot_work w prev live tp k s) s

end

/-- Tracker w has found its position at the tooth t, accepted it, learnt and served its slots. -/
structure ForwardStep (w : Nat) (t tp : Time) (s u l v x : State) : Prop where
  sync : SyncWork w s u
  moved : Moved w t u l
  learn : v = learnTooth w l
  slots : x = slotsTooth w (s.fromPos u w) (decide (v.whlState w = 3) && (v.wheel w).valid) tp v

theorem Moved.after {w : Nat} {t : Time} {s u v : State} (hpos : (u.wheel w).pos = (s.wheel w).pos)
    (hconf : (u.wheel w).conf = (s.wheel w).conf) (k : Moved w t u v) (hw : TrackerWork w noSlot movedFlds s u) : Moved w t s v :=
  ⟨hw.trans k.toTrackerWork, k.lastT, k.pos.trans hpos, k.conf.trans hconf⟩

/-- A forward tooth costs sync, or moves the wheel on. -/
theorem forwardTooth_step {w : Nat} {t tp : Time} {level skip acc : Bool} {s : State} (hsecs : (s.wheel w).secs = [])
    (h : (syncTooth w t tp level skip s).1 = 0) :
    ∃ l v, ForwardStep w t tp s (syncTooth w t tp level skip s).2 l v (forwardTooth w t tp level skip acc s) := by
  have hsync := syncTooth_work (w := w) (s := s) t tp level skip
  have hkept := keptTooth_sync (w := w) (s.flag (WHL_SYNCCFG_SYNCSRC w)) t (syncTooth w t tp level skip s).2
  have hwork : TrackerWork w noSlot movedFlds (syncTooth w t tp level skip s).2
      (keptTooth w (s.flag (WHL_SYNCCFG_SYNCSRC w)) t (syncTooth w t tp level skip s).2) := by
    unfold keptTooth
    split
    · exact .refl w _ _ _
    · exact keepTooth_work w _ t _ _ _
  have hmoved := movedTooth_moved (tp := tp) (acc := acc) (t := t) ((hkept.stem.secs.trans hsync.stem.secs).trans hsecs) (keptTooth_recent h)
  exact ⟨_, _, hsync, hmoved.after (keptTooth_pos _ t _) (keptTooth_conf _ t _) hwork, rfl, forwardTooth_moves h rfl rfl⟩

section
variable {w : Nat} {t tp : Time} {s u l v x : State} (h : ForwardStep w t tp s u l v x)
include h

/-- The fields that the rest of a forward tooth may change. -/
abbrev restFlds : List TrkFld := [.estvalid, .angle, .accel, .seq, .drop, .dropped, .cyccnt, .learning, .skip]

theorem ForwardStep.after : TrackerFrame w (· < 64) restFlds u x := by
  rw [h.slots, h.learn]
  exact ((h.moved.toTrackerFrame.mono (fun _ hj => hj.elim) (by simp)).trans ((learnTooth_work w l _).mono (fun _ => id) (by simp))).trans
    ((slotsTooth_work _ _ tp _).toTrackerFrame.mono (fun _ => id) (by simp))

/-- The tracker is not changed any more once it has accepted the tooth, but for its slots. -/
theorem ForwardStep.trk : x.trk w = l.trk w := by
  rw [h.slots, (slotsTooth_work _ _ tp _).trk, h.learn, learnTooth_trk]

theorem ForwardStep.before : TrackerFrame w noSlot (syncFlds ++ movedFlds ++ [.learning]) s v := by
  rw [h.learn]
  exact ((h.sync.toTrackerFrame.mono (fun _ => id) (by simp)).trans (h.moved.toTrackerFrame.mono (fun _ => id) (by simp))).trans
    ((learnTooth_work w l _).mono (fun _ => id) (by simp))

theorem ForwardStep.pos : (x.wheel w).pos = (u.wheel w).pos := (congrArg Tracker.pos h.trk).trans h.moved.pos
theorem ForwardStep.conf : (x.wheel w).conf = (u.wheel w).conf := (congrArg Tracker.conf h.trk).trans h.moved.conf
theorem ForwardStep.lastT : (x.wheel w).lastT = some t := (congrArg Tracker.lastT h.trk).trans h.moved.lastT
theorem ForwardStep.whlState : x.whlState w = u.whlState w := h.after.fld .state (by simp)
theorem ForwardStep.syncgain : x.f (WHL_FLAGS_SYNCGAIN w) = u.f (WHL_FLAGS_SYNCGAIN w) := h.after.fld .syncgain (by simp)

end

end Sys2Proof.Machine
end

section
namespace Sys2Proof.Machine

open Sys2Proof Reg

/-! ### The record at the front of the queue (R214) -/

/-- The front record is taken at Mast cycle p, and l is left. -/
def Tracker.took (p : Nat) (l : List (Tooth × Nat)) (x : Tracker) : Tracker := { x with fifo := l, lastP := some p }

def takeTooth (w p : Nat) (l : List (Tooth × Nat)) (s : State) : State := s.modWheel w (Tracker.took p l)

theorem toothProcess_empty {w : Nat} {s : State} (h : (s.wheel w).fifo = [] ∨ s.whlEn w = false) : toothProcess w s = s := by
  unfold toothProcess
  dsimp only
  split
  · rfl
  · next r ta l hf => exact if_pos (by simpa [hf] using .inr (h.resolve_left (by simp [hf])))

theorem toothProcess_early {w : Nat} {s : State} {r : Tooth} {ta : Nat} {l : List (Tooth × Nat)} (hf : (s.wheel w).fifo = (r, ta) :: l)
    (h : s.mc < max (ta + 20) (((s.wheel w).lastP.getD 0) + 20)) : toothProcess w s = s := by
  unfold toothProcess
  dsimp only
  rw [hf]
  exact if_pos (by rw [Bool.or_eq_true, decide_eq_true_eq]; exact .inl h)

theorem toothProcess_takes {w p : Nat} {s : State} {r : Tooth} {ta : Nat} {l : List (Tooth × Nat)} (hf : (s.wheel w).fifo = (r, ta) :: l)
    (hp : p = max (ta + 20) (((s.wheel w).lastP.getD 0) + 20)) (hmc : p ≤ s.mc) (hen : s.whlEn w = true) :
    toothProcess w s = if r.port = s.f (WHL_INPUT_PPORT w) then primary w r.time r.other (s.timeOfMc p) (takeTooth w p l s)
      else secondary w r.time (s.timeOfMc p) (takeTooth w p l s) := by
  subst hp
  unfold toothProcess
  dsimp only
  rw [hf]
  exact if_neg (by simp [hen]; omega)

/-- The record has been taken, and the primary region read. -/
def readTooth (w p : Nat) (l : List (Tooth × Nat)) (s : State) : State :=
  (ttRead w (s.f (WHL_TTCFG_PBASE w)) (s.teethN w) (takeTooth w p l s)).2.2

section
variable (w p : Nat) (l : List (Tooth × Nat)) (s : State)

theorem readTooth_work (J : Nat → Prop) : TrackerWork w J [] s (readTooth w p l s) :=
  (modWheel_work w J _ (f := Tracker.took p l) (fun _ => rfl) s).trans (ttRead_work w w _ _ J _ _).toTrackerWork

theorem readTooth_trk : (readTooth w p l s).trk w = (s.trk w).took p l := by
  rw [readTooth, (ttRead_work w w _ _ noSlot [] _).trk, takeTooth, modWheel_trk_of w _ (f := Tracker.took p l) (fun _ => rfl)]

theorem readTooth_hist : ((readTooth w p l s).wheel w).hist = (s.wheel w).hist := by rw [State.wheel_hist, readTooth_trk]; rfl
theorem readTooth_lastT : ((readTooth w p l s).wheel w).lastT = (s.wheel w).lastT := by rw [State.wheel_lastT, readTooth_trk]; rfl
theorem readTooth_prevE : ((readTooth w p l s).wheel w).prevE = (s.wheel w).prevE := by rw [State.wheel_prevE, readTooth_trk]; rfl
theorem readTooth_pos : ((readTooth w p l s).wheel w).pos = (s.wheel w).pos := by rw [State.wheel_pos, readTooth_trk]; rfl
theorem readTooth_conf : ((readTooth w p l s).wheel w).conf = (s.wheel w).conf := by rw [State.wheel_conf, readTooth_trk]; rfl
theorem readTooth_refs : ((readTooth w p l s).wheel w).refs = (s.wheel w).refs := by rw [State.wheel_refs, readTooth_trk]; rfl
theorem readTooth_miss : ((readTooth w p l s).wheel w).miss = (s.wheel w).miss := (congrArg Tracker.miss (readTooth_trk w p l s) : _)
theorem readTooth_secs : ((readTooth w p l s).wheel w).secs = (s.wheel w).secs := by rw [State.wheel_secs, readTooth_trk]; rfl

theorem readTooth_flag (a : TrkFld) : (readTooth w p l s).f (a.fld w) = s.f (a.fld w) := (readTooth_work w p l s noSlot).fld a (by simp)

theorem readTooth_whlState : (readTooth w p l s).whlState w = s.whlState w := readTooth_flag w p l s .state

theorem readTooth_reverse : (readTooth w p l s).flag (WHL_STATUS_REVERSE w) = s.flag (WHL_STATUS_REVERSE w) :=
  congrArg (· != 0) (readTooth_flag w p l s .reverse)

theorem readTooth_isReverse (level : Bool) : (readTooth w p l s).isReverse w level = s.isReverse w level := by
  have h := readTooth_work w p l s noSlot
  rw [State.isReverse, State.isReverse, h.cfg (G := WHL_CFG_SECMODE w) (Nat.le_of_ble_eq_true rfl) (by simp [WHL_CFG_SECMODE, WHL_CFG, WHL_VRCFG]),
    h.cfgFlag (G := WHL_CFG_DIRINV w) (Nat.le_of_ble_eq_true rfl) (by simp [WHL_CFG_DIRINV, WHL_CFG, WHL_VRCFG])]

/-- The estimate predicts the next tooth as before. -/
theorem readTooth_dPred : (readTooth w p l s).dPred w = s.dPred w := by
  have h := readTooth_work w p l s noSlot
  have hdist (q : Nat) : (readTooth w p l s).nextDist w q = s.nextDist w q := by
    rw [State.nextDist, readTooth_reverse, h.table.prevPhys, h.table.ahead, h.table.nextPhys, h.table.ahead, h.teethN, State.nextDist]
  have hacc : (readTooth w p l s).accOn w = s.accOn w := by
    rw [State.accOn, State.wheel_accl, readTooth_trk,
      h.cfgFlag (G := WHL_CFG_ACC_EN w) (Nat.le_of_ble_eq_true rfl) (by simp [WHL_CFG_ACC_EN, WHL_CFG, WHL_VRCFG])]
    rfl
  have hwheel : ((readTooth w p l s).wheel w).a1 = (s.wheel w).a1 ∧ ((readTooth w p l s).wheel w).a2 = (s.wheel w).a2 :=
    ⟨(congrArg Tracker.a1 (readTooth_trk w p l s) : _), (congrArg Tracker.a2 (readTooth_trk w p l s) : _)⟩
  have hints : ((readTooth w p l s).wheel w).ints = (s.wheel w).ints := by rw [Tracker.ints, readTooth_hist]; rfl
  have hvalid : ((readTooth w p l s).wheel w).valid = (s.wheel w).valid := by rw [Tracker.valid, readTooth_hist]; rfl
  simp only [State.dPred, hvalid, hints, hwheel, hacc, readTooth_pos, hdist]

end

/-! ### A primary tooth (R226 to R229) -/

/-- A forward tooth is rejected, is an overspeed, or moves the wheel (R226). -/
def judge (w : Nat) (t : Time) (level : Bool) (tp : Time) (skip : Bool) (s : State) : State :=
  match (s.wheel w).lastT.map fun u => ((t - u).toNat : Int), s.dPred w with
  | some e, some d =>
    if e * 256 < s.f (WHL_FILT_MINFRAC w) * d then
      ((s.raise (WHL_FLAGS_REJECT w)).bump (WHL_ERRCNT_REJ w)).modWheel w fun x => { x with seen := x.seen.erase t }
    else if e < 25600 then lossAtTooth w 4 tp t (s.raise (WHL_FLAGS_OVERSPEED w))
    else forwardTooth w t tp level skip (decide (e * 5 < d * 3)) s
  | some e, none =>
    if e < 25600 then lossAtTooth w 4 tp t (s.raise (WHL_FLAGS_OVERSPEED w))
    else forwardTooth w t tp level skip false s
  | none, _ => forwardTooth w t tp level skip false s

/-- The direction of a tooth is settled (R229). -/
def steer (w : Nat) (t : Time) (level : Bool) (tp : Time) (stalled : Bool) (s : State) : State :=
  if s.isReverse w level then reverseTooth w t tp s
  else judge w t level tp (stalled || s.flag (WHL_STATUS_REVERSE w))
    (if s.flag (WHL_STATUS_REVERSE w) then restartEst w (s.setF (WHL_STATUS_REVERSE w) 0) else s)

theorem primary_eq (w : Nat) (t : Time) (level : Bool) (tp : Time) (s u : State)
    (hu : u = (ttRead w (s.f (WHL_TTCFG_PBASE w)) (s.teethN w) s).2.2) : primary w t level tp s =
    if (ttRead w (s.f (WHL_TTCFG_PBASE w)) (s.teethN w) s).2.1 = true then lossAtTooth w 6 tp t (u.raise (WHL_FLAGS_TTECC w))
    else steer w t level tp (decide (u.whlState w = 4)) (if u.whlState w = 4 then restartEst w (setWhlState w (u.wheel w).saved tp u) else u) := by
  subst hu
  unfold primary steer judge
  rfl

section
variable {w p : Nat} {l : List (Tooth × Nat)} {s : State}

theorem primary_bad (t : Time) (level : Bool) (tp : Time) (h : s.badWord (ttAddr (s.f (WHL_TTCFG_PBASE w))) (4 * s.teethN w) = true) :
    primary w t level tp (takeTooth w p l s) = lossAtTooth w 6 tp t ((readTooth w p l s).raise (WHL_FLAGS_TTECC w)) := by
  have hbad : (ttRead w (s.f (WHL_TTCFG_PBASE w)) (s.teethN w) (takeTooth w p l s)).2.1 = true := (ttRead_bad w _ _ _).trans h
  exact if_pos hbad

theorem primary_good {t : Time} {level : Bool} (tp : Time) (h : s.badWord (ttAddr (s.f (WHL_TTCFG_PBASE w))) (4 * s.teethN w) = false)
    (hst : s.whlState w ≠ 4) : primary w t level tp (takeTooth w p l s) = steer w t level tp false (readTooth w p l s) := by
  have hbad : (ttRead w ((takeTooth w p l s).f (WHL_TTCFG_PBASE w)) ((takeTooth w p l s).teethN w) (takeTooth w p l s)).2.1 = false :=
    (ttRead_bad w _ _ _).trans h
  rw [← readTooth_whlState w p l s] at hst
  rw [primary_eq w t level tp _ (readTooth w p l s) rfl, hbad, if_neg (by decide), if_neg hst, decide_eq_false hst]

theorem steer_reverse {t : Time} {level : Bool} (tp : Time) (stalled : Bool) (h : s.isReverse w level = true) :
    steer w t level tp stalled s = reverseTooth w t tp s := if_pos h

theorem steer_forward {t : Time} {level : Bool} (tp : Time) (h : s.isReverse w level = false) (hrev : s.flag (WHL_STATUS_REVERSE w) = false) :
    steer w t level tp false s = judge w t level tp false s := by
  rw [steer, if_neg (by rw [h]; decide), hrev, if_neg (by decide)]
  rfl

/-- A tooth that is too early for the estimate is rejected (R226). -/
theorem judge_reject {t : Time} {level : Bool} {tp : Time} {skip : Bool} {u : Time} {d : Int} (hu : (s.wheel w).lastT = some u)
    (hd : s.dPred w = some d) (h : ((t - u).toNat * 256 : Int) < s.f (WHL_FILT_MINFRAC w) * d) : judge w t level tp skip s =
      ((s.raise (WHL_FLAGS_REJECT w)).bump (WHL_ERRCNT_REJ w)).modWheel w fun x => { x with seen := x.seen.erase t } := by
  unfold judge
  rw [hu, hd]
  exact if_pos h

/-- A tooth too soon after the last is an overspeed (R226). -/
theorem judge_overspeed {t : Time} {level : Bool} {tp : Time} {skip : Bool} {u : Time} (hu : (s.wheel w).lastT = some u)
    (hd : ∀ d, s.dPred w = some d → s.f (WHL_FILT_MINFRAC w) * d ≤ ((t - u).toNat * 256 : Int)) (h : (t - u).toNat < 25600) :
    judge w t level tp skip s = lossAtTooth w 4 tp t (s.raise (WHL_FLAGS_OVERSPEED w)) := by
  have hlt : ((t - u).toNat : Int) < 25600 := by exact_mod_cast h
  unfold judge
  rw [hu]
  cases hp : s.dPred w with
  | none => exact if_pos hlt
  | some d => exact (if_neg (not_lt.mpr (hd d hp))).trans (if_pos hlt)

/-- A tooth that is neither moves the wheel. -/
theorem judge_forward {t : Time} {level : Bool} {tp : Time} {skip : Bool}
    (h : ∀ n, s.interval w t = some n → 25600 ≤ n ∧ ∀ d, s.dPred w = some d → s.f (WHL_FILT_MINFRAC w) * d ≤ (n * 256 : Int)) :
    ∃ acc, judge w t level tp skip s = forwardTooth w t tp level skip acc s := by
  unfold judge
  cases hu : (s.wheel w).lastT with
  | none => exact ⟨_, rfl⟩
  | some u =>
    obtain ⟨hn, hd⟩ := h (t - u).toNat (by rw [State.interval, hu]; rfl)
    have hlt : ¬((t - u).toNat : Int) < 25600 := by omega
    cases hp : s.dPred w with
    | none => exact ⟨_, if_neg hlt⟩
    | some d => exact ⟨_, (if_neg (not_lt.mpr (hd d hp))).trans (if_neg hlt)⟩

end

/-- A tooth that State.acceptsForward describes. -/
theorem toothProcess_forward {w p : Nat} {s : State} {r : Tooth} {e : Option Nat} (h : s.acceptsForward w r p e) :
    ∃ l acc, toothProcess w s = forwardTooth w r.time (s.timeOfMc p) r.other false acc (readTooth w p l s) := by
  obtain ⟨⟨ta, l, hf, hp, hmc, hen⟩, hport, hbad, hst, hdir, hrev, -, he, hint⟩ := h
  have hmin : (readTooth w p l s).f (WHL_FILT_MINFRAC w) = s.f (WHL_FILT_MINFRAC w) :=
    (readTooth_work w p l s noSlot).cfg (Nat.le_of_ble_eq_true rfl) (by simp [WHL_FILT_MINFRAC, WHL_FILT, WHL_CFG, WHL_VRCFG])
  obtain ⟨acc, hacc⟩ := judge_forward (s := readTooth w p l s) (w := w) (t := r.time) (level := r.other) (tp := s.timeOfMc p) (skip := false) (by
    rw [State.interval, readTooth_lastT, ← he, readTooth_dPred, hmin]
    exact hint)
  refine ⟨l, acc, ?_⟩
  rw [toothProcess_takes hf hp hmc hen, if_pos hport, primary_good _ hbad hst, steer_forward _ (by rw [readTooth_isReverse, hdir])
    (by rw [readTooth_reverse, hrev]), hacc]

end Sys2Proof.Machine
end

section
namespace Sys2Proof.Machine

open Sys2Proof Reg

/-! ### The slots at an accepted tooth (R233, R234) -/

theorem ForwardStep.physAt {w : Nat} {t tp : Time} {s u l v x : State} (h : ForwardStep w t tp s u l v x) (q : Nat) :
    x.physAt w q = u.physAt w q := by
  rw [h.slots, (slotsTooth_work _ _ tp _).table.physAt, h.learn, learnTooth_physAt, h.moved.table.physAt]

/-- An accepted tooth that leaves the tracker in SYNC with an estimate: slot k meets it once, with the position before it. -/
theorem toothProcess_slot {w k p q : Nat} {s t : State} {r : Tooth} {e : Option Nat} (hk : k < 64) (h : s.acceptsForward w r p e)
    (ht : t = toothProcess w s) (hpos : (t.wheel w).pos = some q) (hst : t.whlState w = 3) (hvalid : (t.wheel w).valid = true) :
    ∃ prev N x, TrackerFrame w (butSlot k) N s x ∧ SlotWork w (butSlot k) slotFlds (toothSlot w prev true (s.timeOfMc p) k x) t ∧
      ∀ a b, (prev.any fun p => t.spans w (p * 65536) a b) =
        ((s.wheel w).pos.isSome && t.spans w (t.prevPhys w q (s.teethN w) * 65536) a b) := by
  obtain ⟨l, acc, hfwd⟩ := toothProcess_forward h
  obtain ⟨-, -, -, -, -, -, hsecs, -⟩ := h
  have hread := readTooth_work w p l s noSlot
  rw [hfwd] at ht
  by_cases hsync : (syncTooth w r.time (s.timeOfMc p) r.other false (readTooth w p l s)).1 = 0
  · obtain ⟨m, v, hstep⟩ := forwardTooth_step (acc := acc) ((readTooth_secs w p l s).trans hsecs) hsync
    rw [← ht] at hstep
    generalize (syncTooth w r.time (s.timeOfMc p) r.other false (readTooth w p l s)).2 = u at hstep
    have hslots := slotsTooth_work (w := w) ((readTooth w p l s).fromPos u w) (decide (v.whlState w = 3) && (v.wheel w).valid) (s.timeOfMc p) v
    rw [← hstep.slots] at hslots
    have hstate : v.whlState w = 3 := (hslots.fld .state (by simp)).symm.trans hst
    have hlive : (decide (v.whlState w = 3) && (v.wheel w).valid) = true := by
      rw [← hslots.prediction.valid, hvalid, decide_eq_true hstate]
      rfl
    have heach := hstep.slots
    rw [hlive, slotsTooth_eq] at heach
    obtain ⟨x, hx, hfx⟩ := eachSlot_at (toothSlot_work w ((readTooth w p l s).fromPos u w) true (s.timeOfMc p)) hk v
    rw [← heach] at hfx
    refine ⟨(readTooth w p l s).fromPos u w, syncFlds ++ movedFlds ++ [.learning] ++ slotFlds, x, ?_, hfx, fun a b => ?_⟩
    · exact ((hread.toTrackerFrame.mono (fun _ h => h.elim) (List.nil_subset _)).trans
        (hstep.before.mono (fun _ h => h.elim) (List.subset_append_left _ _))).trans
          (hx.toTrackerFrame.mono (fun _ => id) (List.subset_append_right _ _))
    · have hprev : u.prevPhys w q (u.teethN w) = t.prevPhys w q (s.teethN w) := by
        rw [prevPhys_congr hstep.after.teethN hstep.physAt, ← hread.teethN, ← hstep.sync.teethN]
      rw [State.fromPos, readTooth_pos, ← hstep.pos, hpos, Option.map_some, hprev]
      cases (s.wheel w).pos <;> rfl
  · rw [forwardTooth_lost hsync] at ht
    exact absurd ((congrArg (·.whlState w) ht).symm.trans hst) (by rw [lossAtTooth_whlState]; decide)

end Sys2Proof.Machine
end

section
namespace Sys2Proof.Machine

open Sys2Proof Reg

/-! ### A reverse tooth (R229, R242) -/

/-- The reversal is noted. -/
def noteReverse (w : Nat) (s : State) : State := whlPulse w 5 ((s.raise (WHL_FLAGS_REVERSE w)).setF (WHL_STATUS_REVERSE w) 1)

/-- The first reverse tooth ends what runs. -/
def reverseTurn (w : Nat) (tp : Time) (s : State) : State := restartEst w (eachSlot (fun k => reverseSlot w k tp) (noteReverse w s))

/-- A tracker that goes back to position q. -/
def Tracker.wentBack (f : Nat → Nat) (x : Tracker) : Tracker := { x with pos := x.pos.map f, lowT := none, cyc := [], miss := none }

/-- The count goes back by a tooth. -/
def countBack (w : Nat) (s : State) : State := s.modWheel w (Tracker.wentBack fun p => s.prevPhys w p (s.teethN w))

/-- The wheel goes back by the tooth at t, which is accepted. -/
def backTooth (w : Nat) (t : Time) (s : State) : State :=
  acceptTooth w t true false ((keepTooth w t ((countBack w s).wheel w).pos (countBack w s)).setF (WHL_STATUS_LEARNING w) 0)

/-- The edges are numbered from the lowest position on. -/
def numberEdges (w : Nat) (t : Time) (s : State) : State := if (s.wheel w).pos = some (s.lowPhys w) then restartEdges w t s else s

theorem reverseTooth_eq (w : Nat) (t tp : Time) (s : State) : reverseTooth w t tp s =
    numberEdges w t (closeAtTooth w t tp (backTooth w t (if !s.flag (WHL_STATUS_REVERSE w) then reverseTurn w tp s else s))) := by
  unfold reverseTooth numberEdges backTooth countBack reverseTurn noteReverse Tracker.wentBack
  dsimp only

/-- The fields that a reverse tooth may change. -/
abbrev backFlds : List TrkFld := [.estvalid, .angle, .accel, .seq, .drop, .dropped, .learning]

section
variable (w : Nat) (t tp : Time) (s : State)

theorem countBack_work (J : Nat → Prop) (N : List TrkFld) : TrackerWork w J N s (countBack w s) :=
  modWheel_work w J N (f := Tracker.wentBack _) (fun _ => rfl) s

theorem countBack_trk : (countBack w s).trk w = (s.trk w).wentBack fun p => s.prevPhys w p (s.teethN w) :=
  modWheel_trk_of w s (f := Tracker.wentBack _) (fun _ => rfl)

theorem backTooth_work (J : Nat → Prop) : TrackerWork w J backFlds s (backTooth w t s) :=
  ((countBack_work w s J _).trans (keepTooth_work w _ t _ J _)).trans
    (((setF_fld_work w J .learning (by simp) _).mono (fun _ => id) (by simp)).toTrackerWork.trans
      ((acceptTooth_work w _ t true false J).mono (fun _ => id) (by simp)))

theorem backTooth_learning : (backTooth w t s).f (WHL_STATUS_LEARNING w) = 0 :=
  ((acceptTooth_work w _ t true false noSlot).fld .learning (by simp)).trans (State.setF_fld_same _ w .learning 0)

theorem backTooth_trk : ∃ h a b c e l, (backTooth w t s).trk w =
    { (s.trk w).wentBack fun p => s.prevPhys w p (s.teethN w) with
      recent := ((t, ((countBack w s).wheel w).pos) :: (s.trk w).recent).take 1024
      hist := h, a1 := a, a2 := b, accl := c, lastT := some t, stallT := some t, prevE := e, seen := l } := by
  obtain ⟨h, a, b, c, e, l, haccept⟩ :=
    acceptTooth_trk w ((keepTooth w t ((countBack w s).wheel w).pos (countBack w s)).setF (WHL_STATUS_LEARNING w) 0) t true false
  rw [setF_trk, keepTooth_trk, countBack_trk] at haccept
  exact ⟨h, a, b, c, e, l, haccept⟩

theorem noteReverse_work (J : Nat → Prop) : SlotWork w J [.reversed, .reverse] s (noteReverse w s) :=
  (((raise_fld_work w J .reversed s).mono (fun _ => id) (by simp)).trans ((setF_fld_work w J .reverse (by simp) _).mono (fun _ => id) (by simp))).trans
    (whlPulse_work w 5 J _ _)

theorem noteReverse_flds : (noteReverse w s).f (WHL_STATUS_REVERSE w) = 1 ∧ (noteReverse w s).f (WHL_FLAGS_REVERSE w) = 1 := by
  refine ⟨((whlPulse_work w 5 noSlot [] _).fld .reverse (by simp)).trans (State.setF_fld_same _ w .reverse 1), ?_⟩
  refine ((whlPulse_work w 5 noSlot [] _).fld .reversed (by simp)).trans ((State.setF_fld_ne _ w (a := .reversed) (b := .reverse) (by simp) 1).trans ?_)
  exact State.raise_f_same _ _ (TrkFld.reversed.narrow w) (Nat.le_refl 1)

theorem reverseSlots_work : SlotWork w (· < 64) sendFlds s (eachSlot (fun k => reverseSlot w k tp) s) :=
  eachSlot_work (reverseSlot_work w tp) s

theorem reverseTurn_rest : TrackerWork w (· < 64) (.estvalid :: sendFlds) (noteReverse w s) (reverseTurn w tp s) :=
  ((reverseSlots_work w tp _).mono (fun _ => id) (by simp)).toTrackerWork.trans ((restartEst_work w _ _).mono (fun _ => id) (by simp))

theorem reverseTurn_trk : (reverseTurn w tp s).trk w = { s.trk w with hist := [], a1 := 0, a2 := 0, accl := false } := by
  rw [reverseTurn, restartEst_trk, (reverseSlots_work w tp _).trk, (noteReverse_work w s noSlot).trk]

theorem numberEdges_work (J : Nat → Prop) (N : List TrkFld) : TrackerWork w J N s (numberEdges w t s) := by
  unfold numberEdges
  split
  · exact restartEdges_work w s t J N
  · exact .refl w J N s

theorem numberEdges_trk : ∃ a b c, (numberEdges w t s).trk w = { s.trk w with secPrev := a, secJ := b, numT := c } := by
  unfold numberEdges
  split
  · exact ⟨_, _, _, restartEdges_trk w s t⟩
  · exact ⟨_, _, _, rfl⟩

end

/-- Where no secondary edge waits, a reverse tooth moves the wheel back. -/
theorem backTooth_closed {w : Nat} {s : State} (hsecs : (s.wheel w).secs = []) (t tp : Time) : closeAtTooth w t tp (backTooth w t s) = backTooth w t s := by
  obtain ⟨h, a, b, c, e, l, htrk⟩ := backTooth_trk w t s
  refine closeAtTooth_none ?_ ?_ t tp
  · rw [State.wheel_secs, htrk]; exact hsecs
  · rw [State.wheel_recent, htrk]; exact List.cons_ne_nil _ _

/-- The wheel goes back by the tooth at t, and its edges are numbered. -/
def wentBack (w : Nat) (t : Time) (s : State) : State := numberEdges w t (backTooth w t s)

theorem wentBack_work (w : Nat) (t : Time) (s : State) (J : Nat → Prop) : TrackerWork w J backFlds s (wentBack w t s) :=
  (backTooth_work w t s J).trans (numberEdges_work w t _ J _)

/-- The tracker once the wheel has gone back. -/
theorem wentBack_trk (w : Nat) (t : Time) (s : State) : ((wentBack w t s).wheel w).lastT = some t ∧
    ((wentBack w t s).wheel w).pos = (s.wheel w).pos.map (fun q => s.prevPhys w q (s.teethN w)) := by
  obtain ⟨h, a, b, c, e, l, hback⟩ := backTooth_trk w t s
  obtain ⟨x, y, z, hnum⟩ := numberEdges_trk w t (backTooth w t s)
  rw [hback] at hnum
  rw [wentBack, State.wheel_lastT, State.wheel_pos, hnum]
  exact ⟨rfl, rfl⟩

theorem reverseTooth_on {w : Nat} {s : State} (hsecs : (s.wheel w).secs = []) (hrev : s.flag (WHL_STATUS_REVERSE w) = true) (t tp : Time) :
    reverseTooth w t tp s = wentBack w t s := by
  rw [reverseTooth_eq, hrev, if_neg (by decide), backTooth_closed hsecs, wentBack]

theorem reverseTooth_first {w : Nat} {s : State} (hsecs : (s.wheel w).secs = []) (hrev : s.flag (WHL_STATUS_REVERSE w) = false) (t tp : Time) :
    reverseTooth w t tp s = wentBack w t (reverseTurn w tp s) := by
  have hsecs' : ((reverseTurn w tp s).wheel w).secs = [] := by rw [State.wheel_secs, reverseTurn_trk]; exact hsecs
  rw [reverseTooth_eq, hrev, if_pos (by decide), backTooth_closed hsecs', wentBack]

/-- What a reverse tooth leaves (R229). -/
theorem reverseTooth_went {w : Nat} {s : State} (hsecs : (s.wheel w).secs = []) (t tp : Time) :
    (reverseTooth w t tp s).f (WHL_STATUS_REVERSE w) = 1 ∧ ((reverseTooth w t tp s).wheel w).lastT = some t ∧
    (reverseTooth w t tp s).f (WHL_STATUS_LEARNING w) = 0 ∧
    ((reverseTooth w t tp s).wheel w).pos = (s.wheel w).pos.map (fun q => s.prevPhys w q (s.teethN w)) ∧
    (s.flag (WHL_STATUS_REVERSE w) = false → (reverseTooth w t tp s).f (WHL_FLAGS_REVERSE w) = 1) := by
  have hlearn (u : State) : (wentBack w t u).f (WHL_STATUS_LEARNING w) = 0 :=
    ((numberEdges_work w t _ noSlot []).fld .learning (by simp)).trans (backTooth_learning w t u)
  cases hrev : s.flag (WHL_STATUS_REVERSE w) with
  | true =>
    have hone : s.f (WHL_STATUS_REVERSE w) = 1 := by
      have hlt : s.f (WHL_STATUS_REVERSE w) < 2 ^ 1 := State.f_lt s (WHL_STATUS_REVERSE w)
      have hne : s.f (WHL_STATUS_REVERSE w) ≠ 0 := by simpa [State.flag] using hrev
      omega
    obtain ⟨h1, h2⟩ := wentBack_trk w t s
    rw [reverseTooth_on hsecs hrev]
    exact ⟨((wentBack_work w t s noSlot).fld .reverse (by simp)).trans hone, h1, hlearn s, h2, fun h => by simp at h⟩
  | false =>
    obtain ⟨h1, h2⟩ := wentBack_trk w t (reverseTurn w tp s)
    obtain ⟨hon, hflag⟩ := noteReverse_flds w s
    have hturn := reverseTurn_rest w tp s
    have hgo := wentBack_work w t (reverseTurn w tp s) noSlot
    have htable := ((noteReverse_work w s noSlot).table).trans hturn.table
    have hpos : ((reverseTurn w tp s).wheel w).pos = (s.wheel w).pos := by rw [State.wheel_pos, reverseTurn_trk]; rfl
    rw [reverseTooth_first hsecs hrev]
    refine ⟨(hgo.fld .reverse (by simp)).trans ((hturn.fld .reverse (by simp)).trans hon), h1, hlearn _, h2.trans ?_,
      fun _ => (hgo.fld .reversed (by simp)).trans ((hturn.fld .reversed (by simp)).trans hflag)⟩
    simp only [htable.prevPhys, htable.count, hpos]

/-- The first reverse tooth holds every slot (R242). -/
theorem reverseTooth_held {w k : Nat} {s u : State} (hk : k < 64) (hu : TrackerFrame w noSlot [] s u) (hsecs : (u.wheel w).secs = [])
    (hrev : u.flag (WHL_STATUS_REVERSE w) = false) (t tp : Time) :
    SlotHeld w k tp (((s.wheel w).slot k).tb + BitVec.ofInt 64 (max (sdiff tp ((s.wheel w).slot k).tb) 512)) (WHL_EVSTAT_REVEND w k) s
      (reverseTooth w t tp u) := by
  rw [reverseTooth_first hsecs hrev]
  refine reverseSlots_held hk (N := [.reversed, .reverse, .estvalid, .angle, .accel, .seq, .drop, .dropped, .learning]) (u := noteReverse w u) (by simp) ?_ ?_
  · exact (hu.mono (fun _ => id) (by simp)).trans ((noteReverse_work w u noSlot).toTrackerFrame.mono (fun _ => id) (by simp))
  · exact ((restartEst_work w _ noSlot).toTrackerFrame.mono (fun _ => id) (by simp)).trans
      ((wentBack_work w t _ noSlot).toTrackerFrame.mono (fun _ => id) (by simp))

end Sys2Proof.Machine
end

section
namespace Sys2Proof.Machine

open Sys2Proof Reg

/-! ### Writes of software to a tracker (R247, R253) -/

theorem softWrite_whl {off part : Nat} {r : Row} {s : State} (hr : s.reaches off) (hrow : rowAt off = some (r, part))
    (hnarrow : r.wide = false) (hblk : off / 0x10000 = 5) (req : Nat) (v : Word) : softWrite req off v s = writeWhl req off v s := by
  rw [softWrite_reaches _ _ hr (by rw [wideRw, hrow]; simp [hnarrow])]
  simp [putWord, hblk, hrow]

theorem writeWhl_CTRL (req w : Nat) (v : Word) (s : State) : writeWhl req (WHL_CTRL w) v s =
    if v.getLsbD 1 = true then resync w (if v.getLsbD 0 = true then whlEnable w s else whlDisable w s)
    else if v.getLsbD 0 = true then whlEnable w s else whlDisable w s := by
  have hw : (WHL_CTRL w - 0x50000) / 0x1000 = w := by rw [WHL_CTRL]; omega
  simp only [writeWhl, hw, if_true]

theorem writeWhl_CLR (req w : Nat) (v : Word) (s : State) : writeWhl req (WHL_CLR w) v s = whlClr w v.toNat s := by
  have hw : (WHL_CLR w - 0x50000) / 0x1000 = w := by rw [WHL_CLR]; omega
  have hne : WHL_CLR w ≠ WHL_CTRL w := by rw [WHL_CLR, WHL_CTRL]; omega
  simp only [writeWhl, hw, hne, if_true, if_false]

theorem kept_WHL_CTRL (w : Fin 4) (s : State) : s.kept (WHL_CTRL w) = s.reg (WHL_CTRL w) &&& 1#32 := by
  rw [State.kept, rowAt_WHL_CTRL]
  show (s.reg (WHL_CTRL w) &&& 1#32) ||| (s.stg (WHL_CTRL w) &&& 0#32) = _
  simp

theorem setField_WHL_CTRL {w : Fin 4} {s : State} (hr : s.reaches (WHL_CTRL w)) (req lo n x : Nat) :
    setField req ⟨WHL_CTRL w, lo, n⟩ x s =
      writeWhl req (WHL_CTRL w) (BitVec.ofNat 32 (setBits (s.reg (WHL_CTRL w) &&& 1#32).toNat lo n x)) s := by
  have hoff : WHL_CTRL w = 0x50000 + 0x1000 * w.val := rfl
  rw [setField, softWrite_whl hr (rowAt_WHL_CTRL w) rfl (by omega), kept_WHL_CTRL]

/-- EN as it is written decides. -/
theorem setField_WHL_EN {w : Fin 4} {s : State} (hr : s.reaches (WHL_CTRL w)) (req x : Nat) :
    setField req (WHL_CTRL_EN w) x s = if x.testBit 0 = true then whlEnable w s else whlDisable w s := by
  rw [WHL_CTRL_EN, setField_WHL_CTRL hr, writeWhl_CTRL, setBits_getLsbD _ (by decide), setBits_getLsbD _ (by decide)]
  simp

/-- A write of RESYNC carries EN as it stands. -/
theorem setField_WHL_RESYNC {w : Fin 4} {s : State} (hr : s.reaches (WHL_CTRL w)) (req : Nat) :
    setField req (WHL_CTRL_RESYNC w) 1 s = resync w (if s.whlEn w = true then whlEnable w s else whlDisable w s) := by
  rw [WHL_CTRL_RESYNC, setField_WHL_CTRL hr, writeWhl_CTRL, setBits_getLsbD _ (by decide), setBits_getLsbD _ (by decide), State.whlEn,
    WHL_CTRL_EN, State.flag_eq_getLsbD _ (by decide)]
  simp

section
variable {w : Nat} {s : State}

theorem whlEnable_enabled (h : s.whlEn w = true) : whlEnable w s = s := if_pos h

theorem whlEnable_refused (h : s.whlEn w = false) (hok : s.whlOk w = false) :
    whlEnable w s = werr reqCheck (WHL_CTRL w) (s.raise (WHL_FLAGS_CFGERR w)) :=
  (if_neg (by rw [h]; decide)).trans (if_pos (by rw [hok]; rfl))

theorem whlDisable_disabled (h : s.whlEn w = false) : whlDisable w s = s := if_pos (by rw [h]; rfl)

/-- The queue of a tracker is emptied. -/
def Tracker.emptied (x : Tracker) : Tracker := { x with fifo := [] }

theorem whlDisable_enabled (h : s.whlEn w = true) : whlDisable w s =
    ((syncLoss w 8 0 s.now s).setF (WHL_CTRL_EN w) 0).modWheel w Tracker.emptied := by
  unfold whlDisable Tracker.emptied
  rw [h, if_neg (by decide)]

theorem resync_enabled (h : s.whlEn w = true) : resync w s = syncLoss w 7 1 s.now s := if_pos h

theorem resync_disabled (h : s.whlEn w = false) : resync w s = s := if_neg (by rw [h]; decide)

theorem en_of_whlEn (h : s.whlEn w = true) : s.f (WHL_CTRL_EN w) = 1 := by
  have hlt : s.f (WHL_CTRL_EN w) < 2 ^ 1 := State.f_lt s (WHL_CTRL_EN w)
  have hne : s.f (WHL_CTRL_EN w) ≠ 0 := by simpa [State.whlEn, State.flag] using h
  omega

theorem syncLoss_pos (cause final : Nat) (t : Time) : ((syncLoss w cause final t s).wheel w).pos = none := by
  rw [State.wheel_pos, syncLoss_trk]; rfl

/-- What a disable leaves (R240, R247). -/
theorem whlDisable_off (h : s.whlEn w = true) : (whlDisable w s).f (WHL_CTRL_EN w) = 0 ∧ (whlDisable w s).f (WHL_STATUS_STATE w) = 0 ∧
    (whlDisable w s).f (WHL_STATUS_CAUSE w) = 8 ∧ (whlDisable w s).f (WHL_FLAGS_SYNCLOSS w) = 1 ∧
    ((whlDisable w s).wheel w).fifo = [] ∧ ((whlDisable w s).wheel w).pos = none := by
  obtain ⟨hstate, hcause, hflag, -⟩ := syncLoss_flds w 8 s (final := 0) (by decide) (by decide) s.now
  have hen (a : TrkFld) (ha : a ≠ .en) : ((syncLoss w 8 0 s.now s).setF (WHL_CTRL_EN w) 0).f (a.fld w) = (syncLoss w 8 0 s.now s).f (a.fld w) :=
    State.setF_fld_ne _ w (b := .en) ha 0
  rw [whlDisable_enabled h]
  simp only [State.modWheel_f]
  refine ⟨State.setF_fld_same _ w .en 0, (hen .state (by simp)).trans hstate, (hen .cause (by simp)).trans hcause,
    (hen .syncloss (by simp)).trans hflag, ?_, ?_⟩
  · rw [State.wheel_fifo, modWheel_trk_of w _ (f := Tracker.emptied) (fun _ => rfl), setF_trk, syncLoss_trk]; rfl
  · rw [State.wheel_pos, modWheel_trk_of w _ (f := Tracker.emptied) (fun _ => rfl), setF_trk, syncLoss_trk]; rfl

/-- What a RESYNC leaves (R224). -/
theorem resync_seeks (h : s.whlEn w = true) : (resync w s).f (WHL_CTRL_EN w) = 1 ∧ (resync w s).f (WHL_STATUS_STATE w) = 1 ∧
    (resync w s).f (WHL_STATUS_CAUSE w) = 7 ∧ (resync w s).f (WHL_FLAGS_SYNCLOSS w) = 1 ∧ ((resync w s).wheel w).pos = none := by
  obtain ⟨hstate, hcause, hflag, -⟩ := syncLoss_flds w 7 s (final := 1) (by decide) (by decide) s.now
  rw [resync_enabled h]
  exact ⟨((syncLoss_work w 7 s 1 s.now).fld .en (by simp)).trans (en_of_whlEn h), hstate, hcause, hflag, syncLoss_pos 7 1 s.now⟩

/-- A sync loss holds every slot (R240). -/
theorem syncLoss_held {k : Nat} (hk : k < 64) (cause final : Nat) (t : Time) {N : List TrkFld} (hN : lossFlds ⊆ N) {v : State}
    (hv : TrackerFrame w noSlot N (syncLoss w cause final t s) v) :
    SlotHeld w k t (((s.wheel w).slot k).tb + fc ((s.wheel w).slot k).maxd) (WHL_EVSTAT_GUARD w k) s v := by
  refine haltSlots_held hk (N := N) (u := s) (fun a ha => hN ?_) (.refl w _ _ s) ?_
  · simp only [List.mem_cons, List.not_mem_nil, or_false] at ha
    rcases ha with rfl | rfl <;> simp
  · rw [syncLoss_eq] at hv
    exact ((loseSync_work w cause _ final t noSlot).toTrackerFrame.mono (fun _ => id) hN).trans hv

/-! ### Enabling (R247, R540) -/

/-- The fields that a slot which follows its EN may change. -/
abbrev followFlds : List TrkFld := [.slotrange, .drop, .dropped]

theorem slotFollow_work (w : Nat) (tp : Time) (k : Nat) (s : State) : SlotWork w (· = k) followFlds s (slotFollow w k tp s) := by
  unfold slotFollow
  dsimp only
  split
  · split
    · exact setSlotSt_work w k 1 _ s
    · exact .refl w _ _ s
  · split
    · exact ((((cancelSlot_work w k tp _ s).mono (fun _ => id) (by simp)).trans (flipParity_work w k _ _)).trans (clearSlot_work w k _ _ _)).trans
        (setSlotSt_work w k 0 _ _)
    · exact .refl w _ _ s
  · exact .refl w _ _ s
  · exact .refl w _ _ s
  · split
    · exact .refl w _ _ s
    · exact (clearSlot_work w k _ _ s).trans (setSlotSt_work w k 0 _ _)

theorem slotCheck_work (w k : Nat) (s : State) : SlotWork w (· = k) followFlds s (slotCheck w k s) := by
  unfold slotCheck
  split
  · exact (clearEn_work w k _ s).trans ((raise_fld_work w _ .slotrange _).mono (fun _ => id) (by simp))
  · exact .refl w _ _ s

/-- A tracker that is enabled anew. -/
def Tracker.fresh (x : Tracker) : Tracker := { slots := x.slots, recs := x.recs, lastP := x.lastP }

/-- A tracker at its enable, before its slots follow their EN. -/
def enabled (w : Nat) (s : State) : State :=
  restartEst w (((s.setF (WHL_CTRL_EN w) 1).modWheel w Tracker.fresh).setF (WHL_STATUS_REVERSE w) 0)

theorem whlEnable_enables (h : s.whlEn w = false) (hok : s.whlOk w = true) : whlEnable w s =
    setWhlState w 1 (enabled w s).now (eachSlot (fun k u => slotFollow w k u.now (slotCheck w k u)) (enabled w s)) := by
  unfold whlEnable enabled Tracker.fresh
  rw [h, hok, if_neg (by decide), if_neg (by decide)]

theorem enabled_trk : (enabled w s).trk w = { lastP := (s.trk w).lastP } := by
  rw [enabled, restartEst_trk, setF_trk, modWheel_trk_of w _ (f := Tracker.fresh) (fun _ => rfl), setF_trk]
  rfl

/-- What an enable leaves (R247). -/
theorem whlEnable_on (h : s.whlEn w = false) (hok : s.whlOk w = true) : (whlEnable w s).f (WHL_CTRL_EN w) = 1 ∧
    (whlEnable w s).f (WHL_STATUS_STATE w) = 1 ∧ (whlEnable w s).f (WHL_STATUS_REVERSE w) = 0 ∧ ((whlEnable w s).wheel w).fifo = [] ∧
    ((whlEnable w s).wheel w).pos = none ∧ ((whlEnable w s).wheel w).hist = [] := by
  have hslots : SlotWork w (· < 64) followFlds (enabled w s)
      (eachSlot (fun k u => slotFollow w k u.now (slotCheck w k u)) (enabled w s)) :=
    eachSlot_work (fun k u => (slotCheck_work w k u).trans (slotFollow_work w _ k _)) _
  have hstate (u : State) := setWhlState_work w u 1 (enabled w s).now (· < 64)
  have hest := restartEst_work w (((s.setF (WHL_CTRL_EN w) 1).modWheel w Tracker.fresh).setF (WHL_STATUS_REVERSE w) 0) noSlot
  have htrk : (whlEnable w s).trk w = { lastP := (s.trk w).lastP } := by
    rw [whlEnable_enables h hok, setWhlState_trk, hslots.trk, enabled_trk]
  rw [State.wheel_fifo, State.wheel_pos, State.wheel_hist, htrk, whlEnable_enables h hok]
  refine ⟨?_, setWhlState_whlState w _ (by decide) _, ?_, rfl, rfl, rfl⟩
  · refine ((hstate _).fld .en (by simp)).trans ((hslots.fld .en (by simp)).trans ((hest.fld .en (by simp)).trans ?_))
    refine (State.setF_fld_ne _ w (a := .en) (b := .reverse) (by simp) 0).trans ?_
    exact State.setF_fld_same s w .en 1
  · refine ((hstate _).fld .reverse (by simp)).trans ((hslots.fld .reverse (by simp)).trans ((hest.fld .reverse (by simp)).trans ?_))
    exact State.setF_fld_same _ w .reverse 0

end

end Sys2Proof.Machine
end

section
namespace Sys2Proof.Machine

open Sys2Proof Reg

/-! ### Commits and occurrences (R232, R235) -/

section
variable {w k : Nat} {s : State} {y : WSlot}

/-- The begin of slot k is due to be committed. -/
def State.begDue (s : State) (y : WSlot) : Prop := y.bq = true ∧ y.bc = false ∧ s.dueFc (y.tb - fc (commitHor (evPort y.cfg))) = true

/-- The end of slot k is due to be committed. -/
def State.endDue (s : State) (y : WSlot) : Prop := y.eq = true ∧ y.ec = false ∧ s.dueFc (y.te - fc (commitHor (evPort y.cfg))) = true

/-- What a commit tells of slot k. -/
def commitAux (k : Nat) (y : WSlot) : Nat := k + y.late.toNat * 2 ^ 6 + y.guard.toNat * 2 ^ 7

/-- The begin of slot k is committed. -/
def begCommitted (w k : Nat) (s : State) : State :=
  let u := s.modSlot w k fun y => { y with bc := true }
  if u.slotSt w k = 2 then setSlotSt w k 3 u else u

theorem slotCommit_begin (hy : y = (s.wheel w).slot k) (h : s.begDue y) :
    slotCommit w k s = whlRec w 0x12 y.tb (evPort y.cfg) false (commitAux k y) (begCommitted w k s) := by
  subst hy
  obtain ⟨h1, h2, h3⟩ := h
  exact if_pos (by rw [h1, h2, h3]; rfl)

theorem slotCommit_end (hy : y = (s.wheel w).slot k) (hb : ¬s.begDue y) (h : s.endDue y) :
    slotCommit w k s = whlRec w 0x12 y.te (evPort y.cfg) true (commitAux k y) (s.modSlot w k fun y => { y with ec := true }) := by
  subst hy
  obtain ⟨h1, h2, h3⟩ := h
  refine (if_neg fun hdue => hb ?_).trans (if_pos (by rw [h1, h2, h3]; rfl))
  simpa [State.begDue, and_assoc] using hdue

theorem slotCommit_idle (hy : y = (s.wheel w).slot k) (hb : ¬s.begDue y) (h : ¬s.endDue y) : slotCommit w k s = s := by
  subst hy
  refine (if_neg fun hdue => hb ?_).trans (if_neg fun hdue => h ?_)
  · simpa [State.begDue, and_assoc] using hdue
  · simpa [State.endDue, and_assoc] using hdue

theorem begCommitted_slot : ((begCommitted w k s).wheel w).slot k = { (s.wheel w).slot k with bc := true } := by
  unfold begCommitted
  dsimp only
  split
  · rw [setSlotSt_wheel, State.modSlot_slot]
  · rw [State.modSlot_slot]

theorem begCommitted_slotSt : (begCommitted w k s).slotSt w k = if s.slotSt w k = 2 then 3 else s.slotSt w k := by
  have hst : (s.modSlot w k fun y => { y with bc := true }).slotSt w k = s.slotSt w k := State.modSlot_f s w k _ _
  unfold begCommitted
  dsimp only
  rw [hst]
  split
  · exact setSlotSt_slotSt w k 3 _
  · exact hst

/-- A commit of a begin (R232). -/
theorem slotCommit_begins (hy : y = (s.wheel w).slot k) (h : s.begDue y) : ((slotCommit w k s).wheel w).slot k = { y with bc := true } ∧
    (slotCommit w k s).slotSt w k = if s.slotSt w k = 2 then 3 else s.slotSt w k := by
  have hrec := whlRec_work w 0x12 y.tb (evPort y.cfg) false (commitAux k y) noSlot (begCommitted w k s)
  rw [slotCommit_begin hy h, hrec.slot k id, hrec.slotSt noSlot_ne, begCommitted_slot, begCommitted_slotSt, hy]
  exact ⟨rfl, rfl⟩

/-- A commit of an end (R232). -/
theorem slotCommit_ends (hy : y = (s.wheel w).slot k) (hb : ¬s.begDue y) (h : s.endDue y) :
    ((slotCommit w k s).wheel w).slot k = { y with ec := true } ∧ (slotCommit w k s).slotSt w k = s.slotSt w k := by
  have hrec := whlRec_work w 0x12 y.te (evPort y.cfg) true (commitAux k y) noSlot (s.modSlot w k fun y => { y with ec := true })
  rw [slotCommit_end hy hb h, hrec.slot k id, hrec.slotSt noSlot_ne, State.modSlot_slot, hy]
  exact ⟨rfl, State.modSlot_f s w k _ _⟩

theorem occurrenceBegin_begins (hst : s.slotSt w k = 3) (hb : ((s.wheel w).slot k).bc = true) (hd : s.dueFc ((s.wheel w).slot k).tb = true) :
    occurrenceBegin w k s = setSlotSt w k 4 s := if_pos (by rw [hst, hb, hd]; rfl)

theorem occurrenceBegin_idle (h : s.slotSt w k ≠ 3 ∨ ((s.wheel w).slot k).bc = false ∨ s.dueFc ((s.wheel w).slot k).tb = false) :
    occurrenceBegin w k s = s := by
  refine if_neg fun hdue => ?_
  simp only [Bool.and_eq_true, decide_eq_true_eq] at hdue
  obtain ⟨⟨h1, h2⟩, h3⟩ := hdue
  rcases h with h | h | h
  · exact h h1
  · simp [h] at h2
  · simp [h] at h3

/-- The occurrence of slot k is over, and its parity is the other one. -/
def ended (w k : Nat) (s : State) : State :=
  (flipParity w k s).modSlot w k fun _ => { past := if ((s.wheel w).slot k).bpass then none else some ((s.wheel w).slot k).beg }

theorem occurrenceEnd_ends (hst : s.slotSt w k = 4) (hd : s.dueFc ((s.wheel w).slot k).endTime = true) : occurrenceEnd w k s =
    if evOnce ((s.wheel w).slot k).cfg = true then setSlotSt w k 0 (clearEn w k (ended w k s))
    else setSlotSt w k (if (ended w k s).flag (WHL_EVCFG_EN w k) = true then 1 else 0) (ended w k s) :=
  if_pos (by rw [hst, hd]; rfl)

theorem occurrenceEnd_idle (h : s.slotSt w k ≠ 4 ∨ s.dueFc ((s.wheel w).slot k).endTime = false) : occurrenceEnd w k s = s := by
  refine if_neg fun hdue => ?_
  simp only [Bool.and_eq_true, decide_eq_true_eq] at hdue
  obtain ⟨h1, h2⟩ := hdue
  rcases h with h | h
  · exact h h1
  · simp [h] at h2

@[simp] theorem ended_f (F : Fld) : (ended w k s).f F = (flipParity w k s).f F := rfl

theorem ended_slot : ((ended w k s).wheel w).slot k =
    { past := if ((s.wheel w).slot k).bpass = true then none else some ((s.wheel w).slot k).beg } := State.modSlot_slot _ w k _

theorem setSlotSt_en (v : Nat) (s : State) : (setSlotSt w k v s).f (WHL_EVCFG_EN w k) = s.f (WHL_EVCFG_EN w k) :=
  State.setF_f_ne _ _ _ _ (slotFld_state w k).1 (Nat.le_of_ble_eq_true rfl)
    (.inl (by simp only [WHL_EVCFG_EN, WHL_EVSTAT_STATE, WHL_EVCFG, WHL_EVSTAT]; omega))

theorem flipParity_en (s : State) : (flipParity w k s).f (WHL_EVCFG_EN w k) = s.f (WHL_EVCFG_EN w k) :=
  State.setF_f_ne _ _ _ _ (slotFld_parity w k).1 (Nat.le_of_ble_eq_true rfl)
    (.inl (by simp only [WHL_EVCFG_EN, WHL_EVSTAT_PARITY, WHL_EVCFG, WHL_EVSTAT]; omega))

theorem clearEn_parity (s : State) : (clearEn w k s).f (WHL_EVSTAT_PARITY w k) = s.f (WHL_EVSTAT_PARITY w k) :=
  State.setF_f_ne s _ _ 0 (Nat.le_of_ble_eq_true rfl) (slotFld_parity w k).1
    (.inl (by simp only [WHL_EVCFG_EN, WHL_EVSTAT_PARITY, WHL_EVCFG, WHL_EVSTAT]; omega))

theorem clearEn_en (s : State) : (clearEn w k s).f (WHL_EVCFG_EN w k) = 0 := State.setF_f_same s (WHL_EVCFG_EN w k) 0 (Nat.le_of_ble_eq_true rfl)

@[simp] theorem clearEn_wheel (i : Nat) (s : State) : (clearEn w k s).wheel i = s.wheel i :=
  congrArg (fun m => mget m i ({} : Tracker)) (State.setF_wheels s (WHL_EVCFG_EN w k) 0)

end

/-- From s to t only registers, staged values and trackers may change, and of the registers those of slot k. -/
def SlotOnly (w k : Nat) (s t : State) : Prop :=
  SameRegs s t [WHL_EVSTAT w k, WHL_EVCFG w k] ∧ t = { s with regs := t.regs, staged := t.staged, wheels := t.wheels }

section
variable {w k : Nat} {s t u : State}

theorem SlotOnly.trans (h : SlotOnly w k s t) (j : SlotOnly w k t u) : SlotOnly w k s u := by
  refine ⟨SameRegs.trans h.1 j.1, ?_⟩
  rw [j.2, h.2]

theorem OnlyRegs.slotOnly (h : OnlyRegs s t [WHL_EVSTAT w k, WHL_EVCFG w k]) : SlotOnly w k s t := by
  refine ⟨h.2, ?_⟩
  rw [h.1]

theorem setSlotSt_only (v : Nat) (s : State) : OnlyRegs s (setSlotSt w k v s) [WHL_EVSTAT w k] :=
  setF_onlyRegs s _ v (slotFld_state w k).1 (by simp [WHL_EVSTAT_STATE])

theorem ended_only (s : State) : SlotOnly w k s (ended w k s) := by
  have hflip : OnlyRegs s (flipParity w k s) [WHL_EVSTAT w k, WHL_EVCFG w k] :=
    setF_onlyRegs s _ _ (slotFld_parity w k).1 (by simp [WHL_EVSTAT_PARITY])
  exact hflip.slotOnly.trans ⟨fun _ _ => rfl, rfl⟩

theorem clearEn_only (s : State) : SlotOnly w k s (clearEn w k s) := by
  have hset : OnlyRegs s (s.setF (WHL_EVCFG_EN w k) 0) [WHL_EVSTAT w k, WHL_EVCFG w k] :=
    setF_onlyRegs s _ 0 (Nat.le_of_ble_eq_true rfl) (by simp [WHL_EVCFG_EN])
  exact hset.slotOnly.trans ⟨fun _ _ => rfl, rfl⟩

/-- What the end of an occurrence leaves of slot k and its flags. -/
def Over (w k v : Nat) (y : WSlot) (s t : State) : Prop :=
  t.f (WHL_EVSTAT_PARITY w k) = 1 - s.f (WHL_EVSTAT_PARITY w k) ∧
  (t.wheel w).slot k = { past := if y.bpass = true then none else some y.beg } ∧ t.slotSt w k = v ∧ SlotOnly w k s t

theorem setSlotSt_slotOnly (v : Nat) (s : State) : SlotOnly w k s (setSlotSt w k v s) :=
  ((setSlotSt_only v s).mono (by simp)).slotOnly

theorem ended_flag (s : State) : (ended w k s).flag (WHL_EVCFG_EN w k) = s.flag (WHL_EVCFG_EN w k) := by
  rw [State.flag, ended_f, flipParity_en, State.flag]

theorem ended_over {v : Nat} (hv : v < 8) (s : State) : Over w k v ((s.wheel w).slot k) s (setSlotSt w k v (ended w k s)) := by
  refine ⟨?_, ?_, ?_, (ended_only s).trans (setSlotSt_slotOnly v _)⟩
  · rw [setSlotSt_parity, ended_f, flipParity_parity]
  · rw [setSlotSt_wheel, ended_slot]
  · rw [setSlotSt_slotSt, Nat.mod_eq_of_lt hv]

theorem ended_off (s : State) : Over w k 0 ((s.wheel w).slot k) s (setSlotSt w k 0 (clearEn w k (ended w k s))) := by
  refine ⟨?_, ?_, setSlotSt_slotSt w k 0 _, ((ended_only s).trans (clearEn_only _)).trans (setSlotSt_slotOnly 0 _)⟩
  · rw [setSlotSt_parity, clearEn_parity, ended_f, flipParity_parity]
  · rw [setSlotSt_wheel, clearEn_wheel, ended_slot]

theorem occurrenceEnd_once (hst : s.slotSt w k = 4) (hd : s.dueFc ((s.wheel w).slot k).endTime = true)
    (honce : evOnce ((s.wheel w).slot k).cfg = true) :
    occurrenceEnd w k s = setSlotSt w k 0 (clearEn w k (ended w k s)) := by
  rw [occurrenceEnd_ends hst hd, if_pos honce]

theorem occurrenceEnd_again (hst : s.slotSt w k = 4) (hd : s.dueFc ((s.wheel w).slot k).endTime = true)
    (honce : evOnce ((s.wheel w).slot k).cfg = false) :
    occurrenceEnd w k s = setSlotSt w k (if s.flag (WHL_EVCFG_EN w k) = true then 1 else 0) (ended w k s) := by
  rw [occurrenceEnd_ends hst hd, ended_flag, if_neg (by rw [honce]; exact Bool.false_ne_true)]

/-- The end of an occurrence (R231, R235, R237). -/
theorem occurrenceEnd_over {y : WSlot} (hy : y = (s.wheel w).slot k) (hst : s.slotSt w k = 4) (hd : s.dueFc y.endTime = true) :
    Over w k (if evOnce y.cfg = false ∧ s.flag (WHL_EVCFG_EN w k) = true then 1 else 0) y s (occurrenceEnd w k s) ∧
    (evOnce y.cfg = true → (occurrenceEnd w k s).f (WHL_EVCFG_EN w k) = 0) := by
  subst hy
  rcases Bool.eq_false_or_eq_true (evOnce ((s.wheel w).slot k).cfg) with honce | honce
  · rw [occurrenceEnd_once hst hd honce, if_neg fun h => Bool.false_ne_true (h.1.symm.trans honce)]
    refine ⟨ended_off s, fun _ => ?_⟩
    rw [setSlotSt_en, clearEn_en]
  · have hval : (if evOnce ((s.wheel w).slot k).cfg = false ∧ s.flag (WHL_EVCFG_EN w k) = true then 1 else 0) =
        if s.flag (WHL_EVCFG_EN w k) = true then 1 else 0 := by simp [honce]
    rw [occurrenceEnd_again hst hd honce, hval]
    refine ⟨ended_over (by split <;> decide) s, fun h => absurd (h.symm.trans honce) (by decide)⟩

end

/-! ### Writes of the tooth table (R219) -/

theorem ttWrite_refused {s : State} {i : Nat} (h : s.on dKILN = false ∨ s.ttLocked (ttAddr i) 4 = true) (req r v : Nat) :
    ttWrite req r i v s = werr req (0x80000000 + ttAddr i) s :=
  if_pos (by rcases h with h | h <;> simp [h])

theorem ttWrite_waits {s : State} {i : Nat} (hon : s.on dKILN = true) (hlock : s.ttLocked (ttAddr i) 4 = false) (hup : s.bankUp 6 = false)
    (req r v : Nat) : ttWrite req r i v s = postReq 6 { r := r, stamp := 4 * s.mc, use := .table req (ttAddr i) (leBytes 4 v) } s :=
  (if_neg (by simp [hon, hlock])).trans (if_pos (by rw [hup]; rfl))

theorem ttWrite_writes {s : State} {i : Nat} (hon : s.on dKILN = true) (hlock : s.ttLocked (ttAddr i) 4 = false) (hup : s.bankUp 6 = true)
    (req r v : Nat) : ttWrite req r i v s =
      bankWrite 6 r (ttAddr i) ((leBytes 4 v).map some) (postReq 6 { r := r, stamp := 4 * s.mc, use := .occupy } s) :=
  (if_neg (by simp [hon, hlock])).trans (if_neg (by rw [hup]; decide))

/-! ### WHL_CLR (R253) -/

/-- The error counts are cleared where a bit selects them. -/
def clearErrs (b : Bool) (w : Nat) (s : State) : State :=
  if b then ((s.clearCnt (WHL_ERRCNT_DROP w)).clearCnt (WHL_ERRCNT_LOSS w)).clearCnt (WHL_ERRCNT_REJ w) else s

/-- The sequence number is cleared where a bit selects it. -/
def clearWhlSeq (b : Bool) (w : Nat) (s : State) : State := if b then s.setF (WHL_SEQ_SEQ w) 0 else s

theorem whlClr_eq (w v : Nat) (s : State) : whlClr w v s = clearWhlSeq (v.testBit 1) w (clearErrs (v.testBit 0) w s) := rfl

section
variable {w : Nat} {s : State} (hdrop : (WHL_ERRCNT_DROP w).lo + (WHL_ERRCNT_DROP w).w ≤ 32)
  (hloss : (WHL_ERRCNT_LOSS w).lo + (WHL_ERRCNT_LOSS w).w ≤ 32) (hrej : (WHL_ERRCNT_REJ w).lo + (WHL_ERRCNT_REJ w).w ≤ 32)

include hdrop hloss hrej in
theorem clearErrs_drop : (clearErrs true w s).f (WHL_ERRCNT_DROP w) = min (s.noted (WHL_ERRCNT_DROP w)) (2 ^ (WHL_ERRCNT_DROP w).w - 1) := by
  rw [clearErrs, if_pos rfl, State.clearCnt_f_ne _ _ _ hrej hdrop (TrkFld.apart w (a := .drop) (b := .rej) (by simp)),
    State.clearCnt_f_ne _ _ _ hloss hdrop (TrkFld.apart w (a := .drop) (b := .loss) (by simp)), State.clearCnt_f_same _ _ hdrop]

include hloss hrej in
theorem clearErrs_loss : (clearErrs true w s).f (WHL_ERRCNT_LOSS w) = min (s.noted (WHL_ERRCNT_LOSS w)) (2 ^ (WHL_ERRCNT_LOSS w).w - 1) := by
  rw [clearErrs, if_pos rfl, State.clearCnt_f_ne _ _ _ hrej hloss (TrkFld.apart w (a := .loss) (b := .rej) (by simp)),
    State.clearCnt_f_same _ _ hloss, State.clearCnt_noted]

include hrej in
theorem clearErrs_rej : (clearErrs true w s).f (WHL_ERRCNT_REJ w) = min (s.noted (WHL_ERRCNT_REJ w)) (2 ^ (WHL_ERRCNT_REJ w).w - 1) := by
  rw [clearErrs, if_pos rfl, State.clearCnt_f_same _ _ hrej, State.clearCnt_noted, State.clearCnt_noted]

include hdrop hloss hrej in
theorem clearErrs_only : OnlyRegs s (clearErrs true w s) [WHL_ERRCNT w] := by
  rw [clearErrs, if_pos rfl]
  exact ((clearCnt_onlyRegs s _ hdrop (by simp [WHL_ERRCNT_DROP])).trans (clearCnt_onlyRegs _ _ hloss (by simp [WHL_ERRCNT_LOSS]))).trans
    (clearCnt_onlyRegs _ _ hrej (by simp [WHL_ERRCNT_REJ]))

end

theorem clearErrs_not (w : Nat) (s : State) : clearErrs false w s = s := if_neg Bool.false_ne_true

theorem clearErrs_clears (b : Bool) (w : Nat) (s : State) : OnlyRegs s (clearErrs b w s) [WHL_ERRCNT w] ∧
    ∀ F, F = WHL_ERRCNT_DROP w ∨ F = WHL_ERRCNT_LOSS w ∨ F = WHL_ERRCNT_REJ w →
      (clearErrs b w s).f F = if b = true then min (s.noted F) (2 ^ F.w - 1) else s.f F := by
  have hdrop : (WHL_ERRCNT_DROP w).lo + (WHL_ERRCNT_DROP w).w ≤ 32 := TrkFld.drop.narrow w
  have hloss : (WHL_ERRCNT_LOSS w).lo + (WHL_ERRCNT_LOSS w).w ≤ 32 := TrkFld.loss.narrow w
  have hrej : (WHL_ERRCNT_REJ w).lo + (WHL_ERRCNT_REJ w).w ≤ 32 := TrkFld.rej.narrow w
  cases b with
  | false =>
    rw [clearErrs_not]
    exact ⟨.refl s _, fun F _ => (if_neg Bool.false_ne_true).symm⟩
  | true =>
    refine ⟨clearErrs_only hdrop hloss hrej, fun F hF => ?_⟩
    rw [if_pos rfl]
    rcases hF with rfl | rfl | rfl
    · exact clearErrs_drop hdrop hloss hrej
    · exact clearErrs_loss hloss hrej
    · exact clearErrs_rej hrej

theorem whlClr_clears (w v : Nat) (s : State) : OnlyRegs s (whlClr w v s) [WHL_ERRCNT w, WHL_SEQ w] ∧
    (∀ F, F = WHL_ERRCNT_DROP w ∨ F = WHL_ERRCNT_LOSS w ∨ F = WHL_ERRCNT_REJ w →
      (whlClr w v s).f F = if v.testBit 0 = true then min (s.noted F) (2 ^ F.w - 1) else s.f F) ∧
    (whlClr w v s).f (WHL_SEQ_SEQ w) = if v.testBit 1 = true then 0 else s.f (WHL_SEQ_SEQ w) := by
  obtain ⟨honly, hcounts⟩ := clearErrs_clears (v.testBit 0) w s
  rw [whlClr_eq]
  generalize clearErrs (v.testBit 0) w s = u at honly hcounts
  have hne : WHL_SEQ w ≠ WHL_ERRCNT w := by simp only [WHL_SEQ, WHL_ERRCNT]; omega
  have hseq : (WHL_SEQ_SEQ w).lo + (WHL_SEQ_SEQ w).w ≤ 32 := TrkFld.seq.narrow w
  have hsame : u.f (WHL_SEQ_SEQ w) = s.f (WHL_SEQ_SEQ w) := SameRegs.f_eq honly.2 hseq (by simpa [WHL_SEQ_SEQ] using hne)
  unfold clearWhlSeq
  split
  · refine ⟨(honly.mono (by simp)).trans (setF_onlyRegs u _ 0 hseq (by simp [WHL_SEQ_SEQ])), fun F hF => ?_, State.setF_f_same u _ 0 hseq⟩
    rw [← hcounts F hF]
    rcases hF with rfl | rfl | rfl
    · exact State.setF_fld_ne u w (a := .drop) (b := .seq) (by simp) 0
    · exact State.setF_fld_ne u w (a := .loss) (b := .seq) (by simp) 0
    · exact State.setF_fld_ne u w (a := .rej) (b := .seq) (by simp) 0
  · exact ⟨honly.mono (by simp), hcounts, hsame⟩

end Sys2Proof.Machine
end

section
namespace Sys2Proof.Machine

open Sys2Proof Reg

/-! ### The front end of a variable reluctance pickup (R215) -/

theorem State.setVr_vrOf (s : State) (p : Nat) (x : VrFront) : (s.setVr p x).vrOf p = x := mget_mset_same s.vr p x {}

section
variable {p : Nat} {l : Bool} {t : Time} {s : State}

theorem rawChange_vrOf (i : Nat) : (rawChange p l t s).vrOf i = s.vrOf i := by
  by_cases h : l = (s.port p).level
  · rw [rawChange_back h]; rfl
  · by_cases hr : (s.port p).raw = none
    · rw [rawChange_starts h hr]; rfl
    · rw [rawChange_held h hr]

theorem rawChange_f {F : Fld} (hF : F.lo + F.w ≤ 32) : (rawChange p l t s).f F = s.f F :=
  State.f_congr F hF (congrArg (fun m => mget m F.off (resetWord F.off)) rawChange_regs)

/-- A raw change to low. -/
theorem rawChange_falls : ((rawChange p false t s).port p).level = (s.port p).level ∧
    ((s.port p).level = false → ((rawChange p false t s).port p).raw = none) ∧
    ((s.port p).level = true → (s.port p).raw = none →
      ∃ r, ((rawChange p false t s).port p).raw = some r ∧ r.level = false ∧ r.stamp = t) ∧
    ((s.port p).level = true → (s.port p).raw ≠ none → ((rawChange p false t s).port p).raw = (s.port p).raw) := by
  refine ⟨(rawChange_work []).2.level, fun h => ?_, fun h hr => ?_, fun h hr => ?_⟩
  · rw [rawChange_back h.symm, State.setPort_port_same]
  · rw [rawChange_starts (by rw [h]; decide) hr, State.setPort_port_same]
    exact ⟨_, rfl, rfl, rfl⟩
  · rw [rawChange_held (by rw [h]; decide) hr]

end

/-- The tracker that owns port p as its primary input shows the peak. -/
def showPeak (p peak : Nat) (s : State) : State :=
  if 0x10 ≤ s.ownerOf p && s.ownerOf p < 0x14 && s.f (WHL_INPUT_PPORT (s.ownerOf p - 0x10)) = p then
    s.setF (WHL_VRPEAK_PEAK (s.ownerOf p - 0x10)) peak
  else s

section
variable {p peak fine : Nat} {s : State}

theorem vrArm_idle (h : s.isVr p = false ∨ s.phys (portDom p) = false ∨ 16 * peak ≤ s.vrThr p) : vrArm p peak fine s = s := by
  refine if_pos ?_
  rcases h with h | h | h <;> simp [h]

theorem vrArm_arms (hvr : s.isVr p = true) (hphys : s.phys (portDom p) = true) (hthr : s.vrThr p < 16 * peak) : vrArm p peak fine s =
    rawChange p false ((showPeak p peak (s.setVr p ⟨true, peak⟩)).pnow p + fc fine) (showPeak p peak (s.setVr p ⟨true, peak⟩)) :=
  if_neg (by rw [hvr, hphys, decide_eq_false (Nat.not_le.2 hthr)]; decide)

theorem showPeak_port (i : Nat) : (showPeak p peak s).port i = s.port i := by
  unfold showPeak
  split
  · exact State.setF_port s _ _ i
  · rfl

theorem showPeak_vrOf (i : Nat) : (showPeak p peak s).vrOf i = s.vrOf i := by
  unfold showPeak
  split
  · exact congrArg (fun m => mget m i ({} : VrFront)) (State.setF_vr s _ _)
  · rfl

theorem showPeak_pnow (i : Nat) : (showPeak p peak s).pnow i = s.pnow i := by
  unfold showPeak
  split
  · simp [State.pnow]
  · rfl

theorem showPeak_shows {w : Nat} (hw : w < 4) (hown : s.ownerOf p = 0x10 + w) (hport : s.f (WHL_INPUT_PPORT w) = p) :
    (showPeak p peak s).f (WHL_VRPEAK_PEAK w) = peak % 2 ^ 12 := by
  have hi : s.ownerOf p - 0x10 = w := by omega
  unfold showPeak
  rw [hi, hport, hown, if_pos (by simp; omega)]
  exact State.setF_f_same s (WHL_VRPEAK_PEAK w) peak (Nat.le_of_ble_eq_true rfl)

end

end Sys2Proof.Machine
end

section
namespace Sys2Proof.Machine

open Sys2Proof Reg

/-! ### What the obligation on the slots turns on -/

theorem toothProcess_held {w k p : Nat} {s : State} {r : Tooth} (hk : k < 64) (h : s.takesTooth w r p) (hport : r.port = s.f (WHL_INPUT_PPORT w))
    (hgood : s.badWord (ttAddr (s.f (WHL_TTCFG_PBASE w))) (4 * s.teethN w) = false) (hst : s.whlState w ≠ 4)
    (hrev : s.isReverse w r.other = true) (hflag : s.flag (WHL_STATUS_REVERSE w) = false) (hsecs : (s.wheel w).secs = []) :
    (toothProcess w s).f (WHL_STATUS_REVERSE w) = 1 ∧
    SlotHeld w k (s.timeOfMc p) (((s.wheel w).slot k).tb + BitVec.ofInt 64 (max (sdiff (s.timeOfMc p) ((s.wheel w).slot k).tb) 512))
      (WHL_EVSTAT_REVEND w k) s (toothProcess w s) := by
  obtain ⟨ta, l, hf, hp, hmc, hen⟩ := h
  rw [toothProcess_takes hf hp hmc hen, if_pos hport, primary_good _ hgood hst, steer_reverse _ _ ((readTooth_isReverse w p l s r.other).trans hrev)]
  have hsecs' := (readTooth_secs w p l s).trans hsecs
  exact ⟨(reverseTooth_went hsecs' _ _).1,
    reverseTooth_held hk (readTooth_work w p l s noSlot).toTrackerFrame hsecs' ((congrArg (· != 0) (readTooth_flag w p l s .reverse)).trans hflag) _ _⟩

theorem disable_held {w k : Nat} {s : State} (hk : k < 64) (h : s.whlEn w = true) :
    SlotHeld w k s.now (((s.wheel w).slot k).tb + fc ((s.wheel w).slot k).maxd) (WHL_EVSTAT_GUARD w k) s (whlDisable w s) := by
  rw [whlDisable_enabled h]
  refine syncLoss_held hk 8 0 s.now (N := .en :: lossFlds) (List.subset_cons_self _ _) ?_
  exact ((setF_fld_work w noSlot .en (by simp) _).mono (fun _ => id) (by simp)).toTrackerWork.toTrackerFrame.trans
    (modWheel_work w noSlot _ (f := Tracker.emptied) (fun _ => rfl) _).toTrackerFrame

theorem resync_held {w k : Nat} {s : State} (hk : k < 64) (h : s.whlEn w = true) :
    SlotHeld w k s.now (((s.wheel w).slot k).tb + fc ((s.wheel w).slot k).maxd) (WHL_EVSTAT_GUARD w k) s (resync w s) := by
  rw [resync_enabled h]
  exact syncLoss_held hk 7 1 s.now (List.Subset.refl _) (.refl w _ _ _)

/-! ### What the host's instructions do -/

section
variable {req w : Fin 4} {s : State} (hr : s.reaches (WHL_CTRL w))
include hr

theorem exec_trackerEnable : exec (.trackerEnable req w) s = .next (whlEnable w s) :=
  congrArg Host.Outcome.next (setField_WHL_EN hr req 1)

theorem exec_trackerDisable : exec (.trackerDisable req w) s = .next (whlDisable w s) :=
  congrArg Host.Outcome.next (setField_WHL_EN hr req 0)

/-- RESYNC at a tracker that is enabled. -/
theorem exec_resync_enabled (h : s.whlEn w = true) : exec (.resync req w) s = .next (resync w s) := by
  refine congrArg Host.Outcome.next ((setField_WHL_RESYNC hr req).trans ?_)
  rw [if_pos h, whlEnable_enabled h]

/-- RESYNC at a tracker that is disabled. -/
theorem exec_resync_disabled (h : s.whlEn w = false) : exec (.resync req w) s = .next s := by
  refine congrArg Host.Outcome.next ((setField_WHL_RESYNC hr req).trans ?_)
  rw [if_neg (by simp [h]), whlDisable_disabled h, resync_disabled h]

end

theorem exec_whlClr {w : Fin 4} {s : State} (hr : s.reaches (WHL_CLR w)) (req : Fin 4) (val : Word) :
    exec (.whlClr req w val) s = .next (whlClr w val.toNat s) := by
  have hoff : WHL_CLR w = 0x5003c + 0x1000 * w.val := rfl
  exact congrArg Host.Outcome.next ((softWrite_whl hr (rowAt_WHL_CLR w) rfl (by omega) req val).trans (writeWhl_CLR req w val s))

/-- A tooth table write that the bank takes at once (R219). -/
theorem ttWrite_stores {s : State} {i v : Nat} (hv : v < 2 ^ 32) (hon : s.on dKILN = true) (hlock : s.ttLocked (ttAddr i) 4 = false)
    (hup : s.bankUp 6 = true) (req r : Nat) : (ttWrite req r i v s).memNat (ttAddr i) 4 = v ∧
    ∀ x, (x < ttAddr i ∨ ttAddr i + 4 ≤ x) → (ttWrite req r i v s).byte x = s.byte x := by
  rw [ttWrite_writes hon hlock hup]
  refine ⟨entryWrite_memNat r i v _ hv, fun x hx => ?_⟩
  rw [entryWrite_byte_other r i v _ hx, byte_congr (postReq_mem 6 _ s)]

/-- The front end of a VR port arms (R215). -/
theorem vrArm_armed {p peak fine : Nat} {s : State} (hpeak : peak < 2 ^ 12) (hvr : s.isVr p = true) (hphys : s.phys (portDom p) = true)
    (hthr : s.vrThr p < 16 * peak) : (vrArm p peak fine s).vrOf p = ⟨true, peak⟩ ∧
    ((vrArm p peak fine s).port p).level = (s.port p).level ∧
    ((s.port p).level = false → ((vrArm p peak fine s).port p).raw = none) ∧
    ((s.port p).level = true → (s.port p).raw = none →
      ∃ r, ((vrArm p peak fine s).port p).raw = some r ∧ r.level = false ∧ r.stamp = s.pnow p + fc fine) ∧
    ((s.port p).level = true → (s.port p).raw ≠ none → ((vrArm p peak fine s).port p).raw = (s.port p).raw) ∧
    ∀ w : Fin 4, s.ownerOf p = 0x10 + w → s.f (WHL_INPUT_PPORT w) = p → (vrArm p peak fine s).f (WHL_VRPEAK_PEAK w) = peak := by
  have hport : (showPeak p peak (s.setVr p ⟨true, peak⟩)).port p = s.port p := showPeak_port p
  have hnow : (showPeak p peak (s.setVr p ⟨true, peak⟩)).pnow p = s.pnow p := showPeak_pnow p
  have hfall := rawChange_falls (p := p) (t := s.pnow p + fc fine) (s := showPeak p peak (s.setVr p ⟨true, peak⟩))
  rw [hport] at hfall
  obtain ⟨hlevel, hlow, hstart, hheld⟩ := hfall
  rw [vrArm_arms hvr hphys hthr, hnow]
  refine ⟨?_, hlevel, hlow, hstart, hheld, fun w hown hpp => ?_⟩
  · rw [rawChange_vrOf, showPeak_vrOf, State.setVr_vrOf]
  · rw [rawChange_f (Nat.le_of_ble_eq_true rfl)]
    exact (showPeak_shows w.isLt (s := s.setVr p ⟨true, peak⟩) hown hpp).trans (Nat.mod_eq_of_lt hpeak)

end Sys2Proof.Machine
end

section
namespace Sys2Proof.Machine

open Sys2Proof Reg

/-! ### The queue of records (R214) -/

/-- The queue of tracker w and the time of its last record stay. -/
structure QueueKept (w : Nat) (s t : State) : Prop where
  fifo : (t.wheel w).fifo = (s.wheel w).fifo
  lastP : (t.wheel w).lastP = (s.wheel w).lastP

section
variable {w : Nat} {s t u : State}

theorem QueueKept.refl (w : Nat) (s : State) : QueueKept w s s := ⟨rfl, rfl⟩

/-- The last operation comes first, so that the state before it is read off it. -/
theorem QueueKept.after (k : QueueKept w t u) (h : QueueKept w s t) : QueueKept w s u := ⟨k.fifo.trans h.fifo, k.lastP.trans h.lastP⟩

/-- A tracker whose queue is that of s. -/
theorem queueKept_of_trk {x : Tracker} (h : t.trk w = x) (hf : x.fifo = (s.trk w).fifo) (hp : x.lastP = (s.trk w).lastP) : QueueKept w s t := by
  subst h
  exact ⟨hf, hp⟩

theorem SlotWork.queue {J : Nat → Prop} {N : List TrkFld} (h : SlotWork w J N s t) : QueueKept w s t := queueKept_of_trk h.trk rfl rfl

theorem SyncWork.queue (h : SyncWork w s t) : QueueKept w s t := ⟨h.stem.fifo, h.stem.lastP⟩

theorem modWheel_queue {f : Tracker → Tracker} (s : State) (hf : ∀ x, (f x).fifo = x.fifo ∧ (f x).lastP = x.lastP := by exact fun _ => ⟨rfl, rfl⟩) :
    QueueKept w s (s.modWheel w f) := by
  obtain ⟨h1, h2⟩ := hf (s.wheel w)
  exact queueKept_of_trk (modWheel_trk w f s) h1 h2

/-- An operation on each item of a list. -/
theorem foldl_queue {α : Type} {f : State → α → State} (hf : ∀ s a, QueueKept w s (f s a)) (l : List α) (s : State) : QueueKept w s (l.foldl f s) := by
  induction l generalizing s with
  | nil => exact .refl w s
  | cons a l ih => exact .after (ih _) (hf s a)

end

section
variable (w : Nat) (s : State)

theorem raise_queue (F : Fld) : QueueKept w s (s.raise F) := queueKept_of_trk (raise_trk w s F) rfl rfl
theorem setF_queue (F : Fld) (v : Nat) : QueueKept w s (s.setF F v) := queueKept_of_trk (setF_trk w s F v) rfl rfl
theorem bump_queue (F : Fld) : QueueKept w s (s.bump F) := queueKept_of_trk (bump_trk w s F) rfl rfl
theorem restartEst_queue : QueueKept w s (restartEst w s) := queueKept_of_trk (restartEst_trk w s) rfl rfl
theorem setWhlState_queue (v : Nat) (t : Time) : QueueKept w s (setWhlState w v t s) := queueKept_of_trk (setWhlState_trk w s v t) rfl rfl
theorem syncLoss_queue (cause final : Nat) (t : Time) : QueueKept w s (syncLoss w cause final t s) :=
  queueKept_of_trk (syncLoss_trk w cause s final t) rfl rfl
theorem keepTooth_queue (t : Time) (p : Option Nat) : QueueKept w s (keepTooth w t p s) := queueKept_of_trk (keepTooth_trk w s t p) rfl rfl
theorem assignPos_queue (p : Nat) : QueueKept w s (assignPos w p s) := queueKept_of_trk (assignPos_trk w s p) rfl rfl
theorem learnTooth_queue : QueueKept w s (learnTooth w s) := queueKept_of_trk (learnTooth_trk w s) rfl rfl

theorem pushEst_queue (t : Time) (p : Nat) (acc : Bool) : QueueKept w s (pushEst w t p acc s) := by
  obtain ⟨h, a, b, hpush⟩ := pushEst_trk w s t p acc
  exact queueKept_of_trk hpush rfl rfl

theorem acceptTooth_queue (t : Time) (rev acc : Bool) : QueueKept w s (acceptTooth w t rev acc s) := by
  obtain ⟨h, a, b, c, e, l, haccept⟩ := acceptTooth_trk w s t rev acc
  exact queueKept_of_trk haccept rfl rfl

theorem cycleAt_queue (p : Nat) (t : Time) : QueueKept w s (cycleAt w p t s) := by
  obtain ⟨a, b, c, d, e, hcycle⟩ := cycleAt_trk w s p t
  exact queueKept_of_trk hcycle rfl rfl

theorem countCycle_queue (t : Time) : QueueKept w s (countCycle w t s) := by
  obtain ⟨a, b, c, d, e, hcount⟩ := countCycle_trk w s t
  exact queueKept_of_trk hcount rfl rfl

theorem confirmSync_queue (tp : Time) : QueueKept w s (confirmSync w tp s) := by
  obtain ⟨c, hc⟩ := confirmSync_trk w s tp
  exact queueKept_of_trk hc rfl rfl

theorem lossAtTooth_queue (cause : Nat) (tp t : Time) : QueueKept w s (lossAtTooth w cause tp t s) := by
  obtain ⟨-, -, -, hfifo, hlastP⟩ := lossAtTooth_trk w cause tp t s
  exact ⟨hfifo, hlastP⟩

theorem placeTooth_queue (h : Time × Option Nat) : QueueKept w s (placeTooth w s h) :=
  .after (cycleAt_queue w _ _ _) (pushEst_queue w s _ _ false)

theorem ttRead_queue (i n : Nat) : QueueKept w s (ttRead w i n s).2.2 := (ttRead_work w w i n noSlot [] s).queue

/-- The edges that a reference edge places. -/
theorem refRule_queue (i : Nat) (done : Bool) (tp : Time) : QueueKept w s (refRule w i done tp s).2 := by
  have hplace (l : List (Time × Option Nat)) (u : State) : QueueKept w u (l.foldl (placeTooth w) u) := foldl_queue (placeTooth_queue w) l u
  unfold refRule
  dsimp only
  split
  · exact .refl w s
  · split
    · exact .after (confirmSync_queue w _ tp) (modWheel_queue s)
    · split
      · exact .refl w s
      · split
        · dsimp only
          exact .after (setF_queue w _ _ _) (.after (hplace _ _) (.after (assignPos_queue w _ _) (modWheel_queue s)))
        · exact .after (hplace _ _) (.after (assignPos_queue w _ _) (modWheel_queue s))

theorem readPrimary_queue (use : Bool) (tp : Time) {k : State → State} (hk : ∀ u, QueueKept w u (k u)) : QueueKept w s (readPrimary w use tp k s) := by
  have hread := ttRead_queue w s (s.f (WHL_TTCFG_PBASE w)) (s.teethN w)
  unfold readPrimary
  generalize ttRead w (s.f (WHL_TTCFG_PBASE w)) (s.teethN w) s = x at hread
  obtain ⟨b, bad, u⟩ := x
  dsimp only
  split
  · exact hk s
  · split
    · exact .after (syncLoss_queue w _ 6 1 tp) (.after (raise_queue w _ _) hread)
    · exact .after (hk _) hread

/-- The phase that an edge is found to have is shown. -/
def showPhase (w : Nat) (t : Time) (ph : Nat) (s : State) : State :=
  whlRec w 0x11 t ((whlPulse w 1 (s.setF (WHL_PHASE_PHASE w) ph)).f (WHL_INPUT_SPORT w)) false ph (whlPulse w 1 (s.setF (WHL_PHASE_PHASE w) ph))

/-- The angle of an edge at t in the interval from tooth lo to tooth hi (R243). -/
def State.edgeAngle (s : State) (w : Nat) (t : Time) (hi lo : Time × Nat) : Nat :=
  s.angleFrom w (s.teethN w) lo.2 ((t - lo.1).toNat * s.spanOf w lo.2 hi.2 / (hi.1 - lo.1).toNat)

/-- The phase is set against entry i, as that of edge j (R244). -/
def comparePhase (w i j ph : Nat) (tp : Time) (bad : Bool) (s : State) : State :=
  if bad then syncLoss w 6 1 tp (s.raise (WHL_FLAGS_TTECC w))
  else (s.setF (WHL_PHDIFF_DIFF w) (BitVec.ofInt 32 (phaseDiff (s.teethN w) ph (s.ttWord i))).toNat).setF (WHL_PHIDX_J w) j

theorem phaseMeasure_eq (j : Nat) (t : Time) (hi lo : Time × Nat) (tp : Time) {u : State} (hu : u = showPhase w t (s.edgeAngle w t hi lo) s) :
    phaseMeasure w j t hi lo tp s = comparePhase w (u.f (WHL_TTCFG_SBASE w) + j) j (s.edgeAngle w t hi lo) tp
      (ttRead w (u.f (WHL_TTCFG_SBASE w) + j) 1 u).2.1 (ttRead w (u.f (WHL_TTCFG_SBASE w) + j) 1 u).2.2 := by
  subst hu
  rfl

theorem showPhase_work (t : Time) (ph : Nat) (J : Nat → Prop) : SlotWork w J [.phase, .seq, .drop, .dropped] s (showPhase w t ph s) :=
  (((setF_fld_work w J .phase (by simp) s).mono (fun _ => id) (by simp)).trans (whlPulse_work w 1 J _ _)).trans
    ((whlRec_work w 0x11 t _ false ph J _).mono (fun _ => id) (by simp))

theorem comparePhase_queue (i j ph : Nat) (tp : Time) (bad : Bool) : QueueKept w s (comparePhase w i j ph tp bad s) := by
  unfold comparePhase
  split
  · exact .after (syncLoss_queue w _ 6 1 tp) (raise_queue w _ _)
  · exact .after (setF_queue w _ _ _) (setF_queue w _ _ _)

theorem phaseMeasure_queue (j : Nat) (t : Time) (hi lo : Time × Nat) (tp : Time) : QueueKept w s (phaseMeasure w j t hi lo tp s) := by
  rw [phaseMeasure_eq w s j t hi lo tp rfl]
  exact .after (comparePhase_queue w _ _ _ _ _ _) (.after (ttRead_queue w _ _ _) (showPhase_work w s t _ noSlot).queue)

theorem edgeNumber_queue (t : Time) : QueueKept w s (edgeNumber w t s).2 := by
  unfold edgeNumber
  dsimp only
  split
  · dsimp only
    exact modWheel_queue s
  · dsimp only
    exact modWheel_queue s

end

/-- The edge e no longer waits, and the next one takes the next number. -/
def takeEdge (w : Nat) (s : State) (e : Time × Bool) : Nat × State := edgeNumber w e.1 (s.modWheel w fun x => { x with secs := x.secs.erase e })

/-- A secondary edge whose interval is closed takes its number, and is measured (R243, R244). -/
def closeEdge (w : Nat) (tp : Time) (s : State) (e : Time × Bool) : State :=
  if !((s.wheel w).recent.any fun h => future h.1 e.1) then s
  else match closing e.1 (s.wheel w).recent with
    | some ((t1, some q), (t0, some p)) =>
      if e.2 && (takeEdge w s e).2.whlState w = 3 then phaseMeasure w (takeEdge w s e).1 e.1 (t1, q) (t0, p) tp (takeEdge w s e).2
      else (takeEdge w s e).2
    | _ => (takeEdge w s e).2

section
variable (w : Nat) (s : State)

theorem closeEdges_eq (tp : Time) : closeEdges w tp s = (s.wheel w).secs.foldl (closeEdge w tp) s := rfl

theorem takeEdge_queue (e : Time × Bool) : QueueKept w s (takeEdge w s e).2 :=
  .after (edgeNumber_queue w _ e.1) (modWheel_queue s)

theorem closeEdge_queue (tp : Time) (e : Time × Bool) : QueueKept w s (closeEdge w tp s e) := by
  have htake := takeEdge_queue w s e
  unfold closeEdge
  split
  · exact .refl w s
  · split
    · split
      · exact .after (phaseMeasure_queue w _ _ _ _ _ tp) htake
      · exact htake
    · exact htake

theorem closeEdges_queue (tp : Time) : QueueKept w s (closeEdges w tp s) := by
  rw [closeEdges_eq]
  exact foldl_queue (fun u e => closeEdge_queue w u tp e) _ s

theorem closeAtTooth_queue (t tp : Time) : QueueKept w s (closeAtTooth w t tp s) := by
  have hclose := closeEdges_queue w s tp
  unfold closeAtTooth
  generalize closeEdges w tp s = u at hclose
  dsimp only
  split
  · exact .after (keepTooth_queue w _ t none) hclose
  · exact hclose

theorem lateRefLoss_queue (i : Nat) (tp : Time) : QueueKept w s (lateRefLoss w i tp s) := by
  unfold lateRefLoss
  exact .after (modWheel_queue _) (syncLoss_queue w s 2 1 tp)

theorem lateRef_queue (i : Nat) (tp : Time) : QueueKept w s (lateRef w i tp s) := by
  have hrule := refRule_queue w s i true tp
  unfold lateRef
  generalize refRule w i true tp s = x at hrule
  obtain ⟨cause, u⟩ := x
  dsimp only
  split
  · exact hrule
  · exact .after (lateRefLoss_queue w _ i tp) hrule

/-- A secondary edge joins those that wait, and those whose interval is closed are served. -/
def joinEdge (w : Nat) (t tp : Time) (s : State) : State :=
  closeEdges w tp (s.modWheel w fun x => { x with secs := x.secs ++ [(t, decide (s.whlState w = 3))] })

theorem joinEdge_queue (t tp : Time) : QueueKept w s (joinEdge w t tp s) :=
  .after (closeEdges_queue w _ tp) (modWheel_queue s)

/-- A secondary edge serves the phase (R243). -/
def phaseEdge (w : Nat) (t tp : Time) (s : State) : State :=
  if phaseMode (s.f (WHL_CFG_SECMODE w)) then readPrimary w (s.measures w t) tp (joinEdge w t tp) s else s

/-- A secondary edge serves the synchronisation (R223). -/
def refEdge (w : Nat) (t tp : Time) (s : State) : State :=
  let later := (s.wheel w).recent.filter fun h => future h.1 t
  if later = [] then s.modWheel w fun x => { x with refs := x.refs ++ [t] }
  else readPrimary w (s.places w (later.length - 1)) tp (lateRef w (later.length - 1) tp) s

theorem secondary_eq (t tp : Time) : secondary w t tp s =
    if s.f (WHL_CFG_SECMODE w) = 1 && (phaseEdge w t tp s).flag (WHL_SYNCCFG_SYNCSRC w) &&
        !(((phaseEdge w t tp s).wheel w).lostT.any fun k => future k t) then refEdge w t tp (phaseEdge w t tp s)
    else phaseEdge w t tp s := by
  unfold secondary phaseEdge refEdge
  rfl

theorem phaseEdge_queue (t tp : Time) : QueueKept w s (phaseEdge w t tp s) := by
  unfold phaseEdge
  split
  · exact readPrimary_queue w s _ tp fun u => joinEdge_queue w u t tp
  · exact .refl w s

theorem refEdge_queue (t tp : Time) : QueueKept w s (refEdge w t tp s) := by
  unfold refEdge
  dsimp only
  split
  · exact modWheel_queue s
  · exact readPrimary_queue w s _ tp fun u => lateRef_queue w u _ tp

theorem secondary_queue (t tp : Time) : QueueKept w s (secondary w t tp s) := by
  rw [secondary_eq]
  split
  · exact .after (refEdge_queue w _ t tp) (phaseEdge_queue w s t tp)
  · exact phaseEdge_queue w s t tp

/-! ### The queue at a primary tooth -/

theorem movedTooth_queue (t tp : Time) (acc : Bool) : QueueKept w s (movedTooth w t tp acc s) :=
  .after (countCycle_queue w _ t) (.after (closeAtTooth_queue w _ t tp) (acceptTooth_queue w s t false acc))

theorem forwardTooth_queue (t tp : Time) (level skip acc : Bool) : QueueKept w s (forwardTooth w t tp level skip acc s) := by
  have hsync := (syncTooth_work (w := w) (s := s) t tp level skip).queue
  by_cases h : (syncTooth w t tp level skip s).1 = 0
  · rw [forwardTooth_moves h rfl rfl]
    exact .after (slotsTooth_work _ _ tp _).queue (.after (learnTooth_queue w _) (.after (movedTooth_queue w _ t tp acc)
      (.after (keptTooth_sync _ t _).queue hsync)))
  · rw [forwardTooth_lost h]
    exact .after (lossAtTooth_queue w _ _ tp t) hsync

theorem backTooth_queue (t : Time) : QueueKept w s (backTooth w t s) := by
  obtain ⟨h, a, b, c, e, l, hback⟩ := backTooth_trk w t s
  exact queueKept_of_trk hback rfl rfl

theorem numberEdges_queue (t : Time) : QueueKept w s (numberEdges w t s) := by
  obtain ⟨a, b, c, hnum⟩ := numberEdges_trk w t s
  exact queueKept_of_trk hnum rfl rfl

theorem reverseTooth_queue (t tp : Time) : QueueKept w s (reverseTooth w t tp s) := by
  rw [reverseTooth_eq]
  refine .after (numberEdges_queue w _ t) (.after (closeAtTooth_queue w _ t tp) (.after (backTooth_queue w _ t) ?_))
  split
  · exact queueKept_of_trk (reverseTurn_trk w tp s) rfl rfl
  · exact .refl w s

theorem judge_queue (t : Time) (level : Bool) (tp : Time) (skip : Bool) : QueueKept w s (judge w t level tp skip s) := by
  have hover : QueueKept w s (lossAtTooth w 4 tp t (s.raise (WHL_FLAGS_OVERSPEED w))) := .after (lossAtTooth_queue w _ 4 tp t) (raise_queue w s _)
  unfold judge
  split
  · split
    · exact .after (modWheel_queue _) (.after (bump_queue w _ _) (raise_queue w s _))
    · split
      · exact hover
      · exact forwardTooth_queue w s t tp level skip _
  · split
    · exact hover
    · exact forwardTooth_queue w s t tp level skip _
  · exact forwardTooth_queue w s t tp level skip _

theorem steer_queue (t : Time) (level : Bool) (tp : Time) (stalled : Bool) : QueueKept w s (steer w t level tp stalled s) := by
  unfold steer
  split
  · exact reverseTooth_queue w s t tp
  · refine .after (judge_queue w _ t level tp _) ?_
    split
    · exact .after (restartEst_queue w _) (setF_queue w s _ 0)
    · exact .refl w s

theorem primary_queue (t : Time) (level : Bool) (tp : Time) : QueueKept w s (primary w t level tp s) := by
  have hread := ttRead_queue w s (s.f (WHL_TTCFG_PBASE w)) (s.teethN w)
  rw [primary_eq w t level tp s _ rfl]
  split
  · exact .after (lossAtTooth_queue w _ 6 tp t) (.after (raise_queue w _ _) hread)
  · refine .after (steer_queue w _ t level tp _) ?_
    split
    · exact .after (restartEst_queue w _) (.after (setWhlState_queue w _ _ tp) hread)
    · exact hread

end

/-- A record that is processed leaves the queue (R214). -/
theorem toothProcess_queue {w p : Nat} {s : State} {r : Tooth} {ta : Nat} {l : List (Tooth × Nat)} (hf : (s.wheel w).fifo = (r, ta) :: l)
    (hp : p = max (ta + 20) (((s.wheel w).lastP.getD 0) + 20)) (hmc : p ≤ s.mc) (hen : s.whlEn w = true) :
    ((toothProcess w s).wheel w).fifo = l ∧ ((toothProcess w s).wheel w).lastP = some p := by
  have htake : ((takeTooth w p l s).wheel w).fifo = l ∧ ((takeTooth w p l s).wheel w).lastP = some p := by
    rw [takeTooth, State.modWheel_wheel_same]
    exact ⟨rfl, rfl⟩
  have hkept : QueueKept w (takeTooth w p l s) (toothProcess w s) := by
    rw [toothProcess_takes hf hp hmc hen]
    split
    · exact primary_queue w _ _ _ _
    · exact secondary_queue w _ _ _
  obtain ⟨hfifo, hlastP⟩ := htake
  exact ⟨hkept.fifo.trans hfifo, hkept.lastP.trans hlastP⟩

end Sys2Proof.Machine
end

section
namespace Sys2Proof.Machine

open Sys2Proof Reg

/-! ### The arrival of a record (R213) -/

/-- The first record that has reached tracker w. -/
def State.arriving (s : State) (w : Nat) : Option Tooth := s.toothPath.find? fun r => r.wheel == w && decide (r.ready ≤ s.mc)

/-- A record joins the queue; a primary one that the tracker has not processed is remembered (R228). -/
def Tracker.joined (r : Tooth) (mc port : Nat) (x : Tracker) : Tracker :=
  { x with fifo := x.fifo ++ [(r, mc)], seen := if r.port = port then x.seen ++ [r.time] else x.seen }

section
variable {w : Nat} {s : State} {r : Tooth}

theorem toothArrival_none (h : s.arriving w = none) : toothArrival w s = s := by
  unfold State.arriving at h
  rw [toothArrival, h]

theorem toothArrival_some (h : s.arriving w = some r) : toothArrival w s =
    if (s.on dKILN && s.whlEn w) = true then
      ({ s with toothPath := s.toothPath.erase r } : State).modWheel w (Tracker.joined r s.mc (s.f (WHL_INPUT_PPORT w)))
    else { s with toothPath := s.toothPath.erase r } := by
  unfold State.arriving at h
  rw [toothArrival, h]
  rfl

theorem toothArrival_arrives (h : s.arriving w = some r) :
    toothArrival w s = { s with toothPath := s.toothPath.erase r, wheels := (toothArrival w s).wheels } ∧
    ((toothArrival w s).wheel w).fifo = if s.on dKILN = true ∧ s.whlEn w = true then (s.wheel w).fifo ++ [(r, s.mc)] else (s.wheel w).fifo := by
  rw [toothArrival_some h]
  by_cases hon : s.on dKILN = true ∧ s.whlEn w = true
  · rw [if_pos (by simp [hon]), if_pos hon, State.modWheel_wheel_same]
    exact ⟨rfl, rfl⟩
  · rw [if_neg (by simpa using hon), if_neg hon]
    exact ⟨rfl, rfl⟩

end

/-! ### A primary tooth -/

section
variable {w p : Nat} {l : List (Tooth × Nat)} {s : State}

theorem readTooth_refpos : (readTooth w p l s).f (WHL_SYNCCFG_REFPOS w) = s.f (WHL_SYNCCFG_REFPOS w) :=
  (readTooth_work w p l s noSlot).cfg (Nat.le_of_ble_eq_true rfl) (by simp [WHL_SYNCCFG_REFPOS, WHL_SYNCCFG, WHL_CFG, WHL_VRCFG])

/-- A tooth that costs sync once its record has been taken and a flag set. -/
theorem lossAtTooth_read {a : TrkFld} (ha : a ≠ .loss) {cause : Nat} (hc : cause < 16) (r : Tooth) (tp : Time) :
    LostAtTooth w cause r (if ((s.wheel w).refs.any fun k => future r.time k) = true then some (s.f (WHL_SYNCCFG_REFPOS w)) else none) s
      (lossAtTooth w cause tp r.time ((readTooth w p l s).raise (a.fld w))) := by
  have hraise := raise_fld_work w noSlot a (readTooth w p l s)
  have hcount : ((readTooth w p l s).raise (a.fld w)).f (WHL_ERRCNT_LOSS w) = s.f (WHL_ERRCNT_LOSS w) :=
    (hraise.fld .loss (by simpa using ha.symm)).trans (readTooth_flag w p l s .loss)
  have hrefs : (((readTooth w p l s).raise (a.fld w)).wheel w).refs = (s.wheel w).refs := by
    rw [State.wheel_refs, raise_trk]
    exact readTooth_refs w p l s
  have hpos : ((readTooth w p l s).raise (a.fld w)).f (WHL_SYNCCFG_REFPOS w) = s.f (WHL_SYNCCFG_REFPOS w) :=
    (hraise.cfg (Nat.le_of_ble_eq_true rfl) (by simp [WHL_SYNCCFG_REFPOS, WHL_SYNCCFG, WHL_CFG, WHL_VRCFG])).trans readTooth_refpos
  have hlost := lossAtTooth_lost w cause tp ((readTooth w p l s).raise (a.fld w)) hc hcount r
  rw [hrefs, hpos] at hlost
  exact hlost

/-- The flag that tells why stands. -/
theorem lossAtTooth_raised {a : TrkFld} (ha : a ∉ lostFlds) (cause : Nat) (tp t : Time) (u : State) (hw : (a.fld w).w ≠ 0) :
    (lossAtTooth w cause tp t (u.raise (a.fld w))).f (a.fld w) = 1 :=
  ((lossAtTooth_work w cause tp t _).fld a ha).trans (State.raise_f_same _ _ (a.narrow w) (Nat.one_le_iff_ne_zero.mpr hw))

/-- A tooth that moves the wheel or costs sync is the last one (R226, R227). -/
theorem forwardTooth_lastT (hsecs : (s.wheel w).secs = []) (t tp : Time) (level skip acc : Bool) :
    ((forwardTooth w t tp level skip acc s).wheel w).lastT = some t := by
  by_cases h : (syncTooth w t tp level skip s).1 = 0
  · obtain ⟨l, v, hstep⟩ := forwardTooth_step (acc := acc) hsecs h
    exact hstep.lastT
  · rw [forwardTooth_lost h]
    exact (lossAtTooth_trk w _ tp t _).2.1

/-- A rejected tooth is counted and changes nothing else (R226). -/
theorem rejected_shows (t : Time) {u : State} (hu : u = ((s.raise (WHL_FLAGS_REJECT w)).bump (WHL_ERRCNT_REJ w)).modWheel w
      fun x => { x with seen := x.seen.erase t }) : u.f (WHL_FLAGS_REJECT w) = 1 ∧
    u.f (WHL_ERRCNT_REJ w) = min (s.f (WHL_ERRCNT_REJ w) + 1) 0xFFF ∧ (u.wheel w).lastT = (s.wheel w).lastT ∧
    (u.wheel w).pos = (s.wheel w).pos := by
  have hbump := bump_fld_work w noSlot .rej (by simp) (s.raise (WHL_FLAGS_REJECT w))
  have hraise := raise_fld_work w noSlot .reject s
  have htrk : u.trk w = { s.trk w with seen := (s.trk w).seen.erase t } := by
    rw [hu, modWheel_trk_of w _ (f := fun x => { x with seen := x.seen.erase t }) (fun _ => rfl), bump_trk, raise_trk]
  refine ⟨?_, ?_, ?_, ?_⟩
  · rw [hu, State.modWheel_f]
    exact (hbump.fld .reject (by simp)).trans (State.raise_f_same _ _ (TrkFld.reject.narrow w) (Nat.le_refl 1))
  · rw [hu, State.modWheel_f]
    refine (State.bump_f_same _ (WHL_ERRCNT_REJ w) (TrkFld.rej.narrow w)).trans ?_
    rw [show (s.raise (WHL_FLAGS_REJECT w)).f (WHL_ERRCNT_REJ w) = s.f (WHL_ERRCNT_REJ w) from hraise.fld .rej (by simp)]
    rfl
  · rw [State.wheel_lastT, htrk]; rfl
  · rw [State.wheel_pos, htrk]; rfl

end

/-! ### A stall (R228) -/

section
variable {w d : Nat} {s : State} {t0 ts tst : Time}

/-- The stall is told by its flag and its pulse, and is not looked for any more. -/
def noteStall (w : Nat) (s : State) : State := whlPulse w 4 ((s.raise (WHL_FLAGS_STALL w)).modWheel w fun x => { x with stallT := none })

/-- The tracker stalls and keeps its position. -/
def keepStalled (w st : Nat) (tst : Time) (s : State) : State :=
  setWhlState w 4 tst (((restartEst w (eachSlot (fun k => haltSlot w k tst) s)).modWheel w fun x => { x with saved := st }).setF
    (WHL_STATUS_LEARNING w) 0)

theorem stall_eq (ht : (s.wheel w).stallT = some t0) (hd : s.stallAfter w = some d) (hts : ts = t0 + fc d)
    (htst : tst = ts + fc (20480 + 256 * s.f (PRT_INCFG_FILT (s.f (WHL_INPUT_PPORT w))))) : stall w s =
    if (s.whlState w = 0 || s.whlState w = 4 || !s.whlEn w || !s.running || !s.dueFc tst || (s.wheel w).seen.any fun u => !future u ts) = true then s
    else if (noteStall w s).flag (WHL_CFG_STALLKEEP w) = true then keepStalled w (s.whlState w) tst (noteStall w s)
    else syncLoss w 5 1 tst (noteStall w s) := by
  subst hts htst
  unfold stall
  dsimp only
  rw [ht, hd]
  rfl

theorem noteStall_work (J : Nat → Prop) : TrackerWork w J [.stalled] s (noteStall w s) :=
  ((raise_fld_work w J .stalled s).toTrackerWork.trans (modWheel_work w J _ (f := fun x => { x with stallT := none }) (fun _ => rfl) _)).trans
    (whlPulse_work w 4 J _ _).toTrackerWork

theorem noteStall_trk : (noteStall w s).trk w = { s.trk w with stallT := none } := by
  rw [noteStall, whlPulse_trk, modWheel_trk_of w _ (f := fun x => { x with stallT := none }) (fun _ => rfl), raise_trk]

theorem noteStall_stalled : (noteStall w s).f (WHL_FLAGS_STALL w) = 1 :=
  ((whlPulse_work w 4 noSlot [] _).fld .stalled (by simp)).trans (State.raise_f_same _ _ (TrkFld.stalled.narrow w) (Nat.le_refl 1))

end

end Sys2Proof.Machine
end

section
namespace Sys2Proof.Machine

open Sys2Proof Reg

/-! ### What a stall leaves (R228) -/

section
variable {w d : Nat} {s : State} {t0 ts tst : Time}

theorem keepStalled_work (st : Nat) : TrackerWork w (· < 64) [.estvalid, .learning, .state, .syncgain, .seq, .drop, .dropped, .angle, .accel] s
    (keepStalled w st tst s) :=
  ((((haltSlots_work w s tst).mono (fun _ => id) (by simp)).toTrackerWork.trans ((restartEst_work w _ _).mono (fun _ => id) (by simp))).trans
    (modWheel_work w _ _ (f := fun x => { x with saved := st }) (fun _ => rfl) _)).trans
      (((setF_fld_work w _ .learning (by simp) _).mono (fun _ => id) (by simp)).trans
        ((setWhlState_work w _ 4 tst _).mono (fun _ => id) (by simp))).toTrackerWork

theorem keepStalled_trk (st : Nat) :
    (keepStalled w st tst s).trk w = { s.trk w with hist := [], a1 := 0, a2 := 0, accl := false, saved := st } := by
  rw [keepStalled, setWhlState_trk, setF_trk, modWheel_trk_of w _ (f := fun x => { x with saved := st }) (fun _ => rfl), restartEst_trk,
    (haltSlots_work w s tst).trk]

/-- No stall is due. -/
theorem stall_idle (ht : (s.wheel w).stallT = some t0) (hd : s.stallAfter w = some d) (hts : ts = t0 + fc d)
    (htst : tst = ts + fc (20480 + 256 * s.f (PRT_INCFG_FILT (s.f (WHL_INPUT_PPORT w)))))
    (h : s.whlState w = 0 ∨ s.whlState w = 4 ∨ s.whlEn w = false ∨ s.running = false ∨ s.dueFc tst = false ∨
      ∃ x ∈ (s.wheel w).seen, future x ts = false) : stall w s = s := by
  rw [stall_eq ht hd hts htst]
  refine if_pos ?_
  rcases h with h | h | h | h | h | ⟨x, hx, h⟩
  · simp [h]
  · simp [h]
  · simp [h]
  · simp [h]
  · simp [h]
  · have hany : ((s.wheel w).seen.any fun u => !future u ts) = true := List.any_eq_true.mpr ⟨x, hx, by rw [h]; rfl⟩
    rw [hany, Bool.or_true]

/-- A stall keeps or drops the position (R228). -/
theorem stall_stalls (ht : (s.wheel w).stallT = some t0) (hd : s.stallAfter w = some d) (hts : ts = t0 + fc d)
    (htst : tst = ts + fc (20480 + 256 * s.f (PRT_INCFG_FILT (s.f (WHL_INPUT_PPORT w))))) (h0 : s.whlState w ≠ 0) (h4 : s.whlState w ≠ 4)
    (hen : s.whlEn w = true) (hrun : s.running = true) (hdue : s.dueFc tst = true) (hseen : ∀ x ∈ (s.wheel w).seen, future x ts = true) :
    (stall w s).f (WHL_FLAGS_STALL w) = 1 ∧
    (s.flag (WHL_CFG_STALLKEEP w) = true → (stall w s).f (WHL_STATUS_STATE w) = 4 ∧ ((stall w s).wheel w).saved = s.whlState w ∧
      ((stall w s).wheel w).pos = (s.wheel w).pos) ∧
    (s.flag (WHL_CFG_STALLKEEP w) = false → (stall w s).f (WHL_STATUS_STATE w) = 1 ∧ (stall w s).f (WHL_STATUS_CAUSE w) = 5 ∧
      (stall w s).f (WHL_FLAGS_SYNCLOSS w) = 1 ∧ ((stall w s).wheel w).pos = none) := by
  have hany : ((s.wheel w).seen.any fun u => !future u ts) = false := List.any_eq_false.mpr fun x hx => by rw [hseen x hx]; decide
  have hkeep : (noteStall w s).flag (WHL_CFG_STALLKEEP w) = s.flag (WHL_CFG_STALLKEEP w) :=
    (noteStall_work noSlot).cfgFlag (Nat.le_of_ble_eq_true rfl) (by simp [WHL_CFG_STALLKEEP, WHL_CFG, WHL_VRCFG])
  rw [stall_eq ht hd hts htst, if_neg (by simp [h0, h4, hen, hrun, hdue, hany]), hkeep]
  cases s.flag (WHL_CFG_STALLKEEP w) with
  | true =>
    rw [if_pos rfl]
    refine ⟨((keepStalled_work _).fld .stalled (by simp)).trans noteStall_stalled, fun _ => ⟨?_, ?_, ?_⟩, fun h => absurd h (by decide)⟩
    · exact setWhlState_whlState w _ (by decide) tst
    · rw [State.wheel_saved, keepStalled_trk]
    · rw [State.wheel_pos, keepStalled_trk, noteStall_trk]; rfl
  | false =>
    obtain ⟨hstate, hcause, hloss, -⟩ := syncLoss_flds w 5 (noteStall w s) (final := 1) (by decide) (by decide) tst
    rw [if_neg (by decide)]
    exact ⟨((syncLoss_work w 5 _ 1 tst).fld .stalled (by simp)).trans noteStall_stalled, fun h => absurd h (by decide),
      fun _ => ⟨hstate, hcause, hloss, syncLoss_pos 5 1 tst⟩⟩

end

/-! ### A primary tooth that is processed -/

section
variable {w p ta : Nat} {s : State} {r : Tooth} {l : List (Tooth × Nat)}

/-- A table word that cannot be read costs sync (R219). -/
theorem toothProcess_bad (h : toothProcess w s = primary w r.time r.other (s.timeOfMc p) (takeTooth w p l s))
    (hbad : s.badWord (ttAddr (s.f (WHL_TTCFG_PBASE w))) (4 * s.teethN w) = true) : (toothProcess w s).f (WHL_FLAGS_TTECC w) = 1 ∧
    LostAtTooth w 6 r (if ((s.wheel w).refs.any fun k => future r.time k) = true then some (s.f (WHL_SYNCCFG_REFPOS w)) else none) s
      (toothProcess w s) := by
  rw [h, primary_bad _ _ _ hbad]
  exact ⟨lossAtTooth_raised (a := .ttecc) (by simp) 6 _ _ _ Nat.one_ne_zero, lossAtTooth_read (a := .ttecc) (by simp) (by decide) r _⟩

/-- A reverse tooth takes the position before (R229). -/
theorem toothProcess_reverse (h : toothProcess w s = steer w r.time r.other (s.timeOfMc p) false (readTooth w p l s))
    (hrev : s.isReverse w r.other = true) (hsecs : (s.wheel w).secs = []) : (toothProcess w s).f (WHL_STATUS_REVERSE w) = 1 ∧
    ((toothProcess w s).wheel w).lastT = some r.time ∧ (toothProcess w s).f (WHL_STATUS_LEARNING w) = 0 ∧
    ((toothProcess w s).wheel w).pos = (s.wheel w).pos.map (fun q => s.prevPhys w q (s.teethN w)) ∧
    (s.flag (WHL_STATUS_REVERSE w) = false → (toothProcess w s).f (WHL_FLAGS_REVERSE w) = 1) := by
  have hread := readTooth_work w p l s noSlot
  obtain ⟨hon, hlast, hlearn, hpos, hflag⟩ := reverseTooth_went ((readTooth_secs w p l s).trans hsecs) r.time (s.timeOfMc p)
  simp only [readTooth_pos, hread.table.prevPhys, hread.teethN, readTooth_reverse] at hpos hflag
  rw [h, steer_reverse _ _ ((readTooth_isReverse w p l s r.other).trans hrev)]
  exact ⟨hon, hlast, hlearn, hpos, hflag⟩

/-- A forward tooth is rejected, accepted or an overspeed (R226). -/
theorem toothProcess_judged (h : toothProcess w s = judge w r.time r.other (s.timeOfMc p) false (readTooth w p l s)) (hsecs : (s.wheel w).secs = []) :
    ((s.wheel w).lastT = none → ((toothProcess w s).wheel w).lastT = some r.time) ∧
    (∀ u e, (s.wheel w).lastT = some u → e = (r.time - u).toNat →
      (∀ d, s.dPred w = some d → (e * 256 : Int) < s.f (WHL_FILT_MINFRAC w) * d →
        (toothProcess w s).f (WHL_FLAGS_REJECT w) = 1 ∧
        (toothProcess w s).f (WHL_ERRCNT_REJ w) = min (s.f (WHL_ERRCNT_REJ w) + 1) 0xFFF ∧
        ((toothProcess w s).wheel w).lastT = some u ∧ ((toothProcess w s).wheel w).pos = (s.wheel w).pos) ∧
      ((∀ d, s.dPred w = some d → s.f (WHL_FILT_MINFRAC w) * d ≤ (e * 256 : Int)) →
        ((toothProcess w s).wheel w).lastT = some r.time ∧
        (e < 25600 → (toothProcess w s).f (WHL_FLAGS_OVERSPEED w) = 1 ∧ LostAtTooth w 4 r
          (if ((s.wheel w).refs.any fun k => future r.time k) = true then some (s.f (WHL_SYNCCFG_REFPOS w)) else none) s (toothProcess w s)))) := by
  have hlastT := readTooth_lastT w p l s
  have hdPred := readTooth_dPred w p l s
  have hsecs' := (readTooth_secs w p l s).trans hsecs
  have hmin : (readTooth w p l s).f (WHL_FILT_MINFRAC w) = s.f (WHL_FILT_MINFRAC w) :=
    (readTooth_work w p l s noSlot).cfg (Nat.le_of_ble_eq_true rfl) (by simp [WHL_FILT_MINFRAC, WHL_FILT, WHL_CFG, WHL_VRCFG])
  rw [h]
  refine ⟨fun hnone => ?_, fun u e hu he => ⟨fun d hd hlt => ?_, fun hmin' => ?_⟩⟩
  · obtain ⟨acc, hacc⟩ := judge_forward (s := readTooth w p l s) (w := w) (t := r.time) (level := r.other) (tp := s.timeOfMc p) (skip := false)
      (fun n hn => by rw [State.interval, hlastT, hnone] at hn; exact absurd hn (by simp))
    rw [hacc]
    exact forwardTooth_lastT hsecs' _ _ _ _ _
  · obtain ⟨hflag, hcount, hlast, hpos⟩ := rejected_shows r.time
      (judge_reject (level := r.other) (tp := s.timeOfMc p) (skip := false) (hlastT.trans hu) (hdPred.trans hd) (by rw [hmin, ← he]; exact hlt))
    refine ⟨hflag, hcount.trans ?_, hlast.trans (hlastT.trans hu), hpos.trans (readTooth_pos w p l s)⟩
    rw [show (readTooth w p l s).f (WHL_ERRCNT_REJ w) = s.f (WHL_ERRCNT_REJ w) from readTooth_flag w p l s .rej]
  · have hle : ∀ d, (readTooth w p l s).dPred w = some d → (readTooth w p l s).f (WHL_FILT_MINFRAC w) * d ≤ ((r.time - u).toNat * 256 : Int) := by
      rw [hdPred, hmin, ← he]
      exact hmin'
    by_cases hlt : e < 25600
    · rw [judge_overspeed (hlastT.trans hu) hle (by omega)]
      have hlost := lossAtTooth_read (a := .overspeed) (w := w) (p := p) (l := l) (s := s) (by simp) (by decide : 4 < 16) r (s.timeOfMc p)
      refine ⟨(lossAtTooth_trk w _ _ _ _).2.1, fun _ => ⟨?_, hlost⟩⟩
      exact lossAtTooth_raised (a := .overspeed) (by simp) 4 _ _ _ Nat.one_ne_zero
    · obtain ⟨acc, hacc⟩ := judge_forward (s := readTooth w p l s) (w := w) (t := r.time) (level := r.other) (tp := s.timeOfMc p) (skip := false)
        (fun n hn => by
          rw [State.interval, hlastT, hu, Option.map_some, Option.some.injEq] at hn
          subst hn
          exact ⟨by omega, hle⟩)
      rw [hacc]
      exact ⟨forwardTooth_lastT hsecs' _ _ _ _ _, fun h => absurd h hlt⟩

end

end Sys2Proof.Machine
end

section
namespace Sys2Proof.Machine

open Sys2Proof Reg

/-! ### Secondary edges (R223, R243, R244) -/

/-- An edge at t is stamped after every tooth that is kept. -/
theorem closing_none {t : Time} {l : List (Time × Option Nat)} (h : ∀ x ∈ l, future x.1 t = false) : closing t l = none := by
  induction l with
  | nil => rfl
  | cons a l ih =>
    cases l with
    | nil => rfl
    | cons b l =>
      rw [closing, h a (by simp), if_neg (by simp)]
      exact ih fun x hx => h x (List.mem_cons_of_mem a hx)

/-- The tooth that closes an interval is after its edge. -/
theorem any_of_closing {t : Time} {l : List (Time × Option Nat)} {x : (Time × Option Nat) × (Time × Option Nat)} (h : closing t l = some x) :
    (l.any fun y => future y.1 t) = true := by
  by_contra hnone
  rw [closing_none (l := l) fun y hy => by simpa using fun hy' => hnone (List.any_eq_true.mpr ⟨y, hy, hy'⟩)] at h
  exact absurd h (by simp)

section
variable {w : Nat} {s : State} {t tp : Time}

/-- The edge e waits for its interval. -/
def edgeWaits (w : Nat) (e : Time × Bool) (s : State) : State := s.modWheel w fun x => { x with secs := x.secs ++ [e] }

theorem edgeWaits_work (e : Time × Bool) (J : Nat → Prop) (N : List TrkFld) : TrackerWork w J N s (edgeWaits w e s) :=
  modWheel_work w J N (f := fun x => { x with secs := x.secs ++ [e] }) (fun _ => rfl) s

theorem edgeWaits_trk (e : Time × Bool) : (edgeWaits w e s).trk w = { s.trk w with secs := (s.trk w).secs ++ [e] } :=
  modWheel_trk_of w s (f := fun x => { x with secs := x.secs ++ [e] }) (fun _ => rfl)

/-- Where no other edge waits, an edge is served alone. -/
theorem joinEdge_alone (hsecs : (s.wheel w).secs = []) :
    joinEdge w t tp s = closeEdge w tp (edgeWaits w (t, decide (s.whlState w = 3)) s) (t, decide (s.whlState w = 3)) := by
  have hone : ((edgeWaits w (t, decide (s.whlState w = 3)) s).wheel w).secs = [(t, decide (s.whlState w = 3))] := by
    rw [State.wheel_secs, edgeWaits_trk]
    exact congrArg (· ++ [(t, decide (s.whlState w = 3))]) hsecs
  show closeEdges w tp (edgeWaits w (t, decide (s.whlState w = 3)) s) = _
  rw [closeEdges_eq, hone]
  rfl

theorem closeEdge_early (d : Bool) (h : ∀ x ∈ (s.wheel w).recent, future x.1 t = false) : closeEdge w tp s (t, d) = s := by
  have hany : ((s.wheel w).recent.any fun x => future x.1 t) = false := List.any_eq_false.mpr fun x hx => by rw [h x hx]; decide
  exact if_pos (by rw [hany]; rfl)

theorem edgeWaits_recent (e : Time × Bool) : ((edgeWaits w e s).wheel w).recent = (s.wheel w).recent := by
  rw [State.wheel_recent, edgeWaits_trk]
  rfl

/-- An edge after every tooth waits. -/
theorem joinEdge_waits (hsecs : (s.wheel w).secs = []) (h : ∀ x ∈ (s.wheel w).recent, future x.1 t = false) :
    joinEdge w t tp s = edgeWaits w (t, decide (s.whlState w = 3)) s := by
  have hnone : ∀ x ∈ ((edgeWaits w (t, decide (s.whlState w = 3)) s).wheel w).recent, future x.1 t = false := by
    rw [edgeWaits_recent]
    exact h
  exact (joinEdge_alone hsecs).trans (closeEdge_early _ hnone)

theorem closeEdge_measures {e : Time × Bool} (he : e.2 = true) {t1 t0 : Time} {a b : Nat}
    (h : closing e.1 (s.wheel w).recent = some ((t1, some b), (t0, some a))) {x : Nat × State} (hx : takeEdge w s e = x) (hx3 : x.2.whlState w = 3) :
    closeEdge w tp s e = phaseMeasure w x.1 e.1 (t1, b) (t0, a) tp x.2 := by
  rw [closeEdge, if_neg (by rw [any_of_closing h]; decide), h]
  dsimp only
  rw [hx]
  exact if_pos (by rw [he, decide_eq_true hx3]; rfl)

/-- An edge whose interval is closed is measured (R243). -/
theorem joinEdge_measures (hsecs : (s.wheel w).secs = []) (hst : s.whlState w = 3) {t1 t0 : Time} {a b : Nat}
    (h : closing t (s.wheel w).recent = some ((t1, some b), (t0, some a))) {x : Nat × State}
    (hx : takeEdge w (edgeWaits w (t, true) s) (t, true) = x) (hx3 : x.2.whlState w = 3) :
    joinEdge w t tp s = phaseMeasure w x.1 t (t1, b) (t0, a) tp x.2 := by
  rw [joinEdge_alone hsecs, decide_eq_true hst]
  exact closeEdge_measures rfl (by rw [edgeWaits_recent]; exact h) hx hx3

/-- An edge takes its number (R244). -/
theorem takeEdge_takes (e : Time × Bool) : (takeEdge w s e).1 = (if ((s.wheel w).numT.any fun u => future u e.1) = true then (s.wheel w).secPrev
      else (s.wheel w).secJ) ∧ TrackerWork w noSlot [] s (takeEdge w s e).2 := by
  have herase := modWheel_work w noSlot [] (f := fun x => { x with secs := x.secs.erase e }) (fun _ => rfl) s
  unfold takeEdge edgeNumber
  dsimp only
  rw [State.modWheel_wheel_same]
  split
  · exact ⟨rfl, herase.trans (modWheel_work w noSlot [] (f := fun x => { x with secPrev := (x.secPrev + 1) % _ }) (fun _ => rfl) _)⟩
  · exact ⟨rfl, herase.trans (modWheel_work w noSlot [] (f := fun x => { x with secJ := (x.secJ + 1) % _ }) (fun _ => rfl) _)⟩

theorem readPrimary_unused {use : Bool} (h : use = false) (tp : Time) (k : State → State) : readPrimary w use tp k s = k s := by
  subst h
  rfl

theorem readPrimary_used (tp : Time) (k : State → State) : readPrimary w true tp k s =
    if (ttRead w (s.f (WHL_TTCFG_PBASE w)) (s.teethN w) s).2.1 = true then
      syncLoss w 6 1 tp ((ttRead w (s.f (WHL_TTCFG_PBASE w)) (s.teethN w) s).2.2.raise (WHL_FLAGS_TTECC w))
    else k (ttRead w (s.f (WHL_TTCFG_PBASE w)) (s.teethN w) s).2.2 := rfl

theorem readPrimary_good {use : Bool} (h : use = true) (tp : Time) (k : State → State)
    (hbad : s.badWord (ttAddr (s.f (WHL_TTCFG_PBASE w))) (4 * s.teethN w) = false) :
    readPrimary w use tp k s = k (ttRead w (s.f (WHL_TTCFG_PBASE w)) (s.teethN w) s).2.2 := by
  rw [h, readPrimary_used, ttRead_bad, hbad, if_neg (by decide)]

end

/-! ### The reference edge (R223) -/

section
variable {w : Nat} {s : State} {t tp : Time}

/-- A reference edge after every tooth waits for the next one (R223). -/
theorem secondary_ref (hsec : s.f (WHL_CFG_SECMODE w) = 1) (hsrc : s.flag (WHL_SYNCCFG_SYNCSRC w) = true) (hsecs : (s.wheel w).secs = [])
    (hrecent : ∀ x ∈ (s.wheel w).recent, future x.1 t = false) (hlost : ∀ k, (s.wheel w).lostT = some k → future k t = false) :
    ((secondary w t tp s).wheel w).refs = (s.wheel w).refs ++ [t] := by
  have hmeasure : s.measures w t = false := by rw [State.measures, closing_none hrecent, Bool.and_false]
  have hphase : phaseEdge w t tp s = edgeWaits w (t, decide (s.whlState w = 3)) s := by
    rw [phaseEdge, hsec, if_pos (by decide), readPrimary_unused hmeasure, joinEdge_waits hsecs hrecent]
  have htrk := edgeWaits_trk (w := w) (s := s) (t, decide (s.whlState w = 3))
  have hlost' : (((edgeWaits w (t, decide (s.whlState w = 3)) s).wheel w).lostT.any fun k => future k t) = false := by
    rw [show ((edgeWaits w (t, decide (s.whlState w = 3)) s).wheel w).lostT = (s.wheel w).lostT from (congrArg Tracker.lostT htrk : _)]
    cases hk : (s.wheel w).lostT with
    | none => rfl
    | some k => exact hlost k hk
  have hlater : (((edgeWaits w (t, decide (s.whlState w = 3)) s).wheel w).recent.filter fun h => future h.1 t) = [] := by
    rw [show ((edgeWaits w (t, decide (s.whlState w = 3)) s).wheel w).recent = (s.wheel w).recent from (congrArg Tracker.recent htrk : _)]
    exact List.filter_eq_nil_iff.mpr fun x hx => by rw [hrecent x hx]; decide
  have hsrc' : (edgeWaits w (t, decide (s.whlState w = 3)) s).flag (WHL_SYNCCFG_SYNCSRC w) = true := hsrc
  rw [secondary_eq, hphase, hsec, hsrc', hlost', if_pos (by decide), refEdge, hlater, if_pos rfl, State.modWheel_wheel_same]
  exact congrArg (·.refs ++ [t]) htrk

end

end Sys2Proof.Machine
end

section
namespace Sys2Proof.Machine

open Sys2Proof Reg

/-! ### The phase (R243, R244) -/

section
variable {w : Nat} {s : State} {t tp : Time}

theorem TrackerFrame.sbase {J : Nat → Prop} {N : List TrkFld} {u : State} (h : TrackerFrame w J N s u) :
    u.f (WHL_TTCFG_SBASE w) = s.f (WHL_TTCFG_SBASE w) :=
  h.cfg (Nat.le_of_ble_eq_true rfl) (by simp [WHL_TTCFG_SBASE, WHL_TTCFG, WHL_CFG, WHL_VRCFG])

theorem SameTable.edgeAngle {u : State} (h : SameTable w s u) (hrev : u.f (WHL_STATUS_REVERSE w) = s.f (WHL_STATUS_REVERSE w)) (hi lo : Time × Nat) :
    u.edgeAngle w t hi lo = s.edgeAngle w t hi lo := by
  rw [State.edgeAngle, h.count, h.angleFrom, h.spanOf hrev, State.edgeAngle]

/-- What a phase leaves where its entry is read. -/
theorem comparePhase_good (i j ph : Nat) (tp : Time) : (comparePhase w i j ph tp false s).f (WHL_PHIDX_J w) = j % 2 ^ 10 ∧
    (comparePhase w i j ph tp false s).whlState w = s.whlState w ∧
    (comparePhase w i j ph tp false s).f (WHL_PHDIFF_DIFF w) = (BitVec.ofInt 32 (phaseDiff (s.teethN w) ph (s.ttWord i))).toNat := by
  rw [comparePhase, if_neg (by decide)]
  refine ⟨State.setF_fld_same _ w .phidx j, ?_, ?_⟩
  · exact (State.setF_fld_ne _ w (a := .state) (b := .phidx) (by simp) j).trans (State.setF_fld_ne s w (a := .state) (b := .phdiff) (by simp) _)
  · refine (State.setF_fld_ne _ w (a := .phdiff) (b := .phidx) (by simp) j).trans ((State.setF_fld_same s w .phdiff _).trans ?_)
    exact Nat.mod_eq_of_lt (BitVec.isLt _)

/-- What a phase leaves where its entry cannot be read. -/
theorem comparePhase_bad (i j ph : Nat) (tp : Time) : (comparePhase w i j ph tp true s).f (WHL_FLAGS_TTECC w) = 1 ∧
    (comparePhase w i j ph tp true s).whlState w = 1 ∧ (comparePhase w i j ph tp true s).f (WHL_STATUS_CAUSE w) = 6 := by
  obtain ⟨hstate, hcause, -⟩ := syncLoss_flds w 6 (s.raise (WHL_FLAGS_TTECC w)) (final := 1) (by decide) (by decide) tp
  rw [comparePhase, if_pos rfl]
  refine ⟨((syncLoss_work w 6 _ 1 tp).fld .ttecc (by simp)).trans ?_, hstate, hcause⟩
  exact State.raise_f_same _ _ (TrkFld.ttecc.narrow w) (Nat.le_refl 1)

theorem comparePhase_phase (i j ph : Nat) (tp : Time) (bad : Bool) : (comparePhase w i j ph tp bad s).f (WHL_PHASE_PHASE w) = s.f (WHL_PHASE_PHASE w) := by
  cases bad with
  | false =>
    rw [comparePhase, if_neg (by decide)]
    exact (State.setF_fld_ne _ w (a := .phase) (b := .phidx) (by simp) j).trans (State.setF_fld_ne s w (a := .phase) (b := .phdiff) (by simp) _)
  | true =>
    rw [comparePhase, if_pos rfl]
    exact ((syncLoss_work w 6 _ 1 tp).fld .phase (by simp)).trans ((raise_fld_work w noSlot .ttecc s).fld .phase (by simp))

theorem showPhase_phase (ph : Nat) : (showPhase w t ph s).f (WHL_PHASE_PHASE w) = ph % 2 ^ 32 :=
  ((whlRec_work w 0x11 t _ false ph noSlot _).fld .phase (by simp)).trans (((whlPulse_work w 1 noSlot [] _).fld .phase (by simp)).trans
    (State.setF_fld_same s w .phase ph))

/-- The fields that a measured phase may change. -/
abbrev phaseFlds : List TrkFld := [.phase, .phdiff, .phidx, .ttecc] ++ lossFlds

theorem comparePhase_work (i j ph : Nat) (tp : Time) (bad : Bool) : TrackerWork w (· < 64) phaseFlds s (comparePhase w i j ph tp bad s) := by
  unfold comparePhase
  split
  · exact ((raise_fld_work w _ .ttecc s).mono (fun _ => id) (by simp)).toTrackerWork.trans ((syncLoss_work w 6 _ 1 tp).mono (fun _ => id) (by simp))
  · exact (((setF_fld_work w _ .phdiff (by simp) s).mono (fun _ => id) (by simp)).trans
      ((setF_fld_work w _ .phidx (by simp) _).mono (fun _ => id) (by simp))).toTrackerWork

theorem phaseMeasure_work (j : Nat) (hi lo : Time × Nat) : TrackerWork w (· < 64) phaseFlds s (phaseMeasure w j t hi lo tp s) := by
  rw [phaseMeasure_eq w s j t hi lo tp rfl]
  exact (((showPhase_work w s t _ _).mono (fun _ => id) (by simp)).trans (ttRead_work w w _ 1 _ _ _)).toTrackerWork.trans (comparePhase_work _ _ _ _ _)

/-- An edge in SYNC shows its phase, its number and its difference (R243, R244). -/
theorem phaseMeasure_shows {j i ph : Nat} {hi lo : Time × Nat} (hst : s.whlState w = 3) (hi' : i = s.f (WHL_TTCFG_SBASE w) + j)
    (hph : ph = s.edgeAngle w t hi lo) : (phaseMeasure w j t hi lo tp s).f (WHL_PHASE_PHASE w) = ph % 2 ^ 32 ∧
    (s.badWord (ttAddr i) 4 = false → (phaseMeasure w j t hi lo tp s).f (WHL_PHIDX_J w) = j % 2 ^ 10 ∧
      (phaseMeasure w j t hi lo tp s).whlState w = 3 ∧
      (phaseMeasure w j t hi lo tp s).f (WHL_PHDIFF_DIFF w) = (BitVec.ofInt 32 (phaseDiff (s.teethN w) ph (s.ttWord i))).toNat) ∧
    (s.badWord (ttAddr i) 4 = true → (phaseMeasure w j t hi lo tp s).f (WHL_FLAGS_TTECC w) = 1 ∧
      (phaseMeasure w j t hi lo tp s).whlState w = 1 ∧ (phaseMeasure w j t hi lo tp s).f (WHL_STATUS_CAUSE w) = 6) := by
  have hshow := showPhase_work w s t ph noSlot
  have hread := ttRead_work w w i 1 noSlot [.phase, .seq, .drop, .dropped] (showPhase w t ph s)
  have htable := (hshow.trans hread).table
  have hbad : (ttRead w i 1 (showPhase w t ph s)).2.1 = s.badWord (ttAddr i) 4 := (ttRead_bad w i 1 _).trans (hshow.table.badWord _ _)
  have hstate : (ttRead w i 1 (showPhase w t ph s)).2.2.whlState w = 3 := ((hshow.trans hread).fld .state (by simp)).trans hst
  have hphase : (ttRead w i 1 (showPhase w t ph s)).2.2.f (WHL_PHASE_PHASE w) = ph % 2 ^ 32 :=
    ((ttRead_work w w i 1 noSlot [] _).fld .phase (by simp)).trans (showPhase_phase ph)
  rw [phaseMeasure_eq w s j t hi lo tp rfl, ← hph, hshow.sbase, ← hi', hbad]
  refine ⟨(comparePhase_phase i j ph tp _).trans hphase, fun hgood => ?_, fun hwrong => ?_⟩
  · obtain ⟨hj, h3, hdiff⟩ := comparePhase_good (w := w) (s := (ttRead w i 1 (showPhase w t ph s)).2.2) i j ph tp
    rw [hgood]
    exact ⟨hj, h3.trans hstate, by rw [hdiff, htable.count, htable.ttWord]⟩
  · rw [hwrong]
    exact comparePhase_bad i j ph tp

/-- An edge in SYNC whose interval is closed is measured at once (R243). -/
theorem secondary_phase {t1 t0 : Time} {a b : Nat} (hmode : phaseMode (s.f (WHL_CFG_SECMODE w)) = true)
    (hsrc : s.flag (WHL_SYNCCFG_SYNCSRC w) = false) (hst : s.whlState w = 3) (hsecs : (s.wheel w).secs = [])
    (h : closing t (s.wheel w).recent = some ((t1, some b), (t0, some a)))
    (hbad : s.badWord (ttAddr (s.f (WHL_TTCFG_PBASE w))) (4 * s.teethN w) = false) :
    ∃ v, TrackerWork w noSlot [] s v ∧ secondary w t tp s = phaseMeasure w
      (if ((s.wheel w).numT.any fun u => future u t) = true then (s.wheel w).secPrev else (s.wheel w).secJ) t (t1, b) (t0, a) tp v := by
  have hmeasure : s.measures w t = true := by rw [State.measures, h, hst]; rfl
  have hread := ttRead_work w w (s.f (WHL_TTCFG_PBASE w)) (s.teethN w) noSlot [] s
  have hprimary := readPrimary_good hmeasure tp (joinEdge w t tp) hbad
  generalize (ttRead w (s.f (WHL_TTCFG_PBASE w)) (s.teethN w) s).2.2 = u at hread hprimary
  have hwait := edgeWaits_work (w := w) (s := u) (t, true) noSlot []
  obtain ⟨hnumber, htake⟩ := takeEdge_takes (w := w) (s := edgeWaits w (t, true) u) (t, true)
  have hv := (hread.toTrackerWork.trans hwait).trans htake
  have htrk : (edgeWaits w (t, true) u).trk w = { s.trk w with secs := (s.trk w).secs ++ [(t, true)] } := by rw [edgeWaits_trk, hread.trk]
  have hnumT : ((edgeWaits w (t, true) u).wheel w).numT = (s.wheel w).numT := (congrArg Tracker.numT htrk : _)
  have hprev : ((edgeWaits w (t, true) u).wheel w).secPrev = (s.wheel w).secPrev := (congrArg Tracker.secPrev htrk : _)
  have hnext : ((edgeWaits w (t, true) u).wheel w).secJ = (s.wheel w).secJ := (congrArg Tracker.secJ htrk : _)
  have hrecent : (u.wheel w).recent = (s.wheel w).recent := by rw [State.wheel_recent, hread.trk]; rfl
  have hsecs' : (u.wheel w).secs = [] := by rw [State.wheel_secs, hread.trk]; exact hsecs
  rw [hnumT, hprev, hnext] at hnumber
  have hphase : phaseEdge w t tp s = phaseMeasure w (takeEdge w (edgeWaits w (t, true) u) (t, true)).1 t (t1, b) (t0, a) tp
      (takeEdge w (edgeWaits w (t, true) u) (t, true)).2 := by
    rw [phaseEdge, if_pos hmode, hprimary]
    exact joinEdge_measures hsecs' ((hread.fld .state (by simp)).trans hst) (by rw [hrecent]; exact h) rfl ((hv.fld .state (by simp)).trans hst)
  have hsrc' : (phaseEdge w t tp s).flag (WHL_SYNCCFG_SYNCSRC w) = false := by
    have hcfg := (hv.mono (J' := (· < 64)) (N' := phaseFlds) (fun _ h => h.elim) (List.nil_subset _)).trans
      (phaseMeasure_work (tp := tp) (t := t) (takeEdge w (edgeWaits w (t, true) u) (t, true)).1 (t1, b) (t0, a))
    rw [hphase, hcfg.cfgFlag (Nat.le_of_ble_eq_true rfl) (by simp [WHL_SYNCCFG_SYNCSRC, WHL_SYNCCFG, WHL_CFG, WHL_VRCFG]), hsrc]
  refine ⟨_, hv, ?_⟩
  rw [secondary_eq, hsrc', Bool.and_false, Bool.false_and, if_neg (by decide), hphase, hnumber]

end

end Sys2Proof.Machine
end

section
namespace Sys2Proof.Machine

open Sys2Proof Reg

/-! ### An accepted forward tooth (R221 to R223) -/

/-- Tracker w has reached position n by a tooth that confirms: outside SEEK its state stays, in SEEK a confirmation is counted, and enough of
them end SEEK. -/
def Confirms (w n : Nat) (s t : State) : Prop :=
  (t.wheel w).pos = some n ∧ (s.whlState w ≠ 1 → t.whlState w = s.whlState w) ∧
  (s.whlState w = 1 → (s.wheel w).conf + 1 < s.f (WHL_SYNCCFG_CONFIRM w) → t.whlState w = 1 ∧ (t.wheel w).conf = (s.wheel w).conf + 1) ∧
  (s.whlState w = 1 → s.f (WHL_SYNCCFG_CONFIRM w) ≤ (s.wheel w).conf + 1 →
    (s.flag (WHL_CFG_CYCLE2 w) = true → t.whlState w = 2) ∧
    (s.flag (WHL_CFG_CYCLE2 w) = false → t.whlState w = 3 ∧ t.f (WHL_FLAGS_SYNCGAIN w) = 1))

section
variable {w : Nat} {J : Nat → Prop} {N : List TrkFld} {s u : State}

theorem TrackerFrame.refpos (h : TrackerFrame w J N s u) : u.f (WHL_SYNCCFG_REFPOS w) = s.f (WHL_SYNCCFG_REFPOS w) :=
  h.cfg (Nat.le_of_ble_eq_true rfl) (by simp [WHL_SYNCCFG_REFPOS, WHL_SYNCCFG, WHL_CFG, WHL_VRCFG])

theorem TrackerFrame.confirm (h : TrackerFrame w J N s u) : u.f (WHL_SYNCCFG_CONFIRM w) = s.f (WHL_SYNCCFG_CONFIRM w) :=
  h.cfg (Nat.le_of_ble_eq_true rfl) (by simp [WHL_SYNCCFG_CONFIRM, WHL_SYNCCFG, WHL_CFG, WHL_VRCFG])

theorem TrackerFrame.cycle2 (h : TrackerFrame w J N s u) : u.flag (WHL_CFG_CYCLE2 w) = s.flag (WHL_CFG_CYCLE2 w) :=
  h.cfgFlag (Nat.le_of_ble_eq_true rfl) (by simp [WHL_CFG_CYCLE2, WHL_CFG, WHL_VRCFG])

theorem TrackerFrame.syncsrc (h : TrackerFrame w J N s u) : u.flag (WHL_SYNCCFG_SYNCSRC w) = s.flag (WHL_SYNCCFG_SYNCSRC w) :=
  h.cfgFlag (Nat.le_of_ble_eq_true rfl) (by simp [WHL_SYNCCFG_SYNCSRC, WHL_SYNCCFG, WHL_CFG, WHL_VRCFG])

theorem TrackerFrame.halfOf (h : TrackerFrame w J N s u) (a : Nat) : u.halfOf w a = s.halfOf w a := by
  rw [State.halfOf, h.teethN, h.refpos, State.halfOf]

theorem TrackerFrame.levelPos (h : TrackerFrame w J N s u) (level : Bool) : u.levelPos w level = s.levelPos w level := by
  rw [State.levelPos, h.teethN, h.refpos, State.levelPos]

/-- A register of a port is outside what a tracker writes. -/
theorem outside_port {G : Fld} (hw : w < 4) (hG : G.lo + G.w ≤ 32) (h : 0x80000 ≤ G.off) : Outside w noSlot G := by
  refine ⟨hG, ?_, ?_, ?_, ?_, fun _ hj => hj.elim⟩ <;>
    simp [RIG_STATUS, RIG_DLYINFO, GLB_OWNERR, SAG_STATUS, SAG_ECC, SAG_ECCADDR, SAG_ECCINJ, WHL_CTRL, WHL_CFG, WHL_ERRCNT, WHL_SEQ, WHL_CYCT] <;>
    omega

theorem TrackerFrame.refBy (hw : w < 4) (h : TrackerFrame w noSlot N s u) (t : Time) : u.refBy w t = s.refBy w t := by
  have hport : u.f (WHL_INPUT_SPORT w) = s.f (WHL_INPUT_SPORT w) :=
    h.cfg (Nat.le_of_ble_eq_true rfl) (by simp [WHL_INPUT_SPORT, WHL_INPUT, WHL_CFG, WHL_VRCFG])
  have hfilt (p : Nat) : u.f (PRT_INCFG_FILT p) = s.f (PRT_INCFG_FILT p) :=
    h.other _ (outside_port hw (Nat.le_of_ble_eq_true rfl) (by simp only [PRT_INCFG_FILT, PRT_INCFG]; omega))
  rw [State.refBy, hport, hfilt, State.refBy]

theorem movePos_work (q : Option Nat) (J : Nat → Prop) (N : List TrkFld) (s : State) : TrackerWork w J N s (movePos w q s) :=
  modWheel_work w J N (f := fun x => { x with pos := q }) (fun _ => rfl) s

end

/-- A tooth that confirms. -/
theorem ForwardStep.confirms {w n : Nat} {t tp : Time} {s₀ s c l v x : State} (h : ForwardStep w t tp s (confirmSync w tp c) l v x)
    (hc : TrackerWork w noSlot [] s₀ c) (hconf : (c.wheel w).conf = (s₀.wheel w).conf) (hpos : (c.wheel w).pos = some n) : Confirms w n s₀ x := by
  have hstate : c.whlState w = s₀.whlState w := hc.fld .state (by simp)
  obtain ⟨hrest, hcount, hdone⟩ := confirmSync_done w c tp
  obtain ⟨k, hk⟩ := confirmSync_trk w c tp
  have hpos' : ((confirmSync w tp c).wheel w).pos = some n := by rw [State.wheel_pos, hk]; exact hpos
  rw [hstate, hconf, hc.confirm] at hcount hdone
  rw [hstate] at hrest
  rw [hc.cycle2] at hdone
  rw [Confirms, h.pos, h.whlState, h.syncgain, h.conf]
  exact ⟨hpos', hrest, hcount, hdone⟩

section
variable {w p : Nat} {s : State} {r : Tooth} {l : List (Tooth × Nat)} {acc : Bool} {tp : Time}
  (hfwd : toothProcess w s = forwardTooth w r.time tp r.other false acc (readTooth w p l s)) (hsecs : (s.wheel w).secs = [])
include hfwd

include hsecs in
/-- A tooth that costs no sync. -/
theorem toothProcess_step {u : State} (h : syncTooth w r.time tp r.other false (readTooth w p l s) = (0, u)) :
    ∃ m v, ForwardStep w r.time tp (readTooth w p l s) u m v (toothProcess w s) := by
  obtain ⟨m, v, hstep⟩ := forwardTooth_step (acc := acc) ((readTooth_secs w p l s).trans hsecs) (congrArg Prod.fst h)
  rw [h] at hstep
  rw [hfwd]
  exact ⟨m, v, hstep⟩

/-- A tooth that costs sync. -/
theorem toothProcess_loses {cause : Nat} {u : State} (h : syncTooth w r.time tp r.other false (readTooth w p l s) = (cause, u)) (h0 : cause ≠ 0)
    (hc : cause < 16) : LostAtTooth w cause r
      (if ((u.wheel w).refs.any fun k => future r.time k) = true then some (s.f (WHL_SYNCCFG_REFPOS w)) else none) s (toothProcess w s) := by
  have hsync := (syncTooth_work (w := w) (s := readTooth w p l s) r.time tp r.other false).toTrackerFrame
  have hlost := forwardTooth_lost (acc := acc) (s := readTooth w p l s) (w := w) (t := r.time) (tp := tp) (level := r.other) (skip := false)
    (by rw [h]; exact h0)
  rw [h] at hsync hlost
  rw [hfwd, hlost]
  have hread := readTooth_work w p l s noSlot
  have hcount := (hsync.fld .loss (by simp)).trans (hread.fld .loss (by simp))
  have hloss := lossAtTooth_lost w cause tp u hc hcount r
  rw [hsync.refpos, hread.refpos] at hloss
  exact hloss

end

end Sys2Proof.Machine
end

section
namespace Sys2Proof.Machine

open Sys2Proof Reg

/-! ### By missing tooth (R221, R222) -/

theorem State.longGap_iff {w : Nat} {s : State} {e : Option Nat} :
    s.longGap w e = true ↔ ∃ a b, e = some a ∧ (s.wheel w).prevE = some b ∧ s.f (WHL_SYNCCFG_GAPR w) * b ≤ a * 16 := by
  unfold State.longGap
  split
  · next a b hb => simp [hb]
  · next h => exact ⟨fun hf => absurd hf (by decide), fun ⟨a, b, ha, hb, _⟩ => (h a b ha hb).elim⟩

section
variable {w p n : Nat} {s : State} {r : Tooth} {l : List (Tooth × Nat)} {acc tl : Bool} {tp : Time}
  (hfwd : toothProcess w s = forwardTooth w r.time tp r.other false acc (readTooth w p l s)) (hsecs : (s.wheel w).secs = [])
  (hsrc : s.flag (WHL_SYNCCFG_SYNCSRC w) = false)

/-- The count moves on from the state in which the tooth has been read. -/
theorem movePos_read (q : Option Nat) : TrackerWork w noSlot [] s (movePos w q (readTooth w p l s)) :=
  (readTooth_work w p l s noSlot).trans (movePos_work q noSlot [] _)

theorem movePos_pos (q : Option Nat) (u : State) : ((movePos w q u).wheel w).pos = q := congrArg Tracker.pos (movePos_trk q)

theorem movePos_conf (q : Option Nat) (u : State) : ((movePos w q u).wheel w).conf = (u.wheel w).conf := (congrArg Tracker.conf (movePos_trk q) : _)

theorem movePos_refs (q : Option Nat) (u : State) : ((movePos w q u).wheel w).refs = (u.wheel w).refs := (congrArg Tracker.refs (movePos_trk q) : _)

include hsrc in
theorem syncTooth_gap : syncTooth w r.time tp r.other false (readTooth w p l s) =
    gapSync w (s.interval w r.time) r.other false tp (readTooth w p l s) := by
  rw [syncTooth, (readTooth_work w p l s noSlot).syncsrc, hsrc, if_neg (by decide), State.interval, readTooth_lastT, State.interval]

theorem readTooth_longGap (e : Option Nat) : (readTooth w p l s).longGap w e = s.longGap w e := by
  unfold State.longGap
  rw [readTooth_prevE, (readTooth_work w p l s noSlot).cfg (G := WHL_SYNCCFG_GAPR w) (Nat.le_of_ble_eq_true rfl)
    (by simp [WHL_SYNCCFG_GAPR, WHL_SYNCCFG, WHL_CFG, WHL_VRCFG])]

include hfwd hsecs hsrc in
/-- Without a position a long interval gives REFPOS (R221). -/
theorem gap_places (hpos : (s.wheel w).pos = none) : (toothProcess w s).whlState w = s.whlState w ∧
    ((toothProcess w s).wheel w).pos = if s.longGap w (s.interval w r.time) = true then some (s.f (WHL_SYNCCFG_REFPOS w)) else none := by
  have hread := readTooth_work w p l s noSlot
  have hgap := (syncTooth_gap (p := p) (l := l) (r := r) (tp := tp) hsrc).trans
    (gapSync_lost _ r.other false tp ((readTooth_pos w p l s).trans hpos))
  obtain ⟨m, v, hstep⟩ := toothProcess_step hfwd hsecs hgap
  rw [hstep.whlState, hstep.pos, readTooth_longGap, hread.refpos, Bool.not_false, Bool.and_true]
  split
  · exact ⟨((assignPos_work w _ _ noSlot).fld .state (by simp)).trans (hread.fld .state (by simp)), congrArg Tracker.pos (assignPos_trk w _ _)⟩
  · exact ⟨hread.fld .state (by simp), (readTooth_pos w p l s).trans hpos⟩

section
variable {q : Nat} (hpos : (s.wheel w).pos = some q) (hnext : s.nextPhys w q (s.teethN w) = (n, tl))
include hsrc hpos hnext

/-- With a position the count moves on to the next physical tooth (R221). -/
theorem syncTooth_counts : syncTooth w r.time tp r.other false (readTooth w p l s) =
    if (s.longGap w (s.interval w r.time) != tl) = true then (1, movePos w (some n) (readTooth w p l s))
    else if (!tl) = true then (0, movePos w (some n) (readTooth w p l s))
    else if (s.flag (WHL_CFG_CYCLE2 w) && decide (s.whlState w ≠ 1)) = true then
      phaseOutcome (movePos w (some n) (readTooth w p l s)) (phaseSync w r.other tp (movePos w (some n) (readTooth w p l s)))
    else (0, confirmSync w tp (movePos w (some n) (readTooth w p l s))) := by
  have hread := readTooth_work w p l s noSlot
  rw [syncTooth_gap hsrc, gapSync_counts _ r.other false tp ((readTooth_pos w p l s).trans hpos), if_neg (by decide), readTooth_longGap,
    hread.teethN, hread.table.nextPhys, hnext, hread.cycle2, readTooth_whlState]

include hfwd in
/-- An interval that differs from the table costs sync (R221). -/
theorem gap_loses (hlong : s.longGap w (s.interval w r.time) ≠ tl) (hrefs : ∀ k ∈ (s.wheel w).refs, future r.time k = false) :
    LostAtTooth w 1 r none s (toothProcess w s) := by
  have hsync := syncTooth_counts (p := p) (l := l) (r := r) (tp := tp) hsrc hpos hnext
  rw [if_pos (by simpa using hlong)] at hsync
  have hlost := toothProcess_loses hfwd hsync (by decide) (by decide)
  rw [movePos_refs, readTooth_refs, if_neg (by simpa using hrefs)] at hlost
  exact hlost

include hfwd hsecs in
/-- A short interval where the table has one (R221). -/
theorem gap_moves (hlong : s.longGap w (s.interval w r.time) = false) (htl : tl = false) :
    ((toothProcess w s).wheel w).pos = some n ∧ (toothProcess w s).whlState w = s.whlState w := by
  have hsync := syncTooth_counts (p := p) (l := l) (r := r) (tp := tp) hsrc hpos hnext
  rw [hlong, htl, if_neg (by decide), if_pos (by decide)] at hsync
  obtain ⟨m, v, hstep⟩ := toothProcess_step hfwd hsecs hsync
  rw [hstep.pos, hstep.whlState, movePos_pos]
  exact ⟨rfl, (movePos_read _).fld .state (by simp)⟩

include hfwd hsecs in
/-- A long interval where the table has one confirms (R221). -/
theorem gap_confirms (hlong : s.longGap w (s.interval w r.time) = true) (htl : tl = true)
    (h : s.whlState w = 1 ∨ s.flag (WHL_CFG_CYCLE2 w) = false) : Confirms w n s (toothProcess w s) := by
  have hsync := syncTooth_counts (p := p) (l := l) (r := r) (tp := tp) hsrc hpos hnext
  rw [hlong, htl, if_neg (by decide), if_neg (by decide), if_neg (by rcases h with h | h <;> simp [h])] at hsync
  obtain ⟨m, v, hstep⟩ := toothProcess_step hfwd hsecs hsync
  exact hstep.confirms (movePos_read _) ((movePos_conf _ _).trans (readTooth_conf w p l s)) (movePos_pos _ _)

include hfwd hsecs in
/-- In HALFSYNC the phase level places the half (R222). -/
theorem gap_halves (hlong : s.longGap w (s.interval w r.time) = true) (htl : tl = true) (hcyc : s.flag (WHL_CFG_CYCLE2 w) = true)
    (h2 : s.whlState w = 2) : (toothProcess w s).whlState w = 3 ∧ (toothProcess w s).f (WHL_FLAGS_SYNCGAIN w) = 1 ∧
    ((toothProcess w s).wheel w).pos = some (if s.halfOf w n = s.halfOf w (s.levelPos w r.other) then n else (n + s.teethN w / 2) % s.teethN w) := by
  have hmove := movePos_read (w := w) (s := s) (p := p) (l := l) (some n)
  have hphase := phaseSync_half (s := movePos w (some n) (readTooth w p l s)) ((hmove.fld .state (by simp)).trans h2) r.other tp rfl rfl
  rw [movePos_pos, Option.getD_some, hmove.halfOf, hmove.halfOf, hmove.levelPos, hmove.teethN] at hphase
  have hsync := syncTooth_counts (p := p) (l := l) (r := r) (tp := tp) hsrc hpos hnext
  rw [hlong, htl, if_neg (by decide), if_neg (by decide), if_pos (by simp [hcyc, h2]), hphase] at hsync
  obtain ⟨m, v, hstep⟩ := toothProcess_step hfwd hsecs hsync
  rw [hstep.whlState, hstep.syncgain, hstep.pos]
  refine ⟨setWhlState_whlState w _ (by decide) tp, setWhlState_syncgain ?_ tp, ?_⟩
  · have hstate : (movePos w (some n) (readTooth w p l s)).whlState w = 2 := (hmove.fld .state (by simp)).trans h2
    have hturn : ∀ f : Tracker → Tracker, ((movePos w (some n) (readTooth w p l s)).modWheel w f).whlState w = 2 := fun _ => hstate
    rw [hturn]
    decide
  · rw [State.wheel_pos, setWhlState_trk, modWheel_trk_of w _ (f := Tracker.turned _ _ _) (fun _ => rfl)]
    rfl

include hfwd hsecs in
/-- In SYNC the phase level agrees with the count (R222). -/
theorem gap_agrees (hlong : s.longGap w (s.interval w r.time) = true) (htl : tl = true) (hcyc : s.flag (WHL_CFG_CYCLE2 w) = true)
    (h3 : s.whlState w = 3) (hhalf : s.halfOf w n = s.halfOf w (s.levelPos w r.other)) :
    (toothProcess w s).whlState w = 3 ∧ ((toothProcess w s).wheel w).pos = some n := by
  have hmove := movePos_read (w := w) (s := s) (p := p) (l := l) (some n)
  have hstate : (movePos w (some n) (readTooth w p l s)).whlState w = 3 := (hmove.fld .state (by simp)).trans h3
  have hphase := phaseSync_sync (s := movePos w (some n) (readTooth w p l s)) hstate r.other tp
  rw [movePos_pos, Option.getD_some, hmove.halfOf, hmove.halfOf, hmove.levelPos, if_pos hhalf] at hphase
  have hsync := syncTooth_counts (p := p) (l := l) (r := r) (tp := tp) hsrc hpos hnext
  rw [hlong, htl, if_neg (by decide), if_neg (by decide), if_pos (by simp [hcyc, h3]), hphase] at hsync
  obtain ⟨m, v, hstep⟩ := toothProcess_step hfwd hsecs hsync
  rw [hstep.whlState, hstep.pos]
  exact ⟨hstate, movePos_pos _ _⟩

include hfwd in
/-- In SYNC a phase level that contradicts the count costs sync (R222). -/
theorem gap_contradicts (hlong : s.longGap w (s.interval w r.time) = true) (htl : tl = true) (hcyc : s.flag (WHL_CFG_CYCLE2 w) = true)
    (h3 : s.whlState w = 3) (hhalf : s.halfOf w n ≠ s.halfOf w (s.levelPos w r.other))
    (hrefs : ∀ k ∈ (s.wheel w).refs, future r.time k = false) : LostAtTooth w 3 r none s (toothProcess w s) := by
  have hmove := movePos_read (w := w) (s := s) (p := p) (l := l) (some n)
  have hphase := phaseSync_sync (s := movePos w (some n) (readTooth w p l s)) ((hmove.fld .state (by simp)).trans h3) r.other tp
  rw [movePos_pos, Option.getD_some, hmove.halfOf, hmove.halfOf, hmove.levelPos, if_neg hhalf] at hphase
  have hsync := syncTooth_counts (p := p) (l := l) (r := r) (tp := tp) hsrc hpos hnext
  rw [hlong, htl, if_neg (by decide), if_neg (by decide), if_pos (by simp [hcyc, h3]), hphase] at hsync
  have hlost := toothProcess_loses hfwd hsync (by decide) (by decide)
  rw [movePos_refs, readTooth_refs, if_neg (by simpa using hrefs)] at hlost
  exact hlost

end

end

end Sys2Proof.Machine
end

section
namespace Sys2Proof.Machine

open Sys2Proof Reg

/-! ### By reference input (R223) -/

section
variable {w p : Nat} {s : State} {r : Tooth} {l : List (Tooth × Nat)} {acc : Bool} {tp : Time}
  (hfwd : toothProcess w s = forwardTooth w r.time tp r.other false acc (readTooth w p l s)) (hsecs : (s.wheel w).secs = [])
  (hsrc : s.flag (WHL_SYNCCFG_SYNCSRC w) = true)

/-- The tooth at t joins those kept, from the state in which it has been read. -/
def countedTooth (w p : Nat) (l : List (Tooth × Nat)) (t : Time) (s : State) : State := refTooth w t (s.nextPos w) (readTooth w p l s)

theorem refTooth_work (t : Time) (q : Option Nat) (J : Nat → Prop) (N : List TrkFld) (s : State) : TrackerWork w J N s (refTooth w t q s) :=
  (modWheel_work w J N (f := fun x => { x with pos := q, refs := x.refs.filter fun r => !future t r }) (fun _ => rfl) s).trans
    (keepTooth_work w _ t q J N)

theorem countedTooth_work (t : Time) : TrackerWork w noSlot [] s (countedTooth w p l t s) :=
  (readTooth_work w p l s noSlot).trans (refTooth_work t _ noSlot [] _)

theorem countedTooth_trk (t : Time) : (countedTooth w p l t s).trk w =
    { (s.trk w).took p l with
      pos := s.nextPos w, refs := (s.trk w).refs.filter fun r => !future t r, recent := ((t, s.nextPos w) :: (s.trk w).recent).take 1024 } := by
  rw [countedTooth, refTooth_trk, readTooth_trk]
  rfl

theorem countedTooth_pos (t : Time) : ((countedTooth w p l t s).wheel w).pos = s.nextPos w := (congrArg Tracker.pos (countedTooth_trk t) : _)
theorem countedTooth_conf (t : Time) : ((countedTooth w p l t s).wheel w).conf = (s.wheel w).conf := (congrArg Tracker.conf (countedTooth_trk t) : _)

/-- The reference edges before the tooth are used up. -/
theorem countedTooth_refs (t : Time) : (((countedTooth w p l t s).wheel w).refs.any fun k => future t k) = false := by
  have hrefs : ((countedTooth w p l t s).wheel w).refs = (s.wheel w).refs.filter fun k => !future t k := (congrArg Tracker.refs (countedTooth_trk t) : _)
  rw [hrefs]
  exact List.any_eq_false.mpr fun k hk => by simpa using (List.mem_filter.mp hk).2

theorem clearMiss_work (t : Time) (u : State) : TrackerWork w noSlot [] u (clearMiss w t u) :=
  modWheel_work w noSlot [] (f := fun x => { x with miss := if x.miss = some t then none else x.miss }) (fun _ => rfl) u

theorem clearMiss_pos (t : Time) (u : State) : ((clearMiss w t u).wheel w).pos = (u.wheel w).pos := by
  rw [State.wheel_pos, clearMiss_trk]
  rfl

theorem clearMiss_conf (t : Time) (u : State) : ((clearMiss w t u).wheel w).conf = (u.wheel w).conf := by
  rw [State.wheel_conf, clearMiss_trk]
  rfl

theorem placeLast_work (t : Time) (q : Nat) (u : State) : TrackerWork w noSlot [.estvalid] u (placeLast w t q u) :=
  modWheel_work w noSlot _ (f := fun x => { x with recent := (t, some q) :: x.recent.drop 1, miss := none }) (fun _ => rfl) u

theorem expectRef_work (t : Time) (q : Option Nat) (u : State) : TrackerWork w noSlot [] u (expectRef w t q u) :=
  modWheel_work w noSlot [] (f := fun x => { x with miss := x.miss.or (if q = some (u.f (WHL_SYNCCFG_REFPOS w)) then some t else none) })
    (fun _ => rfl) u

theorem expectRef_pos (t : Time) (q : Option Nat) (u : State) : ((expectRef w t q u).wheel w).pos = (u.wheel w).pos := by
  rw [State.wheel_pos, expectRef_trk]
  rfl

theorem readTooth_nextPos : (readTooth w p l s).nextPos w = s.nextPos w := by
  have hread := readTooth_work w p l s noSlot
  simp only [State.nextPos, readTooth_pos, hread.table.nextPhys, hread.teethN]

include hsrc in
theorem syncTooth_ref : syncTooth w r.time tp r.other false (readTooth w p l s) = refSync w r.time tp (readTooth w p l s) := by
  rw [syncTooth, (readTooth_work w p l s noSlot).syncsrc, hsrc, if_pos rfl]

include hsrc in
/-- No edge is missing. -/
theorem syncTooth_unmissed (hw : w < 4) (hmiss : ∀ u, (s.wheel w).miss = some u → reached (s.refBy w u) tp = false) :
    syncTooth w r.time tp r.other false (readTooth w p l s) =
      if ((s.wheel w).refs.any fun k => future r.time k) = true then refRule w 0 false tp (countedTooth w p l r.time s)
      else (0, expectRef w r.time (s.nextPos w) (countedTooth w p l r.time s)) := by
  have hnone : (((readTooth w p l s).wheel w).miss.any fun u => reached ((readTooth w p l s).refBy w u) tp) = false := by
    rw [readTooth_miss]
    cases hu : (s.wheel w).miss with
    | none => rfl
    | some u => rw [Option.any_some, (readTooth_work w p l s noSlot).refBy hw u, hmiss u hu]
  rw [syncTooth_ref hsrc, refSync_unmissed r.time hnone, readTooth_refs, readTooth_nextPos, countedTooth]

include hsrc in
/-- The tooth after a reference edge. -/
theorem syncTooth_after (hw : w < 4) (hmiss : ∀ u, (s.wheel w).miss = some u → reached (s.refBy w u) tp = false)
    (hbefore : ((s.wheel w).refs.any fun k => future r.time k) = true) : syncTooth w r.time tp r.other false (readTooth w p l s) =
      if s.nextPos w = some (s.f (WHL_SYNCCFG_REFPOS w)) then (0, confirmSync w tp (clearMiss w r.time (countedTooth w p l r.time s)))
      else if ((s.nextPos w).isSome && decide (s.whlState w ≠ 1)) = true then (2, countedTooth w p l r.time s)
      else (0, assignPos w (s.f (WHL_SYNCCFG_REFPOS w))
        (placeLast w r.time (s.f (WHL_SYNCCFG_REFPOS w)) (countedTooth w p l r.time s))) := by
  have hcount := countedTooth_work (w := w) (p := p) (l := l) (s := s) r.time
  have hrecent : ((countedTooth w p l r.time s).wheel w).recent = (r.time, s.nextPos w) :: ((readTooth w p l s).wheel w).recent.take 1023 :=
    refTooth_recent r.time _ _
  have hstate : (countedTooth w p l r.time s).whlState w = s.whlState w := hcount.fld .state (by simp)
  rw [syncTooth_unmissed hsrc hw hmiss, if_pos hbefore, refRule_newest tp hrecent, hcount.refpos, hstate]

include hfwd hsrc in
/-- A cycle without an edge costs sync (R223). -/
theorem ref_missed (hw : w < 4) {u : Time} (hu : (s.wheel w).miss = some u) (hby : reached (s.refBy w u) tp = true) :
    LostAtTooth w 2 r (if ((s.wheel w).refs.any fun k => future r.time k) = true then some (s.f (WHL_SYNCCFG_REFPOS w)) else none) s
      (toothProcess w s) := by
  have hmiss : (((readTooth w p l s).wheel w).miss.any fun u => reached ((readTooth w p l s).refBy w u) tp) = true := by
    rw [readTooth_miss, hu, Option.any_some, (readTooth_work w p l s noSlot).refBy hw u, hby]
  have hlost := toothProcess_loses hfwd ((syncTooth_ref hsrc).trans (refSync_missed r.time hmiss)) (by decide) (by decide)
  rw [readTooth_refs] at hlost
  exact hlost

section
variable (hw : w < 4) (hmiss : ∀ u, (s.wheel w).miss = some u → reached (s.refBy w u) tp = false)
include hfwd hsrc hw hmiss

include hsecs in
/-- A tooth that no edge precedes moves the count on. -/
theorem ref_moves (hbefore : ((s.wheel w).refs.any fun k => future r.time k) = false) :
    ((toothProcess w s).wheel w).pos = s.nextPos w ∧ (toothProcess w s).whlState w = s.whlState w := by
  have hsync := syncTooth_unmissed (p := p) (l := l) (r := r) hsrc hw hmiss
  rw [hbefore, if_neg (by decide)] at hsync
  obtain ⟨m, v, hstep⟩ := toothProcess_step hfwd hsecs hsync
  rw [hstep.pos, hstep.whlState, expectRef_pos, countedTooth_pos]
  exact ⟨rfl, ((countedTooth_work r.time).trans (expectRef_work _ _ _)).fld .state (by simp)⟩

section
variable (hbefore : ((s.wheel w).refs.any fun k => future r.time k) = true)
include hbefore

include hsecs in
/-- An edge where the count has REFPOS confirms (R223). -/
theorem ref_confirms (hq : s.nextPos w = some (s.f (WHL_SYNCCFG_REFPOS w))) : Confirms w (s.f (WHL_SYNCCFG_REFPOS w)) s (toothProcess w s) := by
  have hsync := syncTooth_after (p := p) (l := l) (r := r) hsrc hw hmiss hbefore
  rw [if_pos hq] at hsync
  obtain ⟨m, v, hstep⟩ := toothProcess_step hfwd hsecs hsync
  exact hstep.confirms ((countedTooth_work r.time).trans (clearMiss_work _ _)) ((clearMiss_conf _ _).trans (countedTooth_conf _))
    ((clearMiss_pos _ _).trans ((countedTooth_pos _).trans hq))

/-- An edge elsewhere costs sync (R223). -/
theorem ref_contradicts (hq : s.nextPos w ≠ some (s.f (WHL_SYNCCFG_REFPOS w))) (hsome : s.nextPos w ≠ none) (hst : s.whlState w ≠ 1) :
    LostAtTooth w 2 r none s (toothProcess w s) := by
  have hsync := syncTooth_after (p := p) (l := l) (r := r) hsrc hw hmiss hbefore
  rw [if_neg hq, if_pos (by simpa [Option.isSome_iff_ne_none] using ⟨hsome, hst⟩)] at hsync
  have hlost := toothProcess_loses hfwd hsync (by decide) (by decide)
  rw [countedTooth_refs, if_neg (by decide)] at hlost
  exact hlost

include hsecs in
/-- An edge gives the tooth REFPOS in SEEK (R223). -/
theorem ref_places (hq : s.nextPos w ≠ some (s.f (WHL_SYNCCFG_REFPOS w))) (h : s.nextPos w = none ∨ s.whlState w = 1) :
    ((toothProcess w s).wheel w).pos = some (s.f (WHL_SYNCCFG_REFPOS w)) ∧ ((toothProcess w s).wheel w).conf = 0 ∧
    (toothProcess w s).whlState w = s.whlState w := by
  have hsync := syncTooth_after (p := p) (l := l) (r := r) hsrc hw hmiss hbefore
  rw [if_neg hq, if_neg (by rcases h with h | h <;> simp [h])] at hsync
  obtain ⟨m, v, hstep⟩ := toothProcess_step hfwd hsecs hsync
  have hplace := (placeLast_work r.time (s.f (WHL_SYNCCFG_REFPOS w)) (countedTooth w p l r.time s)).trans
    (assignPos_work w _ (s.f (WHL_SYNCCFG_REFPOS w)) noSlot)
  rw [hstep.pos, hstep.conf, hstep.whlState, State.wheel_pos, State.wheel_conf, assignPos_trk]
  exact ⟨rfl, rfl, (hplace.fld .state (by simp)).trans ((countedTooth_work r.time).fld .state (by simp))⟩

end

end

end

end Sys2Proof.Machine
end

section
namespace Sys2Proof.Machine

open Sys2Proof Reg

/-! ### Learning at an accepted tooth (R230) -/

theorem State.learns_iff {w c d : Nat} {s : State} (hrev : s.flag (WHL_STATUS_REVERSE w) = false) (hcyc : (s.wheel w).cyc = [c, d]) :
    s.learns w = true ↔ s.flag (WHL_LEARN_EN w) = true ∧ s.whlState w = 3 ∧ (s.wheel w).accl = false ∧ 2 ≤ (s.wheel w).hist.length ∧
      ((c : Int) - d).natAbs * 1024 ≤ s.f (WHL_LEARN_LTOL w) * c := by
  unfold State.learns
  dsimp only
  rw [hcyc, hrev]
  simp [and_assoc]

section
variable {w : Nat} {t tp : Time} {s u l v x : State} (h : ForwardStep w t tp s u l v x)
include h

/-- From the tooth to what it learns. -/
theorem ForwardStep.reached : TrackerWork w noSlot (syncFlds ++ movedFlds) s l :=
  (h.sync.toTrackerWork.mono (fun _ => id) (by simp)).trans (h.moved.toTrackerWork.mono (fun _ => id) (by simp))

/-- The slots come after the learning. -/
theorem ForwardStep.last : SlotWork w (· < 64) slotFlds (learnTooth w l) x := by
  rw [h.slots, h.learn]
  exact slotsTooth_work _ _ tp _

theorem ForwardStep.learning : x.f (WHL_STATUS_LEARNING w) = (l.learns w).toNat :=
  (h.last.fld .learning (by simp)).trans (learnTooth_learning w l)

theorem ForwardStep.learnt_mem {q : Nat} (hq : (l.wheel w).pos = some q) (hno : l.learns w = false ∨ l.lockAt w q = true) : x.mem = s.mem := by
  rw [h.last.mem, learnTooth_idle hq hno, (showLearning_work w l noSlot).mem, h.reached.mem]

theorem ForwardStep.learnt_byte {q z : Nat} (hq : (l.wheel w).pos = some q)
    (hz : z < ttAddr (s.f (WHL_TTCFG_PBASE w) + q) ∨ ttAddr (s.f (WHL_TTCFG_PBASE w) + q) + 4 ≤ z) : x.byte z = s.byte z := by
  rw [byte_congr h.last.mem, learnTooth_byte hq (by rw [h.reached.pbase]; exact hz), byte_congr h.reached.mem]

/-- The entry that a tooth learns. -/
theorem ForwardStep.learnt_entry {q c : Nat} {k : List Nat} (hq : (l.wheel w).pos = some q) (hc : (l.wheel w).cyc = c :: k)
    (hon : l.learns w = true) (hlock : l.lockAt w q = false) :
    x.memNat (ttAddr (s.f (WHL_TTCFG_PBASE w) + q)) 4 = (showLearning w l).learnt w q c := by
  have hbase : (showLearning w l).f (WHL_TTCFG_PBASE w) = s.f (WHL_TTCFG_PBASE w) :=
    (showLearning_work w l noSlot).pbase.trans h.reached.pbase
  rw [memNat_congr h.last.mem, learnTooth_writes hq hc hon hlock, writeLearnt, hbase, entryWrite_memNat _ _ _ _ (learnt_lt w _ q c)]

/-- It comes from the table before the tooth and the estimate after it. -/
theorem ForwardStep.learnt_eq (q c : Nat) : (showLearning w l).learnt w q c =
    setBits (s.ttPos w q) 0 24 (learnWidth (bitsOf (s.ttPos w q) 0 24) (roundDiv ((x.wheel w).ints.2 * s.cycleU w) c) (x.wheel w).a2
      (s.f (WHL_LEARN_LRATE w))) := by
  have hshow := showLearning_work w l noSlot
  have htable := h.reached.table.trans hshow.table
  have hrate : (showLearning w l).f (WHL_LEARN_LRATE w) = s.f (WHL_LEARN_LRATE w) :=
    (hshow.cfg (Nat.le_of_ble_eq_true rfl) (by simp [WHL_LEARN_LRATE, WHL_LEARN, WHL_CFG, WHL_VRCFG])).trans
      (h.reached.cfg (Nat.le_of_ble_eq_true rfl) (by simp [WHL_LEARN_LRATE, WHL_LEARN, WHL_CFG, WHL_VRCFG]))
  have htrk : (showLearning w l).trk w = x.trk w := hshow.trk.trans h.trk.symm
  have hhist : ((showLearning w l).wheel w).hist = (x.wheel w).hist := by rw [State.wheel_hist, htrk]; rfl
  have hints : ((showLearning w l).wheel w).ints = (x.wheel w).ints := by rw [Tracker.ints, hhist]; rfl
  have ha2 : ((showLearning w l).wheel w).a2 = (x.wheel w).a2 := by rw [State.wheel_a2, htrk]; rfl
  rw [State.learnt, htable.ttPos, htable.cycleU, hrate, hints, ha2]

/-- When the tooth learns. -/
theorem ForwardStep.learns_iff {c d : Nat} (hrev : s.flag (WHL_STATUS_REVERSE w) = false) (hcyc : (x.wheel w).cyc = [c, d]) :
    l.learns w = true ↔ s.flag (WHL_LEARN_EN w) = true ∧ x.whlState w = 3 ∧ (x.wheel w).accl = false ∧ 2 ≤ (x.wheel w).hist.length ∧
      ((c : Int) - d).natAbs * 1024 ≤ s.f (WHL_LEARN_LTOL w) * c := by
  have hrev' : l.flag (WHL_STATUS_REVERSE w) = false := (congrArg (· != 0) (h.reached.fld .reverse (by simp))).trans hrev
  have hcyc' : (l.wheel w).cyc = [c, d] := by rw [State.wheel_cyc, ← h.trk]; exact hcyc
  have hen : l.flag (WHL_LEARN_EN w) = s.flag (WHL_LEARN_EN w) :=
    h.reached.cfgFlag (Nat.le_of_ble_eq_true rfl) (by simp [WHL_LEARN_EN, WHL_LEARN, WHL_CFG, WHL_VRCFG])
  have htol : l.f (WHL_LEARN_LTOL w) = s.f (WHL_LEARN_LTOL w) :=
    h.reached.cfg (Nat.le_of_ble_eq_true rfl) (by simp [WHL_LEARN_LTOL, WHL_LEARN, WHL_CFG, WHL_VRCFG])
  have hstate : l.whlState w = x.whlState w :=
    ((h.last.fld .state (by simp)).trans ((learnTooth_work w l noSlot).fld .state (by simp))).symm
  have haccl : (l.wheel w).accl = (x.wheel w).accl := by rw [State.wheel_accl, ← h.trk]; rfl
  have hhist : (l.wheel w).hist = (x.wheel w).hist := by rw [State.wheel_hist, ← h.trk]; rfl
  rw [State.learns_iff hrev' hcyc', hen, htol, hstate, haccl, hhist]

end

/-- Learning at a tooth that leaves two cycles measured (R230). -/
theorem ForwardStep.learns {w c d q : Nat} {t tp : Time} {s u l v x : State} (h : ForwardStep w t tp s u l v x)
    (hcyc : (x.wheel w).cyc = [c, d]) (hpos : (x.wheel w).pos = some q)
    {learns : Prop} (hlearns : learns ↔ l.learns w = true) {m : Nat} (hm : m = s.ttPos w q) :
    (learns → x.f (WHL_STATUS_LEARNING w) = 1 ∧ (m.testBit 25 = false → x.memNat (ttAddr (s.f (WHL_TTCFG_PBASE w) + q)) 4 =
      setBits m 0 24 (learnWidth (bitsOf m 0 24) (roundDiv ((x.wheel w).ints.2 * s.cycleU w) c) (x.wheel w).a2 (s.f (WHL_LEARN_LRATE w))))) ∧
    (¬learns → x.f (WHL_STATUS_LEARNING w) = 0) ∧ ((¬learns ∨ m.testBit 25 = true) → x.mem = s.mem) ∧
    ∀ z, (z < ttAddr (s.f (WHL_TTCFG_PBASE w) + q) ∨ ttAddr (s.f (WHL_TTCFG_PBASE w) + q) + 4 ≤ z) → x.byte z = s.byte z := by
  have hpos' : (l.wheel w).pos = some q := by rw [State.wheel_pos, ← h.trk]; exact hpos
  have hcyc' : (l.wheel w).cyc = [c, d] := by rw [State.wheel_cyc, ← h.trk]; exact hcyc
  have hlock : l.lockAt w q = m.testBit 25 := by rw [h.reached.table.lockAt, State.lockAt, hm]
  refine ⟨fun hl => ⟨?_, fun hfree => ?_⟩, fun hl => ?_, fun hno => h.learnt_mem hpos' ?_, fun z hz => h.learnt_byte hpos' hz⟩
  · rw [h.learning, hlearns.mp hl]; rfl
  · rw [h.learnt_entry hpos' hcyc' (hlearns.mp hl) (hlock.trans hfree), h.learnt_eq, hm]
  · rw [h.learning, Bool.eq_false_of_not_eq_true fun hon => hl (hlearns.mpr hon)]; rfl
  · exact hno.imp (fun hl => Bool.eq_false_of_not_eq_true fun hon => hl (hlearns.mpr hon)) hlock.trans

end Sys2Proof.Machine
end

section
namespace Sys2Proof.Machine

open Sys2Proof Reg

/-- Learning at an accepted tooth, from the state before it (R230): a tooth that costs sync leaves no cycle measured. -/
theorem toothProcess_learns {w p c d q m : Nat} {s : State} {r : Tooth} {e : Option Nat} (h : s.acceptsForward w r p e) {t : State}
    (ht : t = toothProcess w s) (hcyc : (t.wheel w).cyc = [c, d]) {learns : Prop}
    (hlearns : learns ↔ s.flag (WHL_LEARN_EN w) = true ∧ t.whlState w = 3 ∧ (t.wheel w).accl = false ∧ 2 ≤ (t.wheel w).hist.length ∧
      ((c : Int) - d).natAbs * 1024 ≤ s.f (WHL_LEARN_LTOL w) * c) (hpos : (t.wheel w).pos = some q) (hm : m = s.ttPos w q) :
    (learns → t.f (WHL_STATUS_LEARNING w) = 1 ∧ (m.testBit 25 = false → t.memNat (ttAddr (s.f (WHL_TTCFG_PBASE w) + q)) 4 =
      setBits m 0 24 (learnWidth (bitsOf m 0 24) (roundDiv ((t.wheel w).ints.2 * s.cycleU w) c) (t.wheel w).a2 (s.f (WHL_LEARN_LRATE w))))) ∧
    (¬learns → t.f (WHL_STATUS_LEARNING w) = 0) ∧ ((¬learns ∨ m.testBit 25 = true) → t.mem = s.mem) ∧
    ∀ z, (z < ttAddr (s.f (WHL_TTCFG_PBASE w) + q) ∨ ttAddr (s.f (WHL_TTCFG_PBASE w) + q) + 4 ≤ z) → t.byte z = s.byte z := by
  obtain ⟨l, acc, hfwd⟩ := toothProcess_forward h
  obtain ⟨-, -, -, -, -, hrev, hsecs, -⟩ := h
  have hread := readTooth_work w p l s noSlot
  rw [← ht] at hfwd
  by_cases hsync : (syncTooth w r.time (s.timeOfMc p) r.other false (readTooth w p l s)).1 = 0
  · obtain ⟨k, v, hstep⟩ := forwardTooth_step (acc := acc) ((readTooth_secs w p l s).trans hsecs) hsync
    rw [← hfwd] at hstep
    have hen : (readTooth w p l s).flag (WHL_LEARN_EN w) = s.flag (WHL_LEARN_EN w) :=
      hread.cfgFlag (Nat.le_of_ble_eq_true rfl) (by simp [WHL_LEARN_EN, WHL_LEARN, WHL_CFG, WHL_VRCFG])
    have hcfg (G : Fld) (hG : G.lo + G.w ≤ 32) (ho : G.off = WHL_LEARN w) : (readTooth w p l s).f G = s.f G :=
      hread.cfg hG (by rw [ho]; simp [WHL_LEARN, WHL_CFG, WHL_VRCFG])
    have hiff := hstep.learns_iff ((readTooth_reverse w p l s).trans hrev) hcyc
    rw [hen, hcfg (WHL_LEARN_LTOL w) (Nat.le_of_ble_eq_true rfl) rfl, ← hlearns] at hiff
    have hlearn := hstep.learns hcyc hpos hiff.symm (hm.trans (hread.table.ttPos q).symm)
    rw [hread.pbase, hread.table.cycleU, hcfg (WHL_LEARN_LRATE w) (Nat.le_of_ble_eq_true rfl) rfl, hread.mem] at hlearn
    simp only [byte_congr hread.mem] at hlearn
    exact hlearn
  · obtain ⟨-, -, hnone, -⟩ := lossAtTooth_trk w (syncTooth w r.time (s.timeOfMc p) r.other false (readTooth w p l s)).1 (s.timeOfMc p) r.time
      (syncTooth w r.time (s.timeOfMc p) r.other false (readTooth w p l s)).2
    rw [← forwardTooth_lost hsync (acc := acc), ← hfwd, hcyc] at hnone
    exact absurd hnone (by simp)

/-- A secondary edge whose interval is closed, from the state before it (R243, R244). -/
theorem toothProcess_phase {w p j i ph : Nat} {l : List (Tooth × Nat)} {s : State} {r : Tooth} {t1 t0 : Time} {a b : Nat}
    (h : toothProcess w s = secondary w r.time (s.timeOfMc p) (takeTooth w p l s)) (hsecs : (s.wheel w).secs = [])
    (hmode : phaseMode (s.f (WHL_CFG_SECMODE w)) = true) (hsrc : s.flag (WHL_SYNCCFG_SYNCSRC w) = false) (hst : s.whlState w = 3)
    (hclose : closing r.time (s.wheel w).recent = some ((t1, some b), (t0, some a)))
    (hbad : s.badWord (ttAddr (s.f (WHL_TTCFG_PBASE w))) (4 * s.teethN w) = false)
    (hj : j = if ((s.wheel w).numT.any fun u => future u r.time) = true then (s.wheel w).secPrev else (s.wheel w).secJ)
    (hi : i = s.f (WHL_TTCFG_SBASE w) + j) (hph : ph = s.edgeAngle w r.time (t1, b) (t0, a)) :
    (toothProcess w s).f (WHL_PHASE_PHASE w) = ph % 2 ^ 32 ∧
    (s.badWord (ttAddr i) 4 = false → (toothProcess w s).f (WHL_PHIDX_J w) = j % 2 ^ 10 ∧ (toothProcess w s).whlState w = 3 ∧
      (toothProcess w s).f (WHL_PHDIFF_DIFF w) = (BitVec.ofInt 32 (phaseDiff (s.teethN w) ph (s.ttWord i))).toNat) ∧
    (s.badWord (ttAddr i) 4 = true → (toothProcess w s).f (WHL_FLAGS_TTECC w) = 1 ∧ (toothProcess w s).whlState w = 1 ∧
      (toothProcess w s).f (WHL_STATUS_CAUSE w) = 6) := by
  have htake : TrackerWork w noSlot [] s (takeTooth w p l s) := modWheel_work w noSlot [] (f := Tracker.took p l) (fun _ => rfl) s
  have hwheel : (takeTooth w p l s).wheel w = (s.wheel w).took p l := State.modWheel_wheel_same s w _
  have hclose' : closing r.time ((takeTooth w p l s).wheel w).recent = some ((t1, some b), (t0, some a)) := by rw [hwheel]; exact hclose
  have hsecs' : ((takeTooth w p l s).wheel w).secs = [] := by rw [hwheel]; exact hsecs
  obtain ⟨v, hv, hsec⟩ := secondary_phase (s := takeTooth w p l s) (tp := s.timeOfMc p) hmode hsrc hst hsecs' hclose' hbad
  have hj' : (if (((takeTooth w p l s).wheel w).numT.any fun u => future u r.time) = true then ((takeTooth w p l s).wheel w).secPrev
      else ((takeTooth w p l s).wheel w).secJ) = j := by rw [hwheel, hj]; rfl
  have hwork := htake.trans hv
  have hshow := phaseMeasure_shows (w := w) (s := v) (t := r.time) (tp := s.timeOfMc p) (j := j) (i := i) (ph := ph) (hi := (t1, b)) (lo := (t0, a))
    ((hwork.fld .state (by simp)).trans hst) (by rw [hwork.sbase, hi]) (by rw [hwork.table.edgeAngle (hwork.fld .reverse (by simp)), hph])
  rw [hj', ← h] at hsec
  rw [hwork.table.badWord, hwork.table.count, hwork.table.ttWord, ← hsec] at hshow
  exact hshow

end Sys2Proof.Machine
end

section
namespace Sys2Proof

open Machine Reg

/-- Settles O36: at an accepted tooth each slot is met once, from the state that `toothProcess_slot` gives; a reversal, a disable and a RESYNC
visit each slot once too; every other clause reads off the operation's own equations. -/
theorem slotsAndTrackers : Obligations.SlotsAndTrackers := by
  refine ⟨?_, ?_, ?_, ?_, ?_, ?_, ?_, ?_⟩
  · intro w k s r p e y tp h hy htp
    subst htp
    refine ⟨toothProcess w s, rfl, ?_⟩
    rintro z q a rfl hpos ha hst hvalid
    obtain ⟨prev, N, x, hx, ht, hprev⟩ := toothProcess_slot k.isLt h rfl hpos hst hvalid
    refine ⟨fun cfg beg c tb late hwait hpast hst1 hcfg hbeg hc htb hl =>
        toothSlot_issues k.isLt hx ht hy hpos ha hwait hpast hst1 hcfg hbeg hc htb hl, ?_, ?_⟩
    · exact fun c passed tb late hst2 hfree hsend hc hp htb hl =>
        toothSlot_movesBegin hx ht hy hpos ha hst2 hfree hsend hc (by rw [hp, ha, hprev]) htb hl
    · exact fun c te h2 h4 hfree hend hguard hsend hc hte => toothSlot_movesEnd hx ht hy ⟨h2, h4⟩ hfree hend hguard hsend hc hte
  · rintro w k s r p tp h hport hgood hst hrev hflag hsecs rfl
    exact ⟨_, rfl, toothProcess_held k.isLt h hport hgood hst hrev hflag hsecs⟩
  · rintro req w k s i hr hen (rfl | rfl)
    · exact ⟨_, exec_trackerDisable hr, disable_held k.isLt hen⟩
    · exact ⟨_, exec_resync_enabled hr hen, resync_held k.isLt hen⟩
  · intro w k s y hy
    refine ⟨fun h1 h2 h3 => ⟨_, rfl, slotCommit_begins hy ⟨h1, h2, h3⟩⟩, fun hnot => ?_, fun h1 h2 h3 => ?_, fun hnot => ?_, fun h1 h2 => ?_,
      fun hnot => ?_⟩
    · have hbeg : ¬s.begDue y := fun ⟨h1, h2, h3⟩ => by simp [h1, h2, h3] at hnot
      refine ⟨fun h1 h2 h3 => ⟨_, rfl, slotCommit_ends hy hbeg ⟨h1, h2, h3⟩⟩, fun hnot' => congrArg Host.Outcome.next (slotCommit_idle hy hbeg ?_)⟩
      exact fun ⟨h1, h2, h3⟩ => by simp [h1, h2, h3] at hnot'
    · subst hy
      refine ⟨_, congrArg Host.Outcome.next (occurrenceBegin_begins h1 h2 h3), setSlotSt_slotSt _ _ _ _, setSlotSt_only 4 s⟩
    · subst hy
      exact congrArg Host.Outcome.next (occurrenceBegin_idle hnot)
    · obtain ⟨⟨hparity, hslot, hstate, hregs, honly⟩, hen⟩ := occurrenceEnd_over hy h1 h2
      exact ⟨_, rfl, hparity, hslot, hstate, hen, hregs, honly⟩
    · subst hy
      exact congrArg Host.Outcome.next (occurrenceEnd_idle hnot)
  · intro req w s hr
    refine ⟨fun hen => ?_, fun hen => ?_, fun hen hok => ⟨_, exec_trackerEnable hr, whlEnable_on hen hok⟩, fun hen hok => ?_, fun hen => ?_⟩
    · rw [exec_trackerEnable hr, whlEnable_enabled hen]
    · rw [exec_trackerDisable hr, whlDisable_disabled hen]
      exact ⟨rfl, exec_resync_disabled hr hen⟩
    · refine ⟨s.raise (WHL_FLAGS_CFGERR w), _, (exec_trackerEnable hr).trans (congrArg Host.Outcome.next (whlEnable_refused hen hok)), ?_, ?_,
        werr_refused _ _ _⟩
      · exact State.raise_f_same _ _ (Nat.le_of_ble_eq_true rfl) (Nat.le_refl 1)
      · exact raise_onlyNoted s _ (Nat.le_of_ble_eq_true rfl) (by simp [WHL_FLAGS_CFGERR])
    · exact ⟨⟨_, exec_trackerDisable hr, whlDisable_off hen⟩, _, exec_resync_enabled hr hen, resync_seeks hen⟩
  · intro req n val s
    refine ⟨fun h => ⟨_, congrArg Host.Outcome.next (ttWrite_refused h _ _ _), werr_refused _ _ _⟩,
      fun hon hlock hup => ⟨_, rfl, ttWrite_stores val.isLt hon hlock hup _ _⟩, fun hon hlock hup => ?_⟩
    refine ⟨_, congrArg Host.Outcome.next (ttWrite_waits hon hlock hup _ _ _), rfl, ?_⟩
    rw [postReq, State.modBank_bank_same]
  · intro req w val s hr
    obtain ⟨honly, hcounts, hseq⟩ := whlClr_clears w val.toNat s
    have hbit (i : Nat) : val.toNat.testBit i = val.getLsbD i := BitVec.testBit_toNat val
    rw [hbit] at hseq
    simp only [hbit] at hcounts
    exact ⟨_, exec_whlClr hr req val, honly, hcounts _ (.inr (.inr rfl)), hcounts _ (.inl rfl), hcounts _ (.inr (.inl rfl)), hseq⟩
  · exact fun p peak fine s => ⟨fun h => congrArg Host.Outcome.next (vrArm_idle h),
      fun hvr hphys hthr => ⟨_, rfl, vrArm_armed peak.isLt hvr hphys hthr⟩⟩

end Sys2Proof
end

section
namespace Sys2Proof

open Machine Reg

/-- Settles O35: each record is followed through `primary` and `secondary`. An accepted tooth is a `ForwardStep`, from which its position, its
state and what it learns are read; any other costs sync by `lossAtTooth`. -/
theorem teethAreProcessed : Obligations.TeethAreProcessed := by
  refine ⟨?_, ?_, ?_, ?_, ?_, ?_⟩
  · exact fun w s => ⟨fun h => congrArg Host.Outcome.next (toothArrival_none h), fun r h => ⟨_, rfl, toothArrival_arrives h⟩⟩
  · exact fun w s h => congrArg Host.Outcome.next (toothProcess_empty h)
  · rintro w s r ta p l early hf hp rfl
    refine ⟨fun hlt => congrArg Host.Outcome.next (toothProcess_early hf (hp ▸ hlt)), fun hmc hen => ?_⟩
    obtain ⟨hfifo, hlastP⟩ := toothProcess_queue hf hp hmc hen
    have htake := toothProcess_takes hf hp hmc hen
    refine ⟨_, rfl, hfifo, hlastP, fun hport => ?_⟩
    rw [if_pos hport] at htake
    refine ⟨fun hbad => toothProcess_bad htake hbad, fun hgood hst => ?_⟩
    rw [primary_good _ hgood hst] at htake
    refine ⟨fun hrev hsecs => toothProcess_reverse htake hrev hsecs, fun hfwd hon hsecs => ?_⟩
    rw [steer_forward _ ((readTooth_isReverse w p l s r.other).trans hfwd) ((readTooth_reverse w p l s).trans hon)] at htake
    exact toothProcess_judged htake hsecs
  · rintro w s r p N R e x done h rfl rfl rfl hdone
    obtain ⟨l, acc, hfwd⟩ := toothProcess_forward h
    obtain ⟨-, -, -, -, -, -, hsecs, he, -⟩ := id h
    refine ⟨_, rfl, ?_, ?_, ?_⟩
    · intro long hsrc hrefs hlong
      obtain rfl : long = s.longGap w (s.interval w r.time) := Bool.eq_iff_iff.mpr (hlong.trans (he ▸ State.longGap_iff.symm))
      refine ⟨gap_places hfwd hsecs hsrc, fun q n tl hpos hnext => ⟨fun hne => gap_loses hfwd hsrc hpos hnext hne hrefs,
        fun hl ht => gap_moves hfwd hsecs hsrc hpos hnext hl ht,
        fun hl ht hst => (hdone _ _).mpr (gap_confirms hfwd hsecs hsrc hpos hnext hl ht hst), ?_⟩⟩
      intro hl ht hcyc m half hm hhalf
      have hhalf' (a : Nat) : half a = s.halfOf w a := hhalf a
      obtain rfl : m = s.levelPos w r.other := hm
      simp only [hhalf']
      exact ⟨gap_halves hfwd hsecs hsrc hpos hnext hl ht hcyc, fun h3 =>
        ⟨gap_agrees hfwd hsecs hsrc hpos hnext hl ht hcyc h3, fun hne => gap_contradicts hfwd hsrc hpos hnext hl ht hcyc h3 hne hrefs⟩⟩
    · rintro before q hsrc rfl hq
      obtain rfl : q = s.nextPos w := hq
      refine ⟨fun ⟨u, hu, hby⟩ => ref_missed hfwd hsrc w.isLt hu hby, fun hmiss => ⟨ref_moves hfwd hsecs hsrc w.isLt hmiss,
        fun hb hq => (hdone _ _).mpr (ref_confirms hfwd hsecs hsrc w.isLt hmiss hb hq),
        ref_contradicts hfwd hsrc w.isLt hmiss, ref_places hfwd hsecs hsrc w.isLt hmiss⟩⟩
    · rintro c d q m y learns rfl hcyc hlearns hpos - hm
      exact toothProcess_learns h rfl hcyc hlearns hpos hm
  · rintro w s r p N x ⟨ta, l, hf, hp, hmc, hen⟩ hport rfl rfl hsecs
    have htake := toothProcess_takes hf hp hmc hen
    rw [if_neg hport] at htake
    refine ⟨_, rfl, fun hsec hsrc hrecent hlost => ?_, fun t1 t0 a b j i ph hmode hsrc hst hclose hbad hj hi hph => ?_⟩
    · have hwheel : (takeTooth w p l s).wheel w = (s.wheel w).took p l := State.modWheel_wheel_same s w _
      have href := secondary_ref (s := takeTooth w p l s) (t := r.time) (tp := s.timeOfMc p) hsec hsrc (by rw [hwheel]; exact hsecs)
        (by rw [hwheel]; exact hrecent) (by rw [hwheel]; exact hlost)
      rw [← htake, hwheel] at href
      exact href
    · exact toothProcess_phase htake hsecs hmode hsrc hst hclose hbad hj hi hph
  · exact fun w s t0 ts tst d ht hd hts htst => ⟨fun h => congrArg Host.Outcome.next (stall_idle ht hd hts htst h),
      fun h0 h4 hen hrun hdue hseen => ⟨_, rfl, stall_stalls ht hd hts htst h0 h4 hen hrun hdue hseen⟩⟩

end Sys2Proof
end
